-- ==== Sys2Proof/Word.lean ====
section
/-! DEFINITION. Words, bytes and the little-endian byte lists of R7, and the bit helpers of R71. -/

namespace Sys2Proof

/-- A byte (R7). -/
abbrev Byte := BitVec 8
/-- A 32-bit register word (R15). -/
abbrev Word := BitVec 32
/-- A register pair, its low word first (R7, R48). -/
abbrev DWord := BitVec 64
/-- A register quad (R48). -/
abbrev QWord := BitVec 128
/-- A 7-bit register field (R47, R48). -/
abbrev Reg := BitVec 7

/-- `Bits(x, hi, lo)` of R71 on natural numbers. -/
def bits (x hi lo : Nat) : Nat := x / 2 ^ lo % 2 ^ (hi + 1 - lo)

/-- Bit `i` of `x`. -/
def bitOf (x i : Nat) : Bool := x / 2 ^ i % 2 == 1

/-- `Sext(x, n)` of R71 as an exact integer. -/
def sextNat (x n : Nat) : Int :=
  let y := x % 2 ^ n
  if y < 2 ^ (n - 1) then (y : Int) else (y : Int) - (2 ^ n : Nat)

/-- `Sat(x, lo, hi)` of R71. -/
def satInt (x lo hi : Int) : Int := if x < lo then lo else if hi < x then hi else x

/-- `x + i` of a non-negative address and a signed displacement, modulo 2^64 (R150). -/
def addMod64 (x : Nat) (i : Int) : Nat := (((x : Int) + i) % (2 ^ 64 : Nat)).toNat

/-- The `n` little-endian bytes of `v` (R7). -/
def leBytes : Nat → Nat → List Byte
  | 0, _ => []
  | n + 1, v => BitVec.ofNat 8 v :: leBytes n (v / 256)

/-- The number that little-endian bytes spell (R7). -/
def leNat : List Byte → Nat
  | [] => 0
  | b :: bs => b.toNat + 256 * leNat bs

/-- The numbers `a, a + 1, …` (`n` of them). -/
def rangeFrom (a : Nat) : Nat → List Nat
  | 0 => []
  | n + 1 => a :: rangeFrom (a + 1) n

/-- Every `k`-byte chunk of a list of bytes, at most `n` of them. -/
def chunks (k : Nat) : Nat → List Byte → List (List Byte)
  | 0, _ => []
  | n + 1, bs => bs.take k :: chunks k n (bs.drop k)

/-- The element at an index, or a default. -/
def nth {α : Type} (d : α) (l : List α) (i : Nat) : α := l.getD i d

/-- A list with the element at an index replaced (unchanged past its end). -/
def setNth {α : Type} : List α → Nat → α → List α
  | [], _, _ => []
  | _ :: xs, 0, y => y :: xs
  | x :: xs, n + 1, y => x :: setNth xs n y

/-- A list extended with `d` up to length `n`. -/
def padTo {α : Type} (d : α) (n : Nat) (l : List α) : List α := l ++ List.replicate (n - l.length) d

/-- Insertion into a list ordered by `le`, after its equals. -/
def insertBy {α : Type} (le : α → α → Bool) (x : α) : List α → List α
  | [] => [x]
  | y :: ys => if le y x then y :: insertBy le x ys else x :: y :: ys

/-- Stable insertion sort. -/
def sortBy {α : Type} (le : α → α → Bool) (l : List α) : List α :=
  l.foldl (fun acc x => insertBy le x acc) []

/-- The least value of `f` over a list, or `d`. -/
def minBy {α : Type} (f : α → Nat) (d : Nat) (l : List α) : Nat :=
  l.foldl (fun m x => if f x < m then f x else m) d

/-- The elements whose index in the list satisfies nothing twice: a list without repeats. -/
def dedup {α : Type} [DecidableEq α] : List α → List α
  | [] => []
  | x :: xs => if xs.contains x then dedup xs else x :: dedup xs

/-- Ceiling division. -/
def cdiv (a b : Nat) : Nat := (a + b - 1) / b

end Sys2Proof
end

