-- ==== Sys2Proof/Syntax.lean ====
section
/-! DEFINITION. The instructions and steps of the H9: one constructor for each row of spec/opcode_table.json.
An encoded instruction's operands are its word's fields (R45, R47): `s` the switch marker S, `d`, `a`, `b` register
fields, `m` the immediate, `p` the scope, `f` the flag D, `u`, `v` the two sets of formats F and P, `c` their scope,
`n` and `l` the barrier id and level. A row without a word is a step of some agent of the module; its operands name
what it acts on, or are what the outside world supplies. -/

namespace Sys2Proof

/-- A firmware image as the boot ROM judges it (R361, R362): which checks it passes is a property of the image. -/
structure FirmwareImage where
  serial : Nat
  securityVersion : Nat
  ed25519Ok : Bool
  mlDsaOk : Bool
  digestsOk : Bool
  raiseMinimum : Bool
  deriving DecidableEq, Repr

/-- What self-test finds faulty (R367). -/
inductive Finding where
  | core (cluster : Nat)
  | way (die slice : Nat)
  | site (die site : Nat)
  | stack (stack : Nat)
  /-- a lane of a link, in one of its two directions -/
  | link (number : Nat) (back : Bool)
  deriving DecidableEq, Repr

/-- What a die finds for its sensor mailbox (R358) before the loop reads it; its engine power follows from its sites. -/
structure SensorReading where
  temperature : Nat
  power : Nat
  reads : Nat
  corrected : Nat
  uncorrected : Nat
  deriving DecidableEq, Repr

/-- One constructor per row of the opcode table. -/
inductive Instr where
  /-- Writes the sum of two words modulo 2^32 to d. (R127) -/
  | add (s : Bool) (d : Reg) (a : Reg) (b : Reg)
  /-- Writes the difference of two words modulo 2^32 to d. (R127) -/
  | sub (s : Bool) (d : Reg) (a : Reg) (b : Reg)
  /-- Writes the low 32 bits of the product to d. (R127) -/
  | mul (s : Bool) (d : Reg) (a : Reg) (b : Reg)
  /-- Writes the high 32 bits of the signed product to d. (R127) -/
  | mulh (s : Bool) (d : Reg) (a : Reg) (b : Reg)
  /-- Writes the high 32 bits of the unsigned product to d. (R127) -/
  | mulhu (s : Bool) (d : Reg) (a : Reg) (b : Reg)
  /-- Writes x times y plus d, low 32 bits, to d. (R127) -/
  | mad (s : Bool) (d : Reg) (a : Reg) (b : Reg)
  /-- Writes the unsigned quotient to d, or all ones on division by zero. (R127) -/
  | divu (s : Bool) (d : Reg) (a : Reg) (b : Reg)
  /-- Writes the unsigned remainder to d, or the dividend on division by zero. (R127) -/
  | remu (s : Bool) (d : Reg) (a : Reg) (b : Reg)
  /-- Writes the bitwise and to d. (R127) -/
  | and (s : Bool) (d : Reg) (a : Reg) (b : Reg)
  /-- Writes the bitwise or to d. (R127) -/
  | or (s : Bool) (d : Reg) (a : Reg) (b : Reg)
  /-- Writes the bitwise exclusive or to d. (R127) -/
  | xor (s : Bool) (d : Reg) (a : Reg) (b : Reg)
  /-- Writes x and not y to d. (R127) -/
  | andn (s : Bool) (d : Reg) (a : Reg) (b : Reg)
  /-- Shifts x left by the low five bits of y. (R127) -/
  | shl (s : Bool) (d : Reg) (a : Reg) (b : Reg)
  /-- Shifts x right logically by the low five bits of y. (R127) -/
  | shr (s : Bool) (d : Reg) (a : Reg) (b : Reg)
  /-- Shifts x right arithmetically by the low five bits of y. (R127) -/
  | sra (s : Bool) (d : Reg) (a : Reg) (b : Reg)
  /-- Rotates x left by the low five bits of y. (R127) -/
  | rot (s : Bool) (d : Reg) (a : Reg) (b : Reg)
  /-- Writes the signed smaller operand to d. (R127) -/
  | min (s : Bool) (d : Reg) (a : Reg) (b : Reg)
  /-- Writes the signed larger operand to d. (R127) -/
  | max (s : Bool) (d : Reg) (a : Reg) (b : Reg)
  /-- Writes the unsigned smaller operand to d. (R127) -/
  | minu (s : Bool) (d : Reg) (a : Reg) (b : Reg)
  /-- Writes the unsigned larger operand to d. (R127) -/
  | maxu (s : Bool) (d : Reg) (a : Reg) (b : Reg)
  /-- Writes 1 if the operands are equal, else 0. (R127) -/
  | seq (s : Bool) (d : Reg) (a : Reg) (b : Reg)
  /-- Writes 1 if the operands differ, else 0. (R127) -/
  | sne (s : Bool) (d : Reg) (a : Reg) (b : Reg)
  /-- Writes 1 if x is signed less than y, else 0. (R127) -/
  | slt (s : Bool) (d : Reg) (a : Reg) (b : Reg)
  /-- Writes 1 if x is unsigned less than y, else 0. (R127) -/
  | sltu (s : Bool) (d : Reg) (a : Reg) (b : Reg)
  /-- Writes 1 if x is signed at most y, else 0. (R127) -/
  | sle (s : Bool) (d : Reg) (a : Reg) (b : Reg)
  /-- Writes 1 if x is unsigned at most y, else 0. (R127) -/
  | sleu (s : Bool) (d : Reg) (a : Reg) (b : Reg)
  /-- Writes x to d when y is zero, otherwise writes nothing. (R128) -/
  | cmovz (s : Bool) (d : Reg) (a : Reg) (b : Reg)
  /-- Writes x to d when y is non-zero, otherwise writes nothing. (R128) -/
  | cmovn (s : Bool) (d : Reg) (a : Reg) (b : Reg)
  /-- Writes the 64-bit sum of two pairs to pair d. (R127) -/
  | add64 (s : Bool) (d : Reg) (a : Reg) (b : Reg)
  /-- Writes the 64-bit difference of two pairs to pair d. (R127) -/
  | sub64 (s : Bool) (d : Reg) (a : Reg) (b : Reg)
  /-- Writes the low 64 bits of the pair product to pair d. (R127) -/
  | mul64 (s : Bool) (d : Reg) (a : Reg) (b : Reg)
  /-- Adds a sign-extended word to a pair. (R127) -/
  | addx (s : Bool) (d : Reg) (a : Reg) (b : Reg)
  /-- Adds four times a sign-extended word to a pair. (R127) -/
  | addx4 (s : Bool) (d : Reg) (a : Reg) (b : Reg)
  /-- Extracts an unsigned bit field selected by y. (R128) -/
  | bfx (s : Bool) (d : Reg) (a : Reg) (b : Reg)
  /-- Extracts a sign-extended bit field selected by y. (R128) -/
  | bfxs (s : Bool) (d : Reg) (a : Reg) (b : Reg)
  /-- Inserts the low bits of x into a field of d selected by y. (R128) -/
  | bfi (s : Bool) (d : Reg) (a : Reg) (b : Reg)
  /-- Adds a sign-extended imm7 to a word. (R129) -/
  | addi (s : Bool) (d : Reg) (a : Reg) (m : BitVec 7)
  /-- The recognised ADDI w8, w8, 0 word, which writes no register and never raises WINDOW. (R56) -/
  | nop (s : Bool)
  /-- Ands a word with a zero-extended imm7. (R129) -/
  | andi (s : Bool) (d : Reg) (a : Reg) (m : BitVec 7)
  /-- Ors a word with a zero-extended imm7. (R129) -/
  | ori (s : Bool) (d : Reg) (a : Reg) (m : BitVec 7)
  /-- Exclusive-ors a word with a zero-extended imm7. (R129) -/
  | xori (s : Bool) (d : Reg) (a : Reg) (m : BitVec 7)
  /-- Shifts left by an immediate 0 to 31. (R129) -/
  | shli (s : Bool) (d : Reg) (a : Reg) (m : BitVec 7)
  /-- Shifts right logically by an immediate 0 to 31. (R129) -/
  | shri (s : Bool) (d : Reg) (a : Reg) (m : BitVec 7)
  /-- Shifts right arithmetically by an immediate 0 to 31. (R129) -/
  | srai (s : Bool) (d : Reg) (a : Reg) (m : BitVec 7)
  /-- Writes 1 if x is signed less than the immediate. (R129) -/
  | slti (s : Bool) (d : Reg) (a : Reg) (m : BitVec 7)
  /-- Writes 1 if x is unsigned less than the sign-extended immediate. (R129) -/
  | sltui (s : Bool) (d : Reg) (a : Reg) (m : BitVec 7)
  /-- Writes 1 if x equals the sign-extended immediate. (R129) -/
  | seqi (s : Bool) (d : Reg) (a : Reg) (m : BitVec 7)
  /-- Multiplies a word by the sign-extended immediate. (R129) -/
  | muli (s : Bool) (d : Reg) (a : Reg) (m : BitVec 7)
  /-- Adds a sign-extended immediate to a pair. (R129) -/
  | add64i (s : Bool) (d : Reg) (a : Reg) (m : BitVec 7)
  /-- Counts leading zero bits. (R130) -/
  | clz (s : Bool) (d : Reg) (a : Reg)
  /-- Counts one bits. (R130) -/
  | popc (s : Bool) (d : Reg) (a : Reg)
  /-- Reverses the bit order of a word. (R130) -/
  | brev (s : Bool) (d : Reg) (a : Reg)
  /-- Writes the absolute value of a signed word modulo 2^32. (R130) -/
  | abs (s : Bool) (d : Reg) (a : Reg)
  /-- Sign-extends the low byte. (R130) -/
  | sexb (s : Bool) (d : Reg) (a : Reg)
  /-- Sign-extends the low half-word. (R130) -/
  | sexh (s : Bool) (d : Reg) (a : Reg)
  /-- Writes a sign-extended imm14 to d. (R131) -/
  | movi (s : Bool) (d : Reg) (m : BitVec 14)
  /-- Writes the following literal word to d and advances the PC by 8. (R131) -/
  | movw (s : Bool) (d : Reg) (lit : Word)
  /-- Writes the rounded FP32 sum. (R132) -/
  | fadd (s : Bool) (d : Reg) (a : Reg) (b : Reg)
  /-- Writes the rounded FP32 difference. (R132) -/
  | fsub (s : Bool) (d : Reg) (a : Reg) (b : Reg)
  /-- Writes the rounded FP32 product. (R132) -/
  | fmul (s : Bool) (d : Reg) (a : Reg) (b : Reg)
  /-- Writes x times y plus d with one rounding. (R132) -/
  | ffma (s : Bool) (d : Reg) (a : Reg) (b : Reg)
  /-- Writes minimumNumber of two FP32 values. (R133) -/
  | fmin (s : Bool) (d : Reg) (a : Reg) (b : Reg)
  /-- Writes maximumNumber of two FP32 values. (R133) -/
  | fmax (s : Bool) (d : Reg) (a : Reg) (b : Reg)
  /-- Writes the rounded FP32 quotient. (R132) -/
  | fdiv (s : Bool) (d : Reg) (a : Reg) (b : Reg)
  /-- Writes 1 if two FP32 values compare equal. (R133) -/
  | fseq (s : Bool) (d : Reg) (a : Reg) (b : Reg)
  /-- Writes 1 if x is less than y in FP32. (R133) -/
  | fslt (s : Bool) (d : Reg) (a : Reg) (b : Reg)
  /-- Writes 1 if x is at most y in FP32. (R133) -/
  | fsle (s : Bool) (d : Reg) (a : Reg) (b : Reg)
  /-- Writes 1 if either operand is NaN. (R132) -/
  | fsun (s : Bool) (d : Reg) (a : Reg) (b : Reg)
  /-- Writes x's magnitude bits with y's sign. (R132) -/
  | fcpys (s : Bool) (d : Reg) (a : Reg) (b : Reg)
  /-- Writes the rounded FP32 square root. (R134) -/
  | fsqrt (s : Bool) (d : Reg) (a : Reg)
  /-- Writes the rounded FP32 reciprocal. (R134) -/
  | frcp (s : Bool) (d : Reg) (a : Reg)
  /-- Writes the rounded FP32 reciprocal square root. (R134) -/
  | frsq (s : Bool) (d : Reg) (a : Reg)
  /-- Writes the rounded FP32 power of two. (R134) -/
  | fexp2 (s : Bool) (d : Reg) (a : Reg)
  /-- Writes the rounded FP32 base-2 logarithm. (R134) -/
  | flog2 (s : Bool) (d : Reg) (a : Reg)
  /-- Clears bit 31. (R134) -/
  | fabs (s : Bool) (d : Reg) (a : Reg)
  /-- Inverts bit 31. (R134) -/
  | fneg (s : Bool) (d : Reg) (a : Reg)
  /-- Adds two BF16 pairs half by half. (R135) -/
  | hadd2 (s : Bool) (d : Reg) (a : Reg) (b : Reg)
  /-- Multiplies two BF16 pairs half by half. (R135) -/
  | hmul2 (s : Bool) (d : Reg) (a : Reg) (b : Reg)
  /-- Fused multiply-adds BF16 pairs into d half by half. (R135) -/
  | hfma2 (s : Bool) (d : Reg) (a : Reg) (b : Reg)
  /-- Takes maximumNumber of BF16 pairs half by half. (R135) -/
  | hmax2 (s : Bool) (d : Reg) (a : Reg) (b : Reg)
  /-- Adds two FP16 pairs half by half. (R135) -/
  | eadd2 (s : Bool) (d : Reg) (a : Reg) (b : Reg)
  /-- Multiplies two FP16 pairs half by half. (R135) -/
  | emul2 (s : Bool) (d : Reg) (a : Reg) (b : Reg)
  /-- Fused multiply-adds FP16 pairs into d half by half. (R135) -/
  | efma2 (s : Bool) (d : Reg) (a : Reg) (b : Reg)
  /-- Takes maximumNumber of FP16 pairs half by half. (R135) -/
  | emax2 (s : Bool) (d : Reg) (a : Reg) (b : Reg)
  /-- Converts a signed word to FP32. (R136) -/
  | cvtF32Sw (s : Bool) (d : Reg) (a : Reg)
  /-- Converts an unsigned word to FP32. (R136) -/
  | cvtF32Uw (s : Bool) (d : Reg) (a : Reg)
  /-- Converts FP32 to a signed word, truncating and saturating. (R136) -/
  | cvtSwF32 (s : Bool) (d : Reg) (a : Reg)
  /-- Converts FP32 to a signed word, rounding to nearest even and saturating. (R136) -/
  | cvtSwF32Rn (s : Bool) (d : Reg) (a : Reg)
  /-- Converts FP32 to an unsigned word, truncating and saturating. (R136) -/
  | cvtUwF32 (s : Bool) (d : Reg) (a : Reg)
  /-- Packs two FP32 values rounded to BF16. (R136) -/
  | cvtBf16F32 (s : Bool) (d : Reg) (a : Reg) (b : Reg)
  /-- Rounds FP32 to BF16 stochastically with 16 random bits from b. (R98) -/
  | cvtBf16F32Sr (s : Bool) (d : Reg) (a : Reg) (b : Reg)
  /-- Packs two FP32 values rounded to FP16. (R136) -/
  | cvtFp16F32 (s : Bool) (d : Reg) (a : Reg) (b : Reg)
  /-- Converts the low BF16 half to FP32 exactly. (R136) -/
  | cvtF32Bf16 (s : Bool) (d : Reg) (a : Reg)
  /-- Converts the low FP16 half to FP32 exactly. (R136) -/
  | cvtF32Fp16 (s : Bool) (d : Reg) (a : Reg)
  /-- Encodes FP32 as an LC8 byte by R76. (R136) -/
  | cvtLc8F32 (s : Bool) (d : Reg) (a : Reg)
  /-- Converts the low LC8 byte to FP32. (R136) -/
  | cvtF32Lc8 (s : Bool) (d : Reg) (a : Reg)
  /-- Converts FP32 to a saturated, sign-extended I8. (R136) -/
  | cvtI8F32 (s : Bool) (d : Reg) (a : Reg)
  /-- Transfers unconditionally to PC plus a word offset. (R142) -/
  | br (s : Bool) (m : BitVec 21)
  /-- Checks the callee header and frame limit, writes the link to w7 and transfers. (R143) -/
  | call (s : Bool) (m : BitVec 21)
  /-- Branches when the tested word is zero. (R142) -/
  | bez (s : Bool) (d : Reg) (m : BitVec 14)
  /-- Branches when the tested word is non-zero. (R142) -/
  | bnz (s : Bool) (d : Reg) (m : BitVec 14)
  /-- Calls a register target after the header and frame checks. (R143) -/
  | callr (s : Bool) (a : Reg)
  /-- Tail-transfers to a register target after the call checks, without link. (R143) -/
  | jr (s : Bool) (a : Reg)
  /-- Returns to w7 after checking that the preceding word is a call. (R143) -/
  | ret (s : Bool)
  /-- Opens a counted loop, raising BOUND when the count is 0 or above the declared maximum. (R144) -/
  | looph (s : Bool) (d : Reg) (m : BitVec 14)
  /-- Decrements the loop counter and branches back while it is non-zero. (R144) -/
  | loope (s : Bool) (d : Reg) (m : BitVec 14)
  /-- Sets the register window base to an immediate. (R146) -/
  | wbase (s : Bool) (m : BitVec 14)
  /-- Moves the register window base by a signed immediate. (R146) -/
  | wbadj (s : Bool) (m : BitVec 14)
  /-- Ends the thread after its run's park. (R147) -/
  | exit (s : Bool)
  /-- Raises trap TRAP with an immediate operand, ending the workgroup. (R148) -/
  | trap (s : Bool) (m : BitVec 21)
  /-- Raises trap BRK, or saves the workgroup for the driver in a debug launch. (R148) -/
  | brk (s : Bool) (m : BitVec 21)
  /-- Reads a from the member on a chosen lane. (R139) -/
  | shfl (s : Bool) (d : Reg) (a : Reg) (b : Reg)
  /-- Reads a from the member on lane L xor y. (R139) -/
  | shflx (s : Bool) (d : Reg) (a : Reg) (b : Reg)
  /-- Reads a from the member y lanes below. (R139) -/
  | shflu (s : Bool) (d : Reg) (a : Reg) (b : Reg)
  /-- Reads a from the member y lanes above. (R139) -/
  | shfld (s : Bool) (d : Reg) (a : Reg) (b : Reg)
  /-- Writes 1 if any member's value is non-zero. (R139) -/
  | vany (s : Bool) (d : Reg) (a : Reg)
  /-- Writes 1 if every member's value is non-zero. (R139) -/
  | vall (s : Bool) (d : Reg) (a : Reg)
  /-- Writes the mask of members whose value is non-zero. (R139) -/
  | vbal (s : Bool) (d : Reg) (a : Reg)
  /-- Writes the mask of members whose value equals the reader's. (R139) -/
  | matchOp (s : Bool) (d : Reg) (a : Reg)
  /-- Writes the sum of the members' values modulo 2^32. (R139) -/
  | gsum (s : Bool) (d : Reg) (a : Reg)
  /-- Writes the mask of the issue group's members. (R139) -/
  | lanes (s : Bool) (d : Reg)
  /-- Samples the die's clock interval into a quad and sets %clkw. (R141) -/
  | clki (s : Bool) (d : Reg)
  /-- Reads a user-view special register into d. (R140) -/
  | mfs (s : Bool) (d : Reg) (m : BitVec 14)
  /-- Writes d to a user-view special register, applying its access code. (R140) -/
  | mts (s : Bool) (d : Reg) (m : BitVec 14)
  /-- Loads a zero-extended byte on the ordinary path. (R149) -/
  | ldb (s : Bool) (d : Reg) (a : Reg) (m : BitVec 7)
  /-- Loads a sign-extended byte on the ordinary path. (R149) -/
  | ldbs (s : Bool) (d : Reg) (a : Reg) (m : BitVec 7)
  /-- Loads a zero-extended half-word. (R149) -/
  | ldh (s : Bool) (d : Reg) (a : Reg) (m : BitVec 7)
  /-- Loads a sign-extended half-word. (R149) -/
  | ldhs (s : Bool) (d : Reg) (a : Reg) (m : BitVec 7)
  /-- Loads a word. (R149) -/
  | ldw (s : Bool) (d : Reg) (a : Reg) (m : BitVec 7)
  /-- Loads a pair. (R149) -/
  | ldd (s : Bool) (d : Reg) (a : Reg) (m : BitVec 7)
  /-- Loads a quad as two 8-byte accesses. (R149) -/
  | ldq (s : Bool) (d : Reg) (a : Reg) (m : BitVec 7)
  /-- Stores a byte on the ordinary path. (R149) -/
  | stb (s : Bool) (d : Reg) (a : Reg) (m : BitVec 7)
  /-- Stores a half-word. (R149) -/
  | sth (s : Bool) (d : Reg) (a : Reg) (m : BitVec 7)
  /-- Stores a word. (R149) -/
  | stw (s : Bool) (d : Reg) (a : Reg) (m : BitVec 7)
  /-- Stores a pair. (R149) -/
  | std (s : Bool) (d : Reg) (a : Reg) (m : BitVec 7)
  /-- Stores a quad as two 8-byte accesses. (R149) -/
  | stq (s : Bool) (d : Reg) (a : Reg) (m : BitVec 7)
  /-- Loads a word through the constant cache. (R153) -/
  | ldc (s : Bool) (d : Reg) (a : Reg) (m : BitVec 7)
  /-- Loads a pair through the constant cache. (R153) -/
  | ldcd (s : Bool) (d : Reg) (a : Reg) (m : BitVec 7)
  /-- Indexed zero-extended byte load. (R149) -/
  | ldbx (s : Bool) (d : Reg) (a : Reg) (b : Reg)
  /-- Indexed sign-extended byte load. (R149) -/
  | ldbsx (s : Bool) (d : Reg) (a : Reg) (b : Reg)
  /-- Indexed zero-extended half-word load. (R149) -/
  | ldhx (s : Bool) (d : Reg) (a : Reg) (b : Reg)
  /-- Indexed sign-extended half-word load. (R149) -/
  | ldhsx (s : Bool) (d : Reg) (a : Reg) (b : Reg)
  /-- Indexed word load. (R149) -/
  | ldwx (s : Bool) (d : Reg) (a : Reg) (b : Reg)
  /-- Indexed pair load. (R149) -/
  | lddx (s : Bool) (d : Reg) (a : Reg) (b : Reg)
  /-- Indexed quad load. (R149) -/
  | ldqx (s : Bool) (d : Reg) (a : Reg) (b : Reg)
  /-- Indexed byte store. (R149) -/
  | stbx (s : Bool) (d : Reg) (a : Reg) (b : Reg)
  /-- Indexed half-word store. (R149) -/
  | sthx (s : Bool) (d : Reg) (a : Reg) (b : Reg)
  /-- Indexed word store. (R149) -/
  | stwx (s : Bool) (d : Reg) (a : Reg) (b : Reg)
  /-- Indexed pair store. (R149) -/
  | stdx (s : Bool) (d : Reg) (a : Reg) (b : Reg)
  /-- Indexed quad store. (R149) -/
  | stqx (s : Bool) (d : Reg) (a : Reg) (b : Reg)
  /-- Indexed word load through the constant cache. (R153) -/
  | ldcx (s : Bool) (d : Reg) (a : Reg) (b : Reg)
  /-- Indexed pair load through the constant cache. (R153) -/
  | ldcdx (s : Bool) (d : Reg) (a : Reg) (b : Reg)
  /-- Holds the thread until its earlier predecessor-set operations have performed at the scope. (R155) -/
  | fence (s : Bool) (u : BitVec 7) (v : BitVec 7) (c : BitVec 3)
  /-- Holds until writes on the from paths have performed and drops older copies on the to paths. (R157) -/
  | pfence (s : Bool) (u : BitVec 7) (v : BitVec 7)
  /-- Waits until a sluice count reaches a value, then invalidates the bound regions' L1 lines. (R160) -/
  | slacq (s : Bool) (d : Reg) (a : Reg) (b : Reg)
  /-- Performs the thread's bound-region writes at the sluice scope, then increments the release count. (R159) -/
  | slrel (s : Bool) (a : Reg)
  /-- Arrives at a barrier without waiting. (R161) -/
  | bara (s : Bool) (n : BitVec 4) (l : BitVec 3) (a : Reg)
  /-- Waits for the phase of the member's last arrival to complete. (R163) -/
  | barw (s : Bool) (n : BitVec 4) (l : BitVec 3)
  /-- Arrives at a barrier and waits for its phase. (R163) -/
  | bar (s : Bool) (n : BitVec 4) (l : BitVec 3) (a : Reg)
  /-- Arrives with expected landed bytes and waits until arrivals and bytes are met. (R164) -/
  | barx (s : Bool) (n : BitVec 4) (l : BitVec 3) (a : Reg)
  /-- Arms a watch on a line and loads a word at its home. (R165) -/
  | mon (s : Bool) (d : Reg) (a : Reg)
  /-- Sleeps until the watched line is written, the watch is lost or the limit expires. (R166) -/
  | mwait (s : Bool) (d : Reg) (a : Reg)
  /-- Atomically adds a word at the scope's site and returns the old value. (R168) -/
  | amoAdd (s : Bool) (p : BitVec 3) (d : Reg) (a : BitVec 6) (f : Bool) (b : Reg)
  /-- Atomically ands a word and returns the old value. (R168) -/
  | amoAnd (s : Bool) (p : BitVec 3) (d : Reg) (a : BitVec 6) (f : Bool) (b : Reg)
  /-- Atomically ors a word and returns the old value. (R168) -/
  | amoOr (s : Bool) (p : BitVec 3) (d : Reg) (a : BitVec 6) (f : Bool) (b : Reg)
  /-- Atomically exclusive-ors a word and returns the old value. (R168) -/
  | amoXor (s : Bool) (p : BitVec 3) (d : Reg) (a : BitVec 6) (f : Bool) (b : Reg)
  /-- Atomically takes the signed minimum and returns the old value. (R168) -/
  | amoMin (s : Bool) (p : BitVec 3) (d : Reg) (a : BitVec 6) (f : Bool) (b : Reg)
  /-- Atomically takes the signed maximum and returns the old value. (R168) -/
  | amoMax (s : Bool) (p : BitVec 3) (d : Reg) (a : BitVec 6) (f : Bool) (b : Reg)
  /-- Atomically exchanges a word and returns the old value. (R168) -/
  | amoXchg (s : Bool) (p : BitVec 3) (d : Reg) (a : BitVec 6) (f : Bool) (b : Reg)
  /-- Atomically adds an FP32 value with rounding and returns the old value. (R168) -/
  | amoFadd (s : Bool) (p : BitVec 3) (d : Reg) (a : BitVec 6) (f : Bool) (b : Reg)
  /-- Atomically takes the unsigned minimum and returns the old value. (R168) -/
  | amoMinu (s : Bool) (p : BitVec 3) (d : Reg) (a : BitVec 6) (f : Bool) (b : Reg)
  /-- Atomically takes the unsigned maximum and returns the old value. (R168) -/
  | amoMaxu (s : Bool) (p : BitVec 3) (d : Reg) (a : BitVec 6) (f : Bool) (b : Reg)
  /-- Atomically adds a 64-bit value and returns the old pair. (R168) -/
  | amoAdd64 (s : Bool) (p : BitVec 3) (d : Reg) (a : BitVec 6) (f : Bool) (b : Reg)
  /-- Compares a word with d and swaps in b on equality; returns the old value. (R169) -/
  | casW (s : Bool) (p : BitVec 3) (d : Reg) (a : BitVec 6) (f : Bool) (b : Reg)
  /-- Compares a pair with d and swaps in b on equality; returns the old value. (R169) -/
  | casD (s : Bool) (p : BitVec 3) (d : Reg) (a : BitVec 6) (f : Bool) (b : Reg)
  /-- Stores v when it is greater than the old 64-bit value; returns the old value. (R169) -/
  | gts (s : Bool) (p : BitVec 3) (d : Reg) (a : BitVec 6) (f : Bool) (b : Reg)
  /-- Swaps in v when the top 16 bits match the expected value. (R169) -/
  | vcas (s : Bool) (p : BitVec 3) (d : Reg) (a : BitVec 6) (f : Bool) (b : Reg)
  /-- On a full match stores v's low 48 bits with the tag incremented. (R169) -/
  | tcas (s : Bool) (p : BitVec 3) (d : Reg) (a : BitVec 6) (f : Bool) (b : Reg)
  /-- No-return atomic add at the scope's site. (R173) -/
  | redAdd (s : Bool) (p : BitVec 3) (f : Bool) (a : BitVec 6) (b : Reg)
  /-- No-return atomic and. (R173) -/
  | redAnd (s : Bool) (p : BitVec 3) (f : Bool) (a : BitVec 6) (b : Reg)
  /-- No-return atomic or. (R173) -/
  | redOr (s : Bool) (p : BitVec 3) (f : Bool) (a : BitVec 6) (b : Reg)
  /-- No-return atomic exclusive or. (R173) -/
  | redXor (s : Bool) (p : BitVec 3) (f : Bool) (a : BitVec 6) (b : Reg)
  /-- No-return atomic signed minimum. (R173) -/
  | redMin (s : Bool) (p : BitVec 3) (f : Bool) (a : BitVec 6) (b : Reg)
  /-- No-return atomic signed maximum. (R173) -/
  | redMax (s : Bool) (p : BitVec 3) (f : Bool) (a : BitVec 6) (b : Reg)
  /-- No-return atomic unsigned minimum. (R173) -/
  | redMinu (s : Bool) (p : BitVec 3) (f : Bool) (a : BitVec 6) (b : Reg)
  /-- No-return atomic unsigned maximum. (R173) -/
  | redMaxu (s : Bool) (p : BitVec 3) (f : Bool) (a : BitVec 6) (b : Reg)
  /-- No-return atomic FP32 add, deterministic with D in a .det launch. (R173) -/
  | redFadd (s : Bool) (p : BitVec 3) (f : Bool) (a : BitVec 6) (b : Reg)
  /-- No-return atomic paired BF16 add. (R173) -/
  | redHadd2 (s : Bool) (p : BitVec 3) (f : Bool) (a : BitVec 6) (b : Reg)
  /-- No-return atomic FP32 minimum. (R173) -/
  | redFmin (s : Bool) (p : BitVec 3) (f : Bool) (a : BitVec 6) (b : Reg)
  /-- No-return atomic FP32 maximum. (R173) -/
  | redFmax (s : Bool) (p : BitVec 3) (f : Bool) (a : BitVec 6) (b : Reg)
  /-- Begins a transaction with an abort path, or raises BOUND when the abort count reaches its limit. (R178) -/
  | txb (s : Bool) (m : BitVec 14)
  /-- Commits the group's transactions through intra-group, capacity and home validation stages. (R181) -/
  | txe (d : Reg)
  /-- Aborts the active transaction with cause EXPLICIT and a code. (R182) -/
  | txa (m : BitVec 14)
  /-- Stamps a 4-byte store with the interval's latest time and sends it pending to its home. (R186) -/
  | stst (s : Bool) (d : Reg) (a : Reg) (b : Reg)
  /-- Stamps an 8-byte store and sends it pending to its home. (R186) -/
  | ststd (s : Bool) (d : Reg) (a : Reg) (b : Reg)
  /-- Waits until the die's waterline exceeds a stamp. (R188) -/
  | cwait (s : Bool) (d : Reg) (a : Reg)
  /-- Reads a stamped word as of a stamp, with status OK, TOO_OLD or NOT_YET. (R189) -/
  | ldas (s : Bool) (d : Reg) (a : Reg) (b : Reg)
  /-- Discards polder lines without write-back and returns their capacity. (R191) -/
  | pdisc (s : Bool) (d : Reg) (a : Reg) (b : Reg)
  /-- Moves a polder range to another die's reservation through a GX site. (R192) -/
  | pmove (s : Bool) (d : Reg) (a : Reg) (b : Reg)
  /-- Requests a lease of engine sites, returning a handle, a ticket or DENIED. (R195) -/
  | lease (s : Bool) (d : Reg) (a : Reg) (b : Reg)
  /-- Waits until a lease is granted and awake. (R198) -/
  | lwait (s : Bool) (d : Reg) (a : Reg)
  /-- Releases a lease or withdraws a queued request. (R200) -/
  | lrel (s : Bool) (d : Reg) (a : Reg)
  /-- Reads the state of a handle or ticket without waiting. (R199) -/
  | lstat (s : Bool) (d : Reg) (a : Reg)
  /-- Places a tensor copy entry in a TC queue. (R208) -/
  | tcopy (s : Bool) (d : Reg) (a : Reg) (b : Reg)
  /-- Places a copy and reserves a follow-on MXMA in the MX queue. (R209) -/
  | tcopym (s : Bool) (d : Reg) (a : Reg) (b : Reg)
  /-- Places a gather of indexed table rows in a GX queue. (R210) -/
  | gath (s : Bool) (d : Reg) (a : Reg) (b : Reg)
  /-- Places a scatter to indexed table rows in a GX queue. (R210) -/
  | scat (s : Bool) (d : Reg) (a : Reg) (b : Reg)
  /-- Places a collective contribution in a CL queue. (R211) -/
  | coll (s : Bool) (d : Reg) (a : Reg) (b : Reg)
  /-- Places an AV1 frame decode in a VD queue. (R212) -/
  | vdec (s : Bool) (d : Reg) (a : Reg) (b : Reg)
  /-- Places a fence entry joining up to four queues. (R206) -/
  | qfence (s : Bool) (d : Reg) (a : Reg)
  /-- Closes the thread's open batch and numbers it. (R216) -/
  | bseal (s : Bool) (d : Reg)
  /-- Waits until at most a given number of sealed batches are unfinished. (R217) -/
  | bwait (s : Bool) (d : Reg) (a : Reg)
  /-- Writes a batch record into a quad. (R218) -/
  | bstat (s : Bool) (d : Reg) (a : Reg)
  /-- Places a matrix multiply-accumulate of two tiles into an accumulator. (R222) -/
  | mxma (s : Bool) (d : Reg) (a : Reg) (b : Reg)
  /-- Places a clear of an accumulator with its type. (R221) -/
  | accz (s : Bool) (d : Reg)
  /-- Places a readout of an accumulator into an empty tile. (R224) -/
  | accout (s : Bool) (d : Reg) (a : Reg)
  /-- Takes the lowest free tile within the launch's share. (R226) -/
  | talloc (s : Bool) (d : Reg)
  /-- Frees an empty or unread ready tile. (R227) -/
  | tfree (s : Bool) (d : Reg) (a : Reg)
  /-- Reads a tile table entry. (R227) -/
  | tstate (s : Bool) (d : Reg) (a : Reg)
  /-- Sets a ready tile draining, or a draining tile empty. (R227) -/
  | tset (s : Bool) (d : Reg) (a : Reg)
  /-- Waits until a tile is empty or ready. (R229) -/
  | twait (s : Bool) (d : Reg) (a : Reg) (b : Reg)
  /-- Loads 16 bytes of a tile row on the tile path. (R230) -/
  | ldt (s : Bool) (d : Reg) (a : Reg) (b : Reg)
  /-- Stores 16 bytes into a ready tile row on the tile path. (R230) -/
  | stt (s : Bool) (d : Reg) (a : Reg) (b : Reg)
  /-- Gives words from the top of the allocation to the lane's pool at the park. (R234) -/
  | rgive (m : BitVec 14)
  /-- Queues a bounded claim of words from the lane's pool. (R235) -/
  | rclaim (s : Bool) (d : Reg) (m : BitVec 14)
  /-- Reads the lane's pool size and waiting claims. (R236) -/
  | rpool (s : Bool) (d : Reg)
  /-- Emits a continuation record to the cluster's leaf controller. (R239) -/
  | spawn (s : Bool) (d : Reg) (a : Reg) (b : Reg)
  /-- Waits until the workgroup holds the commit token. (R241) -/
  | tokw (s : Bool) (d : Reg)
  /-- Starts passing the commit token. (R242) -/
  | tokp (s : Bool) (d : Reg)
  /-- Draws the counter-based random word and advances the counter. (R137) -/
  | rndb (s : Bool) (d : Reg)
  /-- Reads a privileged-view register, possibly of another die. (R244) -/
  | mfsr (s : Bool) (d : Reg) (m : BitVec 14)
  /-- Writes a privileged-view register, possibly of another die. (R244) -/
  | mtsr (s : Bool) (d : Reg) (m : BitVec 14)
  /-- Invalidates translations, L1 lines and watches for a page, a context or all contexts. (R248) -/
  | tlbi (s : Bool) (d : Reg) (a : Reg) (b : Reg)
  /-- Returns from a trap handler to %epc. (R249) -/
  | eret
  /-- Ends the whole workgroup at its park with a code-0 record. (R250) -/
  | halt (a : Reg)
  /-- Pre-empts a workgroup of another launch as an operator action. (R251) -/
  | ctxsav (s : Bool) (d : Reg) (a : Reg)
  /-- Resumes a workgroup saved by CTXSAV on a target die. (R252) -/
  | ctxres (s : Bool) (d : Reg) (a : Reg) (b : Reg)
  /-- Posts a service record to the launch's service queue. (R253) -/
  | sysc (s : Bool) (m : BitVec 21)
  /-- When every outstanding result of a parked run has returned, results commit and the thread becomes ready. (R58) -/
  | runParkComplete (ctx wg : Nat) (tids : List Nat)
  /-- At the end of each 4 096-cycle window the load limit halves or doubles by the victim-hit count. (R22) -/
  | localityWindowEnd (core : Nat)
  /-- The leaf controller admits and places a workgroup on a core when the admission conditions hold. (R26) -/
  | workgroupDispatch (ctx wg core : Nat)
  /-- When all threads have exited and stores are acknowledged, the workgroup's resources return to the core. (R23) -/
  | workgroupEnd (ctx wg : Nat)
  /-- A continuation record arriving at the leaf controller is binned, closing a bin at 32 records. (R28) -/
  | continuationRecord (id : Nat)
  /-- A bin closes 2 µs after its first record and forms a workgroup. (R28) -/
  | binCloseTimeout (cluster bin : Nat)
  /-- After a generation retires, sorted records are merged and cut into numbered continuation workgroups. (R31) -/
  | detGenerationForm (ctx : Nat)
  /-- A workgroup is stopped, drained and saved into its context area. (R38) -/
  | preemption (ctx wg cause : Nat)
  /-- A saved workgroup is restored on a core with room, re-entering queue entries and leases. (R41) -/
  | resumption (ctx wg core : Nat)
  /-- A waiting instruction's condition comes to hold and it completes. (R66) -/
  | waitWake (ctx wg : Nat) (tids : List Nat)
  /-- A wait or tile-hold limit expires and the instruction completes with TIMEOUT. (R67) -/
  | waitTimeout (ctx wg tid : Nat)
  /-- The filling command's last byte lands and the tile becomes ready. (R114) -/
  | tileFillComplete (cluster tile : Nat)
  /-- A reading operation finishes, lowering the reader count and emptying a draining tile at zero. (R114) -/
  | tileReaderFinish (cluster tile : Nat)
  /-- A queue entry starts once its predecessors, fences and awake site allow. (R205) -/
  | entryStart (die site : Nat)
  /-- The sequencer completes one step of a tile-level entry. (R219) -/
  | macroStep (die site : Nat)
  /-- An entry's last write performs, finishing it in its batch. (R205) -/
  | entryComplete (die site : Nat)
  /-- A rank's collective contribution arrives and is checked and combined in rank order. (R211) -/
  | collContribution (ctx tag rank op n : Nat) (data : List Word)
  /-- The arbiter grants the head queued request when sites and budget allow. (R197) -/
  | leaseGrant (die : Nat)
  /-- A site's wake latency elapses and it becomes awake. (R193) -/
  | siteWakeComplete (die site : Nat)
  /-- A lingering site goes dark 50 µs after its last entry. (R201) -/
  | lingerExpiry (die site : Nat)
  /-- A load access performs at its serving site and its value is sampled. (R150) -/
  | loadPerform (id : Nat)
  /-- A store is taken and acknowledged at its site, waking watchers of the line. (R152) -/
  | storePerform (id : Nat)
  /-- A returning atomic executes indivisibly at its site. (R168) -/
  | atomicPerform (id : Nat)
  /-- A no-return reduction is applied at its site in arrival order. (R173) -/
  | reductionPerform (id : Nat)
  /-- A D-flagged reduction reaches its unit and is buffered or refused to the core's queue. (R176) -/
  | detReductionArrival (id : Nat)
  /-- A workgroup's refused updates and end marker arrive; the unit applies all in issuer order and acknowledges. (R177) -/
  | detEndMarker (ctx wg : Nat)
  /-- The commit token moves to the next workgroup after gated writes and flush acknowledgements. (R174) -/
  | tokenPass (ctx : Nat)
  /-- A member's lines are locked at their homes, validated and committed or aborted with HOME. (R181) -/
  | txHomeValidation (ctx wg tid : Nat)
  /-- The deadlock detector raises REGDL 1 024 cycles after every live thread became stuck. (R238) -/
  | regdlDetect (ctx wg : Nat)
  /-- A stamped store arrives at its home and is held pending or on the wait list. (R187) -/
  | stampArrival (id : Nat)
  /-- Every 50 ns the scheduler or pod root forms the waterline from die contributions. (R187) -/
  | waterlineForm (first : Nat)
  /-- A home slice takes a new waterline value. (R187) -/
  | waterlineDelivery (die slice : Nat)
  /-- An arrival reaches the barrier root and may complete the phase. (R162) -/
  | barrierArrival (id : Nat)
  /-- A phase completion reaches a waiter, invalidating unbound L1 lines at .quad or wider. (R162) -/
  | barrierRelease (ctx wg : Nat) (tids : List Nat)
  /-- A polder move completes, shoots down TLBs and replays waiting accesses at the new home. (R124) -/
  | pmoveComplete (id : Nat)
  /-- Firmware registers a command ring with its priority, slice and privilege. (R328) -/
  | ringRegister (block priority slice : Nat) (privileged : Bool)
  /-- A SURVEY packet hands a launch to the survey unit. (R336) -/
  | survey (ring : Nat)
  /-- An ACCEPT packet turns a quotation's hold into reservations or fails with STALE or NOPOOL. (R340) -/
  | accept (ring : Nat)
  /-- A DECLINE packet releases a quotation's hold. (R340) -/
  | decline (ring : Nat)
  /-- A WRITE packet writes one to four data words. (R333) -/
  | writePkt (ring : Nat)
  /-- A SIGNAL packet adds 1 to a word at .sys and may raise an interrupt. (R333) -/
  | signalPkt (ring : Nat)
  /-- A WAIT packet blocks until a word reaches a value or its limit expires. (R333) -/
  | waitPkt (ring : Nat)
  /-- A WRITE_SIGNAL packet performs its selected wait, write and signal steps. (R333) -/
  | writeSignal (ring : Nat)
  /-- A COPY packet copies bytes and then signals. (R333) -/
  | copyPkt (ring : Nat)
  /-- A PARTITION packet runs quiesce, shoot-down, rewrite and release on named dies. (R354) -/
  | partition (ring : Nat)
  /-- A LINK packet names the ring's next segment. (R333) -/
  | link (ring : Nat)
  /-- A packet of bad type, version, reserved bits or privilege is retired with an error code. (R332) -/
  | packetRefused (ring : Nat)
  /-- A claimed slot still unwritten after 1 ms records UNWRITTEN. (R332) -/
  | slotUnwrittenTimeout (ring : Nat)
  /-- A ring's slice expires and the scheduler moves to another ring. (R334) -/
  | sliceExpiry 
  /-- The scheduler returns to a blocked packet and resumes at its step index. (R334) -/
  | waitStepResume (ring : Nat)
  /-- The survey unit writes the quotation record and places a provisional hold. (R337) -/
  | surveyComplete (quote : Nat)
  /-- A quotation's deadline passes and its hold lapses. (R338) -/
  | quoteDeadlineExpiry (quote : Nat)
  /-- The driver's doorbell completes a page and replays its waiting requests, or ends the launch UNMAPPED. (R342) -/
  | pageFaultDoorbell (ctx page : Nat) (mapped : Bool)
  /-- The launch starts at the later of its earliest start and the last residency doorbell. (R342) -/
  | launchStart (ctx : Nat)
  /-- The last workgroup retires and the completion record reaches its final state. (R341) -/
  | launchComplete (ctx : Nat)
  /-- A backlogged account record enters the queue when room appears. (R378) -/
  | accountBacklogDrain 
  /-- A cluster's 50 µs idle timer expires and its gating sequence begins. (R348) -/
  | idleTimerExpiry (cluster : Nat)
  /-- The cluster's rail is off and gating completes. (R348) -/
  | gatingComplete (cluster : Nat)
  /-- A gated cluster finishes its 8 µs wake into its pool. (R348) -/
  | clusterWakeComplete (cluster : Nat)
  /-- The power microcontroller's 1 ms loop reads sensors and writes targets. (R358) -/
  | powerLoop (readings : List SensorReading)
  /-- A die applies its target mailbox: rationing, pools, rail and shed. (R358) -/
  | targetApply (die : Nat)
  /-- A die at 120 °C trips off in hardware. (R359) -/
  | thermalTrip (die : Nat)
  /-- A supply droop below 95 % triggers the thermal-style actions with cause SUPPLY. (R359) -/
  | supplyDroop (die : Nat)
  /-- An uncorrectable error in owned state ends the affected workgroups imprecisely. (R256) -/
  | mchk (touched : List (Nat × Nat))
  /-- A CRC-32C mismatch on a move aborts the transfer or makes the block uncorrectable. (R366) -/
  | checkValueMismatch (address place : Nat) (found : Word) (consumers : List (Nat × Nat))
  /-- Writing quiesce 1 to %pqc stops new non-supervisor work on the die. (R351) -/
  | quiesceRequest (id : Nat)
  /-- Writing release 1 to %pqc ends or withdraws a quiesce. (R351) -/
  | quiesceRelease (id : Nat)
  /-- Writing 1 to the refused bit of %pqc clears it. (R246) -/
  | clearRefused (id : Nat)
  /-- The die becomes quiesced once queues, work and dirty lines are clear. (R351) -/
  | quiesceComplete (die : Nat)
  /-- A quiesce not complete within 200 µs is refused with the lowest busy id. (R351) -/
  | quiesceRefuse (die : Nat)
  /-- A write of %pid performs only on a quiesced die, else sets refused. (R246) -/
  | pidWrite (id : Nat)
  /-- A write of %pilv performs only on a quiesced die, else sets refused. (R246) -/
  | pilvWrite (id : Nat)
  /-- A write of %pbnd performs only on a quiesced die, else sets refused. (R246) -/
  | pbndWrite (id : Nat)
  /-- A read of %energy latches the high part and saturation flag into %energyh. (R247) -/
  | energyRead (ctx wg tid : Nat)
  /-- A read of %edie latches the high part and saturation flag into %ediehi. (R247) -/
  | edieRead (id : Nat)
  /-- A write to a special register without its own row, applying its access code. (R64) -/
  | registerWrite (id : Nat)
  /-- A die loses its clock reference and widens its interval at the oscillator's bounds. (R190) -/
  | clockReferenceLoss (die : Nat)
  /-- A pod link retrains and its module's last contributions hold the pod waterline. (R273) -/
  | linkRetrain (module : Nat)
  /-- A link trains and negotiates the highest common version. (R368) -/
  | linkTraining (link peer : Nat)
  /-- The boot ROM verifies and starts the firmware, which brings up the module. (R361) -/
  | resetModule 
  /-- The recovery loader accepts, verifies and writes a new firmware image. (R362) -/
  | recoveryImage (image : FirmwareImage)
  /-- Self-test on quiesced dies retires faulty units to spares. (R367) -/
  | selfTest (dies : List Nat) (findings : List Finding)
  /-- An SPDM GET_VERSION negotiates version 1.2 or 1.3. (R368) -/
  | getVersion (offered : List Nat)
  /-- An SPDM request returns signed measurement blocks. (R363) -/
  | spdmMeasurements (index : Nat)
  /-- A vendor SPDM request returns the signed determinism manifest. (R364) -/
  | determinismManifestRequest 
  /-- The TELEMETRY request returns one signed 64-byte block per die. (R380) -/
  | telemetry 
  /-- A PCIe or CXL device's write into module memory takes its coherence place at the home. (R276) -/
  | pcieInboundWrite (address : Nat) (data : List Byte)
  /-- A PCIe read of module memory, completed with Completer Abort on a check-value mismatch. (R366) -/
  | pcieInboundRead (address length : Nat)
  /-- A word with an unassigned index, a group 0xF word, the all-zeros word, or a PC at or beyond the code section's end reaches issue and raises ILLEGAL. (R54) -/
  | illegalWordIssue (operand : Word)
  /-- An engine site fails under a lease, and breach cause SITE is recorded against the launch. (R345) -/
  | siteFailure (die site : Nat)
  /-- The device or operator orders a migration of polder pages, with a breach by the region's policy when the target lacks room. (R123) -/
  | polderMigrationOrder (ctx base length target : Nat) (byDevice : Bool)
  /-- An update writes the whole signed firmware image, which the next boot verifies. (R362) -/
  | firmwareUpdate (image : FirmwareImage)
  /-- An operator's request restarts SRAM rail margining on a die. (R360) -/
  | marginingRestartRequest (die : Nat)
  deriving DecidableEq, Repr

end Sys2Proof
end

