-- ==== Sys2Proof/WellFormed.lean ====
section
/-! DEFINITION. Which terms of Instr an encoding can hold: the stated limits of R48 to R52, of each instruction's entry,
and of R54 and R56 (the all-zeros word is no instruction, and the NOP word is NOP). -/

namespace Sys2Proof

/-- A field that names a pair is even (R48). -/
def pairOk (r : Reg) : Bool := r.toNat % 2 == 0
/-- A field that names a quad is a multiple of 4 (R48). -/
def quadOk (r : Reg) : Bool := r.toNat % 4 == 0
/-- The count of RGIVE and RCLAIM (R234, R235). -/
def loanCountOk (m : BitVec 14) : Bool := decide (8 ≤ m.toNat) && decide (m.toNat ≤ 1008) && m.toNat % 8 == 0

/-- The assigned indices of the user view (R65). -/
def userIndices : List Nat :=
  [0x0000, 0x0001, 0x0002, 0x0003, 0x0004, 0x0005, 0x0006, 0x0007, 0x0008, 0x0009, 0x0010, 0x0011, 0x0018, 0x0019,
   0x0020, 0x0028, 0x0029, 0x0030]

/-- The assigned indices of the privileged view (R245). -/
def privIndexAssigned (n : Nat) : Bool :=
  (decide (0x2000 ≤ n) && userIndices.contains (n - 0x2000))
    || [0x2100, 0x2101, 0x2102, 0x2103, 0x2104, 0x2108].contains n
    || (decide (0x2200 ≤ n) && decide (n < 0x2280) && decide (n % 16 ≤ 6))

/-- MFS and MTS: an index of the privileged view raises PRIV, any other unassigned index ILLEGAL (R64, R140). -/
def userIndexOk (m : BitVec 14) : Bool := decide (0x2000 ≤ m.toNat) || userIndices.contains m.toNat
/-- MFSR and MTSR: an index below 0x2000 and an unassigned index raise ILLEGAL (R244). -/
def privIndexOk (m : BitVec 14) : Bool := privIndexAssigned m.toNat

/-- Whether some encoding holds the term. A row without a word has no encoding to break. -/
def Instr.wf : Instr → Bool
  | .add s d a b => (s || !(decide (d = 0) && decide (a = 0) && decide (b = 0)))
  | .add64 _ d a b => pairOk d && pairOk a && pairOk b
  | .sub64 _ d a b => pairOk d && pairOk a && pairOk b
  | .mul64 _ d a b => pairOk d && pairOk a && pairOk b
  | .addx _ d a _ => pairOk d && pairOk a
  | .addx4 _ d a _ => pairOk d && pairOk a
  | .addi _ d a m => !(decide (d = 8) && decide (a = 8) && decide (m = 0))
  | .shli _ _ _ m => decide (m.toNat < 32)
  | .shri _ _ _ m => decide (m.toNat < 32)
  | .srai _ _ _ m => decide (m.toNat < 32)
  | .add64i _ d a _ => pairOk d && pairOk a
  | .looph _ _ m => decide (1 ≤ m.toNat)
  | .loope _ _ m => decide (1 ≤ m.toNat)
  | .wbase _ m => decide (m.toNat % 8 = 0) && decide (m.toNat ≤ 1016)
  | .wbadj _ m => decide (m.toNat % 8 = 0)
  | .clki _ d => quadOk d
  | .mfs _ _ m => userIndexOk m
  | .mts _ _ m => userIndexOk m
  | .ldb _ _ a _ => pairOk a
  | .ldbs _ _ a _ => pairOk a
  | .ldh _ _ a _ => pairOk a
  | .ldhs _ _ a _ => pairOk a
  | .ldw _ _ a _ => pairOk a
  | .ldd _ d a _ => pairOk d && pairOk a
  | .ldq _ d a _ => quadOk d && pairOk a
  | .stb _ _ a _ => pairOk a
  | .sth _ _ a _ => pairOk a
  | .stw _ _ a _ => pairOk a
  | .std _ d a _ => pairOk d && pairOk a
  | .stq _ d a _ => quadOk d && pairOk a
  | .ldc _ _ a _ => pairOk a
  | .ldcd _ d a _ => pairOk d && pairOk a
  | .ldbx _ _ a _ => pairOk a
  | .ldbsx _ _ a _ => pairOk a
  | .ldhx _ _ a _ => pairOk a
  | .ldhsx _ _ a _ => pairOk a
  | .ldwx _ _ a _ => pairOk a
  | .lddx _ d a _ => pairOk d && pairOk a
  | .ldqx _ d a _ => quadOk d && pairOk a
  | .stbx _ _ a _ => pairOk a
  | .sthx _ _ a _ => pairOk a
  | .stwx _ _ a _ => pairOk a
  | .stdx _ d a _ => pairOk d && pairOk a
  | .stqx _ d a _ => quadOk d && pairOk a
  | .ldcx _ _ a _ => pairOk a
  | .ldcdx _ d a _ => pairOk d && pairOk a
  | .fence _ u v c => decide (u ≠ 0) && decide (v ≠ 0) && decide (c ≠ 7)
  | .pfence _ u v => decide (u ≠ 0) && decide (v ≠ 0)
  | .slacq _ _ a _ => pairOk a
  | .slrel _ a => pairOk a
  | .bara _ _ l _ => decide (l.toNat ≤ 5)
  | .barw _ _ l => decide (l.toNat ≤ 5)
  | .bar _ _ l _ => decide (l.toNat ≤ 5)
  | .barx _ _ l a => pairOk a && decide (l.toNat ≤ 2)
  | .mon _ _ a => pairOk a
  | .mwait _ _ a => pairOk a
  | .amoAdd _ p _ _ _ _ => decide (p ≠ 7)
  | .amoAnd _ p _ _ _ _ => decide (p ≠ 7)
  | .amoOr _ p _ _ _ _ => decide (p ≠ 7)
  | .amoXor _ p _ _ _ _ => decide (p ≠ 7)
  | .amoMin _ p _ _ _ _ => decide (p ≠ 7)
  | .amoMax _ p _ _ _ _ => decide (p ≠ 7)
  | .amoXchg _ p _ _ _ _ => decide (p ≠ 7)
  | .amoFadd _ p _ _ _ _ => decide (p ≠ 7)
  | .amoMinu _ p _ _ _ _ => decide (p ≠ 7)
  | .amoMaxu _ p _ _ _ _ => decide (p ≠ 7)
  | .amoAdd64 _ p d _ _ b => pairOk d && pairOk b && decide (p ≠ 7)
  | .casW _ p _ _ _ _ => decide (p ≠ 7)
  | .casD _ p d _ _ b => pairOk d && pairOk b && decide (p ≠ 7)
  | .gts _ p d _ _ b => pairOk d && pairOk b && decide (p ≠ 7)
  | .vcas _ p d _ _ b => pairOk d && pairOk b && decide (p ≠ 7)
  | .tcas _ p d _ _ b => pairOk d && pairOk b && decide (p ≠ 7)
  | .redAdd _ p _ _ _ => decide (p ≠ 7)
  | .redAnd _ p _ _ _ => decide (p ≠ 7)
  | .redOr _ p _ _ _ => decide (p ≠ 7)
  | .redXor _ p _ _ _ => decide (p ≠ 7)
  | .redMin _ p _ _ _ => decide (p ≠ 7)
  | .redMax _ p _ _ _ => decide (p ≠ 7)
  | .redMinu _ p _ _ _ => decide (p ≠ 7)
  | .redMaxu _ p _ _ _ => decide (p ≠ 7)
  | .redFadd _ p _ _ _ => decide (p ≠ 7)
  | .redHadd2 _ p _ _ _ => decide (p ≠ 7)
  | .redFmin _ p _ _ _ => decide (p ≠ 7)
  | .redFmax _ p _ _ _ => decide (p ≠ 7)
  | .stst _ d a _ => pairOk d && pairOk a
  | .ststd _ d a b => pairOk d && pairOk a && pairOk b
  | .cwait _ _ a => pairOk a
  | .ldas _ d a b => pairOk d && pairOk a && pairOk b
  | .pdisc _ _ a _ => pairOk a
  | .pmove _ _ a b => pairOk a && pairOk b
  | .tcopy _ _ a _ => pairOk a
  | .tcopym _ _ a _ => pairOk a
  | .gath _ _ a _ => pairOk a
  | .scat _ _ a _ => pairOk a
  | .coll _ _ a _ => pairOk a
  | .vdec _ _ a _ => pairOk a
  | .qfence _ _ a => pairOk a
  | .bstat _ d _ => quadOk d
  | .ldt _ d _ _ => quadOk d
  | .stt _ d _ _ => quadOk d
  | .rgive m => loanCountOk m
  | .rclaim _ _ m => loanCountOk m
  | .spawn _ _ _ b => pairOk b && decide (b.toNat ≤ 122)
  | .mfsr _ _ m => privIndexOk m
  | .mtsr _ _ m => privIndexOk m
  | .tlbi _ _ a _ => pairOk a
  | .ctxsav _ _ a => pairOk a
  | .ctxres _ _ a _ => pairOk a
  | _ => true

end Sys2Proof
end

