-- ==== Sys2Proof/Decode.lean ====
section
/-! DEFINITION. The decoder and the encoder, from R45 to R56 and the opcode map R53. The decoder is total on any bytes:
it answers an instruction or the name of what the bytes break, each of which raises ILLEGAL at issue (R54). -/

namespace Sys2Proof

/-- Why a word is no instruction (R54). -/
inductive DecodeError where
  /-- fewer bytes than a word are there -/
  | short
  /-- the all-zeros word -/
  | zeroWord
  /-- an index the opcode map leaves unassigned, or a word of group 0xF (R53) -/
  | unassigned
  /-- a reserved or unused field that is not zero (R49) -/
  | reserved
  /-- S = 0 where the entry requires S = 1 (R181, R182, R234, R249, R250) -/
  | switchMarker
  /-- a limit of R48, R50, R52 or of the entry -/
  | limit
  /-- the literal word of a MOVW is missing (R70) -/
  | noLiteral
  deriving DecidableEq, Repr

/-- S, bit 31 (R45). -/
def fS (w : Nat) : Bool := bitOf w 31
/-- Field d, bits 20:14 (R47). -/
def fD (w : Nat) : Reg := BitVec.ofNat 7 (w / 2 ^ 14)
/-- Field a, bits 13:7 (R47). -/
def fA (w : Nat) : Reg := BitVec.ofNat 7 (w / 2 ^ 7)
/-- Field b, bits 6:0 (R47). -/
def fB (w : Nat) : Reg := BitVec.ofNat 7 w
/-- The six-bit field a of formats A and N, bits 13:8 (R47). -/
def fA6 (w : Nat) : BitVec 6 := BitVec.ofNat 6 (w / 2 ^ 8)

/-- An instruction whose unused bits hi:lo must be zero (R49). -/
def unused (w hi lo : Nat) (r : Except DecodeError Instr) : Except DecodeError Instr :=
  if bits w hi lo = 0 then r else .error .reserved

/-- An instruction that must carry S = 1. -/
def needS (w : Nat) (r : Except DecodeError Instr) : Except DecodeError Instr :=
  if fS w then r else .error .switchMarker

/-- The limits of the encoding, as the decoder applies them. -/
def encodingOk (i : Instr) : Bool := i.wf

/-- Group 0x0 (R53). -/
def decodeGroup0 (idx w : Nat) : Except DecodeError Instr :=
  match idx with
  | 0 => .ok (.add (fS w) (fD w) (fA w) (fB w))
  | 1 => .ok (.sub (fS w) (fD w) (fA w) (fB w))
  | 2 => .ok (.mul (fS w) (fD w) (fA w) (fB w))
  | 3 => .ok (.mulh (fS w) (fD w) (fA w) (fB w))
  | 4 => .ok (.mulhu (fS w) (fD w) (fA w) (fB w))
  | 5 => .ok (.mad (fS w) (fD w) (fA w) (fB w))
  | 6 => .ok (.divu (fS w) (fD w) (fA w) (fB w))
  | 7 => .ok (.remu (fS w) (fD w) (fA w) (fB w))
  | 8 => .ok (.and (fS w) (fD w) (fA w) (fB w))
  | 9 => .ok (.or (fS w) (fD w) (fA w) (fB w))
  | 10 => .ok (.xor (fS w) (fD w) (fA w) (fB w))
  | 11 => .ok (.andn (fS w) (fD w) (fA w) (fB w))
  | 12 => .ok (.shl (fS w) (fD w) (fA w) (fB w))
  | 13 => .ok (.shr (fS w) (fD w) (fA w) (fB w))
  | 14 => .ok (.sra (fS w) (fD w) (fA w) (fB w))
  | 15 => .ok (.rot (fS w) (fD w) (fA w) (fB w))
  | 16 => .ok (.min (fS w) (fD w) (fA w) (fB w))
  | 17 => .ok (.max (fS w) (fD w) (fA w) (fB w))
  | 18 => .ok (.minu (fS w) (fD w) (fA w) (fB w))
  | 19 => .ok (.maxu (fS w) (fD w) (fA w) (fB w))
  | 20 => .ok (.seq (fS w) (fD w) (fA w) (fB w))
  | 21 => .ok (.sne (fS w) (fD w) (fA w) (fB w))
  | 22 => .ok (.slt (fS w) (fD w) (fA w) (fB w))
  | 23 => .ok (.sltu (fS w) (fD w) (fA w) (fB w))
  | 24 => .ok (.sle (fS w) (fD w) (fA w) (fB w))
  | 25 => .ok (.sleu (fS w) (fD w) (fA w) (fB w))
  | 26 => .ok (.cmovz (fS w) (fD w) (fA w) (fB w))
  | 27 => .ok (.cmovn (fS w) (fD w) (fA w) (fB w))
  | 28 => .ok (.add64 (fS w) (fD w) (fA w) (fB w))
  | 29 => .ok (.sub64 (fS w) (fD w) (fA w) (fB w))
  | 30 => .ok (.mul64 (fS w) (fD w) (fA w) (fB w))
  | 31 => .ok (.addx (fS w) (fD w) (fA w) (fB w))
  | 32 => .ok (.addx4 (fS w) (fD w) (fA w) (fB w))
  | 33 => .ok (.bfx (fS w) (fD w) (fA w) (fB w))
  | 34 => .ok (.bfxs (fS w) (fD w) (fA w) (fB w))
  | 35 => .ok (.bfi (fS w) (fD w) (fA w) (fB w))
  | _ => .error .unassigned

/-- Group 0x1 (R53). -/
def decodeGroup1 (idx w : Nat) (lit : Option Nat) : Except DecodeError Instr :=
  match idx with
  | 0 => (if w % 2 ^ 31 = 0x8020400 then .ok (.nop (fS w)) else .ok (.addi (fS w) (fD w) (fA w) (BitVec.ofNat 7 w)))
  | 1 => .ok (.andi (fS w) (fD w) (fA w) (BitVec.ofNat 7 w))
  | 2 => .ok (.ori (fS w) (fD w) (fA w) (BitVec.ofNat 7 w))
  | 3 => .ok (.xori (fS w) (fD w) (fA w) (BitVec.ofNat 7 w))
  | 4 => .ok (.shli (fS w) (fD w) (fA w) (BitVec.ofNat 7 w))
  | 5 => .ok (.shri (fS w) (fD w) (fA w) (BitVec.ofNat 7 w))
  | 6 => .ok (.srai (fS w) (fD w) (fA w) (BitVec.ofNat 7 w))
  | 7 => .ok (.slti (fS w) (fD w) (fA w) (BitVec.ofNat 7 w))
  | 8 => .ok (.sltui (fS w) (fD w) (fA w) (BitVec.ofNat 7 w))
  | 9 => .ok (.seqi (fS w) (fD w) (fA w) (BitVec.ofNat 7 w))
  | 10 => .ok (.muli (fS w) (fD w) (fA w) (BitVec.ofNat 7 w))
  | 11 => .ok (.add64i (fS w) (fD w) (fA w) (BitVec.ofNat 7 w))
  | 16 => unused w 6 0 (.ok (.clz (fS w) (fD w) (fA w)))
  | 17 => unused w 6 0 (.ok (.popc (fS w) (fD w) (fA w)))
  | 18 => unused w 6 0 (.ok (.brev (fS w) (fD w) (fA w)))
  | 19 => unused w 6 0 (.ok (.abs (fS w) (fD w) (fA w)))
  | 20 => unused w 6 0 (.ok (.sexb (fS w) (fD w) (fA w)))
  | 21 => unused w 6 0 (.ok (.sexh (fS w) (fD w) (fA w)))
  | 32 => .ok (.movi (fS w) (fD w) (BitVec.ofNat 14 w))
  | 33 => unused w 13 0 ((match lit with | some v => .ok (.movw (fS w) (fD w) (BitVec.ofNat 32 v)) | none => .error .noLiteral))
  | _ => .error .unassigned

/-- Group 0x2 (R53). -/
def decodeGroup2 (idx w : Nat) : Except DecodeError Instr :=
  match idx with
  | 0 => .ok (.fadd (fS w) (fD w) (fA w) (fB w))
  | 1 => .ok (.fsub (fS w) (fD w) (fA w) (fB w))
  | 2 => .ok (.fmul (fS w) (fD w) (fA w) (fB w))
  | 3 => .ok (.ffma (fS w) (fD w) (fA w) (fB w))
  | 4 => .ok (.fmin (fS w) (fD w) (fA w) (fB w))
  | 5 => .ok (.fmax (fS w) (fD w) (fA w) (fB w))
  | 6 => .ok (.fdiv (fS w) (fD w) (fA w) (fB w))
  | 7 => .ok (.fseq (fS w) (fD w) (fA w) (fB w))
  | 8 => .ok (.fslt (fS w) (fD w) (fA w) (fB w))
  | 9 => .ok (.fsle (fS w) (fD w) (fA w) (fB w))
  | 10 => .ok (.fsun (fS w) (fD w) (fA w) (fB w))
  | 11 => .ok (.fcpys (fS w) (fD w) (fA w) (fB w))
  | 16 => unused w 6 0 (.ok (.fsqrt (fS w) (fD w) (fA w)))
  | 17 => unused w 6 0 (.ok (.frcp (fS w) (fD w) (fA w)))
  | 18 => unused w 6 0 (.ok (.frsq (fS w) (fD w) (fA w)))
  | 19 => unused w 6 0 (.ok (.fexp2 (fS w) (fD w) (fA w)))
  | 20 => unused w 6 0 (.ok (.flog2 (fS w) (fD w) (fA w)))
  | 21 => unused w 6 0 (.ok (.fabs (fS w) (fD w) (fA w)))
  | 22 => unused w 6 0 (.ok (.fneg (fS w) (fD w) (fA w)))
  | _ => .error .unassigned

/-- Group 0x3 (R53). -/
def decodeGroup3 (idx w : Nat) : Except DecodeError Instr :=
  match idx with
  | 0 => .ok (.hadd2 (fS w) (fD w) (fA w) (fB w))
  | 1 => .ok (.hmul2 (fS w) (fD w) (fA w) (fB w))
  | 2 => .ok (.hfma2 (fS w) (fD w) (fA w) (fB w))
  | 3 => .ok (.hmax2 (fS w) (fD w) (fA w) (fB w))
  | 4 => .ok (.eadd2 (fS w) (fD w) (fA w) (fB w))
  | 5 => .ok (.emul2 (fS w) (fD w) (fA w) (fB w))
  | 6 => .ok (.efma2 (fS w) (fD w) (fA w) (fB w))
  | 7 => .ok (.emax2 (fS w) (fD w) (fA w) (fB w))
  | 16 => unused w 6 0 (.ok (.cvtF32Sw (fS w) (fD w) (fA w)))
  | 17 => unused w 6 0 (.ok (.cvtF32Uw (fS w) (fD w) (fA w)))
  | 18 => unused w 6 0 (.ok (.cvtSwF32 (fS w) (fD w) (fA w)))
  | 19 => unused w 6 0 (.ok (.cvtSwF32Rn (fS w) (fD w) (fA w)))
  | 20 => unused w 6 0 (.ok (.cvtUwF32 (fS w) (fD w) (fA w)))
  | 21 => .ok (.cvtBf16F32 (fS w) (fD w) (fA w) (fB w))
  | 22 => .ok (.cvtBf16F32Sr (fS w) (fD w) (fA w) (fB w))
  | 23 => .ok (.cvtFp16F32 (fS w) (fD w) (fA w) (fB w))
  | 24 => unused w 6 0 (.ok (.cvtF32Bf16 (fS w) (fD w) (fA w)))
  | 25 => unused w 6 0 (.ok (.cvtF32Fp16 (fS w) (fD w) (fA w)))
  | 26 => unused w 6 0 (.ok (.cvtLc8F32 (fS w) (fD w) (fA w)))
  | 27 => unused w 6 0 (.ok (.cvtF32Lc8 (fS w) (fD w) (fA w)))
  | 28 => unused w 6 0 (.ok (.cvtI8F32 (fS w) (fD w) (fA w)))
  | _ => .error .unassigned

/-- Group 0x4 (R53). -/
def decodeGroup4 (idx w : Nat) : Except DecodeError Instr :=
  match idx with
  | 0 => .ok (.br (fS w) (BitVec.ofNat 21 w))
  | 1 => .ok (.call (fS w) (BitVec.ofNat 21 w))
  | 2 => .ok (.bez (fS w) (fD w) (BitVec.ofNat 14 w))
  | 3 => .ok (.bnz (fS w) (fD w) (BitVec.ofNat 14 w))
  | 4 => unused w 20 14 (unused w 6 0 (.ok (.callr (fS w) (fA w))))
  | 5 => unused w 20 14 (unused w 6 0 (.ok (.jr (fS w) (fA w))))
  | 6 => unused w 20 0 (.ok (.ret (fS w)))
  | 7 => .ok (.looph (fS w) (fD w) (BitVec.ofNat 14 w))
  | 8 => .ok (.loope (fS w) (fD w) (BitVec.ofNat 14 w))
  | 9 => unused w 20 14 (.ok (.wbase (fS w) (BitVec.ofNat 14 w)))
  | 10 => unused w 20 14 (.ok (.wbadj (fS w) (BitVec.ofNat 14 w)))
  | 11 => unused w 20 0 (.ok (.exit (fS w)))
  | 12 => .ok (.trap (fS w) (BitVec.ofNat 21 w))
  | 13 => .ok (.brk (fS w) (BitVec.ofNat 21 w))
  | _ => .error .unassigned

/-- Group 0x5 (R53). -/
def decodeGroup5 (idx w : Nat) : Except DecodeError Instr :=
  match idx with
  | 0 => .ok (.shfl (fS w) (fD w) (fA w) (fB w))
  | 1 => .ok (.shflx (fS w) (fD w) (fA w) (fB w))
  | 2 => .ok (.shflu (fS w) (fD w) (fA w) (fB w))
  | 3 => .ok (.shfld (fS w) (fD w) (fA w) (fB w))
  | 4 => unused w 6 0 (.ok (.vany (fS w) (fD w) (fA w)))
  | 5 => unused w 6 0 (.ok (.vall (fS w) (fD w) (fA w)))
  | 6 => unused w 6 0 (.ok (.vbal (fS w) (fD w) (fA w)))
  | 7 => unused w 6 0 (.ok (.matchOp (fS w) (fD w) (fA w)))
  | 8 => unused w 6 0 (.ok (.gsum (fS w) (fD w) (fA w)))
  | 9 => unused w 13 0 (.ok (.lanes (fS w) (fD w)))
  | 10 => unused w 13 0 (.ok (.clki (fS w) (fD w)))
  | 16 => .ok (.mfs (fS w) (fD w) (BitVec.ofNat 14 w))
  | 17 => .ok (.mts (fS w) (fD w) (BitVec.ofNat 14 w))
  | _ => .error .unassigned

/-- Group 0x6 (R53). -/
def decodeGroup6 (idx w : Nat) : Except DecodeError Instr :=
  match idx with
  | 0 => .ok (.ldb (fS w) (fD w) (fA w) (BitVec.ofNat 7 w))
  | 1 => .ok (.ldbs (fS w) (fD w) (fA w) (BitVec.ofNat 7 w))
  | 2 => .ok (.ldh (fS w) (fD w) (fA w) (BitVec.ofNat 7 w))
  | 3 => .ok (.ldhs (fS w) (fD w) (fA w) (BitVec.ofNat 7 w))
  | 4 => .ok (.ldw (fS w) (fD w) (fA w) (BitVec.ofNat 7 w))
  | 5 => .ok (.ldd (fS w) (fD w) (fA w) (BitVec.ofNat 7 w))
  | 6 => .ok (.ldq (fS w) (fD w) (fA w) (BitVec.ofNat 7 w))
  | 7 => .ok (.stb (fS w) (fD w) (fA w) (BitVec.ofNat 7 w))
  | 8 => .ok (.sth (fS w) (fD w) (fA w) (BitVec.ofNat 7 w))
  | 9 => .ok (.stw (fS w) (fD w) (fA w) (BitVec.ofNat 7 w))
  | 10 => .ok (.std (fS w) (fD w) (fA w) (BitVec.ofNat 7 w))
  | 11 => .ok (.stq (fS w) (fD w) (fA w) (BitVec.ofNat 7 w))
  | 12 => .ok (.ldc (fS w) (fD w) (fA w) (BitVec.ofNat 7 w))
  | 13 => .ok (.ldcd (fS w) (fD w) (fA w) (BitVec.ofNat 7 w))
  | 16 => .ok (.ldbx (fS w) (fD w) (fA w) (fB w))
  | 17 => .ok (.ldbsx (fS w) (fD w) (fA w) (fB w))
  | 18 => .ok (.ldhx (fS w) (fD w) (fA w) (fB w))
  | 19 => .ok (.ldhsx (fS w) (fD w) (fA w) (fB w))
  | 20 => .ok (.ldwx (fS w) (fD w) (fA w) (fB w))
  | 21 => .ok (.lddx (fS w) (fD w) (fA w) (fB w))
  | 22 => .ok (.ldqx (fS w) (fD w) (fA w) (fB w))
  | 23 => .ok (.stbx (fS w) (fD w) (fA w) (fB w))
  | 24 => .ok (.sthx (fS w) (fD w) (fA w) (fB w))
  | 25 => .ok (.stwx (fS w) (fD w) (fA w) (fB w))
  | 26 => .ok (.stdx (fS w) (fD w) (fA w) (fB w))
  | 27 => .ok (.stqx (fS w) (fD w) (fA w) (fB w))
  | 28 => .ok (.ldcx (fS w) (fD w) (fA w) (fB w))
  | 29 => .ok (.ldcdx (fS w) (fD w) (fA w) (fB w))
  | _ => .error .unassigned

/-- Group 0x7 (R53). -/
def decodeGroup7 (idx w : Nat) : Except DecodeError Instr :=
  match idx with
  | 0 => unused w 3 0 (.ok (.fence (fS w) (fD w) (fA w) (BitVec.ofNat 3 (w / 2 ^ 4))))
  | 1 => unused w 6 0 (.ok (.pfence (fS w) (fD w) (fA w)))
  | 2 => .ok (.slacq (fS w) (fD w) (fA w) (fB w))
  | 3 => unused w 20 14 (unused w 6 0 (.ok (.slrel (fS w) (fA w))))
  | 4 => unused w 6 0 (.ok (.bara (fS w) (BitVec.ofNat 4 (w / 2 ^ 17)) (BitVec.ofNat 3 (w / 2 ^ 14)) (fA w)))
  | 5 => unused w 13 0 (.ok (.barw (fS w) (BitVec.ofNat 4 (w / 2 ^ 17)) (BitVec.ofNat 3 (w / 2 ^ 14))))
  | 6 => unused w 6 0 (.ok (.bar (fS w) (BitVec.ofNat 4 (w / 2 ^ 17)) (BitVec.ofNat 3 (w / 2 ^ 14)) (fA w)))
  | 7 => unused w 6 0 (.ok (.barx (fS w) (BitVec.ofNat 4 (w / 2 ^ 17)) (BitVec.ofNat 3 (w / 2 ^ 14)) (fA w)))
  | 8 => unused w 6 0 (.ok (.mon (fS w) (fD w) (fA w)))
  | 9 => unused w 6 0 (.ok (.mwait (fS w) (fD w) (fA w)))
  | _ => .error .unassigned

/-- Group 0x8 (R53). -/
def decodeGroup8 (idx w : Nat) : Except DecodeError Instr :=
  match idx with
  | 0 => .ok (.amoAdd (fS w) (BitVec.ofNat 3 (w / 2 ^ 21)) (fD w) (fA6 w) (bitOf w 7) (fB w))
  | 1 => .ok (.amoAdd (fS w) (BitVec.ofNat 3 (w / 2 ^ 21)) (fD w) (fA6 w) (bitOf w 7) (fB w))
  | 2 => .ok (.amoAdd (fS w) (BitVec.ofNat 3 (w / 2 ^ 21)) (fD w) (fA6 w) (bitOf w 7) (fB w))
  | 3 => .ok (.amoAdd (fS w) (BitVec.ofNat 3 (w / 2 ^ 21)) (fD w) (fA6 w) (bitOf w 7) (fB w))
  | 4 => .ok (.amoAdd (fS w) (BitVec.ofNat 3 (w / 2 ^ 21)) (fD w) (fA6 w) (bitOf w 7) (fB w))
  | 5 => .ok (.amoAdd (fS w) (BitVec.ofNat 3 (w / 2 ^ 21)) (fD w) (fA6 w) (bitOf w 7) (fB w))
  | 6 => .ok (.amoAdd (fS w) (BitVec.ofNat 3 (w / 2 ^ 21)) (fD w) (fA6 w) (bitOf w 7) (fB w))
  | 8 => .ok (.amoAnd (fS w) (BitVec.ofNat 3 (w / 2 ^ 21)) (fD w) (fA6 w) (bitOf w 7) (fB w))
  | 9 => .ok (.amoAnd (fS w) (BitVec.ofNat 3 (w / 2 ^ 21)) (fD w) (fA6 w) (bitOf w 7) (fB w))
  | 10 => .ok (.amoAnd (fS w) (BitVec.ofNat 3 (w / 2 ^ 21)) (fD w) (fA6 w) (bitOf w 7) (fB w))
  | 11 => .ok (.amoAnd (fS w) (BitVec.ofNat 3 (w / 2 ^ 21)) (fD w) (fA6 w) (bitOf w 7) (fB w))
  | 12 => .ok (.amoAnd (fS w) (BitVec.ofNat 3 (w / 2 ^ 21)) (fD w) (fA6 w) (bitOf w 7) (fB w))
  | 13 => .ok (.amoAnd (fS w) (BitVec.ofNat 3 (w / 2 ^ 21)) (fD w) (fA6 w) (bitOf w 7) (fB w))
  | 14 => .ok (.amoAnd (fS w) (BitVec.ofNat 3 (w / 2 ^ 21)) (fD w) (fA6 w) (bitOf w 7) (fB w))
  | 16 => .ok (.amoOr (fS w) (BitVec.ofNat 3 (w / 2 ^ 21)) (fD w) (fA6 w) (bitOf w 7) (fB w))
  | 17 => .ok (.amoOr (fS w) (BitVec.ofNat 3 (w / 2 ^ 21)) (fD w) (fA6 w) (bitOf w 7) (fB w))
  | 18 => .ok (.amoOr (fS w) (BitVec.ofNat 3 (w / 2 ^ 21)) (fD w) (fA6 w) (bitOf w 7) (fB w))
  | 19 => .ok (.amoOr (fS w) (BitVec.ofNat 3 (w / 2 ^ 21)) (fD w) (fA6 w) (bitOf w 7) (fB w))
  | 20 => .ok (.amoOr (fS w) (BitVec.ofNat 3 (w / 2 ^ 21)) (fD w) (fA6 w) (bitOf w 7) (fB w))
  | 21 => .ok (.amoOr (fS w) (BitVec.ofNat 3 (w / 2 ^ 21)) (fD w) (fA6 w) (bitOf w 7) (fB w))
  | 22 => .ok (.amoOr (fS w) (BitVec.ofNat 3 (w / 2 ^ 21)) (fD w) (fA6 w) (bitOf w 7) (fB w))
  | 24 => .ok (.amoXor (fS w) (BitVec.ofNat 3 (w / 2 ^ 21)) (fD w) (fA6 w) (bitOf w 7) (fB w))
  | 25 => .ok (.amoXor (fS w) (BitVec.ofNat 3 (w / 2 ^ 21)) (fD w) (fA6 w) (bitOf w 7) (fB w))
  | 26 => .ok (.amoXor (fS w) (BitVec.ofNat 3 (w / 2 ^ 21)) (fD w) (fA6 w) (bitOf w 7) (fB w))
  | 27 => .ok (.amoXor (fS w) (BitVec.ofNat 3 (w / 2 ^ 21)) (fD w) (fA6 w) (bitOf w 7) (fB w))
  | 28 => .ok (.amoXor (fS w) (BitVec.ofNat 3 (w / 2 ^ 21)) (fD w) (fA6 w) (bitOf w 7) (fB w))
  | 29 => .ok (.amoXor (fS w) (BitVec.ofNat 3 (w / 2 ^ 21)) (fD w) (fA6 w) (bitOf w 7) (fB w))
  | 30 => .ok (.amoXor (fS w) (BitVec.ofNat 3 (w / 2 ^ 21)) (fD w) (fA6 w) (bitOf w 7) (fB w))
  | 32 => .ok (.amoMin (fS w) (BitVec.ofNat 3 (w / 2 ^ 21)) (fD w) (fA6 w) (bitOf w 7) (fB w))
  | 33 => .ok (.amoMin (fS w) (BitVec.ofNat 3 (w / 2 ^ 21)) (fD w) (fA6 w) (bitOf w 7) (fB w))
  | 34 => .ok (.amoMin (fS w) (BitVec.ofNat 3 (w / 2 ^ 21)) (fD w) (fA6 w) (bitOf w 7) (fB w))
  | 35 => .ok (.amoMin (fS w) (BitVec.ofNat 3 (w / 2 ^ 21)) (fD w) (fA6 w) (bitOf w 7) (fB w))
  | 36 => .ok (.amoMin (fS w) (BitVec.ofNat 3 (w / 2 ^ 21)) (fD w) (fA6 w) (bitOf w 7) (fB w))
  | 37 => .ok (.amoMin (fS w) (BitVec.ofNat 3 (w / 2 ^ 21)) (fD w) (fA6 w) (bitOf w 7) (fB w))
  | 38 => .ok (.amoMin (fS w) (BitVec.ofNat 3 (w / 2 ^ 21)) (fD w) (fA6 w) (bitOf w 7) (fB w))
  | 40 => .ok (.amoMax (fS w) (BitVec.ofNat 3 (w / 2 ^ 21)) (fD w) (fA6 w) (bitOf w 7) (fB w))
  | 41 => .ok (.amoMax (fS w) (BitVec.ofNat 3 (w / 2 ^ 21)) (fD w) (fA6 w) (bitOf w 7) (fB w))
  | 42 => .ok (.amoMax (fS w) (BitVec.ofNat 3 (w / 2 ^ 21)) (fD w) (fA6 w) (bitOf w 7) (fB w))
  | 43 => .ok (.amoMax (fS w) (BitVec.ofNat 3 (w / 2 ^ 21)) (fD w) (fA6 w) (bitOf w 7) (fB w))
  | 44 => .ok (.amoMax (fS w) (BitVec.ofNat 3 (w / 2 ^ 21)) (fD w) (fA6 w) (bitOf w 7) (fB w))
  | 45 => .ok (.amoMax (fS w) (BitVec.ofNat 3 (w / 2 ^ 21)) (fD w) (fA6 w) (bitOf w 7) (fB w))
  | 46 => .ok (.amoMax (fS w) (BitVec.ofNat 3 (w / 2 ^ 21)) (fD w) (fA6 w) (bitOf w 7) (fB w))
  | 48 => .ok (.amoXchg (fS w) (BitVec.ofNat 3 (w / 2 ^ 21)) (fD w) (fA6 w) (bitOf w 7) (fB w))
  | 49 => .ok (.amoXchg (fS w) (BitVec.ofNat 3 (w / 2 ^ 21)) (fD w) (fA6 w) (bitOf w 7) (fB w))
  | 50 => .ok (.amoXchg (fS w) (BitVec.ofNat 3 (w / 2 ^ 21)) (fD w) (fA6 w) (bitOf w 7) (fB w))
  | 51 => .ok (.amoXchg (fS w) (BitVec.ofNat 3 (w / 2 ^ 21)) (fD w) (fA6 w) (bitOf w 7) (fB w))
  | 52 => .ok (.amoXchg (fS w) (BitVec.ofNat 3 (w / 2 ^ 21)) (fD w) (fA6 w) (bitOf w 7) (fB w))
  | 53 => .ok (.amoXchg (fS w) (BitVec.ofNat 3 (w / 2 ^ 21)) (fD w) (fA6 w) (bitOf w 7) (fB w))
  | 54 => .ok (.amoXchg (fS w) (BitVec.ofNat 3 (w / 2 ^ 21)) (fD w) (fA6 w) (bitOf w 7) (fB w))
  | 56 => .ok (.amoFadd (fS w) (BitVec.ofNat 3 (w / 2 ^ 21)) (fD w) (fA6 w) (bitOf w 7) (fB w))
  | 57 => .ok (.amoFadd (fS w) (BitVec.ofNat 3 (w / 2 ^ 21)) (fD w) (fA6 w) (bitOf w 7) (fB w))
  | 58 => .ok (.amoFadd (fS w) (BitVec.ofNat 3 (w / 2 ^ 21)) (fD w) (fA6 w) (bitOf w 7) (fB w))
  | 59 => .ok (.amoFadd (fS w) (BitVec.ofNat 3 (w / 2 ^ 21)) (fD w) (fA6 w) (bitOf w 7) (fB w))
  | 60 => .ok (.amoFadd (fS w) (BitVec.ofNat 3 (w / 2 ^ 21)) (fD w) (fA6 w) (bitOf w 7) (fB w))
  | 61 => .ok (.amoFadd (fS w) (BitVec.ofNat 3 (w / 2 ^ 21)) (fD w) (fA6 w) (bitOf w 7) (fB w))
  | 62 => .ok (.amoFadd (fS w) (BitVec.ofNat 3 (w / 2 ^ 21)) (fD w) (fA6 w) (bitOf w 7) (fB w))
  | _ => .error .unassigned

/-- Group 0x9 (R53). -/
def decodeGroup9 (idx w : Nat) : Except DecodeError Instr :=
  match idx with
  | 0 => .ok (.amoMinu (fS w) (BitVec.ofNat 3 (w / 2 ^ 21)) (fD w) (fA6 w) (bitOf w 7) (fB w))
  | 1 => .ok (.amoMinu (fS w) (BitVec.ofNat 3 (w / 2 ^ 21)) (fD w) (fA6 w) (bitOf w 7) (fB w))
  | 2 => .ok (.amoMinu (fS w) (BitVec.ofNat 3 (w / 2 ^ 21)) (fD w) (fA6 w) (bitOf w 7) (fB w))
  | 3 => .ok (.amoMinu (fS w) (BitVec.ofNat 3 (w / 2 ^ 21)) (fD w) (fA6 w) (bitOf w 7) (fB w))
  | 4 => .ok (.amoMinu (fS w) (BitVec.ofNat 3 (w / 2 ^ 21)) (fD w) (fA6 w) (bitOf w 7) (fB w))
  | 5 => .ok (.amoMinu (fS w) (BitVec.ofNat 3 (w / 2 ^ 21)) (fD w) (fA6 w) (bitOf w 7) (fB w))
  | 6 => .ok (.amoMinu (fS w) (BitVec.ofNat 3 (w / 2 ^ 21)) (fD w) (fA6 w) (bitOf w 7) (fB w))
  | 8 => .ok (.amoMaxu (fS w) (BitVec.ofNat 3 (w / 2 ^ 21)) (fD w) (fA6 w) (bitOf w 7) (fB w))
  | 9 => .ok (.amoMaxu (fS w) (BitVec.ofNat 3 (w / 2 ^ 21)) (fD w) (fA6 w) (bitOf w 7) (fB w))
  | 10 => .ok (.amoMaxu (fS w) (BitVec.ofNat 3 (w / 2 ^ 21)) (fD w) (fA6 w) (bitOf w 7) (fB w))
  | 11 => .ok (.amoMaxu (fS w) (BitVec.ofNat 3 (w / 2 ^ 21)) (fD w) (fA6 w) (bitOf w 7) (fB w))
  | 12 => .ok (.amoMaxu (fS w) (BitVec.ofNat 3 (w / 2 ^ 21)) (fD w) (fA6 w) (bitOf w 7) (fB w))
  | 13 => .ok (.amoMaxu (fS w) (BitVec.ofNat 3 (w / 2 ^ 21)) (fD w) (fA6 w) (bitOf w 7) (fB w))
  | 14 => .ok (.amoMaxu (fS w) (BitVec.ofNat 3 (w / 2 ^ 21)) (fD w) (fA6 w) (bitOf w 7) (fB w))
  | 16 => .ok (.amoAdd64 (fS w) (BitVec.ofNat 3 (w / 2 ^ 21)) (fD w) (fA6 w) (bitOf w 7) (fB w))
  | 17 => .ok (.amoAdd64 (fS w) (BitVec.ofNat 3 (w / 2 ^ 21)) (fD w) (fA6 w) (bitOf w 7) (fB w))
  | 18 => .ok (.amoAdd64 (fS w) (BitVec.ofNat 3 (w / 2 ^ 21)) (fD w) (fA6 w) (bitOf w 7) (fB w))
  | 19 => .ok (.amoAdd64 (fS w) (BitVec.ofNat 3 (w / 2 ^ 21)) (fD w) (fA6 w) (bitOf w 7) (fB w))
  | 20 => .ok (.amoAdd64 (fS w) (BitVec.ofNat 3 (w / 2 ^ 21)) (fD w) (fA6 w) (bitOf w 7) (fB w))
  | 21 => .ok (.amoAdd64 (fS w) (BitVec.ofNat 3 (w / 2 ^ 21)) (fD w) (fA6 w) (bitOf w 7) (fB w))
  | 22 => .ok (.amoAdd64 (fS w) (BitVec.ofNat 3 (w / 2 ^ 21)) (fD w) (fA6 w) (bitOf w 7) (fB w))
  | 24 => .ok (.casW (fS w) (BitVec.ofNat 3 (w / 2 ^ 21)) (fD w) (fA6 w) (bitOf w 7) (fB w))
  | 25 => .ok (.casW (fS w) (BitVec.ofNat 3 (w / 2 ^ 21)) (fD w) (fA6 w) (bitOf w 7) (fB w))
  | 26 => .ok (.casW (fS w) (BitVec.ofNat 3 (w / 2 ^ 21)) (fD w) (fA6 w) (bitOf w 7) (fB w))
  | 27 => .ok (.casW (fS w) (BitVec.ofNat 3 (w / 2 ^ 21)) (fD w) (fA6 w) (bitOf w 7) (fB w))
  | 28 => .ok (.casW (fS w) (BitVec.ofNat 3 (w / 2 ^ 21)) (fD w) (fA6 w) (bitOf w 7) (fB w))
  | 29 => .ok (.casW (fS w) (BitVec.ofNat 3 (w / 2 ^ 21)) (fD w) (fA6 w) (bitOf w 7) (fB w))
  | 30 => .ok (.casW (fS w) (BitVec.ofNat 3 (w / 2 ^ 21)) (fD w) (fA6 w) (bitOf w 7) (fB w))
  | 32 => .ok (.casD (fS w) (BitVec.ofNat 3 (w / 2 ^ 21)) (fD w) (fA6 w) (bitOf w 7) (fB w))
  | 33 => .ok (.casD (fS w) (BitVec.ofNat 3 (w / 2 ^ 21)) (fD w) (fA6 w) (bitOf w 7) (fB w))
  | 34 => .ok (.casD (fS w) (BitVec.ofNat 3 (w / 2 ^ 21)) (fD w) (fA6 w) (bitOf w 7) (fB w))
  | 35 => .ok (.casD (fS w) (BitVec.ofNat 3 (w / 2 ^ 21)) (fD w) (fA6 w) (bitOf w 7) (fB w))
  | 36 => .ok (.casD (fS w) (BitVec.ofNat 3 (w / 2 ^ 21)) (fD w) (fA6 w) (bitOf w 7) (fB w))
  | 37 => .ok (.casD (fS w) (BitVec.ofNat 3 (w / 2 ^ 21)) (fD w) (fA6 w) (bitOf w 7) (fB w))
  | 38 => .ok (.casD (fS w) (BitVec.ofNat 3 (w / 2 ^ 21)) (fD w) (fA6 w) (bitOf w 7) (fB w))
  | 40 => .ok (.gts (fS w) (BitVec.ofNat 3 (w / 2 ^ 21)) (fD w) (fA6 w) (bitOf w 7) (fB w))
  | 41 => .ok (.gts (fS w) (BitVec.ofNat 3 (w / 2 ^ 21)) (fD w) (fA6 w) (bitOf w 7) (fB w))
  | 42 => .ok (.gts (fS w) (BitVec.ofNat 3 (w / 2 ^ 21)) (fD w) (fA6 w) (bitOf w 7) (fB w))
  | 43 => .ok (.gts (fS w) (BitVec.ofNat 3 (w / 2 ^ 21)) (fD w) (fA6 w) (bitOf w 7) (fB w))
  | 44 => .ok (.gts (fS w) (BitVec.ofNat 3 (w / 2 ^ 21)) (fD w) (fA6 w) (bitOf w 7) (fB w))
  | 45 => .ok (.gts (fS w) (BitVec.ofNat 3 (w / 2 ^ 21)) (fD w) (fA6 w) (bitOf w 7) (fB w))
  | 46 => .ok (.gts (fS w) (BitVec.ofNat 3 (w / 2 ^ 21)) (fD w) (fA6 w) (bitOf w 7) (fB w))
  | 48 => .ok (.vcas (fS w) (BitVec.ofNat 3 (w / 2 ^ 21)) (fD w) (fA6 w) (bitOf w 7) (fB w))
  | 49 => .ok (.vcas (fS w) (BitVec.ofNat 3 (w / 2 ^ 21)) (fD w) (fA6 w) (bitOf w 7) (fB w))
  | 50 => .ok (.vcas (fS w) (BitVec.ofNat 3 (w / 2 ^ 21)) (fD w) (fA6 w) (bitOf w 7) (fB w))
  | 51 => .ok (.vcas (fS w) (BitVec.ofNat 3 (w / 2 ^ 21)) (fD w) (fA6 w) (bitOf w 7) (fB w))
  | 52 => .ok (.vcas (fS w) (BitVec.ofNat 3 (w / 2 ^ 21)) (fD w) (fA6 w) (bitOf w 7) (fB w))
  | 53 => .ok (.vcas (fS w) (BitVec.ofNat 3 (w / 2 ^ 21)) (fD w) (fA6 w) (bitOf w 7) (fB w))
  | 54 => .ok (.vcas (fS w) (BitVec.ofNat 3 (w / 2 ^ 21)) (fD w) (fA6 w) (bitOf w 7) (fB w))
  | 56 => .ok (.tcas (fS w) (BitVec.ofNat 3 (w / 2 ^ 21)) (fD w) (fA6 w) (bitOf w 7) (fB w))
  | 57 => .ok (.tcas (fS w) (BitVec.ofNat 3 (w / 2 ^ 21)) (fD w) (fA6 w) (bitOf w 7) (fB w))
  | 58 => .ok (.tcas (fS w) (BitVec.ofNat 3 (w / 2 ^ 21)) (fD w) (fA6 w) (bitOf w 7) (fB w))
  | 59 => .ok (.tcas (fS w) (BitVec.ofNat 3 (w / 2 ^ 21)) (fD w) (fA6 w) (bitOf w 7) (fB w))
  | 60 => .ok (.tcas (fS w) (BitVec.ofNat 3 (w / 2 ^ 21)) (fD w) (fA6 w) (bitOf w 7) (fB w))
  | 61 => .ok (.tcas (fS w) (BitVec.ofNat 3 (w / 2 ^ 21)) (fD w) (fA6 w) (bitOf w 7) (fB w))
  | 62 => .ok (.tcas (fS w) (BitVec.ofNat 3 (w / 2 ^ 21)) (fD w) (fA6 w) (bitOf w 7) (fB w))
  | _ => .error .unassigned

/-- Group 0xA (R53). -/
def decodeGroupA (idx w : Nat) : Except DecodeError Instr :=
  match idx with
  | 0 => unused w 17 15 (unused w 7 7 (.ok (.redAdd (fS w) (BitVec.ofNat 3 (w / 2 ^ 18)) (bitOf w 14) (fA6 w) (fB w))))
  | 1 => unused w 17 15 (unused w 7 7 (.ok (.redAnd (fS w) (BitVec.ofNat 3 (w / 2 ^ 18)) (bitOf w 14) (fA6 w) (fB w))))
  | 2 => unused w 17 15 (unused w 7 7 (.ok (.redOr (fS w) (BitVec.ofNat 3 (w / 2 ^ 18)) (bitOf w 14) (fA6 w) (fB w))))
  | 3 => unused w 17 15 (unused w 7 7 (.ok (.redXor (fS w) (BitVec.ofNat 3 (w / 2 ^ 18)) (bitOf w 14) (fA6 w) (fB w))))
  | 4 => unused w 17 15 (unused w 7 7 (.ok (.redMin (fS w) (BitVec.ofNat 3 (w / 2 ^ 18)) (bitOf w 14) (fA6 w) (fB w))))
  | 5 => unused w 17 15 (unused w 7 7 (.ok (.redMax (fS w) (BitVec.ofNat 3 (w / 2 ^ 18)) (bitOf w 14) (fA6 w) (fB w))))
  | 6 => unused w 17 15 (unused w 7 7 (.ok (.redMinu (fS w) (BitVec.ofNat 3 (w / 2 ^ 18)) (bitOf w 14) (fA6 w) (fB w))))
  | 7 => unused w 17 15 (unused w 7 7 (.ok (.redMaxu (fS w) (BitVec.ofNat 3 (w / 2 ^ 18)) (bitOf w 14) (fA6 w) (fB w))))
  | 8 => unused w 17 15 (unused w 7 7 (.ok (.redFadd (fS w) (BitVec.ofNat 3 (w / 2 ^ 18)) (bitOf w 14) (fA6 w) (fB w))))
  | 9 => unused w 17 15 (unused w 7 7 (.ok (.redHadd2 (fS w) (BitVec.ofNat 3 (w / 2 ^ 18)) (bitOf w 14) (fA6 w) (fB w))))
  | 10 => unused w 17 15 (unused w 7 7 (.ok (.redFmin (fS w) (BitVec.ofNat 3 (w / 2 ^ 18)) (bitOf w 14) (fA6 w) (fB w))))
  | 11 => unused w 17 15 (unused w 7 7 (.ok (.redFmax (fS w) (BitVec.ofNat 3 (w / 2 ^ 18)) (bitOf w 14) (fA6 w) (fB w))))
  | 16 => unused w 20 14 (.ok (.txb (fS w) (BitVec.ofNat 14 w)))
  | 17 => needS w (unused w 13 0 (.ok (.txe (fD w))))
  | 18 => needS w (unused w 20 14 (.ok (.txa (BitVec.ofNat 14 w))))
  | 19 => .ok (.stst (fS w) (fD w) (fA w) (fB w))
  | 20 => .ok (.ststd (fS w) (fD w) (fA w) (fB w))
  | 21 => unused w 6 0 (.ok (.cwait (fS w) (fD w) (fA w)))
  | 22 => .ok (.ldas (fS w) (fD w) (fA w) (fB w))
  | 23 => .ok (.pdisc (fS w) (fD w) (fA w) (fB w))
  | 24 => .ok (.pmove (fS w) (fD w) (fA w) (fB w))
  | _ => .error .unassigned

/-- Group 0xB (R53). -/
def decodeGroupB (idx w : Nat) : Except DecodeError Instr :=
  match idx with
  | 0 => .ok (.lease (fS w) (fD w) (fA w) (fB w))
  | 1 => unused w 6 0 (.ok (.lwait (fS w) (fD w) (fA w)))
  | 2 => unused w 6 0 (.ok (.lrel (fS w) (fD w) (fA w)))
  | 3 => unused w 6 0 (.ok (.lstat (fS w) (fD w) (fA w)))
  | 4 => .ok (.tcopy (fS w) (fD w) (fA w) (fB w))
  | 5 => .ok (.tcopym (fS w) (fD w) (fA w) (fB w))
  | 6 => .ok (.gath (fS w) (fD w) (fA w) (fB w))
  | 7 => .ok (.scat (fS w) (fD w) (fA w) (fB w))
  | 8 => .ok (.coll (fS w) (fD w) (fA w) (fB w))
  | 9 => .ok (.vdec (fS w) (fD w) (fA w) (fB w))
  | 10 => unused w 6 0 (.ok (.qfence (fS w) (fD w) (fA w)))
  | 11 => unused w 13 0 (.ok (.bseal (fS w) (fD w)))
  | 12 => unused w 6 0 (.ok (.bwait (fS w) (fD w) (fA w)))
  | 13 => unused w 6 0 (.ok (.bstat (fS w) (fD w) (fA w)))
  | _ => .error .unassigned

/-- Group 0xC (R53). -/
def decodeGroupC (idx w : Nat) : Except DecodeError Instr :=
  match idx with
  | 0 => .ok (.mxma (fS w) (fD w) (fA w) (fB w))
  | 1 => unused w 13 0 (.ok (.accz (fS w) (fD w)))
  | 2 => unused w 6 0 (.ok (.accout (fS w) (fD w) (fA w)))
  | 3 => unused w 13 0 (.ok (.talloc (fS w) (fD w)))
  | 4 => unused w 6 0 (.ok (.tfree (fS w) (fD w) (fA w)))
  | 5 => unused w 6 0 (.ok (.tstate (fS w) (fD w) (fA w)))
  | 6 => unused w 6 0 (.ok (.tset (fS w) (fD w) (fA w)))
  | 7 => .ok (.twait (fS w) (fD w) (fA w) (fB w))
  | 8 => .ok (.ldt (fS w) (fD w) (fA w) (fB w))
  | 9 => .ok (.stt (fS w) (fD w) (fA w) (fB w))
  | _ => .error .unassigned

/-- Group 0xD (R53). -/
def decodeGroupD (idx w : Nat) : Except DecodeError Instr :=
  match idx with
  | 0 => needS w (unused w 20 14 (.ok (.rgive (BitVec.ofNat 14 w))))
  | 1 => .ok (.rclaim (fS w) (fD w) (BitVec.ofNat 14 w))
  | 2 => unused w 13 0 (.ok (.rpool (fS w) (fD w)))
  | 3 => .ok (.spawn (fS w) (fD w) (fA w) (fB w))
  | 4 => unused w 13 0 (.ok (.tokw (fS w) (fD w)))
  | 5 => unused w 13 0 (.ok (.tokp (fS w) (fD w)))
  | 6 => unused w 13 0 (.ok (.rndb (fS w) (fD w)))
  | _ => .error .unassigned

/-- Group 0xE (R53). -/
def decodeGroupE (idx w : Nat) : Except DecodeError Instr :=
  match idx with
  | 0 => .ok (.mfsr (fS w) (fD w) (BitVec.ofNat 14 w))
  | 1 => .ok (.mtsr (fS w) (fD w) (BitVec.ofNat 14 w))
  | 2 => .ok (.tlbi (fS w) (fD w) (fA w) (fB w))
  | 3 => needS w (unused w 20 0 (.ok (.eret)))
  | 4 => needS w (unused w 20 14 (unused w 6 0 (.ok (.halt (fA w)))))
  | 5 => unused w 6 0 (.ok (.ctxsav (fS w) (fD w) (fA w)))
  | 6 => .ok (.ctxres (fS w) (fD w) (fA w) (fB w))
  | 7 => .ok (.sysc (fS w) (BitVec.ofNat 21 w))
  | _ => .error .unassigned

/-- The instruction of a first word and, for MOVW, its literal word; its limits are checked last. -/
def decodeRaw (w : Nat) (lit : Option Nat) : Except DecodeError Instr :=
  let idx := w / 2 ^ 21 % 64
  match w / 2 ^ 27 % 16 with
  | 0 => decodeGroup0 idx w
  | 1 => decodeGroup1 idx w lit
  | 2 => decodeGroup2 idx w
  | 3 => decodeGroup3 idx w
  | 4 => decodeGroup4 idx w
  | 5 => decodeGroup5 idx w
  | 6 => decodeGroup6 idx w
  | 7 => decodeGroup7 idx w
  | 8 => decodeGroup8 idx w
  | 9 => decodeGroup9 idx w
  | 10 => decodeGroupA idx w
  | 11 => decodeGroupB idx w
  | 12 => decodeGroupC idx w
  | 13 => decodeGroupD idx w
  | 14 => decodeGroupE idx w
  | _ => .error .unassigned

/-- The decoder on words. -/
def decodeWords (w : Nat) (lit : Option Nat) : Except DecodeError Instr :=
  if w % 2 ^ 32 = 0 then .error .zeroWord
  else
    match decodeRaw (w % 2 ^ 32) lit with
    | .ok i => if encodingOk i then .ok i else .error .limit
    | .error e => .error e

/-- Whether a first word is MOVW's (R131), which takes a literal word. -/
def isMovw (w : Nat) : Bool := w / 2 ^ 21 % 1024 == 97

/-- The decoder on bytes, little-endian (R46): the instruction and the bytes after it. -/
def decode : List Byte → Except DecodeError (Instr × List Byte)
  | b0 :: b1 :: b2 :: b3 :: rest =>
    let w := leNat [b0, b1, b2, b3]
    if isMovw w then
      match rest with
      | c0 :: c1 :: c2 :: c3 :: rest' => (decodeWords w (some (leNat [c0, c1, c2, c3]))).map fun i => (i, rest')
      | _ => (decodeWords w none).map fun i => (i, rest)
    else (decodeWords w none).map fun i => (i, rest)
  | _ => .error .short

/-- Bytes an instruction takes in the code section (R46): 8 for MOVW, 4 for any other. -/
def Instr.bytes : Instr → Nat
  | .movw _ _ _ => 8
  | _ => 4

/-- S as a number. -/
def encS (s : Bool) : Nat := if s then 2 ^ 31 else 0
/-- A flag as a number at a bit. -/
def encFlag (f : Bool) (i : Nat) : Nat := if f then 2 ^ i else 0

/-- A word from its opcode, S and the three fields at bits 14, 7 and 0 (formats R, I, K, J, F, P and B). -/
def encWord (base : Nat) (s : Bool) (x y z : Nat) : Nat := base + encS s + x * 2 ^ 14 + y * 2 ^ 7 + z
/-- A format A word. -/
def encA (base : Nat) (s : Bool) (p d a : Nat) (f : Bool) (b : Nat) : Nat :=
  base + encS s + p * 2 ^ 21 + d * 2 ^ 14 + a * 2 ^ 8 + encFlag f 7 + b
/-- A format N word. -/
def encN (base : Nat) (s : Bool) (p : Nat) (f : Bool) (a b : Nat) : Nat :=
  base + encS s + p * 2 ^ 18 + encFlag f 14 + a * 2 ^ 8 + b
/-- A format B word. -/
def encB (base : Nat) (s : Bool) (n l a : Nat) : Nat := base + encS s + n * 2 ^ 17 + l * 2 ^ 14 + a * 2 ^ 7

/-- The encoder: the first word of an instruction (R45, R47, R53), none for a row without a word. -/
def encodeWord : Instr → Option Nat
  | .add s d a b => some (encWord 0x0 s d.toNat a.toNat b.toNat)
  | .sub s d a b => some (encWord 0x200000 s d.toNat a.toNat b.toNat)
  | .mul s d a b => some (encWord 0x400000 s d.toNat a.toNat b.toNat)
  | .mulh s d a b => some (encWord 0x600000 s d.toNat a.toNat b.toNat)
  | .mulhu s d a b => some (encWord 0x800000 s d.toNat a.toNat b.toNat)
  | .mad s d a b => some (encWord 0xA00000 s d.toNat a.toNat b.toNat)
  | .divu s d a b => some (encWord 0xC00000 s d.toNat a.toNat b.toNat)
  | .remu s d a b => some (encWord 0xE00000 s d.toNat a.toNat b.toNat)
  | .and s d a b => some (encWord 0x1000000 s d.toNat a.toNat b.toNat)
  | .or s d a b => some (encWord 0x1200000 s d.toNat a.toNat b.toNat)
  | .xor s d a b => some (encWord 0x1400000 s d.toNat a.toNat b.toNat)
  | .andn s d a b => some (encWord 0x1600000 s d.toNat a.toNat b.toNat)
  | .shl s d a b => some (encWord 0x1800000 s d.toNat a.toNat b.toNat)
  | .shr s d a b => some (encWord 0x1A00000 s d.toNat a.toNat b.toNat)
  | .sra s d a b => some (encWord 0x1C00000 s d.toNat a.toNat b.toNat)
  | .rot s d a b => some (encWord 0x1E00000 s d.toNat a.toNat b.toNat)
  | .min s d a b => some (encWord 0x2000000 s d.toNat a.toNat b.toNat)
  | .max s d a b => some (encWord 0x2200000 s d.toNat a.toNat b.toNat)
  | .minu s d a b => some (encWord 0x2400000 s d.toNat a.toNat b.toNat)
  | .maxu s d a b => some (encWord 0x2600000 s d.toNat a.toNat b.toNat)
  | .seq s d a b => some (encWord 0x2800000 s d.toNat a.toNat b.toNat)
  | .sne s d a b => some (encWord 0x2A00000 s d.toNat a.toNat b.toNat)
  | .slt s d a b => some (encWord 0x2C00000 s d.toNat a.toNat b.toNat)
  | .sltu s d a b => some (encWord 0x2E00000 s d.toNat a.toNat b.toNat)
  | .sle s d a b => some (encWord 0x3000000 s d.toNat a.toNat b.toNat)
  | .sleu s d a b => some (encWord 0x3200000 s d.toNat a.toNat b.toNat)
  | .cmovz s d a b => some (encWord 0x3400000 s d.toNat a.toNat b.toNat)
  | .cmovn s d a b => some (encWord 0x3600000 s d.toNat a.toNat b.toNat)
  | .add64 s d a b => some (encWord 0x3800000 s d.toNat a.toNat b.toNat)
  | .sub64 s d a b => some (encWord 0x3A00000 s d.toNat a.toNat b.toNat)
  | .mul64 s d a b => some (encWord 0x3C00000 s d.toNat a.toNat b.toNat)
  | .addx s d a b => some (encWord 0x3E00000 s d.toNat a.toNat b.toNat)
  | .addx4 s d a b => some (encWord 0x4000000 s d.toNat a.toNat b.toNat)
  | .bfx s d a b => some (encWord 0x4200000 s d.toNat a.toNat b.toNat)
  | .bfxs s d a b => some (encWord 0x4400000 s d.toNat a.toNat b.toNat)
  | .bfi s d a b => some (encWord 0x4600000 s d.toNat a.toNat b.toNat)
  | .addi s d a m => some (encWord 0x8000000 s d.toNat a.toNat m.toNat)
  | .nop s => some (encWord 0x8020400 s 0 0 0)
  | .andi s d a m => some (encWord 0x8200000 s d.toNat a.toNat m.toNat)
  | .ori s d a m => some (encWord 0x8400000 s d.toNat a.toNat m.toNat)
  | .xori s d a m => some (encWord 0x8600000 s d.toNat a.toNat m.toNat)
  | .shli s d a m => some (encWord 0x8800000 s d.toNat a.toNat m.toNat)
  | .shri s d a m => some (encWord 0x8A00000 s d.toNat a.toNat m.toNat)
  | .srai s d a m => some (encWord 0x8C00000 s d.toNat a.toNat m.toNat)
  | .slti s d a m => some (encWord 0x8E00000 s d.toNat a.toNat m.toNat)
  | .sltui s d a m => some (encWord 0x9000000 s d.toNat a.toNat m.toNat)
  | .seqi s d a m => some (encWord 0x9200000 s d.toNat a.toNat m.toNat)
  | .muli s d a m => some (encWord 0x9400000 s d.toNat a.toNat m.toNat)
  | .add64i s d a m => some (encWord 0x9600000 s d.toNat a.toNat m.toNat)
  | .clz s d a => some (encWord 0xA000000 s d.toNat a.toNat 0)
  | .popc s d a => some (encWord 0xA200000 s d.toNat a.toNat 0)
  | .brev s d a => some (encWord 0xA400000 s d.toNat a.toNat 0)
  | .abs s d a => some (encWord 0xA600000 s d.toNat a.toNat 0)
  | .sexb s d a => some (encWord 0xA800000 s d.toNat a.toNat 0)
  | .sexh s d a => some (encWord 0xAA00000 s d.toNat a.toNat 0)
  | .movi s d m => some (encWord 0xC000000 s d.toNat 0 m.toNat)
  | .movw s d _ => some (encWord 0xC200000 s d.toNat 0 0)
  | .fadd s d a b => some (encWord 0x10000000 s d.toNat a.toNat b.toNat)
  | .fsub s d a b => some (encWord 0x10200000 s d.toNat a.toNat b.toNat)
  | .fmul s d a b => some (encWord 0x10400000 s d.toNat a.toNat b.toNat)
  | .ffma s d a b => some (encWord 0x10600000 s d.toNat a.toNat b.toNat)
  | .fmin s d a b => some (encWord 0x10800000 s d.toNat a.toNat b.toNat)
  | .fmax s d a b => some (encWord 0x10A00000 s d.toNat a.toNat b.toNat)
  | .fdiv s d a b => some (encWord 0x10C00000 s d.toNat a.toNat b.toNat)
  | .fseq s d a b => some (encWord 0x10E00000 s d.toNat a.toNat b.toNat)
  | .fslt s d a b => some (encWord 0x11000000 s d.toNat a.toNat b.toNat)
  | .fsle s d a b => some (encWord 0x11200000 s d.toNat a.toNat b.toNat)
  | .fsun s d a b => some (encWord 0x11400000 s d.toNat a.toNat b.toNat)
  | .fcpys s d a b => some (encWord 0x11600000 s d.toNat a.toNat b.toNat)
  | .fsqrt s d a => some (encWord 0x12000000 s d.toNat a.toNat 0)
  | .frcp s d a => some (encWord 0x12200000 s d.toNat a.toNat 0)
  | .frsq s d a => some (encWord 0x12400000 s d.toNat a.toNat 0)
  | .fexp2 s d a => some (encWord 0x12600000 s d.toNat a.toNat 0)
  | .flog2 s d a => some (encWord 0x12800000 s d.toNat a.toNat 0)
  | .fabs s d a => some (encWord 0x12A00000 s d.toNat a.toNat 0)
  | .fneg s d a => some (encWord 0x12C00000 s d.toNat a.toNat 0)
  | .hadd2 s d a b => some (encWord 0x18000000 s d.toNat a.toNat b.toNat)
  | .hmul2 s d a b => some (encWord 0x18200000 s d.toNat a.toNat b.toNat)
  | .hfma2 s d a b => some (encWord 0x18400000 s d.toNat a.toNat b.toNat)
  | .hmax2 s d a b => some (encWord 0x18600000 s d.toNat a.toNat b.toNat)
  | .eadd2 s d a b => some (encWord 0x18800000 s d.toNat a.toNat b.toNat)
  | .emul2 s d a b => some (encWord 0x18A00000 s d.toNat a.toNat b.toNat)
  | .efma2 s d a b => some (encWord 0x18C00000 s d.toNat a.toNat b.toNat)
  | .emax2 s d a b => some (encWord 0x18E00000 s d.toNat a.toNat b.toNat)
  | .cvtF32Sw s d a => some (encWord 0x1A000000 s d.toNat a.toNat 0)
  | .cvtF32Uw s d a => some (encWord 0x1A200000 s d.toNat a.toNat 0)
  | .cvtSwF32 s d a => some (encWord 0x1A400000 s d.toNat a.toNat 0)
  | .cvtSwF32Rn s d a => some (encWord 0x1A600000 s d.toNat a.toNat 0)
  | .cvtUwF32 s d a => some (encWord 0x1A800000 s d.toNat a.toNat 0)
  | .cvtBf16F32 s d a b => some (encWord 0x1AA00000 s d.toNat a.toNat b.toNat)
  | .cvtBf16F32Sr s d a b => some (encWord 0x1AC00000 s d.toNat a.toNat b.toNat)
  | .cvtFp16F32 s d a b => some (encWord 0x1AE00000 s d.toNat a.toNat b.toNat)
  | .cvtF32Bf16 s d a => some (encWord 0x1B000000 s d.toNat a.toNat 0)
  | .cvtF32Fp16 s d a => some (encWord 0x1B200000 s d.toNat a.toNat 0)
  | .cvtLc8F32 s d a => some (encWord 0x1B400000 s d.toNat a.toNat 0)
  | .cvtF32Lc8 s d a => some (encWord 0x1B600000 s d.toNat a.toNat 0)
  | .cvtI8F32 s d a => some (encWord 0x1B800000 s d.toNat a.toNat 0)
  | .br s m => some (encWord 0x20000000 s 0 0 m.toNat)
  | .call s m => some (encWord 0x20200000 s 0 0 m.toNat)
  | .bez s d m => some (encWord 0x20400000 s d.toNat 0 m.toNat)
  | .bnz s d m => some (encWord 0x20600000 s d.toNat 0 m.toNat)
  | .callr s a => some (encWord 0x20800000 s 0 a.toNat 0)
  | .jr s a => some (encWord 0x20A00000 s 0 a.toNat 0)
  | .ret s => some (encWord 0x20C00000 s 0 0 0)
  | .looph s d m => some (encWord 0x20E00000 s d.toNat 0 m.toNat)
  | .loope s d m => some (encWord 0x21000000 s d.toNat 0 m.toNat)
  | .wbase s m => some (encWord 0x21200000 s 0 0 m.toNat)
  | .wbadj s m => some (encWord 0x21400000 s 0 0 m.toNat)
  | .exit s => some (encWord 0x21600000 s 0 0 0)
  | .trap s m => some (encWord 0x21800000 s 0 0 m.toNat)
  | .brk s m => some (encWord 0x21A00000 s 0 0 m.toNat)
  | .shfl s d a b => some (encWord 0x28000000 s d.toNat a.toNat b.toNat)
  | .shflx s d a b => some (encWord 0x28200000 s d.toNat a.toNat b.toNat)
  | .shflu s d a b => some (encWord 0x28400000 s d.toNat a.toNat b.toNat)
  | .shfld s d a b => some (encWord 0x28600000 s d.toNat a.toNat b.toNat)
  | .vany s d a => some (encWord 0x28800000 s d.toNat a.toNat 0)
  | .vall s d a => some (encWord 0x28A00000 s d.toNat a.toNat 0)
  | .vbal s d a => some (encWord 0x28C00000 s d.toNat a.toNat 0)
  | .matchOp s d a => some (encWord 0x28E00000 s d.toNat a.toNat 0)
  | .gsum s d a => some (encWord 0x29000000 s d.toNat a.toNat 0)
  | .lanes s d => some (encWord 0x29200000 s d.toNat 0 0)
  | .clki s d => some (encWord 0x29400000 s d.toNat 0 0)
  | .mfs s d m => some (encWord 0x2A000000 s d.toNat 0 m.toNat)
  | .mts s d m => some (encWord 0x2A200000 s d.toNat 0 m.toNat)
  | .ldb s d a m => some (encWord 0x30000000 s d.toNat a.toNat m.toNat)
  | .ldbs s d a m => some (encWord 0x30200000 s d.toNat a.toNat m.toNat)
  | .ldh s d a m => some (encWord 0x30400000 s d.toNat a.toNat m.toNat)
  | .ldhs s d a m => some (encWord 0x30600000 s d.toNat a.toNat m.toNat)
  | .ldw s d a m => some (encWord 0x30800000 s d.toNat a.toNat m.toNat)
  | .ldd s d a m => some (encWord 0x30A00000 s d.toNat a.toNat m.toNat)
  | .ldq s d a m => some (encWord 0x30C00000 s d.toNat a.toNat m.toNat)
  | .stb s d a m => some (encWord 0x30E00000 s d.toNat a.toNat m.toNat)
  | .sth s d a m => some (encWord 0x31000000 s d.toNat a.toNat m.toNat)
  | .stw s d a m => some (encWord 0x31200000 s d.toNat a.toNat m.toNat)
  | .std s d a m => some (encWord 0x31400000 s d.toNat a.toNat m.toNat)
  | .stq s d a m => some (encWord 0x31600000 s d.toNat a.toNat m.toNat)
  | .ldc s d a m => some (encWord 0x31800000 s d.toNat a.toNat m.toNat)
  | .ldcd s d a m => some (encWord 0x31A00000 s d.toNat a.toNat m.toNat)
  | .ldbx s d a b => some (encWord 0x32000000 s d.toNat a.toNat b.toNat)
  | .ldbsx s d a b => some (encWord 0x32200000 s d.toNat a.toNat b.toNat)
  | .ldhx s d a b => some (encWord 0x32400000 s d.toNat a.toNat b.toNat)
  | .ldhsx s d a b => some (encWord 0x32600000 s d.toNat a.toNat b.toNat)
  | .ldwx s d a b => some (encWord 0x32800000 s d.toNat a.toNat b.toNat)
  | .lddx s d a b => some (encWord 0x32A00000 s d.toNat a.toNat b.toNat)
  | .ldqx s d a b => some (encWord 0x32C00000 s d.toNat a.toNat b.toNat)
  | .stbx s d a b => some (encWord 0x32E00000 s d.toNat a.toNat b.toNat)
  | .sthx s d a b => some (encWord 0x33000000 s d.toNat a.toNat b.toNat)
  | .stwx s d a b => some (encWord 0x33200000 s d.toNat a.toNat b.toNat)
  | .stdx s d a b => some (encWord 0x33400000 s d.toNat a.toNat b.toNat)
  | .stqx s d a b => some (encWord 0x33600000 s d.toNat a.toNat b.toNat)
  | .ldcx s d a b => some (encWord 0x33800000 s d.toNat a.toNat b.toNat)
  | .ldcdx s d a b => some (encWord 0x33A00000 s d.toNat a.toNat b.toNat)
  | .fence s u v c => some (encWord 0x38000000 s u.toNat v.toNat (c.toNat * 2 ^ 4))
  | .pfence s u v => some (encWord 0x38200000 s u.toNat v.toNat 0)
  | .slacq s d a b => some (encWord 0x38400000 s d.toNat a.toNat b.toNat)
  | .slrel s a => some (encWord 0x38600000 s 0 a.toNat 0)
  | .bara s n l a => some (encB 0x38800000 s n.toNat l.toNat a.toNat)
  | .barw s n l => some (encB 0x38A00000 s n.toNat l.toNat 0)
  | .bar s n l a => some (encB 0x38C00000 s n.toNat l.toNat a.toNat)
  | .barx s n l a => some (encB 0x38E00000 s n.toNat l.toNat a.toNat)
  | .mon s d a => some (encWord 0x39000000 s d.toNat a.toNat 0)
  | .mwait s d a => some (encWord 0x39200000 s d.toNat a.toNat 0)
  | .amoAdd s p d a f b => some (encA 0x40000000 s p.toNat d.toNat a.toNat f b.toNat)
  | .amoAnd s p d a f b => some (encA 0x41000000 s p.toNat d.toNat a.toNat f b.toNat)
  | .amoOr s p d a f b => some (encA 0x42000000 s p.toNat d.toNat a.toNat f b.toNat)
  | .amoXor s p d a f b => some (encA 0x43000000 s p.toNat d.toNat a.toNat f b.toNat)
  | .amoMin s p d a f b => some (encA 0x44000000 s p.toNat d.toNat a.toNat f b.toNat)
  | .amoMax s p d a f b => some (encA 0x45000000 s p.toNat d.toNat a.toNat f b.toNat)
  | .amoXchg s p d a f b => some (encA 0x46000000 s p.toNat d.toNat a.toNat f b.toNat)
  | .amoFadd s p d a f b => some (encA 0x47000000 s p.toNat d.toNat a.toNat f b.toNat)
  | .amoMinu s p d a f b => some (encA 0x48000000 s p.toNat d.toNat a.toNat f b.toNat)
  | .amoMaxu s p d a f b => some (encA 0x49000000 s p.toNat d.toNat a.toNat f b.toNat)
  | .amoAdd64 s p d a f b => some (encA 0x4A000000 s p.toNat d.toNat a.toNat f b.toNat)
  | .casW s p d a f b => some (encA 0x4B000000 s p.toNat d.toNat a.toNat f b.toNat)
  | .casD s p d a f b => some (encA 0x4C000000 s p.toNat d.toNat a.toNat f b.toNat)
  | .gts s p d a f b => some (encA 0x4D000000 s p.toNat d.toNat a.toNat f b.toNat)
  | .vcas s p d a f b => some (encA 0x4E000000 s p.toNat d.toNat a.toNat f b.toNat)
  | .tcas s p d a f b => some (encA 0x4F000000 s p.toNat d.toNat a.toNat f b.toNat)
  | .redAdd s p f a b => some (encN 0x50000000 s p.toNat f a.toNat b.toNat)
  | .redAnd s p f a b => some (encN 0x50200000 s p.toNat f a.toNat b.toNat)
  | .redOr s p f a b => some (encN 0x50400000 s p.toNat f a.toNat b.toNat)
  | .redXor s p f a b => some (encN 0x50600000 s p.toNat f a.toNat b.toNat)
  | .redMin s p f a b => some (encN 0x50800000 s p.toNat f a.toNat b.toNat)
  | .redMax s p f a b => some (encN 0x50A00000 s p.toNat f a.toNat b.toNat)
  | .redMinu s p f a b => some (encN 0x50C00000 s p.toNat f a.toNat b.toNat)
  | .redMaxu s p f a b => some (encN 0x50E00000 s p.toNat f a.toNat b.toNat)
  | .redFadd s p f a b => some (encN 0x51000000 s p.toNat f a.toNat b.toNat)
  | .redHadd2 s p f a b => some (encN 0x51200000 s p.toNat f a.toNat b.toNat)
  | .redFmin s p f a b => some (encN 0x51400000 s p.toNat f a.toNat b.toNat)
  | .redFmax s p f a b => some (encN 0x51600000 s p.toNat f a.toNat b.toNat)
  | .txb s m => some (encWord 0x52000000 s 0 0 m.toNat)
  | .txe d => some (encWord 0x52200000 true d.toNat 0 0)
  | .txa m => some (encWord 0x52400000 true 0 0 m.toNat)
  | .stst s d a b => some (encWord 0x52600000 s d.toNat a.toNat b.toNat)
  | .ststd s d a b => some (encWord 0x52800000 s d.toNat a.toNat b.toNat)
  | .cwait s d a => some (encWord 0x52A00000 s d.toNat a.toNat 0)
  | .ldas s d a b => some (encWord 0x52C00000 s d.toNat a.toNat b.toNat)
  | .pdisc s d a b => some (encWord 0x52E00000 s d.toNat a.toNat b.toNat)
  | .pmove s d a b => some (encWord 0x53000000 s d.toNat a.toNat b.toNat)
  | .lease s d a b => some (encWord 0x58000000 s d.toNat a.toNat b.toNat)
  | .lwait s d a => some (encWord 0x58200000 s d.toNat a.toNat 0)
  | .lrel s d a => some (encWord 0x58400000 s d.toNat a.toNat 0)
  | .lstat s d a => some (encWord 0x58600000 s d.toNat a.toNat 0)
  | .tcopy s d a b => some (encWord 0x58800000 s d.toNat a.toNat b.toNat)
  | .tcopym s d a b => some (encWord 0x58A00000 s d.toNat a.toNat b.toNat)
  | .gath s d a b => some (encWord 0x58C00000 s d.toNat a.toNat b.toNat)
  | .scat s d a b => some (encWord 0x58E00000 s d.toNat a.toNat b.toNat)
  | .coll s d a b => some (encWord 0x59000000 s d.toNat a.toNat b.toNat)
  | .vdec s d a b => some (encWord 0x59200000 s d.toNat a.toNat b.toNat)
  | .qfence s d a => some (encWord 0x59400000 s d.toNat a.toNat 0)
  | .bseal s d => some (encWord 0x59600000 s d.toNat 0 0)
  | .bwait s d a => some (encWord 0x59800000 s d.toNat a.toNat 0)
  | .bstat s d a => some (encWord 0x59A00000 s d.toNat a.toNat 0)
  | .mxma s d a b => some (encWord 0x60000000 s d.toNat a.toNat b.toNat)
  | .accz s d => some (encWord 0x60200000 s d.toNat 0 0)
  | .accout s d a => some (encWord 0x60400000 s d.toNat a.toNat 0)
  | .talloc s d => some (encWord 0x60600000 s d.toNat 0 0)
  | .tfree s d a => some (encWord 0x60800000 s d.toNat a.toNat 0)
  | .tstate s d a => some (encWord 0x60A00000 s d.toNat a.toNat 0)
  | .tset s d a => some (encWord 0x60C00000 s d.toNat a.toNat 0)
  | .twait s d a b => some (encWord 0x60E00000 s d.toNat a.toNat b.toNat)
  | .ldt s d a b => some (encWord 0x61000000 s d.toNat a.toNat b.toNat)
  | .stt s d a b => some (encWord 0x61200000 s d.toNat a.toNat b.toNat)
  | .rgive m => some (encWord 0x68000000 true 0 0 m.toNat)
  | .rclaim s d m => some (encWord 0x68200000 s d.toNat 0 m.toNat)
  | .rpool s d => some (encWord 0x68400000 s d.toNat 0 0)
  | .spawn s d a b => some (encWord 0x68600000 s d.toNat a.toNat b.toNat)
  | .tokw s d => some (encWord 0x68800000 s d.toNat 0 0)
  | .tokp s d => some (encWord 0x68A00000 s d.toNat 0 0)
  | .rndb s d => some (encWord 0x68C00000 s d.toNat 0 0)
  | .mfsr s d m => some (encWord 0x70000000 s d.toNat 0 m.toNat)
  | .mtsr s d m => some (encWord 0x70200000 s d.toNat 0 m.toNat)
  | .tlbi s d a b => some (encWord 0x70400000 s d.toNat a.toNat b.toNat)
  | .eret => some (encWord 0x70600000 true 0 0 0)
  | .halt a => some (encWord 0x70800000 true 0 a.toNat 0)
  | .ctxsav s d a => some (encWord 0x70A00000 s d.toNat a.toNat 0)
  | .ctxres s d a b => some (encWord 0x70C00000 s d.toNat a.toNat b.toNat)
  | .sysc s m => some (encWord 0x70E00000 s 0 0 m.toNat)
  | _ => none

/-- The literal word of a MOVW. -/
def encodeLit : Instr → Option Nat
  | .movw _ _ lit => some lit.toNat
  | _ => none

/-- The encoded bytes of an instruction. -/
def encode (i : Instr) : Option (List Byte) :=
  (encodeWord i).map fun w => leBytes 4 w ++ (match encodeLit i with | some v => leBytes 4 v | none => [])

/-- The instruction the decoder reads from bits numbered as the opcode table numbers them: bit 0 is the least
significant bit of the first word, and a MOVW's literal word counts on from it; bits above `nbits` are 0. -/
def decodeTableWord (nbits w : Nat) : Option Instr :=
  match decode (leBytes 8 (w % 2 ^ nbits)) with
  | .ok (i, _) => some i
  | .error _ => none

end Sys2Proof
end

