-- ==== Sys2Proof/Config.lean ====
section
/-! DEFINITION. What is fixed for the machine: the module's composition (R1), the constants of the tables, and the
values the spec leaves free, which have no body. -/

namespace Sys2Proof.Config

/-- Compute dies of the module (R1). -/
def dies : Nat := 8
/-- Clusters of the module (R1, R12). -/
def clusters : Nat := 16
/-- Exposed cores of a cluster (R1). -/
def coresPerCluster : Nat := 128
/-- Spare cores of a cluster at manufacture (R1). -/
def spareCores : Nat := 4
/-- Base of the private aperture (R16, R99). -/
def privateBase : Nat := 0x00FE000000000000
/-- Base of the scratchpad aperture (R16, R99). -/
def scratchBase : Nat := 0x00FF000000000000
/-- Bytes of the scratchpad aperture (R99). -/
def scratchSpan : Nat := 0x2000000
/-- Bytes of one core's scratchpad (R108). -/
def scratchPerCore : Nat := 0x40000
/-- Bytes of one HBM stack, 64 GiB (R1). -/
def stackBytes : Nat := 2 ^ 36
/-- First physical address of a partition's LPDDR (R395). -/
def lpddrBase : Nat := 0x0000010000000000
/-- Bytes of LPDDR that firmware assigns for each die: the module's 3 072 GiB over 8 dies (R1; log 4). -/
def lpddrPerDie : Nat := 384 * 2 ^ 30
/-- First physical address of the pod's modules (R395). -/
def podBase : Nat := 0x0004000000000000
/-- Bytes of one module in the pod range (R395). -/
def podModule : Nat := 0x0000040000000000
/-- First physical address of CXL, host-die and PCIe memory (R395). -/
def systemBase : Nat := 0x0008000000000000
/-- Where firmware places CXL memory (log 4). -/
def cxlBase : Nat := 0x0009000000000000
/-- Where firmware places the PCIe peer apertures (log 4). -/
def pcieBase : Nat := 0x000A000000000000
/-- Physical addresses are 52 bits wide (R99). -/
def physTop : Nat := 2 ^ 52
/-- TIMEOUT (R67). -/
def timeout : Word := 0xFFFFFFFF
/-- Engine class of a site index (R193): MX 0, TC 1, GX 2, CL 3, VD 4. -/
def siteClass (i : Nat) : Nat := if i < 64 then 0 else if i < 80 then 1 else if i < 88 then 2 else if i < 92 then 3 else 4
/-- First site index of an engine class (R193). -/
def classFirst (c : Nat) : Nat := nth 100 [0, 64, 80, 88, 92] c
/-- Sites of an engine class on a die (R193). -/
def classCount (c : Nat) : Nat := nth 0 [64, 16, 8, 4, 8] c
/-- Wake latency of an engine class in ns (R193). -/
def wakeNs (c : Nat) : Nat := nth 0 [1800, 250, 250, 900, 4000] c
/-- Power of a site in units of 10 mW, by engine class and operating class (Table 8 of R315). -/
def sitePower (cls opclass : Nat) : Nat :=
  nth 0 (nth [] [[316, 503, 750, 1039], [105, 168, 250, 346], [84, 134, 200, 277], [168, 268, 400, 554], [105, 168, 250, 346]] cls) opclass
/-- A die's engine budget in units of 10 mW (R355). -/
def dieBudget (opclass : Nat) : Nat := nth 0 [12000, 18000, 24000, 30000] opclass
/-- The part of a die's budget that MX sites may draw: 24 of them at class 2, where the other classes keep 60 W (R3); the manual
gives no such part for another class (DEDUCED, log 93). -/
def mxBudget (opclass : Nat) : Nat := nth 0 [12000, 18000, 18000, 30000] opclass
/-- Clock of an operating class in MHz (R2, R315). -/
def clockMHz (opclass : Nat) : Nat := nth 1800 [1200, 1500, 1800, 2050] opclass
/-- Power weight of an energy class (R26). -/
def energyWeight (e : Nat) : Nat := nth 16 [1, 2, 3, 4, 6, 8, 12, 16] e
/-- Elements of a row, groups of a row and bytes of an element of a canonical type (R72). -/
def typeElems (t : Nat) : Nat := nth 128 [512, 512, 256, 256, 128] t
def typeGroups (t : Nat) : Nat := nth 32 [32, 32, 16, 16, 32] t
def typeGroupSize (t : Nat) : Nat := nth 4 [16, 16, 16, 16, 4] t
def typeBytes (t : Nat) : Nat := nth 4 [1, 1, 2, 2, 4] t

/-- FREE (log 7): whether a reader at its n-th choice takes the older of two copies it may use (R117, R153, R395). -/
opaque freeChoice : Nat → Bool
/-- FREE (log 8): AV1 decoding, a named standard the manual does not restate (R212): from the unit's bytes, the width,
the height, the depth and the references held (slot by slot, 0 for an empty slot), the samples of Y, Cb and Cr (none where
the unit does not decode, R213), whether the frame is monochrome, and the references afterwards. -/
opaque av1Decode : List Byte → Nat → Nat → Nat → List Nat → Option (List (List Nat) × Bool × List Nat)
/-- What R213 asks of a unit's one shown frame: its size, bit depth and profile, whether it is a key frame, and the reference
slots that it refers to. -/
structure FrameHeader where
  width : Nat
  height : Nat
  depth : Nat
  profile : Nat
  key : Bool
  slots : List Nat
  deriving DecidableEq, Repr
/-- FREE (log 8): the header of a unit, none where it does not parse (R213). -/
opaque av1Header : List Byte → Option FrameHeader
/-- FREE (log 84): the budget, in 10 mW, within which an emergency's n-th order to shed power brings a die (R202, R359). -/
opaque shedBudget : Nat → Nat
/-- FREE (log 9): how the numbers that a digest covers are laid out as bytes: of a measurement block or the manifest (R363, R364),
by its index, and of what follows the image and the range list in a quotation's assumptions (R337, index 0). -/
opaque digestBytes : Nat → List Nat → List Nat
/-- FREE (log 9): the signatures under the device identity keys (R363, R364). -/
opaque signEd25519 : List Nat → List Nat
opaque signMlDsa : List Nat → List Nat
/-- FREE (log 10): whether a PCIe peer completes its n-th AtomicOp with an error (R172). -/
opaque pcieError : Nat → Bool
/-- FREE (log 11): how far above -50 ppm a die's own oscillator runs when its reference is lost, by free choice (R190); taken
modulo 101. -/
opaque oscillator : Nat → Nat
/-- FREE (log 12): the least contribution of the pod's other modules at the pod root's n-th forming (R187, R273). -/
opaque podEarliest : Nat → Nat
/-- FREE (log 17): what memory the survey of a quotation takes a range's page to lie in, where no page table is named yet
(R154, R337, R371), modulo 5: 0 HBM, 1 second tier, 2 host-die memory, 3 other system memory, 4 another partition. -/
opaque pageForecast : Nat → Nat → Nat
/-- FREE (log 86): the address of the completion doorbell of a context's page (R342). -/
opaque doorbellAt : Nat → Nat → Nat
/-- FREE (log 85): whether the touch of a context pool's page, by its place in the pool, finds it missing (R342). -/
opaque poolMisses : Nat → Nat → Bool
/-- FREE (log 21): the version that the other side of an outer link runs, and the module that a pod port leads to, as a boot
trains them (R361, R368). -/
opaque linkPeer : Nat → Nat
opaque portModule : Nat → Nat
/-- Where the power microcontroller's mailboxes of a die lie in host-die memory (R358; DESIGN CHOICE, log 102). -/
def sensorBox (die : Nat) : Nat := systemBase + 0x14000 + 64 * die
def targetBox (die : Nat) : Nat := systemBase + 0x15000 + 64 * die
/-- FREE (log 87): the bytes that a save writes over the workgroup's context area, by the number of the save and the offset
(R344). -/
opaque areaByte : Nat → Nat → Byte
/-- FREE (log 88): whether the module belongs to a pod (R141). -/
opaque inPod : Bool
/-- FREE (log 18): this module's number in the pod, and whether a module of the pod is reachable over its links (R339). -/
opaque moduleNumber : Nat
opaque podReaches : Nat → Bool
end Sys2Proof.Config
end

