-- ==== Sys2Proof/Machine/Numeric.lean ====
section
/-! DEFINITION. Number formats and exact arithmetic (R72-R98): a value is an exact dyadic number, and every rounding is
one function from an exact magnitude to a format's bits. -/

namespace Sys2Proof.Machine

/-- A binary format of IEEE 754 layout (R72, R77): precision, exponent of the least normal number, bits of +∞, NaN. -/
structure Fmt where
  prec : Nat
  emin : Int
  infBits : Nat
  nan : Nat
  width : Nat
  deriving DecidableEq, Repr

/-- Binary32 (R72, R77). -/
def f32 : Fmt := { prec := 24, emin := -126, infBits := 0x7F800000, nan := 0x7FC00000, width := 32 }
/-- BF16 (R72, R77). -/
def bf16 : Fmt := { prec := 8, emin := -126, infBits := 0x7F80, nan := 0x7FC0, width := 16 }
/-- Binary16 (R72, R77). -/
def fp16 : Fmt := { prec := 11, emin := -14, infBits := 0x7C00, nan := 0x7E00, width := 16 }

/-- A decoded number: NaN, an infinity, or (-1)^neg × mant × 2^exp. -/
inductive Num where
  | nan
  | inf (neg : Bool)
  | fin (neg : Bool) (mant : Nat) (exp : Int)
  deriving DecidableEq, Repr

/-- The value that bits of a format stand for (R77). -/
def Fmt.decode (f : Fmt) (x : Nat) : Num :=
  let neg := bitOf x (f.width - 1)
  let mag := x % 2 ^ (f.width - 1)
  if f.infBits < mag then .nan
  else if mag = f.infBits then .inf neg
  else
    let e := mag / 2 ^ (f.prec - 1)
    let frac := mag % 2 ^ (f.prec - 1)
    let q := f.emin - ((f.prec - 1 : Nat) : Int)
    if e = 0 then .fin neg frac q
    else .fin neg (2 ^ (f.prec - 1) + frac) (q + ((e - 1 : Nat) : Int))

/-- Round to nearest, ties to even, subnormals kept, overflow to infinity (R71): the magnitude bits of the exact
number (m + θ) × 2^e, where θ is 0, or lies strictly between 0 and 1 when `sticky`. -/
def Fmt.roundMag (f : Fmt) (m : Nat) (e : Int) (sticky : Bool) : Nat :=
  if m = 0 then 0
  else
    let qmin := f.emin - ((f.prec - 1 : Nat) : Int)
    let q0 := (m.log2 : Int) + e - ((f.prec - 1 : Nat) : Int)
    let q := if q0 < qmin then qmin else q0
    let n :=
      if q ≤ e then m * 2 ^ (e - q).toNat
      else
        let k := (q - e).toNat
        let t := m / 2 ^ k
        let r := m % 2 ^ k
        let half := 2 ^ (k - 1)
        if half < r ∨ (r = half ∧ (sticky = true ∨ t % 2 = 1)) then t + 1 else t
    let b := (q - qmin).toNat * 2 ^ (f.prec - 1) + n
    if f.infBits ≤ b then f.infBits else b

/-- The sign bit of a format. -/
def Fmt.signBit (f : Fmt) (neg : Bool) : Nat := if neg then 2 ^ (f.width - 1) else 0

/-- RoundF32, RoundBF16 and RoundFP16 of R71 on an exact number. -/
def Fmt.round (f : Fmt) : Num → Nat
  | .nan => f.nan
  | .inf neg => f.signBit neg + f.infBits
  | .fin neg m e => f.signBit neg + f.roundMag m e false

/-- Rounding of a magnitude with a sticky part. -/
def Fmt.roundSticky (f : Fmt) (neg : Bool) (m : Nat) (e : Int) (sticky : Bool) : Nat :=
  f.signBit neg + f.roundMag m e sticky

/-- An exact integer times a power of two, with the sign of zero given. -/
def Num.ofInt (z : Int) (e : Int) (zeroNeg : Bool) : Num :=
  if z = 0 then .fin zeroNeg 0 0 else .fin (decide (z < 0)) z.natAbs e

/-- The signed mantissa of a finite number at a lower exponent. -/
def alignTo (neg : Bool) (m : Nat) (e lo : Int) : Int :=
  let v : Int := ((m * 2 ^ (e - lo).toNat : Nat) : Int)
  if neg then -v else v

/-- Exact sum (R133): ∞ − ∞ is NaN; an exact zero is +0 unless both terms are −0. -/
def Num.add : Num → Num → Num
  | .nan, _ => .nan
  | _, .nan => .nan
  | .inf a, .inf b => if a = b then .inf a else .nan
  | .inf a, _ => .inf a
  | _, .inf b => .inf b
  | .fin sa ma ea, .fin sb mb eb =>
    let lo := if ma = 0 then eb else if mb = 0 then ea else if ea ≤ eb then ea else eb
    let za := if ma = 0 then (0 : Int) else alignTo sa ma ea lo
    let zb := if mb = 0 then (0 : Int) else alignTo sb mb eb lo
    Num.ofInt (za + zb) lo (ma = 0 && mb = 0 && sa && sb)

/-- The number with its sign inverted. -/
def Num.neg : Num → Num
  | .nan => .nan
  | .inf s => .inf (!s)
  | .fin s m e => .fin (!s) m e

/-- Exact product (R133): 0 × ∞ is NaN. -/
def Num.mul : Num → Num → Num
  | .nan, _ => .nan
  | _, .nan => .nan
  | .inf a, .inf b => .inf (a != b)
  | .inf a, .fin b m _ => if m = 0 then .nan else .inf (a != b)
  | .fin a m _, .inf b => if m = 0 then .nan else .inf (a != b)
  | .fin a ma ea, .fin b mb eb => .fin (a != b) (ma * mb) (ea + eb)

/-- Exact comparison of two numbers that are not NaN: x < y (R133: +0 and −0 are equal). -/
def Num.lt : Num → Num → Bool
  | .nan, _ => false
  | _, .nan => false
  | .inf a, .inf b => a && !b
  | .inf a, .fin _ _ _ => a
  | .fin _ _ _, .inf b => !b
  | .fin sa ma ea, .fin sb mb eb =>
    let lo := if ea ≤ eb then ea else eb
    decide (alignTo sa ma ea lo < alignTo sb mb eb lo)

/-- x = y of R133. -/
def Num.eq : Num → Num → Bool
  | .nan, _ => false
  | _, .nan => false
  | .inf a, .inf b => a == b
  | .inf _, .fin _ _ _ => false
  | .fin _ _ _, .inf _ => false
  | .fin sa ma ea, .fin sb mb eb =>
    let lo := if ea ≤ eb then ea else eb
    decide (alignTo sa ma ea lo = alignTo sb mb eb lo)

/-- Whether a number is NaN. -/
def Num.isNan : Num → Bool
  | .nan => true
  | .inf _ => false
  | .fin _ _ _ => false

/-- The sign of a number. -/
def Num.sign : Num → Bool
  | .nan => false
  | .inf s => s
  | .fin s _ _ => s

/-- Addition, subtraction, multiplication and the fused form in one format, rounded once (R94, R133, R135). -/
def Fmt.add (f : Fmt) (x y : Nat) : Nat := f.round ((f.decode x).add (f.decode y))
def Fmt.sub (f : Fmt) (x y : Nat) : Nat := f.round ((f.decode x).add (f.decode y).neg)
def Fmt.mul (f : Fmt) (x y : Nat) : Nat := f.round ((f.decode x).mul (f.decode y))
def Fmt.fma (f : Fmt) (x y z : Nat) : Nat := f.round (((f.decode x).mul (f.decode y)).add (f.decode z))

/-- minimumNumber of R133: a NaN yields the other operand, −0 ranks below +0, and the result keeps its bits. -/
def Fmt.minNum (f : Fmt) (x y : Nat) : Nat :=
  let p := f.decode x
  let q := f.decode y
  if p.isNan && q.isNan then f.nan
  else if p.isNan then y
  else if q.isNan then x
  else if p.lt q then x
  else if q.lt p then y
  else if p.sign then x else y

/-- maximumNumber of R133. -/
def Fmt.maxNum (f : Fmt) (x y : Nat) : Nat :=
  let p := f.decode x
  let q := f.decode y
  if p.isNan && q.isNan then f.nan
  else if p.isNan then y
  else if q.isNan then x
  else if q.lt p then x
  else if p.lt q then y
  else if p.sign then y else x

/-- FDIV (R132, R133). -/
def f32Div (x y : Nat) : Nat :=
  match f32.decode x, f32.decode y with
  | .nan, _ => f32.nan
  | _, .nan => f32.nan
  | .inf _, .inf _ => f32.nan
  | .inf a, .fin b _ _ => f32.round (.inf (a != b))
  | .fin a _ _, .inf b => f32.round (.fin (a != b) 0 0)
  | .fin a ma ea, .fin b mb eb =>
    if mb = 0 then (if ma = 0 then f32.nan else f32.round (.inf (a != b)))
    else
      let n := ma * 2 ^ 64
      f32.roundSticky (a != b) (n / mb) (ea - eb - 64) (n % mb != 0)

/-- Integer square root of `n` by bits `k - 1` down to 0, from the root `r` so far. -/
def isqrtFrom (n : Nat) : Nat → Nat → Nat
  | 0, r => r
  | k + 1, r => if (r + 2 ^ k) * (r + 2 ^ k) ≤ n then isqrtFrom n k (r + 2 ^ k) else isqrtFrom n k r

/-- Integer square root. -/
def isqrt (n : Nat) : Nat := isqrtFrom n (n.log2 / 2 + 1) 0

/-- FSQRT (R134). -/
def f32Sqrt (x : Nat) : Nat :=
  match f32.decode x with
  | .nan => f32.nan
  | .inf neg => if neg then f32.nan else f32.round (.inf false)
  | .fin neg m e =>
    if m = 0 then f32.round (.fin neg 0 0)
    else if neg then f32.nan
    else
      let odd := (e % 2).toNat
      let n := m * 2 ^ (64 + odd)
      let r := isqrt n
      f32.roundSticky false r ((e - odd - 64) / 2) (r * r != n)

/-- FRCP (R134). -/
def f32Rcp (x : Nat) : Nat := f32Div 0x3F800000 x

/-- FRSQ (R134). -/
def f32Rsq (x : Nat) : Nat :=
  match f32.decode x with
  | .nan => f32.nan
  | .inf neg => if neg then f32.nan else 0
  | .fin neg m e =>
    if m = 0 then f32.round (.inf neg)
    else if neg then f32.nan
    else
      let odd := (e % 2).toNat
      let d := m * 2 ^ odd
      let r := isqrt (2 ^ 160 / d)
      f32.roundSticky false r (-80 - (e - odd) / 2) (r * r * d != 2 ^ 160)

/-- Bits of the fixed-point logarithm and exponential (log 16). -/
def fixBits : Nat := 192

/-- Terms of 2 × artanh t in fixed point: t^(2k+1) / (2k+1), from power `p` and odd number `j`. -/
def artanhTerms (t2 : Nat) : Nat → Nat → Nat → Nat
  | 0, _, _ => 0
  | k + 1, p, j => 2 * p / j + artanhTerms t2 k (p * t2 / 2 ^ fixBits) (j + 2)

/-- ln((1 + t)/(1 − t)) = 2 × artanh t in fixed point. -/
def fixLog (t : Nat) : Nat := artanhTerms (t * t / 2 ^ fixBits) 70 t 1

/-- ln 2 in fixed point. -/
def fixLn2 : Nat := fixLog (2 ^ fixBits / 3)

/-- Terms of e^y in fixed point. -/
def expTerms (y : Nat) : Nat → Nat → Nat → Nat
  | 0, _, _ => 0
  | k + 1, p, j => p + expTerms y k (p * y / 2 ^ fixBits / j) (j + 1)

/-- e^y in fixed point. -/
def fixExp (y : Nat) : Nat := expTerms y 60 (2 ^ fixBits) 1

/-- FEXP2 (R134): 2^n × 2^f, with f the fraction of x (log 16). -/
def f32Exp2 (x : Nat) : Nat :=
  match f32.decode x with
  | .nan => f32.nan
  | .inf neg => if neg then 0 else f32.infBits
  | .fin neg m e =>
    if m = 0 then 0x3F800000
    else
      let big : Bool := decide (0 ≤ e) || decide (2 ^ 9 ≤ m / 2 ^ (-e).toNat)
      let mag := if 0 ≤ e then m * 2 ^ (if e < 16 then e.toNat else 16) else m / 2 ^ (-e).toNat
      if big && decide (2 ^ 8 ≤ mag) then (if neg then 0 else f32.infBits)
      else
        let k := (-e).toNat
        let whole := if 0 ≤ e then m * 2 ^ e.toNat else m / 2 ^ k
        let frac := if 0 ≤ e then 0 else m % 2 ^ k
        if neg && decide (150 ≤ whole) then 0
        else if !neg && decide (128 ≤ whole) then f32.infBits
        else if frac = 0 then f32.roundMag 1 (if neg then -(whole : Int) else whole) false
        else
          let fx := frac * 2 ^ fixBits / 2 ^ k
          let n : Int := if neg then -(whole : Int) - 1 else whole
          let fr := if neg then 2 ^ fixBits - fx else fx
          f32.roundMag (fixExp (fr * fixLn2 / 2 ^ fixBits)) (n - fixBits) true

/-- FLOG2 (R134): n + log2 z, with z the mantissa from 1 to 2 (log 16). -/
def f32Log2 (x : Nat) : Nat :=
  match f32.decode x with
  | .nan => f32.nan
  | .inf neg => if neg then f32.nan else f32.infBits
  | .fin neg m e =>
    if m = 0 then f32.round (.inf true)
    else if neg then f32.nan
    else
      let k := m.log2
      let n : Int := e + k
      if m = 2 ^ k then f32.round (Num.ofInt n 0 false)
      else
        let t := (m - 2 ^ k) * 2 ^ fixBits / (m + 2 ^ k)
        let l := fixLog t * 2 ^ fixBits / fixLn2
        let v : Int := n * (2 ^ fixBits : Nat) + l
        if v < 0 then f32.roundSticky true (v.natAbs - 1) (-fixBits) true
        else f32.roundSticky false v.natAbs (-fixBits) true

/-- The integer part toward zero of a finite number. -/
def truncInt (neg : Bool) (m : Nat) (e : Int) : Int :=
  let a := if 0 ≤ e then m * 2 ^ e.toNat else m / 2 ^ (-e).toNat
  if neg then -(a : Int) else a

/-- The nearest integer of a finite number, ties to even. -/
def nearestInt (neg : Bool) (m : Nat) (e : Int) : Int :=
  let a :=
    if 0 ≤ e then m * 2 ^ e.toNat
    else
      let k := (-e).toNat
      let t := m / 2 ^ k
      let r := m % 2 ^ k
      let half := 2 ^ (k - 1)
      if half < r ∨ (r = half ∧ t % 2 = 1) then t + 1 else t
  if neg then -(a : Int) else a

/-- A conversion to an integer between two bounds (R86, R136): NaN gives 0, an infinity saturates. -/
def toIntSat (conv : Bool → Nat → Int → Int) (lo hi : Int) : Num → Int
  | .nan => 0
  | .inf neg => if neg then lo else hi
  | .fin neg m e => satInt (conv neg m e) lo hi

/-- FP32 to I8 (R86). -/
def numToI8 (x : Num) : Int := toIntSat nearestInt (-128) 127 x

/-- An integer as a number of a format. -/
def Fmt.ofInt (f : Fmt) (z : Int) : Nat := f.round (Num.ofInt z 0 false)

/-- The LC8 encoding of R76 and whether it saturated. -/
def lc8Encode : Num → Nat × Bool
  | .nan => (0x80, false)
  | .inf neg => (127 + (if neg then 128 else 0), true)
  | .fin neg m e =>
    if m = 0 then (0, false)
    else
      let c : Int := 4 * e + (((m ^ 8).log2 + 1) / 2 : Nat) + 64
      if 127 < c then (127 + (if neg then 128 else 0), true)
      else if c < 1 then (0, true)
      else (c.toNat + (if neg then 128 else 0), false)

/-- LC8 to a format (R86): 2^((C − 64)/4) rounded once. -/
def lc8ToF32 (x : Nat) : Nat :=
  let b := x % 256
  if b = 0 then 0
  else if b = 128 then f32.nan
  else
    let c : Int := (b % 128 : Nat) - 64
    let fr := (c % 4).toNat
    f32.roundSticky (decide (128 ≤ b)) (isqrt (isqrt (2 ^ (fr + 256)))) (c / 4 - 64) (fr != 0)

/-- A conversion between two binary formats through the exact value (R86). -/
def convert (src dst : Fmt) (x : Nat) : Nat := dst.round (src.decode x)

/-- Stochastic rounding of R98. -/
def stochastic (x rb : Nat) : Nat :=
  match f32.decode x with
  | .nan => 0x7FC0
  | .inf _ => bits x 31 16
  | .fin _ _ _ => bits (x + rb) 31 16

/-- LG6 with its scale to LC8 and whether it saturated (R82). -/
def lg6ToLc8 (code : Nat) (scale : Int) : Nat × Bool :=
  let l := code % 32
  let neg := 32 ≤ code
  if l = 0 then (if neg then (0x80, false) else (0, false))
  else
    let c : Int := (l : Int) + 48 + 4 * scale
    if 127 < c then (127 + (if neg then 128 else 0), true)
    else if c < 1 then (0, true)
    else (c.toNat + (if neg then 128 else 0), false)

/-- An LC8 product in units of 2^-44 (R89); neither operand is void or has a clear bit. -/
def lc8Product (a b : Nat) : Int :=
  let p : Int := ((a % 128 : Nat) : Int) - 64 + (((b % 128 : Nat) : Int) - 64)
  let t := nth 0 [4096, 4871, 5793, 6889] (p % 4).toNat
  let m := t * 2 ^ (p / 4 + 32).toNat
  if decide (128 ≤ a) != decide (128 ≤ b) then -(m : Int) else m

/-- Wrapping to an n-bit two's-complement value (R89, R90). -/
def wrapInt (z : Int) (n : Nat) : Int := sextNat (z % (2 ^ n : Nat)).toNat n

/-- The group sum of R91. -/
def groupSum (products : List Num) : Nat :=
  let s := products.foldl Num.add (.fin false 0 0)
  let r := f32.round s
  if r = 0x80000000 then 0 else r

/-- The IEEE format of a canonical type (R72); FP32 for the others. -/
def typeFmt (t : Nat) : Fmt := if t = 2 then bf16 else if t = 3 then fp16 else f32

/-- Whether an element of a canonical type is not zero (R74). -/
def elemNonZero (t x : Nat) : Bool :=
  if t = 0 ∨ t = 1 then x != 0 else x % 2 ^ ((typeFmt t).width - 1) != 0

/-- The random word of R96. -/
def mix (v m : Nat) : Nat := (v * 2 ^ m + bits v 31 (32 - m)) % 2 ^ 32

/-- Rounds of R96 from round `i`. -/
def rndRounds (seed : Nat) : Nat → Nat → Nat → Nat → Nat → Nat → Nat
  | 0, _, x0, x1, x2, x3 => x0 ^^^ x1 ^^^ x2 ^^^ x3
  | k + 1, i, x0, x1, x2, x3 =>
    let key := if i % 2 = 0 then bits seed 31 0 else bits seed 63 32
    let y0 := (x0 + x1 + key) % 2 ^ 32
    let y3 := mix (x3 ^^^ y0) (if i % 2 = 0 then 16 else 8)
    let y2 := (x2 + y3 + (i + 1) * 0x9E3779B9) % 2 ^ 32
    let y1 := mix (x1 ^^^ y2) (if i % 2 = 0 then 12 else 7)
    rndRounds seed k (i + 1) y0 y1 y2 y3

/-- RNDB's value (R96) from the seed, the thread's global id and its counter. -/
def rndWord (seed gid n : Nat) : Nat :=
  rndRounds seed 6 0 (n % 2 ^ 32) (bits gid 31 0) (bits gid 63 32) 0x6A09E667

/-- One byte of CRC-32C (R365): eight shifts of the reflected polynomial. -/
def crcBits : Nat → Nat → Nat
  | 0, c => c
  | k + 1, c => crcBits k (if c % 2 = 1 then (c / 2) ^^^ 0x82F63B78 else c / 2)

/-- CRC-32C of a byte list (R365). -/
def crc32c (bs : List Byte) : Nat := bs.foldl (fun c b => crcBits 8 (c ^^^ b.toNat)) 0xFFFFFFFF ^^^ 0xFFFFFFFF

end Sys2Proof.Machine
end

