-- ==== Sys2Proof/Machine/State.lean ====
section
/-! DEFINITION. The state of the machine: everything the manual gives a module, as plain data, and the machine right
after reset. A list keyed by a number holds only the entries that differ from their reset value. -/

namespace Sys2Proof.Machine

/-- Trap codes (R254, Table 5). -/
inductive TrapCode where
  | halt | illegal | priv | bound | window | align | outsideLease | access | polderBreach | widen | regdl | streamer
  | trap | brk | mchk
  deriving DecidableEq, Repr

/-- The code's number (R254). -/
def TrapCode.num : TrapCode → Nat
  | .halt => 0 | .illegal => 1 | .priv => 2 | .bound => 3 | .window => 4 | .align => 5 | .outsideLease => 6
  | .access => 7 | .polderBreach => 8 | .widen => 9 | .regdl => 10 | .streamer => 11 | .trap => 12 | .brk => 13
  | .mchk => 14

/-- A trap's code and 64-bit operand (R255). -/
structure TrapInfo where
  code : TrapCode
  operand : Nat
  deriving DecidableEq, Repr

/-- The separately cached paths (R117). -/
inductive Path where
  | ord | con | tile | tc | gx | cl | vd
  deriving DecidableEq, Repr

/-- A path's bit in the sets of format P (R50, Table 2). -/
def Path.bit : Path → Nat
  | .ord => 0 | .con => 1 | .tile => 2 | .tc => 3 | .gx => 4 | .cl => 5 | .vd => 6

/-- The operations of atomics and reductions (R167, R173). -/
inductive AmoOp where
  | add | and | or | xor | min | max | xchg | fadd | minu | maxu | add64 | casW | casD | gts | vcas | tcas
  | hadd2 | fmin | fmax
  deriving DecidableEq, Repr

/-- What an access in flight does when it performs. -/
inductive AccOp where
  /-- a load: bytes are extended to `words` words, with sign if asked (R149) -/
  | load (signed : Bool) (words : Nat)
  /-- MON's load, at the home slice or bank (R165) -/
  | mon
  /-- an ordinary store (R152) -/
  | store (value : Nat)
  /-- the write-through of an atomic, or of a sluice's release count (R155, R159), from an L1 or a cluster atomic unit
  (R170) -/
  | through (value : Nat) (release : Bool)
  /-- a returning atomic (R168): operation, operand, expected value -/
  | atomic (op : AmoOp) (value expected : Nat)
  /-- a no-return reduction (R173) -/
  | red (op : AmoOp) (value : Nat)
  /-- a deterministic reduction (R176) with its thread's sequence number -/
  | detRed (op : AmoOp) (value sequence : Nat)
  /-- a stamped store travelling to its home (R186) -/
  | stamped (value stamp : Nat)
  /-- LDAS at its home (R189) -/
  | asOf (stamp : Nat)
  /-- SLREL's increment of a release count (R159) -/
  | release
  /-- LDT and STT at a tile's slice (R230): tile, row, byte offset -/
  | tileLoad (tile row offset : Nat)
  | tileStore (tile row offset value : Nat)
  /-- PDISC at the homes (R191): bytes -/
  | discard (length : Nat)
  /-- PMOVE through a GX site (R192): bytes, target die, handle -/
  | move (length target handle : Nat)
  /-- a register request to another die (R244): index and, for a write, the value -/
  | regRead (index : Nat)
  | regWrite (index : Nat) (value : Word)
  /-- a sampled read of %energy: low word and what it latches (R140, R247) -/
  | energy (low high : Word)
  /-- an arrival on its way to a barrier's root (R162): level, network, id, count and expected bytes -/
  | arrive (level inst id count expected : Nat)
  /-- a continuation record on its way to the leaf controller (R28): target, arguments, spawn sequence -/
  | record (target : Nat) (args : List Word) (sequence : Nat)
  deriving DecidableEq, Repr

/-- An access that has issued and not yet performed. -/
structure Access where
  id : Nat
  ctx : Nat
  wg : Nat
  tid : Nat
  core : Nat
  path : Path
  op : AccOp
  addr : Nat
  size : Nat
  scope : Nat
  /-- the slot of the run's results that it fills, if any (R60) -/
  slot : Option Nat
  /-- generations of the scratchpad granules captured at issue (R110) -/
  gens : List Nat
  /-- the issue it belongs to, one for the whole group (R22), and the instruction's PC -/
  gid : Nat
  pc : Nat
  /-- when it was written into its core's L1 line or cluster atomic unit (R265, R170), 0 before -/
  taken : Nat
  /-- for a transaction's load, served at the home: the bytes its write set held at issue (R179) -/
  tx : Option (List (Nat × Byte))
  /-- the writes that its thread followed when it issued: it may not be seen before them (R263, R264) -/
  after : List Nat
  deriving DecidableEq, Repr

/-- A variable-latency result of the open run (R59, R60): its destination words, resolved at issue, and its value once
returned (a word that is `none` leaves its destination as it is). -/
structure Result where
  slot : Nat
  dest : List Nat
  value : Option (List (Option Word))
  deriving DecidableEq, Repr

/-- A MON watch of a thread (R165, R166). -/
inductive WatchState where
  | armed | written | lost
  deriving DecidableEq, Repr

structure Watch where
  line : Nat
  state : WatchState
  deriving DecidableEq, Repr

/-- A thread's transaction (R178-R184): bytes read and bytes buffered, by home location. -/
structure Tx where
  active : Bool
  abortPc : Nat
  reads : List (Nat × Byte)
  writes : List (Nat × Byte)
  readLines : List Nat
  writeLines : List Nat
  lastTxb : Option Nat
  /-- while its TXE validates at the homes: the result slot and the issue (R181) -/
  committing : Option (Nat × Nat)
  deriving DecidableEq, Repr

/-- A batch record (R216, R218); number 0 is the open batch. -/
structure Batch where
  serial : Nat
  number : Nat
  entries : Nat
  finished : Nat
  saturation : Nat
  stale : Nat
  notPerformed : Nat
  corrupt : Nat
  deriving DecidableEq, Repr

/-- What a sleeping thread waits for (R66). -/
inductive WaitKind where
  | slacq (addr need : Nat)
  | mwait (line : Nat)
  | cwait (stamp : Nat)
  | bwait (allowed : Nat)
  | barrier (level id : Nat)
  | lwait (word : Nat)
  | rclaim (n : Nat)
  | twait (tile state : Nat)
  | tokw
  deriving DecidableEq, Repr

/-- Why a thread is held, not ready, without closing its run. -/
inductive HoldKind where
  /-- FENCE (R155): predecessor and successor sets, scope -/
  | fence (pred succ scope : Nat)
  /-- PFENCE (R157): from and to sets -/
  | pfence (fromSet toSet : Nat)
  /-- a tile wait at issue (R115, R209, R228): the tiles, each with whether filling will do -/
  | tile (tiles : List (Nat × Bool))
  /-- a gated access of a deterministic launch at issue (R175) -/
  | token
  deriving DecidableEq, Repr

/-- A thread's readiness (R18). -/
inductive Status where
  | ready
  | parked
  | asleep (w : WaitKind)
  | held (h : HoldKind)
  | exited
  deriving DecidableEq, Repr

/-- What a park still does besides committing results. -/
inductive ParkAct where
  | none
  /-- RGIVE's words leave the allocation (R234) -/
  | give (n : Nat)
  /-- the window base of WBASE and WBADJ for the next run (R146) -/
  | window (base : Nat)
  /-- EXIT ends the thread (R147) -/
  | exit
  /-- HALT ends the workgroup (R250) -/
  | halt (operand : Nat)
  deriving DecidableEq, Repr

/-- The last arrival of a thread at a barrier (R163): in flight, or the phase it counted in at the root of an extent (R39:
the root stays that of the core where the thread arrived). -/
structure Arrived where
  level : Nat
  inst : Nat
  id : Nat
  flight : Option Nat
  phase : Nat
  deriving DecidableEq, Repr

/-- A thread's state (R15, R65, R245). -/
structure Thread where
  tid : Nat
  sub : Nat
  pc : Nat
  base : Nat
  /-- the words of its allocation (R15, R62), physical word 0 first: as many as it is allocated -/
  regs : List Word
  rng : Word
  status : Status
  /-- ready stamp (R15, R20) -/
  stamp : Nat
  /-- instructions of the open run (R58) and its results (R60) -/
  runLen : Nat
  results : List Result
  nextSlot : Nat
  parkAct : ParkAct
  /-- end of a wait's or hold's limit in ns, and the slot its result fills (R66, R67, R228) -/
  deadline : Nat
  waitSlot : Nat
  holdPc : Option Nat
  /-- the blocks of a command held at issue, as first read (R204) -/
  heldBlocks : List (List Byte)
  clkw : Word
  /-- %clkw's value to come at the park (R141) -/
  clkwNext : Option Word
  tws : Word
  txs : Word
  tx : Tx
  energyHi : Word
  edieHi : List (Nat × Word)
  tvec : Word
  epc : Word
  ecause : Word
  eop : Word
  eoph : Word
  spawned : List (Nat × Nat)
  spawnSeq : Nat
  redSeq : Nat
  batchNo : Nat
  openBatch : Option Batch
  batches : List Batch
  staleNext : Nat
  watches : List Watch
  arrived : List Arrived
  /-- the writes that the thread follows and that stood in its core's L1 or its cluster's unit when it came to: it read them there, or a
  fence or barrier of the core has ordered them (R263, R264) -/
  seen : List Nat
  /-- of a continuation, the workgroup that spawned it (R240) -/
  parent : Option Nat
  deriving DecidableEq, Repr

/-- A barrier's open phase (R161-R164). -/
structure Barrier where
  level : Nat
  inst : Nat
  id : Nat
  phase : Nat
  arrivals : Nat
  count : Nat
  expected : Nat
  landed : Nat
  deriving DecidableEq, Repr

/-- A deterministic update with its issuer index (R176). -/
structure DetUpdate where
  ctx : Nat
  wg : Nat
  tid : Nat
  sequence : Nat
  op : AmoOp
  value : Nat
  key : Nat
  /-- the address it was issued with, and the home slice whose unit it belongs to -/
  addr : Nat
  die : Nat
  slice : Nat
  deriving DecidableEq, Repr

/-- Why a workgroup is saved: not saved, by the device, by the operator (R37), by CTXSAV (R251), by BRK under debug. -/
inductive SaveCause where
  | running | device | operator | ctxsav | brk
  deriving DecidableEq, Repr

/-- An entry of a core's PC table (R18). -/
structure PcEntry where
  ctx : Nat
  wg : Nat
  pc : Nat
  age : Nat
  opened : Bool
  born : Nat
  tids : List Nat
  deriving DecidableEq, Repr

/-- A held thread of a set (R19, step 3). -/
structure HeldThread where
  ctx : Nat
  wg : Nat
  pc : Nat
  tid : Nat
  deriving DecidableEq, Repr

/-- An L1 line (R103): virtual tag, home location of the line, bytes, and for a private line its dirty granules. -/
structure L1Line where
  ctx : Nat
  vline : Nat
  key : Nat
  bytes : List Byte
  dirty : List Bool
  priv : Bool
  deriving DecidableEq, Repr

/-- A scratchpad granule's entry in the allocation map (R109). -/
structure Granule where
  index : Nat
  ctx : Nat
  wg : Nat
  live : Bool
  gen : Nat
  deriving DecidableEq, Repr

/-- A core (R18-R22, R103, R109, R165). -/
structure Core where
  id : Nat
  entries : List PcEntry
  held : List HeldThread
  ageCounter : Nat
  slots : Nat
  loadLimit : Nat
  victims : List Nat
  victimHits : Nat
  l1 : List L1Line
  granules : List Granule
  /-- watched lines and the order of their latest arming (R165) -/
  watched : List (Nat × Nat)
  armings : Nat
  /-- whether its cluster's L1s act as one for a fused launch (R107) -/
  fused : Bool
  deriving DecidableEq, Repr

/-- A copy held by the constant cache, the tile path or an engine read path (R117), by 32-byte sector. -/
structure Copy where
  path : Path
  owner : Nat
  sector : Nat
  bytes : List Byte
  deriving DecidableEq, Repr

/-- A data row and bitmap row of a tile (R73). -/
structure TileRow where
  row : Nat
  data : List Byte
  bitmap : List Byte
  deriving DecidableEq, Repr

/-- A tile's state (R113, Table 3). -/
inductive TileState where
  | free | empty | filling | ready | draining
  deriving DecidableEq, Repr

/-- The state's number (R113). -/
def TileState.num : TileState → Nat
  | .free => 0 | .empty => 1 | .filling => 2 | .ready => 3 | .draining => 4

/-- A tile table entry and the rows that have landed (R113). -/
structure Tile where
  cluster : Nat
  number : Nat
  state : TileState
  fault : Bool
  type : Nat
  rows : Nat
  readers : Nat
  ctx : Nat
  /-- times it began filling (R223) -/
  fills : Nat
  /-- its last byte has landed, TILE_FILL_COMPLETE to come (R114) -/
  landed : Bool
  /-- the entry of its filling command (R114) -/
  filler : Nat
  /-- reading operations finished, TILE_READER_FINISH to come (R114) -/
  finishing : Nat
  data : List TileRow
  deriving DecidableEq, Repr

/-- One block of a tensor copy (R207). -/
structure CopyBlock where
  address : Nat
  pitch : Nat
  elements : Nat
  rows : Nat
  dtype : Nat
  scaleInline : Bool
  blockLength : Nat
  scaleKind : Nat
  format : Nat
  bar : Bool
  barLevel : Nat
  barId : Nat
  toMemory : Bool
  bitmapSource : Bool
  transpose : Bool
  tile : Nat
  aux : Nat
  deriving DecidableEq, Repr

/-- A gather or scatter block (R210). -/
structure GatherBlock where
  base : Nat
  pitch : Nat
  rowBytes : Nat
  count : Nat
  index : Nat
  packed : Nat
  bar : Bool
  barLevel : Nat
  barId : Nat
  deriving DecidableEq, Repr

/-- The MXMA control word's fields (R220). -/
structure MatrixWord where
  handle : Nat
  acc : Nat
  type : Nat
  sparse : Bool
  keep : Bool
  groups : Nat
  start : Nat
  deriving DecidableEq, Repr

/-- What a queue entry does (R205). -/
inductive EntryKind where
  | copy (blocks : List CopyBlock)
  | mxma (w : MatrixWord) (tileA tileB : Nat)
  | accz (acc type : Nat)
  | accout (acc type tile : Nat)
  | gather (g : GatherBlock)
  | scatter (g : GatherBlock)
  | coll (source destination n tag op : Nat)
  | vdec (bitstream length width height stream : Nat) (key deep : Bool) (tiles first : Nat) (bar : Bool) (barLevel barId : Nat)
  | fence (join : Nat)
  deriving DecidableEq, Repr

/-- A queue entry (R205). -/
structure Entry where
  id : Nat
  ctx : Nat
  wg : Nat
  tid : Nat
  core : Nat
  batch : Nat
  kind : EntryKind
  /-- the copy a TCOPYM's follow-on waits for (R209), and whether it is such a follow-on -/
  after : Option Nat
  follow : Bool
  /-- steps done, whether it has started, whether it is marked not performed, whether an access of it was stale -/
  step : Nat
  started : Bool
  failed : Bool
  stale : Bool
  /-- generations of scratchpad granules captured at issue (R110), and the command's PC -/
  gens : List (Nat × Nat)
  pc : Nat
  /-- a VDEC's frame once decoded (R212, R213): its planes' samples, monochrome, references -/
  decoded : Option (List (List Nat) × Bool × List Nat)
  /-- a collective's results so far (R193, R211) -/
  partials : List Byte
  /-- the lease that it was sent under, by handle of member 0, and the site state that it runs on (R200) -/
  handle : Nat
  lineage : Nat
  deriving DecidableEq, Repr

/-- An accumulator (R87): the type that the core has recorded for it (R220), the type of what it holds, its void flag and
its 64 × 64 elements (bit patterns for FP32). -/
structure Accumulator where
  recorded : Option Nat
  type : Option Nat
  void : Bool
  elems : List Int
  deriving DecidableEq, Repr

/-- A site's power state (R193, R201). -/
inductive SitePower where
  | dark
  | waking (due : Nat)
  | awake
  | lingering (until_ : Nat)
  deriving DecidableEq, Repr

/-- What a site keeps inside for a lease (Table 1 of R193): accumulators, and a decoder's stream and references. -/
structure Inside where
  acc0 : Accumulator
  acc1 : Accumulator
  stream : Nat
  refs : List Nat
  deriving DecidableEq, Repr

/-- An engine site (R193). -/
structure Site where
  die : Nat
  index : Nat
  power : SitePower
  opclass : Nat
  /-- the lease that holds it, by handle of member 0; for a lingering site the workgroup whose state it keeps -/
  lease : Option Nat
  keeper : Option (Nat × Nat)
  keep : Bool
  queue : List Entry
  acc0 : Accumulator
  acc1 : Accumulator
  /-- the last MXMA issued since the grant: tile A, start, groups (R223) -/
  lastA : Option (Nat × Nat × Nat)
  stream : Nat
  refs : List Nat
  /-- when its last entry completed (R201) -/
  lastEntry : Nat
  /-- the number of the internal state it holds and of its present lease's, which differ while entries of a released lease
  still run (R200), and the states that are to follow, each under its number -/
  running : Nat
  lineage : Nat
  heirs : List (Nat × Inside)
  deriving DecidableEq, Repr

/-- A lease (R194): handle of member 0, holder, and its present sites. -/
structure Lease where
  handle : Nat
  ctx : Nat
  wg : Nat
  cls : Nat
  count : Nat
  reserved : Bool
  kept : Bool
  keepState : Bool
  priority : Nat
  grant : Nat
  die : Nat
  sites : List Nat
  /-- the ticket of its request, if it was queued (R195, R198) -/
  ticket : Option Nat
  /-- among a saved workgroup's leases: released already, but with entries that still run (R38, R200) -/
  released : Bool
  deriving DecidableEq, Repr

/-- A booking of a launch's workgroup slot (R196, R343): its sites, and the handle of the lease that has taken it. -/
structure Booking where
  slot : Nat
  die : Nat
  cls : Nat
  sites : List Nat
  taken : Option Nat
  deriving DecidableEq, Repr

/-- A member of a reserved lease while its workgroup is saved (R38, R41): its site's state and its queue. -/
structure SavedSite where
  handle : Nat
  member : Nat
  site : Site
  deriving DecidableEq, Repr

/-- A workgroup resident on a core or saved (R23, R38). -/
structure Workgroup where
  ctx : Nat
  wg : Nat
  /-- core (cluster × 128 + core), the last one while saved -/
  core : Nat
  saved : SaveCause
  /-- the time it was saved (R39) -/
  savedAt : Nat
  slot : Nat
  /-- its context area in the pool (R344, R347) -/
  area : Nat
  generation : Nat
  energy : Nat
  threads : List Thread
  scratchOff : Nat
  scratchLen : Nat
  savedScratch : List Byte
  acs : Word
  /-- words of the loan pool by lane (R233) -/
  pools : List (Nat × Nat)
  /-- claims in issue order (R235) -/
  claims : List Nat
  /-- since when, on its die's clock, it has been in the state of R238 -/
  stuckAt : Option Nat
  leaf : List Barrier
  redQueue : List DetUpdate
  /-- its reserved leases and their members while it is saved (R41) -/
  savedLeases : List Lease
  savedSites : List SavedSite
  deriving DecidableEq, Repr

/-- A queued request of a die's lease arbiter (R197). -/
structure Request where
  die : Nat
  ticket : Nat
  ctx : Nat
  wg : Nat
  cls : Nat
  count : Nat
  keepState : Bool
  priority : Nat
  opclass : Nat
  arrival : Nat
  deriving DecidableEq, Repr

/-- A die's clock around true time (R141, R190): with its reference, the interval is (true - lo, true + hi); after the
loss, it advances from the interval at the loss by the oscillator's bounds. `drift` is the oscillator's own rate. -/
structure Clock where
  lo : Nat
  hi : Nat
  lostAt : Option Nat
  drift : Int
  deriving DecidableEq, Repr

/-- SRAM margining state of a die (R360, R380). -/
inductive Margin where
  | margining | held | pinned
  deriving DecidableEq, Repr

/-- A die (R245, R246, R355-R360, R367). -/
structure Die where
  id : Nat
  pid : Word
  pilv : Word
  pbnd : Word
  pqc : Word
  /-- time of the pending quiesce request (R351) -/
  quiesceAt : Option Nat
  tol : Word
  energyPj : Nat
  energySat : Bool
  clock : Clock
  ticket : Nat
  rail : Nat
  margin : Margin
  marginReads : Nat
  marginErrors : Nat
  temperature : Nat
  heldTemperature : Nat
  powerTenths : Nat
  enginePower : Nat
  corrected : Nat
  uncorrected : Nat
  tripped : Bool
  /-- thermal rows already tried (R359) -/
  thermalRow : Nat
  targetRationing : Nat
  targetPools : Nat
  targetRail : Nat
  targetShed : Nat
  /-- uncorrectable errors counted since the last loop, which the next sensor mailbox holds too (R358, R380) -/
  counted : Nat
  /-- the emergency that the last row was for, by its breach cause (R345, R359): 3 thermal, 4 supply, 5 a supply droop since which a
  loop has passed, 0 none -/
  emergency : Nat
  deadSites : List Nat
  /-- sites that have failed since the last self-test (R345, R381) -/
  failedSites : List Nat
  badWays : List Nat
  /-- the least earliest time it last contributed to a waterline (R273) -/
  contributed : Nat
  takesPart : Bool
  deriving DecidableEq, Repr

/-- A cluster's gate (R348). -/
inductive Gate where
  | active
  | idle (since : Nat)
  | gating (since : Nat)
  | gated
  | waking (since : Nat)
  deriving DecidableEq, Repr

/-- A bin of continuation records (R28). -/
structure Bin where
  pc : Nat
  ctx : Nat
  since : Nat
  records : List (List Word)
  /-- the workgroup that spawned each record -/
  parents : List Nat
  deriving DecidableEq, Repr

/-- A translation held by a cluster TLB (R104, R395). -/
structure TlbEntry where
  cluster : Nat
  ctx : Nat
  page : Nat
  sizeLog : Nat
  frame : Nat
  tier : Nat
  deriving DecidableEq, Repr

/-- A cluster (R113, R28, R348, R356, R357, R367). -/
structure Cluster where
  id : Nat
  rationing : Nat
  pool : Nat
  nextPool : Nat
  gate : Gate
  spares : Nat
  withdrawn : Bool
  bins : List Bin
  /-- messages on its leaf controller's command link that no acknowledgement has answered yet, from the global scheduler and to
  it (R335) -/
  sent : Nat
  reported : Nat
  deriving DecidableEq, Repr

/-- A region of a kernel image, with the base its launch gives it (R301). -/
structure Region where
  kind : Nat
  readonly : Bool
  shared : Bool
  sluice : Nat
  scope : Nat
  capacity : Nat
  size : Nat
  bigPage : Bool
  late : Bool
  home : Nat
  base : Nat
  deriving DecidableEq, Repr

/-- A spawn entry (R303). -/
structure SpawnDecl where
  site : Nat
  target : Nat
  bound : Nat
  alloc : Nat
  energy : Nat
  deriving DecidableEq, Repr

/-- A kernel image's header and tables (R299-R305), and the release marks of R237. -/
structure Image where
  det : Bool
  fuse : Bool
  opclass : Nat
  energy : Nat
  roles : List (Nat × Nat)
  wgSize : Nat
  priv : Nat
  scratch : Nat
  tiles : Nat
  codeOff : Nat
  codeLen : Nat
  entry : Nat
  bounds : List (Nat × Nat)
  regions : List Region
  spawns : List SpawnDecl
  /-- class, count, depth -/
  leases : List (Nat × Nat × Nat)
  dataLen : Nat
  marks : List Nat
  deriving DecidableEq, Repr

/-- A launch's stage (R336-R342). -/
inductive Stage where
  | surveying | quoted | residency | running | ended
  deriving DecidableEq, Repr

/-- A continuation record kept for deterministic forming (R31): issuer index, target, arguments. -/
structure SpawnRecord where
  /-- the cluster whose leaf controller holds it -/
  cluster : Nat
  wg : Nat
  tid : Nat
  sequence : Nat
  target : Nat
  args : List Word
  deriving DecidableEq, Repr

/-- A continuation workgroup formed and not yet dispatched (R28, R31). -/
structure Formed where
  wg : Nat
  generation : Nat
  target : Nat
  cluster : Option Nat
  /-- its context area, from when one is free (R347) -/
  area : Option Nat
  records : List (List Word)
  /-- the workgroup that spawned each record -/
  parents : List Nat
  deriving DecidableEq, Repr

/-- What a hold or reservation keeps besides clusters and bookings (R340): bytes of spawn space (R30), bytes of the fallback
pool's frames (R121), queue entries (R304), and the power of the booked sites in 10 mW (R343). -/
structure Shares where
  spawn : Nat
  frames : Nat
  depth : Nat
  power : Nat
  deriving DecidableEq, Repr

/-- No share of anything. -/
def Shares.none : Shares := { spawn := 0, frames := 0, depth := 0, power := 0 }

/-- A quotation (R337). -/
structure Quote where
  status : Nat
  detail : Nat
  deadline : Nat
  earliest : Nat
  worstTime : Nat
  worstEnergy : Nat
  context : Nat
  rationing : Nat
  cores : Nat
  wake : Bool
  clusterMask : Nat
  /-- the first reserved core of the lowest cluster -/
  firstCore : Nat
  sites : List Nat
  assumptions : Nat
  overhead : Nat
  /-- workgroup slots of each reserved core (R311, R347), and D-flagged reductions of a workgroup's worst path (R177) -/
  perCore : Nat
  reductions : Nat
  shares : Shares
  deriving DecidableEq, Repr

/-- A launch from its SURVEY to its settlement (R336-R344, R376-R379). -/
structure Launch where
  quoteId : Nat
  ctx : Nat
  stage : Stage
  /-- survey flags: continue, debug, supervisor, operator priority (R336) -/
  cont : Bool
  debug : Bool
  supervisor : Bool
  priority : Bool
  imageAddr : Nat
  rangeAddr : Nat
  img : Image
  grid : Nat
  firstWg : Nat
  count : Nat
  rank : Nat
  nrank : Nat
  spansPod : Bool
  seed : Nat
  args : Nat
  recordAddr : Nat
  cadastre : Nat
  cadastreLen : Nat
  /-- the cadastre's identifier, which its ranks share (R339) -/
  cadastreTag : Nat
  firstDie : Nat
  quote : Quote
  trapArea : Nat
  trapCap : Nat
  traps : Nat
  trapsDropped : Nat
  svcQueue : Nat
  svcEntries : Nat
  svcProduced : Nat
  svcDropped : Nat
  pool : Nat
  completion : Nat
  pageTable : Nat
  /-- completion state to come: 3 complete, 4 kernel, 5 caller (R341) -/
  outcome : Nat
  startAt : Nat
  endAt : Nat
  retired : Nat
  breach : Bool
  breaches : Nat
  credit : Nat
  energyPj : Nat
  energySat : Bool
  manifestChanged : Bool
  manifest : Nat
  /-- pages still missing in the residency phase (R342) -/
  missing : List Nat
  /-- those of them that have an entry in their die's fault merge table, and with it a record sent (R119) -/
  asked : List Nat
  /-- grid workgroups not yet dispatched, as rising ranges: first index and count -/
  pending : List (Nat × Nat)
  formed : List Formed
  kept : List SpawnRecord
  nextCont : Nat
  generation : Nat
  stopped : Bool
  /-- commit token (R174): holder, workgroup passing it -/
  token : Nat
  passing : Bool
  roots : List Barrier
  booked : List Booking
  areas : List Nat
  /-- dies from which a PARTITION packet has evicted it for the time being (R354) -/
  suspended : List Nat
  deriving DecidableEq, Repr

/-- A pending stamped store at its home (R187). -/
structure Stamped where
  key : Nat
  value : Nat
  size : Nat
  stamp : Nat
  die : Nat
  core : Nat
  lane : Nat
  order : Nat
  firstDie : Nat
  spansPod : Bool
  deriving DecidableEq, Repr

/-- A stamped line at its home (R187): pending and waiting stores, committed versions (newest first). -/
structure StampLine where
  line : Nat
  /-- home die and slice (R111) -/
  die : Nat
  slice : Nat
  pending : List Stamped
  waiting : List Stamped
  versions : List (Nat × List Byte)
  deriving DecidableEq, Repr

/-- A waterline as a home slice (or, with slice 64, a die) holds it (R187). -/
structure Waterline where
  die : Nat
  slice : Nat
  firstDie : Nat
  value : Nat
  deriving DecidableEq, Repr

/-- A polder page that is no longer at its declared home (R123, R124); a backed one has given back the bytes its lines held of
the reservation. -/
inductive PolderPage where
  | moved (die : Nat)
  | backed (returned : Nat)
  | lost (byDevice : Bool)
  deriving DecidableEq, Repr

structure PolderEntry where
  ctx : Nat
  page : Nat
  state : PolderPage
  deriving DecidableEq, Repr

/-- A command ring (R328) and the scheduler's place in it. -/
structure Ring where
  block : Nat
  priority : Nat
  slice : Nat
  privileged : Bool
  /-- the packet version that it runs (R332, R368), 0 for none -/
  version : Nat
  ticket : Nat
  segment : Nat
  freed : Nat
  /-- a blocked step's limit, and whether the ring's head packet blocks now (R334) -/
  waitUntil : Option Nat
  blocked : Bool
  claimedAt : Option Nat
  deriving DecidableEq, Repr

/-- A record of the driver's fault queue (R342, R366). -/
inductive FaultRecord where
  | page (ctx address die kind doorbell : Nat)
  | integrity (address place : Nat) (expected found : Word) (ctx : Nat)
  | atomicOp (ctx address : Nat)
  /-- a workgroup of a debug launch that BRK has saved (R257) -/
  | debugBreak (ctx wg tid pc : Nat)
  deriving DecidableEq, Repr

/-- A collective contribution a rank's engine has received (R211). -/
structure Contribution where
  ctx : Nat
  tag : Nat
  rank : Nat
  op : Nat
  n : Nat
  data : List Word
  deriving DecidableEq, Repr

/-- What the management port has answered (R363, R364, R368, R380). -/
inductive PortReply where
  | version (v : Nat)
  | measurement (index : Nat) (digest signature : List Nat)
  | manifest (digest ed ml : List Nat)
  | telemetry (blocks : List (List Nat)) (signatures : List (List Nat))
  | pcieRead (data : List Byte)
  | completerAbort (address : Nat)
  deriving DecidableEq, Repr

/-- An issue group (R20): the members that execute the next instruction. -/
structure Group where
  core : Nat
  ctx : Nat
  wg : Nat
  pc : Nat
  tids : List Nat
  deriving DecidableEq, Repr

/-- A row of the table without a word, as the schedule holds it: the same rows as the last 93 constructors of Instr, in an
inductive of their own, because compiled code builds no value with operands past an inductive's 244th constructor. -/
inductive Event where
  | runParkComplete (ctx wg : Nat) (tids : List Nat)
  | localityWindowEnd (core : Nat)
  | workgroupDispatch (ctx wg core : Nat)
  | workgroupEnd (ctx wg : Nat)
  | continuationRecord (id : Nat)
  | binCloseTimeout (cluster bin : Nat)
  | detGenerationForm (ctx : Nat)
  | preemption (ctx wg cause : Nat)
  | resumption (ctx wg core : Nat)
  | waitWake (ctx wg : Nat) (tids : List Nat)
  | waitTimeout (ctx wg tid : Nat)
  | tileFillComplete (cluster tile : Nat)
  | tileReaderFinish (cluster tile : Nat)
  | entryStart (die site : Nat)
  | macroStep (die site : Nat)
  | entryComplete (die site : Nat)
  | collContribution (ctx tag rank op n : Nat) (data : List Word)
  | leaseGrant (die : Nat)
  | siteWakeComplete (die site : Nat)
  | lingerExpiry (die site : Nat)
  | loadPerform (id : Nat)
  | storePerform (id : Nat)
  | atomicPerform (id : Nat)
  | reductionPerform (id : Nat)
  | detReductionArrival (id : Nat)
  | detEndMarker (ctx wg : Nat)
  | tokenPass (ctx : Nat)
  | txHomeValidation (ctx wg tid : Nat)
  | regdlDetect (ctx wg : Nat)
  | stampArrival (id : Nat)
  | waterlineForm (first : Nat)
  | waterlineDelivery (die slice : Nat)
  | barrierArrival (id : Nat)
  | barrierRelease (ctx wg : Nat) (tids : List Nat)
  | pmoveComplete (id : Nat)
  | ringRegister (block priority slice : Nat) (privileged : Bool)
  | survey (ring : Nat)
  | accept (ring : Nat)
  | decline (ring : Nat)
  | writePkt (ring : Nat)
  | signalPkt (ring : Nat)
  | waitPkt (ring : Nat)
  | writeSignal (ring : Nat)
  | copyPkt (ring : Nat)
  | partition (ring : Nat)
  | link (ring : Nat)
  | packetRefused (ring : Nat)
  | slotUnwrittenTimeout (ring : Nat)
  | sliceExpiry
  | waitStepResume (ring : Nat)
  | surveyComplete (quote : Nat)
  | quoteDeadlineExpiry (quote : Nat)
  | pageFaultDoorbell (ctx page : Nat) (mapped : Bool)
  | launchStart (ctx : Nat)
  | launchComplete (ctx : Nat)
  | accountBacklogDrain
  | idleTimerExpiry (cluster : Nat)
  | gatingComplete (cluster : Nat)
  | clusterWakeComplete (cluster : Nat)
  | powerLoop (readings : List SensorReading)
  | targetApply (die : Nat)
  | thermalTrip (die : Nat)
  | supplyDroop (die : Nat)
  | mchk (touched : List (Nat × Nat))
  | checkValueMismatch (address place : Nat) (found : Word) (consumers : List (Nat × Nat))
  | quiesceRequest (id : Nat)
  | quiesceRelease (id : Nat)
  | clearRefused (id : Nat)
  | quiesceComplete (die : Nat)
  | quiesceRefuse (die : Nat)
  | pidWrite (id : Nat)
  | pilvWrite (id : Nat)
  | pbndWrite (id : Nat)
  | energyRead (ctx wg tid : Nat)
  | edieRead (id : Nat)
  | registerWrite (id : Nat)
  | clockReferenceLoss (die : Nat)
  | linkRetrain (module : Nat)
  | linkTraining (link peer : Nat)
  | resetModule
  | recoveryImage (image : FirmwareImage)
  | selfTest (dies : List Nat) (findings : List Finding)
  | getVersion (offered : List Nat)
  | spdmMeasurements (index : Nat)
  | determinismManifestRequest
  | telemetry
  | pcieInboundWrite (address : Nat) (data : List Byte)
  | pcieInboundRead (address length : Nat)
  | illegalWordIssue (operand : Word)
  | siteFailure (die site : Nat)
  | polderMigrationOrder (ctx base length target : Nat) (byDevice : Bool)
  | firmwareUpdate (image : FirmwareImage)
  | marginingRestartRequest (die : Nat)
  deriving DecidableEq, Repr

/-- A move of the schedule: which agent goes next where the manual leaves it open (log 1). -/
inductive Move where
  /-- a core issues its oldest eligible entry (R20) -/
  | issue (core : Nat)
  /-- a row of the table without a word takes place -/
  | act (e : Event)
  /-- true time passes -/
  | elapse (ns : Nat)
  /-- energy is counted by the accumulators of a launch and of a die (R247) -/
  | meter (ctx die picojoules : Nat)
  /-- the driver's application core writes memory (R329, R342) -/
  | host (address : Nat) (data : List Byte)
  /-- firmware writes a die's register (R351, R361) -/
  | firmware (die index : Nat) (value : Word)
  /-- the driver unmaps or reuses the context pool or the fallback pool of a live launch (R344) -/
  | revoke (ctx : Nat)
  /-- the L2 of a die writes its dirty lines back (R351) -/
  | writeBack (die : Nat)
  /-- the oldest message of a leaf controller's command link is acknowledged: one to the scheduler, or one from it (R335) -/
  | acknowledge (cluster : Nat) (up : Bool)
  deriving DecidableEq, Repr

/-- The whole machine. -/
structure State where
  /-- the schedule still to come, true time in ns, and the counter of free choices (the model's own) -/
  agenda : List Move
  now : Nat
  free : Nat
  nextId : Nat
  /-- the issue group being executed (R20) -/
  group : Option Group
  /-- bytes of every memory, by home location; and of the scratchpads, by core and offset -/
  mem : List Host.Cell
  scratch : List Host.Cell
  dies : List Die
  clusters : List Cluster
  cores : List Core
  tlb : List TlbEntry
  tiles : List Tile
  copies : List Copy
  wgs : List Workgroup
  flight : List Access
  sites : List Site
  leases : List Lease
  requests : List Request
  evicted : List Lease
  serials : List (Nat × Nat × Nat)
  launches : List Launch
  stampLines : List StampLine
  waterlines : List Waterline
  /-- the value last formed for each partition, or the pod (R187), and when -/
  formedLines : List (Nat × Nat × Nat)
  podContribution : List (Nat × Nat)
  retraining : List Nat
  polderLines : List (Nat × Nat)
  polderPages : List PolderEntry
  detUnits : List DetUpdate
  /-- lines of module memory whose L2 copies have not been written back (R351) -/
  dirty : List Nat
  /-- blocks whose stored check value differs from that of their bytes (R365) -/
  badCheck : List (Nat × Word)
  rings : List Ring
  inService : Option Nat
  sliceEnd : Nat
  /-- the ring last served of each priority, as priority and ring (R334) -/
  lastServed : List (Nat × Nat)
  surveys : List Nat
  nextQuote : Nat
  account : List (List Word)
  /-- breach records of this instant, on their way to the account queue (R377) -/
  staged : List (List Word)
  accountBase : Nat
  accountCap : Nat
  accountProduced : Nat
  faultQueue : List FaultRecord
  interrupts : List Nat
  contributions : List Contribution
  /-- firmware: image held, whether it runs, fused minimum (R361, R362); versions (R368) -/
  firmware : FirmwareImage
  booted : Bool
  /-- the firmware has started, and its self-test is to come (R361) -/
  booting : Bool
  recovery : Bool
  fusedMin : Nat
  nextImage : Option FirmwareImage
  links : List (Nat × Nat)
  spdm : Nat
  manifestGen : Nat
  stackSpares : List Nat
  /-- lane spares used: link, direction, how many (R367) -/
  linkSpares : List (Nat × Bool × Nat)
  port : List PortReply
  deriving DecidableEq, Repr

/-- Reasons the machine stops with a fault. -/
inductive Fault where
  /-- raised by a packet, record or doorbell step that names a physical address which lies in no range of R395. Safe:
  the manual gives no memory there, and the model stops. -/
  | absentPhysical (address : Nat)
  deriving DecidableEq, Repr

/-- Reasons the model gives no meaning. -/
inductive Refusal where
  /-- raised by an arm of the dispatcher whose instruction has no meaning yet. Safe: the model stops. -/
  | notModelled (mnemonic : String)
  deriving DecidableEq, Repr

/-- A die after reset: one whole partition (log 4), %tol 1 000 (R65), rail 800 mV (R360). -/
def Die.reset (k : Nat) : Die where
  id := k
  pid := 0x80
  pilv := 0xFFFF
  pbnd := 0x3FF
  pqc := 0
  quiesceAt := none
  tol := 1000
  energyPj := 0
  energySat := false
  clock := { lo := 4, hi := 4, lostAt := none, drift := 0 }
  ticket := 0
  rail := 800
  margin := .margining
  marginReads := 0
  marginErrors := 0
  temperature := 0
  heldTemperature := 0
  powerTenths := 0
  enginePower := 0
  corrected := 0
  uncorrected := 0
  tripped := false
  thermalRow := 0
  counted := 0
  emergency := 0
  targetRationing := 15
  targetPools := 10
  targetRail := 800
  targetShed := 0
  deadSites := []
  failedSites := []
  badWays := []
  contributed := 0
  takesPart := true

/-- A cluster after reset: powered, idle, pool 2, rationing 3 (log 5). -/
def Cluster.reset (c : Nat) : Cluster where
  id := c
  rationing := 3
  pool := 2
  nextPool := 2
  gate := .idle 0
  spares := 4
  withdrawn := false
  bins := []
  sent := 0
  reported := 0

/-- A core after reset: an empty PC table, load limit 32 (R22), an empty L1. -/
def Core.reset (c : Nat) : Core where
  id := c
  entries := []
  held := []
  ageCounter := 0
  slots := 0
  loadLimit := 32
  victims := []
  victimHits := 0
  l1 := []
  granules := []
  watched := []
  armings := 0
  fused := false

/-- The module right after reset (R361): the boot ROM has not yet started the firmware, no ring is registered and no
launch exists. -/
def State.reset : State where
  agenda := []
  now := 0
  free := 0
  nextId := 1
  group := none
  mem := []
  scratch := []
  dies := (rangeFrom 0 8).map Die.reset
  clusters := (rangeFrom 0 16).map Cluster.reset
  cores := []
  tlb := []
  tiles := []
  copies := []
  wgs := []
  flight := []
  sites := []
  leases := []
  requests := []
  evicted := []
  serials := []
  launches := []
  stampLines := []
  waterlines := []
  formedLines := []
  podContribution := []
  retraining := []
  polderLines := []
  polderPages := []
  detUnits := []
  dirty := []
  badCheck := []
  rings := []
  inService := none
  sliceEnd := 0
  lastServed := []
  surveys := []
  nextQuote := 1
  account := []
  staged := []
  accountBase := 0x0008000000000000
  accountCap := 64
  accountProduced := 0
  faultQueue := []
  interrupts := []
  contributions := []
  firmware := { serial := 0, securityVersion := 0, ed25519Ok := true, mlDsaOk := true, digestsOk := true, raiseMinimum := false }
  booted := false
  booting := false
  recovery := false
  fusedMin := 0
  nextImage := none
  links := []
  spdm := 12
  manifestGen := 0
  stackSpares := []
  linkSpares := []
  port := []

end Sys2Proof.Machine
end

