-- ==== Sys2Proof/Machine/Memory.lean ====
section
/-! DEFINITION. Memory: the canonical cell lists, physical locations (R350, R395, R111), translation by the page tables
(R395), the declared ranges (R120), and the writes that every path makes at a home or a bank. -/

namespace Sys2Proof.Machine

/-- What an address reads as in a canonical cell list: an unlisted byte reads as 0 (log 2). -/
def Cells.get : List Host.Cell → Nat → Byte
  | [], _ => 0
  | (k, b) :: r, a => if k = a then b else if a < k then 0 else Cells.get r a

/-- Writes a byte and keeps the form: addresses rise and no listed byte is 0. -/
def Cells.put : List Host.Cell → Nat → Byte → List Host.Cell
  | [], a, v => if v = 0 then [] else [(a, v)]
  | (k, b) :: r, a, v =>
    if k < a then (k, b) :: Cells.put r a v
    else if k = a then (if v = 0 then r else (a, v) :: r)
    else if v = 0 then (k, b) :: r
    else (a, v) :: (k, b) :: r

/-- `n` bytes from an address. -/
def Cells.getN (m : List Host.Cell) (a n : Nat) : List Byte := (rangeFrom a n).map (Cells.get m)

/-- Writes bytes from an address upward. -/
def Cells.putN (m : List Host.Cell) (a : Nat) : List Byte → List Host.Cell
  | [] => m
  | b :: bs => Cells.putN (Cells.put m a b) (a + 1) bs

/-- Every address is above `lo` and rises, and no byte is 0. -/
def Cells.sortedFrom (lo : Nat) : List Host.Cell → Bool
  | [] => true
  | (k, b) :: r => decide (lo ≤ k) && b != 0 && Cells.sortedFrom (k + 1) r

/-- Zeros from an address upward. -/
def Cells.zero (m : List Host.Cell) (a n : Nat) : List Host.Cell := m.filter (fun c => !(decide (a ≤ c.1) && decide (c.1 < a + n)))

/-- The canonical form of a cell list. -/
def Memory.wf (m : List Host.Cell) : Bool := Cells.sortedFrom 0 m

/-- Address classes (R99, Table 1). -/
inductive AddrClass where
  | global | priv | scratch | bad
  deriving DecidableEq, Repr

/-- The class of one address (R99). -/
def classOf (a : Nat) : AddrClass :=
  if a < Config.privateBase then .global
  else if a < Config.scratchBase then .priv
  else if a < Config.scratchBase + Config.scratchSpan then .scratch
  else .bad

/-- The class of an access: bytes of two classes give none (R99). -/
def classOfRange (a n : Nat) : AddrClass :=
  if classOf a = classOf (a + (n - 1)) then classOf a else .bad

/-- Launches that hold their context: accepted and not ended. -/
def Launch.live (l : Launch) : Bool :=
  match l.stage with
  | .surveying | .quoted | .ended => false
  | .residency | .running => true

/-- The live launch of a context. -/
def State.launch (s : State) (ctx : Nat) : Option Launch := s.launches.find? (fun l => l.live && l.ctx == ctx)

/-- A die's record. -/
def State.die (s : State) (k : Nat) : Die := (s.dies.find? (fun d => d.id == k)).getD (Die.reset k)

/-- A cluster's record. -/
def State.cluster (s : State) (c : Nat) : Cluster := (s.clusters.find? (fun x => x.id == c)).getD (Cluster.reset c)

/-- A core's record; a core nothing has touched is as after reset. -/
def State.coreOf (s : State) (c : Nat) : Core := (s.cores.find? (fun x => x.id == c)).getD (Core.reset c)

/-- The die a core stands on: two clusters to a die (R1, R13). -/
def coreDie (core : Nat) : Nat := core / 256
/-- The cluster a core stands in. -/
def coreCluster (core : Nat) : Nat := core / 128

/-- First die of a die's partition (R246). -/
def State.partFirst (s : State) (die : Nat) : Nat := (s.die die).pid.toNat % 8
/-- Number of dies of a die's partition (R246): 2, 4 or 8. -/
def State.partCount (s : State) (die : Nat) : Nat := nth 8 [2, 4, 8] ((s.die die).pid.toNat / 64 % 4)
/-- The dies of a die's partition, those that hold the same %pid (R246, R350), in ascending number. -/
def State.partDies (s : State) (die : Nat) : List Nat :=
  (s.dies.filter (fun d => d.pid == (s.die die).pid)).map (fun d => d.id)
/-- The stacks of the interleave (R350), ascending. -/
def State.stacks (s : State) (die : Nat) : List Nat :=
  (rangeFrom 0 16).filter (fun i => bitOf (s.die die).pilv.toNat i)

/-- Melaux boundaries as pairs of dies, in the bit order of %pbnd (R246). -/
def boundaries : List (Nat × Nat) := [(0, 1), (1, 2), (2, 3), (4, 5), (5, 6), (6, 7), (0, 4), (1, 5), (2, 6), (3, 7)]

/-- Whether a boundary carries traffic (R350): both dies hold its bit open and hold equal %pid. -/
def State.boundaryOpen (s : State) (b : Nat) : Bool :=
  let p := nth (0, 0) boundaries b
  bitOf (s.die p.1).pbnd.toNat b && bitOf (s.die p.2).pbnd.toNat b && (s.die p.1).pid == (s.die p.2).pid

/-- Dies one open boundary away. -/
def State.neighbours (s : State) (die : Nat) : List Nat :=
  (rangeFrom 0 10).filterMap (fun b =>
    let p := nth (0, 0) boundaries b
    if s.boundaryOpen b then (if p.1 = die then some p.2 else if p.2 = die then some p.1 else none) else none)

/-- Dies within `k` open boundaries of a die (R195), nearest first. -/
def State.reachable (s : State) : Nat → List Nat → List Nat
  | 0, found => found
  | k + 1, found =>
    let next := sortBy (fun x y => decide (x ≤ y)) (dedup (found.flatMap s.neighbours) |>.filter (fun d => !found.contains d))
    State.reachable s k (found ++ next)

/-- Whether traffic passes from a die to another (R350): over open boundaries alone. Where every boundary is open the two
only have to be of one partition, since the forms of R349 are connected. -/
def State.joined (s : State) (a b : Nat) : Bool :=
  a == b || ((s.die a).pid == (s.die b).pid &&
    (s.dies.all (fun d => d.pbnd == 0x3FF && d.pid == (s.die a).pid) || (s.reachable 8 [a]).contains b))

/-- Location of the module's LPDDR behind the stacks. -/
def lpddrKey : Nat := 2 ^ 40
/-- Locations of polder lines, which have no frame (R121): above every other location. -/
def polderKey (ctx va : Nat) : Nat := 2 ^ 80 + ctx * 2 ^ 56 + va

/-- The location that a physical address of a die's partition has where no open path leads to the die that homes it: one of the
partition's own, so that no byte of another partition is named (R350; what it reads as is a DESIGN CHOICE, log 103). -/
def State.cutKey (s : State) (die pa : Nat) : Nat := 2 ^ 56 + s.partFirst die * 2 ^ 52 + pa

/-- Bytes of LPDDR in a partition's share (log 4). -/
def State.lpddrShare (s : State) (die : Nat) : Nat := (s.partDies die).length * Config.lpddrPerDie

/-- Whether a physical address is one of the pod's range. -/
def inPod (pa : Nat) : Bool := decide (Config.podBase ≤ pa) && decide (pa < Config.systemBase)

/-- A physical address of the pod's range that names this module's own memory is the one of that memory (R395); every other address is
itself. -/
def ownPhys (pa : Nat) : Nat :=
  if inPod pa && (pa - Config.podBase) / Config.podModule == Config.moduleNumber then (pa - Config.podBase) % Config.podModule else pa

/-- The tier of a physical address, if it lies in a range of R395. -/
def State.tierOf (s : State) (die phys : Nat) : Option Nat :=
  let pa := ownPhys phys
  if pa < Config.stackBytes * (s.stacks die).length then some 0
  else if decide (Config.lpddrBase ≤ pa) && decide (pa < Config.lpddrBase + s.lpddrShare die) then some 1
  else if inPod pa then
    (let q := (pa - Config.podBase) % Config.podModule
     if q < Config.lpddrBase then some 0 else some 1)
  else if decide (Config.systemBase ≤ pa) && decide (pa < Config.physTop) then
    some (if decide (Config.cxlBase ≤ pa) && decide (pa < Config.pcieBase) then 1 else 2)
  else none

/-- The location a physical address names for an agent of a die: a byte of a stack of its partition (R350), of the partition's LPDDR,
or the address itself outside the module. A home that no open path reaches is no place of the access (R350). -/
def State.locOf (s : State) (die phys : Nat) : Nat :=
  let pa := ownPhys phys
  let st := s.stacks die
  if pa < Config.stackBytes * st.length then
    let g := pa / 4096
    let k := nth 0 st (g % st.length)
    if s.joined die (k / 2) then k * Config.stackBytes + g / st.length * 4096 + pa % 4096 else s.cutKey die pa
  else if decide (Config.lpddrBase ≤ pa) && decide (pa < Config.lpddrBase + s.lpddrShare die) then
    (if s.joined die (nth 0 st ((pa - Config.lpddrBase) / 4096 % st.length) / 2) then
      lpddrKey + s.partFirst die * Config.lpddrPerDie + (pa - Config.lpddrBase)
    else s.cutKey die pa)
  else pa

/-- The home die of a physical address (R395): none outside the module. -/
def State.homeDie (s : State) (die phys : Nat) : Option Nat :=
  let pa := ownPhys phys
  let st := s.stacks die
  if st.length = 0 then none
  else if pa < Config.stackBytes * st.length then some (nth 0 st (pa / 4096 % st.length) / 2)
  else if decide (Config.lpddrBase ≤ pa) && decide (pa < Config.lpddrBase + s.lpddrShare die) then
    some (nth 0 st ((pa - Config.lpddrBase) / 4096 % st.length) / 2)
  else none

/-- Whether a line is of module memory, by its location: of a stack or of the LPDDR behind them. -/
def moduleLine (line : Nat) : Bool := decide (line * 128 < lpddrKey + 8 * Config.lpddrPerDie)

/-- The home die of a line of module memory (R350, R395). -/
def State.lineDie (s : State) (line : Nat) : Nat :=
  let key := line * 128
  if key < lpddrKey then key / Config.stackBytes / 2
  else
    let d := (key - lpddrKey) / Config.lpddrPerDie
    (s.homeDie d (Config.lpddrBase + (key - lpddrKey - s.partFirst d * Config.lpddrPerDie))).getD d

/-- The lines that L2 has to write back, with one more (R351). -/
def State.markDirty (s : State) (line : Nat) : List Nat := if moduleLine line && !s.dirty.contains line then line :: s.dirty else s.dirty

/-- A block of some locations whose stored check value differs from that of its bytes (R365). -/
def State.badBlock (s : State) (key n : Nat) : Option (Nat × Word) :=
  s.badCheck.find? (fun c => decide (key / 128 ≤ c.1) && decide (c.1 ≤ (key + (n - 1)) / 128))

/-- The home slice within the die (R111). -/
def homeSlice (pa : Nat) : Nat := bits pa 12 7 ^^^ bits pa 18 13 ^^^ bits pa 24 19

/-- Kinds of regions outside the module. -/
def isPcie (pa : Nat) : Bool := decide (Config.pcieBase ≤ pa) && decide (pa < Config.physTop)
def isSystem (pa : Nat) : Bool := decide (Config.systemBase ≤ pa) && decide (pa < Config.physTop)
/-- A peer module's memory (R395): of the pod's range, but for this module's own. -/
def isPeer (pa : Nat) : Bool := inPod (ownPhys pa)
/-- Host-die memory: what is neither CXL memory nor a PCIe peer's aperture (R395). -/
def inHost (pa : Nat) : Bool := isSystem pa && !isPcie pa && !(decide (Config.cxlBase ≤ pa) && decide (pa < Config.pcieBase))

/-- Whether a range of bytes lies in host-die memory (R371). -/
def inHostRange (pa n : Nat) : Bool := inHost pa && inHost (pa + (n - 1))

/-- Reads bytes at physical addresses, each by its own location. -/
def State.readPhys (s : State) (die pa n : Nat) : List Byte :=
  (rangeFrom pa n).map (fun a => Cells.get s.mem (s.locOf die a))

/-- Reads a little-endian number at a physical address. -/
def State.readNat (s : State) (die pa n : Nat) : Nat := leNat (s.readPhys die pa n)

/-- Memory with bytes written at physical addresses. -/
def writePhysCells (s : State) (die : Nat) : Nat → List Byte → List Host.Cell → List Host.Cell
  | _, [], m => m
  | pa, b :: bs, m => writePhysCells s die (pa + 1) bs (Cells.put m (s.locOf die pa) b)

/-- The levels of the page table (R395): low bit of the index, its bits, log2 of the table's size, leaf rule
(0 never, 1 may, 2 must). -/
def pageLevels : List (Nat × Nat × Nat × Nat) :=
  [(47, 9, 12, 0), (38, 9, 12, 0), (29, 9, 12, 1), (21, 8, 11, 1), (16, 5, 8, 2)]

/-- A page found by a walk: frame, log2 of its size, tier. -/
structure PageHit where
  frame : Nat
  sizeLog : Nat
  tier : Nat
  deriving DecidableEq, Repr

/-- Whether an entry's tier is that of the memory its address names (R395: the address lies inside the ranges of its tier). -/
def State.tierOk (s : State) (die pa tier : Nat) : Bool := s.tierOf die pa == some tier

/-- The walk of R395 over the levels still to come, from a table's physical address; none where an entry is absent. -/
def State.walkFrom (s : State) (die : Nat) : List (Nat × Nat × Nat × Nat) → Nat → Nat → Option PageHit
  | [], _, _ => none
  | (lo, nb, sz, leafRule) :: rest, table, va =>
    if table % 2 ^ sz != 0 then none
    else
      let e := s.readNat die (table + va / 2 ^ lo % 2 ^ nb * 8) 8
      let addr := bits e 51 8 * 256
      let tier := bits e 4 3
      let leaf := bitOf e 1
      if !bitOf e 0 || bits e 63 52 != 0 || bits e 7 5 != 0 || bitOf e 2 || tier == 3 then none
      else if leaf then
        (if leafRule == 0 || addr % 2 ^ lo != 0 || !s.tierOk die addr tier then none
         else some { frame := addr, sizeLog := lo, tier := tier })
      else if leafRule == 2 || !s.tierOk die addr tier then none
      else s.walkFrom die rest addr va

/-- The page of a global address in a launch's table, walked from a die (R350, R395). -/
def State.walk (s : State) (die : Nat) (l : Launch) (va : Nat) : Option PageHit := s.walkFrom die pageLevels l.pageTable va

/-- The physical addresses of the entries that the walk reads (R395), from a table's on. -/
def State.entriesFrom (s : State) (die : Nat) : List (Nat × Nat × Nat × Nat) → Nat → Nat → List Nat
  | [], _, _ => []
  | (lo, nb, sz, _) :: rest, table, va =>
    if table % 2 ^ sz != 0 then []
    else
      let pa := table + va / 2 ^ lo % 2 ^ nb * 8
      let e := s.readNat die pa 8
      pa :: (if bitOf e 0 && !bitOf e 1 then s.entriesFrom die rest (bits e 51 8 * 256) va else [])

/-- A block known bad among the entries of the page table that a walk reads (R365): the entry's address, and the block. -/
def State.badEntry (s : State) (cluster : Nat) (l : Launch) (va : Nat) : Option (Nat × Nat × Word) :=
  (s.entriesFrom (cluster / 2) pageLevels l.pageTable va).findSome? (fun pa => (s.badBlock (s.locOf (cluster / 2) pa) 8).map (fun c => (pa, c)))

/-- The leaf pages that cover a range of global memory (R395), at most `k` of them: an address of each, and the page. -/
def State.leaves (s : State) (l : Launch) : Nat → Nat → Nat → List (Nat × PageHit)
  | 0, _, _ => []
  | k + 1, va, stop =>
    if stop ≤ va then []
    else match s.walk l.firstDie l va with
      | some h => (va, h) :: s.leaves l k ((va / 2 ^ h.sizeLog + 1) * 2 ^ h.sizeLog) stop
      | none => s.leaves l k ((va / 2 ^ 16 + 1) * 2 ^ 16) stop

/-- The 64 KiB pages that some bytes lie in. -/
def pagesOfRange (base size : Nat) : List Nat := if size = 0 then [] else rangeFrom (base / 2 ^ 16) (cdiv (base % 2 ^ 16 + size) (2 ^ 16))

/-- Pages of a launch's ranges that the driver maps (R342, R395). -/
def Image.pages (x : Image) : List Nat := dedup ((x.regions.filter (fun r => r.kind != 2)).flatMap (fun r => pagesOfRange r.base r.size))

/-- The leaf pages under a launch's declared ranges (R119, R120); polder ranges have none (R121). -/
def State.declaredPages (s : State) (l : Launch) : List (Nat × PageHit) :=
  (l.img.regions.filter (fun r => r.kind != 2)).flatMap (fun r => s.leaves l (r.size / 2 ^ 16 + 2) r.base (r.base + r.size))

/-- A region's kinds (R301): 1 global, 2 polder, 3 stamped, 4 sluice. -/
def Region.covers (r : Region) (a n : Nat) : Bool := decide (r.base ≤ a) && decide (a + n ≤ r.base + r.size)

/-- Whether two ranges meet. -/
def rangesMeet (a n b m : Nat) : Bool := decide (a < b + m) && decide (b < a + n)

/-- The declared range that holds an access (R120). -/
def Launch.regionOf (l : Launch) (a n : Nat) : Option Region := l.img.regions.find? (fun r => r.covers a n)

/-- The argument block of a launch is read as global memory like any other: only declared ranges are leased (R120). -/
def Launch.inLease (l : Launch) (a n : Nat) : Bool := (l.regionOf a n).isSome

/-- Whether an access touches the read-only data region (R305). -/
def Launch.readOnlyAt (l : Launch) (a n : Nat) : Bool :=
  l.img.regions.any (fun r => r.readonly && rangesMeet a n r.base r.size)

/-- Whether an access touches a stamped region (R185). -/
def Launch.stampedAt (l : Launch) (a n : Nat) : Bool :=
  l.img.regions.any (fun r => r.kind == 3 && rangesMeet a n r.base r.size)

/-- Whether an access touches a sluice object (R158). -/
def Launch.sluiceAt (l : Launch) (a n : Nat) : Bool :=
  l.img.regions.any (fun r => r.kind == 4 && rangesMeet a n r.base r.size)

/-- The polder region of an address (R121). -/
def Launch.polderAt (l : Launch) (a : Nat) : Option Region := l.img.regions.find? (fun r => r.kind == 2 && r.covers a 1)

/-- A region's index in the image's table (R301). -/
def Launch.regionIndex (l : Launch) (a : Nat) : Option Nat := l.img.regions.findIdx? (fun r => r.covers a 1)

/-- A polder region's page size (R121). -/
def Region.pageBytes (r : Region) : Nat := if r.bigPage then 2 ^ 21 else 2 ^ 16
/-- The number of a polder page of a region (R121): that of its first 64 KiB, so that pages of both sizes have numbers of their
own. -/
def Region.pageOf (r : Region) (va : Nat) : Nat := va / r.pageBytes * (r.pageBytes / 2 ^ 16)

/-- The polder regions that a range lies in, one after the other, with each one's share of it: address and length (R192); at most `k`. What
lies beyond the last of them is in none. -/
def Launch.partsFrom (l : Launch) : Nat → Nat → Nat → List (Region × Nat × Nat)
  | 0, _, _ => []
  | k + 1, a, n =>
    if n = 0 then []
    else match l.polderAt a with
      | none => []
      | some r =>
        let m := Nat.min n (r.base + r.size - a)
        (r, a, m) :: l.partsFrom k (a + m) (n - m)

/-- The polder regions that a range lies in (R192): each has one share at most. -/
def Launch.polderParts (l : Launch) (a n : Nat) : List (Region × Nat × Nat) := l.partsFrom l.img.regions.length a n

/-- A translated byte: its location, and its physical address where it has one. -/
structure Target where
  key : Nat
  phys : Option Nat
  deriving DecidableEq, Repr

/-- The location of a global address by the page table as it stands (R395), polder pages by their declaration (R121), for an agent of
a die (R350). -/
def State.locate (s : State) (die : Nat) (l : Launch) (va : Nat) : Option Target :=
  match l.polderAt va with
  | some _ => some { key := polderKey l.ctx va, phys := none }
  | none =>
    match s.walk die l va with
    | none => none
    | some h =>
      let pa := h.frame + va % 2 ^ h.sizeLog
      some { key := s.locOf die pa, phys := some pa }

/-- The TLB entry of a cluster that covers an address (R104). -/
def State.tlbEntry (s : State) (cluster ctx va : Nat) : Option TlbEntry :=
  s.tlb.find? (fun t => t.cluster == cluster && t.ctx == ctx && t.page == va / 2 ^ t.sizeLog)

/-- The location an access uses: where a TLB holds an entry that the driver has since changed, either may be used until
the TLBI (R395), by a free choice. -/
def State.locateVia (s : State) (cluster : Nat) (l : Launch) (va : Nat) : Option Target :=
  match l.polderAt va, s.tlbEntry cluster l.ctx va with
  | none, some t =>
    let old : Target :=
      { key := s.locOf (cluster / 2) (t.frame + va % 2 ^ t.sizeLog), phys := some (t.frame + va % 2 ^ t.sizeLog) }
    if s.locate (cluster / 2) l va == some old then some old
    else if Config.freeChoice s.free then some old else s.locate (cluster / 2) l va
  | _, _ => s.locate (cluster / 2) l va

/-- Inserts the page of an address into a cluster's TLB. -/
def State.tlbFill (s : State) (cluster : Nat) (l : Launch) (va : Nat) : List TlbEntry :=
  match l.polderAt va, s.tlbEntry cluster l.ctx va, s.walk (cluster / 2) l va with
  | none, none, some h =>
    { cluster := cluster, ctx := l.ctx, page := va / 2 ^ h.sizeLog, sizeLog := h.sizeLog, frame := h.frame,
      tier := h.tier } :: s.tlb
  | _, _, _ => s.tlb

/-- The TLBs of a launch's clusters as its residency leaves them (R33, R119): they hold every declared range. -/
def State.builtTlb (s : State) (l : Launch) (clusters : List Nat) : List TlbEntry :=
  let hits := s.declaredPages l
  dedup (clusters.flatMap (fun c => hits.map (fun (h : Nat × PageHit) =>
    ({ cluster := c, ctx := l.ctx, page := h.1 / 2 ^ h.2.sizeLog, sizeLog := h.2.sizeLog, frame := h.2.frame, tier := h.2.tier } : TlbEntry))))
    ++ s.tlb.filter (fun t => t.ctx != l.ctx)

/-- Marks watches on the lines of a write as written (R166). -/
def Watch.note (lo hi : Nat) (w : Watch) : Watch :=
  if decide (lo / 128 ≤ w.line) && decide (w.line ≤ hi / 128) && w.state == .armed then { w with state := .written } else w

/-- A thread whose watches note a write. -/
def Thread.noteWrite (lo hi : Nat) (t : Thread) : Thread :=
  match t.watches with
  | [] => t
  | ws => { t with watches := ws.map (Watch.note lo hi) }

/-- A workgroup whose threads' watches note a write. -/
def Workgroup.noteWrite (lo hi : Nat) (w : Workgroup) : Workgroup :=
  if w.threads.any (fun t => !t.watches.isEmpty) then { w with threads := w.threads.map (Thread.noteWrite lo hi) } else w

/-- Writes bytes at consecutive locations of one line at its home, wakes its watchers and makes the block's check value
anew (R166, R260, R365); the line is dirty in L2 until it has been written back (R351). -/
def State.writeHome (s : State) (key : Nat) (bs : List Byte) : State :=
  { s with
    mem := Cells.putN s.mem key bs,
    wgs := s.wgs.map (Workgroup.noteWrite key (key + (bs.length - 1))),
    dirty := s.markDirty (key / 128),
    badCheck := s.badCheck.filter (fun c => c.1 != key / 128) }

/-- Location number of a scratchpad byte for watches: banks lie apart from every home location. -/
def scratchKey (core off : Nat) : Nat := 2 ^ 62 + core * Config.scratchPerCore + off

/-- Whether a line's location is one of a scratchpad. -/
def bankLine (line : Nat) : Bool := decide (2 ^ 62 ≤ line * 128) && decide (line * 128 < 2 ^ 63)

/-- Writes bytes at a bank and wakes the line's watchers. -/
def State.writeBank (s : State) (core off : Nat) (bs : List Byte) : State :=
  { s with
    scratch := Cells.putN s.scratch (core * Config.scratchPerCore + off) bs,
    wgs := s.wgs.map (Workgroup.noteWrite (scratchKey core off) (scratchKey core off + (bs.length - 1))) }

/-- Reads bytes at a home. -/
def State.readHome (s : State) (key n : Nat) : List Byte := Cells.getN s.mem key n

/-- Reads bytes at a bank. -/
def State.readBank (s : State) (core off n : Nat) : List Byte :=
  Cells.getN s.scratch (core * Config.scratchPerCore + off) n

/-- The pieces of a physical range whose locations follow one another (R350): location and length, at most `k` of them. -/
def State.physRuns (s : State) (die : Nat) : Nat → Nat → Nat → List (Nat × Nat)
  | 0, _, _ => []
  | k + 1, pa, n =>
    if n = 0 then []
    else
      let m := Nat.min n (4096 - pa % 4096)
      (s.locOf die pa, m) :: State.physRuns s die k (pa + m) (n - m)

/-- Writes bytes at physical addresses and wakes watchers: a device, packet or record write, in its coherence place at
the home (R276). -/
def State.writePhys (s : State) (die pa : Nat) (bs : List Byte) : State :=
  let runs := s.physRuns die (bs.length / 4096 + 2) pa bs.length
  { s with
    mem := writePhysCells s die pa bs s.mem,
    wgs := runs.foldl (fun ws r => ws.map (Workgroup.noteWrite r.1 (r.1 + (r.2 - 1)))) s.wgs,
    dirty := runs.foldl (fun ks r => (rangeFrom (r.1 / 128) ((r.1 + (r.2 - 1)) / 128 + 1 - r.1 / 128)).foldl (fun ks k => { s with dirty := ks }.markDirty k) ks)
      s.dirty,
    badCheck := s.badCheck.filter (fun c => !runs.any (fun r => decide (r.1 / 128 ≤ c.1) && decide (c.1 ≤ (r.1 + (r.2 - 1)) / 128))) }

/-- Writes a little-endian number. -/
def State.writeNat (s : State) (die pa n v : Nat) : State := s.writePhys die pa (leBytes n v)

/-- Writes words in ascending order, the word at index 0 last (R336: the record's word 0 is written last). -/
def State.writeWords (s : State) (die pa : Nat) (ws : List Nat) : State :=
  s.writePhys die pa (ws.flatMap (leBytes 4))

/-- Granules of the scratchpad that an access covers (R110). -/
def granulesOf (off n : Nat) : List Nat := rangeFrom (off / 1024) ((off + (n - 1)) / 1024 + 1 - off / 1024)

/-- A granule's entry in its core's map (R109); granules never handed over are free with generation 0 (log 3). -/
def Core.granule (c : Core) (i : Nat) : Granule :=
  (c.granules.find? (fun g => g.index == i)).getD { index := i, ctx := 0, wg := 0, live := false, gen := 0 }

/-- The core and offset of a scratchpad aperture address seen from a cluster (R108). -/
def scratchTarget (cluster va : Nat) : Nat × Nat :=
  let o := va - Config.scratchBase
  (cluster * 128 + o / Config.scratchPerCore, o % Config.scratchPerCore)

/-- The core and granule of every KiB of the aperture that an access from a cluster covers (R108, R110). -/
def granulesAt (cluster va n : Nat) : List (Nat × Nat) :=
  (granulesOf (va - Config.scratchBase) n).map (fun i =>
    (cluster * 128 + i / (Config.scratchPerCore / 1024), i % (Config.scratchPerCore / 1024)))

/-- The map's entry for a granule of a core (R109). -/
def State.granuleAt (s : State) (x : Nat × Nat) : Granule := (s.coreOf x.1).granule x.2

/-- The issue check of R110: every granule is live and owned by the issuer's launch. A continuation does not reach the scratchpad of the
workgroup that spawned it (R240; DEDUCED, log 104). -/
def State.granulesOwned (s : State) (ctx : Nat) (parent : Option Nat) (cluster va n : Nat) : Bool :=
  (granulesAt cluster va n).all (fun x => (s.granuleAt x).live && (s.granuleAt x).ctx == ctx && parent != some (s.granuleAt x).wg)

/-- The generations captured at issue (R110). -/
def State.granuleGens (s : State) (cluster va n : Nat) : List Nat := (granulesAt cluster va n).map (fun x => (s.granuleAt x).gen)

/-- The arrival check of R110. -/
def State.granulesFresh (s : State) (ctx cluster va n : Nat) (gens : List Nat) : Bool :=
  s.granulesOwned ctx none cluster va n && s.granuleGens cluster va n == gens

/-- Backing address of a private byte (R101). -/
def privBacking (base size tid x : Nat) : Nat := base + (x / 4 * size + tid) * 4 + x % 4

/-- PcHash (R71). -/
def pcHash (pc : Nat) : Nat :=
  bits pc 6 2 ^^^ bits pc 11 7 ^^^ bits pc 16 12 ^^^ bits pc 21 17 ^^^ bits pc 26 22 ^^^ bits pc 31 27

end Sys2Proof.Machine
end

