-- ==== Sys2Proof/Machine/Threads.lean ====
section
/-! DEFINITION. Threads, workgroups and the PC table: registers (R15, R62), placement (R19), runs and parks (R58-R60),
the loan pools (R233-R235) and the trap record (R255). -/

namespace Sys2Proof.Machine

/-- The workgroup of a launch. -/
def State.wgOf (s : State) (ctx wg : Nat) : Option Workgroup := s.wgs.find? (fun w => w.ctx == ctx && w.wg == wg)

/-- A state with one workgroup changed. -/
def State.modWg (s : State) (ctx wg : Nat) (f : Workgroup → Workgroup) : State :=
  { s with wgs := s.wgs.map (fun w => if w.ctx == ctx && w.wg == wg then f w else w) }

/-- A thread of a workgroup. -/
def Workgroup.thread (w : Workgroup) (tid : Nat) : Option Thread := w.threads.find? (fun t => t.tid == tid)

/-- A workgroup with one thread changed. -/
def Workgroup.modThread (w : Workgroup) (tid : Nat) (f : Thread → Thread) : Workgroup :=
  { w with threads := w.threads.map (fun t => if t.tid == tid then f t else t) }

/-- A thread by its launch, workgroup and index. -/
def State.threadOf (s : State) (ctx wg tid : Nat) : Option Thread := (s.wgOf ctx wg).bind (fun w => w.thread tid)

/-- The workgroup that spawned a thread, if it is a continuation (R240). -/
def State.parentOf (s : State) (ctx wg tid : Nat) : Option Nat := (s.threadOf ctx wg tid).bind (fun t => t.parent)

/-- A state with one thread changed. -/
def State.modThread (s : State) (ctx wg tid : Nat) (f : Thread → Thread) : State :=
  s.modWg ctx wg (fun w => w.modThread tid f)

/-- A state with one launch changed. -/
def State.modLaunch (s : State) (ctx : Nat) (f : Launch → Launch) : State :=
  { s with launches := s.launches.map (fun l => if l.live && l.ctx == ctx then f l else l) }

/-- A state with one core changed; a core nothing has touched enters the list. -/
def State.modCore (s : State) (c : Nat) (f : Core → Core) : State :=
  if s.cores.any (fun x => x.id == c) then { s with cores := s.cores.map (fun x => if x.id == c then f x else x) }
  else { s with cores := insertBy (fun x y => decide (x.id ≤ y.id)) (f (Core.reset c)) s.cores }

/-- A state with one die changed. -/
def State.modDie (s : State) (k : Nat) (f : Die → Die) : State :=
  { s with dies := s.dies.map (fun d => if d.id == k then f d else d) }

/-- A state with one cluster changed. -/
def State.modCluster (s : State) (k : Nat) (f : Cluster → Cluster) : State :=
  { s with clusters := s.clusters.map (fun c => if c.id == k then f c else c) }

/-- Words of a thread's allocation (R15). -/
def Thread.alloc (t : Thread) : Nat := t.regs.length

/-- The lane a thread is pinned to (R14). -/
def Thread.lane (t : Thread) : Nat := t.tid % 32

/-- The physical word of a register field (R62). -/
def Thread.phys (t : Thread) (f : Nat) : Nat := if f < 8 then f else t.base + f

/-- ReadW (R71). -/
def Thread.readW (t : Thread) (f : Nat) : Word := nth 0 t.regs (t.phys f)

/-- A physical word written. -/
def Thread.putPhys (t : Thread) (p : Nat) (v : Word) : Thread := { t with regs := setNth t.regs p v }

/-- WriteW (R71). -/
def Thread.writeW (t : Thread) (f : Nat) (v : Word) : Thread := t.putPhys (t.phys f) v

/-- ReadPair (R71). -/
def Thread.readPair (t : Thread) (f : Nat) : Nat := (t.readW f).toNat + (t.readW (f + 1)).toNat * 2 ^ 32

/-- WritePair (R71). -/
def Thread.writePair (t : Thread) (f v : Nat) : Thread :=
  (t.writeW f (BitVec.ofNat 32 v)).writeW (f + 1) (BitVec.ofNat 32 (v / 2 ^ 32))

/-- ReadQuad (R71). -/
def Thread.readQuad (t : Thread) (f : Nat) : Nat := t.readPair f + t.readPair (f + 2) * 2 ^ 64

/-- The register number of an instruction's field: an abbreviation for its value. -/
abbrev rn (r : Reg) : Nat := r.toNat

/-- Physical words of `n` register fields from `f`, resolved at issue (R60). -/
def Thread.dests (t : Thread) (f n : Nat) : List Nat := (rangeFrom f n).map t.phys

/-- Words of a number. -/
def wordsOf (n v : Nat) : List (Option Word) := (rangeFrom 0 n).map (fun i => some (BitVec.ofNat 32 (v / 2 ^ (32 * i))))

/-- A thread with a new result of its run (R60); its value may come later. -/
def Thread.addResult (t : Thread) (dest : List Nat) (value : Option (List (Option Word))) : Thread :=
  { t with results := t.results ++ [{ slot := t.nextSlot, dest := dest, value := value }], nextSlot := t.nextSlot + 1 }

/-- A thread with a slot's value filled. -/
def Thread.fillSlot (t : Thread) (slot : Nat) (value : List (Option Word)) : Thread :=
  { t with results := t.results.map (fun r => if r.slot == slot then { r with value := some value } else r) }

/-- Writes one result's words; a word that is none leaves its destination as it is. -/
def putWords : List Nat → List (Option Word) → Thread → Thread
  | p :: ps, some v :: vs, t => putWords ps vs (t.putPhys p v)
  | _ :: ps, none :: vs, t => putWords ps vs t
  | _, _, t => t

/-- Commits the run's results in program order (R60). -/
def Thread.commit (t : Thread) : Thread :=
  let u := t.results.foldl (fun u r => match r.value with | some v => putWords r.dest v u | none => u) t
  { u with results := [], nextSlot := 0 }

/-- Whether every result of the run has returned (R58). -/
def Thread.returned (t : Thread) : Bool := t.results.all (fun r => r.value.isSome)

/-- Whether the thread still lives. -/
def Thread.live (t : Thread) : Bool := match t.status with
  | .exited => false
  | .ready | .parked | .asleep _ | .held _ => true

/-- The entries of a core's set (R18). -/
def Core.setEntries (c : Core) (set : Nat) : List PcEntry := c.entries.filter (fun e => pcHash e.pc == set)

/-- Places a thread that has become ready (R19). -/
def Core.place (c : Core) (ctx wg pc tid : Nat) : Core :=
  if c.entries.any (fun e => e.opened && e.ctx == ctx && e.wg == wg && e.pc == pc) then
    { c with entries := c.entries.map (fun e =>
        if e.opened && e.ctx == ctx && e.wg == wg && e.pc == pc then { e with tids := e.tids ++ [tid] } else e) }
  else if (c.setEntries (pcHash pc)).length < 4 then
    { c with
      entries := c.entries ++ [{ ctx := ctx, wg := wg, pc := pc, age := c.ageCounter, opened := true, born := c.slots, tids := [tid] }],
      ageCounter := c.ageCounter + 1 }
  else { c with held := c.held ++ [{ ctx := ctx, wg := wg, pc := pc, tid := tid }] }

/-- A way of a set that has freed is taken by the first held thread's workgroup and PC (R19, step 3). -/
def Core.fillWay (c : Core) (set : Nat) : Core :=
  if (c.setEntries set).length < 4 then
    match c.held.find? (fun h => pcHash h.pc == set) with
    | none => c
    | some h =>
      let same := fun (x : HeldThread) => x.ctx == h.ctx && x.wg == h.wg && x.pc == h.pc
      { c with
        entries := c.entries ++ [{ ctx := h.ctx, wg := h.wg, pc := h.pc, age := c.ageCounter, opened := true, born := c.slots,
                                   tids := (c.held.filter same).map (fun x => x.tid) }],
        held := c.held.filter (fun x => !same x),
        ageCounter := c.ageCounter + 1 }
  else c

/-- Frees the entries that hold no thread, and lets held threads take their ways. -/
def Core.freeEntries (c : Core) : Core :=
  let gone := (c.entries.filter (fun e => e.tids.isEmpty)).map (fun e => pcHash e.pc)
  gone.foldl Core.fillWay { c with entries := c.entries.filter (fun e => !e.tids.isEmpty) }

/-- Takes an issue group out of its entry, which closes (R19, R20). -/
def Core.take (c : Core) (age : Nat) (tids : List Nat) : Core :=
  Core.freeEntries { c with entries := c.entries.map (fun e =>
    if e.age == age then { e with opened := false, tids := e.tids.filter (fun t => !tids.contains t) } else e) }

/-- Removes threads of a workgroup from the PC table. -/
def Core.dropThreads (c : Core) (ctx wg : Nat) (keep : Nat → Bool) : Core :=
  Core.freeEntries { c with
    entries := c.entries.map (fun e =>
      if e.ctx == ctx && e.wg == wg then { e with tids := e.tids.filter keep } else e),
    held := c.held.filter (fun h => !(h.ctx == ctx && h.wg == wg) || keep h.tid) }

/-- Places a ready thread in its core's table, at its PC (R19). -/
def State.place (s : State) (ctx wg tid : Nat) : State :=
  match s.wgOf ctx wg with
  | none => s
  | some w =>
    match w.thread tid with
    | none => s
    | some t => s.modCore w.core (fun c => c.place ctx wg t.pc tid)

/-- A thread becomes ready anew: a new ready stamp, and a place (R19, R20). -/
def State.makeReady (s : State) (ctx wg tid : Nat) : State :=
  let s1 := s.modThread ctx wg tid (fun t => { t with status := .ready, stamp := s.nextId })
  { s1 with nextId := s.nextId + 1 }.place ctx wg tid

/-- A thread whose run goes on: it keeps its ready stamp (R20). -/
def State.keepReady (s : State) (ctx wg tid : Nat) : State :=
  (s.modThread ctx wg tid (fun t => { t with status := .ready })).place ctx wg tid

/-- Members in ascending lane and thread index (R19). -/
def laneOrder (tids : List Nat) : List Nat :=
  sortBy (fun x y => decide (x % 32 < y % 32) || (x % 32 == y % 32 && decide (x ≤ y))) tids

/-- Words of a workgroup's pool on a lane (R233). -/
def Workgroup.poolOf (w : Workgroup) (lane : Nat) : Nat :=
  ((w.pools.find? (fun p => p.1 == lane)).map (fun p => p.2)).getD 0

/-- A workgroup with a lane's pool set. -/
def Workgroup.setPool (w : Workgroup) (lane n : Nat) : Workgroup :=
  let rest := w.pools.filter (fun p => p.1 != lane)
  { w with pools := if n = 0 then rest else insertBy (fun x y => decide (x.1 ≤ y.1)) (lane, n) rest }

/-- The words a sleeping claim asks for (R235). -/
def Thread.claim (t : Thread) : Option Nat := match t.status with
  | .asleep (.rclaim n) => some n
  | .asleep _ | .ready | .parked | .held _ | .exited => none

/-- Serves a lane's head claims while the pool holds enough (R235), at most `k` of them. -/
def Workgroup.serveLane (lane : Nat) : Nat → Workgroup → Workgroup
  | 0, w => w
  | k + 1, w =>
    match w.claims.find? (fun t => t % 32 == lane) with
    | none => w
    | some tid =>
      match (w.thread tid).bind Thread.claim with
      | none => w
      | some n =>
        if n ≤ w.poolOf lane then
          Workgroup.serveLane lane k
            (({ w with claims := w.claims.filter (fun t => t != tid) }.setPool lane (w.poolOf lane - n)).modThread tid
              (fun t =>
                { t with regs := t.regs ++ List.replicate n 0 }.fillSlot t.waitSlot
                  [some (BitVec.ofNat 32 (t.alloc + n))]))
        else w

/-- Words leave a thread's allocation for its lane's pool (R234), and waiting claims are served (R235). -/
def Workgroup.give (w : Workgroup) (tid n : Nat) : Workgroup :=
  match w.thread tid with
  | none => w
  | some t =>
    let w1 := w.modThread tid (fun t => { t with regs := t.regs.take (t.alloc - n) })
    Workgroup.serveLane t.lane w.claims.length (w1.setPool t.lane (w1.poolOf t.lane + n))

/-- PrivBase of a workgroup (R101, R344): a physical address, at the start of its context area (log 20). -/
def State.privBase (s : State) (w : Workgroup) : Nat :=
  match s.launch w.ctx with
  | none => 0
  | some l => nth 0 l.areas w.area

/-- The cores whose L1s serve a core: its own, or every one of a fused cluster (R107). -/
def State.l1Group (s : State) (core : Nat) : List Nat :=
  if (s.coreOf core).fused then rangeFrom (core / 128 * 128) 128 else [core]

/-- The pieces of a workgroup's private block (R101): location and length. -/
def State.privRuns (s : State) (w : Workgroup) : List (Nat × Nat) :=
  match s.launch w.ctx with
  | none => []
  | some l => let n := l.img.priv * w.threads.length
              s.physRuns (coreDie w.core) (n / 4096 + 2) (s.privBase w) n

/-- Offset of a location in a block given by its pieces. -/
def blockOffset : List (Nat × Nat) → Nat → Nat → Option Nat
  | [], _, _ => none
  | r :: rs, off, x => if decide (r.1 ≤ x) && decide (x < r.1 + r.2) then some (off + (x - r.1)) else blockOffset rs (off + r.2) x

/-- Whether a line is a private one of a block (R101). -/
def L1Line.inBlock (runs : List (Nat × Nat)) (ctx : Nat) (x : L1Line) : Bool :=
  x.priv && x.ctx == ctx && runs.any (fun r => decide (r.1 / 128 ≤ x.key) && decide (x.key < cdiv (r.1 + r.2) 128))

/-- Clears the dirty bits of an exiting thread's granules (R102): those of its own workgroup's block alone. -/
def cleanGranules (runs : List (Nat × Nat)) (ctx size tid : Nat) (x : L1Line) : L1Line :=
  if x.inBlock runs ctx then
    { x with dirty := (rangeFrom 0 32).map (fun i =>
        nth false x.dirty i && !(blockOffset runs 0 (x.key * 128 + 4 * i)).any (fun o => o / 4 % size == tid)) }
  else x

/-- ns that a die's oscillator counts since the loss of its reference (R190): its own rate within 50 ppm of nominal. -/
def Clock.counted (c : Clock) (lost now : Nat) : Nat := (((now - lost : Nat) : Int) * (1000000 + c.drift) / 1000000).toNat

/-- The earliest time of a die's interval (R141, R190); never below the epoch. -/
def Clock.earliest (c : Clock) (now : Nat) : Nat :=
  match c.lostAt with
  | none => now - c.lo
  | some t => t - c.lo + c.counted t now * 999900 / 1000000

/-- The latest time of a die's interval (R141, R190). -/
def Clock.latest (c : Clock) (now : Nat) : Nat :=
  match c.lostAt with
  | none => now + c.hi
  | some t => t + c.hi + cdiv (c.counted t now * 1000100) 1000000

/-- What a die's clock counts (R67, R190): true time while it has its reference, and its own oscillator from the loss on. -/
def Clock.time (c : Clock) (now : Nat) : Nat :=
  match c.lostAt with
  | none => now
  | some t => t + c.counted t now

/-- The time of a die's clock, on which limits run (R67). -/
def State.dieTime (s : State) (die : Nat) : Nat := (s.die die).clock.time s.now

/-- A die's interval (R71: ClockInterval). -/
def State.interval (s : State) (die : Nat) : Nat × Nat :=
  ((s.die die).clock.earliest s.now, (s.die die).clock.latest s.now)

/-- The global scheduler's latest time, on the host die beside die 0 (R1, R338). -/
def State.schedulerTime (s : State) : Nat := (s.interval 0).2

/-- Records produced and not yet consumed in the account queue (R376): the fleet agent writes word 1 of its header. -/
def State.accountUsed (s : State) : Nat := (s.accountProduced + 2 ^ 32 - s.readNat 0 (s.accountBase + 4) 4) % 2 ^ 32

/-- Writes one record to the account queue (R376). -/
def State.accountPut (s : State) (ws : List Nat) : State :=
  let s1 := s.writeWords 0 (s.accountBase + 64 + s.accountProduced % s.accountCap * 32) ws
  { s1.writeNat 0 s.accountBase 4 ((s.accountProduced + 1) % 2 ^ 32) with accountProduced := (s.accountProduced + 1) % 2 ^ 32 }

/-- Posts a record: to the queue, or behind the backlog where the queue is full (R378). -/
def State.accountPost (s : State) (ws : List Nat) : State :=
  if s.account.isEmpty && decide (s.accountUsed < s.accountCap) then s.accountPut ws
  else { s with account := s.account ++ [ws.map (BitVec.ofNat 32)] }

/-- A breach record joins those of its instant (R377): behind the others of its launch and stamp that have no higher cause. -/
def stageRecord (r : List Word) : List (List Word) → List (List Word)
  | [] => [r]
  | x :: xs =>
    if nth 0 x 0 == nth 0 r 0 && nth 0 x 2 == nth 0 r 2 && nth 0 x 3 == nth 0 r 3 && decide ((nth 0 r 1).toNat % 2 ^ 8 < (nth 0 x 1).toNat % 2 ^ 8)
    then r :: x :: xs else x :: stageRecord r xs

/-- Some of the breach records that wait for others of their stamp reach the account queue (R377). -/
def State.postThose (s : State) (p : List Word → Bool) : State :=
  (s.staged.filter p).foldl (fun s ws => s.accountPost (ws.map BitVec.toNat)) { s with staged := s.staged.filter (fun r => !p r) }

/-- All of them do. -/
def State.postStaged (s : State) : State := s.postThose (fun _ => true)

/-- Those do to which time leaves no further record of the same stamp: their launch's clock shows a later one then, or the launch is
gone (R377). -/
def State.postPassed (s : State) (ns : Nat) : State :=
  s.postThose (fun r => match s.launches.find? (fun l => BitVec.ofNat 32 l.quoteId == nth 0 r 0) with
    | none => true
    | some l => decide ((nth 0 r 2).toNat + 2 ^ 32 * (nth 0 r 3).toNat < (s.die l.firstDie).clock.latest (s.now + ns)))

/-- Posts a settlement record (R377, R378): last, behind its launch's breach records. -/
def State.settle (s : State) (ws : List Nat) : State :=
  (s.postThose (fun r => nth 0 r 0 == BitVec.ofNat 32 (nth 0 ws 0))).accountPost ws

/-- Ceiling and saturation of a 32-bit field. -/
def sat32 (n : Nat) : Nat := if n < 2 ^ 32 then n else 2 ^ 32 - 1

/-- The words of a breach record (R345). -/
def breachWords (l : Launch) (now party cause site die credit : Nat) : List Nat :=
  let late := if l.startAt = 0 then 0 else now - l.startAt - l.quote.worstTime
  let energy := cdiv (l.energyPj - l.quote.worstEnergy * 1000) 1000000
  [l.quoteId, cause + party * 2 ^ 8, now % 2 ^ 32, now / 2 ^ 32 % 2 ^ 32, sat32 late, sat32 energy, die + site * 2 ^ 8, credit]

/-- The credit of a breach record (R345). -/
def breachCredit (l : Launch) (now : Nat) (lost : Bool) : Nat :=
  let late := if l.startAt = 0 then 0 else now - l.startAt - l.quote.worstTime
  if lost then 1000 else Nat.min 1000 (cdiv (1000 * late) (Nat.max 1 l.quote.worstTime))

/-- Records a breach against a launch (R345), to be posted with the others of its instant (R377): none for a debug launch (R257). -/
def State.breach (s : State) (ctx party cause site die : Nat) (lost : Bool) : State :=
  match s.launch ctx with
  | none => s
  | some l =>
    if l.debug then s
    else
      let now := (s.interval l.firstDie).2
      let credit := breachCredit l now lost
      { s with staged := stageRecord ((breachWords l now party cause site die credit).map (BitVec.ofNat 32)) s.staged }.modLaunch ctx (fun l =>
        { l with breach := true, breaches := l.breaches + 1, credit := if party = 3 then l.credit else l.credit + credit })

/-- The words of a trap record (R255). -/
def trapWords (lane code pc operand wg ctx tid core : Nat) : List Nat :=
  [code + lane * 2 ^ 16, pc, operand % 2 ^ 32, operand / 2 ^ 32 % 2 ^ 32, wg, tid + ctx * 2 ^ 16,
   core / 256 + core / 128 * 2 ^ 3 + core % 128 * 2 ^ 7, 0]

/-- Writes a record to the launch's trap area, or counts it where the area is full (R255, R341). -/
def State.writeTrapRecord (s : State) (ctx wg tid code operand pc : Nat) : State :=
  match s.launch ctx, s.wgOf ctx wg with
  | some l, some w =>
    if l.traps < l.trapCap then
      (s.writeWords l.firstDie (l.trapArea + 32 * l.traps)
          (trapWords (tid % 32) code pc operand wg ctx tid w.core)).modLaunch ctx (fun l => { l with traps := l.traps + 1 })
    else s.modLaunch ctx (fun l => { l with trapsDropped := l.trapsDropped + 1 })
  | _, _ => s

/-- Every thread of a workgroup stops for good; accesses already issued still perform (R23, R250). -/
def State.stopWg (s : State) (ctx wg : Nat) : State :=
  match s.wgOf ctx wg with
  | none => s
  | some w =>
    (s.modWg ctx wg (fun w => { w with
        threads := w.threads.map (fun t => { t with status := .exited, results := [], watches := [] }), claims := [] })).modCore
      w.core (fun c => c.dropThreads ctx wg (fun _ => false))

/-- Nothing of a launch starts any more: its workgroups not dispatched go, and the records in the leaf controllers' bins with
them. -/
def State.stopLaunch (s : State) (ctx : Nat) : State :=
  ({ s with clusters := s.clusters.map (fun (c : Cluster) => { c with bins := c.bins.filter (fun b => b.ctx != ctx) }) } : State).modLaunch ctx
    (fun l => { l with stopped := true, pending := [], formed := [], kept := [] })

/-- Stops every other workgroup of a launch, dispatched or not (R336, flag bit 0 clear). -/
def State.stopOthers (s : State) (ctx wg : Nat) : State :=
  let others := (s.wgs.filter (fun w => w.ctx == ctx && w.wg != wg)).map (fun w => w.wg)
  (others.foldl (fun s w => s.stopWg ctx w) s).stopLaunch ctx

/-- A launch ends as the caller's fault (R342, R344, R345), once: its workgroups stop, and the breach has the cause. -/
def State.callerEnds (s : State) (ctx cause : Nat) : State :=
  if (s.launches.any (fun l => l.live && l.ctx == ctx && l.outcome == 5)) then s else
  let all := (s.wgs.filter (fun w => w.ctx == ctx)).map (fun w => w.wg)
  ((all.foldl (fun s w => s.stopWg ctx w) s).stopLaunch ctx).modLaunch ctx (fun l => { l with outcome := 5 })
    |>.breach ctx 3 cause 0xFF 0xFF true

/-- A missing translation within the declared ranges ends a launch as the caller's fault UNMAPPED (R342, R345). -/
def State.callerFault (s : State) (ctx : Nat) : State := s.callerEnds ctx 32

/-- A workgroup ends as the kernel's fault, or by HALT: its record is written (R254, R255), and without the continue
flag the launch's others stop (R336). -/
def State.endByRecord (s : State) (ctx wg tid code operand pc : Nat) : State :=
  let s1 := (s.writeTrapRecord ctx wg tid code operand pc).stopWg ctx wg
  let fault := code != 0 && code != 14 && code != 9
  let s2 := s1.modLaunch ctx (fun l => if fault && l.outcome != 5 then { l with outcome := 4 } else l)
  match s.launch ctx with
  | none => s2
  | some l => if l.cont || code == 0 then s2 else s2.stopOthers ctx wg

/-- What a thread's park does once its results have been committed (R58, R146, R147, R234, R250). -/
def State.finishPark (s : State) (ctx wg tid : Nat) : State :=
  match s.wgOf ctx wg with
  | none => s
  | some w =>
    match w.thread tid with
    | none => s
    | some t0 =>
      let t := t0.commit
      let clean := fun (t : Thread) =>
        { t.commit with runLen := 0, parkAct := .none, clkw := t.clkwNext.getD t.clkw, clkwNext := none }
      match t.parkAct with
      | .none => (s.modThread ctx wg tid clean).makeReady ctx wg tid
      | .give n => (s.modWg ctx wg (fun w => (w.modThread tid clean).give tid n)).makeReady ctx wg tid
      | .window b => (s.modThread ctx wg tid (fun t => { clean t with base := b })).makeReady ctx wg tid
      | .exit =>
        (s.l1Group w.core).foldl (fun s c =>
            if (s.coreOf c).l1.isEmpty then s
            else s.modCore c (fun c => { c with l1 := c.l1.map (cleanGranules (s.privRuns w) ctx w.threads.length tid) }))
          (s.modThread ctx wg tid (fun t => { clean t with status := .exited, watches := [] }))
      | .halt op =>
        if t0.live then
          (s.modThread ctx wg tid clean).endByRecord ctx wg tid 0 op (t.pc - 4)
        else s

/-- BoundOf (R66, R71). -/
def Launch.bound (l : Launch) (pc : Nat) : Option Nat :=
  (l.img.bounds.find? (fun b => b.1 == pc)).map (fun b => b.2)

/-- The word of the code section at an offset, as an agent of a die fetches it now (R350); none at or beyond its end (R46). -/
def State.codeWord (s : State) (die : Nat) (l : Launch) (pc : Nat) : Option Nat :=
  if pc + 4 ≤ l.img.codeLen then some (s.readNat die (l.imageAddr + l.img.codeOff + pc) 4) else none

end Sys2Proof.Machine
end

