-- ==== Sys2Proof/Machine/Access.lean ====
section
/-! DEFINITION. Accesses in flight and how each performs at its site: L1 and its synonyms (R102-R107), path copies
(R117, R153), polder lines (R122, R123), banks (R110), homes, atomics and reductions (R168-R173), barrier arrivals
(R162) and registers of other dies (R244). -/

namespace Sys2Proof.Machine

/-- How an attempt to perform an access ends: done, not yet possible, or a polder capacity breach (R123). -/
inductive Performed where
  | done (s : State)
  | wait
  | breach (s : State)
  deriving DecidableEq, Repr

/-- The L1 that serves an address (R103, R107): the slice by address in a fused cluster. -/
def State.l1Core (s : State) (core va : Nat) : Nat :=
  if (s.coreOf core).fused then core / 128 * 128 + (bits va 13 7 ^^^ bits va 20 14 ^^^ bits va 27 21) else core

/-- Whether two cores' accesses go through one L1 (R103, R107). -/
def State.sameL1 (s : State) (core other : Nat) : Bool := core == other || ((s.coreOf core).fused && core / 128 == other / 128)

/-- The tag of a line: context and virtual line address (R103). -/
def lineTag (ctx vline : Nat) : Nat := ctx * 2 ^ 64 + vline

/-- The virtual line number of a private line (R103): the manual names none, and the model's is apart from every global
one, in the set of its backing line (DESIGN CHOICE, log 69). -/
def privTag (key : Nat) : Nat := 2 ^ 60 + key

/-- The line an L1 holds under a tag. -/
def Core.l1Find (c : Core) (ctx vline : Nat) : Option L1Line := c.l1.find? (fun x => x.ctx == ctx && x.vline == vline)

/-- A line becomes its set's most recently used (R104). -/
def Core.l1Touch (c : Core) (x : L1Line) : Core :=
  { c with l1 := c.l1.filter (fun y => !(y.ctx == x.ctx && y.vline == x.vline)) ++ [x] }

/-- Cells with a private line's dirty granules written back (R102). -/
def writeBackCells (x : L1Line) : List Nat → List Host.Cell → List Host.Cell
  | [], m => m
  | i :: is, m =>
    writeBackCells x is
      (if x.priv && nth false x.dirty i then Cells.putN m (x.key * 128 + 4 * i) ((x.bytes.drop (4 * i)).take 4) else m)

/-- Whether a line holds private granules to write back (R102). -/
def L1Line.dirtyPriv (x : L1Line) : Bool := x.priv && x.dirty.any (fun b => b)

/-- Writes a line's dirty granules back to their home (R102), where the block's check value is made anew (R365) and the line has
to leave the L2 before a quiesce (R351). -/
def State.writeBack (s : State) (x : L1Line) : State :=
  { s with
    mem := writeBackCells x (rangeFrom 0 32) s.mem,
    dirty := if x.dirtyPriv then s.markDirty x.key else s.dirty,
    badCheck := if x.dirtyPriv then s.badCheck.filter (fun c => c.1 != x.key) else s.badCheck }

/-- Puts a line into an L1, its set's least recently used line leaving if the set is full (R103, R104, R22). -/
def State.l1Insert (s : State) (core : Nat) (x : L1Line) : State :=
  let c := s.coreOf core
  let set := c.l1.filter (fun y => y.vline % 256 == x.vline % 256)
  if set.length < 4 then s.modCore core (fun c => c.l1Touch x)
  else
    match set.head? with
    | none => s.modCore core (fun c => c.l1Touch x)
    | some v =>
      (s.writeBack v).modCore core (fun c =>
        { { c with l1 := c.l1.filter (fun y => !(y.ctx == v.ctx && y.vline == v.vline)) }.l1Touch x with
          victims := (c.victims ++ [lineTag v.ctx v.vline]).drop (c.victims.length + 1 - 256) })

/-- Counts an access that hits a victim tag (R22): an L1 miss of a load or of an atomic at its core, a private access that misses, or a store
whose line no L1 holds; a tag that has been hit stays in the table until 256 later ones have followed it (DESIGN CHOICE, log 129). -/
def State.victimHit (s : State) (core ctx vline : Nat) : State :=
  if (s.coreOf core).victims.contains (lineTag ctx vline) then
    s.modCore core (fun c => { c with victimHits := c.victimHits + 1 })
  else s

/-- The location of an access (R260): of a global one its bytes' home now, of a private one its thread's own. -/
def State.accKey (s : State) (a : Access) : Nat :=
  match classOf a.addr, s.launch a.ctx with
  | .scratch, _ => scratchKey (scratchTarget (coreCluster a.core) a.addr).1 (scratchTarget (coreCluster a.core) a.addr).2
  | .priv, _ => 2 ^ 72 + a.tid * 2 ^ 56 + (a.addr - Config.privateBase)
  | .global, some l => ((s.locate (coreDie a.core) l a.addr).map (fun t => t.key)).getD a.addr
  | .global, none => a.addr
  | .bad, _ => a.addr

/-- Whether two accesses share a location. -/
def State.meets (s : State) (a b : Access) : Bool := rangesMeet (s.accKey a) a.size (s.accKey b) b.size

/-- Bytes at locations with a transaction's own writes over them (R179). -/
def overlay (writes : List (Nat × Byte)) (key : Nat) (bs : List Byte) : List Byte :=
  (bs.zip (rangeFrom key bs.length)).map (fun p => ((writes.find? (fun w => w.1 == p.2)).map (fun w => w.2)).getD p.1)

/-- Bytes of a line from an offset. -/
def lineBytes (bytes : List Byte) (off n : Nat) : List Byte := (bytes.drop off).take n

/-- Bytes of a line with some replaced. -/
def patchBytes (bytes : List Byte) (off : Nat) (v : List Byte) : List Byte :=
  bytes.take off ++ v ++ bytes.drop (off + v.length)

/-- Whether a write in flight stands where a core's accesses meet it before its home: in the L1 that serves the core, or in
its cluster's atomic unit (R170, R265). -/
def State.takenNear (s : State) (core : Nat) (b : Access) : Bool :=
  b.taken != 0 && (s.sameL1 core b.core || (b.scope != 0 && coreCluster b.core == coreCluster core))

/-- Whether such a write lies on a line, by its physical address (R105, R260): a fetch of the line waits for it. -/
def State.lineInFlight (s : State) (core key : Nat) : Bool :=
  s.flight.any (fun b => s.takenNear core b && s.accKey b / 128 == key)

/-- Whether such a write meets an access that is served at the home: it waits (R261, R262), so that no thread sees writes in
reverse coherence order. -/
def State.takenMeets (s : State) (a : Access) : Bool :=
  s.flight.any (fun b => b.id != a.id && s.takenNear a.core b && s.meets a b)

/-- The line that the L1s serving a core hold for a physical line, under whatever tag, and where (R105, R107). -/
def State.l1Held (s : State) (core key : Nat) : Option (Nat × L1Line) :=
  (s.l1Group core).findSome? (fun c => ((s.coreOf c).l1.find? (fun x => x.key == key && !x.priv)).map (fun x => (c, x)))

/-- Writes bytes into the line that the L1s serving a core hold for a location, if they do. -/
def State.l1Put (s : State) (core key : Nat) (bs : List Byte) : State :=
  match s.l1Held core (key / 128) with
  | none => s
  | some (c, x) => s.modCore c (fun c => { c with l1 := c.l1.map (fun y =>
      if y.key == x.key && !y.priv then { y with bytes := patchBytes y.bytes (key % 128) bs } else y) })

/-- A thread comes to follow writes that stand short of their homes (R263, R264): what it does next may not be seen before them. -/
def State.follow (s : State) (ctx wg tid : Nat) (writes : List Access) : State :=
  let ids := writes.map (fun b => b.id)
  if ids.isEmpty then s
  else s.modThread ctx wg tid (fun t => { t with seen := ids ++ t.seen.filter (fun k => !ids.contains k && s.flight.any (fun b => b.id == k)) })

/-- An access has read what writes still short of their homes left in the L1 or the cluster unit that served it (R261): its thread follows
them. -/
def State.sawNear (s : State) (a : Access) : State :=
  s.follow a.ctx a.wg a.tid (s.flight.filter (fun b => b.id != a.id && s.takenNear a.core b && s.meets a b))

/-- Whether a write that an access's thread followed when it issued has yet to reach its home (R264). -/
def State.behind (s : State) (a : Access) : Bool := a.after.any (fun k => s.flight.any (fun b => b.id == k))

/-- Bytes of locations under the writes that a core's L1 has taken and that have not reached the home, in their order. -/
def State.takenOver (s : State) (core key : Nat) (bs : List Byte) : List Byte :=
  let mine := s.flight.filter (fun b => b.taken != 0 && s.sameL1 core b.core && rangesMeet (s.accKey b) b.size key bs.length)
  (sortBy (fun x y => decide (x.taken ≤ y.taken)) mine).foldl
    (fun bs b => match b.op with
      | .store v | .through v _ => overlay ((rangeFrom (s.accKey b) b.size).zip (leBytes b.size v)) key bs
      | _ => bs) bs

/-- A core's L1 follows what its own access wrote or saw at the home (R106, R261): the line it holds stays, with the new
bytes under the writes it has taken. -/
def State.l1Follow (s : State) (core key : Nat) (bs : List Byte) : State := s.l1Put core key (s.takenOver core key bs)

/-- The clean global lines of a core's L1 that satisfy a test are read anew at their homes, and stay (R106, R263); one whose block is
known bad leaves, so that the access which next needs it is the one to find it so (R365, R366; log 105). -/
def State.l1Refresh (s : State) (core : Nat) (p : L1Line → Bool) : State :=
  (s.l1Group core).foldl (fun s c =>
    if (s.coreOf c).l1.any (fun x => !x.priv && p x) then
      s.modCore c (fun k => { k with l1 := (k.l1.filter (fun x => x.priv || !p x || !s.badCheck.any (fun b => b.1 == x.key))).map (fun x =>
        if !x.priv && p x then { x with bytes := s.takenOver core (x.key * 128) (s.readHome (x.key * 128) 128) } else x) })
    else s) s

/-- The line of a global address in an L1, fetched or re-tagged on a miss (R104, R105); none where no translation is
found or the fetch has to wait. -/
def State.l1Line (s : State) (core : Nat) (l : Launch) (va : Nat) : Option (State × L1Line) :=
  let lc := s.l1Core core va
  let c := s.coreOf lc
  match c.l1Find l.ctx (va / 128) with
  | some x => some (s.modCore lc (fun c => c.l1Touch x), x)
  | none =>
    match s.locateVia (coreCluster core) l va with
    | none => none
    | some tgt =>
      let s1 := { s with tlb := s.tlbFill (coreCluster core) l va, free := s.free + 1 }.victimHit lc l.ctx (va / 128)
      let key := tgt.key / 128
      match s.l1Held core key with
      | some (k, x) =>
        let y := { x with ctx := l.ctx, vline := va / 128 }
        let s2 := s1.modCore k (fun c => { c with l1 := c.l1.filter (fun z => !(z.ctx == x.ctx && z.vline == x.vline)) })
        some (s2.l1Insert lc y, y)
      | none =>
        if s.lineInFlight core key then none
        else
          let y : L1Line := { ctx := l.ctx, vline := va / 128, key := key, bytes := s.readHome (key * 128) 128,
                              dirty := List.replicate 32 false, priv := false }
          some (s1.l1Insert lc y, y)

/-- Polder state of a page (R123, R124). -/
def State.polderPage (s : State) (ctx page : Nat) : Option PolderPage :=
  (s.polderPages.find? (fun p => p.ctx == ctx && p.page == page)).map (fun p => p.state)

/-- Whether the polder page of an address is lost (R123). -/
def State.pageLost (s : State) (ctx va : Nat) : Bool :=
  match (s.launch ctx).bind (fun l => l.polderAt va) with
  | none => false
  | some r => match s.polderPage ctx (r.pageOf va) with
    | some (.lost _) => true
    | some (.moved _) | some (.backed _) | none => false

/-- A polder page takes a state. -/
def State.setPolderPage (s : State) (ctx page : Nat) (x : PolderPage) : State :=
  { s with polderPages := { ctx := ctx, page := page, state := x } :: s.polderPages.filter (fun p => !(p.ctx == ctx && p.page == page)) }

/-- Lines of a polder region allocated now (R122). -/
def State.polderHeld (s : State) (ctx : Nat) (r : Region) : Nat :=
  (s.polderLines.filter (fun p => p.1 == ctx && decide (r.base / 128 ≤ p.2) && decide (p.2 < (r.base + r.size) / 128))).length

/-- What a region still has of its capacity: a page that takes a frame returns the bytes its lines held (R121, R123). -/
def State.polderCap (s : State) (ctx : Nat) (r : Region) : Nat :=
  r.capacity - (s.polderPages.map (fun p =>
    match p.state with
    | .backed n => if p.ctx == ctx && decide (r.base ≤ p.page * 2 ^ 16) && decide (p.page * 2 ^ 16 < r.base + r.size) then n else 0
    | .moved _ | .lost _ => 0)).sum

/-- The home die of a polder page now (R111, R124): the die that it has moved to, or its region's declared home; a page that
has taken its late frame keeps it (DESIGN CHOICE, log 100). -/
def State.pageHome (s : State) (ctx : Nat) (r : Region) (page : Nat) : Nat :=
  match s.polderPage ctx page with
  | some (.moved d) => d
  | some (.backed _) | some (.lost _) | none => r.home

/-- The launch, region and address of a polder line, by its location (R121). -/
def State.polderOf (s : State) (line : Nat) : Option (Launch × Region × Nat) :=
  if line * 128 < 2 ^ 80 then none
  else
    let k := line * 128 - 2 ^ 80
    (s.launch (k / 2 ^ 56)).bind (fun l => (l.polderAt (k % 2 ^ 56)).map (fun r => (l, r, k % 2 ^ 56)))

/-- The home die of a block of module memory or of a polder line (R111, R350). -/
def State.blockDie (s : State) (line : Nat) : Nat := match s.polderOf line with
  | some x => s.pageHome x.1.ctx x.2.1 (x.2.1.pageOf x.2.2)
  | none => s.lineDie line

/-- An uncorrectable error on a die holds its rail at 800 mV until the next boot (R360): the target mailbox follows. -/
def Die.pin (d : Die) : Die := { d with rail := 800, targetRail := 800, margin := .pinned }

/-- One uncorrectable error on a die (R360): counted once (R380), though the next sensor mailbox holds it too (R358). -/
def Die.countError (d : Die) : Die := { d.pin with uncorrected := d.uncorrected + 1, counted := d.counted + 1 }

/-- The check value of the 128-byte block of a location (R365). -/
def State.blockCheckValue (s : State) (key : Nat) : Word := BitVec.ofNat 32 (crc32c (s.readHome (key / 128 * 128) 128))

/-- The integrity record of a block that no workgroup consumes (R366). -/
def State.reportBad (s : State) (address place : Nat) (bad : Nat × Word) : State :=
  { s with faultQueue := s.faultQueue ++ [.integrity (address / 128 * 128) place (s.blockCheckValue (bad.1 * 128)) bad.2 0] }

/-- Lines of polder pages whose check value differs from that of their bytes (R365). -/
def State.badLines (s : State) (ctx : Nat) (r : Region) (pages : List Nat) : List (Nat × Word) :=
  s.badCheck.filter (fun c => (s.polderOf c.1).any (fun x => x.1.ctx == ctx && r.covers x.2.2 1 && pages.contains (r.pageOf x.2.2)))

/-- Lines of polder pages that are found bad on a move (R366): a record and an error for each, of the home that it leaves. -/
def State.reportLines (s : State) (bad : List (Nat × Word)) : State :=
  { s with
    faultQueue := s.faultQueue ++ bad.map (fun c => .integrity (c.1 * 128) 1 (s.blockCheckValue (c.1 * 128)) c.2 0),
    dies := (bad.foldl (fun s c => s.modDie (s.blockDie c.1) Die.countError) s).dies }

/-- A page takes its late frame (R123): its allocated lines are written there, and its other lines read as zero, as a first
access would have found them (DEDUCED from R122, log 70). Lines known bad are reported on this move (R365). -/
def State.backPage (s : State) (ctx : Nat) (r : Region) (page : Nat) : State :=
  let lo := polderKey ctx (page * 2 ^ 16)
  let inPage := fun (p : Nat × Nat) => p.1 == ctx && r.pageOf (p.2 * 128) == page
  let held := (s.polderLines.filter inPage).map (fun p => p.2)
  { (s.reportLines (s.badLines ctx r [page])).setPolderPage ctx page (.backed (held.length * 128)) with
    polderLines := s.polderLines.filter (fun p => !inPage p),
    mem := s.mem.filter (fun c =>
      !(decide (lo ≤ c.1) && decide (c.1 < lo + r.pageBytes) && !held.contains ((c.1 - polderKey ctx 0) / 128))) }

/-- The first access to a polder line allocates it, filled with zeros (R122), or applies the breach (R123). Not a polder
address: no change. -/
def State.polderAlloc (s : State) (l : Launch) (va : Nat) : Performed :=
  match l.polderAt va with
  | none => .done s
  | some r =>
    match s.polderPage l.ctx (r.pageOf va) with
    | some (.lost _) => .breach s
    | some (.backed _) => .done s
    | some (.moved _) | none =>
      if s.polderLines.contains (l.ctx, va / 128) then .done s
      else if (s.polderHeld l.ctx r + 1) * 128 ≤ s.polderCap l.ctx r then
        .done { s with polderLines := s.polderLines ++ [(l.ctx, va / 128)], mem := Cells.zero s.mem (polderKey l.ctx (va / 128 * 128)) 128 }
      else if r.late then .done (s.backPage l.ctx r (r.pageOf va))
      else .breach s

/-- A polder line is touched at its home (R122, R123); an access to a moving page waits (R124). -/
def State.polderTouch (s : State) (l : Launch) (va : Nat) : Performed :=
  if s.flight.any (fun a => a.ctx == l.ctx && (match a.op with | .move n _ _ => decide (a.addr ≤ va) && decide (va < a.addr + n) | _ => false)) then .wait
  else s.polderAlloc l va

/-- Byte groups of a number for an access. -/
def Access.bytes (a : Access) (v : Nat) : List Byte := leBytes a.size v

/-- Removes an access that has performed. -/
def State.drop (s : State) (a : Access) : State := { s with flight := s.flight.filter (fun x => x.id != a.id) }

/-- Fills the slot that an access answers into. -/
def State.answer (s : State) (a : Access) (value : List (Option Word)) : State :=
  match a.slot with
  | none => s
  | some k => s.modThread a.ctx a.wg a.tid (fun t => t.fillSlot k value)

/-- The words a load writes (R149). -/
def loadWords (signed : Bool) (words size v : Nat) : List (Option Word) :=
  if signed then [some (BitVec.ofInt 32 (sextNat v (8 * size)))] else wordsOf words v

/-- A dropped scratchpad access (R110): zeros for a reader, and one stale count for its instruction and member. -/
def State.stale (s : State) (a : Access) (zeros : Nat) : State :=
  let s1 := (s.drop a).answer a (wordsOf zeros 0)
  if s1.flight.any (fun x => x.gid == a.gid && x.ctx == a.ctx && x.wg == a.wg && x.tid == a.tid) then s1
  else s1.modThread a.ctx a.wg a.tid (fun t => { t with staleNext := t.staleNext + 1 })

/-- The copy that a path holds of a sector (R117). -/
def State.copyOf (s : State) (path : Path) (owner sector : Nat) : Option Copy :=
  s.copies.find? (fun c => c.path == path && c.owner == owner && c.sector == sector)

/-- The sectors that enter a path's cache with one that it misses: in the constant cache those of its line (R153). -/
def Path.enters (path : Path) (sector : Nat) : List Nat := if path == .con then rangeFrom (sector / 4 * 4) 4 else [sector]

/-- A sector of a path copy (R117), `source` giving the bytes of a sector as they stand at its home: what enters on a miss stays, and the
copy held may be used until it is replaced, by a free choice where it differs. -/
def State.readSector (s : State) (path : Path) (owner sector : Nat) (source : Nat → List Byte) : List Byte × State :=
  let fresh := source (sector * 32)
  match s.copyOf path owner sector with
  | none =>
    let new := ((path.enters sector).filter (fun k => (s.copyOf path owner k).isNone)).map (fun k =>
      ({ path := path, owner := owner, sector := k, bytes := source (k * 32) } : Copy))
    (fresh, { s with copies := new ++ s.copies })
  | some c =>
    if c.bytes = fresh then (fresh, s)
    else if Config.freeChoice s.free then (c.bytes, { s with free := s.free + 1 })
    else
      (fresh, { s with
        free := s.free + 1,
        copies := s.copies.map (fun x =>
          if x.path == path && x.owner == owner && x.sector == sector then { x with bytes := fresh } else x) })

/-- Bytes of a location range read through a path's copies, sector by sector (R117, R277). -/
def State.readCopies (s : State) (path : Path) (owner : Nat) (fresh : State → Nat → List Byte) :
    Nat → Nat → Nat → List Byte × State
  | 0, _, _ => ([], s)
  | k + 1, key, n =>
    let off := key % 32
    let m := if n < 32 - off then n else 32 - off
    let r := s.readSector path owner (key / 32) (fresh s)
    let rest := State.readCopies r.2 path owner fresh k (key + m) (n - m)
    if n = 0 then ([], s) else (lineBytes r.1 off m ++ rest.1, rest.2)

/-- A global range read through a path's copies, byte locations by translation; none without one. -/
def State.readPath (s : State) (path : Path) (owner : Nat) (l : Launch) (va n : Nat) : Option (List Byte × State) :=
  match s.locateVia (owner / 128 % 16) l va with
  | none => none
  | some tgt => some (s.readCopies path owner (fun s k => s.readHome k 32) (n / 32 + 2) tgt.key n)

/-- New value of an atomic or reduction (R167, R169, R173), from the old value, the operand and the expected value. -/
def amoValue (op : AmoOp) (m v e : Nat) : Nat :=
  match op with
  | .add => (m + v) % 2 ^ 32
  | .and => m &&& v
  | .or => m ||| v
  | .xor => m ^^^ v
  | .min => if sextNat v 32 < sextNat m 32 then v else m
  | .max => if sextNat m 32 < sextNat v 32 then v else m
  | .xchg => v
  | .fadd => f32.add m v
  | .minu => if v < m then v else m
  | .maxu => if m < v then v else m
  | .add64 => (m + v) % 2 ^ 64
  | .casW => if m = e then v else m
  | .casD => if m = e then v else m
  | .gts => if m < v then v else m
  | .vcas => if bits m 63 48 = bits e 63 48 then v else m
  | .tcas => if m = e then bits v 47 0 + (bits m 63 48 + 1) % 2 ^ 16 * 2 ^ 48 else m
  | .hadd2 => bf16.add (m % 2 ^ 16) (v % 2 ^ 16) + bf16.add (m / 2 ^ 16) (v / 2 ^ 16) * 2 ^ 16
  | .fmin => f32.minNum m v
  | .fmax => f32.maxNum m v

/-- Whether the step writes (R168): when the value changes, and always for an exchange. -/
def amoWrites (op : AmoOp) (m n : Nat) : Bool := n != m || op == .xchg

/-- Whether an access writes the ordinary path's memory. -/
def AccOp.writes : AccOp → Bool
  | .store _ | .through _ _ | .atomic _ _ _ | .red _ _ | .detRed _ _ _ => true
  | .load _ _ | .mon | .stamped _ _ | .asOf _ | .release | .tileLoad _ _ _ | .tileStore _ _ _ _ | .discard _
  | .move _ _ _ | .regRead _ | .regWrite _ _ | .energy _ _ | .arrive _ _ _ _ _ | .record _ _ _ => false

/-- Whether an access is a write that takes effect in lane order with its instruction's others (R151, R171, R173). -/
def AccOp.laned : AccOp → Bool
  | .store _ | .through _ _ | .atomic _ _ _ | .red _ _ | .tileStore _ _ _ _ => true
  | .load _ _ | .mon | .stamped _ _ | .asOf _ | .release | .tileLoad _ _ _ | .detRed _ _ _ | .discard _
  | .move _ _ _ | .regRead _ | .regWrite _ _ | .energy _ _ | .arrive _ _ _ _ _ | .record _ _ _ => false

/-- Whether an access names memory, and so shares locations with others. -/
def AccOp.memory : AccOp → Bool
  | .load _ _ | .mon | .store _ | .through _ _ | .atomic _ _ _ | .red _ _ | .detRed _ _ _ | .stamped _ _ | .asOf _
  | .discard _ => true
  | .release | .tileLoad _ _ _ | .tileStore _ _ _ _ | .move _ _ _ | .regRead _ | .regWrite _ _ | .energy _ _ | .arrive _ _ _ _ _
  | .record _ _ _ => false

/-- Whether an access allocates the polder line that it finds free (R122): one that reads or writes it. -/
def AccOp.touches : AccOp → Bool
  | .load _ _ | .mon | .store _ | .through _ _ | .atomic _ _ _ | .red _ _ | .detRed _ _ _ => true
  | .stamped _ _ | .asOf _ | .discard _ | .release | .tileLoad _ _ _ | .tileStore _ _ _ _ | .move _ _ _ | .regRead _
  | .regWrite _ _ | .energy _ _ | .arrive _ _ _ _ _ | .record _ _ _ => false

/-- Whether an access of a workgroup comes before another in program order (R262), or, for two writes, as a lower lane of
one instruction (R151, R171, R173). -/
def Access.before (b a : Access) : Bool :=
  b.ctx == a.ctx && b.wg == a.wg && decide (b.id < a.id) && (b.tid == a.tid || (b.gid == a.gid && a.op.laned && b.op.laned))

/-- Whether an access is seen beyond its core as it performs, and is no write that its core's L1 may take first: what its thread followed
has to be at its home before it (R264). -/
def Access.publishes (a : Access) : Bool :=
  match a.op with
  | .store _ => classOf a.addr == .scratch
  | .atomic _ _ _ | .red _ _ => classOf a.addr == .scratch || a.scope != 0
  | .detRed _ _ _ | .stamped _ _ | .release | .tileStore _ _ _ _ | .regWrite _ _ | .record _ _ _ => true
  | .through _ _ | .discard _ | .load _ _ | .mon | .asOf _ | .tileLoad _ _ _ | .move _ _ _ | .regRead _ | .energy _ _
  | .arrive _ _ _ _ _ => false

/-- Program order of R262, item 1, lane order (R151), the order of requests to one die (R244), of arrivals and of records
(R239), and of what its thread has read (R264): an earlier access that this one may not pass. -/
def State.blocked (s : State) (a : Access) : Bool :=
  a.publishes && s.behind a || s.flight.any (fun b => b.before a &&
      match a.op, b.op with
      | .regRead i, .regRead j | .regRead i, .regWrite j _ | .regWrite i _, .regRead j | .regWrite i _, .regWrite j _ =>
        i / 16 == j / 16
      | .record _ _ _, .record _ _ _ => true
      | .energy _ _, .energy _ _ => true
      | .tileLoad t r _, .tileStore t' r' _ _ | .tileStore t r _ _, .tileLoad t' r' _
      | .tileStore t r _ _, .tileStore t' r' _ _ => t == t' && r == r'
      | _, _ => a.op.memory && b.op.memory && a.path == b.path && s.meets a b && b.taken == 0)

/-- Whether a store's effect at its home has to wait: for an earlier access to the location (R151, R262), and for writes of
its L1 or cluster unit taken before it (R260), or that its thread followed when it issued (R264). -/
def State.homeBlocked (s : State) (a : Access) : Bool :=
  s.behind a || s.flight.any (fun b =>
    b.id != a.id && a.op.memory && b.op.memory && a.path == b.path && s.meets a b &&
      (b.before a
        || (a.taken != 0 && b.taken != 0 && decide (b.taken < a.taken) &&
              (s.sameL1 a.core b.core || (a.scope != 0 && b.scope != 0 && coreCluster b.core == coreCluster a.core)))))

/-- Private bytes through the private line of an L1 (R101, R102): one granule. In a fused cluster the line lies in the slice
of its backing location (log 69). -/
def State.privLine (s : State) (core : Nat) (l : Launch) (backing : Nat) : State × L1Line :=
  let key := s.locOf (coreDie core) backing / 128
  let lc := s.l1Core core (key * 128)
  match (s.coreOf lc).l1.find? (fun x => x.priv && x.key == key) with
  | some x => (s.modCore lc (fun c => c.l1Touch x), x)
  | none =>
    let y : L1Line := { ctx := l.ctx, vline := privTag key, key := key, bytes := s.readHome (key * 128) 128,
                        dirty := List.replicate 32 false, priv := true }
    ((s.victimHit lc l.ctx (privTag key)).l1Insert lc y, y)

/-- Reads private bytes one at a time (R101). -/
def State.privRead (s : State) (core : Nat) (l : Launch) (base size tid : Nat) : Nat → Nat → List Byte × State
  | 0, _ => ([], s)
  | n + 1, x =>
    let b := privBacking base size tid x
    let r := s.privLine core l b
    let rest := State.privRead r.1 core l base size tid n (x + 1)
    (nth 0 r.2.bytes (s.locOf (coreDie core) b % 128) :: rest.1, rest.2)

/-- Writes private bytes one at a time, held write-back (R152). -/
def State.privWrite (s : State) (core : Nat) (l : Launch) (base size tid : Nat) : Nat → List Byte → State
  | _, [] => s
  | x, v :: vs =>
    let b := privBacking base size tid x
    let r := s.privLine core l b
    let off := s.locOf (coreDie core) b % 128
    let y := { r.2 with bytes := patchBytes r.2.bytes off [v], dirty := setNth r.2.dirty (off / 4) true }
    State.privWrite (r.1.modCore (s.l1Core core (y.key * 128)) (fun c => c.l1Touch y)) core l base size tid (x + 1) vs

/-- A load that has sampled its bytes answers and leaves the flight. -/
def State.loaded (s : State) (a : Access) (signed : Bool) (words : Nat) (bs : List Byte) : State :=
  (s.drop a).answer a (loadWords signed words a.size (leNat bs))

/-- The bytes of a load that came from its home and not from the write set. -/
def readBack (writes : List (Nat × Byte)) (key : Nat) (bs : List Byte) : List (Nat × Byte) :=
  ((rangeFrom key bs.length).zip bs).filter (fun p => !writes.any (fun w => w.1 == p.1))

/-- LOAD_PERFORM for the ordinary and constant paths (R150): samples at L1, the home, the bank or the private backing. -/
def State.performLoad (s : State) (a : Access) (signed : Bool) (words : Nat) : Performed :=
  match s.launch a.ctx with
  | none => .done (s.drop a)
  | some l =>
    match classOf a.addr with
    | .bad => .done (s.drop a)
    | .scratch =>
      let t := scratchTarget (coreCluster a.core) a.addr
      if s.granulesFresh a.ctx (coreCluster a.core) a.addr a.size a.gens then .done (s.loaded a signed words (s.readBank t.1 t.2 a.size))
      else .done (s.stale a words)
    | .priv =>
      match s.wgOf a.ctx a.wg with
      | none => .done (s.drop a)
      | some w =>
        let r := s.privRead a.core l (s.privBase w) w.threads.length a.tid a.size (a.addr - Config.privateBase)
        .done (r.2.loaded a signed words r.1)
    | .global =>
      match s.polderTouch l a.addr with
      | .wait => .wait
      | .breach s1 => .breach s1
      | .done s1 =>
        match a.tx, a.path with
        | some ws, _ =>
          if s1.takenMeets a then .wait
          else match s1.locateVia (coreCluster a.core) l a.addr with
          | none => .done (s1.callerFault a.ctx)
          | some tgt =>
            let bs := s1.readHome tgt.key a.size
            let s2 := ((s1.l1Follow a.core tgt.key bs).modThread a.ctx a.wg a.tid (fun t =>
              { t with tx := { t.tx with reads := t.tx.reads ++ readBack ws tgt.key bs } }))
            .done ({ s2 with free := s2.free + 1 }.loaded a signed words (overlay ws tgt.key bs))
        | none, .con =>
          match s1.readPath .con a.core l a.addr a.size with
          | none => .done (s1.callerFault a.ctx)
          | some r => .done (r.2.loaded a signed words r.1)
        | none, _ =>
          match s1.l1Line a.core l a.addr with
          | some r => .done ((r.1.sawNear a).loaded a signed words (lineBytes r.2.bytes (a.addr % 128) a.size))
          | none =>
            if (s1.locateVia (coreCluster a.core) l a.addr).isNone then .done (s1.callerFault a.ctx) else .wait

/-- MON's load, at the home slice or bank (R165). -/
def State.performMon (s : State) (a : Access) : Performed :=
  match s.launch a.ctx with
  | none => .done (s.drop a)
  | some l =>
    match classOf a.addr with
    | .scratch =>
      let t := scratchTarget (coreCluster a.core) a.addr
      if s.granulesFresh a.ctx (coreCluster a.core) a.addr a.size a.gens then .done (s.loaded a false 1 (s.readBank t.1 t.2 a.size))
      else .done (s.stale a 1)
    | .priv | .bad => .done (s.drop a)
    | .global =>
      match s.polderTouch l a.addr with
      | .wait => .wait
      | .breach s1 => .breach s1
      | .done s1 =>
        if s1.takenMeets a then .wait
        else
          match s1.locateVia (coreCluster a.core) l a.addr with
          | none => .done (s1.callerFault a.ctx)
          | some tgt =>
            let bs := s1.readHome tgt.key a.size
            .done (({ s1 with free := s1.free + 1 }.l1Follow a.core tgt.key bs).loaded a false 1 bs)

/-- Marks an access as taken at its L1 or cluster unit. -/
def State.take (s : State) (a : Access) : State :=
  { s with
    flight := s.flight.map (fun x => if x.id == a.id then { x with taken := s.nextId } else x),
    nextId := s.nextId + 1 }

/-- STORE_PERFORM (R152): first written into the core's L1 line where it is held, and then at its home; a private store
is held in L1, a scratchpad store goes to its bank. -/
def State.performStore (s : State) (a : Access) (v : Nat) : Performed :=
  match s.launch a.ctx with
  | none => .done (s.drop a)
  | some l =>
    match classOf a.addr with
    | .bad => .done (s.drop a)
    | .scratch =>
      let t := scratchTarget (coreCluster a.core) a.addr
      if s.granulesFresh a.ctx (coreCluster a.core) a.addr a.size a.gens then .done ((s.writeBank t.1 t.2 (a.bytes v)).drop a)
      else .done (s.stale a 0)
    | .priv =>
      match s.wgOf a.ctx a.wg with
      | none => .done (s.drop a)
      | some w =>
        .done ((s.privWrite a.core l (s.privBase w) w.threads.length a.tid (a.addr - Config.privateBase) (a.bytes v)).drop a)
    | .global =>
      match s.polderTouch l a.addr with
      | .wait => .wait
      | .breach s1 => .breach s1
      | .done s1 =>
        match s1.locateVia (coreCluster a.core) l a.addr with
        | none => .done (s1.callerFault a.ctx)
        | some tgt =>
          let lc := s1.l1Core a.core a.addr
          let held := ((s1.coreOf lc).l1Find a.ctx (a.addr / 128)).isSome || (s1.l1Held a.core (tgt.key / 128)).isSome
          if a.taken == 0 && held then
            match s1.l1Line a.core l a.addr with
            | none => .wait
            | some r => .done ((r.1.l1Put a.core (r.2.key * 128 + a.addr % 128) (a.bytes v)).take a)
          else if s1.homeBlocked a then .wait
          else
            let s2 := if a.taken == 0 then s1.victimHit lc a.ctx (a.addr / 128) else s1
            .done (({ s2 with free := s2.free + 1 }.writeHome tgt.key (a.bytes v)).drop a)

/-- The write-through of a narrow atomic reaches the home (R170). -/
def State.performThrough (s : State) (a : Access) (v : Nat) : Performed :=
  match s.launch a.ctx with
  | none => .done (s.drop a)
  | some l =>
    if s.homeBlocked a then .wait
    else
      match s.polderTouch l a.addr with
      | .wait => .wait
      | .breach s1 => .breach s1
      | .done s1 =>
        match s1.locateVia (coreCluster a.core) l a.addr with
        | none => .done (s1.callerFault a.ctx)
        | some tgt => .done (({ s1 with free := s1.free + 1 }.writeHome tgt.key (a.bytes v)).drop a)

/-- The bytes the cluster atomic unit sees (R170): the home's, under the unit's own write-throughs still on their way. -/
def State.clusterBytes (s : State) (a : Access) (key : Nat) : List Byte :=
  let mine := s.flight.filter (fun b => b.taken != 0 && b.scope != 0 && coreCluster b.core == coreCluster a.core && s.meets a b)
  (sortBy (fun x y => decide (x.taken ≤ y.taken)) mine).foldl
    (fun bs b => match b.op with
      | .through v _ => overlay ((rangeFrom (s.accKey b) b.size).zip (leBytes b.size v)) key bs
      | _ => bs) (s.readHome key a.size)

/-- What has executed at an L1 or a cluster unit goes on to its home as a write-through (R170). -/
def State.goThrough (s : State) (a : Access) (n : Nat) (release : Bool) : State :=
  let y : Access := { a with op := .through n release, slot := none, taken := s.nextId }
  { s with flight := s.flight.map (fun x => if x.id == a.id then y else x), nextId := s.nextId + 1 }

/-- Executes an atomic or reduction at its site (R168, R170, R173): answers with the old value, if asked. -/
def State.performAtomic (s : State) (a : Access) (op : AmoOp) (v e : Nat) : Performed :=
  let words := a.size / 4
  match s.launch a.ctx with
  | none => .done (s.drop a)
  | some l =>
    match classOf a.addr with
    | .priv | .bad => .done (s.drop a)
    | .scratch =>
      let t := scratchTarget (coreCluster a.core) a.addr
      if s.granulesFresh a.ctx (coreCluster a.core) a.addr a.size a.gens then
        (let m := leNat (s.readBank t.1 t.2 a.size)
         let n := amoValue op m v e
         let s1 := if amoWrites op m n then s.writeBank t.1 t.2 (a.bytes n) else s
         .done ((s1.drop a).answer a (wordsOf words m)))
      else .done (s.stale a words)
    | .global =>
      match s.polderTouch l a.addr with
      | .wait => .wait
      | .breach s1 => .breach s1
      | .done s1 =>
        match s1.locateVia (coreCluster a.core) l a.addr with
        | none => .done (s1.callerFault a.ctx)
        | some tgt =>
          let s1 : State := { s1 with free := s1.free + 1 }
          if a.scope == 0 then
            match s1.l1Line a.core l a.addr with
            | none => .wait
            | some r =>
              let m := leNat (lineBytes r.2.bytes (a.addr % 128) a.size)
              let n := amoValue op m v e
              if amoWrites op m n then
                .done ((((r.1.sawNear a).l1Put a.core (r.2.key * 128 + a.addr % 128) (a.bytes n)).answer a (wordsOf words m)).goThrough a n false)
              else .done (((r.1.sawNear a).drop a).answer a (wordsOf words m))
          else if decide (a.scope ≤ 2) then
            (if s1.flight.any (fun b => b.id != a.id && b.taken != 0 && b.scope == 0 && s1.sameL1 a.core b.core && s1.meets a b) then .wait
             else
              let m := leNat (s1.clusterBytes a tgt.key)
              let n := amoValue op m v e
              let s2 := ((s1.sawNear a).l1Put a.core tgt.key (a.bytes n)).answer a (wordsOf words m)
              .done (if amoWrites op m n then s2.goThrough a n false else s2.drop a))
          else if s1.homeBlocked a || s1.takenMeets a then .wait
          else if (tgt.phys.any isPcie) && Config.pcieError s1.free then
            .done (({ s1.drop a with faultQueue := s1.faultQueue ++ [FaultRecord.atomicOp a.ctx a.addr] }).answer a
              (some Config.timeout :: List.replicate (words - 1) none))
          else
            let m := leNat (s1.readHome tgt.key a.size)
            let n := amoValue op m v e
            let s2 := if amoWrites op m n then s1.writeHome tgt.key (a.bytes n) else s1
            .done (((s2.l1Follow a.core tgt.key (a.bytes n)).drop a).answer a (wordsOf words m))

end Sys2Proof.Machine
end

