-- ==== Sys2Proof/Machine/Perform.lean ====
section
/-! DEFINITION. How the other accesses in flight perform: deterministic reductions (R176, R177), stamped stores and
LDAS (R187, R189), sluice counts (R159), tile accesses (R230), polder discards and moves (R191, R192), barrier
arrivals (R162), continuation records (R28) and registers of dies (R244-R246); and what a fence waits for (R155-R157). -/

namespace Sys2Proof.Machine

/-- The waterline's list of a launch (R187): its partition's first die, or 99 for the pod's. -/
def Launch.lineId (l : Launch) : Nat := if l.spansPod then 99 else l.firstDie

/-- The waterline a home slice holds (R187); slice 64 is the die's own, for CWAIT. -/
def State.waterline (s : State) (die slice first : Nat) : Nat :=
  ((s.waterlines.find? (fun w => w.die == die && w.slice == slice && w.firstDie == first)).map (fun w => w.value)).getD 0

/-- The home die and slice of a translated address (R111, R395). A polder line has no physical address: its slice comes from
the bits of its virtual address (DESIGN CHOICE, log 71). -/
def State.homeOf (s : State) (die : Nat) (l : Launch) (t : Target) : Nat × Nat :=
  match t.phys with
  | some pa => ((s.homeDie die pa).getD 0, homeSlice pa)
  | none =>
    let va := t.key - polderKey l.ctx 0
    ((l.polderAt va).elim l.firstDie (fun r => s.pageHome l.ctx r (r.pageOf va)), homeSlice va)

/-- The order in which stamped stores of a line commit (R187). -/
def stampLe (x y : Stamped) : Bool :=
  decide (x.stamp < y.stamp) || (x.stamp == y.stamp && (decide (x.die < y.die) || (x.die == y.die &&
    (decide (x.core < y.core) || (x.core == y.core && (decide (x.lane < y.lane) || (x.lane == y.lane && decide (x.order ≤ y.order))))))))

/-- Applies stamped stores of one line in order: equal stamps form one version (R187). -/
def commitStamps (s : State) (versions : List (Nat × List Byte)) : List Stamped → State × List (Nat × List Byte)
  | [] => (s, versions)
  | x :: xs =>
    let s1 := s.writeHome x.key (leBytes x.size x.value)
    let line := s1.readHome (x.key / 128 * 128) 128
    let older := match versions with
      | (st, _) :: rest => if st = x.stamp ∧ rest.length > 0 then rest else versions
      | [] => []
    commitStamps s1 (((x.stamp, line) :: older).take 4) xs

/-- STAMPED_COMMIT (R187) at one line: every pending and waiting store whose stamp the held waterline exceeds commits;
waiting stores then take the places that are free. -/
def State.commitLine (s : State) (k : StampLine) : State :=
  let due := fun (x : Stamped) => decide (x.stamp < s.waterline k.die k.slice x.firstDie)
  let go := sortBy stampLe ((k.pending ++ k.waiting).filter due)
  if go.isEmpty then s
  else
    let r := commitStamps s k.versions go
    let pend := k.pending.filter (fun x => !due x)
    let wait := k.waiting.filter (fun x => !due x)
    let room := 4 - pend.length
    { r.1 with stampLines := r.1.stampLines.map (fun y =>
        if y.line == k.line then { y with pending := pend ++ wait.take room, waiting := wait.drop room, versions := r.2 } else y) }

/-- STAMPED_COMMIT at every line of a home slice. -/
def State.commitSlice (s : State) (die slice : Nat) : State :=
  (s.stampLines.filter (fun k => k.die == die && k.slice == slice)).foldl State.commitLine s

/-- STAMP_ARRIVAL (R187): held pending, or on the wait list when four are pending. -/
def State.performStamped (s : State) (a : Access) (v stamp : Nat) : Performed :=
  match s.launch a.ctx with
  | none => .done (s.drop a)
  | some l =>
    match s.locateVia (coreCluster a.core) l a.addr with
    | none => .done (s.callerFault a.ctx)
    | some t =>
      let h := s.homeOf (coreDie a.core) l t
      let x : Stamped := { key := t.key, value := v, size := a.size, stamp := stamp, die := coreDie a.core, core := a.core,
                           lane := a.tid % 32, order := a.id, firstDie := l.lineId, spansPod := l.spansPod }
      let s1 : State := { s.drop a with free := s.free + 1 }
      let line := t.key / 128
      let s2 : State :=
        if s1.stampLines.any (fun k => k.line == line) then
          { s1 with stampLines := s1.stampLines.map (fun k =>
              if k.line == line then
                (if k.pending.length < 4 && k.waiting.isEmpty then { k with pending := k.pending ++ [x] }
                 else { k with waiting := k.waiting ++ [x] })
              else k) }
        else
          { s1 with stampLines := s1.stampLines ++
              [{ line := line, die := h.1, slice := h.2, pending := [x], waiting := [],
                 versions := [(0, s1.readHome (line * 128) 128)] }] }
      .done (s2.commitSlice h.1 h.2)

/-- LDAS at its home (R189); its core's line follows what stands there (R261). How long a home keeps a line's versions is not stated: they stay past the launch's end and past a
write by the driver or a PCIe peer (DESIGN CHOICE, log 90). -/
def State.performAsOf (s : State) (a : Access) (stamp : Nat) : Performed :=
  match s.launch a.ctx with
  | none => .done (s.drop a)
  | some l =>
    match s.locateVia (coreCluster a.core) l a.addr with
    | none => .done (s.callerFault a.ctx)
    | some t =>
      let h := s.homeOf (coreDie a.core) l t
      let s1 : State := { s.drop a with free := s.free + 1 }.l1Follow a.core (t.key / 128 * 128) (s.readHome (t.key / 128 * 128) 128)
      if s.waterline h.1 h.2 l.lineId ≤ stamp then .done (s1.answer a [none, some 2])
      else
        let versions := ((s.stampLines.find? (fun k => k.line == t.key / 128)).map (fun k => k.versions)).getD
          [(0, s.readHome (t.key / 128 * 128) 128)]
        match versions.find? (fun v => decide (v.1 ≤ stamp)) with
        | none => .done (s1.answer a [none, some 1])
        | some v => .done (s1.answer a [some (BitVec.ofNat 32 (leNat (lineBytes v.2 (t.key % 128) 4))), some 0])

/-- The bits of Table 2 of R50 that an access belongs to (R155, R156). -/
def AccOp.sets : AccOp → List Nat
  | .load _ _ | .mon | .asOf _ | .tileLoad _ _ _ => [0]
  | .store _ | .discard _ | .tileStore _ _ _ _ => [1]
  | .release => [1, 2]
  | .through _ r => if r then [1, 2] else [2]
  | .atomic _ _ _ | .red _ _ | .detRed _ _ _ => [2]
  | .stamped _ _ => [5]
  | .record _ _ _ => [6]
  | .move _ _ _ | .regRead _ | .regWrite _ _ | .energy _ _ | .arrive _ _ _ _ _ => []

/-- Whether an access's address names memory outside the module (R265): a peer module's, host-die, CXL or PCIe memory. -/
def State.outside (s : State) (a : Access) : Bool :=
  classOf a.addr == .global && (s.launch a.ctx).any (fun l =>
    ((s.locate (coreDie a.core) l a.addr).bind (fun t => t.phys)).any (fun pa => (s.homeDie (coreDie a.core) pa).isNone))

/-- Whether the L1s that serve an access's core hold its line. -/
def State.l1Holds (s : State) (a : Access) : Bool := (s.l1Held a.core (s.accKey a / 128)).isSome

/-- Whether an access in flight has yet to perform at a scope (Table 4 of R156, Table 4 of R265). A store or the write-through
of a .core atomic has performed at .core once it is in the core's L1 line; one of a cluster atomic where the L1 holds the line
too; everything else, and every write to memory outside the module, once it has reached its home or memory, which for a PCIe
peer is what the flush read shows (log 72). -/
def State.pendingAt (s : State) (a : Access) (scope : Nat) : Bool :=
  match a.op with
  | .store _ => !(a.taken != 0 && scope == 0 && !s.outside a)
  | .through _ _ => !(scope == 0 && !s.outside a && (a.scope == 0 || s.l1Holds a))
  | _ => true

/-- Whether a write that the threads of a core may have seen before its home stands there still, in the L1 or the cluster's
atomic unit: what orders such a write at .quad or wider has it performed (R263, R264; DEDUCED, log 99). -/
def State.seenOnly (s : State) (core scope : Nat) : Bool := decide (1 ≤ scope) && s.flight.any (s.takenNear core)

/-- What a FENCE's hold still waits for (R155): the thread's own operations, and the writes of others that they may follow. -/
def State.fencePending (s : State) (core ctx wg tid pred scope : Nat) : Bool :=
  s.flight.any (fun a => a.ctx == ctx && a.wg == wg && a.tid == tid && a.op.sets.any (fun b => bitOf pred b) && s.pendingAt a scope)
    || (pred != 0 && s.seenOnly core scope)

/-- What a PFENCE's hold still waits for (R157, R278): the thread's writes on a from path, stamped stores included; for the
ordinary path also those of other threads that the core's L1 has taken, which a barrier may have ordered before it. -/
def State.pfencePending (s : State) (core ctx wg tid fromSet : Nat) : Bool :=
  s.flight.any (fun a => bitOf fromSet a.path.bit &&
    ((a.ctx == ctx && a.wg == wg && a.tid == tid && a.op.sets.any (fun b => b == 1 || b == 2 || b == 5))
      || (a.taken != 0 && a.path == .ord && s.sameL1 core a.core)))

/-- Whether earlier writes of a thread that a barrier's phase waits for have performed at its scope (R162), and with them those
of others that they may follow. -/
def State.arrivalReady (s : State) (a : Access) (scope : Nat) : Bool :=
  !s.flight.any (fun b => b.ctx == a.ctx && b.wg == a.wg && b.tid == a.tid && decide (b.id < a.id) && b.path == .ord &&
    b.op.sets.any (fun k => k == 1 || k == 2) && s.pendingAt b scope) && !s.seenOnly a.core scope

/-- Whether an address is unbound: in no region that a sluice binds (R155, R158). -/
def Launch.unbound (l : Launch) (a : Nat) : Bool :=
  !l.img.regions.any (fun r => r.sluice != 0 && r.covers a 1)

/-- Whether a line holds unbound bytes. -/
def Launch.lineUnbound (l : Launch) (vline : Nat) : Bool := (rangeFrom (vline * 128) 128).any l.unbound

/-- Whether a line holds bytes of a region of a kind. -/
def Launch.lineIn (l : Launch) (vline : Nat) (p : Region → Bool) : Bool :=
  l.img.regions.any (fun r => p r && rangesMeet r.base r.size (vline * 128) 128)

/-- Drops lines from the L1s that serve a core; dirty private granules are written back first. -/
def State.l1Drop (s : State) (core : Nat) (p : L1Line → Bool) : State :=
  (s.l1Group core).foldl (fun s c =>
    if (s.coreOf c).l1.isEmpty then s
    else
      (((s.coreOf c).l1.filter p).foldl State.writeBack s).modCore c (fun c => { c with l1 := c.l1.filter (fun x => !p x) })) s

/-- Invalidates a core's clean lines of unbound global memory (R155, R162). -/
def State.acquire (s : State) (core : Nat) : State :=
  s.l1Drop core (fun x => !x.priv && match s.launches.find? (fun l => l.ctx == x.ctx && l.live) with
    | some l => l.lineUnbound x.vline
    | none => true)

/-- Invalidates the L1 lines of the regions bound to a sluice (R160); `k` is its index plus 1. -/
def State.acquireBound (s : State) (core ctx k : Nat) : State :=
  s.l1Drop core (fun x => !x.priv && x.ctx == ctx && match s.launch ctx with
    | some l => l.lineIn x.vline (fun r => r.sluice == k)
    | none => false)

/-- PFENCE's second half (R157): no copy filled before it is used on the paths of its to set. -/
def State.dropCopies (s : State) (core toSet : Nat) : State :=
  let s1 := { s with copies := s.copies.filter (fun c => !bitOf toSet c.path.bit) }
  if bitOf toSet 0 then s1.l1Drop core (fun x => !x.priv) else s1

/-- The sluice an address names: its index plus 1 and its scope (R158). -/
def Launch.sluiceOf (l : Launch) (a : Nat) : Option (Nat × Nat) :=
  match l.img.regions.findIdx? (fun r => r.kind == 4 && r.base == a) with
  | none => none
  | some i => (l.img.regions[i]?).map (fun r => (i + 1, r.scope))

/-- The release count of a sluice at the site of its scope (R158, R170). -/
def State.sluiceCount (s : State) (a : Access) (l : Launch) (scope : Nat) : Nat :=
  match s.locate (coreDie a.core) l a.addr with
  | none => 0
  | some t => leNat (if scope ≤ 2 then s.clusterBytes { a with size := 4 } t.key else s.readHome t.key 4)

/-- SLREL's two steps (R159): once the writes to bound regions have performed, the count rises at its site. -/
def State.performRelease (s : State) (a : Access) : Performed :=
  match s.launch a.ctx with
  | none => .done (s.drop a)
  | some l =>
    match l.sluiceOf a.addr with
    | none => .done (s.drop a)
    | some (k, scope) =>
      let waits := s.flight.any (fun b => b.ctx == a.ctx && b.wg == a.wg && b.tid == a.tid && decide (b.id < a.id) &&
        b.op.sets.any (fun i => i == 1 || i == 2) && s.pendingAt b scope &&
        ((l.regionOf b.addr b.size).map (fun r => r.sluice == k)).getD (b.addr == a.addr))
      if waits then .wait
      else
        match s.locateVia (coreCluster a.core) l a.addr with
        | none => .done (s.callerFault a.ctx)
        | some t =>
          let m := s.sluiceCount a l scope
          let n := if m + 1 < 0xFFFFFFFE then m + 1 else 0xFFFFFFFE
          if scope ≤ 2 then
            .done (({ s with free := s.free + 1 }.l1Put a.core t.key (leBytes 4 n)).goThrough { a with size := 4, scope := scope } n true)
          else .done ((({ s with free := s.free + 1 }.writeHome t.key (leBytes 4 n)).l1Follow a.core t.key (leBytes 4 n)).drop a)

/-- A tile of a cluster. -/
def State.tileOf (s : State) (cluster n : Nat) : Option Tile :=
  s.tiles.find? (fun t => t.cluster == cluster && t.number == n && t.state != .free)

/-- A state with one tile changed. -/
def State.modTile (s : State) (cluster n : Nat) (f : Tile → Tile) : State :=
  { s with tiles := s.tiles.map (fun t => if t.cluster == cluster && t.number == n then f t else t) }

/-- A tile row as it reads (R73, R114): a row not landed, or at or beyond the recorded rows, reads as zero. -/
def Tile.row (t : Tile) (r : Nat) : TileRow :=
  if r < t.rows then
    (t.data.find? (fun x => x.row == r)).getD { row := r, data := List.replicate 512 0, bitmap := List.replicate 64 0 }
  else { row := r, data := List.replicate 512 0, bitmap := List.replicate 64 0 }

/-- A tile with one row written. -/
def Tile.setRow (t : Tile) (x : TileRow) : Tile :=
  { t with data := insertBy (fun a b => decide (a.row ≤ b.row)) x (t.data.filter (fun y => y.row != x.row)) }

/-- Location number of a tile byte for path copies. -/
def tileKey (cluster n row off : Nat) : Nat := 2 ^ 61 + ((cluster * 1024 + n) * 64 + row) * 1024 + off

/-- A sector of a tile row at its slice: bytes 0 to 511 are data, 512 to 575 the bitmap (R230). -/
def Tile.sector (t : Tile) (row off : Nat) : List Byte :=
  (((t.row row).data ++ (t.row row).bitmap).drop off).take 32

/-- A reading operation of a tile has finished; TILE_READER_FINISH lowers the count (R114). -/
def State.tileDone (s : State) (cluster n : Nat) : State := s.modTile cluster n (fun t => { t with finishing := t.finishing + 1 })

/-- LDT at the tile's slice (R230), through the tile path's copies (R117). -/
def State.performTileLoad (s : State) (a : Access) (n row off : Nat) : Performed :=
  let cl := coreCluster a.core
  match s.tileOf cl n with
  | none => .done ((s.drop a).answer a (wordsOf 4 0))
  | some t =>
    let k := tileKey cl n row off
    let r := s.readCopies .tile a.core (fun _ x => t.sector row (x % 1024)) 2 k 16
    .done (((r.2.drop a).answer a (wordsOf 4 (leNat r.1))).tileDone cl n)

/-- STT at the tile's slice, the bytes as given (R230); its own tile-path copy is updated with it (R117). At or beyond the
recorded rows it writes nothing. -/
def State.performTileStore (s : State) (a : Access) (n row off v : Nat) : Performed :=
  let cl := coreCluster a.core
  let k := tileKey cl n row off
  let put := fun (t : Tile) =>
    if row < t.rows then
      (let x := t.row row
       let all := patchBytes (x.data ++ x.bitmap) off (leBytes 16 v)
       t.setRow { row := row, data := all.take 512, bitmap := all.drop 512 })
    else t
  let s1 := (s.drop a).modTile cl n put
  let s2 : State := if (s.tileOf cl n).any (fun t => decide (row < t.rows)) then
      { s1 with copies := s1.copies.map (fun c : Copy =>
          if c.path == .tile && c.owner == a.core && c.sector == k / 32 then { c with bytes := patchBytes c.bytes (k % 32) (leBytes 16 v) } else c) }
    else s1
  .done (s2.tileDone cl n)

/-- Whether a write that has left the flight and not reached its home lies on a line: an update that a reduction unit or its
core keeps (R176, R177), or the write set of a commit under validation (R181). -/
def State.lineKept (s : State) (line : Nat) : Bool :=
  (s.detUnits ++ s.wgs.flatMap (fun w => w.redQueue)).any (fun u => u.key / 128 == line)
    || s.wgs.any (fun w => w.threads.any (fun t => t.tx.committing.isSome && t.tx.writes.any (fun b => b.1 / 128 == line)))

/-- Whether an access under way names a line of a launch's memory: a line discarded under it is allocated again at once, as
by the access, which comes after the discard (R191). -/
def State.lineAwaited (s : State) (p : Nat × Nat) : Bool :=
  s.flight.any (fun a => a.ctx == p.1 && a.op.memory && (match a.op with | .discard _ => false | _ => true) && rangesMeet (p.2 * 128) 128 a.addr a.size)
    || s.lineKept (polderKey p.1 (p.2 * 128) / 128)

/-- Discards polder lines at their homes (R124, R191): their capacity returns, and the bytes read as zero again. Lines of a page
that has taken its late frame hold no capacity and keep their bytes (DESIGN CHOICE, log 73). -/
def State.discardLines (s : State) (ctx va n : Nat) : State × List (Nat × Nat) :=
  let here := fun (p : Nat × Nat) => p.1 == ctx && rangesMeet (p.2 * 128) 128 va n
  let held := s.polderLines.filter here
  let s1 := held.foldl (fun s p => s.writeHome (polderKey ctx (p.2 * 128)) (List.replicate 128 0)) s
  ({ s1 with polderLines := s1.polderLines.filter (fun p => !here p || s.lineAwaited p) }, held)

/-- PDISC performs (R191), after its thread's earlier accesses to the lines (R262); its own core's L1 follows what stands at the homes of the
range, whoever discarded a line there (R124, R260, R262). -/
def State.performDiscard (s : State) (a : Access) (n : Nat) : Performed :=
  if s.homeBlocked a then .wait
  else
    let r := s.discardLines a.ctx a.addr n
    let s1 := r.1.l1Refresh a.core (fun x => rangesMeet (x.key * 128) 128 (polderKey a.ctx a.addr) n)
    .done ((s1.drop a).answer a [some (BitVec.ofNat 32 r.2.length)])

/-- Whether an operation of R176 reaches its unit: buffered while fewer than 16 wait there, else kept by its core. -/
def State.performDetRed (s : State) (a : Access) (op : AmoOp) (v sequence : Nat) : Performed :=
  match s.launch a.ctx with
  | none => .done (s.drop a)
  | some l =>
    match s.polderTouch l a.addr with
    | .wait => .wait
    | .breach s1 => .breach s1
    | .done s0 =>
      match s0.locateVia (coreCluster a.core) l a.addr with
      | none => .done (s0.callerFault a.ctx)
      | some t =>
        let x : DetUpdate := { ctx := a.ctx, wg := a.wg, tid := a.tid, sequence := sequence, op := op, value := v, key := t.key, addr := a.addr,
                               die := (s0.homeOf (coreDie a.core) l t).1, slice := (s0.homeOf (coreDie a.core) l t).2 }
        let home := s0.homeOf (coreDie a.core) l t
        let s1 : State := { s0.drop a with free := s0.free + 1 }
        let unit := s1.detUnits.filter (fun u : DetUpdate => u.die == home.1 && u.slice == home.2)
        if unit.length < 16 then .done { s1 with detUnits := s1.detUnits ++ [x] }
        else .done (s1.modWg a.ctx a.wg (fun w => { w with redQueue := w.redQueue ++ [x] }))

/-- An open phase of a barrier; one that nothing has touched has phase 0 and no arrivals (R161). -/
def Barrier.fresh (level inst id : Nat) : Barrier :=
  { level := level, inst := inst, id := id, phase := 0, arrivals := 0, count := 0, expected := 0, landed := 0 }

/-- The root of a level above a core (R13, R161); a leaf barrier is its workgroup's own, wherever that runs (R38). -/
def levelInst (level core : Nat) : Nat :=
  if level = 0 then 0 else if level = 1 then core / 4 else if level = 2 then core / 128 else if level = 3 then core / 256 else 0

/-- A barrier in a list. -/
def barrierIn (bs : List Barrier) (level inst id : Nat) : Barrier :=
  (bs.find? (fun b => b.level == level && b.inst == inst && b.id == id)).getD (Barrier.fresh level inst id)

/-- A list with a barrier set. -/
def setBarrier (bs : List Barrier) (x : Barrier) : List Barrier :=
  x :: bs.filter (fun b => !(b.level == x.level && b.inst == x.inst && b.id == x.id))

/-- The barrier of an extent of a level (R161): a leaf of the workgroup, or the launch's at the root. -/
def State.barrierAt (s : State) (ctx wg level inst id : Nat) : Barrier :=
  if level = 0 then barrierIn (((s.wgOf ctx wg).map (fun w => w.leaf)).getD []) 0 0 id
  else barrierIn (((s.launch ctx).map (fun l => l.roots)).getD []) level inst id

/-- The barrier that an instruction on a core names (R161). -/
def State.barrier (s : State) (ctx wg core level id : Nat) : Barrier := s.barrierAt ctx wg level (levelInst level core) id

/-- A state with a barrier set. -/
def State.putBarrier (s : State) (ctx wg : Nat) (x : Barrier) : State :=
  if x.level = 0 then s.modWg ctx wg (fun w => { w with leaf := setBarrier w.leaf x })
  else s.modLaunch ctx (fun l => { l with roots := setBarrier l.roots x })

/-- Completes a phase whose arrivals and landed bytes suffice (R162, R164): the excess of landed bytes is carried. -/
def Barrier.settle (b : Barrier) : Barrier :=
  if b.count != 0 && decide (b.count ≤ b.arrivals) && decide (b.expected ≤ b.landed) then
    { b with phase := b.phase + 1, arrivals := 0, count := 0, expected := 0, landed := b.landed - b.expected }
  else b

/-- BARRIER_ARRIVAL (R162): counted in the phase open at the root. -/
def State.performArrive (s : State) (a : Access) (level inst id count expected : Nat) : Performed :=
  if !s.arrivalReady a level then .wait
  else
    let b := s.barrierAt a.ctx a.wg level inst id
    let b1 := { b with arrivals := b.arrivals + 1, count := if b.count = 0 then count else b.count, expected := b.expected + expected }
    .done ((((s.drop a).modThread a.ctx a.wg a.tid (fun t =>
      { t with arrived := t.arrived.map (fun r => if r.flight == some a.id then { r with flight := none, phase := b.phase } else r) })).putBarrier
        a.ctx a.wg { b1.settle with inst := if level = 0 then 0 else inst }))

/-- Landed bytes of a command that names a barrier (R164, R215). -/
def State.land (s : State) (ctx wg core level id n : Nat) : State :=
  let b := s.barrier ctx wg core level id
  s.putBarrier ctx wg ({ b with landed := b.landed + n }.settle)

/-- Whether the phase in which a thread last arrived has completed, or it never arrived (R163); the phase is that of the root
where the arrival was counted, wherever the thread now runs (R39). -/
def State.barrierDone (s : State) (ctx wg : Nat) (t : Thread) (level id : Nat) : Bool :=
  match t.arrived.find? (fun r => r.level == level && r.id == id) with
  | none => true
  | some r => r.flight.isNone && decide (r.phase < (s.barrierAt ctx wg level r.inst id).phase)

/-- The first free context area of a launch (R344, R347): none of its workgroups has it, nor one that is formed. -/
def State.freeArea (s : State) (l : Launch) : Option Nat :=
  (rangeFrom 0 l.areas.length).find? (fun k =>
    !s.wgs.any (fun w => w.ctx == l.ctx && w.area == k) && !l.formed.any (fun f => f.area == some k))

/-- Formed workgroups without an area take free ones, the earliest first (R347), at most `k` of them. -/
def State.takeAreas (ctx : Nat) : Nat → State → State
  | 0, s => s
  | k + 1, s =>
    match s.launch ctx with
    | none => s
    | some l =>
      match l.formed.find? (fun f => f.area.isNone), s.freeArea l with
      | some f, some n =>
        State.takeAreas ctx k (s.modLaunch ctx (fun l => { l with
          formed := l.formed.map (fun g => if g.wg == f.wg then { g with area := some n } else g) }))
      | _, _ => s

/-- The formed workgroups of a launch take what areas are free: at their forming, and as a workgroup retires (R347). One that finds
none free takes the first that frees (DEDUCED, log 106). -/
def State.areasTaken (s : State) (ctx : Nat) : State := State.takeAreas ctx (((s.launch ctx).map (fun l => l.formed.length)).getD 0) s

/-- The records of a closed bin form one workgroup of the launch (R28, R29), which takes its context area (R347). -/
def State.formRecords (s : State) (ctx cluster target : Nat) (records : List (List Word)) (parents : List Nat) : State :=
  (s.modLaunch ctx (fun l => { l with
    formed := l.formed ++
      [{ wg := l.nextCont, generation := l.generation + 1, target := target, cluster := some cluster, area := none, records := records, parents := parents }],
    nextCont := l.nextCont + 1 })).areasTaken ctx

/-- A bin leaves its cluster and its records form a workgroup. -/
def State.closeBin (s : State) (cluster : Nat) (b : Bin) : State :=
  (s.modCluster cluster (fun c => { c with bins := c.bins.filter (fun x => !(x.ctx == b.ctx && x.pc == b.pc)) })).formRecords
    b.ctx cluster b.pc b.records b.parents

/-- The bins of a cluster whose 2 µs have passed at a time are closed, in the order in which they began (R28). -/
def State.closeDue (s : State) (cluster time : Nat) : State :=
  ((s.cluster cluster).bins.filter (fun b => decide (b.since + 2000 ≤ time))).foldl (fun s b => s.closeBin cluster b) s

/-- CONTINUATION_RECORD (R28): a bin whose 2 µs have passed has closed before it; or kept for the generation's forming in a `.det` launch
(R31). -/
def State.performRecord (s : State) (a : Access) (target : Nat) (args : List Word) (sequence : Nat) : Performed :=
  match s.launch a.ctx with
  | none => .done (s.drop a)
  | some l =>
    let s1 := s.drop a
    if l.stopped then .done s1
    else if l.img.det then
      .done (s1.modLaunch a.ctx (fun l => { l with
        kept := l.kept ++ [{ cluster := coreCluster a.core, wg := a.wg, tid := a.tid, sequence := sequence, target := target, args := args }] }))
    else
      let cl := coreCluster a.core
      let s1 := s1.closeDue cl s.now
      let c := s1.cluster cl
      match c.bins.find? (fun b => b.ctx == a.ctx && b.pc == target) with
      | some b =>
        let b1 := { b with records := b.records ++ [args], parents := b.parents ++ [a.wg] }
        let s2 := s1.modCluster cl (fun c => { c with bins := c.bins.map (fun x => if x.ctx == b.ctx && x.pc == b.pc then b1 else x) })
        .done (if b1.records.length = 32 then s2.closeBin cl b1 else s2)
      | none =>
        let s2 := if c.bins.length < 16 then s1 else match c.bins.head? with
          | some b => s1.closeBin cl b
          | none => s1
        .done (s2.modCluster cl (fun c => { c with bins := c.bins ++ [{ pc := target, ctx := a.ctx, since := s.now, records := [args], parents := [a.wg] }] }))

/-- Whether the leaf controllers of a die hold continuation records: in bins (R28), or in a `.det` launch for the generation's forming
(R31). -/
def State.holdsRecords (s : State) (die : Nat) : Bool :=
  s.clusters.any (fun c => c.id / 2 == die && !c.bins.isEmpty) || s.launches.any (fun l => l.live && l.kept.any (fun r => r.cluster / 2 == die))

/-- %pqbusy of a die (R245, R246, R347). -/
def State.busyBits (s : State) (die : Nat) : Nat :=
  let q := fun c => if s.sites.any (fun x => x.die == die && Config.siteClass x.index == c && !x.queue.isEmpty) then 2 ^ c else 0
  let dispatch := s.launches.any (fun l => l.live && !(l.pending.isEmpty && l.formed.isEmpty) &&
    (bitOf l.quote.clusterMask (2 * die) || bitOf l.quote.clusterMask (2 * die + 1)))
  q 0 + q 1 + q 2 + q 3 + q 4 + (if dispatch then 2 ^ 8 else 0)
    + (if s.holdsRecords die then 2 ^ 9 else 0)
    + (if s.requests.any (fun r => r.die == die) then 2 ^ 10 else 0)

/-- Whole µJ of a picojoule count (R247). -/
def microJoules (pj : Nat) : Nat := pj / 1000000

/-- A per-die register's value for a thread (R245). -/
def State.dieRegister (s : State) (index : Nat) (latched : Word) : Word :=
  let k := (index - 0x2200) / 16
  let d := s.die k
  match index % 16 with
  | 0 => d.pid
  | 1 => d.pilv
  | 2 => d.pbnd
  | 3 => d.pqc
  | 4 => BitVec.ofNat 32 (s.busyBits k)
  | 5 => BitVec.ofNat 32 (microJoules d.energyPj)
  | _ => latched

/-- The high half that a low read latches (R247). -/
def energyHigh (pj : Nat) (sat : Bool) : Word :=
  BitVec.ofNat 32 (microJoules pj / 2 ^ 32 % 2 ^ 31 + (if sat then 2 ^ 31 else 0))

/-- A read of a per-die register by a thread: the value, and what it latches (R244, R247). -/
def State.readDieRegister (s : State) (ctx wg tid index : Nat) : Word × State :=
  let k := (index - 0x2200) / 16
  let hi := ((s.threadOf ctx wg tid).bind (fun t => t.edieHi.find? (fun p => p.1 == k))).elim 0 (fun p => p.2)
  let v := s.dieRegister index hi
  if index % 16 = 5 then
    (v, s.modThread ctx wg tid (fun t => { t with
      edieHi := (k, energyHigh (s.die k).energyPj (s.die k).energySat) :: t.edieHi.filter (fun p => p.1 != k) }))
  else (v, s)

/-- The bits of %pqc after a write (R246, R351): release first, then a new request, then the W1C bit. -/
def quiesceWrite (d : Die) (now : Nat) (v : Word) : Die :=
  let n := v.toNat
  let p := d.pqc.toNat
  let d1 := if bitOf n 1 then { d with pqc := BitVec.ofNat 32 (p / 2 ^ 16 * 2 ^ 16 + (if bitOf p 9 then 2 ^ 9 else 0)), quiesceAt := none } else d
  let p1 := d1.pqc.toNat
  let d2 := if bitOf n 0 && !bitOf p1 0 then { d1 with pqc := BitVec.ofNat 32 (p1 + 1), quiesceAt := some now } else d1
  let p2 := d2.pqc.toNat
  if bitOf n 9 && bitOf p2 9 then { d2 with pqc := BitVec.ofNat 32 (p2 - 2 ^ 9) } else d2

/-- Sets a die's refused bit (R246). -/
def Die.refuse (d : Die) : Die := { d with pqc := d.pqc ||| 0x200 }

/-- The determinism manifest is made anew (R382), under the next of its 32-bit generations: launches that hold reservations note it. -/
def State.newManifest (s : State) : State :=
  { s with manifestGen := (s.manifestGen + 1) % 2 ^ 32, launches := s.launches.map (fun l => if l.live then { l with manifestChanged := true } else l) }

/-- Whether a value of %pid names a form of Table 1 of R349: by its size and first fields alone, whichever die it is
written to. -/
def pidLegal (v : Word) : Bool :=
  let first := bits v.toNat 2 0
  match bits v.toNat 7 6 with
  | 0 => first % 2 == 0
  | 1 => first % 4 == 0
  | 2 => first == 0
  | _ => false

/-- A write of a per-die register performs (R246, R349, R351); a write of a read-only register is ignored (R64). One of %pid,
%pilv or %pbnd is a partition change, and the manifest is made anew (R382). -/
def State.writeDieRegister (s : State) (index : Nat) (v : Word) : State :=
  let k := (index - 0x2200) / 16
  let quiesced := bitOf (s.die k).pqc.toNat 8
  match index % 16 with
  | 0 =>
    if quiesced && pidLegal v then
      (s.modDie k (fun d => { d with pid := v &&& 0xC7 })).newManifest
    else s.modDie k Die.refuse
  | 1 => if quiesced then (s.modDie k (fun d => { d with pilv := v &&& 0xFFFF })).newManifest else s.modDie k Die.refuse
  | 2 => if quiesced then (s.modDie k (fun d => { d with pbnd := v &&& 0x3FF })).newManifest else s.modDie k Die.refuse
  | 3 => s.modDie k (fun d => quiesceWrite d s.now v)
  | _ => s

/-- Bytes of a launch's polder lines homed on a die now (R121, R124). -/
def State.polderHeldAt (s : State) (l : Launch) (die : Nat) : Nat :=
  128 * (s.polderLines.filter (fun p => p.1 == l.ctx && (l.polderAt (p.2 * 128)).any (fun r => s.pageHome l.ctx r (r.pageOf (p.2 * 128)) == die))).length

/-- Bytes that a launch has reserved for polder lines on a die, but for what backed pages returned (R121, R123). -/
def State.polderReserved (s : State) (l : Launch) (die : Nat) : Nat :=
  ((l.img.regions.filter (fun r => r.kind == 2 && r.home == die)).map (fun r => s.polderCap l.ctx r)).sum

/-- Room left in a launch's reservation on a die (R192); whether the die is one of the launch's partition makes no difference to what the
launch has reserved there (DESIGN CHOICE, log 136). -/
def State.polderRoom (s : State) (l : Launch) (die : Nat) : Nat := s.polderReserved l die - s.polderHeldAt l die

/-- Pages of a polder range. -/
def pagesOf (r : Region) (base n : Nat) : List Nat :=
  (rangeFrom 0 (cdiv (base + n - base / r.pageBytes * r.pageBytes) r.pageBytes)).map (fun k => r.pageOf (base + k * r.pageBytes))

/-- Pages of a region that a move to a die takes there: lost ones stay lost, and backed ones have no polder home. -/
def State.pagesToMove (s : State) (ctx : Nat) (r : Region) (pages : List Nat) (target : Nat) : List Nat :=
  pages.filter (fun pg => match s.polderPage ctx pg with
    | some (.lost _) | some (.backed _) => false
    | some (.moved d) => d != target
    | none => r.home != target)

/-- Bytes of the lines now allocated in pages (R122). -/
def State.pagesHeld (s : State) (ctx : Nat) (r : Region) (pages : List Nat) : Nat :=
  128 * (s.polderLines.filter (fun p => p.1 == ctx && pages.contains (r.pageOf (p.2 * 128)))).length

/-- Pages take a new home (R124). The lines' check values are checked on their way: one that differs is reported, an error of the home
that it leaves, and stays bad for whoever reads it (R365, R366; log 105). -/
def State.movePages (s : State) (ctx : Nat) (r : Region) (pages : List Nat) (target : Nat) : State :=
  pages.foldl (fun s pg => s.setPolderPage ctx pg (.moved target))
    (s.reportLines (s.badLines ctx r pages))

/-- Whether a page has taken its late frame (R123). -/
def State.pageBacked (s : State) (ctx page : Nat) : Bool := match s.polderPage ctx page with
  | some (.backed _) => true
  | some (.moved _) | some (.lost _) | none => false

/-- Bytes of the lines that a move of a range to a die takes there (R192), over the regions it lies in. -/
def State.bytesToMove (s : State) (l : Launch) (addr n target : Nat) : Nat :=
  ((l.polderParts addr n).map (fun p => s.pagesHeld l.ctx p.1 (s.pagesToMove l.ctx p.1 (pagesOf p.1 p.2.1 p.2.2) target))).sum

/-- A range moves to a die (R124), region by region. -/
def State.moveRange (s : State) (l : Launch) (addr n target : Nat) : State :=
  (l.polderParts addr n).foldl (fun s p => s.movePages l.ctx p.1 (s.pagesToMove l.ctx p.1 (pagesOf p.1 p.2.1 p.2.2) target) target) s

/-- PMOVE's status (Table 15 of R192); `evicted` where its lease was evicted before the first page moved. Where several rows of the table
hold, the first of BACKED, DONE, EVICTED and NOROOM is given (DESIGN CHOICE, log 135). -/
def State.moveStatus (s : State) (l : Launch) (addr n target : Nat) (evicted : Bool) : Nat :=
  let parts := l.polderParts addr n
  if parts.any (fun p => (pagesOf p.1 p.2.1 p.2.2).any (s.pageBacked l.ctx)) then 4
  else if parts.all (fun p => (s.pagesToMove l.ctx p.1 (pagesOf p.1 p.2.1 p.2.2) target).isEmpty) then 0
  else if evicted then 2
  else if s.polderRoom l target < s.bytesToMove l addr n target then 1
  else 0

/-- PMOVE_COMPLETE (R124, R192): the pages take their new home, their TLB entries being shot down. Where the lease was evicted
under way, whether that came before the first page moved is a free choice. -/
def State.performMove (s : State) (a : Access) (n target handle : Nat) : Performed :=
  match s.launch a.ctx with
  | none => .done (s.drop a)
  | some l =>
    let evicted := s.evicted.any (fun x => x.ctx == a.ctx && x.handle / 4 == handle / 4) && Config.freeChoice s.free
    let code := s.moveStatus l a.addr n target evicted
    let s1 := if code = 0 then s.moveRange l a.addr n target else s
    .done (({ s1.drop a with free := s.free + 1 }).answer a [some (BitVec.ofNat 32 code)])

/-- Where the bytes lie that an access reads at their home (R365): location and physical address of each piece, but for those that
its L1 or path copies already hold; the line of a private access that misses (R101) among them. -/
def State.homeReads (s : State) (a : Access) : List (Nat × Nat) :=
  match s.launch a.ctx with
  | none => []
  | some l =>
    match classOf a.addr with
    | .scratch | .bad => []
    | .priv =>
      match s.wgOf a.ctx a.wg with
      | some w =>
        ((rangeFrom (a.addr - Config.privateBase) a.size).map (fun x =>
          let b := privBacking (s.privBase w) w.threads.length a.tid x
          (s.locOf (coreDie a.core) b, b))).filter (fun p =>
            !(s.coreOf (s.l1Core a.core (p.1 / 128 * 128))).l1.any (fun x => x.priv && x.key == p.1 / 128))
      | none => []
    | .global =>
      match s.locate (coreDie a.core) l a.addr with
      | none => []
      | some t =>
        let here := match t.phys with
          | some pa => [(t.key, pa)]
          | none => [(t.key, t.key)]
        let inL1 := (s.l1Held a.core (t.key / 128)).isSome
        let inCopy := (rangeFrom (t.key / 32) (cdiv (t.key % 32 + a.size) 32)).all (fun k =>
          s.copies.any (fun c => c.path == a.path && c.owner == a.core && c.sector == k))
        match a.op with
        | .load _ _ => if (a.path == .ord && a.tx.isNone && inL1) || (a.path == .con && inCopy) then [] else here
        | .atomic _ _ _ | .red _ _ => if a.scope == 0 && inL1 then [] else here
        | .mon | .asOf _ | .detRed _ _ _ | .release => here
        | .store _ | .through _ _ | .stamped _ _ | .tileLoad _ _ _ | .tileStore _ _ _ _ | .discard _ | .move _ _ _ | .regRead _
        | .regWrite _ _ | .energy _ _ | .arrive _ _ _ _ _ | .record _ _ _ => []

/-- Whether an access needs a walk of the page table (R395): neither its L1 nor its cluster's TLB has its page. -/
def State.walks (s : State) (a : Access) (l : Launch) : Bool :=
  (a.op.memory || a.op == .release) && classOf a.addr == .global && (l.polderAt a.addr).isNone
    && (s.tlbEntry (coreCluster a.core) l.ctx a.addr).isNone
    && ((s.coreOf (s.l1Core a.core a.addr)).l1Find l.ctx (a.addr / 128)).isNone

/-- A block with a wrong check value that an access consumes (R365, R366), an entry of the page table that it walks among them: its physical address and what is stored for it. A block
once known bad is uncorrectable for whoever reads it at its home (DEDUCED, log 105). -/
def State.badRead (s : State) (a : Access) : Option (Nat × Nat × Word) :=
  if s.badCheck.isEmpty then none
  else match (s.launch a.ctx).bind (fun l => if s.walks a l then s.badEntry (coreCluster a.core) l a.addr else none) with
  | some x => some x
  | none => (s.homeReads a).findSome? (fun p => (s.badBlock p.1 (if classOf a.addr == .priv then 1 else Nat.min a.size (128 - p.1 % 128))).map (fun c => (p.2, c)))

/-- An access performs at its site: the one operation behind every *_PERFORM and *_ARRIVAL step. -/
def State.perform (s : State) (a : Access) : Performed :=
  if s.blocked a then .wait
  else
    match a.op with
    | .load sg w => s.performLoad a sg w
    | .mon => s.performMon a
    | .store v => s.performStore a v
    | .through v _ => s.performThrough a v
    | .atomic op v e => s.performAtomic a op v e
    | .red op v => s.performAtomic a op v 0
    | .detRed op v n => s.performDetRed a op v n
    | .stamped v n => s.performStamped a v n
    | .asOf n => s.performAsOf a n
    | .release => s.performRelease a
    | .tileLoad t r o => s.performTileLoad a t r o
    | .tileStore t r o v => s.performTileStore a t r o v
    | .discard n => s.performDiscard a n
    | .move n d h => s.performMove a n d h
    | .regRead i =>
      let r := s.readDieRegister a.ctx a.wg a.tid i
      .done ((r.2.drop a).answer a [some r.1])
    | .regWrite i v => .done ((s.writeDieRegister i v).drop a)
    | .energy lo hi =>
      .done (((s.drop a).answer a [some lo]).modThread a.ctx a.wg a.tid (fun t => { t with energyHi := hi }))
    | .arrive lv inst id n x => s.performArrive a lv inst id n x
    | .record t args n => s.performRecord a t args n

end Sys2Proof.Machine
end

