-- ==== Sys2Proof/Machine/Operands.lean ====
section
/-! DEFINITION. Operand forms: the register fields an instruction names (R48, R63), the kinds of R55, R58, R59, R66, R25,
R22 and R179, and the effective addresses of R150 and R167 with their checks. -/

namespace Sys2Proof.Machine

/-- The register fields an instruction names, each with its words, in the order d, a, b (R48, R63); SYSC names w8 to w13
(R253). -/
def namedFields : Instr → List (Nat × Nat)
  | .add _ d a b => [(d.toNat, 1), (a.toNat, 1), (b.toNat, 1)]
  | .sub _ d a b => [(d.toNat, 1), (a.toNat, 1), (b.toNat, 1)]
  | .mul _ d a b => [(d.toNat, 1), (a.toNat, 1), (b.toNat, 1)]
  | .mulh _ d a b => [(d.toNat, 1), (a.toNat, 1), (b.toNat, 1)]
  | .mulhu _ d a b => [(d.toNat, 1), (a.toNat, 1), (b.toNat, 1)]
  | .mad _ d a b => [(d.toNat, 1), (a.toNat, 1), (b.toNat, 1)]
  | .divu _ d a b => [(d.toNat, 1), (a.toNat, 1), (b.toNat, 1)]
  | .remu _ d a b => [(d.toNat, 1), (a.toNat, 1), (b.toNat, 1)]
  | .and _ d a b => [(d.toNat, 1), (a.toNat, 1), (b.toNat, 1)]
  | .or _ d a b => [(d.toNat, 1), (a.toNat, 1), (b.toNat, 1)]
  | .xor _ d a b => [(d.toNat, 1), (a.toNat, 1), (b.toNat, 1)]
  | .andn _ d a b => [(d.toNat, 1), (a.toNat, 1), (b.toNat, 1)]
  | .shl _ d a b => [(d.toNat, 1), (a.toNat, 1), (b.toNat, 1)]
  | .shr _ d a b => [(d.toNat, 1), (a.toNat, 1), (b.toNat, 1)]
  | .sra _ d a b => [(d.toNat, 1), (a.toNat, 1), (b.toNat, 1)]
  | .rot _ d a b => [(d.toNat, 1), (a.toNat, 1), (b.toNat, 1)]
  | .min _ d a b => [(d.toNat, 1), (a.toNat, 1), (b.toNat, 1)]
  | .max _ d a b => [(d.toNat, 1), (a.toNat, 1), (b.toNat, 1)]
  | .minu _ d a b => [(d.toNat, 1), (a.toNat, 1), (b.toNat, 1)]
  | .maxu _ d a b => [(d.toNat, 1), (a.toNat, 1), (b.toNat, 1)]
  | .seq _ d a b => [(d.toNat, 1), (a.toNat, 1), (b.toNat, 1)]
  | .sne _ d a b => [(d.toNat, 1), (a.toNat, 1), (b.toNat, 1)]
  | .slt _ d a b => [(d.toNat, 1), (a.toNat, 1), (b.toNat, 1)]
  | .sltu _ d a b => [(d.toNat, 1), (a.toNat, 1), (b.toNat, 1)]
  | .sle _ d a b => [(d.toNat, 1), (a.toNat, 1), (b.toNat, 1)]
  | .sleu _ d a b => [(d.toNat, 1), (a.toNat, 1), (b.toNat, 1)]
  | .cmovz _ d a b => [(d.toNat, 1), (a.toNat, 1), (b.toNat, 1)]
  | .cmovn _ d a b => [(d.toNat, 1), (a.toNat, 1), (b.toNat, 1)]
  | .add64 _ d a b => [(d.toNat, 2), (a.toNat, 2), (b.toNat, 2)]
  | .sub64 _ d a b => [(d.toNat, 2), (a.toNat, 2), (b.toNat, 2)]
  | .mul64 _ d a b => [(d.toNat, 2), (a.toNat, 2), (b.toNat, 2)]
  | .addx _ d a b => [(d.toNat, 2), (a.toNat, 2), (b.toNat, 1)]
  | .addx4 _ d a b => [(d.toNat, 2), (a.toNat, 2), (b.toNat, 1)]
  | .bfx _ d a b => [(d.toNat, 1), (a.toNat, 1), (b.toNat, 1)]
  | .bfxs _ d a b => [(d.toNat, 1), (a.toNat, 1), (b.toNat, 1)]
  | .bfi _ d a b => [(d.toNat, 1), (a.toNat, 1), (b.toNat, 1)]
  | .addi _ d a _ => [(d.toNat, 1), (a.toNat, 1)]
  | .andi _ d a _ => [(d.toNat, 1), (a.toNat, 1)]
  | .ori _ d a _ => [(d.toNat, 1), (a.toNat, 1)]
  | .xori _ d a _ => [(d.toNat, 1), (a.toNat, 1)]
  | .shli _ d a _ => [(d.toNat, 1), (a.toNat, 1)]
  | .shri _ d a _ => [(d.toNat, 1), (a.toNat, 1)]
  | .srai _ d a _ => [(d.toNat, 1), (a.toNat, 1)]
  | .slti _ d a _ => [(d.toNat, 1), (a.toNat, 1)]
  | .sltui _ d a _ => [(d.toNat, 1), (a.toNat, 1)]
  | .seqi _ d a _ => [(d.toNat, 1), (a.toNat, 1)]
  | .muli _ d a _ => [(d.toNat, 1), (a.toNat, 1)]
  | .add64i _ d a _ => [(d.toNat, 2), (a.toNat, 2)]
  | .clz _ d a => [(d.toNat, 1), (a.toNat, 1)]
  | .popc _ d a => [(d.toNat, 1), (a.toNat, 1)]
  | .brev _ d a => [(d.toNat, 1), (a.toNat, 1)]
  | .abs _ d a => [(d.toNat, 1), (a.toNat, 1)]
  | .sexb _ d a => [(d.toNat, 1), (a.toNat, 1)]
  | .sexh _ d a => [(d.toNat, 1), (a.toNat, 1)]
  | .movi _ d _ => [(d.toNat, 1)]
  | .movw _ d _ => [(d.toNat, 1)]
  | .fadd _ d a b => [(d.toNat, 1), (a.toNat, 1), (b.toNat, 1)]
  | .fsub _ d a b => [(d.toNat, 1), (a.toNat, 1), (b.toNat, 1)]
  | .fmul _ d a b => [(d.toNat, 1), (a.toNat, 1), (b.toNat, 1)]
  | .ffma _ d a b => [(d.toNat, 1), (a.toNat, 1), (b.toNat, 1)]
  | .fmin _ d a b => [(d.toNat, 1), (a.toNat, 1), (b.toNat, 1)]
  | .fmax _ d a b => [(d.toNat, 1), (a.toNat, 1), (b.toNat, 1)]
  | .fdiv _ d a b => [(d.toNat, 1), (a.toNat, 1), (b.toNat, 1)]
  | .fseq _ d a b => [(d.toNat, 1), (a.toNat, 1), (b.toNat, 1)]
  | .fslt _ d a b => [(d.toNat, 1), (a.toNat, 1), (b.toNat, 1)]
  | .fsle _ d a b => [(d.toNat, 1), (a.toNat, 1), (b.toNat, 1)]
  | .fsun _ d a b => [(d.toNat, 1), (a.toNat, 1), (b.toNat, 1)]
  | .fcpys _ d a b => [(d.toNat, 1), (a.toNat, 1), (b.toNat, 1)]
  | .fsqrt _ d a => [(d.toNat, 1), (a.toNat, 1)]
  | .frcp _ d a => [(d.toNat, 1), (a.toNat, 1)]
  | .frsq _ d a => [(d.toNat, 1), (a.toNat, 1)]
  | .fexp2 _ d a => [(d.toNat, 1), (a.toNat, 1)]
  | .flog2 _ d a => [(d.toNat, 1), (a.toNat, 1)]
  | .fabs _ d a => [(d.toNat, 1), (a.toNat, 1)]
  | .fneg _ d a => [(d.toNat, 1), (a.toNat, 1)]
  | .hadd2 _ d a b => [(d.toNat, 1), (a.toNat, 1), (b.toNat, 1)]
  | .hmul2 _ d a b => [(d.toNat, 1), (a.toNat, 1), (b.toNat, 1)]
  | .hfma2 _ d a b => [(d.toNat, 1), (a.toNat, 1), (b.toNat, 1)]
  | .hmax2 _ d a b => [(d.toNat, 1), (a.toNat, 1), (b.toNat, 1)]
  | .eadd2 _ d a b => [(d.toNat, 1), (a.toNat, 1), (b.toNat, 1)]
  | .emul2 _ d a b => [(d.toNat, 1), (a.toNat, 1), (b.toNat, 1)]
  | .efma2 _ d a b => [(d.toNat, 1), (a.toNat, 1), (b.toNat, 1)]
  | .emax2 _ d a b => [(d.toNat, 1), (a.toNat, 1), (b.toNat, 1)]
  | .cvtF32Sw _ d a => [(d.toNat, 1), (a.toNat, 1)]
  | .cvtF32Uw _ d a => [(d.toNat, 1), (a.toNat, 1)]
  | .cvtSwF32 _ d a => [(d.toNat, 1), (a.toNat, 1)]
  | .cvtSwF32Rn _ d a => [(d.toNat, 1), (a.toNat, 1)]
  | .cvtUwF32 _ d a => [(d.toNat, 1), (a.toNat, 1)]
  | .cvtBf16F32 _ d a b => [(d.toNat, 1), (a.toNat, 1), (b.toNat, 1)]
  | .cvtBf16F32Sr _ d a b => [(d.toNat, 1), (a.toNat, 1), (b.toNat, 1)]
  | .cvtFp16F32 _ d a b => [(d.toNat, 1), (a.toNat, 1), (b.toNat, 1)]
  | .cvtF32Bf16 _ d a => [(d.toNat, 1), (a.toNat, 1)]
  | .cvtF32Fp16 _ d a => [(d.toNat, 1), (a.toNat, 1)]
  | .cvtLc8F32 _ d a => [(d.toNat, 1), (a.toNat, 1)]
  | .cvtF32Lc8 _ d a => [(d.toNat, 1), (a.toNat, 1)]
  | .cvtI8F32 _ d a => [(d.toNat, 1), (a.toNat, 1)]
  | .bez _ d _ => [(d.toNat, 1)]
  | .bnz _ d _ => [(d.toNat, 1)]
  | .callr _ a => [(a.toNat, 1)]
  | .jr _ a => [(a.toNat, 1)]
  | .looph _ d _ => [(d.toNat, 1)]
  | .loope _ d _ => [(d.toNat, 1)]
  | .shfl _ d a b => [(d.toNat, 1), (a.toNat, 1), (b.toNat, 1)]
  | .shflx _ d a b => [(d.toNat, 1), (a.toNat, 1), (b.toNat, 1)]
  | .shflu _ d a b => [(d.toNat, 1), (a.toNat, 1), (b.toNat, 1)]
  | .shfld _ d a b => [(d.toNat, 1), (a.toNat, 1), (b.toNat, 1)]
  | .vany _ d a => [(d.toNat, 1), (a.toNat, 1)]
  | .vall _ d a => [(d.toNat, 1), (a.toNat, 1)]
  | .vbal _ d a => [(d.toNat, 1), (a.toNat, 1)]
  | .matchOp _ d a => [(d.toNat, 1), (a.toNat, 1)]
  | .gsum _ d a => [(d.toNat, 1), (a.toNat, 1)]
  | .lanes _ d => [(d.toNat, 1)]
  | .clki _ d => [(d.toNat, 4)]
  | .mfs _ d _ => [(d.toNat, 1)]
  | .mts _ d _ => [(d.toNat, 1)]
  | .ldb _ d a _ => [(d.toNat, 1), (a.toNat, 2)]
  | .ldbs _ d a _ => [(d.toNat, 1), (a.toNat, 2)]
  | .ldh _ d a _ => [(d.toNat, 1), (a.toNat, 2)]
  | .ldhs _ d a _ => [(d.toNat, 1), (a.toNat, 2)]
  | .ldw _ d a _ => [(d.toNat, 1), (a.toNat, 2)]
  | .ldd _ d a _ => [(d.toNat, 2), (a.toNat, 2)]
  | .ldq _ d a _ => [(d.toNat, 4), (a.toNat, 2)]
  | .stb _ d a _ => [(d.toNat, 1), (a.toNat, 2)]
  | .sth _ d a _ => [(d.toNat, 1), (a.toNat, 2)]
  | .stw _ d a _ => [(d.toNat, 1), (a.toNat, 2)]
  | .std _ d a _ => [(d.toNat, 2), (a.toNat, 2)]
  | .stq _ d a _ => [(d.toNat, 4), (a.toNat, 2)]
  | .ldc _ d a _ => [(d.toNat, 1), (a.toNat, 2)]
  | .ldcd _ d a _ => [(d.toNat, 2), (a.toNat, 2)]
  | .ldbx _ d a b => [(d.toNat, 1), (a.toNat, 2), (b.toNat, 1)]
  | .ldbsx _ d a b => [(d.toNat, 1), (a.toNat, 2), (b.toNat, 1)]
  | .ldhx _ d a b => [(d.toNat, 1), (a.toNat, 2), (b.toNat, 1)]
  | .ldhsx _ d a b => [(d.toNat, 1), (a.toNat, 2), (b.toNat, 1)]
  | .ldwx _ d a b => [(d.toNat, 1), (a.toNat, 2), (b.toNat, 1)]
  | .lddx _ d a b => [(d.toNat, 2), (a.toNat, 2), (b.toNat, 1)]
  | .ldqx _ d a b => [(d.toNat, 4), (a.toNat, 2), (b.toNat, 1)]
  | .stbx _ d a b => [(d.toNat, 1), (a.toNat, 2), (b.toNat, 1)]
  | .sthx _ d a b => [(d.toNat, 1), (a.toNat, 2), (b.toNat, 1)]
  | .stwx _ d a b => [(d.toNat, 1), (a.toNat, 2), (b.toNat, 1)]
  | .stdx _ d a b => [(d.toNat, 2), (a.toNat, 2), (b.toNat, 1)]
  | .stqx _ d a b => [(d.toNat, 4), (a.toNat, 2), (b.toNat, 1)]
  | .ldcx _ d a b => [(d.toNat, 1), (a.toNat, 2), (b.toNat, 1)]
  | .ldcdx _ d a b => [(d.toNat, 2), (a.toNat, 2), (b.toNat, 1)]
  | .slacq _ d a b => [(d.toNat, 1), (a.toNat, 2), (b.toNat, 1)]
  | .slrel _ a => [(a.toNat, 2)]
  | .bara _ _ _ a => [(a.toNat, 1)]
  | .bar _ _ _ a => [(a.toNat, 1)]
  | .barx _ _ _ a => [(a.toNat, 2)]
  | .mon _ d a => [(d.toNat, 1), (a.toNat, 2)]
  | .mwait _ d a => [(d.toNat, 1), (a.toNat, 2)]
  | .amoAdd _ _ d a _ b => [(d.toNat, 1), (2 * a.toNat, 2), (b.toNat, 1)]
  | .amoAnd _ _ d a _ b => [(d.toNat, 1), (2 * a.toNat, 2), (b.toNat, 1)]
  | .amoOr _ _ d a _ b => [(d.toNat, 1), (2 * a.toNat, 2), (b.toNat, 1)]
  | .amoXor _ _ d a _ b => [(d.toNat, 1), (2 * a.toNat, 2), (b.toNat, 1)]
  | .amoMin _ _ d a _ b => [(d.toNat, 1), (2 * a.toNat, 2), (b.toNat, 1)]
  | .amoMax _ _ d a _ b => [(d.toNat, 1), (2 * a.toNat, 2), (b.toNat, 1)]
  | .amoXchg _ _ d a _ b => [(d.toNat, 1), (2 * a.toNat, 2), (b.toNat, 1)]
  | .amoFadd _ _ d a _ b => [(d.toNat, 1), (2 * a.toNat, 2), (b.toNat, 1)]
  | .amoMinu _ _ d a _ b => [(d.toNat, 1), (2 * a.toNat, 2), (b.toNat, 1)]
  | .amoMaxu _ _ d a _ b => [(d.toNat, 1), (2 * a.toNat, 2), (b.toNat, 1)]
  | .amoAdd64 _ _ d a _ b => [(d.toNat, 2), (2 * a.toNat, 2), (b.toNat, 2)]
  | .casW _ _ d a _ b => [(d.toNat, 1), (2 * a.toNat, 2), (b.toNat, 1)]
  | .casD _ _ d a _ b => [(d.toNat, 2), (2 * a.toNat, 2), (b.toNat, 2)]
  | .gts _ _ d a _ b => [(d.toNat, 2), (2 * a.toNat, 2), (b.toNat, 2)]
  | .vcas _ _ d a _ b => [(d.toNat, 2), (2 * a.toNat, 2), (b.toNat, 2)]
  | .tcas _ _ d a _ b => [(d.toNat, 2), (2 * a.toNat, 2), (b.toNat, 2)]
  | .redAdd _ _ _ a b => [(2 * a.toNat, 2), (b.toNat, 1)]
  | .redAnd _ _ _ a b => [(2 * a.toNat, 2), (b.toNat, 1)]
  | .redOr _ _ _ a b => [(2 * a.toNat, 2), (b.toNat, 1)]
  | .redXor _ _ _ a b => [(2 * a.toNat, 2), (b.toNat, 1)]
  | .redMin _ _ _ a b => [(2 * a.toNat, 2), (b.toNat, 1)]
  | .redMax _ _ _ a b => [(2 * a.toNat, 2), (b.toNat, 1)]
  | .redMinu _ _ _ a b => [(2 * a.toNat, 2), (b.toNat, 1)]
  | .redMaxu _ _ _ a b => [(2 * a.toNat, 2), (b.toNat, 1)]
  | .redFadd _ _ _ a b => [(2 * a.toNat, 2), (b.toNat, 1)]
  | .redHadd2 _ _ _ a b => [(2 * a.toNat, 2), (b.toNat, 1)]
  | .redFmin _ _ _ a b => [(2 * a.toNat, 2), (b.toNat, 1)]
  | .redFmax _ _ _ a b => [(2 * a.toNat, 2), (b.toNat, 1)]
  | .txe d => [(d.toNat, 1)]
  | .stst _ d a b => [(d.toNat, 2), (a.toNat, 2), (b.toNat, 1)]
  | .ststd _ d a b => [(d.toNat, 2), (a.toNat, 2), (b.toNat, 2)]
  | .cwait _ d a => [(d.toNat, 1), (a.toNat, 2)]
  | .ldas _ d a b => [(d.toNat, 2), (a.toNat, 2), (b.toNat, 2)]
  | .pdisc _ d a b => [(d.toNat, 1), (a.toNat, 2), (b.toNat, 1)]
  | .pmove _ d a b => [(d.toNat, 1), (a.toNat, 2), (b.toNat, 2)]
  | .lease _ d a b => [(d.toNat, 1), (a.toNat, 1), (b.toNat, 1)]
  | .lwait _ d a => [(d.toNat, 1), (a.toNat, 1)]
  | .lrel _ d a => [(d.toNat, 1), (a.toNat, 1)]
  | .lstat _ d a => [(d.toNat, 1), (a.toNat, 1)]
  | .tcopy _ d a b => [(d.toNat, 1), (a.toNat, 2), (b.toNat, 1)]
  | .tcopym _ d a b => [(d.toNat, 1), (a.toNat, 2), (b.toNat, 1)]
  | .gath _ d a b => [(d.toNat, 1), (a.toNat, 2), (b.toNat, 1)]
  | .scat _ d a b => [(d.toNat, 1), (a.toNat, 2), (b.toNat, 1)]
  | .coll _ d a b => [(d.toNat, 1), (a.toNat, 2), (b.toNat, 1)]
  | .vdec _ d a b => [(d.toNat, 1), (a.toNat, 2), (b.toNat, 1)]
  | .qfence _ d a => [(d.toNat, 1), (a.toNat, 2)]
  | .bseal _ d => [(d.toNat, 1)]
  | .bwait _ d a => [(d.toNat, 1), (a.toNat, 1)]
  | .bstat _ d a => [(d.toNat, 4), (a.toNat, 1)]
  | .mxma _ d a b => [(d.toNat, 1), (a.toNat, 1), (b.toNat, 1)]
  | .accz _ d => [(d.toNat, 1)]
  | .accout _ d a => [(d.toNat, 1), (a.toNat, 1)]
  | .talloc _ d => [(d.toNat, 1)]
  | .tfree _ d a => [(d.toNat, 1), (a.toNat, 1)]
  | .tstate _ d a => [(d.toNat, 1), (a.toNat, 1)]
  | .tset _ d a => [(d.toNat, 1), (a.toNat, 1)]
  | .twait _ d a b => [(d.toNat, 1), (a.toNat, 1), (b.toNat, 1)]
  | .ldt _ d a b => [(d.toNat, 4), (a.toNat, 1), (b.toNat, 1)]
  | .stt _ d a b => [(d.toNat, 4), (a.toNat, 1), (b.toNat, 1)]
  | .rclaim _ d _ => [(d.toNat, 1)]
  | .rpool _ d => [(d.toNat, 1)]
  | .spawn _ d a b => [(d.toNat, 1), (a.toNat, 1), (b.toNat, 1), (b.toNat + 1, 1), (b.toNat + 2, 1), (b.toNat + 3, 1), (b.toNat + 4, 1), (b.toNat + 5, 1)]
  | .tokw _ d => [(d.toNat, 1)]
  | .tokp _ d => [(d.toNat, 1)]
  | .rndb _ d => [(d.toNat, 1)]
  | .mfsr _ d _ => [(d.toNat, 1)]
  | .mtsr _ d _ => [(d.toNat, 1)]
  | .tlbi _ d a b => [(d.toNat, 1), (a.toNat, 2), (b.toNat, 1)]
  | .halt a => [(a.toNat, 1)]
  | .ctxsav _ d a => [(d.toNat, 1), (a.toNat, 2)]
  | .ctxres _ d a b => [(d.toNat, 1), (a.toNat, 2), (b.toNat, 1)]
  | .sysc _ _ => [(8, 1), (9, 1), (10, 1), (11, 1), (12, 1), (13, 1)]
  | _ => []

/-- The switch marker S of a word; the five instructions that must carry S = 1 have it set (R58). -/
def switchMarker : Instr → Bool
  | .add s _ _ _ => s
  | .sub s _ _ _ => s
  | .mul s _ _ _ => s
  | .mulh s _ _ _ => s
  | .mulhu s _ _ _ => s
  | .mad s _ _ _ => s
  | .divu s _ _ _ => s
  | .remu s _ _ _ => s
  | .and s _ _ _ => s
  | .or s _ _ _ => s
  | .xor s _ _ _ => s
  | .andn s _ _ _ => s
  | .shl s _ _ _ => s
  | .shr s _ _ _ => s
  | .sra s _ _ _ => s
  | .rot s _ _ _ => s
  | .min s _ _ _ => s
  | .max s _ _ _ => s
  | .minu s _ _ _ => s
  | .maxu s _ _ _ => s
  | .seq s _ _ _ => s
  | .sne s _ _ _ => s
  | .slt s _ _ _ => s
  | .sltu s _ _ _ => s
  | .sle s _ _ _ => s
  | .sleu s _ _ _ => s
  | .cmovz s _ _ _ => s
  | .cmovn s _ _ _ => s
  | .add64 s _ _ _ => s
  | .sub64 s _ _ _ => s
  | .mul64 s _ _ _ => s
  | .addx s _ _ _ => s
  | .addx4 s _ _ _ => s
  | .bfx s _ _ _ => s
  | .bfxs s _ _ _ => s
  | .bfi s _ _ _ => s
  | .addi s _ _ _ => s
  | .nop s => s
  | .andi s _ _ _ => s
  | .ori s _ _ _ => s
  | .xori s _ _ _ => s
  | .shli s _ _ _ => s
  | .shri s _ _ _ => s
  | .srai s _ _ _ => s
  | .slti s _ _ _ => s
  | .sltui s _ _ _ => s
  | .seqi s _ _ _ => s
  | .muli s _ _ _ => s
  | .add64i s _ _ _ => s
  | .clz s _ _ => s
  | .popc s _ _ => s
  | .brev s _ _ => s
  | .abs s _ _ => s
  | .sexb s _ _ => s
  | .sexh s _ _ => s
  | .movi s _ _ => s
  | .movw s _ _ => s
  | .fadd s _ _ _ => s
  | .fsub s _ _ _ => s
  | .fmul s _ _ _ => s
  | .ffma s _ _ _ => s
  | .fmin s _ _ _ => s
  | .fmax s _ _ _ => s
  | .fdiv s _ _ _ => s
  | .fseq s _ _ _ => s
  | .fslt s _ _ _ => s
  | .fsle s _ _ _ => s
  | .fsun s _ _ _ => s
  | .fcpys s _ _ _ => s
  | .fsqrt s _ _ => s
  | .frcp s _ _ => s
  | .frsq s _ _ => s
  | .fexp2 s _ _ => s
  | .flog2 s _ _ => s
  | .fabs s _ _ => s
  | .fneg s _ _ => s
  | .hadd2 s _ _ _ => s
  | .hmul2 s _ _ _ => s
  | .hfma2 s _ _ _ => s
  | .hmax2 s _ _ _ => s
  | .eadd2 s _ _ _ => s
  | .emul2 s _ _ _ => s
  | .efma2 s _ _ _ => s
  | .emax2 s _ _ _ => s
  | .cvtF32Sw s _ _ => s
  | .cvtF32Uw s _ _ => s
  | .cvtSwF32 s _ _ => s
  | .cvtSwF32Rn s _ _ => s
  | .cvtUwF32 s _ _ => s
  | .cvtBf16F32 s _ _ _ => s
  | .cvtBf16F32Sr s _ _ _ => s
  | .cvtFp16F32 s _ _ _ => s
  | .cvtF32Bf16 s _ _ => s
  | .cvtF32Fp16 s _ _ => s
  | .cvtLc8F32 s _ _ => s
  | .cvtF32Lc8 s _ _ => s
  | .cvtI8F32 s _ _ => s
  | .br s _ => s
  | .call s _ => s
  | .bez s _ _ => s
  | .bnz s _ _ => s
  | .callr s _ => s
  | .jr s _ => s
  | .ret s => s
  | .looph s _ _ => s
  | .loope s _ _ => s
  | .wbase s _ => s
  | .wbadj s _ => s
  | .exit s => s
  | .trap s _ => s
  | .brk s _ => s
  | .shfl s _ _ _ => s
  | .shflx s _ _ _ => s
  | .shflu s _ _ _ => s
  | .shfld s _ _ _ => s
  | .vany s _ _ => s
  | .vall s _ _ => s
  | .vbal s _ _ => s
  | .matchOp s _ _ => s
  | .gsum s _ _ => s
  | .lanes s _ => s
  | .clki s _ => s
  | .mfs s _ _ => s
  | .mts s _ _ => s
  | .ldb s _ _ _ => s
  | .ldbs s _ _ _ => s
  | .ldh s _ _ _ => s
  | .ldhs s _ _ _ => s
  | .ldw s _ _ _ => s
  | .ldd s _ _ _ => s
  | .ldq s _ _ _ => s
  | .stb s _ _ _ => s
  | .sth s _ _ _ => s
  | .stw s _ _ _ => s
  | .std s _ _ _ => s
  | .stq s _ _ _ => s
  | .ldc s _ _ _ => s
  | .ldcd s _ _ _ => s
  | .ldbx s _ _ _ => s
  | .ldbsx s _ _ _ => s
  | .ldhx s _ _ _ => s
  | .ldhsx s _ _ _ => s
  | .ldwx s _ _ _ => s
  | .lddx s _ _ _ => s
  | .ldqx s _ _ _ => s
  | .stbx s _ _ _ => s
  | .sthx s _ _ _ => s
  | .stwx s _ _ _ => s
  | .stdx s _ _ _ => s
  | .stqx s _ _ _ => s
  | .ldcx s _ _ _ => s
  | .ldcdx s _ _ _ => s
  | .fence s _ _ _ => s
  | .pfence s _ _ => s
  | .slacq s _ _ _ => s
  | .slrel s _ => s
  | .bara s _ _ _ => s
  | .barw s _ _ => s
  | .bar s _ _ _ => s
  | .barx s _ _ _ => s
  | .mon s _ _ => s
  | .mwait s _ _ => s
  | .amoAdd s _ _ _ _ _ => s
  | .amoAnd s _ _ _ _ _ => s
  | .amoOr s _ _ _ _ _ => s
  | .amoXor s _ _ _ _ _ => s
  | .amoMin s _ _ _ _ _ => s
  | .amoMax s _ _ _ _ _ => s
  | .amoXchg s _ _ _ _ _ => s
  | .amoFadd s _ _ _ _ _ => s
  | .amoMinu s _ _ _ _ _ => s
  | .amoMaxu s _ _ _ _ _ => s
  | .amoAdd64 s _ _ _ _ _ => s
  | .casW s _ _ _ _ _ => s
  | .casD s _ _ _ _ _ => s
  | .gts s _ _ _ _ _ => s
  | .vcas s _ _ _ _ _ => s
  | .tcas s _ _ _ _ _ => s
  | .redAdd s _ _ _ _ => s
  | .redAnd s _ _ _ _ => s
  | .redOr s _ _ _ _ => s
  | .redXor s _ _ _ _ => s
  | .redMin s _ _ _ _ => s
  | .redMax s _ _ _ _ => s
  | .redMinu s _ _ _ _ => s
  | .redMaxu s _ _ _ _ => s
  | .redFadd s _ _ _ _ => s
  | .redHadd2 s _ _ _ _ => s
  | .redFmin s _ _ _ _ => s
  | .redFmax s _ _ _ _ => s
  | .txb s _ => s
  | .stst s _ _ _ => s
  | .ststd s _ _ _ => s
  | .cwait s _ _ => s
  | .ldas s _ _ _ => s
  | .pdisc s _ _ _ => s
  | .pmove s _ _ _ => s
  | .lease s _ _ _ => s
  | .lwait s _ _ => s
  | .lrel s _ _ => s
  | .lstat s _ _ => s
  | .tcopy s _ _ _ => s
  | .tcopym s _ _ _ => s
  | .gath s _ _ _ => s
  | .scat s _ _ _ => s
  | .coll s _ _ _ => s
  | .vdec s _ _ _ => s
  | .qfence s _ _ => s
  | .bseal s _ => s
  | .bwait s _ _ => s
  | .bstat s _ _ => s
  | .mxma s _ _ _ => s
  | .accz s _ => s
  | .accout s _ _ => s
  | .talloc s _ => s
  | .tfree s _ _ => s
  | .tstate s _ _ => s
  | .tset s _ _ => s
  | .twait s _ _ _ => s
  | .ldt s _ _ _ => s
  | .stt s _ _ _ => s
  | .rclaim s _ _ => s
  | .rpool s _ => s
  | .spawn s _ _ _ => s
  | .tokw s _ => s
  | .tokp s _ => s
  | .rndb s _ => s
  | .mfsr s _ _ => s
  | .mtsr s _ _ => s
  | .tlbi s _ _ _ => s
  | .ctxsav s _ _ => s
  | .ctxres s _ _ _ => s
  | .sysc s _ => s
  | .txe _ => true
  | .txa _ => true
  | .rgive _ => true
  | .eret => true
  | .halt _ => true
  | _ => false

/-- The waiting instructions (R66). -/
def isWaiting : Instr → Bool
  | .slacq _ _ _ _ => true
  | .mwait _ _ _ => true
  | .cwait _ _ _ => true
  | .bwait _ _ _ => true
  | .barw _ _ _ => true
  | .bar _ _ _ _ => true
  | .barx _ _ _ _ => true
  | .lwait _ _ _ => true
  | .rclaim _ _ _ => true
  | .twait _ _ _ _ => true
  | .tokw _ _ => true
  | .txb _ _ => true
  | _ => false

/-- Instructions that close their run by their kind (R58). -/
def closesByKind : Instr → Bool
  | .br _ _ => true
  | .call _ _ => true
  | .bez _ _ _ => true
  | .bnz _ _ _ => true
  | .loope _ _ _ => true
  | .callr _ _ => true
  | .jr _ _ => true
  | .ret _ => true
  | .exit _ => true
  | .trap _ _ => true
  | .brk _ _ => true
  | .eret => true
  | .sysc _ _ => true
  | .wbase _ _ => true
  | .wbadj _ _ => true
  | .slacq _ _ _ _ => true
  | .mwait _ _ _ => true
  | .cwait _ _ _ => true
  | .bwait _ _ _ => true
  | .barw _ _ _ => true
  | .bar _ _ _ _ => true
  | .barx _ _ _ _ => true
  | .lwait _ _ _ => true
  | .rclaim _ _ _ => true
  | .twait _ _ _ _ => true
  | .tokw _ _ => true
  | .txb _ _ => true
  | _ => false

/-- Indices 0 to 6 of group 0xE, privileged (R55, R243). -/
def isPrivileged : Instr → Bool
  | .mfsr _ _ _ => true
  | .mtsr _ _ _ => true
  | .tlbi _ _ _ _ => true
  | .eret => true
  | .halt _ => true
  | .ctxsav _ _ _ => true
  | .ctxres _ _ _ _ => true
  | _ => false

/-- Instructions that only sub-group 0 may issue (R25). -/
def isProducer : Instr → Bool
  | .tcopy _ _ _ _ => true
  | .tcopym _ _ _ _ => true
  | .gath _ _ _ _ => true
  | .scat _ _ _ _ => true
  | .vdec _ _ _ _ => true
  | _ => false

/-- Loads of the ordinary and constant paths, MON included (R22). -/
def isLoadGroup : Instr → Bool
  | .ldb _ _ _ _ => true
  | .ldbs _ _ _ _ => true
  | .ldh _ _ _ _ => true
  | .ldhs _ _ _ _ => true
  | .ldw _ _ _ _ => true
  | .ldd _ _ _ _ => true
  | .ldq _ _ _ _ => true
  | .ldc _ _ _ _ => true
  | .ldcd _ _ _ _ => true
  | .ldbx _ _ _ _ => true
  | .ldbsx _ _ _ _ => true
  | .ldhx _ _ _ _ => true
  | .ldhsx _ _ _ _ => true
  | .ldwx _ _ _ _ => true
  | .lddx _ _ _ _ => true
  | .ldqx _ _ _ _ => true
  | .ldcx _ _ _ _ => true
  | .ldcdx _ _ _ _ => true
  | .mon _ _ _ => true
  | .ldas _ _ _ _ => true
  | _ => false

/-- What an active transaction lets its thread do (R179); a scratchpad address still aborts. -/
def txAllowed : Instr → Bool
  | .add _ _ _ _ => true
  | .sub _ _ _ _ => true
  | .mul _ _ _ _ => true
  | .mulh _ _ _ _ => true
  | .mulhu _ _ _ _ => true
  | .mad _ _ _ _ => true
  | .divu _ _ _ _ => true
  | .remu _ _ _ _ => true
  | .and _ _ _ _ => true
  | .or _ _ _ _ => true
  | .xor _ _ _ _ => true
  | .andn _ _ _ _ => true
  | .shl _ _ _ _ => true
  | .shr _ _ _ _ => true
  | .sra _ _ _ _ => true
  | .rot _ _ _ _ => true
  | .min _ _ _ _ => true
  | .max _ _ _ _ => true
  | .minu _ _ _ _ => true
  | .maxu _ _ _ _ => true
  | .seq _ _ _ _ => true
  | .sne _ _ _ _ => true
  | .slt _ _ _ _ => true
  | .sltu _ _ _ _ => true
  | .sle _ _ _ _ => true
  | .sleu _ _ _ _ => true
  | .cmovz _ _ _ _ => true
  | .cmovn _ _ _ _ => true
  | .add64 _ _ _ _ => true
  | .sub64 _ _ _ _ => true
  | .mul64 _ _ _ _ => true
  | .addx _ _ _ _ => true
  | .addx4 _ _ _ _ => true
  | .bfx _ _ _ _ => true
  | .bfxs _ _ _ _ => true
  | .bfi _ _ _ _ => true
  | .addi _ _ _ _ => true
  | .nop _ => true
  | .andi _ _ _ _ => true
  | .ori _ _ _ _ => true
  | .xori _ _ _ _ => true
  | .shli _ _ _ _ => true
  | .shri _ _ _ _ => true
  | .srai _ _ _ _ => true
  | .slti _ _ _ _ => true
  | .sltui _ _ _ _ => true
  | .seqi _ _ _ _ => true
  | .muli _ _ _ _ => true
  | .add64i _ _ _ _ => true
  | .clz _ _ _ => true
  | .popc _ _ _ => true
  | .brev _ _ _ => true
  | .abs _ _ _ => true
  | .sexb _ _ _ => true
  | .sexh _ _ _ => true
  | .movi _ _ _ => true
  | .movw _ _ _ => true
  | .fadd _ _ _ _ => true
  | .fsub _ _ _ _ => true
  | .fmul _ _ _ _ => true
  | .ffma _ _ _ _ => true
  | .fmin _ _ _ _ => true
  | .fmax _ _ _ _ => true
  | .fdiv _ _ _ _ => true
  | .fseq _ _ _ _ => true
  | .fslt _ _ _ _ => true
  | .fsle _ _ _ _ => true
  | .fsun _ _ _ _ => true
  | .fcpys _ _ _ _ => true
  | .fsqrt _ _ _ => true
  | .frcp _ _ _ => true
  | .frsq _ _ _ => true
  | .fexp2 _ _ _ => true
  | .flog2 _ _ _ => true
  | .fabs _ _ _ => true
  | .fneg _ _ _ => true
  | .hadd2 _ _ _ _ => true
  | .hmul2 _ _ _ _ => true
  | .hfma2 _ _ _ _ => true
  | .hmax2 _ _ _ _ => true
  | .eadd2 _ _ _ _ => true
  | .emul2 _ _ _ _ => true
  | .efma2 _ _ _ _ => true
  | .emax2 _ _ _ _ => true
  | .cvtF32Sw _ _ _ => true
  | .cvtF32Uw _ _ _ => true
  | .cvtSwF32 _ _ _ => true
  | .cvtSwF32Rn _ _ _ => true
  | .cvtUwF32 _ _ _ => true
  | .cvtBf16F32 _ _ _ _ => true
  | .cvtBf16F32Sr _ _ _ _ => true
  | .cvtFp16F32 _ _ _ _ => true
  | .cvtF32Bf16 _ _ _ => true
  | .cvtF32Fp16 _ _ _ => true
  | .cvtLc8F32 _ _ _ => true
  | .cvtF32Lc8 _ _ _ => true
  | .cvtI8F32 _ _ _ => true
  | .br _ _ => true
  | .bez _ _ _ => true
  | .bnz _ _ _ => true
  | .looph _ _ _ => true
  | .loope _ _ _ => true
  | .wbase _ _ => true
  | .wbadj _ _ => true
  | .trap _ _ => true
  | .brk _ _ => true
  | .shfl _ _ _ _ => true
  | .shflx _ _ _ _ => true
  | .shflu _ _ _ _ => true
  | .shfld _ _ _ _ => true
  | .vany _ _ _ => true
  | .vall _ _ _ => true
  | .vbal _ _ _ => true
  | .matchOp _ _ _ => true
  | .gsum _ _ _ => true
  | .lanes _ _ => true
  | .clki _ _ => true
  | .mfs _ _ _ => true
  | .mts _ _ _ => true
  | .rndb _ _ => true
  | .txa _ => true
  | .txe _ => true
  | .ldb _ _ _ _ => true
  | .ldbs _ _ _ _ => true
  | .ldh _ _ _ _ => true
  | .ldhs _ _ _ _ => true
  | .ldw _ _ _ _ => true
  | .ldd _ _ _ _ => true
  | .ldq _ _ _ _ => true
  | .ldbx _ _ _ _ => true
  | .ldbsx _ _ _ _ => true
  | .ldhx _ _ _ _ => true
  | .ldhsx _ _ _ _ => true
  | .ldwx _ _ _ _ => true
  | .lddx _ _ _ _ => true
  | .ldqx _ _ _ _ => true
  | .stb _ _ _ _ => true
  | .sth _ _ _ _ => true
  | .stw _ _ _ _ => true
  | .std _ _ _ _ => true
  | .stq _ _ _ _ => true
  | .stbx _ _ _ _ => true
  | .sthx _ _ _ _ => true
  | .stwx _ _ _ _ => true
  | .stdx _ _ _ _ => true
  | .stqx _ _ _ _ => true
  | _ => false

/-- Whether an instruction closes its run (R58): by S, by its kind, or as the 64th. -/
def closesRun (i : Instr) (runLen : Nat) : Bool := switchMarker i || closesByKind i || decide (63 ≤ runLen)

/-- The address of a load or store, immediate form (R150): the offset counts units of the access size. -/
def addrImm (t : Thread) (a : Reg) (m : BitVec 7) (n : Nat) : Nat := addMod64 (t.readPair a.toNat) (m.toInt * n)

/-- The address of a load or store, indexed form (R150): the offset counts bytes. -/
def addrIdx (t : Thread) (a b : Reg) : Nat := addMod64 (t.readPair a.toNat) (t.readW b.toNat).toInt

/-- The address of an atomic or reduction (R167, R173): the pair of its six-bit field. -/
def addrPair6 (t : Thread) (a : BitVec 6) : Nat := t.readPair (2 * a.toNat)

/-- A trap with an operand. -/
def trapOf (code : TrapCode) (operand : Nat) : Option TrapInfo := some { code := code, operand := operand }

/-- The checks of R150 on an ordinary or constant access, in their order. -/
def accessCheck (s : State) (l : Launch) (core : Nat) (parent : Option Nat) (addr n : Nat) (isStore constant : Bool) : Option TrapInfo :=
  if addr % n != 0 then trapOf .align addr
  else
    let c := classOfRange addr n
    if c == .bad then trapOf .access addr
    else if c == .priv && decide (l.img.priv < addr - Config.privateBase + n) then trapOf .access addr
    else if c == .scratch && !s.granulesOwned l.ctx parent (coreCluster core) addr n then trapOf .access addr
    else if isStore && c == .global && (l.readOnlyAt addr n || l.stampedAt addr n || l.sluiceAt addr n) then trapOf .access addr
    else if constant && c != .global then trapOf .access addr
    else if c == .global && !l.inLease addr n then trapOf .outsideLease addr
    else none

/-- The lines of a polder region that addresses would newly allocate. -/
def newLines (s : State) (l : Launch) (r : Region) (addrs : List Nat) : List Nat :=
  (dedup ((addrs.filter (fun a => r.covers a 1)).map (fun a => a / 128))).filter (fun k => !s.polderLines.contains (l.ctx, k))

/-- POLDER_BREACH at issue, precise (R61, R122, R123): the page is lost, or the access needs a line beyond its region's
capacity once the lower members of the group, at `lower`, have had theirs. -/
def breachCheck (s : State) (l : Launch) (lower : List Nat) (addr : Nat) : Option TrapInfo :=
  match l.polderAt addr with
  | none => none
  | some r =>
    match s.polderPage l.ctx (r.pageOf addr) with
    | some (.lost _) => trapOf .polderBreach addr
    | some (.backed _) => none
    | some (.moved _) | none =>
      let now := newLines s l r lower
      if r.late || s.polderLines.contains (l.ctx, addr / 128) || now.contains (addr / 128) then none
      else if (s.polderHeld l.ctx r + now.length + 1) * 128 ≤ s.polderCap l.ctx r then none
      else trapOf .polderBreach addr

/-- Whether memory outside the module forbids an atomic (R172): the scope is narrower than .sys on system memory, or a
PCIe peer does not carry the operation. -/
def outsideForbids (s : State) (die : Nat) (l : Launch) (addr scope : Nat) (pcieOp : Bool) : Bool :=
  match (s.locate die l addr).bind (fun t => t.phys) with
  | none => false
  | some pa => isSystem pa && (scope != 6 || (isPcie pa && !pcieOp))

/-- The checks of an atomic or reduction (R150, R167, R170, R172, R173, R176, R185). -/
def atomicCheck (s : State) (l : Launch) (core : Nat) (parent : Option Nat) (addr n scope : Nat) (pcieOp det : Bool) : Option TrapInfo :=
  if addr % n != 0 then trapOf .align addr
  else
    let c := classOfRange addr n
    if c == .bad || c == .priv then trapOf .access addr
    else if c == .scratch && (decide (3 ≤ scope) || det || !s.granulesOwned l.ctx parent (coreCluster core) addr n) then trapOf .access addr
    else if c == .global && (l.readOnlyAt addr n || l.stampedAt addr n || l.sluiceAt addr n) then trapOf .access addr
    else if c == .global && !l.inLease addr n then trapOf .outsideLease addr
    else if c == .global && outsideForbids s (coreDie core) l addr scope pcieOp then trapOf .access addr
    else if c == .global && det && (((s.locate (coreDie core) l addr).bind (fun t => t.phys)).any (fun pa => isSystem pa || isPeer pa)) then
      trapOf .access addr
    else none

/-- The checks of MON and MWAIT (R165). -/
def monCheck (s : State) (l : Launch) (core : Nat) (parent : Option Nat) (addr : Nat) : Option TrapInfo :=
  if addr % 4 != 0 then trapOf .align addr
  else
    let c := classOf addr
    if c == .bad || c == .priv then trapOf .access addr
    else if c == .scratch && !s.granulesOwned l.ctx parent (coreCluster core) addr 4 then trapOf .access addr
    else if c == .global && !l.inLease addr 4 then trapOf .outsideLease addr
    else none

/-- Location line of a MON address for its watch (R165): the 128-byte line by location. -/
def watchLine (s : State) (l : Launch) (core addr : Nat) : Nat :=
  match classOf addr with
  | .scratch => (let t := scratchTarget (coreCluster core) addr; scratchKey t.1 t.2 / 128)
  | _ => ((s.locate (coreDie core) l addr).map (fun t => t.key / 128)).getD (addr / 128)

end Sys2Proof.Machine
end

