-- ==== Sys2Proof/Machine/Flags.lean ====
section
/-! DEFINITION. Status values and flag words: comparison results (R127, R133), %txs (R184), %acs (R225), the engine
status values (R203), handles (R194), batch records (R218) and the tile word (R227). The machine has no arithmetic flags
(R94). -/

namespace Sys2Proof.Machine

/-- A comparison's result word (R127, R133): 1 or 0. -/
def flagWord (b : Bool) : Word := if b then 1 else 0

/-- The fields of %txs (R184). -/
def txsWord (code aborts cause state : Nat) : Word :=
  BitVec.ofNat 32 (code * 2 ^ 18 + aborts * 2 ^ 10 + cause * 2 ^ 4 + state)

/-- The abort count of %txs (R184). -/
def txsAborts (w : Word) : Nat := bits w.toNat 17 10

/-- Abort causes (R184). -/
inductive AbortCause where
  | intra | home | capacity | explicit | preempt | fault
  deriving DecidableEq, Repr

/-- The cause's number (R184). -/
def AbortCause.num : AbortCause → Nat
  | .intra => 1 | .home => 2 | .capacity => 3 | .explicit => 4 | .preempt => 5 | .fault => 6

/-- %txs after an abort (R178, R184): aborts with PREEMPT are not counted; the eight-bit count saturates. -/
def txsAbort (old : Word) (cause : AbortCause) (code : Nat) : Word :=
  let n := txsAborts old
  txsWord code (if cause = .preempt then n else if n < 255 then n + 1 else 255) cause.num 2

/-- Bits of %acs (R225). -/
def acsSaturation : Word := 1
def acsVoid : Word := 2
def acsFaulted : Word := 4
def acsEvicted : Word := 8

/-- A write to %acs clears the bits written as 1 (R225, R9). -/
def acsWrite (old v : Word) : Word := old &&& ~~~(v &&& 0xF)

/-- Engine status values (R203). -/
def stAccepted : Word := 0
def stFull : Word := 0xFFFFFFF0
def stEvicted : Word := 0xFFFFFFF1
def stNotEmpty : Word := 0xFFFFFFF2
def stBadHandle : Word := 0xFFFFFFF3
def stAccess : Word := 0xFFFFFFF4
def stNeedKey : Word := 0xFFFFFFF5
def stDenied : Word := 0xFFFFFFF6
def stBusy : Word := 0xFFFFFFF7
def stNoTile : Word := 0xFFFFFFF8
def stGone : Word := 0xFFFFFFF9
def stWrongState : Word := 0xFFFFFFFA

/-- A handle of member 0 (R194). -/
def handleOf (die lease serial : Nat) : Nat := die * 2 ^ 13 + lease * 2 ^ 6 + serial * 2 ^ 2

/-- A ticket word (R195). -/
def ticketWord (ahead die serial : Nat) : Word :=
  BitVec.ofNat 32 (2 ^ 30 + Nat.min ahead 0x3FFF * 2 ^ 16 + die * 2 ^ 13 + serial % 2 ^ 13)

/-- The word of TSTATE (R227). -/
def tileWord (t : Tile) : Word :=
  BitVec.ofNat 32 (t.readers * 2 ^ 16 + t.rows * 2 ^ 7 + t.type * 2 ^ 4 + (if t.fault then 8 else 0) + t.state.num)

/-- A count that saturates at `m`. -/
def satAt (m n : Nat) : Nat := if n < m then n else m

/-- Whether every entry of a batch has completed or been marked not performed (R216). -/
def Batch.done (b : Batch) : Bool := decide (b.entries ≤ b.finished)

/-- The four words of a batch record (R218). -/
def batchWords (b : Batch) : List (Option Word) :=
  let fault := b.saturation != 0 || b.stale != 0 || b.notPerformed != 0 || b.corrupt != 0
  [some (BitVec.ofNat 32 ((if fault then 2 ^ 9 else 0) + (if b.done then 2 ^ 8 else 0) + satAt 255 b.entries)),
   some (BitVec.ofNat 32 (satAt 0xFFFFFFFE b.saturation)),
   some (BitVec.ofNat 32 (satAt 0xFFFFFFFE b.stale)),
   some (BitVec.ofNat 32 (satAt 0xFFFF b.notPerformed * 2 ^ 16 + satAt 0xFFFF b.corrupt))]

end Sys2Proof.Machine
end

