-- ==== Sys2Proof/Machine/Ops.lean ====
section
/-! DEFINITION. The shared operations of every instruction: the issue checks (R57), taking a trap (R61, R249, R254) and
returning from one (R249), transaction aborts (R180), holds (R115, R175), and the frame of an issue (R20, R58-R60). -/

namespace Sys2Proof.Machine

/-- What a meaning answers. -/
abbrev Result1 := Host.Outcome State Fault Refusal

/-- The members of a group, lowest lane first. -/
def State.members (s : State) (g : Group) : List Thread := g.tids.filterMap (fun t => s.threadOf g.ctx g.wg t)

/-- The first member, lowest lane first, that fails a check. -/
def firstFail (ts : List Thread) (chk : Thread → Option TrapInfo) : Option (TrapInfo × Nat) :=
  ts.findSome? (fun t => (chk t).map (fun i => (i, t.tid)))

/-- The first check that fails. -/
def orElse (x y : Option (TrapInfo × Nat)) : Option (TrapInfo × Nat) := match x with
  | some r => some r
  | none => y

/-- Whether every word of a field lies inside the allocation (R63). -/
def fieldInside (t : Thread) (f : Nat × Nat) : Bool := (rangeFrom f.1 f.2).all (fun k => decide (t.phys k < t.alloc))

/-- The WINDOW check of R63: the operand is the field number; where several named fields lie outside, that of the first in the
order d, a, b (DESIGN CHOICE, log 74: the manual says only the field number). -/
def windowCheck (i : Instr) (t : Thread) : Option TrapInfo :=
  match (namedFields i).find? (fun f => !fieldInside t f) with
  | none => none
  | some f => trapOf .window f.1

/-- Whether a group runs in the privileged view (R243). -/
def State.privileged (s : State) (g : Group) : Bool := ((s.launch g.ctx).map (fun l => l.supervisor)).getD false

/-- An index of the privileged view named by MFS or MTS (R64). -/
def userPrivIndex : Instr → Bool
  | .mfs _ _ m => decide (0x2000 ≤ m.toNat)
  | .mts _ _ m => decide (0x2000 ≤ m.toNat)
  | _ => false

/-- Checks 1 to 5 of Table 4 of R57. -/
def earlyChecks (i : Instr) (s : State) (g : Group) : Option (TrapInfo × Nat) :=
  let ts := s.members g
  let all := fun (b : Bool) (code : TrapCode) => if b then firstFail ts (fun _ => trapOf code 0) else none
  orElse (all (!i.wf) .illegal)
    (orElse (all ((isPrivileged i && !s.privileged g) || userPrivIndex i) .priv)
      (orElse (all (isWaiting i && (((s.launch g.ctx).bind (fun l => l.bound g.pc)).isNone)) .bound)
        (orElse (firstFail ts (fun t => if isProducer i && t.sub != 0 then trapOf .streamer 0 else none))
          (firstFail ts (windowCheck i)))))

/-- Operand checks that abort an active transaction instead of trapping (R179). -/
def abortsInstead (c : TrapCode) : Bool := match c with
  | .align | .access | .outsideLease => true
  | _ => false

/-- The checks of Table 4 of R57, in order: the trap and the member its record names. Operand values are not judged in a
member whose active transaction the instruction aborts (R179). -/
def issueFault (i : Instr) (chk : State → Group → Thread → Option TrapInfo) (s : State) (g : Group) : Option (TrapInfo × Nat) :=
  orElse (earlyChecks i s g)
    (firstFail (s.members g) (fun t =>
      if t.tx.active && !txAllowed i then none
      else match chk s g t with
        | none => none
        | some x => if t.tx.active && abortsInstead x.code then none else some x))

/-- Whether an instruction aborts a member's active transaction with FAULT (R179). -/
def txFaults (i : Instr) (chk : State → Group → Thread → Option TrapInfo) (s : State) (g : Group) (t : Thread) : Bool :=
  t.tx.active && (!txAllowed i || ((chk s g t).map (fun x => abortsInstead x.code)).getD false)

/-- Performs the accesses in flight that satisfy a test, oldest first; one that would consume a block known bad stays, for its row
(R366). -/
def drainBy (p : Access → Bool) : List Access → State → State
  | [], s => s
  | a :: as, s =>
    match s.flight.find? (fun x => x.id == a.id && p x) with
    | none => drainBy p as s
    | some b => match s.perform b with
      | .done s1 => drainBy p as (if (s.badRead b).isSome then s else s1)
      | .wait | .breach _ => drainBy p as s

/-- Accesses in flight, oldest first. -/
def State.inOrder (s : State) : List Access := sortBy (fun (x y : Access) => decide (x.id ≤ y.id)) s.flight

/-- The accesses that one may have to wait for: writes taken at an L1 or cluster unit (R260), moving pages (R124), and those of its
own workgroup, its thread's earlier ones (R262) and those of an issue's lower lanes (R151) among them. -/
def State.aheadOf (s : State) (p : Access → Bool) (a : Access) : Bool :=
  a.taken != 0 || (match a.op with | .move _ _ _ => true | _ => false) || s.flight.any (fun b => p b && b.ctx == a.ctx && b.wg == a.wg)

/-- A block known bad that an access in flight would consume, of those that satisfy a test: the access, and the block (R366). -/
def State.badPending (s : State) (p : Access → Bool) : Option (Access × Nat × Nat × Word) :=
  if s.badCheck.isEmpty then none else s.inOrder.findSome? (fun a => if p a then (s.badRead a).map (fun b => (a, b)) else none)

/-- Rounds of performing: the accesses that satisfy a test twice over, since a store taken in L1 has its home still to reach; where
some are left, what they may wait for, and they again. -/
def drainRounds (p ahead : Access → Bool) : Nat → State → State
  | 0, s => s
  | k + 1, s =>
    let s1 := drainBy p s.inOrder s
    let s2 := drainBy p s1.inOrder s1
    if s2.flight.any p then drainRounds p ahead k (drainBy ahead s2.inOrder s2) else s2

/-- The accesses that satisfy a test all perform: each round performs one or takes it in its L1, so that twice as many rounds as
there are accesses are enough. -/
def State.drain (s : State) (p : Access → Bool) : State := drainRounds p (s.aheadOf p) (2 * s.flight.length + 1) s

/-- Every earlier instruction of a thread's run performs (R61). -/
def State.drainRun (s : State) (ctx wg tid : Nat) : State := s.drain (fun a => a.ctx == ctx && a.wg == wg && a.tid == tid)

/-- A thread as its trap handler finds it (R249): the run's results are committed, and it stands at %tvec. -/
def Thread.vector (t : Thread) (pc : Nat) (i : TrapInfo) : Thread :=
  { t.commit with
    pc := t.tvec.toNat,
    epc := BitVec.ofNat 32 pc,
    ecause := BitVec.ofNat 32 (i.code.num + 2 ^ 31),
    eop := BitVec.ofNat 32 i.operand,
    eoph := BitVec.ofNat 32 (i.operand / 2 ^ 32),
    runLen := 0, parkAct := .none, clkw := t.clkwNext.getD t.clkw, clkwNext := none, holdPc := none }

/-- Whether a thread's trap goes to its handler (R249). -/
def Thread.hasHandler (t : Thread) : Bool := t.tvec != 0 && !bitOf t.ecause.toNat 31

/-- The guaranteed width of a launch's interval (R190). -/
def Launch.guaranteed (l : Launch) : Nat := if l.spansPod then 120 else 8

/-- The breach that a WIDEN is (R190): the device's by clock loss, or the operator's by a narrow %tol. -/
def State.widenBreach (s : State) (g : Group) (i : TrapInfo) : State :=
  match s.launch g.ctx with
  | none => s
  | some l =>
    if i.code != .widen then s
    else if l.guaranteed ≤ (s.die (coreDie g.core)).tol.toNat then s.breach g.ctx 1 5 0xFF (coreDie g.core) false
    else s.breach g.ctx 2 18 0xFF (coreDie g.core) false

/-- A launch's outcome as it was before a breach on a polder page that the device or the operator lost: that one is not the
kernel's (R123). -/
def State.sparing (s old : State) (ctx va : Nat) : State :=
  if old.pageLost ctx va then s.modLaunch ctx (fun l => { l with outcome := ((old.launch ctx).map (fun x => x.outcome)).getD l.outcome }) else s

/-- TAKING A TRAP, the one operation of every instruction (R57, R61, R249, R254, R255): the run's earlier instructions
perform and commit; in the privileged view with a handler every member is vectored; otherwise the workgroup ends with
one record, which names `tid`. A breach on a polder page that the device or the operator lost is not the kernel's (R123). -/
def State.trap (s : State) (g : Group) (i : TrapInfo) (tid : Nat) : State :=
  let s1 := (g.tids.foldl (fun s t => s.drainRun g.ctx g.wg t) s).widenBreach g i
  let handled := s.privileged g && i.code != .mchk && (s.members g).all Thread.hasHandler
  if handled then
    g.tids.foldl (fun s t => (s.modThread g.ctx g.wg t (fun t => t.vector g.pc i)).makeReady g.ctx g.wg t) s1
  else
    let s2 := (g.tids.foldl (fun s t => s.modThread g.ctx g.wg t Thread.commit) s1).endByRecord g.ctx g.wg tid i.code.num i.operand g.pc
    if i.code == .polderBreach then s2.sparing s g.ctx i.operand else s2

/-- A thread as it returns from its handler (R249): PC := %epc, and bit 31 of %ecause clears. -/
def Thread.unvector (t : Thread) : Thread := { t with pc := t.epc.toNat, ecause := t.ecause &&& 0x7FFFFFFF }

/-- A transaction's state outside of one. -/
def Tx.idle (t : Tx) : Tx := { t with active := false, reads := [], writes := [], readLines := [], writeLines := [], committing := none }

/-- An abort (R180): the run stops, the write set is discarded, %txs is written, and after the park the PC is the abort
path. -/
def Thread.abortTx (t : Thread) (cause : AbortCause) (code : Nat) : Thread :=
  { t with status := .parked, pc := t.tx.abortPc, txs := txsAbort t.txs cause code, tx := t.tx.idle }

/-- Applies a write set at the homes, byte by byte (R181, R271). -/
def applyWrites : List (Nat × Byte) → State → State
  | [], s => s
  | w :: ws, s => applyWrites ws (s.writeHome w.1 [w.2])

/-- The core's L1 lines follow a commit of one of its threads (R106, R262). -/
def State.followWrites (core : Nat) : List (Nat × Byte) → State → State
  | [], s => s
  | w :: ws, s => State.followWrites core ws (s.l1Follow core w.1 [w.2])

/-- Whether a transaction's own loads have performed, and no lower member of its TXE is still to commit (R181). -/
def State.txTurn (s : State) (ctx wg : Nat) (t : Thread) (gid : Nat) : Bool :=
  !s.flight.any (fun a => a.ctx == ctx && a.wg == wg && a.tid == t.tid && a.tx.isSome) &&
    !((s.wgOf ctx wg).map (fun w => w.threads.any (fun u => decide (u.lane < t.lane) && u.tx.committing.any (fun c => c.2 == gid)))).getD false

/-- Whether an earlier write of the thread to a line of its transaction is still on its way (R262, R271), or one that the thread follows
(R264). -/
def State.txBehind (s : State) (ctx wg : Nat) (t : Thread) : Bool :=
  let lines := dedup ((t.tx.reads ++ t.tx.writes).map (fun p => p.1 / 128))
  s.flight.any (fun a => t.seen.contains a.id || (a.ctx == ctx && a.wg == wg && a.tid == t.tid && a.op.writes &&
    (lines.contains (s.accKey a / 128) || lines.contains ((s.accKey a + a.size - 1) / 128))))

/-- TX_HOME_VALIDATION (R181): every read byte is compared with its home, and the write set is applied as one step; or the
member aborts with HOME. A commit resets the abort count of %txs alone (R184). A member of a workgroup that has ended commits as well, as
an access already issued performs (R250), and no outcome makes it ready again. -/
def State.txValidate (s : State) (ctx wg tid : Nat) : State :=
  match s.wgOf ctx wg, s.threadOf ctx wg tid with
  | some w, some t =>
    (match t.tx.committing with
     | none => s
     | some c =>
       if !s.txTurn ctx wg t c.2 || s.txBehind ctx wg t then s
       else if t.tx.reads.all (fun r => Cells.get s.mem r.1 == r.2) then
         (State.followWrites w.core t.tx.writes (applyWrites t.tx.writes s)).modThread ctx wg tid (fun t =>
           { t.fillSlot c.1 [some 0] with txs := txsWord (bits t.txs.toNat 31 18) 0 (bits t.txs.toNat 6 4) 3, tx := t.tx.idle })
       else
         s.modThread ctx wg tid (fun t =>
           if t.live then (t.fillSlot c.1 [some (BitVec.ofNat 32 AbortCause.home.num)]).abortTx .home 0 else { t with tx := t.tx.idle }))
  | _, _ => s

/-! Uncorrectable errors. -/

/-- Validates a transaction whose TXE has issued, in the recorded thread and the lower members of its TXE (R181), so that the TXE
has performed (R256). -/
def State.validateRun (s : State) (ctx wg tid : Nat) : State :=
  match s.wgOf ctx wg, (s.threadOf ctx wg tid).bind (fun t => t.tx.committing) with
  | some w, some c =>
    (laneOrder ((w.threads.filter (fun t => t.tx.committing.any (fun x => x.2 == c.2))).map (fun t => t.tid))).foldl
      (fun s t => (s.drainRun ctx wg t).txValidate ctx wg t) s
  | _, _ => s

/-- The first instruction of a thread that has not performed (R256): one that it sleeps in or is held by has not, nor one whose effect comes
with the park (R58). -/
def Thread.firstUndone (t : Thread) : Nat := if t.parkAct != .none then t.pc - 4 else match t.status with
  | .asleep _ | .held (.fence _ _ _) | .held (.pfence _ _) => t.pc - 4
  | .held (.tile _) | .held .token | .ready | .parked | .exited => t.pc

/-- MCHK in one workgroup (R256): its record names the first thread that lives, at its first instruction not performed, every
earlier one having performed; no handler takes it; the breach is UNCORRECTABLE. -/
def State.machineCheck (s : State) (x : Nat × Nat) : State :=
  match s.wgOf x.1 x.2 with
  | none => s
  | some w =>
    match w.threads.find? Thread.live with
    | none => s
    | some t =>
      let s1 := (s.drainRun x.1 x.2 t.tid).validateRun x.1 x.2 t.tid
      let pc := (((s1.threadOf x.1 x.2 t.tid).getD t)).firstUndone
      (s1.endByRecord x.1 x.2 t.tid TrapCode.mchk.num 0 pc).breach x.1 1 1 0xFF (coreDie w.core) true

/-- A workgroup consumes a block known bad (R366): an integrity record, with the place of a move toward a consumer, and MCHK. The
error is one of the block's home die. -/
def State.consumeBad (s : State) (ctx wg address : Nat) (bad : Nat × Word) : State :=
  (({ s with faultQueue := s.faultQueue ++ [.integrity (address / 128 * 128) 1 (s.blockCheckValue (bad.1 * 128)) bad.2 ctx] } : State).modDie
    (s.blockDie bad.1) Die.countError).machineCheck (ctx, wg)

/-- A member goes on after the instruction it performed: its run closes, or it takes its next place (R20, R58). -/
def State.advance (i : Instr) (g : Group) (s : State) (tid : Nat) : State :=
  match s.threadOf g.ctx g.wg tid with
  | none => s
  | some t =>
    match t.status with
    | .ready =>
      if closesRun i t.runLen then s.modThread g.ctx g.wg tid (fun t => { t with status := .parked, runLen := 64 })
      else (s.modThread g.ctx g.wg tid (fun t => { t with runLen := t.runLen + 1 })).keepReady g.ctx g.wg tid
    | .held _ | .asleep _ =>
      s.modThread g.ctx g.wg tid (fun t => { t with runLen := if closesRun i t.runLen then 64 else t.runLen + 1 })
    | .parked | .exited => s

/-- Moves a member's PC past the instruction (R46). -/
def stepPc (i : Instr) (g : Group) (s : State) (tid : Nat) : State :=
  s.modThread g.ctx g.wg tid (fun t => { t with pc := g.pc + i.bytes, holdPc := none })

/-- An instruction performs in every member that goes on: PCs move, effects follow in ascending lane, runs go on. -/
def performAll (i : Instr) (eff : State → Group → Nat → State) (s : State) (g : Group) (tids : List Nat) : State :=
  tids.foldl (State.advance i g) (tids.foldl (fun s t => eff s g t) (tids.foldl (stepPc i g) s))

/-- A member is held at issue, to issue the same instruction again (R115, R175, R228); a hold already running keeps its
limit, which runs on the die's clock (R67). -/
def holdMember (h : HoldKind) (limit : Nat) (g : Group) (s : State) (tid : Nat) : State :=
  s.modThread g.ctx g.wg tid (fun t =>
    { t with
      status := .held h, pc := g.pc, holdPc := some g.pc,
      deadline := if t.holdPc == some g.pc then t.deadline else s.dieTime (coreDie g.core) + limit })

/-- The limit of a hold at issue (R115, R228): that of the bound-table entry at the instruction's offset, 0 without one. -/
def holdLimit (s : State) (g : Group) : Nat := ((s.launch g.ctx).bind (fun l => l.bound g.pc)).getD 0

/-- Whether a member's hold for a tile has no limit (R228): the state is tested once, and the instruction times out at once. -/
def timesOut (hold : State → Group → Thread → Option HoldKind) (s0 : State) (g : Group) (t : Thread) : Bool :=
  match hold s0 g t with
  | some (.tile _) => holdLimit s0 g == 0
  | some (.fence _ _ _) | some (.pfence _ _) | some .token | none => false

/-- What a tile hold that expires leaves (R115, R228): TIMEOUT in the first word of d, or in %tws for STT. -/
def Thread.timeoutAt (i : Instr) (t : Thread) : Thread := match i with
  | .stt _ _ _ _ => { t with tws := Config.timeout }
  | _ => t.addResult (t.dests (((namedFields i).head?).getD (0, 0)).1 1) (some [some Config.timeout])

/-- A member that must hold is held. -/
def holdOne (hold : State → Group → Thread → Option HoldKind) (s0 : State) (g : Group) (s : State) (t : Thread) : State :=
  match hold s0 g t with
  | none => s
  | some h => if timesOut hold s0 g t then s else holdMember h (holdLimit s0 g) g s t.tid

/-- The effect of an issue in a member: its own, or the end of a hold without a limit. -/
def heldEffect (i : Instr) (out : List Nat) (eff : State → Group → Nat → State) (s : State) (g : Group) (tid : Nat) : State :=
  if out.contains tid then s.modThread g.ctx g.wg tid (Thread.timeoutAt i) else eff s g tid

/-- THE ISSUE of an instruction (R20, R57): the checks, the aborts of R179, the members that must hold are held, and the
effect takes place in every remaining member. -/
def issueHeld (i : Instr) (chk : State → Group → Thread → Option TrapInfo) (hold : State → Group → Thread → Option HoldKind)
    (eff : State → Group → Nat → State) (s : State) : State :=
  match s.group with
  | none => s
  | some g =>
    let s0 := { s with group := none }
    match issueFault i chk s0 g with
    | some f => s0.trap g f.1 f.2
    | none =>
      let ts := s0.members g
      let gone := (ts.filter (txFaults i chk s0 g)).map Thread.tid
      let on := ts.filter (fun t => !txFaults i chk s0 g t)
      let s1 := gone.foldl (fun s t => s.modThread g.ctx g.wg t (fun t => t.abortTx .fault 0)) s0
      let s2 := on.foldl (holdOne hold s0 g) s1
      performAll i (heldEffect i ((on.filter (timesOut hold s0 g)).map Thread.tid) eff) s2 g
        ((on.filter (fun t => (hold s0 g t).isNone || timesOut hold s0 g t)).map Thread.tid)

/-- An issue that never holds. -/
def issue (i : Instr) (chk : State → Group → Thread → Option TrapInfo) (eff : State → Group → Nat → State) (s : State) : State :=
  issueHeld i chk (fun _ _ _ => none) eff s

/-- No operand check. -/
def noCheck (_ : State) (_ : Group) (_ : Thread) : Option TrapInfo := none

/-- An effect on the member's own thread alone. -/
def onThread (f : Thread → Thread) (s : State) (g : Group) (tid : Nat) : State := s.modThread g.ctx g.wg tid f

/-- A fixed-latency instruction (R59): its result is written at issue. -/
def fixedOp (i : Instr) (f : Thread → Thread) (s : State) : State := issue i noCheck (onThread f) s

/-- A variable-latency instruction whose value is known at issue (R59, R60): committed at the park. -/
def variableOp (i : Instr) (d : Reg) (f : State → Group → Thread → Word) (s : State) : State :=
  issue i noCheck (fun s g tid =>
    match s.threadOf g.ctx g.wg tid with
    | none => s
    | some t => s.modThread g.ctx g.wg tid (fun u => u.addResult (u.dests d.toNat 1) (some [some (f s g t)]))) s

/-- A word result, known, for one member. -/
def giveWord (g : Group) (tid : Nat) (d : Nat) (v : Word) (s : State) : State :=
  s.modThread g.ctx g.wg tid (fun u => u.addResult (u.dests d 1) (some [some v]))

/-- The first access to a polder line allocates it as it issues (R122), so that a breach is precise (R61, log 50). -/
def State.touchAtIssue (s : State) (ctx addr : Nat) : State :=
  match s.launch ctx with
  | none => s
  | some l => match s.polderAlloc l addr with
    | .done s1 => s1
    | .wait | .breach _ => s

/-- Puts an access into flight for a member, with a result slot of `n` words from field `d` when n > 0. -/
def State.send (s : State) (g : Group) (tid : Nat) (path : Path) (op : AccOp) (addr size scope : Nat) (d : Nat) (n : Nat)
    (tx : Option (List (Nat × Byte))) (gid : Nat) : State :=
  match s.threadOf g.ctx g.wg tid with
  | none => s
  | some t =>
    let gens := if classOf addr == .scratch then s.granuleGens (coreCluster g.core) addr size else []
    let a : Access :=
      { id := s.nextId, ctx := g.ctx, wg := g.wg, tid := tid, core := g.core, path := path, op := op, addr := addr, size := size,
        scope := scope, slot := if n = 0 then none else some t.nextSlot, gens := gens, gid := gid, pc := g.pc, taken := 0, tx := tx, after := t.seen }
    let s0 := if op.touches then s.touchAtIssue g.ctx addr else s
    let s1 : State := { s0 with flight := s0.flight ++ [a], nextId := s0.nextId + 1 }
    if n = 0 then s1 else s1.modThread g.ctx g.wg tid (fun t => t.addResult (t.dests d n) none)

/-- The number of an issue, one for its whole group (R22): unique, since a PC-table entry's ages are, and the core counts
its issue slots. -/
def groupId (s : State) (g : Group) : Nat := g.core + 2048 * (s.coreOf g.core).slots

/-- A waiting instruction goes to sleep (R66, R67): its result slot, if it has a destination, and its limit on the die's
clock. -/
def sleepOn (w : WaitKind) (d : Option Nat) (g : Group) (tid : Nat) (s : State) : State :=
  let limit := ((s.launch g.ctx).bind (fun l => l.bound g.pc)).getD 0
  s.modThread g.ctx g.wg tid (fun t =>
    let u := { t with status := .asleep w, deadline := s.dieTime (coreDie g.core) + limit, waitSlot := t.nextSlot }
    match d with
    | none => u
    | some d => u.addResult (u.dests d 1) none)

/-- The launch of a group, or an idle value where it has ended. -/
def withLaunch {α : Type} (s : State) (ctx : Nat) (dflt : α) (f : Launch → α) : α := match s.launch ctx with
  | none => dflt
  | some l => f l

/-- The first trap of two. -/
def orTrap (x y : Option TrapInfo) : Option TrapInfo := match x with
  | some i => some i
  | none => y

/-- The lower members of a group. -/
def State.lowerMembers (s : State) (g : Group) (t : Thread) : List Thread := (s.members g).takeWhile (fun u => u.tid != t.tid)

/-- The check of R122 and R123 for one access of each member. -/
def polderCheck (addr : Thread → Nat) (s : State) (g : Group) (t : Thread) : Option TrapInfo :=
  withLaunch s g.ctx none (fun l => breachCheck s l ((s.lowerMembers g t).map addr) (addr t))

/-- Whether a workgroup has passed the commit token (R174, R242). -/
def Launch.tokenPassed (l : Launch) (wg : Nat) : Bool := decide (wg < l.token) || (wg == l.token && l.passing)

/-- Whether a workgroup holds the commit token (R174). -/
def Launch.holdsToken (l : Launch) (wg : Nat) : Bool := l.img.det && wg == l.token && !l.passing

/-- Whether an access is gated by the token (R175): `.det`, and a region declared shared between workgroups. -/
def Launch.gated (l : Launch) (addr n : Nat) : Bool :=
  l.img.det && l.img.regions.any (fun r => r.shared && rangesMeet addr n r.base r.size)

/-- The check of R175: a gated operation of a workgroup that has passed the token raises ACCESS. -/
def gateCheck (l : Launch) (wg addr n : Nat) : Option TrapInfo :=
  if l.gated addr n && l.tokenPassed wg then trapOf .access addr else none

/-- The hold of R175: until the workgroup holds the token. -/
def gateHold (l : Launch) (wg addr n : Nat) : Option HoldKind :=
  if l.gated addr n && !l.holdsToken wg then some .token else none

/-- WIDEN (R190): the operand is the interval's width. -/
def widenCheck (s : State) (core : Nat) : Option TrapInfo :=
  let iv := s.interval (coreDie core)
  let width := iv.2 - iv.1
  if (s.die (coreDie core)).tol.toNat < width then trapOf .widen (sat32 width) else none

end Sys2Proof.Machine
end

