-- ==== Sys2Proof/Machine/Atomic.lean ====
section
/-! DEFINITION. Groups 0x8 and 0x9: returning atomics (R167-R172, R175). -/

namespace Sys2Proof.Machine

/-- A returning atomic (R167-R169, R175): its operand and expected value are read at issue, and it executes at its site
when the access performs. -/
def atomicOp (i : Instr) (op : AmoOp) (n scope : Nat) (pcieOp : Bool) (d : Reg) (a : BitVec 6) (b : Reg) (s : State) : State :=
  issueHeld i
    (fun s g t => withLaunch s g.ctx none (fun l =>
      match atomicCheck s l g.core t.parent (addrPair6 t a) n scope pcieOp false with
      | some x => some x
      | none => orTrap (gateCheck l g.wg (addrPair6 t a) n) (polderCheck (fun t => addrPair6 t a) s g t)))
    (fun s g t => withLaunch s g.ctx none (fun l => gateHold l g.wg (addrPair6 t a) n))
    (fun s g tid =>
      match s.threadOf g.ctx g.wg tid with
      | none => s
      | some t =>
        let v := if n = 8 then t.readPair (rn b) else (t.readW (rn b)).toNat
        let e := if n = 8 then t.readPair (rn d) else (t.readW (rn d)).toNat
        s.send g tid .ord (.atomic op v e) (addrPair6 t a) n scope (rn d) (n / 4) none (groupId s g)) s

/-- amoAdd (R167-R169). -/
def execAmoAdd (sw : Bool) (p : BitVec 3) (d : Reg) (a : BitVec 6) (f : Bool) (b : Reg) (s : State) : Result1 :=
  .next (atomicOp (.amoAdd sw p d a f b) .add 4 p.toNat true d a b s)

/-- amoAnd (R167-R169). -/
def execAmoAnd (sw : Bool) (p : BitVec 3) (d : Reg) (a : BitVec 6) (f : Bool) (b : Reg) (s : State) : Result1 :=
  .next (atomicOp (.amoAnd sw p d a f b) .and 4 p.toNat false d a b s)

/-- amoOr (R167-R169). -/
def execAmoOr (sw : Bool) (p : BitVec 3) (d : Reg) (a : BitVec 6) (f : Bool) (b : Reg) (s : State) : Result1 :=
  .next (atomicOp (.amoOr sw p d a f b) .or 4 p.toNat false d a b s)

/-- amoXor (R167-R169). -/
def execAmoXor (sw : Bool) (p : BitVec 3) (d : Reg) (a : BitVec 6) (f : Bool) (b : Reg) (s : State) : Result1 :=
  .next (atomicOp (.amoXor sw p d a f b) .xor 4 p.toNat false d a b s)

/-- amoMin (R167-R169). -/
def execAmoMin (sw : Bool) (p : BitVec 3) (d : Reg) (a : BitVec 6) (f : Bool) (b : Reg) (s : State) : Result1 :=
  .next (atomicOp (.amoMin sw p d a f b) .min 4 p.toNat false d a b s)

/-- amoMax (R167-R169). -/
def execAmoMax (sw : Bool) (p : BitVec 3) (d : Reg) (a : BitVec 6) (f : Bool) (b : Reg) (s : State) : Result1 :=
  .next (atomicOp (.amoMax sw p d a f b) .max 4 p.toNat false d a b s)

/-- amoXchg (R167-R169). -/
def execAmoXchg (sw : Bool) (p : BitVec 3) (d : Reg) (a : BitVec 6) (f : Bool) (b : Reg) (s : State) : Result1 :=
  .next (atomicOp (.amoXchg sw p d a f b) .xchg 4 p.toNat true d a b s)

/-- amoFadd (R167-R169). -/
def execAmoFadd (sw : Bool) (p : BitVec 3) (d : Reg) (a : BitVec 6) (f : Bool) (b : Reg) (s : State) : Result1 :=
  .next (atomicOp (.amoFadd sw p d a f b) .fadd 4 p.toNat false d a b s)

/-- amoMinu (R167-R169). -/
def execAmoMinu (sw : Bool) (p : BitVec 3) (d : Reg) (a : BitVec 6) (f : Bool) (b : Reg) (s : State) : Result1 :=
  .next (atomicOp (.amoMinu sw p d a f b) .minu 4 p.toNat false d a b s)

/-- amoMaxu (R167-R169). -/
def execAmoMaxu (sw : Bool) (p : BitVec 3) (d : Reg) (a : BitVec 6) (f : Bool) (b : Reg) (s : State) : Result1 :=
  .next (atomicOp (.amoMaxu sw p d a f b) .maxu 4 p.toNat false d a b s)

/-- casW (R167-R169). -/
def execCasW (sw : Bool) (p : BitVec 3) (d : Reg) (a : BitVec 6) (f : Bool) (b : Reg) (s : State) : Result1 :=
  .next (atomicOp (.casW sw p d a f b) .casW 4 p.toNat true d a b s)

/-- amoAdd64 (R167-R169). -/
def execAmoAdd64 (sw : Bool) (p : BitVec 3) (d : Reg) (a : BitVec 6) (f : Bool) (b : Reg) (s : State) : Result1 :=
  .next (atomicOp (.amoAdd64 sw p d a f b) .add64 8 p.toNat true d a b s)

/-- casD (R167-R169). -/
def execCasD (sw : Bool) (p : BitVec 3) (d : Reg) (a : BitVec 6) (f : Bool) (b : Reg) (s : State) : Result1 :=
  .next (atomicOp (.casD sw p d a f b) .casD 8 p.toNat true d a b s)

/-- gts (R167-R169). -/
def execGts (sw : Bool) (p : BitVec 3) (d : Reg) (a : BitVec 6) (f : Bool) (b : Reg) (s : State) : Result1 :=
  .next (atomicOp (.gts sw p d a f b) .gts 8 p.toNat false d a b s)

/-- vcas (R167-R169). -/
def execVcas (sw : Bool) (p : BitVec 3) (d : Reg) (a : BitVec 6) (f : Bool) (b : Reg) (s : State) : Result1 :=
  .next (atomicOp (.vcas sw p d a f b) .vcas 8 p.toNat false d a b s)

/-- tcas (R167-R169). -/
def execTcas (sw : Bool) (p : BitVec 3) (d : Reg) (a : BitVec 6) (f : Bool) (b : Reg) (s : State) : Result1 :=
  .next (atomicOp (.tcas sw p d a f b) .tcas 8 p.toNat false d a b s)

end Sys2Proof.Machine
end

