-- ==== Sys2Proof/Machine/Engine.lean ====
section
/-! DEFINITION. Engine sites, leases and handles (R193, R194), batches (R216), the tile table (R113, R114), and how an
engine reads and writes memory on its own path (R117, R277, R279). -/

namespace Sys2Proof.Machine

/-- An accumulator with no recorded type (R220); an empty list of elements stands for zeros (R87). -/
def Accumulator.fresh : Accumulator := { recorded := none, type := none, void := false, elems := [] }

/-- A dark site (R193). -/
def Site.dark (die index : Nat) : Site where
  die := die
  index := index
  power := .dark
  opclass := 0
  lease := none
  keeper := none
  keep := false
  queue := []
  acc0 := Accumulator.fresh
  acc1 := Accumulator.fresh
  lastA := none
  stream := 0
  refs := []
  lastEntry := 0
  running := 0
  lineage := 0
  heirs := []

/-- A site's record; one that nothing has touched is dark. -/
def State.siteOf (s : State) (die index : Nat) : Site :=
  (s.sites.find? (fun x => x.die == die && x.index == index)).getD (Site.dark die index)

/-- A state with one site changed. -/
def State.modSite (s : State) (die index : Nat) (f : Site → Site) : State :=
  if s.sites.any (fun x => x.die == die && x.index == index) then
    { s with sites := s.sites.map (fun x => if x.die == die && x.index == index then f x else x) }
  else { s with sites := s.sites ++ [f (Site.dark die index)] }

/-- A site's internal state discarded (R202). -/
def Site.cleared (x : Site) : Site :=
  { x with acc0 := Accumulator.fresh, acc1 := Accumulator.fresh, lastA := none, stream := 0, refs := [], running := x.lineage, heirs := [] }

/-- The internal state of a new lease (R87, R193). -/
def Inside.fresh : Inside := { acc0 := Accumulator.fresh, acc1 := Accumulator.fresh, stream := 0, refs := [] }

/-- The internal state that a site holds now. -/
def Site.inside (x : Site) : Inside := { acc0 := x.acc0, acc1 := x.acc1, stream := x.stream, refs := x.refs }

/-- A site with the internal state of a number loaded: the recorded types are the core's, and stay (R220). -/
def Site.load (x : Site) (n : Nat) : Site :=
  let i := ((x.heirs.find? (fun h => h.1 == n)).map (fun h => h.2)).getD Inside.fresh
  { x with
    acc0 := { i.acc0 with recorded := x.acc0.recorded }, acc1 := { i.acc1 with recorded := x.acc1.recorded },
    stream := i.stream, refs := i.refs, running := n, heirs := x.heirs.filter (fun h => h.1 != n) }

/-- A site after its queue has changed: the internal state is that of the head entry's lease (R200). A released lease's state
goes with its last entry. -/
def Site.turn (x : Site) : Site :=
  let n := ((x.queue.head?).map (fun e => e.lineage)).getD x.lineage
  if n = x.running then x else x.load n

/-- The internal state that a site's present lease has, or will have once older entries have left (R200, R214). -/
def Site.own (x : Site) : Inside := if x.running = x.lineage then x.inside else (x.load x.lineage).inside

/-- What a handle names (R194). -/
inductive Named where
  | member (l : Lease) (m : Nat)
  | evicted (l : Lease)
  | bad
  deriving DecidableEq, Repr

/-- Whether a lease is the one that a handle of a workgroup names. -/
def Lease.named (l : Lease) (ctx wg h : Nat) : Bool :=
  l.handle / 4 == h / 4 && l.ctx == ctx && l.wg == wg && decide (h % 4 < l.count)

/-- A handle as a workgroup uses it (R194, R202). -/
def State.nameHandle (s : State) (ctx wg h : Nat) : Named :=
  if 2 ^ 16 ≤ h then .bad
  else
    match s.leases.find? (fun l => l.named ctx wg h) with
    | some l => .member l (h % 4)
    | none =>
      match s.evicted.find? (fun l => l.named ctx wg h) with
      | some l => .evicted l
      | none => .bad

/-- The first report of an eviction uses it up (R202). -/
def State.reported (s : State) (l : Lease) : State := { s with evicted := s.evicted.filter (fun x => x != l) }

/-- The site of a lease's member (R194, R199). -/
def Lease.site (l : Lease) (m : Nat) : Nat := nth 0 l.sites m

/-- Whether a word is a ticket (R195): bits 31:30 are 01. -/
def isTicket (w : Nat) : Bool := w / 2 ^ 30 == 1

/-- The request that a ticket names (R195). -/
def State.nameTicket (s : State) (ctx wg w : Nat) : Option Request :=
  if isTicket w then
    s.requests.find? (fun r => r.die == bits w 15 13 && r.ticket == bits w 12 0 && r.ctx == ctx && r.wg == wg)
  else none

/-- What a handle or a ticket names (R198, R199): the lease that a queued request became keeps the ticket's name. -/
def State.nameWord (s : State) (ctx wg w : Nat) : Named :=
  if isTicket w then
    let of := fun (l : Lease) => l.ctx == ctx && l.wg == wg && l.ticket == some (bits w 12 0) && l.handle / 2 ^ 13 == bits w 15 13
    match s.leases.find? of with
    | some l => .member l 0
    | none => match s.evicted.find? of with
      | some l => .evicted l
      | none => .bad
  else s.nameHandle ctx wg w

/-- Requests of a die's arbiter in its order (R197): by priority, then by arrival. -/
def State.dieQueue (s : State) (die : Nat) : List Request :=
  sortBy (fun x y => decide (y.priority < x.priority) || (x.priority == y.priority && decide (x.arrival ≤ y.arrival)))
    (s.requests.filter (fun r => r.die == die))

/-- Requests ahead of one at its die's arbiter. -/
def State.ahead (s : State) (r : Request) : Nat := ((s.dieQueue r.die).takeWhile (fun x => x.ticket != r.ticket)).length

/-! Batches. -/

/-- An empty batch record. -/
def Batch.fresh (serial : Nat) : Batch :=
  { serial := serial, number := 0, entries := 0, finished := 0, saturation := 0, stale := 0, notPerformed := 0, corrupt := 0 }

/-- A thread with one of its batches changed (R216). -/
def Thread.modBatch (t : Thread) (serial : Nat) (f : Batch → Batch) : Thread :=
  { t with
    openBatch := t.openBatch.map (fun b => if b.serial == serial then f b else b),
    batches := t.batches.map (fun b => if b.serial == serial then f b else b) }

/-- A state with an entry's batch changed. -/
def State.modBatch (s : State) (e : Entry) (f : Batch → Batch) : State :=
  s.modThread e.ctx e.wg e.tid (fun t => t.modBatch e.batch f)

/-- Entries join the thread's open batch (R216); a new one opens under `serial`. -/
def Thread.joinBatch (t : Thread) (serial n : Nat) : Thread :=
  let b := t.openBatch.getD (Batch.fresh serial)
  { t with openBatch := some { b with entries := b.entries + n } }

/-- The serial that a thread's next entry is counted under. -/
def Thread.batchSerial (t : Thread) (serial : Nat) : Nat := (t.openBatch.map (fun b => b.serial)).getD serial

/-- Sealed batches of a thread that are unfinished (R216, R217). -/
def Thread.unfinished (t : Thread) : Nat := (t.batches.filter (fun b => !b.done)).length

/-- The batch number after another (R216). -/
def nextBatchNo (n : Nat) : Nat := if n < 0x7FFFFFFF then n + 1 else 1

/-- The 64 most recent records are kept (R218), and those of older batches that are still unfinished (R216, R217). -/
def keepRecords (bs : List Batch) : List Batch := bs.take 64 ++ (bs.drop 64).filter (fun b => !b.done)

/-- BSEAL closes the open batch (R216). -/
def Thread.seal (t : Thread) (serial : Nat) : Thread :=
  let b := t.openBatch.getD (Batch.fresh serial)
  let n := nextBatchNo t.batchNo
  { t with
    batchNo := n, openBatch := none, staleNext := 0,
    batches := keepRecords (({ b with number := n, stale := t.staleNext }) :: t.batches) }

/-- An entry has finished in its batch: completed, or marked not performed (R216, R218). -/
def State.finishEntry (s : State) (e : Entry) (notPerformed : Bool) : State :=
  let isFence := match e.kind with
    | .fence _ => true
    | _ => false
  s.modBatch e (fun b => { b with
    finished := b.finished + 1, notPerformed := b.notPerformed + (if notPerformed && !isFence then 1 else 0) })

/-! Tiles. -/

/-- A tile that a launch holds on a cluster (R113). -/
def State.heldTile (s : State) (ctx cluster n : Nat) : Option Tile :=
  match s.tileOf cluster n with
  | some t => if t.ctx == ctx then some t else none
  | none => none

/-- An empty tile begins filling (R114). -/
def Tile.fill (t : Tile) (entry type rows : Nat) : Tile :=
  { t with state := .filling, type := type, rows := rows, fault := false, fills := t.fills + 1, landed := false, filler := entry, data := [] }

/-- TILE_FILL_COMPLETE (R114): the last byte has landed. -/
def Tile.ready (t : Tile) : Tile :=
  if t.state == .filling && t.landed then { t with state := .ready, landed := false } else t

/-- A tile's reader count rises (R114). -/
def Tile.pin (t : Tile) (n : Nat) : Tile := { t with readers := t.readers + n }

/-- The filling command of a tile does not perform (R114, R280): it becomes ready with its fault flag set, but for one whose last byte has
landed (R208), which is ready as that left it. -/
def Tile.fail (t : Tile) : Tile :=
  if t.state == .filling then { t with state := .ready, fault := t.fault || !t.landed, landed := false } else t

/-- A state with the tiles changed that an entry fills, or has filled last. -/
def State.filledBy (s : State) (entry : Nat) (f : Tile → Tile) : State :=
  { s with tiles := s.tiles.map (fun t => if t.filler == entry then f t else t) }

/-- The tile of an entry's cluster. -/
def State.entryTile (s : State) (e : Entry) (n : Nat) (f : Tile → Tile) : State := s.modTile (coreCluster e.core) n f

/-- A tile that frees takes its place in the list of tiles no more. -/
def State.freeTile (s : State) (cluster n : Nat) : State :=
  { s with tiles := s.tiles.filter (fun t => !(t.cluster == cluster && t.number == n)) }

/-! Memory as engines reach it. -/

/-- The read path of a site's class (R117); MX reads tiles at their home slices. -/
def enginePath (site : Nat) : Path := match Config.siteClass site with
  | 1 => .tc
  | 2 => .gx
  | 3 => .cl
  | 4 => .vd
  | _ => .tile

/-- The number that a site's copies are held under; its translations are those of the die's first cluster. -/
def engineOwner (die site : Nat) : Nat := 4096 * (site + 1) + 256 * die

/-- How an engine's access ends: with its bytes, not yet, or with the workgroup or launch ended (R123, R342). -/
inductive EngineAccess where
  | got (bytes : List Byte) (s : State)
  | wait
  | dead (s : State)
  deriving DecidableEq, Repr

/-- The number of a core's granule among a command's captured generations. -/
def granuleNo (x : Nat × Nat) : Nat := x.1 * 256 + x.2

/-- The generation that a command captured for a granule (R110): of a granule that data reach, the present one. -/
def capturedGen (s : State) (e : Entry) (x : Nat × Nat) : Nat :=
  ((e.gens.find? (fun y => y.1 == granuleNo x)).map (fun y => y.2)).getD (s.granuleAt x).gen

/-- The arrival check of R110 for an engine's access. -/
def engineFresh (s : State) (e : Entry) (va n : Nat) : Bool :=
  (granulesAt (coreCluster e.core) va n).all (fun x =>
    (s.granuleAt x).live && (s.granuleAt x).ctx == e.ctx && (s.granuleAt x).gen == capturedGen s e x)

/-- A command with a dropped access counts once (R110), also where several accesses of one step are dropped. -/
def State.entryStale (s : State) (die site : Nat) (e : Entry) : State :=
  if ((s.siteOf die site).queue.find? (fun y => y.id == e.id)).any (fun y => y.stale) then s
  else
    (s.modThread e.ctx e.wg e.tid (fun t => { t with staleNext := t.staleNext + 1 })).modSite die site
      (fun x => { x with queue := x.queue.map (fun y => if y.id == e.id then { y with stale := true } else y) })

/-- An entry is marked not performed, to finish at its ENTRY_COMPLETE. -/
def State.failEntry (s : State) (die site : Nat) (e : Entry) : State :=
  s.modSite die site (fun x => { x with queue := x.queue.map (fun y => if y.id == e.id then { y with failed := true } else y) })

/-- A polder breach by an engine's access ends the commanding workgroup (R123), and the entry with it. -/
def State.engineBreach (s : State) (die site : Nat) (e : Entry) (va : Nat) : State :=
  let s1 := s.failEntry die site e
  if ((s.wgOf e.ctx e.wg).map (fun w => w.threads.any Thread.live)).getD false then
    (s1.endByRecord e.ctx e.wg e.tid 8 va e.pc).sparing s e.ctx va
  else s1

/-- A block with a wrong check value among those that an engine reads at their homes, the entries of the page table that it walks among them (R365, R366): at most `k` lines of a
range. -/
def State.badRange (s : State) (cluster : Nat) (l : Launch) : Nat → Nat → Nat → Option (Nat × Nat × Word)
  | 0, _, _ => none
  | k + 1, va, n =>
    if n = 0 || s.badCheck.isEmpty then none
    else
      let m := Nat.min n (128 - va % 128)
      let entry := if (l.polderAt va).isNone && (s.tlbEntry cluster l.ctx va).isNone then s.badEntry cluster l va else none
      match entry, (s.locate (cluster / 2) l va).bind (fun t => (s.badBlock t.key m).map (fun c => (t.phys.getD t.key, c))) with
      | some b, _ | none, some b => some b
      | none, none => State.badRange s cluster l k (va + m) (n - m)

/-- Touches the polder lines of a range (R122). -/
def State.engineTouch (s : State) (die site : Nat) (l : Launch) (e : Entry) : Nat → Nat → Nat → EngineAccess
  | 0, _, _ => .got [] s
  | k + 1, va, n =>
    if n = 0 then .got [] s
    else
      match s.polderTouch l va with
      | .wait => .wait
      | .breach s1 => .dead (s1.engineBreach die site e va)
      | .done s1 =>
        let m := 128 - va % 128
        State.engineTouch s1 die site l e k (va + m) (n - m)

/-- Reads global bytes on a path, 4 KiB at a time: within one granule of the interleave the locations follow one another (R350). -/
def State.engineGlobal (s : State) (path : Path) (owner : Nat) (l : Launch) : Nat → Nat → Nat → Option (List Byte × State)
  | 0, _, _ => some ([], s)
  | k + 1, va, n =>
    if n = 0 then some ([], s)
    else
      let m := Nat.min n (4096 - va % 4096)
      match s.readPath path owner l va m with
      | none => none
      | some r =>
        match State.engineGlobal r.2 path owner l k (va + m) (n - m) with
        | none => none
        | some q => some (r.1 ++ q.1, q.2)

/-- An engine reads `n` bytes on its path (R277): a dropped scratchpad read gives zeros (R110), and a block known bad ends the
commanding workgroup by MCHK (R256, R366). -/
def State.engineRead (s : State) (die site : Nat) (e : Entry) (va n : Nat) : EngineAccess :=
  match s.launch e.ctx with
  | none => .got (List.replicate n 0) s
  | some l =>
    match classOfRange va n with
    | .scratch =>
      if engineFresh s e va n then
        let t := scratchTarget (coreCluster e.core) va
        let r := s.readCopies (enginePath site) (engineOwner die site)
          (fun s k => s.readBank ((k - 2 ^ 62) / Config.scratchPerCore) ((k - 2 ^ 62) % Config.scratchPerCore) 32)
          (n / 32 + 2) (scratchKey t.1 t.2) n
        .got r.1 r.2
      else .got (List.replicate n 0) (s.entryStale die site e)
    | .global =>
      match s.engineTouch die site l e (n / 128 + 2) va n with
      | .wait => .wait
      | .dead s1 => .dead s1
      | .got _ s1 =>
        match s1.badRange (engineOwner die site / 128 % 16) l (n / 128 + 2) va n with
        | some b => .dead ((s1.failEntry die site e).consumeBad e.ctx e.wg b.1 b.2)
        | none =>
        match s1.engineGlobal (enginePath site) (engineOwner die site) l (n / 4096 + 2) va n with
        | none => .dead (s1.callerFault e.ctx)
        | some r => .got r.1 r.2
    | .priv | .bad => .got (List.replicate n 0) s

/-- The writing path's own copy follows its write (R117). -/
def State.patchCopies (s : State) (path : Path) (owner key : Nat) (bs : List Byte) : State :=
  { s with copies := s.copies.map (fun c =>
      if c.path == path && c.owner == owner && decide (c.sector * 32 < key + bs.length) && decide (key < c.sector * 32 + 32) then
        { c with bytes := (c.bytes.zip (rangeFrom (c.sector * 32) 32)).map (fun p =>
            if decide (key ≤ p.2) && decide (p.2 < key + bs.length) then nth 0 bs (p.2 - key) else p.1) }
      else c) }

/-- Writes global bytes at their homes, line by line. -/
def State.engineStore (s : State) (path : Path) (owner cluster : Nat) (l : Launch) : Nat → Nat → List Byte → Option State
  | 0, _, _ => some s
  | k + 1, va, bs =>
    if bs.isEmpty then some s
    else
      let m := Nat.min bs.length (128 - va % 128)
      match s.locateVia cluster l va with
      | none => none
      | some t =>
        State.engineStore (({ s with free := s.free + 1 }.writeHome t.key (bs.take m)).patchCopies path owner t.key (bs.take m))
          path owner cluster l k (va + m) (bs.drop m)

/-- An engine writes bytes at their homes or banks (R205, R279), and answers with what it wrote: a stale scratchpad write is
dropped (R110). -/
def State.engineWrite (s : State) (die site : Nat) (e : Entry) (va : Nat) (bs : List Byte) : EngineAccess :=
  match s.launch e.ctx with
  | none => .got [] s
  | some l =>
    match classOfRange va bs.length with
    | .scratch =>
      if engineFresh s e va bs.length then
        let t := scratchTarget (coreCluster e.core) va
        .got bs ((s.writeBank t.1 t.2 bs).patchCopies (enginePath site) (engineOwner die site) (scratchKey t.1 t.2) bs)
      else .got [] (s.entryStale die site e)
    | .global =>
      match s.engineTouch die site l e (bs.length / 128 + 2) va bs.length with
      | .wait => .wait
      | .dead s1 => .dead s1
      | .got _ s1 =>
        match s1.engineStore (enginePath site) (engineOwner die site) (2 * die) l (bs.length / 128 + 2) va bs with
        | none => .dead (s1.callerFault e.ctx)
        | some s2 => .got bs s2
    | .priv | .bad => .got [] s

/-- Goes on after an engine's access; a dead one ends the step with its state. -/
def EngineAccess.andThen (r : EngineAccess) (f : List Byte → State → EngineAccess) : EngineAccess := match r with
  | .got bs s => f bs s
  | .wait => .wait
  | .dead s => .dead s

end Sys2Proof.Machine
end

