-- ==== Sys2Proof/Machine/Sequencer.lean ====
section
/-! DEFINITION. The macro-operation sequencer (R219): the steps of tensor copies (R208), matrix multiplication
(R87 to R92, R222), readout (R93, R224), gather and scatter (R210), collectives (R211) and video decode (R212, R213),
with landed bytes (R215). -/

namespace Sys2Proof.Machine

/-- Bytes of 512 bitmap bits (R73). -/
def packBits (bs : List Bool) : List Byte :=
  (rangeFrom 0 64).map (fun i => BitVec.ofNat 8
    ((rangeFrom 0 8).foldl (fun v k => v + (if nth false bs (8 * i + k) then 2 ^ k else 0)) 0))

/-- Bit `i` of a bitmap row (R73). -/
def bitmapBit (bm : List Byte) (i : Nat) : Bool := bitOf (nth 0 bm (i / 8)).toNat (i % 8)

/-- Element `i` of a row of elements of `n` bytes. -/
def elemAt (bs : List Byte) (n i : Nat) : Nat := leNat ((bs.drop (n * i)).take n)

/-- Bytes of a source element of formats 0 to 4 (R83). -/
def formatBytes (f : Nat) : Nat := nth 1 [1, 1, 2, 2, 4] f

/-- Whether a value is finite and its conversion is an infinity (R85). -/
def overflowed (dst : Fmt) (x r : Nat) : Bool :=
  (match f32.decode x with | .fin _ _ _ => true | .nan | .inf _ => false) && r % 2 ^ (dst.width - 1) == dst.infBits

/-- An element with every NaN the canonical one of its type (R77). -/
def canonElem (type x : Nat) : Nat :=
  if type ≤ 1 then x
  else match (typeFmt type).decode x with
    | .nan => (typeFmt type).nan
    | .inf _ | .fin _ _ _ => x

/-- One element of a copy (R84, R86, R208), and whether it counts as saturated (R85). -/
def convertElem (fmt dtype x : Nat) : Nat × Bool :=
  if fmt = dtype then (canonElem dtype x, false)
  else if fmt = 2 then (convert bf16 f32 x, false)
  else if fmt = 3 then (convert fp16 f32 x, false)
  else if dtype = 0 then lc8Encode (f32.decode x)
  else
    let r := convert f32 (typeFmt dtype) x
    (r, overflowed (typeFmt dtype) x r)

/-- LG6 codes of packed bytes, four to three (R79). -/
def lg6Codes : List Byte → List Nat
  | g0 :: g1 :: g2 :: rest =>
    let v := leNat [g0, g1, g2]
    bits v 5 0 :: bits v 11 6 :: bits v 17 12 :: bits v 23 18 :: lg6Codes rest
  | _ => []

/-- An LG6 element under its block's scale byte (R80, R82). -/
def expandLg6 (code scale : Nat) : Nat × Bool :=
  let s := sextNat scale 8
  if s < -12 ∨ 12 < s then (0x80, true) else lg6ToLc8 code s

/-- Elements of a block of a block length code (R83). -/
def blockElems (code : Nat) : Nat := nth 512 [512, 16, 32, 64] code

/-- Blocks of a row of 512 elements. -/
def rowBlocks (code : Nat) : Nat := 512 / blockElems code

/-- Bytes of a dense source row (R79, R80). -/
def CopyBlock.rowLength (b : CopyBlock) : Nat :=
  if b.format ≤ 4 then b.elements * formatBytes b.format
  else if b.format = 6 ∧ b.scaleInline then rowBlocks b.blockLength * (1 + 3 * (blockElems b.blockLength / 4))
  else 3 * (b.elements / 4)

/-- Longest source row, for the check at issue (R81, R204). -/
def CopyBlock.longestRow (b : CopyBlock) : Nat := if b.format = 7 ∨ b.format = 8 then 448 else b.rowLength

/-- Whether the scales lie in an array of their own (R80, R207). -/
def CopyBlock.separateScales (b : CopyBlock) : Bool := (b.format == 6 && !b.scaleInline) || b.format == 8

/-- A row's LG6 codes and scale bytes, block by block, of an inline source (R80). -/
def inlineBlocks (len : Nat) : Nat → List Byte → List Nat × List Nat
  | 0, _ => ([], [])
  | k + 1, bs =>
    let rest := inlineBlocks len k (bs.drop (1 + 3 * (len / 4)))
    (lg6Codes ((bs.drop 1).take (3 * (len / 4))) ++ rest.1, (nth 0 bs 0).toNat :: rest.2)

/-- Codes spread over the set positions of a bitmap (R81): none where the bit is clear. -/
def spreadCodes : List Bool → List Nat → List (Option Nat)
  | [], _ => []
  | false :: bs, cs => none :: spreadCodes bs cs
  | true :: bs, c :: cs => some c :: spreadCodes bs cs
  | true :: bs, [] => some 0 :: spreadCodes bs []

/-- Elements of a row, each with whether it counts as saturated, from its raw bytes and scale bytes (R79 to R82, R208); with
bitmap source and no change of type they are the source's own bits (R77). -/
def CopyBlock.elems (b : CopyBlock) (raw : List Byte) (scales : List Nat) : List (Nat × Bool) :=
  if b.format ≤ 4 then
    let asIs := b.bitmapSource && b.format == b.dtype
    (rangeFrom 0 b.elements).map (fun i =>
      let x := elemAt raw (formatBytes b.format) i
      if asIs then (x, false) else convertElem b.format b.dtype x)
  else
    let bl := blockElems b.blockLength
    let expand := fun (i : Nat) (c : Option Nat) (ss : List Nat) => match c with
      | none => ((0, false) : Nat × Bool)
      | some c => if b.format = 5 ∨ b.format = 7 then lg6ToLc8 c 0 else expandLg6 c (nth 0 ss (i / bl))
    if b.format = 7 ∨ b.format = 8 then
      let cs := spreadCodes ((rangeFrom 0 512).map (bitmapBit raw)) (lg6Codes (raw.drop 64))
      (cs.zip (rangeFrom 0 512)).map (fun p => expand p.2 p.1 scales)
    else if b.format = 6 ∧ b.scaleInline then
      let r := inlineBlocks bl (rowBlocks b.blockLength) raw
      (r.1.zip (rangeFrom 0 512)).map (fun p => expand p.2 (some p.1) r.2)
    else ((lg6Codes raw).zip (rangeFrom 0 512)).map (fun p => expand p.2 (some p.1) scales)

/-- The tile row of those elements (R73, R74); a bitmap from memory takes the bitmap's place (R208), its bits
beyond the element count as zeros, as R73 has them in every row (DEDUCED, log 79). -/
def tileRowOf (dtype row : Nat) (es : List (Nat × Bool)) (bitmap : Option (List Byte)) : TileRow :=
  { row := row,
    data := padTo 0 512 (es.flatMap (fun e => leBytes (Config.typeBytes dtype) e.1)),
    bitmap := (bitmap.map (fun bm => padTo 0 64 (bm.take (es.length / 8)))).getD (packBits (es.map (fun e => elemNonZero dtype e.1))) }

/-- The block and row of a step of a copy (R208). -/
def copyAt : List CopyBlock → Nat → Option (CopyBlock × Nat)
  | [], _ => none
  | b :: bs, k => if k < b.rows then some (b, k) else copyAt bs (k - b.rows)

/-- Superblock rows of a frame (R219). -/
def frameRows (height : Nat) : Nat := cdiv height 64

/-- Steps of an entry (Table 6 of R219). -/
def EntryKind.steps : EntryKind → Nat
  | .copy bs => bs.foldl (fun n b => n + b.rows) 0
  | .mxma w _ _ => w.groups
  | .accz _ _ => 1
  | .accout _ _ _ => 64
  | .gather g => g.count
  | .scatter g => g.count
  | .coll _ _ n _ _ => cdiv n 4096
  | .vdec _ _ _ height _ _ _ _ _ _ _ _ => frameRows height
  | .fence _ => 0

/-- Whether the boundary after `k` steps is a stated step (R219). -/
def EntryKind.stated (e : EntryKind) (k : Nat) : Bool := match e with
  | .mxma w _ _ => k == w.groups || (decide (0 < k) && (w.start + k) % 8 == 0)
  | .copy _ | .accz _ _ | .accout _ _ _ | .gather _ | .scatter _ | .coll _ _ _ _ _ | .vdec _ _ _ _ _ _ _ _ _ _ _ _
  | .fence _ => decide (0 < k) || k == e.steps

/-- The head entry's step is done. -/
def State.bumpStep (s : State) (die site : Nat) (e : Entry) : State :=
  s.modSite die site (fun x => { x with queue := x.queue.map (fun y => if y.id == e.id then { y with step := e.step + 1 } else y) })

/-- Landed bytes of a command that names a barrier (R215). -/
def State.landFor (s : State) (e : Entry) (bar : Bool) (level id n : Nat) : State :=
  if bar then s.land e.ctx e.wg e.core level id n else s

/-- The same for a write that may have been dropped (R110, R215): bytes land as their writes perform. -/
def State.landIf (s : State) (written : List Byte) (e : Entry) (bar : Bool) (level id n : Nat) : State :=
  if written.isEmpty then s else s.landFor e bar level id n

/-- Reads a column's elements for a transposed row (R208): `rows` of one element each. -/
def readColumn (s : State) (die site : Nat) (e : Entry) (n pitch : Nat) : Nat → Nat → EngineAccess
  | 0, _ => .got [] s
  | k + 1, va =>
    (s.engineRead die site e va n).andThen (fun bs s1 =>
      (readColumn s1 die site e n pitch k (va + pitch)).andThen (fun rest s2 => .got (bs ++ rest) s2))

/-- The raw bytes of source row `r` (R79 to R81, R208). -/
def readRow (s : State) (die site : Nat) (e : Entry) (b : CopyBlock) (r : Nat) : EngineAccess :=
  if b.transpose then
    readColumn s die site e (formatBytes b.format) b.pitch b.elements (b.address + r * formatBytes b.format)
  else if b.format = 7 ∨ b.format = 8 then
    (s.engineRead die site e (b.address + r * b.pitch) 64).andThen (fun bm s1 =>
      let n := ((rangeFrom 0 512).filter (bitmapBit bm)).length
      (s1.engineRead die site e (b.address + r * b.pitch + 64) (3 * cdiv n 4)).andThen (fun cs s2 => .got (bm ++ cs) s2))
  else s.engineRead die site e (b.address + r * b.pitch) b.rowLength

/-- What stands beside the row in memory: its scale bytes, or its bitmap (R80, R208). -/
def readAux (s : State) (die site : Nat) (e : Entry) (b : CopyBlock) (r : Nat) : EngineAccess :=
  if b.separateScales then s.engineRead die site e (b.aux + r * rowBlocks b.blockLength) (rowBlocks b.blockLength)
  else if b.bitmapSource then s.engineRead die site e (b.aux + 64 * r) 64
  else .got [] s

/-- The state of an engine's access that has gone through; a waiting one leaves the state as it was. -/
def EngineAccess.state (r : EngineAccess) (s : State) : State := match r with
  | .got _ t => t
  | .wait => s
  | .dead t => t

/-- One row of a copy block (R208, R215). -/
def copyRow (s : State) (die site : Nat) (e : Entry) (b : CopyBlock) (r : Nat) : EngineAccess :=
  let cl := coreCluster e.core
  if b.toMemory then
    let row := ((s.tileOf cl b.tile).map (fun t => t.row r)).getD { row := r, data := List.replicate 512 0, bitmap := List.replicate 64 0 }
    (s.engineWrite die site e (b.address + r * b.pitch) row.data).andThen (fun written s1 =>
      (if b.aux = 0 then EngineAccess.got [] s1 else s1.engineWrite die site e (b.aux + 64 * r) row.bitmap).andThen (fun _ s2 =>
        let s3 := s2.landIf written e b.bar b.barLevel b.barId 512
        .got [] (if r + 1 = b.rows then s3.tileDone cl b.tile else s3)))
  else
    (readRow s die site e b r).andThen (fun raw s1 =>
      (readAux s1 die site e b r).andThen (fun aux s2 =>
        let es := b.elems raw (aux.map BitVec.toNat)
        let row := tileRowOf b.dtype r es (if b.bitmapSource then some aux else none)
        let sat := (es.filter (fun x => x.2)).length
        let s3 := (s2.modTile cl b.tile (fun t => { (t.setRow row) with landed := decide (r + 1 = b.rows) })).modBatch e
          (fun q => { q with saturation := q.saturation + sat })
        .got [] (s3.landFor e b.bar b.barLevel b.barId 512)))

/-- Elements and bitmap bits of group `g` of a tile row (R91). -/
def groupElems (type : Nat) (r : TileRow) (g : Nat) : List (Nat × Bool) :=
  let n := Config.typeGroupSize type
  (rangeFrom (g * n) n).map (fun k => (elemAt r.data (Config.typeBytes type) k, bitmapBit r.bitmap k))

/-- Products with both bits set (R88). -/
def livePairs (a b : List (Nat × Bool)) : List (Nat × Nat) :=
  ((a.zip b).filter (fun p => p.1.2 && p.2.2)).map (fun p => (p.1.1, p.2.1))

/-- An accumulator element after one group (R89 to R91), and whether a void operand was met. A zero LC8 element has no code C
(R75): where its bitmap bit is set it adds nothing (DEDUCED, log 98). -/
def accGroup (type : Nat) (acc : Int) (a b : List (Nat × Bool)) : Int × Bool :=
  let ps := livePairs a b
  if type = 0 then
    let void := fun (p : Nat × Nat) => p.1 == 0x80 || p.2 == 0x80
    (wrapInt ((ps.filter (fun p => !void p && p.1 != 0 && p.2 != 0)).foldl (fun z p => z + lc8Product p.1 p.2) acc) 96, ps.any void)
  else if type = 1 then (wrapInt (ps.foldl (fun z p => z + sextNat p.1 8 * sextNat p.2 8) acc) 48, false)
  else
    let f := typeFmt type
    ((f32.add acc.toNat (groupSum (((a.zip b).map (fun p =>
      if p.1.2 && p.2.2 then (f.decode p.1.1).mul (f.decode p.2.1) else .fin false 0 0)))) : Nat), false)

/-- One group over all 64 × 64 elements (R222). -/
def Accumulator.addGroup (x : Accumulator) (type g : Nat) (ta tb : Tile) : Accumulator :=
  let as := (rangeFrom 0 64).map (fun i => groupElems type (ta.row i) g)
  let bs := (rangeFrom 0 64).map (fun j => groupElems type (tb.row j) g)
  let out := (rangeFrom 0 4096).map (fun n => accGroup type (nth 0 x.elems n) (nth [] as (n / 64)) (nth [] bs (n % 64)))
  { x with elems := out.map (fun p => p.1), void := x.void || out.any (fun p => p.2) }

/-- An accumulator of a site. -/
def Site.acc (x : Site) (k : Nat) : Accumulator := if k = 0 then x.acc0 else x.acc1

/-- A site with an accumulator changed. -/
def Site.setAcc (x : Site) (k : Nat) (a : Accumulator) : Site := if k = 0 then { x with acc0 := a } else { x with acc1 := a }

/-- A readout of one element (Table 10 of R93): bits, whether it counts as saturated, whether it is void. -/
def readout (x : Accumulator) (i out : Nat) : Nat × Bool × Bool :=
  let z := nth 0 x.elems i
  let type := x.type.getD 4
  if type = 0 ∧ x.void then ((if out = 4 then f32.nan else if out = 2 then bf16.nan else 0x80), false, true)
  else
    let v : Num := if type = 0 then Num.ofInt z (-44) false else if type = 1 then Num.ofInt z 0 false else f32.decode z.toNat
    if out = 0 then ((lc8Encode v).1, (lc8Encode v).2, false)
    else if out = 4 then ((if type ≤ 1 then f32.round v else z.toNat), false, false)
    else
      let r := bf16.round v
      (r, (match v with | .fin _ _ _ => true | .nan | .inf _ => false) && r % 2 ^ 15 == bf16.infBits, false)

/-- Row `i` of a readout (R224): 64 elements, the rest zero with clear bits. -/
def readoutRow (x : Accumulator) (out i : Nat) : TileRow :=
  let es := (rangeFrom 0 64).map (fun j => (readout x (64 * i + j) out).1)
  let row := tileRowOf out i (es.map (fun v => (v, false))) none
  { row with bitmap := packBits (es.map (elemNonZero out)) }

/-- Bits that a finished readout sets in %acs (R93, R225). -/
def readoutBits (x : Accumulator) (out : Nat) : Word :=
  let rs := (rangeFrom 0 4096).map (fun i => readout x i out)
  (if rs.any (fun r => r.2.1) then acsSaturation else 0) ||| (if rs.any (fun r => r.2.2) then acsVoid else 0)

/-- Whether a table row of GATH or SCAT may be moved (R210): R99, the declared ranges, the read-only data, and the
owner of each granule. A row that SCAT would write into a stamped region or a sluice object, which R185 and R158 forbid and R210 does not
name, is not moved and counts (DESIGN CHOICE, log 132). A row that GATH would read from a stamped region is not moved either: R185 lets ordinary
loads, LDC and LDAS read it, and R321 has every row beyond its table, those in the stamped region behind it too, count (DEDUCED, log 107). -/
def rowReachable (s : State) (l : Launch) (e : Entry) (va n : Nat) (isWrite : Bool) : Bool :=
  match classOfRange va n with
  | .global => l.inLease va n && !l.stampedAt va n && !(isWrite && (l.readOnlyAt va n || l.sluiceAt va n))
  | .scratch => s.granulesOwned e.ctx (s.parentOf e.ctx e.wg e.tid) (coreCluster e.core) va n
  | .priv | .bad => false

/-- One row of a gather or scatter (R210). -/
def moveRow (s : State) (die site : Nat) (e : Entry) (g : GatherBlock) (k : Nat) (gather : Bool) : EngineAccess :=
  match s.launch e.ctx with
  | none => .got [] s
  | some l =>
    (s.engineRead die site e (g.index + 4 * k) 4).andThen (fun ix s1 =>
      let va := g.base + leNat ix * g.pitch
      let packed := g.packed + k * g.rowBytes
      let skip := fun (s : State) => s.modBatch e (fun b => { b with notPerformed := b.notPerformed + 1 })
      let landed := fun (s : State) (written : List Byte) => s.landIf written e g.bar g.barLevel g.barId g.rowBytes
      if gather then
        (if rowReachable s1 l e va g.rowBytes false then s1.engineRead die site e va g.rowBytes
         else EngineAccess.got (List.replicate g.rowBytes 0) (skip s1)).andThen (fun bs s2 =>
          (s2.engineWrite die site e packed bs).andThen (fun w s3 => .got [] (landed s3 w)))
      else if rowReachable s1 l e va g.rowBytes true then
        (s1.engineRead die site e packed g.rowBytes).andThen (fun bs s2 =>
          (s2.engineWrite die site e va bs).andThen (fun w s3 => .got [] (landed s3 w)))
      else .got [] (skip s1))

/-- The operation of a collective (R211). -/
def collOp (op x y : Nat) : Nat := match op with
  | 0 => f32.add x y
  | 1 => (x + y) % 2 ^ 32
  | 2 => f32.maxNum x y
  | 3 => f32.minNum x y
  | _ => amoValue .hadd2 x y 0

/-- The value that rank `k` contributes to element `i`: from the vectors read here, from element `first` on, or what has arrived. -/
def contributed (cs : List Contribution) (here : List (Nat × List Byte)) (first k i : Nat) : Nat :=
  match here.find? (fun p => p.1 == k) with
  | some p => elemAt p.2 4 (i - first)
  | none => ((cs.find? (fun c => c.rank == k)).map (fun c => (nth 0 c.data i).toNat)).getD 0

/-- Elements of a collective in rank order (R211). -/
def combine (cs : List Contribution) (here : List (Nat × List Byte)) (nrank op first n : Nat) : List Byte :=
  (rangeFrom first n).flatMap (fun i =>
    leBytes 4 ((rangeFrom 1 (nrank - 1)).foldl (fun r k => collOp op r (contributed cs here first k i))
      (contributed cs here first 0 i)))

/-- The other ranks of a launch's cadastre that run on this module (R339). -/
def State.siblings (s : State) (l : Launch) : List Launch :=
  if l.nrank ≤ 1 then [] else s.launches.filter (fun m => m.live && m.ctx != l.ctx && m.nrank == l.nrank && m.cadastreTag == l.cadastreTag && m.rank != l.rank)

/-- A rank's part in a collective (R211): its entry in flight, and where it stands. -/
structure CollPart where
  rank : Nat
  die : Nat
  site : Nat
  entry : Entry
  src : Nat
  dst : Nat
  n : Nat
  op : Nat
  deriving DecidableEq, Repr

/-- An entry's part in a collective of a tag, while it is in flight. -/
def Entry.collPart (e : Entry) (ctx rank die site tag : Nat) : Option CollPart := match e.kind with
  | .coll src dst n t op =>
    if e.ctx == ctx && t == tag && e.started && !e.failed && decide (e.step < e.kind.steps) then
      some { rank := rank, die := die, site := site, entry := e, src := src, dst := dst, n := n, op := op }
    else none
  | .copy _ | .mxma _ _ _ | .accz _ _ | .accout _ _ _ | .gather _ | .scatter _ | .vdec _ _ _ _ _ _ _ _ _ _ _ _ | .fence _ => none

/-- A launch's part in a collective of a tag. -/
def State.collPart (s : State) (tag : Nat) (l : Launch) : Option CollPart :=
  s.sites.findSome? (fun x => (x.queue.head?).bind (fun e => e.collPart l.ctx l.rank x.die x.index tag))

/-- Reads `m` elements from element `first` on of every part. -/
def readParts (first m : Nat) : List CollPart → State → EngineAccess
  | [], s => .got [] s
  | p :: ps, s =>
    (s.engineRead p.die p.site p.entry (p.src + 4 * first) (4 * m)).andThen (fun bs s1 =>
      (readParts first m ps s1).andThen (fun rest s2 => .got (bs ++ rest) s2))

/-- Writes the result of a collective at every part, whose entries have then reached their ends. -/
def writeParts (out : List Byte) : List CollPart → State → EngineAccess
  | [], s => .got [] s
  | p :: ps, s =>
    (s.engineWrite p.die p.site p.entry p.dst out).andThen (fun _ s1 =>
      writeParts out ps (s1.modSite p.die p.site (fun x => { x with queue := x.queue.map (fun y =>
        if y.id == p.entry.id then { y with step := p.entry.kind.steps } else y) })))

/-- The first write of a collective's parts that would end its launch, as it does so. -/
def deadPart (out : List Byte) (ps : List CollPart) (s : State) : Option State :=
  ps.findSome? (fun p => match s.engineWrite p.die p.site p.entry p.dst out with
    | .dead t => some t
    | .got _ _ | .wait => none)

/-- One step of a collective (R211): it waits for every rank, for those of this module until their entries are in flight. A
contribution that differs in n or op fails it, as does the one of no elements by which another rank tells that its entry will not
be performed. The destinations are written at the end, those of this module's ranks together, since a collective completes at
every rank or at none. -/
def collStep (s : State) (die site : Nat) (e : Entry) (src dst n tag op : Nat) : EngineAccess :=
  match s.launch e.ctx with
  | none => .got [] s
  | some l =>
    let cs := s.contributions.filter (fun c => c.ctx == e.ctx && c.tag == tag)
    let others := s.siblings l
    let theirs := others.filterMap (s.collPart tag)
    let parts : List CollPart := { rank := l.rank, die := die, site := site, entry := e, src := src, dst := dst, n := n, op := op } :: theirs
    let afar := cs.filter (fun c => !others.any (fun m => m.rank == c.rank))
    if cs.any (fun c => c.n != n || c.op != op) || parts.any (fun p => p.n != n || p.op != op) then .dead (s.failEntry die site e)
    else if theirs.length < others.length || decide (afar.length + others.length + 1 < l.nrank) then .wait
    else
      let first := 4096 * e.step
      let m := Nat.min 4096 (n - first)
      (readParts first m parts s).andThen (fun bs s1 =>
        let here := (parts.zip (rangeFrom 0 parts.length)).map (fun p => (p.1.rank, (bs.drop (4 * m * p.2)).take (4 * m)))
        let out := e.partials ++ combine afar here l.nrank op first m
        if first + m < n then
          .got [] (s1.modSite die site (fun x => { x with queue := x.queue.map (fun y => if y.id == e.id then { y with partials := out } else y) }))
        else match deadPart out parts s1 with
          | some s2 => .dead s2
          | none => (writeParts out parts s1).andThen (fun _ s2 => .got [] s2))

/-- Band and strip of a plane of `w` × `h` samples as tile rows (R212): samples at band row `r`, positions from `x0`. -/
def planeRow (samples : List Nat) (w h y x0 n : Nat) (deep : Bool) (row : Nat) : TileRow :=
  let at' := fun (i : Nat) =>
    if x0 + i < w ∧ y < h then
      (let p := nth 0 samples (y * w + x0 + i)
       if deep then bf16.roundSticky false (p * 2 ^ 40 / 1023) (-40) (p * 2 ^ 40 % 1023 != 0) else (p + 128) % 256)
    else 0
  tileRowOf (if deep then 2 else 1) row ((rangeFrom 0 n).map (fun i => (at' i, false))) none

/-- The tiles of one plane, in order (R212): band, strip, half; each is its plane, band, and first position. -/
def planeTiles (plane w h : Nat) (deep : Bool) : List (Nat × Nat × Nat) :=
  (rangeFrom 0 (cdiv h 64)).flatMap (fun b =>
    (rangeFrom 0 (cdiv w 512)).flatMap (fun st =>
      if deep then [(plane, b, 512 * st), (plane, b, 512 * st + 256)] else [(plane, b, 512 * st)]))

/-- Every tile of a frame, in the order Y, Cb, Cr (R212). -/
def frameTiles (w h : Nat) (deep : Bool) : List (Nat × Nat × Nat) :=
  planeTiles 0 w h deep ++ planeTiles 1 (w / 2) (h / 2) deep ++ planeTiles 2 (w / 2) (h / 2) deep

/-- The step after which a tile's last row is decoded: 64 luma lines a step, and twice as many for chroma. -/
def tileStep (h plane band : Nat) : Nat := if plane = 0 then band else Nat.min (2 * band + 1) (frameRows h - 1)

/-- A decoded tile is written (R212), or a corrupt frame's (R213). -/
def frameTile (w h : Nat) (deep mono corrupt : Bool) (planes : List (List Nat)) (p : Nat × Nat × Nat) (t : Tile) : Tile :=
  let n := if deep then 256 else 512
  let pw := if p.1 = 0 then w else w / 2
  let ph := if p.1 = 0 then h else h / 2
  { t with
    landed := true, fault := corrupt,
    data := if corrupt || (mono && p.1 != 0) then [] else
      (rangeFrom 0 64).map (fun r => planeRow (nth [] planes p.1) pw ph (64 * p.2.1 + r) p.2.2 n deep r) }

/-- The tiles of a frame that one step writes. -/
def vdecTiles (s : State) (e : Entry) (w h : Nat) (deep : Bool) (first : Nat) (bar : Bool) (lv id : Nat)
    (mono corrupt : Bool) (planes : List (List Nat)) (pick : Nat → Bool) : State :=
  ((frameTiles w h deep).zip (rangeFrom first (frameTiles w h deep).length)).foldl
    (fun s p =>
      if pick (tileStep h p.1.1 p.1.2.1) then
        (s.entryTile e p.2 (frameTile w h deep mono corrupt planes p.1)).landFor e bar lv id 32768
      else s) s

/-- Whether a unit's frame is corrupt for a block and the references that its site holds (R213): frame size, depth or profile,
the key flag, and a reference slot that is empty. -/
def frameDiffers (f : Config.FrameHeader) (w h : Nat) (deep key : Bool) (refs : List Nat) : Bool :=
  f.width != w || f.height != h || f.depth != (if deep then 10 else 8) || f.profile != 0 || (key && !f.key)
    || f.slots.any (fun k => nth 0 refs k == 0)

/-- One step of a VDEC (R212 to R214): the unit is read and decoded as the entry's first step begins. -/
def vdecStep (s : State) (die site : Nat) (e : Entry) (src len w h stream : Nat) (key deep : Bool) (first : Nat) (bar : Bool)
    (lv id : Nat) : EngineAccess :=
  let go := fun (s : State) (d : List (List Nat) × Bool × List Nat) =>
    let s1 := vdecTiles s e w h deep first bar lv id d.2.1 false d.1 (fun k => k == e.step)
    if e.step + 1 = frameRows h then s1.modSite die site (fun x => { x with refs := d.2.2, stream := stream }) else s1
  match e.decoded with
  | some d => .got [] (go s d)
  | none =>
    (s.engineRead die site e src len).andThen (fun bs s1 =>
      let refs := if key then [] else (s1.siteOf die site).refs
      let s2 := s1.modSite die site (fun x => { x with refs := refs, stream := if key then stream else x.stream })
      let bad := match Config.av1Header bs with
        | none => true
        | some f => frameDiffers f w h deep key refs
      match (if bad then none else Config.av1Decode bs w h (if deep then 10 else 8) refs) with
      | some d =>
        .got [] ((go s2 d).modSite die site (fun x => { x with queue := x.queue.map (fun y => if y.id == e.id then { y with decoded := some d } else y) }))
      | none =>
        .dead ((((vdecTiles s2 e w h deep first bar lv id false true [] (fun _ => true)).modBatch e
            (fun b => { b with corrupt := b.corrupt + 1 }))).modSite die site
          (fun x => { x with queue := x.queue.map (fun y => if y.id == e.id then { y with step := frameRows h } else y) })))

/-- What the next step of an entry does. -/
def entryStep (s : State) (die site : Nat) (e : Entry) : EngineAccess :=
  match e.kind with
  | .copy bs => match copyAt bs e.step with
    | none => .got [] s
    | some (b, r) => copyRow s die site e b r
  | .mxma w ta tb =>
    match s.tileOf (coreCluster e.core) ta, s.tileOf (coreCluster e.core) tb with
    | some x, some y => .got [] (s.modSite die site (fun q => q.setAcc w.acc ((q.acc w.acc).addGroup w.type (w.start + e.step) x y)))
    | _, _ => .got [] s
  | .accz k type => .got [] (s.modSite die site (fun q => q.setAcc k { q.acc k with type := some type, void := false, elems := [] }))
  | .accout k type tile =>
    let q := (s.siteOf die site).acc k
    .got [] (s.entryTile e tile (fun t => { (t.setRow (readoutRow q type e.step)) with landed := decide (e.step = 63) }))
  | .gather g => moveRow s die site e g e.step true
  | .scatter g => moveRow s die site e g e.step false
  | .coll src dst n tag op => collStep s die site e src dst n tag op
  | .vdec src len w h stream key deep _ first bar lv id => vdecStep s die site e src len w h stream key deep first bar lv id
  | .fence _ => .got [] s

/-- MACRO_STEP (R219) at a site: the entry in flight does its next step. -/
def State.macroStep (s : State) (die site : Nat) : State :=
  match (s.siteOf die site).queue.head? with
  | none => s
  | some e =>
    if !e.started || e.failed || decide (e.kind.steps ≤ e.step) then s
    else if (s.launch e.ctx).isNone then s.failEntry die site e
    else
      match entryStep s die site e with
      | .got _ s1 => s1.bumpStep die site e
      | .wait => s
      | .dead s1 => s1

/-- Runs the entry in flight to its next stated step (R38, R202), at most `k` steps on. -/
def State.runToStated (s : State) (die site : Nat) : Nat → State
  | 0 => s
  | k + 1 =>
    match (s.siteOf die site).queue.head? with
    | none => s
    | some e =>
      if !e.started || e.failed || e.kind.stated e.step then s
      else State.runToStated (s.macroStep die site) die site k

end Sys2Proof.Machine
end

