-- ==== Sys2Proof/Machine/Arbiter.lean ====
section
/-! DEFINITION. The lease arbiter (R195 to R202): budget, free and booked sites, grants, releases and evictions, the end of
an entry (R205) and of its site's lease, and power (R193, R201). -/

namespace Sys2Proof.Machine

/-- Power of a class's site at an operating class (R193, R315). -/
def siteDraw (index opclass : Nat) : Nat := Config.sitePower (Config.siteClass index) opclass

/-- Whether a site draws power (R193). -/
def Site.powered (x : Site) : Bool := match x.power with
  | .dark => false
  | .waking _ | .awake | .lingering _ => true

/-- The operating class of the launch that books a site, if one does (R343). -/
def State.bookedClass (s : State) (die index : Nat) : Option Nat :=
  (s.launches.find? (fun l => l.live && l.booked.any (fun b => b.die == die && b.sites.contains index))).map (fun l => l.img.opclass)

/-- What a site counts against its die's budget (R193, R343, R355). -/
def State.siteCount (s : State) (die index : Nat) : Nat :=
  let x := s.siteOf die index
  Nat.max (if x.powered then siteDraw index x.opclass else 0) (((s.bookedClass die index).map (siteDraw index)).getD 0)

/-- Power of a die's sites by a measure of each, in units of 10 mW: of all of them, and of the MX ones. -/
def drawOf (f : Nat → Nat) : Nat × Nat :=
  ((rangeFrom 0 100).foldl (fun n i => n + f i) 0, (rangeFrom 0 64).foldl (fun n i => n + f i) 0)

/-- Power of a die's sites, in units of 10 mW. -/
def State.engineDraw (s : State) (die : Nat) : Nat := (drawOf (s.siteCount die)).1

/-- The class that a die's budget is of (R193, R355): the higher of its two clusters' pools. -/
def State.budgetClass (s : State) (die : Nat) : Nat := Nat.max (s.cluster (2 * die)).pool (s.cluster (2 * die + 1)).pool

/-- The budget of a die (R193, R355). -/
def State.engineBudget (s : State) (die : Nat) : Nat := Config.dieBudget (s.budgetClass die)

/-- Whether a draw is within a budget of a class (R193), and that of the MX sites within their part (R3). -/
def budgetHolds (opclass : Nat) (draw : Nat × Nat) : Bool := decide (draw.1 ≤ Config.dieBudget opclass) && decide (draw.2 ≤ Config.mxBudget opclass)

/-- Whether a die's draw is within its budget (R193). -/
def State.withinBudget (s : State) (die : Nat) (draw : Nat × Nat) : Bool := budgetHolds (s.budgetClass die) draw

/-- What a site draws now (R193). -/
def State.sitePowerNow (s : State) (die index : Nat) : Nat :=
  let x := s.siteOf die index
  if x.powered then siteDraw index x.opclass else 0

/-- Whether a site can be booked or granted (R367): not retired, not failed since the last self-test (R345,
R381), and its die not tripped off (R359). -/
def State.sitePresent (s : State) (die index : Nat) : Bool := !(s.die die).tripped && !(s.die die).deadSites.contains index && !(s.die die).failedSites.contains index

/-- Sites of a class on a die that are present. -/
def State.classSites (s : State) (die cls : Nat) : List Nat :=
  (rangeFrom (Config.classFirst cls) (Config.classCount cls)).filter (s.sitePresent die)

/-- Whether a site lingers for a workgroup (R201): from the release on, while its last entries still run too. -/
def Site.lingersFor (x : Site) (ctx wg : Nat) : Bool := match x.power with
  | .lingering _ => x.keeper == some (ctx, wg)
  | .awake => x.keep && x.lease.isNone && !x.queue.isEmpty && x.keeper == some (ctx, wg)
  | .dark | .waking _ => false

/-- Whether a site lingers. -/
def Site.lingers (x : Site) : Bool := match x.power with
  | .lingering _ => true
  | .dark | .waking _ | .awake => false

/-- Whether a site can be granted to an unreserved request: dark or lingering, not leased, not booked. -/
def State.siteFree (s : State) (die index : Nat) : Bool :=
  let x := s.siteOf die index
  x.lease.isNone && x.queue.isEmpty && (x.power == .dark || x.lingers) && (s.bookedClass die index).isNone

/-- The free sites of a class, in the order the arbiter takes them: those that keep the workgroup's state (R201), dark
ones, other lingering ones; by index within each. -/
def State.freeSites (s : State) (die cls ctx wg : Nat) (keepState : Bool) : List Nat :=
  let free := (s.classSites die cls).filter (s.siteFree die)
  let mine := (s.classSites die cls).filter (fun i => keepState && (s.siteOf die i).lingersFor ctx wg && (s.bookedClass die i).isNone)
  let rest := free.filter (fun i => !mine.contains i)
  mine ++ rest.filter (fun i => !(s.siteOf die i).lingers) ++ rest.filter (fun i => (s.siteOf die i).lingers)

/-- A site goes dark and discards its state (R200, R201). -/
def Site.goDark (x : Site) : Site := { x.cleared with power := .dark, keeper := none, keep := false, lease := none }

/-- The sites a grant takes, with the other lingering sites that go dark to fit the budget; none where it does not fit
(R197, R201). -/
def State.fitGrant (s : State) (die cls count ctx wg opclass : Nat) (keepState : Bool) : Option (List Nat × List Nat) :=
  let sites := (s.freeSites die cls ctx wg keepState).take count
  let others := (rangeFrom 0 100).filter (fun i => (s.siteOf die i).lingers && !sites.contains i)
  let after := fun (k : Nat) => drawOf (fun i =>
    if sites.contains i then siteDraw i opclass
    else if (others.take k).contains i then ((s.bookedClass die i).map (siteDraw i)).getD 0
    else s.siteCount die i)
  if sites.length < count then none
  else ((rangeFrom 0 (others.length + 1)).find? (fun k => s.withinBudget die (after k))).map (fun k => (sites, others.take k))

/-- The serial of a new grant of a die and lease number (R194). -/
def State.nextSerial (s : State) (die num : Nat) : Nat :=
  match s.serials.find? (fun x => x.1 == die && x.2.1 == num) with
  | none => 1
  | some x => if x.2.2 < 15 then x.2.2 + 1 else 1

/-- A site as a grant takes it (R193, R200, R201), under a number of its own for the new lease's internal state: a lingering
one of the workgroup keeps its state; one that still runs entries of a released lease has the new state when they have left,
and the recorded types are gone at once; any other starts its wake. -/
def Site.granted (x : Site) (now number handle ctx wg opclass : Nat) (keepState : Bool) : Site :=
  let kept := keepState && x.lingersFor ctx wg
  let y :=
    if kept then { x with power := .awake, lastA := none }
    else if !x.queue.isEmpty then
      { x with lineage := number, lastA := none, acc0 := { x.acc0 with recorded := none }, acc1 := { x.acc1 with recorded := none } }
    else { { x with lineage := number }.cleared with power := .waking (now + Config.wakeNs (Config.siteClass x.index)) }
  { y with opclass := opclass, lease := some handle, keeper := some (ctx, wg), keep := keepState, lastEntry := now }

/-- Grants a lease on given sites (R194): the new state and the handle of member 0. -/
def State.grantOn (s : State) (die cls ctx wg priority : Nat) (reserved keepState : Bool) (sites : List Nat)
    (ticket : Option Nat) : State × Nat :=
  let num := minBy id (nth 0 sites 0) sites
  let serial := s.nextSerial die num
  let handle := handleOf die num serial
  let opclass := withLaunch s ctx 0 (fun l => l.img.opclass)
  let kept := keepState && sites.any (fun i => (s.siteOf die i).lingersFor ctx wg)
  let s1 := sites.foldl (fun s i => s.modSite die i (fun x => x.granted s.now s.nextId handle ctx wg opclass keepState)) s
  let l : Lease := { handle := handle, ctx := ctx, wg := wg, cls := cls, count := sites.length, reserved := reserved, kept := kept,
                     keepState := keepState, priority := priority, grant := s.nextId, die := die, sites := sites, ticket := ticket, released := false }
  ({ s1 with
      leases := s1.leases ++ [l], nextId := s1.nextId + 1,
      serials := (die, num, serial) :: s1.serials.filter (fun x => !(x.1 == die && x.2.1 == num)) }, handle)

/-- What an entry that does not perform leaves of its tiles (R114): those that it is the filling command of take their fault flag,
and those that it reads have a reader less. -/
def State.voidTiles (s : State) (e : Entry) : State :=
  let cl := coreCluster e.core
  let s1 := s.filledBy e.id Tile.fail
  match e.kind with
  | .copy bs => bs.foldl (fun s b => if b.toMemory then s.tileDone cl b.tile else s) s1
  | .mxma _ ta tb => (s1.tileDone cl ta).tileDone cl tb
  | .accz _ _ | .accout _ _ _ | .gather _ | .scatter _ | .coll _ _ _ _ _ | .vdec _ _ _ _ _ _ _ _ _ _ _ _ | .fence _ => s1

/-- Follow-ons of a copy that does not perform are marked so too (R209). -/
def State.failFollowers (s : State) (id : Nat) : State :=
  { s with
    sites := s.sites.map (fun x => { x with queue := x.queue.map (fun y => if y.after == some id then { y with after := none, failed := true } else y) }),
    wgs := s.wgs.map (fun w => { w with savedSites := w.savedSites.map (fun v => { v with site := { v.site with
      queue := v.site.queue.map (fun y => if y.after == some id then { y with after := none, failed := true } else y) } }) }) }

/-- Follow-ons of a copy whose last byte has landed are released (R209). -/
def State.releaseFollowers (s : State) (id : Nat) : State :=
  { s with
    sites := s.sites.map (fun x => { x with queue := x.queue.map (fun y => if y.after == some id then { y with after := none } else y) }),
    wgs := s.wgs.map (fun w => { w with savedSites := w.savedSites.map (fun v => { v with site := { v.site with
      queue := v.site.queue.map (fun y => if y.after == some id then { y with after := none } else y) } }) }) }

/-- A rank of this module tells the others of it that its entry of a tag will not be performed (R211), but for those that have told
it so themselves. -/
def State.tellSiblings (s : State) (ctx tag : Nat) : State :=
  match s.launch ctx with
  | none => s
  | some l =>
    let told := fun (m : Launch) => s.contributions.any (fun c => c.ctx == ctx && c.tag == tag && c.rank == m.rank && c.n == 0)
    let word := fun (m : Launch) => ({ ctx := m.ctx, tag := tag, rank := l.rank, op := 0, n := 0, data := [] } : Contribution)
    { s with contributions := s.contributions ++ ((s.siblings l).filter (fun m => !told m)).map word }

/-- An entry is marked not performed and leaves its queue (R202, R205). A collective fails for its tag, at every rank. -/
def State.notPerformed (s : State) (e : Entry) : State :=
  let s1 := ((s.voidTiles e).finishEntry e true).failFollowers e.id
  match e.kind with
  | .coll _ _ _ tag _ =>
    let s2 := s1.tellSiblings e.ctx tag
    { s2 with contributions := s2.contributions.filter (fun c => !(c.ctx == e.ctx && c.tag == tag)) }
  | .copy _ | .mxma _ _ _ | .accz _ _ | .accout _ _ _ | .gather _ | .scatter _ | .vdec _ _ _ _ _ _ _ _ _ _ _ _ | .fence _ => s1

/-- A site that has run its last entry after its lease's release goes dark, or lingers for 50 µs after that entry (R200,
R201). -/
def State.settleSite (s : State) (die index : Nat) : State :=
  s.modSite die index (fun x =>
    if x.lease.isNone && x.queue.isEmpty then
      (match x.power with
       | .awake => if x.keep && decide (s.now < x.lastEntry + 50000) then { x with power := .lingering (x.lastEntry + 50000) } else x.goDark
       | .dark | .waking _ => x.goDark
       | .lingering _ => x)
    else x)

/-- Whether an entry in flight has reached its end. -/
def Entry.finished (e : Entry) : Bool := e.started && !e.failed && decide (e.kind.steps ≤ e.step)

/-- What a completed entry leaves besides its writes (R205, R209, R224, R279): reader counts, %acs, follow-ons, and the
copies that a joining fence makes unusable. -/
def State.completeEffects (s : State) (die site : Nat) (e : Entry) : State :=
  let cl := coreCluster e.core
  match e.kind with
  | .copy _ => s.releaseFollowers e.id
  | .mxma _ ta tb => (s.tileDone cl ta).tileDone cl tb
  | .accout k type _ =>
    let bitsSet := readoutBits ((s.siteOf die site).acc k) type
    s.modWg e.ctx e.wg (fun w => { w with acs := w.acs ||| bitsSet })
  | .fence _ =>
    { s with copies := s.copies.filter (fun c => !(c.path == enginePath site && c.owner == engineOwner die site)) }
  | .coll _ _ _ tag _ => { s with contributions := s.contributions.filter (fun c => !(c.ctx == e.ctx && c.tag == tag)) }
  | .accz _ _ | .gather _ | .scatter _ | .vdec _ _ _ _ _ _ _ _ _ _ _ _ => s

/-- The head entry leaves its queue. -/
def State.popEntry (s : State) (die site : Nat) : State :=
  s.modSite die site (fun x => { x with queue := x.queue.tail, lastEntry := s.now }.turn)

/-- Whether a tile that an entry fills has all its bytes, but is not yet ready (R114). -/
def State.fillingFor (s : State) (e : Entry) : Bool := s.tiles.any (fun t => t.filler == e.id && t.state == .filling && t.landed)

/-- ENTRY_COMPLETE (R205): the head entry's last write has performed, its tiles being ready (R280), or it is marked not
performed. -/
def State.entryComplete (s : State) (die site : Nat) : State :=
  match (s.siteOf die site).queue.head? with
  | none => s
  | some e =>
    if e.failed then ((s.popEntry die site).notPerformed e).settleSite die site
    else if e.finished && !s.fillingFor e then (((s.completeEffects die site e).popEntry die site).finishEntry e false).settleSite die site
    else s

/-- Whether every fence of a join that still stands is at the head of its queue (R206). -/
def State.fenceJoined (s : State) (join : Nat) : Bool :=
  s.sites.all (fun x => x.queue.tail.all (fun y => y.kind != .fence join)) &&
    s.wgs.all (fun w => w.savedSites.all (fun v => v.site.queue.all (fun y => y.kind != .fence join)))

/-- Whether a follow-on's tiles let it start (R209); every other entry's tiles were judged at issue. TSET drains a ready tile that a
follow-on counts, as R227 and Table 4 of R114 have it, and the follow-on starts on it (DESIGN CHOICE, log 140: R209 says of such a tile that
it cannot be set draining). -/
def State.tilesReady (s : State) (e : Entry) : Bool := match e.kind with
  | .mxma _ ta tb =>
    let ready := fun n => (s.tileOf (coreCluster e.core) n).any (fun t => t.state == .ready || t.state == .draining)
    ready ta && ready tb
  | .fence j => s.fenceJoined j
  | .copy _ | .accz _ _ | .accout _ _ _ | .gather _ | .scatter _ | .coll _ _ _ _ _ | .vdec _ _ _ _ _ _ _ _ _ _ _ _ => true

/-- Whether a tile of an MXMA has its fault flag set (R115, R209). -/
def State.tilesFaulted (s : State) (cluster ta tb : Nat) : Bool :=
  (s.tileOf cluster ta).any (fun t => t.fault) || (s.tileOf cluster tb).any (fun t => t.fault)

/-- ENTRY_START (R205): the head entry starts once what it waits for allows and its site is awake. -/
def State.entryStart (s : State) (die site : Nat) : State :=
  let x := s.siteOf die site
  match x.queue.head? with
  | none => s
  | some e =>
    if e.started || e.failed || x.power != .awake || e.after.isSome || !s.tilesReady e then s
    else
      let s1 := s.modSite die site (fun x => { x with queue := x.queue.map (fun y => if y.id == e.id then { y with started := true } else y) })
      match e.kind with
      | .mxma _ ta tb =>
        if e.follow && s.tilesFaulted (coreCluster e.core) ta tb then s1.modWg e.ctx e.wg (fun w => { w with acs := w.acs ||| acsFaulted }) else s1
      | .copy _ | .accz _ _ | .accout _ _ _ | .gather _ | .scatter _ | .coll _ _ _ _ _ | .vdec _ _ _ _ _ _ _ _ _ _ _ _ | .fence _ => s1

/-- The entry in flight at a site stops at a stated step (R38, R202); one that reaches its end there completes, its tiles being
ready (R280). -/
def State.stopEntry (s : State) (die index : Nat) : State :=
  let s1 := s.runToStated die index 8
  match (s1.siteOf die index).queue.head? with
  | some e => if e.finished then (s1.filledBy e.id Tile.ready).entryComplete die index else s1
  | none => s1

/-- Eviction of some of a site's entries (R202): one in flight runs to its next stated step, and completes if that is its end; the
rest is marked not performed. -/
def State.evictEntries (s : State) (die index : Nat) (mine : Entry → Bool) : State :=
  let s1 := if ((s.siteOf die index).queue.head?).any mine then s.stopEntry die index else s
  let left := (s1.siteOf die index).queue.filter mine
  (left.foldl State.notPerformed s1).modSite die index (fun x => { x with queue := x.queue.filter (fun e => !mine e) }.turn)

/-- Eviction of everything at a site (R202): its state is discarded, and it goes dark. -/
def State.evictSite (s : State) (die index : Nat) : State :=
  (s.evictEntries die index (fun _ => true)).modSite die index Site.goDark

/-- Eviction of a lease at one member (R202): a site that still runs the entries of a lease released before keeps them (R200), and
goes dark after the last. -/
def State.evictMember (s : State) (l : Lease) (index : Nat) : State :=
  (s.evictEntries l.die index (fun e => e.handle == l.handle && e.ctx == l.ctx && e.wg == l.wg)).modSite l.die index (fun x =>
    if x.queue.isEmpty then x.goDark else { x with lease := none, lastA := none, keep := false })

/-- FORCED_EVICTION (R43, R202): a lease ends, at every member, and its first use will report it. -/
def State.evict (s : State) (l : Lease) : State :=
  let s1 := l.sites.foldl (fun s i => s.evictMember l i) s
  let s2 : State := { s1 with leases := s1.leases.filter (fun x => x.handle != l.handle || x.ctx != l.ctx || x.wg != l.wg), evicted := s1.evicted ++ [l] }
  if l.cls = 0 then s2.modWg l.ctx l.wg (fun w => { w with acs := w.acs ||| acsEvicted }) else s2

/-- Eviction of a reserved lease is a breach of the device (R44, R345), which names its member 0. -/
def State.evictedReserved (s : State) (l : Lease) : State :=
  if l.reserved then s.breach l.ctx 1 7 (nth 0 l.sites 0) l.die false else s

/-- The slot's bookings of a workgroup (R196, R343). -/
def Launch.bookingsOf (l : Launch) (slot : Nat) : List Booking := l.booked.filter (fun b => b.slot == slot)

/-- A booking that a LEASE of a class and count matches (R196): one that is preferred, where there is one. -/
def Launch.matchBooking (l : Launch) (slot cls count : Nat) (preferred : Booking → Bool) : Option Booking :=
  let fit := (l.bookingsOf slot).filter (fun b => b.cls == cls && b.sites.length == count && b.taken.isNone)
  ((fit.filter preferred) ++ fit).head?

/-- Whether a booking's sites keep the state of a workgroup (R201). -/
def State.bookingLingers (s : State) (ctx wg : Nat) (b : Booking) : Bool := b.sites.any (fun i => (s.siteOf b.die i).lingersFor ctx wg)

/-- A booking's taker set. -/
def State.markBooking (s : State) (ctx : Nat) (b : Booking) (taken : Option Nat) : State :=
  s.modLaunch ctx (fun l => { l with booked := l.booked.map (fun x =>
    if x.slot == b.slot && x.die == b.die && x.sites == b.sites then { x with taken := taken } else x) })

/-- Evicts the borrowers of a booking's sites (R196). -/
def State.clearBooked (s : State) (b : Booking) : State :=
  b.sites.foldl (fun s i =>
    match s.leases.find? (fun l => l.die == b.die && l.sites.contains i) with
    | some l => s.evict l
    | none => s) s

/-- Leases that are not reserved on a die, in the order in which power is shed (R202). -/
def State.shedOrder (s : State) (die : Nat) : List Lease :=
  sortBy (fun x y => decide (x.priority < y.priority) || (x.priority == y.priority && decide (y.grant ≤ x.grant)))
    (s.leases.filter (fun l => l.die == die && !l.reserved))

/-- Power is shed until a test holds (R201, R202): lingering sites go dark, then leases are evicted in their order. -/
def State.shedUntil (s : State) (die : Nat) (keep : List Nat) (ok : State → Bool) (leases : List Lease) : State :=
  let s1 := (rangeFrom 0 100).foldl (fun s i => if ok s || !(s.siteOf die i).lingers || keep.contains i then s else s.modSite die i Site.goDark) s
  leases.foldl (fun s l => if ok s then s else s.evict l) s1

/-- Whether a die is within budget once sites draw the power of a class (R193). -/
def State.fitsAwake (die opclass : Nat) (sites : List Nat) (s : State) : Bool :=
  s.withinBudget die (drawOf (fun i => if sites.contains i then siteDraw i opclass else s.sitePowerNow die i))

/-- Where a die's budget has fallen below what its sites draw, power is shed (R193, R202, R355). -/
def State.keepBudget (s : State) (die : Nat) : State :=
  s.shedUntil die [] (fun s => s.withinBudget die (drawOf (s.sitePowerNow die))) (s.shedOrder die)

/-- A matching LEASE takes its booking and is granted at once (R196). Where its sites would take the die over its budget, power
is shed as in R202 first (DEDUCED from R193, log 80). -/
def State.takeBooking (s : State) (ctx wg priority : Nat) (keepState : Bool) (b : Booking) : State × Nat :=
  let s0 := s.clearBooked b
  let opclass := withLaunch s ctx 0 (fun l => l.img.opclass)
  let s1 := s0.shedUntil b.die b.sites (State.fitsAwake b.die opclass b.sites) (s0.shedOrder b.die)
  let r := s1.grantOn b.die b.cls ctx wg priority true keepState b.sites none
  (r.1.markBooking ctx b (some r.2), r.2)

/-- A released lease (R200): its handle is no longer valid, its entries run on, and a booking returns to the workgroup. -/
def State.releaseLease (s : State) (l : Lease) : State :=
  let s1 : State := { s with leases := s.leases.filter (fun x => x.handle != l.handle || x.ctx != l.ctx || x.wg != l.wg) }
  let s2 := s1.modLaunch l.ctx (fun x => { x with booked := x.booked.map (fun b =>
    if b.taken == some l.handle && b.die == l.die then { b with taken := none } else b) })
  l.sites.foldl (fun s i =>
    (s.modSite l.die i (fun x =>
      { x with
        lease := none, lastA := none,
        acc0 := if x.keep then x.acc0 else { x.acc0 with recorded := none },
        acc1 := if x.keep then x.acc1 else { x.acc1 with recorded := none } })).settleSite l.die i) s2

/-- Whether a die can grant an unreserved request at once (R195). -/
def State.grantable (s : State) (die cls count ctx wg opclass : Nat) (keepState : Bool) : Bool :=
  (s.dieQueue die).isEmpty && (s.fitGrant die cls count ctx wg opclass keepState).isSome

/-- Whether a die takes unreserved lease requests of a launch: a quiescing die takes those of supervisor launches only
(R351). -/
def State.takesWork (s : State) (die : Nat) (supervisor : Bool) : Bool :=
  supervisor || (s.die die).pqc.toNat % 2 == 0

/-- LEASE_GRANT (R197): the head of the die's queue is granted when the die has the sites and the budget. -/
def State.grantHead (s : State) (die : Nat) : State :=
  match (s.dieQueue die).head? with
  | none => s
  | some r =>
    match s.fitGrant die r.cls r.count r.ctx r.wg r.opclass r.keepState with
    | none => s
    | some p =>
      let s1 := p.2.foldl (fun s i => s.modSite die i Site.goDark) s
      let q := s1.grantOn die r.cls r.ctx r.wg r.priority false r.keepState p.1 (some r.ticket)
      { q.1 with requests := q.1.requests.filter (fun x => x != r) }

/-- An unreserved request at a die (R195, R197): granted at once, queued with a ticket, or DENIED. DESIGN CHOICE (log 108): one that
would head a full queue and fits is granted; R195 has it granted at once and DENIED. -/
def State.requestLease (s : State) (die cls count ctx wg priority : Nat) (keepState supervisor : Bool) : State × Word :=
  let opclass := withLaunch s ctx 0 (fun l => l.img.opclass)
  if (s.classSites die cls).length < count then (s, stDenied)
  else if !s.takesWork die supervisor then (s, stDenied)
  else
    let ticket := (s.die die).ticket % 2 ^ 13
    let r : Request := { die := die, ticket := ticket, ctx := ctx, wg := wg, cls := cls, count := count, keepState := keepState,
                         priority := priority, opclass := opclass, arrival := s.nextId }
    let joined : State := { s.modDie die (fun d => { d with ticket := (d.ticket + 1) % 2 ^ 13 }) with
      requests := s.requests ++ [r], nextId := s.nextId + 1 }
    if ((joined.dieQueue die).head?) = some r ∧ (s.fitGrant die cls count ctx wg opclass keepState).isSome then
      (match s.fitGrant die cls count ctx wg opclass keepState with
       | none => (s, stDenied)
       | some p =>
         let q := (p.2.foldl (fun s i => s.modSite die i Site.goDark) s).grantOn die cls ctx wg priority false keepState p.1 none
         (q.1, BitVec.ofNat 32 q.2))
    else if 256 ≤ (s.dieQueue die).length then (s, stDenied)
    else (joined, ticketWord (joined.ahead r) die ticket)

end Sys2Proof.Machine
end

