-- ==== Sys2Proof/Machine/Command.lean ====
section
/-! DEFINITION. Group 0xB: leases (R195 to R200), the streaming commands with their blocks (R204, R207 to R214), QFENCE
(R206) and batches (R216 to R218). -/

namespace Sys2Proof.Machine

/-- An operand check that raises ILLEGAL with operand 0. -/
def illegalIf (b : Bool) : Option TrapInfo := if b then trapOf .illegal 0 else none

/-- An instruction whose effect computes a word for d from the state (R231: every d is variable-latency). -/
def statusOp (i : Instr) (chk : State → Group → Thread → Option TrapInfo) (d : Reg) (f : State → Group → Thread → State × Word)
    (s : State) : State :=
  issue i chk (fun s g tid => match s.threadOf g.ctx g.wg tid with
    | none => s
    | some t => let r := f s g t; giveWord g tid (rn d) r.2 r.1) s

/-! Leases. -/

/-- The reserved bits and values of a lease request (R195). -/
def leaseCheck (a b : Nat) : Option TrapInfo :=
  illegalIf (bits a 31 5 != 0 || bits b 31 11 != 0 || bits b 7 6 != 0 || bits b 3 3 != 0 || decide (5 ≤ bits a 2 0) || bits b 5 4 == 3)

/-- The die that an unreserved request goes to (R195): none for a named die outside the partition. -/
def leaseDie (s : State) (own cls count ctx wg : Nat) (keepState : Bool) (placement named : Nat) : Option Nat :=
  if placement = 1 then (if (s.partDies own).contains named then some named else none)
  else if placement = 2 then
    some (((s.reachable 8 [own]).find? (fun d => s.grantable d cls count ctx wg (withLaunch s ctx 0 (fun l => l.img.opclass)) keepState)).getD own)
  else some own

/-- LEASE's effect and value (R195, R196). -/
def leaseOp (s : State) (g : Group) (a b : Nat) : State × Word :=
  let cls := bits a 2 0
  let count := bits a 4 3 + 1
  let priority := bits b 1 0
  let keepState := bitOf b 2
  let slot := ((s.wgOf g.ctx g.wg).map (fun w => w.slot)).getD 0
  match withLaunch s g.ctx none (fun l => l.matchBooking slot cls count (fun b => keepState && s.bookingLingers g.ctx g.wg b)) with
  | some k => let r := s.takeBooking g.ctx g.wg priority keepState k; (r.1, BitVec.ofNat 32 r.2)
  | none =>
    if 8 ≤ (s.leases.filter (fun l => l.ctx == g.ctx && l.wg == g.wg)).length then (s, stDenied)
    else
      match leaseDie s (coreDie g.core) cls count g.ctx g.wg keepState (bits b 5 4) (bits b 10 8) with
      | none => (s, stDenied)
      | some die => s.requestLease die cls count g.ctx g.wg priority keepState (s.privileged g)

/-- LREL's effect and value (R200). -/
def releaseOp (s : State) (g : Group) (w : Nat) : State × Word :=
  match s.nameTicket g.ctx g.wg w with
  | some r => ({ s with requests := s.requests.filter (fun x => x != r) }, 0)
  | none =>
    match s.nameWord g.ctx g.wg w with
    | .member l _ => (s.releaseLease l, 0)
    | .evicted l => (s.reported l, 0)
    | .bad => (s, stBadHandle)

/-- LSTAT's word (R199). -/
def leaseWord (s : State) (g : Group) (w : Nat) : Word :=
  match s.nameTicket g.ctx g.wg w with
  | some r => BitVec.ofNat 32 (Nat.min (s.ahead r) 0x1FFF * 2 ^ 3 + 1)
  | none =>
    match s.nameWord g.ctx g.wg w with
    | .member l m =>
      let awake := (s.siteOf l.die (l.site m)).power == .awake
      BitVec.ofNat 32 (l.site m * 2 ^ 25 + l.die * 2 ^ 22 + (if l.kept then 2 ^ 17 else 0) + (if l.reserved then 2 ^ 16 else 0)
        + (if awake then 3 else 2))
    | .evicted _ => 4
    | .bad => 0

/-! Command blocks. -/

/-- A byte range that a command reads or writes. -/
structure Range where
  addr : Nat
  size : Nat
  isWrite : Bool
  deriving DecidableEq, Repr

/-- The outcome of a command at issue (R204). -/
inductive Verdict where
  | trap (i : TrapInfo)
  | status (w : Word) (report : Option Lease)
  | hold (h : HoldKind)
  | accepted
  deriving DecidableEq, Repr

/-- A parsed command: what it does, its ranges, the class of its handle, whether its ranges must be global, and the
follow-on of a TCOPYM. -/
structure Command where
  kind : EntryKind
  cls : Nat
  ranges : List Range
  globalOnly : Bool
  follow : Option (MatrixWord × Nat × Nat)
  deriving DecidableEq, Repr

/-- The thread's earlier stores to a block perform before it is read (R204, step 1; R277), whatever comes of the command, and what they
wait for before them. -/
def drainBlock (s : State) (g : Group) (tid addr n : Nat) : State :=
  let key := scratchKey (scratchTarget (coreCluster g.core) addr).1 (scratchTarget (coreCluster g.core) addr).2
  s.drain (fun a => a.ctx == g.ctx && a.wg == g.wg && a.tid == tid && a.op.memory && rangesMeet (s.accKey a) a.size key n)

/-- A word of a block. -/
def blockWord (bs : List Byte) (i : Nat) : Nat := elemAt bs 4 i

/-- Two words of a block as one number. -/
def blockPair (bs : List Byte) (i : Nat) : Nat := blockWord bs i + blockWord bs (i + 1) * 2 ^ 32

/-- Whether words `i` to 15 of a block are zero. -/
def tailZero (bs : List Byte) (i : Nat) : Bool := (rangeFrom i (16 - i)).all (fun k => blockWord bs k == 0)

/-- The copy block of 64 bytes (Table 3 of R207). -/
def parseCopy (bs : List Byte) : CopyBlock where
  address := blockPair bs 0
  pitch := blockWord bs 2
  elements := bits (blockWord bs 3) 18 8
  rows := bits (blockWord bs 3) 6 0
  dtype := bits (blockWord bs 4) 11 9
  scaleInline := bitOf (blockWord bs 4) 8
  blockLength := bits (blockWord bs 4) 5 4
  scaleKind := bits (blockWord bs 4) 7 6
  format := bits (blockWord bs 4) 3 0
  bar := bitOf (blockWord bs 5) 27
  barLevel := bits (blockWord bs 5) 26 24
  barId := bits (blockWord bs 5) 23 20
  toMemory := bitOf (blockWord bs 5) 19
  bitmapSource := bitOf (blockWord bs 5) 17
  transpose := bitOf (blockWord bs 5) 16
  tile := bits (blockWord bs 5) 9 0
  aux := blockPair bs 6

/-- Whether a copy block chains to the next (R207). -/
def chained (bs : List Byte) : Bool := bitOf (blockWord bs 5) 18

/-- Destination types of a source format (Table 5 of R84). -/
def destTypes (format : Nat) : List Nat := nth [0] [[0], [1], [2, 4], [3, 4], [4, 2, 3, 0]] format

/-- The reserved fields of a copy block (R207). -/
def copyReserved (bs : List Byte) (withFollow : Bool) : Bool :=
  bits (blockWord bs 3) 31 19 != 0 || bits (blockWord bs 3) 7 7 != 0 || bits (blockWord bs 4) 31 12 != 0
    || bits (blockWord bs 5) 31 28 != 0 || bits (blockWord bs 5) 15 10 != 0 || !tailZero bs 10
    || (if withFollow then bits (blockWord bs 9) 31 17 != 0 || bits (blockWord bs 9) 15 10 != 0
        else blockWord bs 8 != 0 || blockWord bs 9 != 0)

/-- The conditions of R85 and R207 on a copy block. -/
def copyIllegal (b : CopyBlock) (chain : Bool) : Bool :=
  decide (9 ≤ b.format) || decide (2 ≤ b.scaleKind)
    || ((decide (b.format ≤ 5) || b.format == 7) && (b.blockLength != 0 || b.scaleKind != 0 || b.scaleInline))
    || ((b.format == 6 || b.format == 8) && (b.blockLength == 0 || b.scaleKind == 0))
    || (b.format == 8 && b.scaleInline)
    || !(destTypes b.format).contains b.dtype || b.elements * Config.typeBytes b.dtype != 512
    || b.rows == 0 || decide (64 < b.rows) || decide (2 < b.barLevel)
    || ((b.transpose || b.bitmapSource) && decide (5 ≤ b.format)) || (b.bitmapSource && b.separateScales)
    || (b.aux != 0 && !(b.separateScales || b.bitmapSource || b.toMemory))
    || (b.toMemory && (b.transpose || b.bitmapSource || chain))

/-- Byte ranges of a copy block (R204, step 3). -/
def CopyBlock.ranges (b : CopyBlock) : List Range :=
  let row := fun (k n : Nat) (w : Bool) => ({ addr := b.address + k * b.pitch, size := n, isWrite := w } : Range)
  if b.toMemory then
    (rangeFrom 0 b.rows).map (fun r => row r 512 true) ++ (if b.aux = 0 then [] else [{ addr := b.aux, size := 64 * b.rows, isWrite := true }])
  else
    (if b.transpose then (rangeFrom 0 b.elements).map (fun k => row k (b.rows * formatBytes b.format) false)
     else (rangeFrom 0 b.rows).map (fun r => row r b.longestRow false))
      ++ (if b.separateScales then [{ addr := b.aux, size := b.rows * rowBlocks b.blockLength, isWrite := false }]
          else if b.bitmapSource then [{ addr := b.aux, size := 64 * b.rows, isWrite := false }] else [])

/-- The fields of a matrix control word (R220). -/
def parseMatrix (w : Nat) : MatrixWord where
  handle := bits w 31 16
  acc := bits w 15 15
  type := bits w 14 12
  sparse := bitOf w 11
  keep := bitOf w 10
  groups := bits w 9 5 + 1
  start := bits w 4 0

/-- Step 1 of R222. -/
def matrixIllegal (w : MatrixWord) : Bool := decide (5 ≤ w.type) || decide (Config.typeGroups w.type < w.start + w.groups)

/-- Tiles that blocks of a chain fill. -/
def fillTiles (bs : List CopyBlock) : List Nat := (bs.filter (fun b => !b.toMemory)).map (fun b => b.tile)

/-- Whether a chain's to-memory block reads a tile that an earlier block fills (R207). -/
def readsOwnFill (bs : List CopyBlock) : Bool := bs.any (fun b => b.toMemory && (fillTiles bs).contains b.tile)

/-- TCOPY's chain of blocks (R207): none raises ILLEGAL. -/
def parseChain (blocks : List (List Byte)) : Option Command :=
  let bs := blocks.map parseCopy
  let bad := blocks.any (fun x => copyReserved x false || copyIllegal (parseCopy x) (chained x))
    || (decide (blocks.length = 8) && (blocks.getLast?).any chained) || readsOwnFill bs
  if bad then none
  else some { kind := .copy bs, cls := 1, ranges := bs.flatMap CopyBlock.ranges, globalOnly := false, follow := none }

/-- TCOPYM's block with its follow-on (R207, R209): none raises ILLEGAL. -/
def parseCopyMatrix (x : List Byte) : Option Command :=
  let b := parseCopy x
  let w := parseMatrix (blockWord x 8)
  let other := bits (blockWord x 9) 9 0
  let ab := if bitOf (blockWord x 9) 16 then (other, b.tile) else (b.tile, other)
  if copyReserved x true || copyIllegal b (chained x) || chained x || b.toMemory || matrixIllegal w then none
  else some { kind := .copy [b], cls := 1, ranges := b.ranges, globalOnly := false, follow := some (w, ab.1, ab.2) }

/-- The gather or scatter block (Table 4 of R210): none raises ILLEGAL. -/
def parseGather (x : List Byte) (gather : Bool) : Option Command :=
  let g : GatherBlock :=
    { base := blockPair x 0, pitch := blockWord x 2, rowBytes := blockWord x 3, count := blockWord x 4, index := blockPair x 5,
      packed := blockPair x 7, bar := bitOf (blockWord x 9) 7, barLevel := bits (blockWord x 9) 6 4, barId := bits (blockWord x 9) 3 0 }
  if bits (blockWord x 9) 31 8 != 0 || !tailZero x 10 || decide (2 < g.barLevel) || decide (g.rowBytes < 4) || decide (4096 < g.rowBytes)
      || g.rowBytes % 4 != 0 || g.count == 0 || decide (4096 < g.count) || g.index % 4 != 0 || g.packed % 4 != 0 then none
  else some { kind := if gather then .gather g else .scatter g, cls := 2, globalOnly := false, follow := none,
              ranges := [{ addr := g.index, size := 4 * g.count, isWrite := false },
                         { addr := g.packed, size := g.count * g.rowBytes, isWrite := gather }] }

/-- The collective block (R211): none raises ILLEGAL. -/
def parseColl (x : List Byte) : Option Command :=
  let src := blockPair x 0
  let dst := blockPair x 2
  let n := blockWord x 4
  let op := bits (blockWord x 5) 2 0
  if n == 0 || decide (2 ^ 24 < n) || bits (blockWord x 5) 15 3 != 0 || decide (4 < op) || !tailZero x 6 || src % 4 != 0 || dst % 4 != 0 then none
  else some { kind := .coll src dst n (bits (blockWord x 5) 31 16) op, cls := 3, globalOnly := true, follow := none,
              ranges := [{ addr := src, size := 4 * n, isWrite := false }, { addr := dst, size := 4 * n, isWrite := true }] }

/-- The tile count of a frame (R212). -/
def frameTileCount (w h deep : Nat) : Nat := (1 + deep) * (cdiv w 512 * cdiv h 64 + 2 * (cdiv w 1024 * cdiv h 128))

/-- The video decode block (R212): none raises ILLEGAL. -/
def parseVdec (x : List Byte) : Option Command :=
  let len := blockWord x 2
  let h := bits (blockWord x 3) 28 16
  let w := bits (blockWord x 3) 12 0
  let deep := bits (blockWord x 4) 0 0
  let tiles := bits (blockWord x 5) 25 16
  let lv := bits (blockWord x 6) 6 4
  if len == 0 || decide (2 ^ 24 < len) || bits (blockWord x 3) 31 29 != 0 || bits (blockWord x 3) 15 13 != 0 || decide (h < 16)
      || decide (2304 < h) || h % 2 != 0 || decide (w < 16) || decide (4096 < w) || w % 2 != 0 || bits (blockWord x 4) 15 2 != 0
      || bits (blockWord x 5) 31 26 != 0 || bits (blockWord x 5) 15 10 != 0 || tiles != frameTileCount w h deep
      || bits (blockWord x 6) 31 8 != 0 || decide (2 < lv) || !tailZero x 7 then none
  else some { kind := .vdec (blockPair x 0) len w h (bits (blockWord x 4) 31 16) (bitOf (blockWord x 4) 1) (deep == 1) tiles
                (bits (blockWord x 5) 9 0) (bitOf (blockWord x 6) 7) lv (bits (blockWord x 6) 3 0),
              cls := 4, globalOnly := true, follow := none, ranges := [{ addr := blockPair x 0, size := len, isWrite := false }] }

/-- Step 1 of R204 for the block at an address. -/
def blockCheck (s : State) (g : Group) (parent : Option Nat) (addr : Nat) : Option TrapInfo :=
  if addr % 64 != 0 then trapOf .align addr
  else if classOf addr != .scratch then trapOf .access addr
  else if !s.granulesOwned g.ctx parent (coreCluster g.core) addr 64 then trapOf .access addr
  else none

/-- The bytes of a block, after the thread's earlier stores to it (R204). -/
def blockBytes (s : State) (g : Group) (tid addr : Nat) : List Byte :=
  let t := scratchTarget (coreCluster g.core) addr
  (drainBlock s g tid addr 64).readBank t.1 t.2 64

/-- The blocks of a chain from an address, at most `k`; a trap where one cannot be read (R204, R207). -/
def readChain (s : State) (g : Group) (tid : Nat) : Nat → Nat → Except TrapInfo (List (List Byte))
  | 0, _ => .ok []
  | k + 1, addr =>
    match blockCheck s g (s.parentOf g.ctx g.wg tid) addr with
    | some i => .error i
    | none =>
      let bs := blockBytes s g tid addr
      if chained bs then
        (match readChain s g tid k (addr + 64) with
         | .error i => .error i
         | .ok rest => .ok (bs :: rest))
      else .ok [bs]

/-- The command of an instruction (R204, steps 1 and 2). -/
inductive Stream where
  | tcopy | tcopym | gath | scat | coll | vdec
  deriving DecidableEq, Repr

/-- The blocks of a member's command (R204, step 1): those it kept when it was held at this issue, or read now. -/
def memberBlocks (s : State) (g : Group) (tid addr : Nat) (k : Stream) : Except TrapInfo (List (List Byte)) :=
  match s.threadOf g.ctx g.wg tid with
  | none => .ok []
  | some t =>
    if t.holdPc == some g.pc && !t.heldBlocks.isEmpty then .ok t.heldBlocks
    else readChain s g tid (if k = .tcopy then 8 else 1) addr

/-- Steps 1 and 2 of R204. -/
def readCommand (s : State) (g : Group) (tid addr : Nat) (k : Stream) : Except TrapInfo Command :=
  match memberBlocks s g tid addr k with
  | .error i => .error i
  | .ok blocks =>
    let x := nth [] blocks 0
    let c := match k with
      | .tcopy => parseChain blocks
      | .tcopym => parseCopyMatrix x
      | .gath => parseGather x true
      | .scat => parseGather x false
      | .coll => parseColl x
      | .vdec => parseVdec x
    match c with
    | none => .error { code := .illegal, operand := 0 }
    | some c => .ok c

/-- A range outside the declared ranges (R204, step 3). -/
def rangeOutside (l : Launch) (r : Range) : Bool := classOfRange r.addr r.size == .global && !l.inLease r.addr r.size

/-- A range that breaks R99, the issue check of R110, or a protected region (R185, R204 step 5, R305). -/
def rangeBad (s : State) (l : Launch) (parent : Option Nat) (cluster : Nat) (globalOnly : Bool) (r : Range) : Bool :=
  match classOfRange r.addr r.size with
  | .global => r.isWrite && (l.readOnlyAt r.addr r.size || l.stampedAt r.addr r.size || l.sluiceAt r.addr r.size)
  | .scratch => globalOnly || !s.granulesOwned l.ctx parent cluster r.addr r.size
  | .priv | .bad => true

/-- Step 4 of R204 for one handle: a status, with the report that it uses up, or the lease and member. -/
def handleStep (s : State) (g : Group) (h cls : Nat) : Except (Word × Option Lease) (Lease × Nat) :=
  match s.nameHandle g.ctx g.wg h with
  | .member l m => if l.cls = cls then .ok (l, m) else .error (stBadHandle, none)
  | .evicted l => if l.cls = cls then .error (stEvicted, some l) else .error (stBadHandle, none)
  | .bad => .error (stBadHandle, none)

/-- The depth that a launch declares for a reserved lease (R304). -/
def State.declaredDepth (s : State) (l : Lease) : Nat :=
  if l.reserved then
    withLaunch s l.ctx 0 (fun x => (x.img.leases.filter (fun d => d.1 == l.cls && d.2.1 == l.count)).foldl (fun n d => Nat.max n d.2.2) 0)
  else 0

/-- Room for one more entry of a lease (R205): in a queue of 32, and always within the depth reserved for it (R304), whatever
a released lease has left there (DEDUCED, log 94). -/
def State.queueRoom (s : State) (l : Lease) (m : Nat) : Bool :=
  let q := (s.siteOf l.die (l.site m)).queue
  decide (q.length < 32) || decide ((q.filter (fun e => e.handle == l.handle && e.ctx == l.ctx)).length < s.declaredDepth l)

/-- Whether a collective of the rank with a tag has not completed (R211). -/
def State.collBusy (s : State) (ctx tag : Nat) : Bool :=
  let has := fun (q : List Entry) => q.any (fun e => e.ctx == ctx && match e.kind with
    | .coll _ _ _ t _ => t == tag
    | .copy _ | .mxma _ _ _ | .accz _ _ | .accout _ _ _ | .gather _ | .scatter _ | .vdec _ _ _ _ _ _ _ _ _ _ _ _ | .fence _ => false)
  s.sites.any (fun x => has x.queue) || s.wgs.any (fun w => w.savedSites.any (fun v => has v.site.queue))

/-- Destination tiles of an entry, each with the type and rows it records (R114). -/
def EntryKind.fills : EntryKind → List (Nat × Nat × Nat)
  | .copy bs => (bs.filter (fun b => !b.toMemory)).map (fun b => (b.tile, b.dtype, b.rows))
  | .accout _ type t => [(t, type, 64)]
  | .vdec _ _ _ _ _ _ deep tiles first _ _ _ => (rangeFrom first tiles).map (fun n => (n, (if deep then 2 else 1), 64))
  | .mxma _ _ _ | .accz _ _ | .gather _ | .scatter _ | .coll _ _ _ _ _ | .fence _ => []

/-- Source tiles of an entry. -/
def EntryKind.readers : EntryKind → List Nat
  | .copy bs => (bs.filter (fun b => b.toMemory)).map (fun b => b.tile)
  | .mxma _ ta tb => [ta, tb]
  | .accz _ _ | .accout _ _ _ | .gather _ | .scatter _ | .coll _ _ _ _ _ | .vdec _ _ _ _ _ _ _ _ _ _ _ _ | .fence _ => []

/-- Whether a list holds an element twice. -/
def hasRepeat (l : List Nat) : Bool := (dedup l).length != l.length

/-- To-memory blocks judged against the tile's record once it is ready (R207). -/
def toMemoryIllegal (s : State) (cluster : Nat) (k : EntryKind) : Bool := match k with
  | .copy bs => bs.any (fun b => b.toMemory && match s.tileOf cluster b.tile with
    | some t => b.dtype != t.type || b.format != t.type || decide (t.rows < b.rows)
    | none => true)
  | .mxma _ _ _ | .accz _ _ | .accout _ _ _ | .gather _ | .scatter _ | .coll _ _ _ _ _ | .vdec _ _ _ _ _ _ _ _ _ _ _ _ | .fence _ => false

/-- The waits at issue on tiles (R209, R228): ready for a source, ready or filling for a follow-on's other tile. -/
def tileWaits (c : Command) : List (Nat × Bool) :=
  (c.kind.readers).map (fun n => (n, false))
    ++ (match c.follow with
        | none => []
        | some (_, a, b) => ([a, b].filter (fun n => !((c.kind.fills).map (fun f => f.1)).contains n)).map (fun n => (n, true)))

/-- Whether a tile wait's condition holds. -/
def State.tileWaitDone (s : State) (cluster : Nat) (w : Nat × Bool) : Bool :=
  (s.tileOf cluster w.1).any (fun t => t.state == .ready || (w.2 && t.state == .filling))

/-- Step 3 of R222 and R223 for a control word at a lease's member: keep's ILLEGAL is raised with it, before the ACCESS of R222's later steps
(DESIGN CHOICE, log 139). -/
def accIllegal (s : State) (l : Lease) (m : Nat) (w : MatrixWord) (ta : Nat) : Bool :=
  let x := s.siteOf l.die (l.site m)
  (x.acc w.acc).recorded != some w.type || (w.keep && x.lastA != some (ta, w.start, w.groups))

/-- The follow-on's types once the other tile may be judged (R209, R222 step 6). -/
def followIllegal (s : State) (cluster : Nat) (c : Command) : Bool := match c.follow with
  | none => false
  | some (w, a, b) =>
    ([a, b].any (fun n => match (c.kind.fills).find? (fun f => f.1 == n) with
      | some f => f.2.1 != w.type
      | none => (s.tileOf cluster n).any (fun t => t.type != w.type)))

/-- Whether a decoder without the references needed is given a frame not marked key (R214). -/
def needsKey (s : State) (l : Lease) (m : Nat) (k : EntryKind) : Bool := match k with
  | .vdec _ _ _ _ stream key _ _ _ _ _ _ =>
    let x := (s.siteOf l.die (l.site m)).own
    !key && (x.refs.isEmpty || x.stream != stream)
  | .copy _ | .mxma _ _ _ | .accz _ _ | .accout _ _ _ | .gather _ | .scatter _ | .coll _ _ _ _ _ | .fence _ => false

/-- The tag check of a collective (R211). -/
def tagBusy (s : State) (ctx : Nat) (k : EntryKind) : Bool := match k with
  | .coll _ _ _ tag _ => s.collBusy ctx tag
  | .copy _ | .mxma _ _ _ | .accz _ _ | .accout _ _ _ | .gather _ | .scatter _ | .vdec _ _ _ _ _ _ _ _ _ _ _ _ | .fence _ => false

/-- A word of memory as it stands at its home or bank. -/
def State.wordNow (s : State) (cluster : Nat) (l : Launch) (va : Nat) : Nat :=
  if classOf va == .scratch then leNat (s.readBank (scratchTarget cluster va).1 (scratchTarget cluster va).2 4)
  else ((s.locateVia cluster l va).map (fun t => leNat (s.readHome t.key 4))).getD 0

/-- The ranges that a command may write in regions that the token gates (R175): those of its block, and in a `.det` launch the
rows that a SCAT's indices name as it is issued (DEDUCED, log 81). -/
def gatedRanges (s : State) (cluster : Nat) (l : Launch) (c : Command) : List Range :=
  let rows := match c.kind with
    | .scatter b =>
      if l.img.det && l.img.regions.any (fun r => r.shared) then
        (rangeFrom 0 b.count).map (fun k => ({ addr := b.base + s.wordNow cluster l (b.index + 4 * k) * b.pitch, size := b.rowBytes, isWrite := true } : Range))
      else []
    | .copy _ | .mxma _ _ _ | .accz _ _ | .accout _ _ _ | .gather _ | .coll _ _ _ _ _ | .vdec _ _ _ _ _ _ _ _ _ _ _ _ | .fence _ => []
  (c.ranges ++ rows).filter (fun r => r.isWrite && l.gated r.addr r.size)

/-- Steps 3 to 7 of R204 for a parsed command and its handle. A chain that names one destination tile twice finds it not empty
at its second block: NOTEMPTY (DEDUCED, log 82). NEEDKEY (R214) is given after step 6 and before a hold and step 7 (DESIGN CHOICE, log
138). -/
def judge (s : State) (g : Group) (l : Launch) (parent : Option Nat) (h : Nat) (c : Command) : Verdict :=
  let cl := coreCluster g.core
  match c.ranges.find? (rangeOutside l) with
  | some r => .trap { code := .outsideLease, operand := r.addr }
  | none =>
    match (gatedRanges s cl l c).find? (fun _ => l.tokenPassed g.wg) with
    | some r => .trap { code := .access, operand := r.addr }
    | none =>
      match handleStep s g h c.cls with
      | .error e => .status e.1 e.2
      | .ok (le, m) =>
        match (match c.follow with | none => Except.ok (le, m) | some (w, _, _) => handleStep s g w.handle 0) with
        | .error e => .status e.1 e.2
        | .ok (lf, mf) =>
          let tiles := (c.kind.fills).map (fun f => f.1) ++ (tileWaits c).map (fun w => w.1)
          if c.ranges.any (rangeBad s l parent cl c.globalOnly) then .status stAccess none
          else if (match c.follow with | none => false | some (w, a, _) => accIllegal s lf mf w a) then .trap { code := .illegal, operand := 0 }
          else if tiles.any (fun n => (s.heldTile g.ctx cl n).isNone) then .trap { code := .access, operand := 0 }
          else if (c.kind.fills).any (fun f => !(s.tileOf cl f.1).any (fun t => t.state == .empty)) || hasRepeat ((c.kind.fills).map (fun f => f.1)) then
            .status stNotEmpty none
          else if tagBusy s g.ctx c.kind then .status stBusy none
          else if needsKey s le m c.kind then .status stNeedKey none
          else if !(gatedRanges s cl l c).isEmpty && !l.holdsToken g.wg then .hold .token
          else if (tileWaits c).any (fun w => !s.tileWaitDone cl w) then .hold (.tile (tileWaits c))
          else if toMemoryIllegal s cl c.kind || followIllegal s cl c then .trap { code := .illegal, operand := 0 }
          else if !s.queueRoom le m || (c.follow.isSome && !s.queueRoom lf mf) then .status stFull none
          else .accepted

/-- The verdict on a member's command (R204). -/
def commandVerdict (k : Stream) (a b : Reg) (s : State) (g : Group) (t : Thread) : Verdict :=
  match readCommand s g t.tid (t.readPair (rn a)) k, s.launch g.ctx with
  | .error i, _ => .trap i
  | .ok _, none => .status stBadHandle none
  | .ok c, some l => judge s g l t.parent (t.readW (rn b)).toNat c

/-- Generations of the granules of a command's scratchpad ranges (R110). -/
def captureGens (s : State) (cluster : Nat) (rs : List Range) : List (Nat × Nat) :=
  rs.flatMap (fun r =>
    if classOf r.addr == .scratch then (granulesAt cluster r.addr r.size).map (fun x => (granuleNo x, (s.granuleAt x).gen)) else [])

/-- Places an entry in a queue and in the thread's open batch (R204 step 8, R216); its tiles begin filling or gain a
reader (R114). -/
def State.enqueue (s : State) (g : Group) (tid : Nat) (l : Lease) (m : Nat) (kind : EntryKind) (after : Option Nat)
    (gens : List (Nat × Nat)) : State :=
  let cl := coreCluster g.core
  let id := s.nextId
  let serial := ((s.threadOf g.ctx g.wg tid).map (fun t => t.batchSerial id)).getD id
  let e : Entry := { id := id, ctx := g.ctx, wg := g.wg, tid := tid, core := g.core, batch := serial, kind := kind, after := after, follow := after.isSome,
                     step := 0, started := false, failed := false, stale := false, gens := gens, pc := g.pc, decoded := none, partials := [],
                     handle := l.handle, lineage := (s.siteOf l.die (l.site m)).lineage }
  let s1 : State := { s with nextId := id + 1 }
  let s2 := (kind.fills).foldl (fun s f => s.modTile cl f.1 (fun t => t.fill id f.2.1 f.2.2)) s1
  let s3 := (kind.readers).foldl (fun s n => s.modTile cl n (fun t => t.pin 1)) s2
  (s3.modThread g.ctx g.wg tid (fun t => t.joinBatch id 1)).modSite l.die (l.site m) (fun x => { x with queue := x.queue ++ [e] })

/-- A site notes the MXMA issued last (R223). -/
def State.noteMatrix (s : State) (l : Lease) (m : Nat) (w : MatrixWord) (ta : Nat) : State :=
  s.modSite l.die (l.site m) (fun x => { x with lastA := some (ta, w.start, w.groups) })

/-- An accepted command is placed, a TCOPYM's follow-on behind it (R204 step 8, R209). -/
def placeCommand (s : State) (g : Group) (tid h : Nat) (c : Command) : State :=
  let gens := captureGens s (coreCluster g.core) c.ranges
  match handleStep s g h c.cls with
  | .error _ => s
  | .ok (le, m) =>
    let s1 := s.enqueue g tid le m c.kind none gens
    match c.follow with
    | none => s1
    | some (w, a, b) =>
      match handleStep s1 g w.handle 0 with
      | .error _ => s1
      | .ok (lf, mf) => (s1.enqueue g tid lf mf (.mxma w a b) (some s.nextId) []).noteMatrix lf mf w a

/-- A verdict's part in the checks at issue. -/
def verdictTrap (v : Verdict) : Option TrapInfo := match v with
  | .trap i => some i
  | .status _ _ | .hold _ | .accepted => none

/-- A verdict's part in the holds at issue. -/
def verdictHold (v : Verdict) : Option HoldKind := match v with
  | .hold h => some h
  | .trap _ | .status _ _ | .accepted => none

/-- An instruction whose members place their commands in ascending lane order (R204): each member's verdict, a trap and a hold
too, is that of the state which the lower members' commands leave (DEDUCED, log 91). `settle` is what a member's command has perform
before it is judged. -/
def commandOp (i : Instr) (settle : State → Group → Thread → State) (verdict : State → Group → Thread → Verdict) (place : State → Group → Nat → State) (d : Reg)
    (s : State) : State :=
  let put := fun (s : State) (g : Group) (tid : Nat) =>
    match s.threadOf g.ctx g.wg tid with
    | none => s
    | some t => match verdict s g t with
      | .status w report => giveWord g tid (rn d) w (match report with | none => settle s g t | some l => (settle s g t).reported l)
      | .accepted => place s g tid
      | .trap _ | .hold _ => s
  let seen := fun (s : State) (g : Group) (t : Thread) => verdict ((s.lowerMembers g t).foldl (fun s u => put s g u.tid) s) g t
  issueHeld i (fun s g t => verdictTrap (seen s g t)) (fun s g t => verdictHold (seen s g t)) put s

/-- Bytes of the blocks that a command may be read from (R204, R207). -/
def Stream.blockLen (k : Stream) : Nat := if k = .tcopy then 512 else 64

/-- A member that has just been held keeps the blocks that its command was read from, its earlier stores to them having performed (R204,
step 1). -/
def keepBlocks (k : Stream) (a : Reg) (s0 : State) (g : Group) (s : State) (t : Thread) : State :=
  match readChain s0 g t.tid (if k = .tcopy then 8 else 1) (t.readPair (rn a)) with
  | .error _ => s
  | .ok bs =>
    if ((s.threadOf g.ctx g.wg t.tid).map (fun u => u.holdPc == some g.pc && t.holdPc != some g.pc)).getD false then
      (drainBlock s g t.tid (t.readPair (rn a)) k.blockLen).modThread g.ctx g.wg t.tid (fun u => { u with heldBlocks := bs })
    else s

/-- A streaming command's entry is placed and its status given (R204, step 8). -/
def placeStream (k : Stream) (d a b : Reg) (s : State) (g : Group) (tid : Nat) : State :=
  match s.threadOf g.ctx g.wg tid with
  | none => s
  | some t => match readCommand s g tid (t.readPair (rn a)) k with
    | .error _ => s
    | .ok c => giveWord g tid (rn d) stAccepted
        (placeCommand (drainBlock s g tid (t.readPair (rn a)) k.blockLen) g tid (t.readW (rn b)).toNat c)

/-- A streaming command (R204). -/
def streamOp (i : Instr) (k : Stream) (d a b : Reg) (s : State) : State :=
  let s1 := commandOp i (fun s g t => drainBlock s g t.tid (t.readPair (rn a)) k.blockLen) (commandVerdict k a b) (placeStream k d a b) d s
  match s.group with
  | none => s1
  | some g => (s.members g).foldl (keepBlocks k a s g) s1

/-! QFENCE and batches. -/

/-- The handles of a QFENCE (R206). -/
def fenceHandles (x : Nat) : List Nat := ((rangeFrom 0 4).map (fun k => x / 2 ^ (16 * k) % 2 ^ 16)).filter (fun h => h != 0)

/-- One handle's outcome for a QFENCE (R206): of any class. -/
def fenceHandle (s : State) (g : Group) (h : Nat) : Except (Word × Option Lease) (Lease × Nat) :=
  match s.nameHandle g.ctx g.wg h with
  | .member l m => .ok (l, m)
  | .evicted l => .error (stEvicted, some l)
  | .bad => .error (stBadHandle, none)

/-- The queues of a QFENCE, each once, or the first status (R206). -/
def fenceQueues (s : State) (g : Group) : List Nat → Except (Word × Option Lease) (List (Lease × Nat))
  | [] => .ok []
  | h :: hs =>
    match fenceHandle s g h with
    | .error e => .error e
    | .ok q =>
      match fenceQueues s g hs with
      | .error e => .error e
      | .ok qs => .ok (if qs.contains q then qs else q :: qs)

/-- QFENCE's effect and value (R206). -/
def fenceOp (s : State) (g : Group) (tid x : Nat) : State × Word :=
  match fenceQueues s g (fenceHandles x) with
  | .error e => ((match e.2 with | none => s | some l => s.reported l), e.1)
  | .ok qs =>
    if qs.any (fun q => !s.queueRoom q.1 q.2) then (s, stFull)
    else (qs.foldl (fun s' q => s'.enqueue g tid q.1 q.2 (.fence s.nextId) none []) s, stAccepted)

/-- BSEAL's effect and value (R216). -/
def sealOp (s : State) (g : Group) (t : Thread) : State × Word :=
  if 16 ≤ t.unfinished then (s, stFull)
  else
    ({ s.modThread g.ctx g.wg t.tid (fun t => t.seal s.nextId) with nextId := s.nextId + 1 }, BitVec.ofNat 32 (nextBatchNo t.batchNo))

/-- The record that BSTAT writes (R218). -/
def batchRecord (t : Thread) (n : Nat) : List (Option Word) :=
  match (t.batches.take 64).find? (fun b => b.number == n) with
  | some b => batchWords b
  | none => [some stGone, some 0, some 0, some 0]

/-- LEASE (R195). -/
def execLease (sw : Bool) (d : Reg) (a : Reg) (b : Reg) (s : State) : Result1 :=
  .next (statusOp (.lease sw d a b) (fun _ _ t => leaseCheck (t.readW (rn a)).toNat (t.readW (rn b)).toNat) d
    (fun s g t => leaseOp s g (t.readW (rn a)).toNat (t.readW (rn b)).toNat) s)

/-- LWAIT (R198): a wait for a grant and for every member to be awake. -/
def execLwait (sw : Bool) (d : Reg) (a : Reg) (s : State) : Result1 :=
  .next (issue (.lwait sw d a) noCheck (fun s g tid => match s.threadOf g.ctx g.wg tid with
    | none => s
    | some t => sleepOn (.lwait (t.readW (rn a)).toNat) (some (rn d)) g tid s) s)

/-- LREL (R200). -/
def execLrel (sw : Bool) (d : Reg) (a : Reg) (s : State) : Result1 :=
  .next (statusOp (.lrel sw d a) noCheck d (fun s g t => releaseOp s g (t.readW (rn a)).toNat) s)

/-- LSTAT (R199). -/
def execLstat (sw : Bool) (d : Reg) (a : Reg) (s : State) : Result1 :=
  .next (statusOp (.lstat sw d a) noCheck d (fun s g t => (s, leaseWord s g (t.readW (rn a)).toNat)) s)

/-- TCOPY (R204, R207, R208). -/
def execTcopy (sw : Bool) (d : Reg) (a : Reg) (b : Reg) (s : State) : Result1 :=
  .next (streamOp (.tcopy sw d a b) .tcopy d a b s)

/-- TCOPYM (R204, R209). -/
def execTcopym (sw : Bool) (d : Reg) (a : Reg) (b : Reg) (s : State) : Result1 :=
  .next (streamOp (.tcopym sw d a b) .tcopym d a b s)

/-- GATH (R204, R210). -/
def execGath (sw : Bool) (d : Reg) (a : Reg) (b : Reg) (s : State) : Result1 :=
  .next (streamOp (.gath sw d a b) .gath d a b s)

/-- SCAT (R204, R210). -/
def execScat (sw : Bool) (d : Reg) (a : Reg) (b : Reg) (s : State) : Result1 :=
  .next (streamOp (.scat sw d a b) .scat d a b s)

/-- COLL (R204, R211). -/
def execColl (sw : Bool) (d : Reg) (a : Reg) (b : Reg) (s : State) : Result1 :=
  .next (streamOp (.coll sw d a b) .coll d a b s)

/-- VDEC (R204, R212, R214). -/
def execVdec (sw : Bool) (d : Reg) (a : Reg) (b : Reg) (s : State) : Result1 :=
  .next (streamOp (.vdec sw d a b) .vdec d a b s)

/-- QFENCE (R206): ILLEGAL when every field is 0. -/
def execQfence (sw : Bool) (d : Reg) (a : Reg) (s : State) : Result1 :=
  .next (statusOp (.qfence sw d a) (fun _ _ t => illegalIf (t.readPair (rn a) == 0)) d (fun s g t => fenceOp s g t.tid (t.readPair (rn a))) s)

/-- BSEAL (R216). -/
def execBseal (sw : Bool) (d : Reg) (s : State) : Result1 :=
  .next (statusOp (.bseal sw d) noCheck d (fun s g t => sealOp s g t) s)

/-- BWAIT (R217). -/
def execBwait (sw : Bool) (d : Reg) (a : Reg) (s : State) : Result1 :=
  .next (issue (.bwait sw d a) noCheck (fun s g tid => match s.threadOf g.ctx g.wg tid with
    | none => s
    | some t => sleepOn (.bwait (t.readW (rn a)).toNat) (some (rn d)) g tid s) s)

/-- BSTAT (R218): the record as it stands. -/
def execBstat (sw : Bool) (d : Reg) (a : Reg) (s : State) : Result1 :=
  .next (issue (.bstat sw d a) noCheck (onThread (fun t => t.addResult (t.dests (rn d) 4) (some (batchRecord t (t.readW (rn a)).toNat)))) s)

end Sys2Proof.Machine
end

