-- ==== Sys2Proof/Machine/Integer.lean ====
section
/-! DEFINITION. Groups 0x0 and 0x1: integer operations, immediates, unary operations and constants (R127-R131). -/

namespace Sys2Proof.Machine

/-- A fixed-latency word operation of two sources, with d as a third (R127). -/
def opRRR (i : Instr) (d a b : Reg) (f : Word → Word → Word → Word) (s : State) : State :=
  fixedOp i (fun t => t.writeW (rn d) (f (t.readW (rn a)) (t.readW (rn b)) (t.readW (rn d)))) s

/-- A fixed-latency word operation of one source. -/
def opRI (i : Instr) (d a : Reg) (f : Word → Word) (s : State) : State :=
  fixedOp i (fun t => t.writeW (rn d) (f (t.readW (rn a)))) s

/-- A fixed-latency operation on pairs, modulo 2^64 (R127). -/
def opPair (i : Instr) (d a : Reg) (f : Thread → Nat → Nat) (s : State) : State :=
  fixedOp i (fun t => t.writePair (rn d) (f t (t.readPair (rn a)) % 2 ^ 64)) s

/-- A variable-latency word operation of two sources (R59). -/
def longOp (i : Instr) (d a b : Reg) (f : Word → Word → Word) (s : State) : State :=
  variableOp i d (fun _ _ t => f (t.readW (rn a)) (t.readW (rn b))) s

/-- A variable-latency word operation of one source. -/
def longOp1 (i : Instr) (d a : Reg) (f : Word → Word) (s : State) : State :=
  variableOp i d (fun _ _ t => f (t.readW (rn a))) s

/-- A conditional move: where the condition fails, nothing is written (R128). -/
def condMove (i : Instr) (d a b : Reg) (c : Word → Bool) (s : State) : State :=
  fixedOp i (fun t => if c (t.readW (rn b)) then t.writeW (rn d) (t.readW (rn a)) else t) s

/-- The low bit of a bit field (R128). -/
def fieldPos (y : Word) : Nat := bits y.toNat 4 0

/-- The length of a bit field, cut at bit 31 (R128). -/
def fieldLen (y : Word) : Nat :=
  let len := bits y.toNat 9 5 + 1
  if 32 < fieldPos y + len then 32 - fieldPos y else len

/-- The field's value in x (R127). -/
def fieldValue (x y : Word) : Nat := x.toNat / 2 ^ fieldPos y % 2 ^ fieldLen y

/-- z with the field replaced by the low bits of x (R127). -/
def fieldInsert (x y z : Word) : Word :=
  let p := fieldPos y
  let n := fieldLen y
  BitVec.ofNat 32 (z.toNat % 2 ^ p + x.toNat % 2 ^ n * 2 ^ p + z.toNat / 2 ^ (p + n) * 2 ^ (p + n))

/-- ADD (R127). -/
def execAdd (sw : Bool) (d : Reg) (a : Reg) (b : Reg) (s : State) : Result1 :=
  .next (opRRR (.add sw d a b) d a b (fun x y _ => x + y) s)

/-- SUB (R127). -/
def execSub (sw : Bool) (d : Reg) (a : Reg) (b : Reg) (s : State) : Result1 :=
  .next (opRRR (.sub sw d a b) d a b (fun x y _ => x - y) s)

/-- MUL (R127): the low 32 bits. -/
def execMul (sw : Bool) (d : Reg) (a : Reg) (b : Reg) (s : State) : Result1 :=
  .next (opRRR (.mul sw d a b) d a b (fun x y _ => x * y) s)

/-- MULH (R127): the high half of the signed product. -/
def execMulh (sw : Bool) (d : Reg) (a : Reg) (b : Reg) (s : State) : Result1 :=
  .next (opRRR (.mulh sw d a b) d a b (fun x y _ => BitVec.ofInt 32 (x.toInt * y.toInt / 2 ^ 32)) s)

/-- MULHU (R127): the high half of the unsigned product. -/
def execMulhu (sw : Bool) (d : Reg) (a : Reg) (b : Reg) (s : State) : Result1 :=
  .next (opRRR (.mulhu sw d a b) d a b (fun x y _ => BitVec.ofNat 32 (x.toNat * y.toNat / 2 ^ 32)) s)

/-- MAD (R127, R128): d is a source. -/
def execMad (sw : Bool) (d : Reg) (a : Reg) (b : Reg) (s : State) : Result1 :=
  .next (opRRR (.mad sw d a b) d a b (fun x y z => x * y + z) s)

/-- DIVU (R95, R127): all ones on division by zero. -/
def execDivu (sw : Bool) (d : Reg) (a : Reg) (b : Reg) (s : State) : Result1 :=
  .next (longOp (.divu sw d a b) d a b (fun x y => if y = 0 then 0xFFFFFFFF else BitVec.ofNat 32 (x.toNat / y.toNat)) s)

/-- REMU (R95, R127): the dividend on division by zero. -/
def execRemu (sw : Bool) (d : Reg) (a : Reg) (b : Reg) (s : State) : Result1 :=
  .next (longOp (.remu sw d a b) d a b (fun x y => if y = 0 then x else BitVec.ofNat 32 (x.toNat % y.toNat)) s)

/-- AND (R127). -/
def execAnd (sw : Bool) (d : Reg) (a : Reg) (b : Reg) (s : State) : Result1 :=
  .next (opRRR (.and sw d a b) d a b (fun x y _ => x &&& y) s)

/-- OR (R127). -/
def execOr (sw : Bool) (d : Reg) (a : Reg) (b : Reg) (s : State) : Result1 :=
  .next (opRRR (.or sw d a b) d a b (fun x y _ => x ||| y) s)

/-- XOR (R127). -/
def execXor (sw : Bool) (d : Reg) (a : Reg) (b : Reg) (s : State) : Result1 :=
  .next (opRRR (.xor sw d a b) d a b (fun x y _ => x ^^^ y) s)

/-- ANDN (R127). -/
def execAndn (sw : Bool) (d : Reg) (a : Reg) (b : Reg) (s : State) : Result1 :=
  .next (opRRR (.andn sw d a b) d a b (fun x y _ => x &&& ~~~y) s)

/-- SHL (R127): by the low five bits. -/
def execShl (sw : Bool) (d : Reg) (a : Reg) (b : Reg) (s : State) : Result1 :=
  .next (opRRR (.shl sw d a b) d a b (fun x y _ => x <<< (y.toNat % 32)) s)

/-- SHR (R127). -/
def execShr (sw : Bool) (d : Reg) (a : Reg) (b : Reg) (s : State) : Result1 :=
  .next (opRRR (.shr sw d a b) d a b (fun x y _ => x >>> (y.toNat % 32)) s)

/-- SRA (R127). -/
def execSra (sw : Bool) (d : Reg) (a : Reg) (b : Reg) (s : State) : Result1 :=
  .next (opRRR (.sra sw d a b) d a b (fun x y _ => x.sshiftRight (y.toNat % 32)) s)

/-- ROT (R127): left. -/
def execRot (sw : Bool) (d : Reg) (a : Reg) (b : Reg) (s : State) : Result1 :=
  .next (opRRR (.rot sw d a b) d a b (fun x y _ => x.rotateLeft (y.toNat % 32)) s)

/-- MIN (R127): signed. -/
def execMin (sw : Bool) (d : Reg) (a : Reg) (b : Reg) (s : State) : Result1 :=
  .next (opRRR (.min sw d a b) d a b (fun x y _ => if x.toInt ≤ y.toInt then x else y) s)

/-- MAX (R127): signed. -/
def execMax (sw : Bool) (d : Reg) (a : Reg) (b : Reg) (s : State) : Result1 :=
  .next (opRRR (.max sw d a b) d a b (fun x y _ => if x.toInt ≤ y.toInt then y else x) s)

/-- MINU (R127). -/
def execMinu (sw : Bool) (d : Reg) (a : Reg) (b : Reg) (s : State) : Result1 :=
  .next (opRRR (.minu sw d a b) d a b (fun x y _ => if x.toNat ≤ y.toNat then x else y) s)

/-- MAXU (R127). -/
def execMaxu (sw : Bool) (d : Reg) (a : Reg) (b : Reg) (s : State) : Result1 :=
  .next (opRRR (.maxu sw d a b) d a b (fun x y _ => if x.toNat ≤ y.toNat then y else x) s)

/-- SEQ (R127). -/
def execSeq (sw : Bool) (d : Reg) (a : Reg) (b : Reg) (s : State) : Result1 :=
  .next (opRRR (.seq sw d a b) d a b (fun x y _ => flagWord (decide (x = y))) s)

/-- SNE (R127). -/
def execSne (sw : Bool) (d : Reg) (a : Reg) (b : Reg) (s : State) : Result1 :=
  .next (opRRR (.sne sw d a b) d a b (fun x y _ => flagWord (decide (x ≠ y))) s)

/-- SLT (R127): signed. -/
def execSlt (sw : Bool) (d : Reg) (a : Reg) (b : Reg) (s : State) : Result1 :=
  .next (opRRR (.slt sw d a b) d a b (fun x y _ => flagWord (decide (x.toInt < y.toInt))) s)

/-- SLTU (R127). -/
def execSltu (sw : Bool) (d : Reg) (a : Reg) (b : Reg) (s : State) : Result1 :=
  .next (opRRR (.sltu sw d a b) d a b (fun x y _ => flagWord (decide (x.toNat < y.toNat))) s)

/-- SLE (R127): signed. -/
def execSle (sw : Bool) (d : Reg) (a : Reg) (b : Reg) (s : State) : Result1 :=
  .next (opRRR (.sle sw d a b) d a b (fun x y _ => flagWord (decide (x.toInt ≤ y.toInt))) s)

/-- SLEU (R127). -/
def execSleu (sw : Bool) (d : Reg) (a : Reg) (b : Reg) (s : State) : Result1 :=
  .next (opRRR (.sleu sw d a b) d a b (fun x y _ => flagWord (decide (x.toNat ≤ y.toNat))) s)

/-- CMOVZ (R127, R128): writes nothing when y is not zero. -/
def execCmovz (sw : Bool) (d : Reg) (a : Reg) (b : Reg) (s : State) : Result1 :=
  .next (condMove (.cmovz sw d a b) d a b (fun y => decide (y = 0)) s)

/-- CMOVN (R127, R128): writes nothing when y is zero. -/
def execCmovn (sw : Bool) (d : Reg) (a : Reg) (b : Reg) (s : State) : Result1 :=
  .next (condMove (.cmovn sw d a b) d a b (fun y => decide (y ≠ 0)) s)

/-- ADD64 (R127). -/
def execAdd64 (sw : Bool) (d : Reg) (a : Reg) (b : Reg) (s : State) : Result1 :=
  .next (opPair (.add64 sw d a b) d a (fun t x => let y := t.readPair (rn b); x + y) s)

/-- SUB64 (R127). -/
def execSub64 (sw : Bool) (d : Reg) (a : Reg) (b : Reg) (s : State) : Result1 :=
  .next (opPair (.sub64 sw d a b) d a (fun t x => let y := t.readPair (rn b); x + 2 ^ 64 - y) s)

/-- MUL64 (R127): the low 64 bits. -/
def execMul64 (sw : Bool) (d : Reg) (a : Reg) (b : Reg) (s : State) : Result1 :=
  .next (opPair (.mul64 sw d a b) d a (fun t x => let y := t.readPair (rn b); x * y) s)

/-- ADDX (R127). -/
def execAddx (sw : Bool) (d : Reg) (a : Reg) (b : Reg) (s : State) : Result1 :=
  .next (opPair (.addx sw d a b) d a (fun t x => addMod64 x (t.readW (rn b)).toInt) s)

/-- ADDX4 (R127). -/
def execAddx4 (sw : Bool) (d : Reg) (a : Reg) (b : Reg) (s : State) : Result1 :=
  .next (opPair (.addx4 sw d a b) d a (fun t x => addMod64 x ((t.readW (rn b)).toInt * 4)) s)

/-- BFX (R127, R128). -/
def execBfx (sw : Bool) (d : Reg) (a : Reg) (b : Reg) (s : State) : Result1 :=
  .next (opRRR (.bfx sw d a b) d a b (fun x y _ => BitVec.ofNat 32 (fieldValue x y)) s)

/-- BFXS (R127, R128). -/
def execBfxs (sw : Bool) (d : Reg) (a : Reg) (b : Reg) (s : State) : Result1 :=
  .next (opRRR (.bfxs sw d a b) d a b (fun x y _ => BitVec.ofInt 32 (sextNat (fieldValue x y) (fieldLen y))) s)

/-- BFI (R127, R128): d is a source. -/
def execBfi (sw : Bool) (d : Reg) (a : Reg) (b : Reg) (s : State) : Result1 :=
  .next (opRRR (.bfi sw d a b) d a b (fun x y z => fieldInsert x y z) s)

/-- ADDI (R129). -/
def execAddi (sw : Bool) (d : Reg) (a : Reg) (m : BitVec 7) (s : State) : Result1 :=
  .next (opRI (.addi sw d a m) d a (fun x => x + m.signExtend 32) s)

/-- NOP (R56): writes no register and never raises WINDOW; it counts as one instruction of its run. -/
def execNop (sw : Bool) (s : State) : Result1 :=
  .next (fixedOp (.nop sw) (fun t => t) s)

/-- ANDI (R129): imm7 zero-extended. -/
def execAndi (sw : Bool) (d : Reg) (a : Reg) (m : BitVec 7) (s : State) : Result1 :=
  .next (opRI (.andi sw d a m) d a (fun x => x &&& m.zeroExtend 32) s)

/-- ORI (R129). -/
def execOri (sw : Bool) (d : Reg) (a : Reg) (m : BitVec 7) (s : State) : Result1 :=
  .next (opRI (.ori sw d a m) d a (fun x => x ||| m.zeroExtend 32) s)

/-- XORI (R129). -/
def execXori (sw : Bool) (d : Reg) (a : Reg) (m : BitVec 7) (s : State) : Result1 :=
  .next (opRI (.xori sw d a m) d a (fun x => x ^^^ m.zeroExtend 32) s)

/-- SHLI (R129). -/
def execShli (sw : Bool) (d : Reg) (a : Reg) (m : BitVec 7) (s : State) : Result1 :=
  .next (opRI (.shli sw d a m) d a (fun x => x <<< m.toNat) s)

/-- SHRI (R129). -/
def execShri (sw : Bool) (d : Reg) (a : Reg) (m : BitVec 7) (s : State) : Result1 :=
  .next (opRI (.shri sw d a m) d a (fun x => x >>> m.toNat) s)

/-- SRAI (R129). -/
def execSrai (sw : Bool) (d : Reg) (a : Reg) (m : BitVec 7) (s : State) : Result1 :=
  .next (opRI (.srai sw d a m) d a (fun x => x.sshiftRight m.toNat) s)

/-- SLTI (R129): signed. -/
def execSlti (sw : Bool) (d : Reg) (a : Reg) (m : BitVec 7) (s : State) : Result1 :=
  .next (opRI (.slti sw d a m) d a (fun x => flagWord (decide (x.toInt < m.toInt))) s)

/-- SLTUI (R129): against imm7 sign-extended, unsigned. -/
def execSltui (sw : Bool) (d : Reg) (a : Reg) (m : BitVec 7) (s : State) : Result1 :=
  .next (opRI (.sltui sw d a m) d a (fun x => flagWord (decide (x.toNat < (m.signExtend 32).toNat))) s)

/-- SEQI (R129). -/
def execSeqi (sw : Bool) (d : Reg) (a : Reg) (m : BitVec 7) (s : State) : Result1 :=
  .next (opRI (.seqi sw d a m) d a (fun x => flagWord (decide (x = m.signExtend 32))) s)

/-- MULI (R129). -/
def execMuli (sw : Bool) (d : Reg) (a : Reg) (m : BitVec 7) (s : State) : Result1 :=
  .next (opRI (.muli sw d a m) d a (fun x => x * m.signExtend 32) s)

/-- ADD64I (R129). -/
def execAdd64i (sw : Bool) (d : Reg) (a : Reg) (m : BitVec 7) (s : State) : Result1 :=
  .next (opPair (.add64i sw d a m) d a (fun _ x => addMod64 x m.toInt) s)

/-- CLZ (R130). -/
def execClz (sw : Bool) (d : Reg) (a : Reg) (s : State) : Result1 :=
  .next (opRI (.clz sw d a) d a (fun x => BitVec.ofNat 32 (if x = 0 then 32 else 31 - x.toNat.log2)) s)

/-- POPC (R130). -/
def execPopc (sw : Bool) (d : Reg) (a : Reg) (s : State) : Result1 :=
  .next (opRI (.popc sw d a) d a (fun x => BitVec.ofNat 32 ((rangeFrom 0 32).countP (fun i => bitOf x.toNat i))) s)

/-- BREV (R130). -/
def execBrev (sw : Bool) (d : Reg) (a : Reg) (s : State) : Result1 :=
  .next (opRI (.brev sw d a) d a (fun x => x.reverse) s)

/-- ABS (R130). -/
def execAbs (sw : Bool) (d : Reg) (a : Reg) (s : State) : Result1 :=
  .next (opRI (.abs sw d a) d a (fun x => if x.toInt < 0 then -x else x) s)

/-- SEXB (R130). -/
def execSexb (sw : Bool) (d : Reg) (a : Reg) (s : State) : Result1 :=
  .next (opRI (.sexb sw d a) d a (fun x => (x.setWidth 8).signExtend 32) s)

/-- SEXH (R130). -/
def execSexh (sw : Bool) (d : Reg) (a : Reg) (s : State) : Result1 :=
  .next (opRI (.sexh sw d a) d a (fun x => (x.setWidth 16).signExtend 32) s)

/-- MOVI (R131). -/
def execMovi (sw : Bool) (d : Reg) (m : BitVec 14) (s : State) : Result1 :=
  .next (fixedOp (.movi sw d m) (fun t => t.writeW (rn d) (m.signExtend 32)) s)

/-- MOVW (R131): the literal word; the PC advances by 8. -/
def execMovw (sw : Bool) (d : Reg) (lit : Word) (s : State) : Result1 :=
  .next (fixedOp (.movw sw d lit) (fun t => t.writeW (rn d) lit) s)

end Sys2Proof.Machine
end

