-- ==== Sys2Proof/Machine/Control.lean ====
section
/-! DEFINITION. Group 0x4: control transfer, loops, window moves, EXIT and TRAP (R142-R148). -/

namespace Sys2Proof.Machine

/-- PC + offset × 4, a 32-bit offset in the image (R142). -/
def branchTo (g : Group) (words : Int) : Nat := (((g.pc : Int) + words * 4) % (2 ^ 32 : Nat)).toNat

/-- A control transfer to a target (R142). -/
def jumpOp (i : Instr) (chk : State → Group → Thread → Option TrapInfo) (f : Group → Thread → Nat) (s : State) : State :=
  issue i chk (fun s g tid => s.modThread g.ctx g.wg tid (fun t => { t with pc := f g t })) s

/-- A function's header word (R143): S = 0, group 0xF, depth at least 1. -/
def isHeader (w : Nat) : Bool := bits w 31 27 == 15 && decide (1 ≤ bits w 26 14)

/-- The three checks of a call, in order (R143). -/
def callCheck (s : State) (g : Group) (t : Thread) (target : Nat) : Option TrapInfo :=
  if target % 4 != 0 then trapOf .align target
  else
    match withLaunch s g.ctx none (fun l => if target < 4 then none else s.codeWord (coreDie g.core) l (target - 4)) with
    | none => trapOf .illegal target
    | some w =>
      if !isHeader w then trapOf .illegal target
      else if bits w 13 0 * 16 < (t.readPair 0 + 2 ^ 64 - Config.privateBase) % 2 ^ 64 then trapOf .bound target
      else none

/-- The checks of RET (R143): the word before the target is a CALL or a CALLR. -/
def retCheck (s : State) (g : Group) (target : Nat) : Option TrapInfo :=
  if target % 4 != 0 then trapOf .align target
  else
    match withLaunch s g.ctx none (fun l => if target < 4 then none else s.codeWord (coreDie g.core) l (target - 4)) with
    | none => trapOf .illegal target
    | some w => if bits w 30 21 == 257 || bits w 30 21 == 260 then none else trapOf .illegal target

/-- A call: w7 := PC + 4, a fixed-latency write, and PC := target (R143). -/
def linkOp (i : Instr) (target : Group → Thread → Nat) (s : State) : State :=
  issue i (fun s g t => callCheck s g t (target g t))
    (fun s g tid => s.modThread g.ctx g.wg tid (fun t =>
      { t.writeW 7 (BitVec.ofNat 32 (g.pc + 4)) with pc := target g t })) s

/-- The back-edge of a counted loop (R144). -/
def loopEnd (i : Instr) (d : Reg) (back : Nat) (s : State) : State :=
  issue i (fun _ _ t => if t.readW (rn d) = 0 then trapOf .bound 0 else none)
    (fun s g tid => s.modThread g.ctx g.wg tid (fun t =>
      let n := t.readW (rn d) - 1
      { t.addResult (t.dests (rn d) 1) (some [some n]) with
        pc := if n ≠ 0 then branchTo g (-(back : Int)) else g.pc + 4 })) s

/-- A window move (R62, R146): WINDOW with the requested base as operand when it lies outside 0 to allocation − 8. -/
def windowOp (i : Instr) (f : Thread → Int) (s : State) : State :=
  issue i (fun _ _ t =>
      let b := f t
      if b < 0 ∨ (t.alloc : Int) - 8 < b then trapOf .window (b % (2 ^ 64 : Nat)).toNat else none)
    (onThread (fun t => { t with parkAct := .window (f t).toNat })) s

/-- BR (R142). -/
def execBr (sw : Bool) (m : BitVec 21) (s : State) : Result1 :=
  .next (jumpOp (.br sw m) noCheck (fun g _ => branchTo g m.toInt) s)

/-- BEZ (R142): the register is read as the run sees it. -/
def execBez (sw : Bool) (d : Reg) (m : BitVec 14) (s : State) : Result1 :=
  .next (jumpOp (.bez sw d m) noCheck (fun g t => if t.readW (rn d) = 0 then branchTo g m.toInt else g.pc + 4) s)

/-- BNZ (R142). -/
def execBnz (sw : Bool) (d : Reg) (m : BitVec 14) (s : State) : Result1 :=
  .next (jumpOp (.bnz sw d m) noCheck (fun g t => if t.readW (rn d) ≠ 0 then branchTo g m.toInt else g.pc + 4) s)

/-- CALL (R143): w7 := PC + 4 and PC := target. -/
def execCall (sw : Bool) (m : BitVec 21) (s : State) : Result1 :=
  .next (linkOp (.call sw m) (fun g _ => branchTo g m.toInt) s)

/-- CALLR (R143). -/
def execCallr (sw : Bool) (a : Reg) (s : State) : Result1 :=
  .next (linkOp (.callr sw a) (fun _ t => (t.readW (rn a)).toNat) s)

/-- JR (R143): the checks of a call, without writing w7. -/
def execJr (sw : Bool) (a : Reg) (s : State) : Result1 :=
  .next (jumpOp (.jr sw a) (fun s g t => callCheck s g t (t.readW (rn a)).toNat) (fun _ t => (t.readW (rn a)).toNat) s)

/-- RET (R143). -/
def execRet (sw : Bool) (s : State) : Result1 :=
  .next (jumpOp (.ret sw) (fun s g t => retCheck s g (t.readW 7).toNat) (fun _ t => (t.readW 7).toNat) s)

/-- LOOPH (R144): a fixed-latency write of the count; the run goes on. -/
def execLooph (sw : Bool) (d : Reg) (m : BitVec 14) (s : State) : Result1 :=
  .next (issue (.looph sw d m) (fun _ _ t => let n := (t.readW (rn d)).toNat; if n = 0 ∨ m.toNat < n then trapOf .bound n else none) (onThread (fun t => t.writeW (rn d) (t.readW (rn d)))) s)

/-- LOOPE (R144): the count falls by 1, committed at the park, and the body is entered again while it is not 0. -/
def execLoope (sw : Bool) (d : Reg) (m : BitVec 14) (s : State) : Result1 :=
  .next (loopEnd (.loope sw d m) d m.toNat s)

/-- WBASE (R146): the base of the next run. -/
def execWbase (sw : Bool) (m : BitVec 14) (s : State) : Result1 :=
  .next (windowOp (.wbase sw m) (fun _ => m.toNat) s)

/-- WBADJ (R146). -/
def execWbadj (sw : Bool) (m : BitVec 14) (s : State) : Result1 :=
  .next (windowOp (.wbadj sw m) (fun t => (t.base : Int) + m.toInt) s)

/-- EXIT (R147): the thread ends after its run's park. -/
def execExit (sw : Bool) (s : State) : Result1 :=
  .next (fixedOp (.exit sw) (fun t => { t with parkAct := .exit }) s)

/-- TRAP (R148). -/
def execTrap (sw : Bool) (m : BitVec 21) (s : State) : Result1 :=
  .next (issue (.trap sw m) (fun _ _ _ => trapOf .trap m.toNat) (fun s _ _ => s) s)

end Sys2Proof.Machine
end

