-- ==== Sys2Proof/Machine/Matrix.lean ====
section
/-! DEFINITION. Group 0xC: matrix instructions (R220 to R224), tile instructions (R226 to R229) and tile accesses
(R230). -/

namespace Sys2Proof.Machine

/-- Bits 31:10 of a tile operand are zero (R222, R227, R229). -/
def tileFieldBad (w : Nat) : Bool := bits w 31 10 != 0

/-- The checks of MXMA in the order of R222. -/
def matrixVerdict (s : State) (g : Group) (c a b : Nat) : Verdict :=
  let w := parseMatrix c
  let cl := coreCluster g.core
  if tileFieldBad a || tileFieldBad b || matrixIllegal w then .trap { code := .illegal, operand := 0 }
  else
    match handleStep s g w.handle 0 with
    | .error e => .status e.1 e.2
    | .ok (l, m) =>
      if accIllegal s l m w a then .trap { code := .illegal, operand := 0 }
      else if (s.heldTile g.ctx cl a).isNone || (s.heldTile g.ctx cl b).isNone then .trap { code := .access, operand := 0 }
      else if !(s.tileWaitDone cl (a, false) && s.tileWaitDone cl (b, false)) then .hold (.tile [(a, false), (b, false)])
      else if (s.tileOf cl a).any (fun t => t.type != w.type) || (s.tileOf cl b).any (fun t => t.type != w.type) then
        .trap { code := .illegal, operand := 0 }
      else if !s.queueRoom l m then .status stFull none
      else .accepted

/-- The checks of ACCZ (R220, R221). -/
def clearVerdict (s : State) (g : Group) (c : Nat) : Verdict :=
  let w := parseMatrix c
  if decide (5 ≤ w.type) || bits c 11 0 != 0 then .trap { code := .illegal, operand := 0 }
  else
    match handleStep s g w.handle 0 with
    | .error e => .status e.1 e.2
    | .ok (l, m) => if !s.queueRoom l m then .status stFull none else .accepted

/-- The checks of ACCOUT (R220, R224, R204 steps 4, 6 and 7): every output type of Table 10 of R93 is allowed for every
accumulator. -/
def readoutVerdict (s : State) (g : Group) (c a : Nat) : Verdict :=
  let w := parseMatrix c
  let cl := coreCluster g.core
  let n := bits a 9 0
  if !([0, 2, 4].contains w.type) || bits c 11 0 != 0 then .trap { code := .illegal, operand := 0 }
  else
    match handleStep s g w.handle 0 with
    | .error e => .status e.1 e.2
    | .ok (l, m) =>
      if ((s.siteOf l.die (l.site m)).acc w.acc).recorded.isNone then .trap { code := .illegal, operand := 0 }
      else if (s.heldTile g.ctx cl n).isNone then .trap { code := .access, operand := 0 }
      else if !(s.tileOf cl n).any (fun t => t.state == .empty) then .status stNotEmpty none
      else if !s.queueRoom l m then .status stFull none
      else .accepted

/-- MXMA's placement (R222): the tiles gain readers, the site notes the operand, the faulted bit is set. -/
def placeMatrix (s : State) (g : Group) (tid c a b : Nat) : State × Word :=
  let w := parseMatrix c
  match handleStep s g w.handle 0 with
  | .error e => (s, e.1)
  | .ok (l, m) =>
    if !s.queueRoom l m then (s, stFull)
    else
      let s1 := (s.enqueue g tid l m (.mxma w a b) none []).noteMatrix l m w a
      (if s.tilesFaulted (coreCluster g.core) a b then s1.modWg g.ctx g.wg (fun x => { x with acs := x.acs ||| acsFaulted }) else s1,
       stAccepted)

/-- ACCZ's placement (R220, R221): the accumulator's type is recorded at acceptance. -/
def placeClear (s : State) (g : Group) (tid c : Nat) : State × Word :=
  let w := parseMatrix c
  match handleStep s g w.handle 0 with
  | .error e => (s, e.1)
  | .ok (l, m) =>
    ((s.enqueue g tid l m (.accz w.acc w.type) none []).modSite l.die (l.site m)
      (fun x => x.setAcc w.acc { x.acc w.acc with recorded := some w.type }), stAccepted)

/-- ACCOUT's placement (R224). -/
def placeReadout (s : State) (g : Group) (tid c a : Nat) : State × Word :=
  let w := parseMatrix c
  match handleStep s g w.handle 0 with
  | .error e => (s, e.1)
  | .ok (l, m) => (s.enqueue g tid l m (.accout w.acc w.type (bits a 9 0)) none [], stAccepted)

/-- One of the three instructions of R220, in ascending lane order (R204). -/
def matrixOp (i : Instr) (d : Reg) (v : State → Group → Thread → Verdict) (place : State → Group → Thread → State × Word) (s : State) : State :=
  commandOp i (fun s _ _ => s) v (fun s g tid => match s.threadOf g.ctx g.wg tid with
    | none => s
    | some t => let r := place s g t; giveWord g tid (rn d) r.2 r.1) d s

/-- A tile operand's checks (R227, R229): ILLEGAL, then ACCESS. -/
def tileCheck (s : State) (g : Group) (a : Nat) : Option TrapInfo :=
  if tileFieldBad a then trapOf .illegal 0
  else if (s.heldTile g.ctx (coreCluster g.core) a).isNone then trapOf .access 0
  else none

/-- TALLOC's effect and value (R226): the lowest free entry, or NOTILE. DESIGN CHOICE: until a fill records them, its type and
rows are 0 (log 83). -/
def allocTile (s : State) (g : Group) : State × Word :=
  let cl := coreCluster g.core
  let n := withLaunch s g.ctx 0 (fun l => l.img.tiles)
  let here := s.tiles.filter (fun t => t.cluster == cl)
  if n ≤ (here.filter (fun t => t.ctx == g.ctx)).length then (s, stNoTile)
  else
    match (rangeFrom 0 1024).find? (fun k => !here.any (fun t => t.number == k)) with
    | none => (s, stNoTile)
    | some k =>
      ({ s with tiles := s.tiles ++ [{ cluster := cl, number := k, state := .empty, fault := false, type := 0, rows := 0, readers := 0,
                                        ctx := g.ctx, fills := 0, landed := false, filler := 0, finishing := 0, data := [] }] }, BitVec.ofNat 32 k)

/-- TFREE's effect and value (R114, R227). Of two members of a group that free one tile the second has BUSY, since both passed the check of
ACCESS at issue (DESIGN CHOICE, log 141). -/
def freeOp (s : State) (g : Group) (n : Nat) : State × Word :=
  let cl := coreCluster g.core
  match s.tileOf cl n with
  | none => (s, stBusy)
  | some t =>
    if (t.state == .empty || t.state == .ready) && t.readers == 0 then (s.freeTile cl n, stAccepted) else (s, stBusy)

/-- A tile under TSET (R114, R227): a ready tile drains, and empties at once without readers. -/
def Tile.release (t : Tile) : Tile :=
  match t.state with
  | .ready | .draining => { t with state := if t.readers = 0 then .empty else .draining }
  | .free | .empty | .filling => t

/-- TSET's effect and value (R227). -/
def setOp (s : State) (g : Group) (n : Nat) : State × Word :=
  let cl := coreCluster g.core
  match s.tileOf cl n with
  | none => (s, stWrongState)
  | some t => match t.state with
    | .ready | .draining => (s.modTile cl n Tile.release, stAccepted)
    | .free | .empty | .filling => (s, stWrongState)

/-- The operands of LDT and STT (R230): tile, row and offset, and their checks. -/
def rowCheck (s : State) (g : Group) (a b : Nat) : Option TrapInfo :=
  if bits a 31 22 != 0 || bits a 15 10 != 0 || decide (575 < b) || b % 16 != 0 then trapOf .illegal 0
  else if (s.heldTile g.ctx (coreCluster g.core) (bits a 9 0)).isNone then trapOf .access 0
  else none

/-- The hold of R115 for LDT and STT. -/
def rowHold (s : State) (g : Group) (a : Nat) : Option HoldKind :=
  if s.tileWaitDone (coreCluster g.core) (bits a 9 0, false) then none else some (.tile [(bits a 9 0, false)])

/-- LDT and STT (R230): the tile gains a reader, and the access leaves on the tile path. -/
def tileAccess (i : Instr) (a b : Reg) (f : State → Group → Thread → State) (s : State) : State :=
  issueHeld i (fun s g t => rowCheck s g (t.readW (rn a)).toNat (t.readW (rn b)).toNat) (fun s g t => rowHold s g (t.readW (rn a)).toNat)
    (fun s g tid => match s.threadOf g.ctx g.wg tid with
      | none => s
      | some t => f (s.modTile (coreCluster g.core) (bits (t.readW (rn a)).toNat 9 0) (fun x => x.pin 1)) g t) s

/-- MXMA (R220, R222, R223). -/
def execMxma (sw : Bool) (d : Reg) (a : Reg) (b : Reg) (s : State) : Result1 :=
  .next (matrixOp (.mxma sw d a b) d
    (fun s g t => matrixVerdict s g (t.readW (rn d)).toNat (t.readW (rn a)).toNat (t.readW (rn b)).toNat)
    (fun s g t => placeMatrix s g t.tid (t.readW (rn d)).toNat (t.readW (rn a)).toNat (t.readW (rn b)).toNat) s)

/-- ACCZ (R220, R221). -/
def execAccz (sw : Bool) (d : Reg) (s : State) : Result1 :=
  .next (matrixOp (.accz sw d) d (fun s g t => clearVerdict s g (t.readW (rn d)).toNat)
    (fun s g t => placeClear s g t.tid (t.readW (rn d)).toNat) s)

/-- ACCOUT (R220, R224): a later member that names the same tile finds it filling. -/
def execAccout (sw : Bool) (d : Reg) (a : Reg) (s : State) : Result1 :=
  .next (matrixOp (.accout sw d a) d (fun s g t => readoutVerdict s g (t.readW (rn d)).toNat (t.readW (rn a)).toNat)
    (fun s g t => placeReadout s g t.tid (t.readW (rn d)).toNat (t.readW (rn a)).toNat) s)

/-- TALLOC (R226). -/
def execTalloc (sw : Bool) (d : Reg) (s : State) : Result1 :=
  .next (statusOp (.talloc sw d) noCheck d (fun s g _ => allocTile s g) s)

/-- TFREE (R227). -/
def execTfree (sw : Bool) (d : Reg) (a : Reg) (s : State) : Result1 :=
  .next (statusOp (.tfree sw d a) (fun s g t => tileCheck s g (t.readW (rn a)).toNat) d (fun s g t => freeOp s g (t.readW (rn a)).toNat) s)

/-- TSTATE (R227). -/
def execTstate (sw : Bool) (d : Reg) (a : Reg) (s : State) : Result1 :=
  .next (statusOp (.tstate sw d a) (fun s g t => tileCheck s g (t.readW (rn a)).toNat) d
    (fun s g t => (s, ((s.tileOf (coreCluster g.core) (t.readW (rn a)).toNat).map tileWord).getD 0)) s)

/-- TSET (R227). -/
def execTset (sw : Bool) (d : Reg) (a : Reg) (s : State) : Result1 :=
  .next (statusOp (.tset sw d a) (fun s g t => tileCheck s g (t.readW (rn a)).toNat) d (fun s g t => setOp s g (t.readW (rn a)).toNat) s)

/-- TWAIT (R229). -/
def execTwait (sw : Bool) (d : Reg) (a : Reg) (b : Reg) (s : State) : Result1 :=
  .next (issue (.twait sw d a b)
    (fun s g t =>
      if (t.readW (rn b)).toNat != 1 && (t.readW (rn b)).toNat != 3 then trapOf .illegal 0 else tileCheck s g (t.readW (rn a)).toNat)
    (fun s g tid => match s.threadOf g.ctx g.wg tid with
      | none => s
      | some t => sleepOn (.twait (t.readW (rn a)).toNat (t.readW (rn b)).toNat) (some (rn d)) g tid s) s)

/-- LDT (R230). -/
def execLdt (sw : Bool) (d : Reg) (a : Reg) (b : Reg) (s : State) : Result1 :=
  .next (tileAccess (.ldt sw d a b) a b (fun s g t =>
    s.send g t.tid .tile (.tileLoad (bits (t.readW (rn a)).toNat 9 0) (bits (t.readW (rn a)).toNat 21 16) (t.readW (rn b)).toNat) 0 16 0
      (rn d) 4 none (groupId s g)) s)

/-- STT (R230). -/
def execStt (sw : Bool) (d : Reg) (a : Reg) (b : Reg) (s : State) : Result1 :=
  .next (tileAccess (.stt sw d a b) a b (fun s g t =>
    s.send g t.tid .tile
      (.tileStore (bits (t.readW (rn a)).toNat 9 0) (bits (t.readW (rn a)).toNat 21 16) (t.readW (rn b)).toNat (t.readQuad (rn d))) 0 16 0
      0 0 none (groupId s g)) s)

end Sys2Proof.Machine
end

