-- ==== Sys2Proof/Machine/Admission.lean ====
section
/-! DEFINITION. Admission to a core (R26, R27, R311), the slots of a reservation (R343), the permits of the command
links (R335), and the scratchpad of a workgroup (R109, R110). -/

namespace Sys2Proof.Machine

/-- Threads of one lane of `n` threads in index order from 0 (R14): lane 0 holds the most. -/
def laneThreads (n : Nat) : Nat := cdiv n 32

/-- Register words on lane 0 of a grid workgroup: sub-groups of several hold multiples of 32 threads (R24). -/
def Image.laneWords (x : Image) : Nat := x.roles.foldl (fun n r => n + laneThreads r.1 * r.2) 0

/-- Granules of a workgroup's scratchpad (R26). -/
def Image.granules (x : Image) : Nat := cdiv x.scratch 1024

/-- A quotient that a demand of 0 does not limit. -/
def fits (cap need : Nat) : Nat := if need = 0 then 512 else cap / need

/-- A of R311: the workgroups of the image that an empty core admits (R26). -/
def Image.admission (x : Image) : Nat :=
  Nat.min (Nat.min (fits 16 (laneThreads x.wgSize)) (fits 2048 x.laneWords))
    (Nat.min (fits 256 x.granules) (fits 32 (Config.energyWeight x.energy)))

/-- Threads of the largest workgroup that an image may have: its grid's, or 32 of a continuation (R28, R31). -/
def Image.largestWg (img : Image) : Nat := if img.spawns.isEmpty then img.wgSize else Nat.max img.wgSize 32

/-- Bytes of the private backing of a context area (R101, R344): for the largest workgroup that may take the area. -/
def Image.backing (img : Image) : Nat := cdiv (img.priv * img.largestWg) 128 * 128

/-- Bytes of a context area (R344). -/
def areaBytes (img : Image) (reductions : Nat) : Nat :=
  let words := Nat.max (img.roles.foldl (fun n r => n + r.1 * r.2) 0) (img.spawns.foldl (fun n d => Nat.max n (32 * d.alloc)) 0)
  let mx := (img.leases.filter (fun x => x.1 == 0)).foldl (fun n x => n + x.2.1) 0
  let queues := img.leases.foldl (fun n x => n + x.2.1 * x.2.2) 0
  cdiv (4096 + 4 * words + 128 + img.granules * 1024 + mx * (98304 + 64) + queues * 64 + 8 * reductions
    + img.backing) 4096 * 4096

/-- The clusters of a reservation (R337), ascending. -/
def Quote.clusters (q : Quote) : List Nat := (rangeFrom 0 16).filter (bitOf q.clusterMask)

/-- Logical core c of a partition (R34). -/
def State.logicalCore (s : State) (firstDie c : Nat) : Nat :=
  nth 0 (s.partDies firstDie) (c / 256) * 256 + c % 256

/-- The reserved cores of a launch, in the order of its slots (log 13). -/
def Launch.reservedCores (l : Launch) : List Nat :=
  ((l.quote.clusters.flatMap (fun c => rangeFrom (c * 128) 128)).drop l.quote.firstCore).take l.quote.cores

/-- Workgroup slots of a reservation (R343). -/
def Launch.slots (l : Launch) : Nat := l.quote.cores * l.quote.perCore

/-- The core of a slot (R343). -/
def Launch.slotCore (l : Launch) (k : Nat) : Nat := nth 0 l.reservedCores (k / l.quote.perCore)

/-- Whether a workgroup is resident on a core. -/
def Workgroup.resident (w : Workgroup) : Bool := w.saved == .running

/-- Resident workgroups of a core. -/
def State.coreWgs (s : State) (core : Nat) : List Workgroup := s.wgs.filter (fun w => w.resident && w.core == core)

/-- Whether two bookings share a site. -/
def Booking.meets (b c : Booking) : Bool := b.die == c.die && b.sites.any (fun i => c.sites.contains i)

/-- Bytes of an image's polder capacities on a die (R121). -/
def imagePolder (img : Image) (die : Nat) : Nat := (img.regions.filter (fun r => r.kind == 2 && r.home == die)).foldl (fun n r => n + r.capacity) 0

/-- Bytes of an image's tiles on a die (R226). -/
def tileReserved (img : Image) (clusters : List Nat) (die : Nat) : Nat := (clusters.filter (fun c => c / 2 == die)).length * img.tiles * 36 * 1024

/-- Whether the L2 ways of a die hold a reservation beside others (R112, R121). -/
def State.waysHoldOn (s : State) (holders : List Launch) (img : Image) (clusters : List Nat) (d : Nat) : Bool :=
  let polder := holders.foldl (fun n l => n + s.polderReserved l d) (imagePolder img d)
  let tiles := holders.foldl (fun n l => n + tileReserved l.img l.quote.clusters d) (tileReserved img clusters d)
  decide (polder ≤ 64 * 2 ^ 20) &&
    decide (polder + tiles ≤ Nat.min (96 * 2 ^ 20) (128 * 2 ^ 20 - 2 ^ 17 * (s.die d).badWays.length - 32 * 2 ^ 20))

/-- Whether the L2 ways of every die hold a reservation beside others (R112, R121). -/
def State.waysHold (s : State) (holders : List Launch) (img : Image) (clusters : List Nat) : Bool :=
  (rangeFrom 0 8).all (s.waysHoldOn holders img clusters)

/-- Whether the tile table of a cluster holds a launch's tiles beside others (R113, R226). -/
def tilesFitOn (holders : List Launch) (img : Image) (c : Nat) : Bool :=
  decide (holders.foldl (fun n l => if bitOf l.quote.clusterMask c then n + l.img.tiles else n) img.tiles ≤ 1024)

/-- Whether the tile tables of some clusters hold a launch's tiles beside others (R113, R226). -/
def tilesFit (holders : List Launch) (img : Image) (clusters : List Nat) : Bool := clusters.all (tilesFitOn holders img)

/-- Whether a launch of operator priority needs what another launch's slot on a core stands on (R343): the core, or a site booked
for the slot; or its share of a tile table, of a die's L2 ways or of a die's engine budget, which do not hold both. -/
def State.needs (s : State) (p l : Launch) (core slot : Nat) : Bool :=
  let others := s.launches.filter (fun x => x.live && x.ctx != p.ctx)
  let uses := fun (x : Launch) (d : Nat) => decide (0 < imagePolder x.img d + tileReserved x.img x.quote.clusters d)
  p.reservedCores.contains core
    || (l.bookingsOf slot).any (fun b => p.booked.any b.meets
          || (p.booked.any (fun x => x.die == b.die) && !s.withinBudget b.die (drawOf (s.siteCount b.die))))
    || (bitOf p.quote.clusterMask (coreCluster core) && decide (0 < l.img.tiles) && !tilesFitOn others p.img (coreCluster core))
    || (rangeFrom 0 8).any (fun d => uses p d && uses l d && !s.waysHoldOn others p.img p.quote.clusters d)

/-- Whether a launch of operator priority keeps a slot of another launch empty, from its acceptance to its end (R343). -/
def State.outranked (s : State) (l : Launch) (core slot : Nat) : Bool :=
  !l.priority && s.launches.any (fun p => p.live && p.priority && p.ctx != l.ctx && s.needs p l core slot)

/-- The first free slot of a launch on a core (R41, R343). -/
def State.freeSlot (s : State) (l : Launch) (core : Nat) : Option Nat :=
  (rangeFrom 0 l.slots).find? (fun k => l.slotCore k == core && !s.wgs.any (fun w => w.ctx == l.ctx && w.resident && w.slot == k)
    && !s.outranked l core k)

/-- Whether a cluster's rail and clocks are on (R348). -/
def Cluster.powered (c : Cluster) : Bool := match c.gate with
  | .active | .idle _ => true
  | .gating _ | .gated | .waking _ => false

/-- A workgroup's threads as lanes and words (R26). -/
abbrev Demand := List (Nat × Nat)

/-- What a workgroup takes on its lanes: allocations, and its pools (R26, R27). -/
def Workgroup.demand (w : Workgroup) : Demand := w.threads.map (fun t => (t.lane, t.alloc))

/-- Words of a demand on a lane. -/
def Demand.words (d : Demand) (lane : Nat) : Nat := (d.filter (fun p => p.1 == lane)).foldl (fun n p => n + p.2) 0

/-- Threads of a demand on a lane. -/
def Demand.count (d : Demand) (lane : Nat) : Nat := (d.filter (fun p => p.1 == lane)).length

/-- Whether a granule of a core is free. -/
def State.granuleFree (s : State) (core i : Nat) : Bool := !((s.coreOf core).granule i).live

/-- The lowest free run of `n` granules of a core (R26, R109). -/
def State.granuleRun (s : State) (core n : Nat) : Option Nat :=
  if n = 0 then some 0
  else (rangeFrom 0 (257 - n)).find? (fun i => (rangeFrom i n).all (s.granuleFree core))

/-- The conditions of Table 6 (R26) for a demand, its pools, granules and weight. -/
def State.admits (s : State) (core : Nat) (d : Demand) (pools : Nat → Nat) (granules weight : Nat) : Bool :=
  let here := s.coreWgs core
  let lanes := rangeFrom 0 32
  lanes.all (fun j => decide (here.foldl (fun n w => n + w.demand.count j) (d.count j) ≤ 16))
    && lanes.all (fun j => decide (here.foldl (fun n w => n + w.demand.words j + w.poolOf j) (d.words j + pools j) ≤ 2048))
    && (s.granuleRun core granules).isSome
    && decide (here.foldl (fun n w => n + Config.energyWeight w.energy) weight ≤ 32)

/-- Hands a run of granules to a workgroup (R109): live, owned, and of the next generation. -/
def Core.handGranules (c : Core) (ctx wg : Nat) (run : List Nat) : Core :=
  { c with granules :=
      run.map (fun i => { index := i, ctx := ctx, wg := wg, live := true, gen := ((c.granule i).gen + 1) % 256 })
        ++ c.granules.filter (fun g => !run.contains g.index) }

/-- A workgroup's granules return to its core (R23, R110). -/
def Core.freeGranules (c : Core) (ctx wg : Nat) : Core :=
  { c with granules := c.granules.map (fun g => if g.ctx == ctx && g.wg == wg then { g with live := false } else g) }

/-- Whether an access or a command that captured the generation a handover would produce is in flight, or saved (R110). -/
def State.handoverBlocked (s : State) (core : Nat) (run : List Nat) : Bool :=
  run.any (fun i =>
    let next := (((s.coreOf core).granule i).gen + 1) % 256
    s.flight.any (fun a => classOf a.addr == .scratch &&
        ((granulesAt (coreCluster a.core) a.addr a.size).zip a.gens).any (fun p => p.1 == (core, i) && p.2 == next))
      || s.sites.any (fun x => x.queue.any (fun e => e.gens.any (fun p => p.1 == granuleNo (core, i) && p.2 == next)))
      || s.wgs.any (fun w => w.savedSites.any (fun v => v.site.queue.any (fun e => e.gens.any (fun p => p.1 == granuleNo (core, i) && p.2 == next)))))

/-! Command links (R335). -/

/-- Whether the scheduler holds a send permit for the leaf controller of every cluster of a mask (R335). -/
def State.maySend (s : State) (mask : Nat) : Bool := ((rangeFrom 0 16).filter (bitOf mask)).all (fun c => decide ((s.cluster c).sent < 8))

/-- Whether every leaf controller of a mask holds a permit for a message to the scheduler (R335). -/
def State.mayReport (s : State) (mask : Nat) : Bool := ((rangeFrom 0 16).filter (bitOf mask)).all (fun c => decide ((s.cluster c).reported < 8))

/-- A message over the command link of every cluster of a mask: each spends a permit (R335, log 43). -/
def State.message (s : State) (mask : Nat) (up : Bool) : State :=
  ((rangeFrom 0 16).filter (bitOf mask)).foldl (fun s c => s.modCluster c (fun x =>
    if up then { x with reported := x.reported + 1 } else { x with sent := x.sent + 1 })) s

/-! Fusion and scratchpad bases. -/

/-- Fusion begins in a cluster with a fused launch's first workgroup (R107). -/
def State.fuseCluster (s : State) (l : Launch) (core : Nat) : State :=
  if l.img.fuse then (rangeFrom (core / 128 * 128) 128).foldl (fun s c => s.modCore c (fun c => { c with fused := true })) s else s

/-- Fusion ends with a fused launch's last workgroup of a cluster (R107), saved ones included: each L1 is invalidated, its
dirty private granules kept. -/
def State.unfuse (s : State) (ctx core : Nat) : State :=
  if (s.coreOf core).fused && !s.wgs.any (fun w => w.ctx == ctx && coreCluster w.core == coreCluster core) then
    (rangeFrom (core / 128 * 128) 128).foldl (fun s c => s.modCore c (fun c => { c with fused := false }))
      (s.l1Drop core (fun _ => true))
  else s

/-- The scratchpad base of a workgroup (R16, Table 3). -/
def scratchBaseOf (core off : Nat) : Nat := Config.scratchBase + core % 128 * Config.scratchPerCore + off

/-- A thread with its scratchpad base in w4:5 (R16). -/
def Thread.setScratchBase (t : Thread) (v : Nat) : Thread :=
  (t.putPhys 4 (BitVec.ofNat 32 v)).putPhys 5 (BitVec.ofNat 32 (v / 2 ^ 32))

end Sys2Proof.Machine
end

