-- ==== Sys2Proof/Machine/Preempt.lean ====
section
/-! DEFINITION. Pre-emption (R37 to R44) and resumption (R39, R41). -/

namespace Sys2Proof.Machine

/-- Whether a thread is held at a fence. -/
def Thread.atFence (t : Thread) : Bool := match t.status with
  | .held (.fence _ _ _) | .held (.pfence _ _) => true
  | .held (.tile _) | .held .token | .ready | .parked | .asleep _ | .exited => false

/-- Every access of a workgroup performs (R38, steps 1 and 3), and where a thread stands at a fence the writes of others that its
core has taken (R155, R157). -/
def State.drainWg (s : State) (w : Workgroup) : State :=
  let fenced := w.threads.any Thread.atFence
  s.drain (fun a => (a.ctx == w.ctx && a.wg == w.wg) || (fenced && s.takenNear w.core a))

/-- The fences that threads of a workgroup stand at complete with their writes (R38, step 1): their second halves take place (R155,
R157). -/
def State.endFences (s : State) (w : Workgroup) : State :=
  w.threads.foldl (fun s t => match t.status with
    | .held (.fence _ succ scope) => if bitOf succ 0 && decide (1 ≤ scope) then s.acquire w.core else s
    | .held (.pfence _ toSet) => s.dropCopies w.core toSet
    | .held (.tile _) | .held .token | .ready | .parked | .asleep _ | .exited => s) s

/-- Transactions at their homes complete, in ascending lane (R38, step 1). -/
def State.validateAll (s : State) (w : Workgroup) : State :=
  (laneOrder (w.threads.map (fun t => t.tid))).foldl (fun s t => s.txValidate w.ctx w.wg t) s

/-- A thread whose open run ends at an instruction boundary, its results committed (R38, step 1). -/
def Thread.endRun (t : Thread) : Thread := { t.commit with runLen := 0, clkw := t.clkwNext.getD t.clkw, clkwNext := none }

/-- A thread as its workgroup is saved (R38, steps 1, 2 and 7): an active transaction aborts with PREEMPT; an open run ends,
also one that stands at a fence, which has completed with the stores, or is held before an instruction. -/
def Thread.suspend (t : Thread) : Thread :=
  let u := if t.tx.active then t.abortTx .preempt 0 else t
  match u.status with
  | .ready => u.endRun
  | .held (.fence _ _ _) | .held (.pfence _ _) => { u.endRun with status := .ready }
  | .held (.tile _) | .held .token => u.endRun
  | .parked | .asleep _ | .exited => u

/-- Dirty private lines of a workgroup are written back and leave the L1 (R38, step 4). -/
def State.flushPrivate (s : State) (w : Workgroup) : State := s.l1Drop w.core (fun x => x.inBlock (s.privRuns w) w.ctx)

/-- One member of a lease at a save (R38, steps 5 and 6): the workgroup's entry in flight stops at a stated step, and its
entries and the site's state for it leave the site. -/
def State.saveMember (s : State) (l : Lease) (m : Nat) : State :=
  let i := l.site m
  let mine := fun (e : Entry) => e.ctx == l.ctx && e.wg == l.wg
  let own := ((s.siteOf l.die i).queue.head?).any mine
  let s2 := if own then s.stopEntry l.die i else s
  let x := s2.siteOf l.die i
  let kept : SavedSite := { handle := l.handle, member := m, site := { x with queue := x.queue.filter mine }.turn }
  (s2.modWg l.ctx l.wg (fun w => { w with savedSites := w.savedSites ++ [kept] })).modSite l.die i (fun x =>
    let rest := x.queue.filter (fun e => !mine e)
    if rest.isEmpty then { x.goDark with queue := [] } else { x with queue := rest, lease := none })

/-- A booked lease at a save (R41): its sites are freed, its bookings wait for the next workgroup of the slot. -/
def State.saveLease (s : State) (l : Lease) : State :=
  let s1 := (rangeFrom 0 l.count).foldl (fun s m => s.saveMember l m) s
  let s2 : State := { s1 with leases := s1.leases.filter (fun x => x != l) }
  (s2.modLaunch l.ctx (fun x => { x with booked := x.booked.map (fun b =>
    if b.taken == some l.handle && b.die == l.die then { b with taken := none } else b) })).modWg l.ctx l.wg
    (fun w => { w with savedLeases := w.savedLeases ++ [l] })

/-- The bookings of a workgroup's slot on whose sites entries of a released lease still run (R200), as leases to be saved. -/
def State.releasedLeases (s : State) (w : Workgroup) : List Lease :=
  (withLaunch s w.ctx [] (fun l => l.bookingsOf w.slot)).filterMap (fun b =>
    let left := b.sites.filterMap (fun i => (s.siteOf b.die i).queue.find? (fun e => e.ctx == w.ctx && e.wg == w.wg))
    if b.taken.isSome then none
    else (left.head?).map (fun e =>
      { handle := e.handle, ctx := w.ctx, wg := w.wg, cls := b.cls, count := b.sites.length, reserved := true, kept := false, keepState := false,
        priority := 0, grant := 0, die := b.die, sites := b.sites, ticket := none, released := true }))

/-- Sites that still run entries of a released lease which had no booking, granted anew since or not: the entries end as by forced
eviction (R42), and a site that nobody holds goes dark. -/
def State.dropReleased (s : State) (w : Workgroup) : State :=
  let mine := fun (e : Entry) => e.ctx == w.ctx && e.wg == w.wg
  (s.sites.filter (fun x => x.queue.any mine)).foldl (fun s x =>
    (s.evictEntries x.die x.index mine).modSite x.die x.index (fun x => if x.lease.isNone && x.queue.isEmpty then x.goDark else x)) s

/-- The leases of a workgroup at a save: booked ones are saved, with what released ones still run, and the others end as by
forced eviction (R41, R42, R44). -/
def State.saveLeases (s : State) (ctx wg : Nat) : State :=
  let s1 := (s.leases.filter (fun l => l.ctx == ctx && l.wg == wg)).foldl (fun s l => if l.reserved then s.saveLease l else s.evict l) s
  match s1.wgOf ctx wg with
  | none => s1
  | some w => ((s1.releasedLeases w).foldl State.saveLease s1).dropReleased w

/-- The device writes a context area at pre-emption, but for its private backing (R344). The layout is open: the bytes that it
writes are free, and what they keep stands in State (log 87). -/
def State.writeArea (s : State) (w : Workgroup) : State :=
  match s.launch w.ctx with
  | none => s
  | some l =>
    let n := areaBytes l.img l.quote.reductions - l.img.backing
    { s.writePhys (coreDie w.core) (s.privBase w + l.img.backing) ((rangeFrom 0 n).map (Config.areaByte s.free)) with free := s.free + 1 }

/-- Whether a workgroup runs on its core. -/
def State.runs (s : State) (ctx wg : Nat) : Bool := ((s.wgOf ctx wg).map Workgroup.resident).getD false

/-- PRE-EMPTION of a workgroup (R38), every step for the whole workgroup before the next. One that would consume a block known bad with an
access of its open runs ends by MCHK instead (R366). -/
def State.saveWg (s : State) (ctx wg : Nat) (cause : SaveCause) : State :=
  match s.wgOf ctx wg with
  | none => s
  | some w =>
    let s0 := (s.modCore w.core (fun c => c.dropThreads ctx wg (fun _ => false))).drainWg w
    match s0.badPending (fun a => a.ctx == ctx && a.wg == wg) with
    | some (_, b) => s0.consumeBad ctx wg b.1 b.2
    | none =>
    let s1 := s0.endFences w
    let s2 := (s1.validateAll w).modWg ctx wg (fun w => { w with threads := w.threads.map Thread.suspend })
    let s3 := (s2.flushPrivate w).saveLeases ctx wg
    ((s3.writeArea w).modWg ctx wg (fun w => { w with
        saved := cause, stuckAt := none, savedAt := s.dieTime (coreDie w.core), savedScratch := s3.readBank w.core w.scratchOff w.scratchLen })).modCore w.core
      (fun c => c.freeGranules ctx wg)

/-- A lease's member on its new site (R41): the saved state and entries are loaded as the site wakes, behind the entries that
another workgroup's released lease has left there; nothing that the site has read before is used (R279). -/
def State.loadMember (s : State) (w : Workgroup) (l : Lease) (m : Nat) : State :=
  match w.savedSites.find? (fun v => v.handle == l.handle && v.member == m) with
  | none => s
  | some v =>
    let s1 : State := { s with copies := s.copies.filter (fun c => !(c.path == enginePath (l.site m) && c.owner == engineOwner l.die (l.site m))) }
    s1.modSite l.die (l.site m) (fun x =>
      let y : Site := { v.site with
        die := x.die, index := x.index, lease := if l.released then none else some l.handle, keeper := some (w.ctx, w.wg), lastEntry := s.now }
      if x.queue.isEmpty then { y with power := .waking (s.now + Config.wakeNs (Config.siteClass x.index)) }
      else
        { x with
          lease := y.lease, keeper := y.keeper, keep := y.keep, opclass := y.opclass, lastEntry := s.now, lastA := y.lastA,
          acc0 := { x.acc0 with recorded := y.acc0.recorded }, acc1 := { x.acc1 with recorded := y.acc1.recorded },
          lineage := y.lineage, queue := x.queue ++ y.queue, heirs := x.heirs ++ (y.running, y.inside) :: y.heirs })

/-- A booked lease whose slot has no booking for it any more, since its site has failed (R367): it ends as by forced eviction, with
breach EVICTRES (R44, R345), and the evicted bit of %acs where it is of class MX (R202). -/
def State.loseLease (w : Workgroup) (s : State) (l : Lease) : State :=
  let left := (w.savedSites.filter (fun v => v.handle == l.handle)).flatMap (fun v => v.site.queue.filter (fun e => e.handle == l.handle))
  let s1 := left.foldl State.notPerformed s
  let s2 := if l.cls = 0 && !l.released then s1.modWg w.ctx w.wg (fun w => { w with acs := w.acs ||| acsEvicted }) else s1
  if l.released then s2 else ({ s2 with evicted := s2.evicted ++ [l] } : State).breach w.ctx 1 7 (nth 0xFF l.sites 0) l.die false

/-- A booked lease moves to the sites that the new slot books (R41); the lease keeps its handle. Where its sites would take the die
over its budget, power is shed first, as at a LEASE (R193, log 80). -/
def State.loadLease (w : Workgroup) (slot : Nat) (s : State) (l : Lease) : State :=
  match withLaunch s w.ctx none (fun x => x.matchBooking slot l.cls l.count (fun _ => false)) with
  | none => s.loseLease w l
  | some b =>
    let moved : Lease := { l with die := b.die, sites := b.sites }
    let opclass := withLaunch s w.ctx 0 (fun x => x.img.opclass)
    let cleared := s.clearBooked b
    let s0 := cleared.shedUntil b.die b.sites (State.fitsAwake b.die opclass b.sites) (cleared.shedOrder b.die)
    let s1 : State := { s0 with leases := if l.released then s0.leases else s0.leases ++ [moved] }
    (rangeFrom 0 l.count).foldl (fun s m => s.loadMember w moved m) (s1.markBooking w.ctx b (some l.handle))

/-- The bookings that released leases were loaded onto are free for the next LEASE (R200). -/
def State.unbookReleased (s : State) (w : Workgroup) (slot : Nat) : State :=
  let gone := (w.savedLeases.filter (fun l => l.released)).map (fun l => l.handle)
  s.modLaunch w.ctx (fun l => { l with booked := l.booked.map (fun b =>
    if b.slot == slot && b.taken.any gone.contains then { b with taken := none } else b) })

/-- A thread as its workgroup resumes (R39, R110): its wait goes on with what remained of its limit, on the clock of the die it
is on now. -/
def Thread.resume (now saved base : Nat) (moved : Bool) (t : Thread) : Thread :=
  let u := match t.status with
    | .asleep _ | .held _ => { t with deadline := t.deadline + now - saved }
    | .ready | .parked | .exited => t
  if moved then u.setScratchBase base else u

/-- Whether a saved workgroup may resume on a core (R41): Table 6 of R26, a free slot of the launch, and a die that takes new work of
the launch (R351, R370). -/
def State.resumeSlot (s : State) (l : Launch) (w : Workgroup) (core : Nat) : Option Nat :=
  match s.freeSlot l core with
  | none => none
  | some k =>
    let n := cdiv w.scratchLen 1024
    if s.takesWork (coreDie core) l.supervisor && s.admits core w.demand w.poolOf n (Config.energyWeight w.energy) &&
        !s.handoverBlocked core (rangeFrom (((s.granuleRun core n).getD 0)) n) && (s.cluster (coreCluster core)).powered then some k
    else none

/-- A workgroup's loads on its new core see what its loads and fences on the old one saw (R262): the L1's lines are read anew,
and copies of its other paths go. -/
def State.freshCore (s : State) (core : Nat) : State :=
  ({ s with copies := s.copies.filter (fun c => !((c.path == Path.con || c.path == Path.tile) && c.owner == core)) } : State).l1Refresh core (fun _ => true)

/-- RESUMPTION (R41) of a saved workgroup on a core. -/
def State.resumeWg (s : State) (ctx wg core : Nat) : State :=
  match s.launch ctx, s.wgOf ctx wg with
  | some l, some w =>
    (match s.resumeSlot l w core with
     | none => s
     | some slot =>
       let n := cdiv w.scratchLen 1024
       let run := (s.granuleRun core n).getD 0
       let off := run * 1024
       let s1 := (s.fuseCluster l core).modCore core (fun c => c.handGranules ctx wg (rangeFrom run n))
       let s2 : State := { s1 with scratch := Cells.putN s1.scratch (core * Config.scratchPerCore + off) w.savedScratch }
       let s3 := s2.modWg ctx wg (fun w => { w with
         core := core, slot := slot, saved := .running, scratchOff := off, savedScratch := [], savedLeases := [], savedSites := [],
         threads := w.threads.map (Thread.resume (s.dieTime (coreDie core)) w.savedAt (scratchBaseOf core off)
           (w.scratchOff != off || w.core % 128 != core % 128)) })
       let s4 := (w.savedLeases.foldl (State.loadLease w slot) s3).unbookReleased w slot
       let s5 := (s4.freshCore core).unfuse ctx w.core
       (laneOrder ((w.threads.filter (fun t => t.status == .ready)).map (fun t => t.tid))).foldl (fun s t => s.makeReady ctx wg t) s5)
  | _, _ => s

/-- The cores of a die where a workgroup may resume, the first of them (R41, R252). -/
def State.resumeCore (s : State) (l : Launch) (w : Workgroup) (dies : List Nat) : Option Nat :=
  (l.reservedCores.filter (fun c => dies.contains (coreDie c))).find? (fun c => (s.resumeSlot l w c).isSome)

end Sys2Proof.Machine
end

