-- ==== Sys2Proof/Machine/SubGroup.lean ====
section
/-! DEFINITION. Group 0x5: sub-group operations, the clock and special registers (R138-R141, R64, R65). -/

namespace Sys2Proof.Machine

/-- The members' values of operand a, by lane (R138). -/
structure LaneVals where
  vals : List (Nat × Word)
  deriving DecidableEq, Repr

/-- Val(L) (R138). -/
def LaneVals.own (v : LaneVals) (lane : Nat) : Word := ((v.vals.find? (fun p => p.1 == lane)).map (fun p => p.2)).getD 0

/-- Src(j) (R138). -/
def LaneVals.source (v : LaneVals) (lane j : Nat) : Word :=
  ((v.vals.find? (fun p => p.1 == j)).map (fun p => p.2)).getD (v.own lane)

/-- A mask of the members whose value satisfies a test (R139). -/
def LaneVals.mask (v : LaneVals) (p : Word → Bool) : Word :=
  BitVec.ofNat 32 ((v.vals.filter (fun x => p x.2)).foldl (fun n x => n + 2 ^ x.1) 0)

/-- A sub-group operation (R138, R139): each member's result from the values of all, committed at the park. -/
def subGroup (i : Instr) (d : Reg) (f : LaneVals → Nat → Thread → Word) (a : Nat) (s : State) : State :=
  variableOp i d (fun s g t => f { vals := (s.members g).map (fun u => (u.lane, u.readW a)) } t.lane t) s

/-- CLKI's effect (R141). -/
def clockEffect (d : Reg) (s : State) (g : Group) (tid : Nat) : State :=
  let iv := s.interval (coreDie g.core)
  s.modThread g.ctx g.wg tid (fun t =>
    { t.addResult (t.dests (rn d) 4) (some (wordsOf 2 iv.1 ++ wordsOf 2 iv.2)) with
      clkwNext := some (BitVec.ofNat 32 (sat32 (iv.2 - iv.1))) })

/-- %energyh as the thread reads it: what its last read of %energy latched, a read on its way included (R140, R247). -/
def energyLatch (s : State) (g : Group) (t : Thread) : Word :=
  (s.flight.filter (fun a => a.ctx == g.ctx && a.wg == g.wg && a.tid == t.tid)).foldl
    (fun w a => match a.op with | .energy _ hi => hi | _ => w) t.energyHi

/-- The value of a user-view register other than %energy (R17, R65). -/
def userRegister (s : State) (g : Group) (t : Thread) (index : Nat) : Word :=
  let l := fun (f : Launch → Nat) => BitVec.ofNat 32 (withLaunch s g.ctx 0 f)
  match index with
  | 0x0000 => BitVec.ofNat 32 t.tid
  | 0x0001 => BitVec.ofNat 32 (t.tid % 32)
  | 0x0002 => BitVec.ofNat 32 t.sub
  | 0x0003 => BitVec.ofNat 32 g.wg
  | 0x0004 => l (fun l => l.grid)
  | 0x0005 => BitVec.ofNat 32 (g.core % 128)
  | 0x0006 => BitVec.ofNat 32 (coreCluster g.core)
  | 0x0007 => BitVec.ofNat 32 (coreDie g.core)
  | 0x0008 => l (fun l => l.rank)
  | 0x0009 => l (fun l => l.nrank)
  | 0x0010 => t.clkw
  | 0x0011 => (s.die (coreDie g.core)).tol
  | 0x0018 => t.txs
  | 0x0019 => t.tws
  | 0x0020 => ((s.wgOf g.ctx g.wg).map (fun w => w.acs)).getD 0
  | 0x0029 => energyLatch s g t
  | 0x0030 => flagWord (withLaunch s g.ctx false (fun l => l.holdsToken g.wg))
  | _ => 0

/-- A read of a user-view register, by MFS or through its mirror (R140, R245): sampled at issue, committed at the park. -/
def readSpecial (s : State) (g : Group) (tid d index : Nat) : State :=
  match s.threadOf g.ctx g.wg tid with
  | none => s
  | some t =>
    if index = 0x0028 then
      withLaunch s g.ctx s (fun l =>
        s.send g tid .ord (.energy (BitVec.ofNat 32 (microJoules l.energyPj)) (energyHigh l.energyPj l.energySat)) 0 0 0 d 1 none s.nextId)
    else giveWord g tid d (userRegister s g t index) s

/-- A write of a user-view register (R64, R65, R140): %acs by W1C; %tol in the privileged view; the others are ignored. -/
def writeSpecial (s : State) (g : Group) (tid d index : Nat) (privView : Bool) : State :=
  match s.threadOf g.ctx g.wg tid with
  | none => s
  | some t =>
    let v := t.readW d
    if index = 0x0020 then s.modWg g.ctx g.wg (fun w => { w with acs := acsWrite w.acs v })
    else if index = 0x0011 && privView then s.modDie (coreDie g.core) (fun x => { x with tol := v })
    else s

/-- SHFL (R139). -/
def execShfl (sw : Bool) (d : Reg) (a : Reg) (b : Reg) (s : State) : Result1 :=
  .next (subGroup (.shfl sw d a b) d (fun v L t => v.source L (bits (t.readW (rn b)).toNat 4 0)) (rn a) s)

/-- SHFLX (R139). -/
def execShflx (sw : Bool) (d : Reg) (a : Reg) (b : Reg) (s : State) : Result1 :=
  .next (subGroup (.shflx sw d a b) d (fun v L t => v.source L (L ^^^ bits (t.readW (rn b)).toNat 4 0)) (rn a) s)

/-- SHFLU (R139). -/
def execShflu (sw : Bool) (d : Reg) (a : Reg) (b : Reg) (s : State) : Result1 :=
  .next (subGroup (.shflu sw d a b) d (fun v L t => let y := (t.readW (rn b)).toNat; if y ≤ L then v.source L (L - y) else v.own L) (rn a) s)

/-- SHFLD (R139). -/
def execShfld (sw : Bool) (d : Reg) (a : Reg) (b : Reg) (s : State) : Result1 :=
  .next (subGroup (.shfld sw d a b) d (fun v L t => let y := (t.readW (rn b)).toNat; if L + y ≤ 31 then v.source L (L + y) else v.own L) (rn a) s)

/-- VANY (R139). -/
def execVany (sw : Bool) (d : Reg) (a : Reg) (s : State) : Result1 :=
  .next (subGroup (.vany sw d a) d (fun v _ _ => flagWord (v.vals.any (fun p => p.2 != 0))) (rn a) s)

/-- VALL (R139). -/
def execVall (sw : Bool) (d : Reg) (a : Reg) (s : State) : Result1 :=
  .next (subGroup (.vall sw d a) d (fun v _ _ => flagWord (v.vals.all (fun p => p.2 != 0))) (rn a) s)

/-- VBAL (R139). -/
def execVbal (sw : Bool) (d : Reg) (a : Reg) (s : State) : Result1 :=
  .next (subGroup (.vbal sw d a) d (fun v _ _ => v.mask (fun x => x != 0)) (rn a) s)

/-- MATCH (R139). -/
def execMatchOp (sw : Bool) (d : Reg) (a : Reg) (s : State) : Result1 :=
  .next (subGroup (.matchOp sw d a) d (fun v L _ => v.mask (fun x => x == v.own L)) (rn a) s)

/-- GSUM (R139). -/
def execGsum (sw : Bool) (d : Reg) (a : Reg) (s : State) : Result1 :=
  .next (subGroup (.gsum sw d a) d (fun v _ _ => v.vals.foldl (fun n p => n + p.2) 0) (rn a) s)

/-- LANES (R139). -/
def execLanes (sw : Bool) (d : Reg) (s : State) : Result1 :=
  .next (subGroup (.lanes sw d) d (fun v _ _ => v.mask (fun _ => true)) 0 s)

/-- CLKI (R141): the interval, and %clkw, at the park. -/
def execClki (sw : Bool) (d : Reg) (s : State) : Result1 :=
  .next (issue (.clki sw d) noCheck (clockEffect d) s)

/-- MFS (R140): the register is sampled at issue. -/
def execMfs (sw : Bool) (d : Reg) (m : BitVec 14) (s : State) : Result1 :=
  .next (issue (.mfs sw d m) noCheck (fun s g tid => readSpecial s g tid (rn d) m.toNat) s)

/-- MTS (R140): performs at issue; a write to an RO register is ignored. -/
def execMts (sw : Bool) (d : Reg) (m : BitVec 14) (s : State) : Result1 :=
  .next (issue (.mts sw d m) noCheck (fun s g tid => writeSpecial s g tid (rn d) m.toNat false) s)

end Sys2Proof.Machine
end

