-- ==== Sys2Proof/Machine/System.lean ====
section
/-! DEFINITION. Groups 0xD and 0xE and BRK: register loans (R233 to R236), spawn (R239), the commit token (R241, R242), the
privileged view (R244 to R247), TLBI (R248), ERET, HALT, CTXSAV, CTXRES and SYSC (R249 to R253), RNDB (R137). -/

namespace Sys2Proof.Machine

/-! Register loans. -/

/-- RGIVE's check (R234). -/
def giveCheck (n : Nat) (t : Thread) : Option TrapInfo :=
  if decide (n + 16 ≤ t.alloc) && decide (t.base + n + 8 ≤ t.alloc) then none else trapOf .window n

/-- RCLAIM's check (R235). -/
def claimCheck (n : Nat) (t : Thread) : Option TrapInfo := if 1024 < t.alloc + n then trapOf .window (t.alloc + n) else none

/-- A member's claim joins its lane's queue, whose head is served when the pool suffices (R235). -/
def claimOp (d n : Nat) (s : State) (g : Group) (tid : Nat) : State :=
  (sleepOn (.rclaim n) (some d) g tid s).modWg g.ctx g.wg (fun w =>
    let w1 := { w with claims := w.claims ++ [tid] }
    Workgroup.serveLane (tid % 32) w1.claims.length w1)

/-- RPOOL's word (R236). -/
def poolWord (w : Workgroup) (lane : Nat) : Word :=
  BitVec.ofNat 32 (w.poolOf lane % 2 ^ 16 + (w.claims.filter (fun t => t % 32 == lane)).length % 2 ^ 8 * 2 ^ 16)

/-! Spawn. -/

/-- The spawn entries of a site (R303). -/
def Launch.spawnsAt (l : Launch) (pc : Nat) : List SpawnDecl := l.img.spawns.filter (fun e => e.site == pc)

/-- A thread's records so far at a site (R239). -/
def Thread.spawnCount (t : Thread) (pc : Nat) : Nat := ((t.spawned.find? (fun p => p.1 == pc)).map (fun p => p.2)).getD 0

/-- SPAWN's checks (R239, R303): the site's bound is that of its first entry. -/
def spawnCheck (b : Nat) (a : Nat) (s : State) (g : Group) (t : Thread) : Option TrapInfo :=
  withLaunch s g.ctx none (fun l =>
    let target := (t.readW a).toNat
    if decide (122 < b) || target % 4 != 0 || decide (l.img.codeLen ≤ target) || !l.img.spawns.any (fun e => e.target == target) then
      trapOf .illegal target
    else if (((l.spawnsAt g.pc).head?).map (fun e => e.bound)).getD 0 ≤ t.spawnCount g.pc then trapOf .bound 0
    else none)

/-- SPAWN in one member (R239): the record leaves, and d receives the count. -/
def spawnOp (d a b : Nat) (s : State) (g : Group) (tid : Nat) : State :=
  match s.threadOf g.ctx g.wg tid with
  | none => s
  | some t =>
    let n := t.spawnCount g.pc + 1
    let args := (rangeFrom b 6).map t.readW
    (giveWord g tid d (BitVec.ofNat 32 n)
      (s.send g tid .ord (.record (t.readW a).toNat args t.spawnSeq) 0 0 0 0 0 none (groupId s g))).modThread g.ctx g.wg tid (fun t =>
        { t with spawned := (g.pc, n) :: t.spawned.filter (fun p => p.1 != g.pc), spawnSeq := t.spawnSeq + 1 })

/-! The commit token. -/

/-- TOKW in one member (R241): NODET and PASSED are written at once. -/
def tokenWait (d : Nat) (s : State) (g : Group) (tid : Nat) : State :=
  withLaunch s g.ctx s (fun l =>
    if !l.img.det then giveWord g tid d 1 s
    else if l.tokenPassed g.wg then giveWord g tid d 2 s
    else sleepOn .tokw (some d) g tid s)

/-- TOKP's effect and value for a member (R242). -/
def tokenPassOp (s : State) (g : Group) : State × Word :=
  withLaunch s g.ctx (s, 1) (fun l =>
    if !l.img.det then (s, 1)
    else if l.tokenPassed g.wg then (s, 2)
    else if l.holdsToken g.wg then (s.modLaunch g.ctx (fun l => { l with passing := true }), 0)
    else (s, 3))

/-! The privileged view. -/

/-- The value of a thread's trap register or %ctx (R245). -/
def trapRegister (g : Group) (t : Thread) (index : Nat) : Word := match index with
  | 0x2100 => t.tvec
  | 0x2101 => t.epc
  | 0x2102 => t.ecause
  | 0x2103 => t.eop
  | 0x2104 => t.eoph
  | 0x2108 => BitVec.ofNat 32 (g.ctx % 2 ^ 16)
  | _ => 0

/-- MFSR in one member (R244): mirrors, trap registers, the own die's registers at issue, another die's through the
fabric. -/
def readPrivileged (s : State) (g : Group) (tid d index : Nat) : State :=
  match s.threadOf g.ctx g.wg tid with
  | none => s
  | some t =>
    if index < 0x2100 then readSpecial s g tid d (index - 0x2000)
    else if index < 0x2200 then giveWord g tid d (trapRegister g t index) s
    else if (index - 0x2200) / 16 = coreDie g.core then
      let r := s.readDieRegister g.ctx g.wg tid index
      giveWord g tid d r.1 r.2
    else s.send g tid .ord (.regRead index) 0 0 0 d 1 none (groupId s g)

/-- MTSR in one member (R244, R245). -/
def writePrivileged (s : State) (g : Group) (tid d index : Nat) : State :=
  match s.threadOf g.ctx g.wg tid with
  | none => s
  | some t =>
    let v := t.readW d
    if index < 0x2100 then writeSpecial s g tid d (index - 0x2000) true
    else if index = 0x2100 then s.modThread g.ctx g.wg tid (fun t => { t with tvec := v &&& 0xFFFFFFFC })
    else if index = 0x2101 then s.modThread g.ctx g.wg tid (fun t => { t with epc := v })
    else if index < 0x2200 then s
    else if (index - 0x2200) / 16 = coreDie g.core then s.writeDieRegister index v
    else s.send g tid .ord (.regWrite index v) 0 0 0 0 0 none (groupId s g)

/-! TLBI. -/

/-- The physical address that a home location has in a partition (R350, R395): the inverse of State.locOf. -/
def State.physOf (s : State) (die key : Nat) : Nat :=
  let st := s.stacks die
  if key < lpddrKey then
    let off := key % Config.stackBytes
    let j := (st.findIdx? (fun i => i == key / Config.stackBytes)).getD 0
    (off / 4096 * st.length + j) * 4096 + off % 4096
  else if key < lpddrKey + 8 * Config.lpddrPerDie then key - lpddrKey - s.partFirst die * Config.lpddrPerDie + Config.lpddrBase
  else key

/-- Whether a home location lies in a frame. -/
def State.inFrame (s : State) (die frame sizeLog key : Nat) : Bool :=
  decide (frame ≤ s.physOf die key) && decide (s.physOf die key < frame + 2 ^ sizeLog)

/-- The dies that a thread's TLBI reaches (R248): those of its partition, and while its die is quiesced every quiesced one of the module
besides (R352). -/
def State.tlbiDies (s : State) (die : Nat) : List Nat :=
  if bitOf (s.die die).pqc.toNat 8 then
    (s.dies.filter (fun d => bitOf d.pqc.toNat 8 || (s.partDies die).contains d.id)).map (fun d => d.id)
  else s.partDies die

/-- The frames that a TLBI covers (R248): by the leaf entries of its pages, and by what a TLB still holds; mode 2 takes every
line by its context. -/
def State.tlbiFrames (s : State) (die mode ctx va : Nat) : List (Nat × Nat) :=
  let held := s.tlb.filter (fun t => mode == 2 || (t.ctx == ctx && (mode == 1 || t.page == va / 2 ^ t.sizeLog)))
  let now := if mode = 0 then
      (match (s.launch ctx).bind (fun l => s.walk die l va) with
       | some h => [(h.frame, h.sizeLog)]
       | none => [])
    else if mode = 1 then ((s.launch ctx).map (fun l => (s.declaredPages l).map (fun p => (p.2.frame, p.2.sizeLog)))).getD []
    else []
  now ++ held.map (fun t => (t.frame, t.sizeLog))

/-- A watch that a TLBI drops (R166, R248). -/
def loseWatch (p : Nat → Bool) (t : Thread) : Thread :=
  { t with watches := t.watches.map (fun x => if p x.line then { x with state := .lost } else x) }

/-- TLBI (R248): translations, L1 lines by the reverse map, and watches; dirty private granules are written back first. -/
def State.shootDown (s : State) (die mode ctx va : Nat) : State :=
  let dies := s.tlbiDies die
  let frames := s.tlbiFrames die mode ctx va
  let inFrames := fun (line : Nat) => frames.any (fun f => s.inFrame die f.1 f.2 (line * 128))
  let ofContext := fun (c : Nat) => mode == 2 || (mode == 1 && c == ctx)
  let covers := fun (t : TlbEntry) => dies.contains (t.cluster / 2) &&
    (mode == 2 || (t.ctx == ctx && (mode == 1 || t.page == va / 2 ^ t.sizeLog)))
  let s1 : State := { s with tlb := s.tlb.filter (fun t => !covers t) }
  let cores := (s1.cores.filter (fun c => dies.contains (coreDie c.id))).map (fun c => c.id)
  let s2 := cores.foldl (fun s c => s.l1Drop c (fun x => ofContext x.ctx || inFrames x.key)) s1
  { s2 with wgs := s2.wgs.map (fun w =>
      if dies.contains (coreDie w.core) then
        { w with threads := w.threads.map (loseWatch (fun line =>
            !bankLine line && (ofContext w.ctx || inFrames line))) }
      else w) }

/-- TLBI's checks (R248). -/
def shootCheck (b : Nat) : Option TrapInfo := if bits b 31 18 != 0 || bits b 17 16 == 3 then trapOf .illegal 0 else none

/-! Contexts. -/

/-- CTXSAV's pair (R251). -/
def contextCheck (x : Nat) : Option TrapInfo := if bits x 31 16 != 0 then trapOf .illegal 0 else none

/-- A workgroup of a partition by context and %wg (R251, R252): one that runs, or was saved, on a die of it. -/
def State.partWg (s : State) (die ctx wg : Nat) : Option Workgroup :=
  match s.launch ctx with
  | none => none
  | some _ => (s.wgOf ctx wg).filter (fun w => (s.partDies die).contains (coreDie w.core))

/-- CTXSAV's effect and value (R251): an operator's breach against the launch (R37, R345). DESIGN CHOICE (log 109): another workgroup
of the issuer's own launch is saved like one of another launch, of which alone R251 speaks. One that ends by MCHK as it is to be saved
(R366) is there no more. -/
def saveOp (s : State) (g : Group) (x : Nat) : State × Word :=
  let ctx := bits x 15 0
  let wg := x / 2 ^ 32
  if ctx = g.ctx ∧ wg = g.wg then (s, 3)
  else
    match s.partWg (coreDie g.core) ctx wg with
    | none => (s, 1)
    | some w =>
      if !w.resident then (s, 2)
      else
        let s1 := s.saveWg ctx wg .ctxsav
        if s1.runs ctx wg then (s1, 1) else (s1.breach ctx 2 16 0xFF 0xFF false, 0)

/-- CTXRES's effect and value (R252): of workgroups saved by CTXSAV, or by BRK under R257. -/
def restoreOp (s : State) (g : Group) (x b : Nat) : State × Word :=
  let ctx := bits x 15 0
  let wg := x / 2 ^ 32
  match s.partWg (coreDie g.core) ctx wg, s.launch ctx with
  | some w, some l =>
    let dies := if b = 8 then s.partDies (coreDie g.core) else (s.partDies (coreDie g.core)).filter (fun d => d == b)
    (match w.saved with
     | .running => (s, 2)
     | .device | .operator => (s, 1)
     | .ctxsav | .brk =>
       match s.resumeCore l w dies with
       | none => (s, 3)
       | some c => (s.resumeWg ctx wg c, 0))
  | _, _ => (s, 1)

/-! Services. -/

/-- The 16 words of a service record (R253; their order: log 14). -/
def serviceWords (code ctx wg tid : Nat) (args : List Word) : List Nat :=
  [code, ctx, wg, tid] ++ args.map BitVec.toNat ++ List.replicate 6 0

/-- SYSC in one member (R253, R346). -/
def serviceOp (code : Nat) (s : State) (g : Group) (tid : Nat) : State :=
  match s.threadOf g.ctx g.wg tid, s.launch g.ctx with
  | some t, some l =>
    let consumed := s.readNat l.firstDie (l.svcQueue + 4) 4
    let used := (l.svcProduced + 2 ^ 32 - consumed) % 2 ^ 32
    if used < l.svcEntries then
      let s1 := s.writeWords l.firstDie (l.svcQueue + 64 + 64 * (l.svcProduced % l.svcEntries))
        (serviceWords code g.ctx g.wg tid ((rangeFrom 8 6).map t.readW))
      (s1.writeNat l.firstDie l.svcQueue 4 ((l.svcProduced + 1) % 2 ^ 32)).modLaunch g.ctx
        (fun l => { l with svcProduced := (l.svcProduced + 1) % 2 ^ 32 })
    else s.modLaunch g.ctx (fun l => { l with svcDropped := l.svcDropped + 1 })
  | _, _ => s

/-- BRK in a debug launch (R257): the run's earlier instructions perform, the workgroup is saved with its PC after the BRK, and
the driver is notified, by a record of its fault queue (DESIGN CHOICE, log 76: the manual says only that it is). -/
def debugBreak (i : Instr) (s : State) (g : Group) : State :=
  let s1 := g.tids.foldl (fun s t => s.drainRun g.ctx g.wg t) { s with group := none }
  let s2 := g.tids.foldl (fun s t => s.modThread g.ctx g.wg t (fun t => { t with pc := g.pc + i.bytes })) s1
  let s3 := s2.saveWg g.ctx g.wg .brk
  if s3.runs g.ctx g.wg then s3 else { s3 with faultQueue := s3.faultQueue ++ [FaultRecord.debugBreak g.ctx g.wg (nth 0 g.tids 0) g.pc] }

/-- BRK (R148, R257). -/
def execBrk (sw : Bool) (m : BitVec 21) (s : State) : Result1 :=
  .next (match s.group with
    | none => s
    | some g =>
      if withLaunch s g.ctx false (fun l => l.debug) then debugBreak (.brk sw m) s g
      else issue (.brk sw m) (fun _ _ _ => trapOf .brk m.toNat) (fun s _ _ => s) s)

/-- RGIVE (R234): the words leave at the park. -/
def execRgive (m : BitVec 14) (s : State) : Result1 :=
  .next (issue (.rgive m) (fun _ _ t => giveCheck m.toNat t) (onThread (fun t => { t with parkAct := .give m.toNat })) s)

/-- RCLAIM (R235). -/
def execRclaim (sw : Bool) (d : Reg) (m : BitVec 14) (s : State) : Result1 :=
  .next (issue (.rclaim sw d m) (fun _ _ t => claimCheck m.toNat t) (claimOp (rn d) m.toNat) s)

/-- RPOOL (R236). -/
def execRpool (sw : Bool) (d : Reg) (s : State) : Result1 :=
  .next (variableOp (.rpool sw d) d (fun s g t => ((s.wgOf g.ctx g.wg).map (fun w => poolWord w t.lane)).getD 0) s)

/-- SPAWN (R239). -/
def execSpawn (sw : Bool) (d : Reg) (a : Reg) (b : Reg) (s : State) : Result1 :=
  .next (issue (.spawn sw d a b) (spawnCheck (rn b) (rn a)) (spawnOp (rn d) (rn a) (rn b)) s)

/-- TOKW (R241). -/
def execTokw (sw : Bool) (d : Reg) (s : State) : Result1 :=
  .next (issue (.tokw sw d) noCheck (tokenWait (rn d)) s)

/-- TOKP (R242). -/
def execTokp (sw : Bool) (d : Reg) (s : State) : Result1 :=
  .next (statusOp (.tokp sw d) noCheck d (fun s g _ => tokenPassOp s g) s)

/-- RNDB (R96, R97, R137): the counter advances by 1. -/
def execRndb (sw : Bool) (d : Reg) (s : State) : Result1 :=
  .next (issue (.rndb sw d) noCheck (fun s g tid => withLaunch s g.ctx s (fun l =>
    s.modThread g.ctx g.wg tid (fun t =>
      { t.addResult (t.dests (rn d) 1) (some [some (BitVec.ofNat 32 (rndWord l.seed (g.wg * 512 + tid) t.rng.toNat))]) with
        rng := t.rng + 1 }))) s)

/-- MFSR (R244). -/
def execMfsr (sw : Bool) (d : Reg) (m : BitVec 14) (s : State) : Result1 :=
  .next (issue (.mfsr sw d m) noCheck (fun s g tid => readPrivileged s g tid (rn d) m.toNat) s)

/-- MTSR (R244). -/
def execMtsr (sw : Bool) (d : Reg) (m : BitVec 14) (s : State) : Result1 :=
  .next (issue (.mtsr sw d m) noCheck (fun s g tid => writePrivileged s g tid (rn d) m.toNat) s)

/-- TLBI (R248). -/
def execTlbi (sw : Bool) (d : Reg) (a : Reg) (b : Reg) (s : State) : Result1 :=
  .next (statusOp (.tlbi sw d a b) (fun _ _ t => shootCheck (t.readW (rn b)).toNat) d (fun s g t =>
    let x := (t.readW (rn b)).toNat
    (s.shootDown (coreDie g.core) (bits x 17 16) (bits x 15 0) (t.readPair (rn a)), 0)) s)

/-- ERET (R249): ILLEGAL outside a handler, ALIGN for a target that is no multiple of 4 (R46). -/
def execEret (s : State) : Result1 :=
  .next (issue .eret (fun _ _ t =>
      if !bitOf t.ecause.toNat 31 then trapOf .illegal 0
      else if t.epc.toNat % 4 != 0 then trapOf .align t.epc.toNat
      else none)
    (onThread Thread.unvector) s)

/-- HALT (R250): ends the workgroup at its park. -/
def execHalt (a : Reg) (s : State) : Result1 :=
  .next (issue (.halt a) noCheck (onThread (fun t => { t with parkAct := .halt (t.readW (rn a)).toNat })) s)

/-- CTXSAV (R251). -/
def execCtxsav (sw : Bool) (d : Reg) (a : Reg) (s : State) : Result1 :=
  .next (statusOp (.ctxsav sw d a) (fun _ _ t => contextCheck (t.readPair (rn a))) d (fun s g t => saveOp s g (t.readPair (rn a))) s)

/-- CTXRES (R252). -/
def execCtxres (sw : Bool) (d : Reg) (a : Reg) (b : Reg) (s : State) : Result1 :=
  .next (statusOp (.ctxres sw d a b) (fun _ _ t =>
      match contextCheck (t.readPair (rn a)) with
      | some x => some x
      | none => if 8 < (t.readW (rn b)).toNat then trapOf .illegal 0 else none) d
    (fun s g t => restoreOp s g (t.readPair (rn a)) (t.readW (rn b)).toNat) s)

/-- SYSC (R253): the thread goes on at PC + 4, and its run closes. -/
def execSysc (sw : Bool) (m : BitVec 21) (s : State) : Result1 :=
  .next (issue (.sysc sw m) noCheck (serviceOp m.toNat) s)

end Sys2Proof.Machine
end

