-- ==== Sys2Proof/Machine/CoreEvents.lean ====
section
/-! DEFINITION. Steps of the cores and leaf controllers: parks (R58), waits (R66, R67), barriers' releases (R162), windows
of the throttle (R22), dispatch and end of workgroups (R23, R26, R34), continuations (R28, R31), the commit token (R174,
R177), the deadlock detector (R238), pre-emption (R38) and resumption (R41), machine checks (R256) and words that are no
instruction (R54). A step whose condition does not hold leaves the machine as it is. -/

namespace Sys2Proof.Machine

/-! Parks and waits. -/

/-- A parked thread whose results have all returned commits them (R58, R60). -/
def State.parkOne (ctx wg : Nat) (s : State) (tid : Nat) : State :=
  match s.threadOf ctx wg tid with
  | none => s
  | some t => if t.status == .parked && t.returned then s.finishPark ctx wg tid else s

/-- The probe that a wait on a release count makes at its site (R160). -/
def probe (w : Workgroup) (t : Thread) (addr : Nat) : Access where
  id := 0
  ctx := w.ctx
  wg := w.wg
  tid := t.tid
  core := w.core
  path := .ord
  op := .mon
  addr := addr
  size := 4
  scope := 0
  slot := none
  gens := []
  gid := 0
  pc := t.pc
  taken := 0
  tx := none
  after := []

/-- A thread's watch on a line is gone, and so is the line from its core's table where nobody else watches it (R166). -/
def State.clearWatch (s : State) (w : Workgroup) (tid line : Nat) : State :=
  let s1 := s.modThread w.ctx w.wg tid (fun t => { t with watches := t.watches.filter (fun x => x.line != line) })
  if s1.wgs.any (fun v => v.core == w.core && v.threads.any (fun t => t.watches.any (fun x => x.line == line))) then s1
  else s1.modCore w.core (fun c => { c with watched := c.watched.filter (fun x => x.1 != line) })

/-- How a wait stands: unmet, or met with its effect and the word it writes, if it writes one. -/
inductive Met where
  | unmet
  | met (s : State) (v : Option Word)
  deriving DecidableEq, Repr

/-- A fence of a core has ended (R155): what its thread does next may not be seen before the writes of its predecessor set that stand in the
L1, for the edge of R263 joins accesses of the one thread. At a wider scope they are at their homes. -/
def State.fenceEdge (s : State) (ctx wg tid pred scope : Nat) : State :=
  if scope = 0 then
    s.follow ctx wg tid (s.flight.filter (fun a => a.ctx == ctx && a.wg == wg && a.tid == tid && a.taken != 0 && a.op.sets.any (bitOf pred)))
  else s

/-- A leaf barrier lets a thread go (R162): what it does next may not be seen before the writes of its workgroup that stand in the L1, nor
before those that its workgroup's threads follow (R263). -/
def State.leafEdge (s : State) (w : Workgroup) (tid : Nat) : State :=
  s.follow w.ctx w.wg tid (s.flight.filter (fun a =>
    a.taken != 0 && ((a.ctx == w.ctx && a.wg == w.wg) || w.threads.any (fun t => t.seen.contains a.id))))

/-- A wait on a sluice of the core's scope is met (R160): what its thread does next may not be seen before the writes to bound regions that
stand in the L1 (R263). -/
def State.sluiceEdge (s : State) (w : Workgroup) (tid k scope : Nat) : State :=
  if scope = 0 then withLaunch s w.ctx s (fun l => s.follow w.ctx w.wg tid (s.flight.filter (fun a =>
    a.taken != 0 && a.ctx == w.ctx && s.sameL1 w.core a.core && (l.regionOf a.addr a.size).any (fun r => r.sluice == k))))
  else s

/-- An edge of Table 3 of R263 reaches a workgroup: the clean lines that its core's L1 holds of the regions which the edge
orders are read anew at their homes, and stay (R106, R264; DEDUCED, log 77). -/
def State.edgeRefresh (s : State) (w : Workgroup) (p : Region → Bool) : State :=
  withLaunch s w.ctx s (fun l => s.l1Refresh w.core (fun x => x.ctx == w.ctx && l.lineIn x.vline p))

/-- Whether a stamped store of a waterline's launches with a stamp at or below one still waits at its home: one that has not
taken the new value yet (R187, R263). -/
def State.uncommitted (s : State) (line stamp : Nat) : Bool :=
  s.stampLines.any (fun k => (k.pending ++ k.waiting).any (fun x => x.firstDie == line && decide (x.stamp ≤ stamp)))

/-- The waterline's edge of Table 3 of R263 reaches every agent of its launches: the lines of stamped regions that L1s hold are read
anew (log 77). -/
def State.stampEdge (s : State) (line : Nat) : State :=
  s.cores.foldl (fun s c => s.l1Refresh c.id (fun x =>
    (s.launch x.ctx).any (fun l => l.lineId == line && l.lineIn x.vline (fun r => r.kind == 3)))) s

/-- LWAIT's condition (R198). -/
def State.leaseMet (s : State) (w : Workgroup) (word : Nat) : Met :=
  match s.nameTicket w.ctx w.wg word with
  | some _ => .unmet
  | none =>
    match s.nameWord w.ctx w.wg word with
    | .member l _ =>
      if l.sites.all (fun i => (s.siteOf l.die i).power == .awake) then .met s (some (BitVec.ofNat 32 l.handle)) else .unmet
    | .evicted l => .met (s.reported l) (some stEvicted)
    | .bad => .met s (some stBadHandle)

/-- A wait's condition (R66) for a sleeping thread. CWAIT also waits for the homes to commit what the waterline has passed, which
its edge of Table 3 of R263 orders (DEDUCED, log 101). -/
def State.waitMet (s : State) (w : Workgroup) (t : Thread) (k : WaitKind) : Met :=
  match k with
  | .slacq addr need =>
    (match (s.launch w.ctx).bind (fun l => (l.sluiceOf addr).map (fun x => (l, x))) with
     | none => .unmet
     | some (l, x) =>
       let n := s.sluiceCount (probe w t addr) l x.2
       if need ≤ n then .met ((s.sluiceEdge w t.tid x.1 x.2).acquireBound w.core w.ctx x.1) (some (BitVec.ofNat 32 n)) else .unmet)
  | .mwait line =>
    (match t.watches.find? (fun x => x.line == line) with
     | none => .met s (some 1)
     | some x => match x.state with
       | .armed => .unmet
       | .written => .met (s.clearWatch w t.tid line) (some 0)
       | .lost => .met (s.clearWatch w t.tid line) (some 2))
  | .cwait stamp =>
    withLaunch s w.ctx .unmet (fun l =>
      if decide (stamp < s.waterline (coreDie w.core) 64 l.lineId) && !s.uncommitted l.lineId stamp then
        .met (s.stampEdge l.lineId) (some 0)
      else .unmet)
  | .bwait allowed => if t.unfinished ≤ allowed then .met s (some (BitVec.ofNat 32 t.unfinished)) else .unmet
  | .barrier level id =>
    if s.barrierDone w.ctx w.wg t level id then
      .met ((if 1 ≤ level then s.acquire w.core else s.leafEdge w t.tid).modThread w.ctx w.wg t.tid (fun t => { t with tws := 0 })) none
    else .unmet
  | .lwait word => s.leaseMet w word
  | .rclaim _ => if w.claims.contains t.tid then .unmet else .met s none
  | .twait tile state =>
    (match s.tileOf (coreCluster w.core) tile with
     | none => .unmet
     | some x => if x.state.num = state then .met s (some (tileWord x)) else .unmet)
  | .tokw =>
    withLaunch s w.ctx .unmet (fun l =>
      if l.holdsToken w.wg then .met (s.edgeRefresh w (fun r => r.shared)) (some 0) else if l.tokenPassed w.wg then .met s (some 2) else .unmet)

/-- Whether a wait is on a barrier. -/
def WaitKind.isBarrier : WaitKind → Bool
  | .barrier _ _ => true
  | .slacq _ _ | .mwait _ | .cwait _ | .bwait _ | .lwait _ | .rclaim _ | .twait _ _ | .tokw => false

/-- A held thread goes on: its run closes if the instruction closed it, or takes its next place (R20, R58). -/
def State.goOn (s : State) (ctx wg : Nat) (t : Thread) : State :=
  if 64 ≤ t.runLen then s.modThread ctx wg t.tid (fun t => { t with status := .parked }) else s.keepReady ctx wg t.tid

/-- Whether a hold has ended, with what its end does (R115, R155, R157, R175). -/
def State.holdEnd (s : State) (w : Workgroup) (t : Thread) (h : HoldKind) : Option State :=
  match h with
  | .fence pred succ scope =>
    if s.fencePending w.core w.ctx w.wg t.tid pred scope then none
    else some (((if bitOf succ 0 && decide (1 ≤ scope) then s.acquire w.core else s).fenceEdge w.ctx w.wg t.tid pred scope).goOn w.ctx w.wg t)
  | .pfence fromSet toSet =>
    if s.pfencePending w.core w.ctx w.wg t.tid fromSet then none
    else some ((s.dropCopies w.core toSet).goOn w.ctx w.wg t)
  | .tile tiles => if tiles.all (s.tileWaitDone (coreCluster w.core)) then some (s.keepReady w.ctx w.wg t.tid) else none
  | .token =>
    if withLaunch s w.ctx false (fun l => l.holdsToken w.wg || l.tokenPassed w.wg) then some (s.keepReady w.ctx w.wg t.tid) else none

/-- A sleeping thread's wait is over: its result is filled and its run parks (R66). -/
def Thread.wake (v : Option Word) (t : Thread) : Thread :=
  let u := { t with status := .parked }
  match v with
  | none => u
  | some x => u.fillSlot t.waitSlot [some x]

/-- The breach of a wait that expires because of clock loss or link retrain (R273, R345). -/
def State.expiryBreach (s : State) (ctx : Nat) (k : WaitKind) : State :=
  match s.launch ctx with
  | none => s
  | some l =>
    let lost := (s.partDies l.firstDie).any (fun d => (s.die d).clock.lostAt.isSome)
    match k with
    | .cwait _ | .bwait _ =>
      if lost then s.breach ctx 1 5 0xFF 0xFF false
      else if l.spansPod && !s.retraining.isEmpty then s.breach ctx 1 6 0xFF 0xFF false
      else s
    | .slacq _ _ | .mwait _ | .barrier _ _ | .lwait _ | .rclaim _ | .twait _ _ | .tokw => s

/-- What expires with a wait besides its TIMEOUT (R166, R235). -/
def State.expireEffects (s : State) (w : Workgroup) (t : Thread) (k : WaitKind) : State :=
  match k with
  | .mwait line => s.clearWatch w t.tid line
  | .rclaim _ => s.modWg w.ctx w.wg (fun w =>
      let w1 := { w with claims := w.claims.filter (fun x => x != t.tid) }
      Workgroup.serveLane t.lane w1.claims.length w1)
  | .barrier _ _ => s.modThread w.ctx w.wg t.tid (fun t => { t with tws := Config.timeout })
  | .slacq _ _ | .cwait _ | .bwait _ | .lwait _ | .twait _ _ | .tokw => s

/-- The instruction that a held thread waits to issue. -/
def State.heldInstr (s : State) (core ctx pc : Nat) : Option Instr :=
  (s.launch ctx).bind (fun l => (s.codeWord (coreDie core) l pc).bind (fun w =>
    match decodeWords w (s.codeWord (coreDie core) l (pc + 4)) with
    | .ok i => some i
    | .error _ => none))

/-- A tile hold's limit expires (R115, R228): the instruction performs nothing, TIMEOUT goes to the first word of d, or to
%tws for STT, and the run goes on. -/
def State.expireHold (s : State) (w : Workgroup) (t : Thread) : State :=
  match t.holdPc with
  | none => s
  | some pc =>
    match s.heldInstr w.core w.ctx pc with
    | none => s
    | some i =>
      State.advance i { core := w.core, ctx := w.ctx, wg := w.wg, pc := pc, tids := [t.tid] }
        (s.modThread w.ctx w.wg t.tid (fun t => { t.timeoutAt i with status := .ready, pc := pc + i.bytes, holdPc := none })) t.tid

/-- The limit of the wait or hold that a thread is in (R66, R228): that of the entry at its instruction, 0 without one. -/
def State.limitOf (s : State) (w : Workgroup) (t : Thread) : Nat :=
  ((s.launch w.ctx).bind (fun l => l.bound (t.holdPc.getD (t.pc - 4)))).getD 0

/-- Whether the limit has expired on the die's clock (R67): no condition is tested any more. -/
def State.expired (s : State) (w : Workgroup) (t : Thread) : Bool := decide (t.deadline < s.dieTime (coreDie w.core))

/-- A wait completes with TIMEOUT (R67). A limit of 0 is no wait that clock loss or a retrain could lengthen (R320). -/
def State.expireWait (s : State) (w : Workgroup) (t : Thread) (k : WaitKind) : State :=
  let s1 := if s.limitOf w t = 0 then s else s.expiryBreach w.ctx k
  (s1.expireEffects w t k).modThread w.ctx w.wg t.tid (Thread.wake (if k.isBarrier then none else some Config.timeout))

/-- Tests a sleeping thread's wait (R66): met, it wakes; unmet, a limit of 0 times out at once. -/
def State.testWait (s : State) (w : Workgroup) (t : Thread) (k : WaitKind) : State :=
  if s.expired w t then s
  else match s.waitMet w t k with
    | .met s1 v => s1.modThread w.ctx w.wg t.tid (Thread.wake v)
    | .unmet => if s.limitOf w t = 0 then s.expireWait w t k else s

/-- Whether a tile hold may still end by its tiles (R115, R228). -/
def State.testHold (s : State) (w : Workgroup) (t : Thread) (h : HoldKind) : State :=
  match h with
  | .tile _ =>
    if s.expired w t then s
    else match s.holdEnd w t h with
      | some s1 => s1
      | none => if s.limitOf w t = 0 then s.expireHold w t else s
  | .fence _ _ _ | .pfence _ _ | .token => (s.holdEnd w t h).getD s

/-- WAIT_WAKE in one thread: its condition is tested; barriers are released by BARRIER_RELEASE. -/
def State.wakeOne (ctx wg : Nat) (s : State) (tid : Nat) : State :=
  match s.wgOf ctx wg, s.threadOf ctx wg tid with
  | some w, some t =>
    (match t.status with
     | .asleep k => if k.isBarrier then s else s.testWait w t k
     | .held h => s.testHold w t h
     | .ready | .parked | .exited => s)
  | _, _ => s

/-- BARRIER_RELEASE in one thread (R162, R163). -/
def State.releaseOne (ctx wg : Nat) (s : State) (tid : Nat) : State :=
  match s.wgOf ctx wg, s.threadOf ctx wg tid with
  | some w, some t =>
    (match t.status with
     | .asleep k => if k.isBarrier then s.testWait w t k else s
     | .held _ | .ready | .parked | .exited => s)
  | _, _ => s

/-- Cycles within which REGDL comes (R238), in ns of the launch's operating class. -/
def Launch.regdlNs (l : Launch) : Nat := cdiv (1024 * 1000) (Config.clockMHz l.img.opclass)

/-- Whether REGDL comes before a limit expires (R238): the workgroup has been in the deadlock state for so long by then. -/
def State.regdlFirst (s : State) (w : Workgroup) (t : Thread) : Bool :=
  w.stuckAt.any (fun x => withLaunch s w.ctx false (fun l => decide (x + l.regdlNs < t.deadline)))

/-- WAIT_TIMEOUT (R67, R228): the limit has expired with the condition unmet. -/
def State.timeoutOne (ctx wg : Nat) (s : State) (tid : Nat) : State :=
  match s.wgOf ctx wg, s.threadOf ctx wg tid with
  | some w, some t =>
    if s.dieTime (coreDie w.core) < t.deadline then s
    else
      (match t.status with
       | .asleep k =>
         if s.regdlFirst w t then s
         else if s.expired w t then s.expireWait w t k
         else match s.waitMet w t k with
           | .met _ _ => s
           | .unmet => s.expireWait w t k
       | .held (.tile tiles) =>
         if !s.expired w t && tiles.all (s.tileWaitDone (coreCluster w.core)) then s else s.expireHold w t
       | .held _ | .ready | .parked | .exited => s)
  | _, _ => s

/-- Waits whose limits expire while time passes are tested as they stand (R67): those that are met wake. -/
def State.settleWaits (s : State) (ns : Nat) : State :=
  s.wgs.foldl (fun s w =>
    let due := fun (t : Thread) => decide (t.deadline < (s.die (coreDie w.core)).clock.time (s.now + ns)) && (match t.status with
      | .asleep _ | .held (.tile _) => true
      | .held _ | .ready | .parked | .exited => false)
    if w.resident then
      (w.threads.filter due).foldl (fun s t => State.releaseOne w.ctx w.wg (State.wakeOne w.ctx w.wg s t.tid) t.tid) s
    else s) s

/-! Dispatch. -/

/-- A range list without one index. -/
def takeIndex (n : Nat) : List (Nat × Nat) → List (Nat × Nat)
  | [] => []
  | (a, k) :: rs =>
    if decide (a ≤ n) && decide (n < a + k) then
      ((if a = n then [] else [(a, n - a)]) ++ (if n + 1 = a + k then [] else [(n + 1, a + k - (n + 1))])) ++ rs
    else (a, k) :: takeIndex n rs

/-- Whether a grid workgroup has yet to be dispatched. -/
def Launch.isPending (l : Launch) (n : Nat) : Bool := l.pending.any (fun r => decide (r.1 ≤ n) && decide (n < r.1 + r.2))

/-- Sub-group of a thread (R24). -/
def subOf : List (Nat × Nat) → Nat → Nat → Nat
  | [], _, k => k - 1
  | r :: rs, t, k => if t < r.1 then k else subOf rs (t - r.1) (k + 1)

/-- A thread at its start (R15, R16). -/
def Thread.fresh (tid sub pc alloc : Nat) (l : Launch) (scratch : Nat) (args : List Word) : Thread where
  tid := tid
  sub := sub
  pc := pc
  base := 0
  regs :=
    let f := (List.replicate 1 0 ++ [BitVec.ofNat 32 (Config.privateBase / 2 ^ 32), BitVec.ofNat 32 l.args, BitVec.ofNat 32 (l.args / 2 ^ 32),
      BitVec.ofNat 32 scratch, BitVec.ofNat 32 (scratch / 2 ^ 32), BitVec.ofNat 32 tid, 0]) ++ args
    padTo 0 alloc f
  rng := 0
  status := .parked
  stamp := 0
  runLen := 0
  results := []
  nextSlot := 0
  parkAct := .none
  deadline := 0
  waitSlot := 0
  holdPc := none
  heldBlocks := []
  clkw := 0
  clkwNext := none
  tws := 0
  txs := 0
  tx := { active := false, abortPc := 0, reads := [], writes := [], readLines := [], writeLines := [], lastTxb := none, committing := none }
  energyHi := 0
  edieHi := []
  tvec := 0
  epc := 0
  ecause := 0
  eop := 0
  eoph := 0
  spawned := []
  spawnSeq := 0
  redSeq := 0
  batchNo := 0
  openBatch := none
  batches := []
  staleNext := 0
  watches := []
  arrived := []
  seen := []
  parent := none

/-- What a workgroup to be dispatched is (R23, R24, R29). -/
structure Plan where
  wg : Nat
  generation : Nat
  energy : Nat
  pc : Nat
  /-- sub-group, allocation and arguments of each thread -/
  threads : List (Nat × Nat × List Word)
  /-- of a continuation, the workgroup that spawned each thread (R240) -/
  parents : List Nat
  /-- the clusters where it may start, and whether a later one of its stride must wait for it -/
  cluster : Option Nat
  deriving DecidableEq, Repr

/-- The plan of a grid workgroup. -/
def Launch.gridPlan (l : Launch) (wg : Nat) : Plan where
  wg := wg
  generation := 0
  energy := l.img.energy
  pc := l.img.entry
  threads := (rangeFrom 0 l.img.wgSize).map (fun t =>
    let k := subOf l.img.roles t 0
    (k, ((nth (0, 0) l.img.roles k).2), []))
  parents := []
  cluster := none

/-- The plan of a continuation workgroup (R28, R29). -/
def Launch.formedPlan (l : Launch) (f : Formed) : Plan :=
  let d := l.img.spawns.find? (fun e => e.target == f.target)
  { wg := f.wg, generation := f.generation, energy := (d.map (fun e => e.energy)).getD 0, pc := f.target,
    threads := f.records.map (fun r => (0, (d.map (fun e => e.alloc)).getD 16, r)), parents := f.parents, cluster := f.cluster }

/-- The plan of a workgroup that waits for dispatch. -/
def Launch.plan (l : Launch) (wg : Nat) : Option Plan :=
  if l.isPending wg then some (l.gridPlan wg) else (l.formed.find? (fun f => f.wg == wg)).map l.formedPlan

/-- Whether a workgroup may start on a core (R28, R31, R34): a reserved one; in `.det` its logical core, after the earlier
workgroups of that core; a continuation in its cluster. In a rank whose first workgroup is not 0, a continuation goes to the
logical core of its own %wg (DESIGN CHOICE, log 78: R339 speaks of grid workgroups only). -/
def State.mayStart (s : State) (l : Launch) (p : Plan) (core : Nat) : Bool :=
  if l.img.det then
    let n := 256 * (s.partDies l.firstDie).length
    let i := if l.isPending p.wg then p.wg - l.firstWg else p.wg
    s.logicalCore l.firstDie (i % n) == core &&
      !(l.pending.any (fun r => decide (r.1 < p.wg) && (rangeFrom r.1 (Nat.min r.2 (p.wg - r.1))).any (fun j => (j - l.firstWg) % n == i % n)))
        && !(l.formed.any (fun f => decide (f.wg < p.wg) && f.wg % n == i % n && !l.isPending p.wg))
  else l.reservedCores.contains core && (p.cluster.map (fun c => c == coreCluster core)).getD true

/-- The leaf controller that the global scheduler hands a workgroup to as it starts, as a mask: that of a continuation in `.det`
(R31, R335). -/
def Launch.handOver (l : Launch) (p : Plan) (core : Nat) : Nat :=
  if l.img.det && p.generation != 0 then 2 ^ coreCluster core else 0

/-- Places a planned workgroup on a core (R14 to R16, R26, R109); a continuation's loads see what its parents ordered before
their SPAWN (R240, R263). -/
def State.startWg (s : State) (l : Launch) (p : Plan) (core slot area run : Nat) : State :=
  let n := l.img.granules
  let ths := (p.threads.zip (rangeFrom 0 p.threads.length)).map (fun x =>
    { Thread.fresh x.2 x.1.1 p.pc x.1.2.1 l (scratchBaseOf core (run * 1024)) x.1.2.2 with parent := p.parents[x.2]? })
  let w : Workgroup :=
    { ctx := l.ctx, wg := p.wg, core := core, saved := .running, savedAt := 0, slot := slot, area := area, generation := p.generation,
      energy := p.energy, threads := ths, scratchOff := run * 1024, scratchLen := n * 1024, savedScratch := [], acs := 0, pools := [],
      claims := [], stuckAt := none, leaf := [], redQueue := [], savedLeases := [], savedSites := [] }
  let s1 := (s.fuseCluster l core).modCore core (fun c => c.handGranules l.ctx p.wg (rangeFrom run n))
  let s2 := { s1 with wgs := s1.wgs ++ [w] }.modLaunch l.ctx (fun l => { l with
    pending := takeIndex p.wg l.pending, formed := l.formed.filter (fun f => f.wg != p.wg) })
  let s3 := if p.generation = 0 then (if l.img.det then s2.edgeRefresh w (fun r => r.shared) else s2)
    else (s2.edgeRefresh w (fun _ => true)).message (l.handOver p core) false
  (laneOrder (rangeFrom 0 p.threads.length)).foldl (fun s t => s.makeReady l.ctx p.wg t) s3

/-- The context area that a workgroup to be dispatched takes (R344): a continuation the one that it has had since it was formed (R347),
a grid workgroup the first free one. -/
def State.areaFor (s : State) (l : Launch) (p : Plan) : Option Nat :=
  if p.generation = 0 then s.freeArea l else (l.formed.find? (fun f => f.wg == p.wg)).bind (fun f => f.area)

/-- WORKGROUP_DISPATCH (R26, R34, R335, R351): nothing of a launch that has stopped starts (R336). -/
def State.dispatch (s : State) (ctx wg core : Nat) : State :=
  match s.launch ctx with
  | none => s
  | some l =>
    match l.plan wg with
    | none => s
    | some p =>
      if l.stage != .running || l.stopped || !s.mayStart l p core || !(s.cluster (coreCluster core)).powered || !s.takesWork (coreDie core) l.supervisor
          || !s.maySend (l.handOver p core) then s
      else
        match s.freeSlot l core, s.areaFor l p, s.granuleRun core l.img.granules with
        | some slot, some area, some run =>
          let demand : Demand := (p.threads.zip (rangeFrom 0 p.threads.length)).map (fun x => (x.2 % 32, x.1.2.1))
          if s.admits core demand (fun _ => 0) l.img.granules (Config.energyWeight p.energy)
              && !s.handoverBlocked core (rangeFrom run l.img.granules) then
            s.startWg l p core slot area run
          else s
        | _, _, _ => s

/-! The end of a workgroup. -/

/-- Whether every thread of a workgroup has ended. -/
def Workgroup.over (w : Workgroup) : Bool := w.threads.all (fun t => t.status == .exited)

/-- Leases, requests and reports of a workgroup go with it (R194): a lease is released as by LREL. -/
def State.dropLeases (s : State) (ctx wg : Nat) : State :=
  let s1 := (s.leases.filter (fun l => l.ctx == ctx && l.wg == wg)).foldl State.releaseLease s
  { s1 with
    requests := s1.requests.filter (fun r => !(r.ctx == ctx && r.wg == wg)),
    evicted := s1.evicted.filter (fun l => !(l.ctx == ctx && l.wg == wg)) }

/-- A workgroup's private lines are invalidated without write-back (R102). -/
def State.dropPrivate (s : State) (w : Workgroup) : State :=
  let runs := s.privRuns w
  (s.l1Group w.core).foldl (fun s c =>
    if (s.coreOf c).l1.isEmpty then s
    else s.modCore c (fun c => { c with l1 := c.l1.filter (fun x => !x.inBlock runs w.ctx) })) s

/-- Whether a workgroup may retire (R23, R147, R174): all its accesses and commits have performed, and in `.det` it has passed the
token. -/
def State.mayRetire (s : State) (l : Launch) (w : Workgroup) : Bool :=
  w.over && !s.flight.any (fun a => a.ctx == w.ctx && a.wg == w.wg) && !w.threads.any (fun t => t.tx.committing.isSome) && (!l.img.det || l.stopped || decide (w.wg < l.token))

/-- WORKGROUP_END (R23): everything it held returns. The launch's end is that of the workgroup that retires last (R341), and a formed
one that waits for a context area takes the one that frees (R347). -/
def State.endWg (s : State) (ctx wg : Nat) : State :=
  match s.launch ctx, s.wgOf ctx wg with
  | some l, some w =>
    if !s.mayRetire l w then s
    else
      let s1 := ((s.dropPrivate w).dropLeases ctx wg).modCore w.core (fun c => (c.dropThreads ctx wg (fun _ => false)).freeGranules ctx wg)
      let s2 : State := { s1 with wgs := s1.wgs.filter (fun x => !(x.ctx == ctx && x.wg == wg)) }
      ((s2.modLaunch ctx (fun l => { l with retired := l.retired + 1, endAt := s.schedulerTime })).areasTaken ctx).unfuse ctx w.core
  | _, _ => s

/-! Continuations. -/

/-- Order of issuer indices (R31). -/
def recordLe (x y : SpawnRecord) : Bool :=
  decide (x.wg < y.wg) || (x.wg == y.wg && (decide (x.tid < y.tid) || (x.tid == y.tid && decide (x.sequence ≤ y.sequence))))

/-- Cuts records of one target into workgroups of 32 (R31). -/
def cutRecords (target generation : Nat) : Nat → Nat → List SpawnRecord → List Formed
  | 0, _, _ => []
  | k + 1, n, rs =>
    if rs.isEmpty then []
    else { wg := n, generation := generation, target := target, cluster := none, area := none, records := (rs.take 32).map (fun r => r.args),
           parents := (rs.take 32).map (fun r => r.wg) } :: cutRecords target generation k (n + 1) (rs.drop 32)

/-- The workgroups of a generation, target by target (R31). -/
def formTargets (records : List SpawnRecord) (generation : Nat) : List Nat → Nat → List Formed
  | [], _ => []
  | t :: ts, n =>
    let mine := records.filter (fun r => r.target == t)
    let fs := cutRecords t generation mine.length n mine
    fs ++ formTargets records generation ts (n + fs.length)

/-- DET_GENERATION_FORM (R31): every leaf controller of the launch sends its list over its command link (R335). -/
def State.formGeneration (s : State) (ctx : Nat) : State :=
  match s.launch ctx with
  | none => s
  | some l =>
    if l.img.det && !l.kept.isEmpty && l.pending.isEmpty && l.formed.isEmpty && !s.wgs.any (fun w => w.ctx == ctx)
        && s.mayReport l.quote.clusterMask then
      let recs := sortBy recordLe l.kept
      let targets := sortBy (fun x y => decide (x ≤ y)) (dedup (recs.map (fun r => r.target)))
      let fs := formTargets recs (l.generation + 1) targets l.nextCont
      ((s.message l.quote.clusterMask true).modLaunch ctx (fun l =>
        { l with formed := fs, kept := [], generation := l.generation + 1, nextCont := l.nextCont + fs.length })).areasTaken ctx
    else s

/-- BIN_CLOSE_TIMEOUT (R28): 2 µs have passed since the bin's first record. -/
def State.binTimeout (s : State) (cluster bin : Nat) : State :=
  match (s.cluster cluster).bins[bin]? with
  | none => s
  | some b => if b.since + 2000 ≤ s.now then s.closeBin cluster b else s

/-! The commit token. -/

/-- Whether a workgroup passes the token: by TOKP, or at its retirement (R174, R242); a saved one keeps it until it has resumed
(R40). -/
def State.passes (_s : State) (l : Launch) (w : Workgroup) : Bool := l.img.det && l.token == w.wg && w.resident && (l.passing || w.over)

/-- Order of deterministic updates (R176). -/
def updateLe (x y : DetUpdate) : Bool := decide (x.tid < y.tid) || (x.tid == y.tid && decide (x.sequence ≤ y.sequence))

/-- Applies deterministic updates at their homes, in order (R173, R177). -/
def applyUpdates : List DetUpdate → State → State
  | [], s => s
  | u :: us, s => applyUpdates us (s.writeHome u.key (leBytes 4 (amoValue u.op (leNat (s.readHome u.key 4)) u.value 0)))

/-- A block known bad that an update of a list would read at its home (R365): the update's address, and the block. -/
def State.badUpdate (s : State) (us : List DetUpdate) : Option (Nat × Nat × Word) :=
  us.findSome? (fun u => (s.badBlock u.key 4).map (fun b => (u.addr, b)))

/-- DET_END_MARKER (R177): the units apply a workgroup's updates, buffered and refused, in ascending issuer index. One that would read a
block known bad is not applied: MCHK ends the workgroup (R366, log 105). -/
def State.endMarker (s : State) (ctx wg : Nat) : State :=
  match s.launch ctx, s.wgOf ctx wg with
  | some l, some w =>
    let travelling := s.flight.any (fun a => a.ctx == ctx && a.wg == wg && (match a.op with | .detRed _ _ _ => true | _ => false))
    if !s.passes l w || travelling then s
    else
      let mine := fun (u : DetUpdate) => u.ctx == ctx && u.wg == wg
      let us := sortBy updateLe (s.detUnits.filter mine ++ w.redQueue)
      let sound := us.filter (fun u => (s.badBlock u.key 4).isNone)
      let s0 := match s.badUpdate us with
        | none => s
        | some x => if w.threads.any Thread.live then s.consumeBad ctx wg x.1 x.2 else s.reportBad x.1 1 x.2
      let s1 := applyUpdates sound s0
      { s1 with detUnits := s1.detUnits.filter (fun u => !mine u) }.modWg ctx wg (fun w => { w with redQueue := [] })
  | _, _ => s

/-- Whether an entry of a workgroup writes memory. -/
def EntryKind.writesMemory : EntryKind → Bool
  | .copy bs => bs.any (fun b => b.toMemory)
  | .gather _ | .scatter _ | .coll _ _ _ _ _ => true
  | .mxma _ _ _ | .accz _ _ | .accout _ _ _ | .vdec _ _ _ _ _ _ _ _ _ _ _ _ | .fence _ => false

/-- The workgroup that a launch's token comes to sees what the gated accesses before it have written (R263). -/
def State.tokenEdge (s : State) (ctx : Nat) : State :=
  match (s.launch ctx).bind (fun l => s.wgOf ctx l.token) with
  | some w => if w.resident then s.edgeRefresh w (fun r => r.shared) else s
  | none => s

/-- TOKEN_PASS (R174, R177, R242): gated writes have performed and the flush is done. -/
def State.passToken (s : State) (ctx : Nat) : State :=
  match s.launch ctx with
  | none => s
  | some l =>
    match s.wgOf ctx l.token with
    | none => s
    | some w =>
      let gatedLeft := s.flight.any (fun a => a.ctx == ctx && a.wg == w.wg &&
        (match a.op with | .detRed _ _ _ => true | .stamped _ _ => l.gated a.addr a.size | _ => a.op.writes && l.gated a.addr a.size))
      let enginesLeft := s.sites.any (fun x => x.queue.any (fun e => e.ctx == ctx && e.wg == w.wg && e.kind.writesMemory))
      let flushLeft := !w.redQueue.isEmpty || s.detUnits.any (fun u => u.ctx == ctx && u.wg == w.wg)
      if !s.passes l w || gatedLeft || enginesLeft || flushLeft then s
      else (s.modLaunch ctx (fun l => { l with token := if w.wg + 1 = l.firstWg + l.count then l.grid else w.wg + 1, passing := false })).tokenEdge ctx

/-! The deadlock detector. -/

/-- Whether a thread is stuck (R238); a wait whose limit has expired is none any more (R67). -/
def State.stuck (s : State) (l : Launch) (w : Workgroup) (t : Thread) : Bool :=
  let marked := l.img.marks.contains (t.pc - 4)
  !s.expired w t && match t.status with
  | .asleep (.rclaim n) =>
    w.claims.contains t.tid && (w.claims.find? (fun c => c % 32 == t.lane) != some t.tid || decide (w.poolOf t.lane < n))
  | .asleep (.barrier level id) =>
    let arriving := s.flight.any (fun a => a.ctx == w.ctx && a.wg == w.wg && (match a.op with | .arrive _ _ _ _ _ => true | _ => false))
    if level = 0 then
      let b := s.barrier w.ctx w.wg w.core 0 id
      !arriving && !s.barrierDone w.ctx w.wg t 0 id && decide (b.arrivals < b.count)
    else !s.barrierDone w.ctx w.wg t level id && !marked
  | .asleep (.bwait n) => decide (n < t.unfinished) && !marked
  | .asleep .tokw => !l.holdsToken w.wg && !l.tokenPassed w.wg && !marked
  | .asleep _ | .ready | .parked | .held _ | .exited => false

/-- The deadlock state of R238: every live thread is stuck, one of them in RCLAIM. Pre-emption suspends the detector. -/
def State.deadlocked (s : State) (l : Launch) (w : Workgroup) : Bool :=
  let live := w.threads.filter Thread.live
  w.resident && live.any (fun t => t.claim.isSome) && live.all (s.stuck l w)

/-- REGDL_DETECT (R238): the record names the claimant of lowest %tid, whose run's earlier instructions have performed (R61); the
trap ends the workgroup. -/
def State.detect (s : State) (ctx wg : Nat) : State :=
  match s.launch ctx, s.wgOf ctx wg with
  | some l, some w =>
    (match (w.threads.filter Thread.live).find? (fun t => t.claim.isSome) with
     | none => s
     | some t =>
       if s.deadlocked l w then (s.drainRun ctx wg t.tid).endByRecord ctx wg t.tid TrapCode.regdl.num (t.claim.getD 0) (t.pc - 4) else s)
  | _, _ => s

/-- When the state of R238 last began in a workgroup, on its die's clock. -/
def State.stuckSince (s : State) (w : Workgroup) : Option Nat :=
  if w.claims.isEmpty then none
  else if withLaunch s w.ctx false (fun l => s.deadlocked l w) then some (w.stuckAt.getD (s.dieTime (coreDie w.core)))
  else none

/-- The detectors note when that state begins and ends (R238). -/
def State.noteStuck (s : State) : State :=
  if s.wgs.all (fun w => w.claims.isEmpty && w.stuckAt.isNone) then s
  else { s with wgs := s.wgs.map (fun w => { w with stuckAt := s.stuckSince w }) }

/-- REGDL comes as time passes (R238): in a workgroup whose deadlock state outlasts its cycles, unless a limit expires before. -/
def State.settleStuck (s : State) (ns : Nat) : State :=
  s.wgs.foldl (fun s w => match w.stuckAt with
    | none => s
    | some x => withLaunch s w.ctx s (fun l =>
        if decide (x + l.regdlNs < (s.die (coreDie w.core)).clock.time (s.now + ns)) &&
            w.threads.all (fun t => !t.live || decide (x + l.regdlNs ≤ t.deadline)) then s.detect w.ctx w.wg
        else s)) s

/-! Pre-emption, resumption and errors. -/

/-- The causes that pre-empt (R37, Table 4 of R345), with the party at fault. -/
def preemptParty (cause : Nat) : Option Nat :=
  if cause = 1 ∨ cause = 3 ∨ cause = 4 then some 1 else if cause = 16 ∨ cause = 17 then some 2 else none

/-- PREEMPTION (R37, R38): recorded as a breach, where the workgroup has not ended by MCHK instead (R366). -/
def State.preempt (s : State) (ctx wg cause : Nat) : State :=
  match preemptParty cause with
  | none => s
  | some party =>
    if !s.runs ctx wg then s
    else
      let die := coreDie (((s.wgOf ctx wg).map (fun w => w.core)).getD 0)
      let s1 := s.saveWg ctx wg (if party = 1 then .device else .operator)
      if s1.runs ctx wg then s1 else s1.breach ctx party cause 0xFF die false

/-- Pre-emption of several workgroups at once (R38): a breach for each launch that loses one, which names its first one's die (R343,
R359). -/
def State.preemptAll (s : State) (ws : List Workgroup) (cause : Nat) : State :=
  match preemptParty cause with
  | none => s
  | some party =>
    let s1 := ws.foldl (fun s w => s.saveWg w.ctx w.wg (if party = 1 then .device else .operator)) s
    let gone := ws.filter (fun w => !s1.runs w.ctx w.wg)
    (dedup (gone.map (fun w => w.ctx))).foldl (fun s ctx =>
      s.breach ctx party cause 0xFF (((gone.find? (fun w => w.ctx == ctx)).map (fun w => coreDie w.core)).getD 0xFF) false) s1

/-- RESUMPTION (R41) by the leaf controllers, of a workgroup that the device or the operator saved, on the partition that holds the
die on which it was saved (R354). -/
def State.resumption (s : State) (ctx wg core : Nat) : State :=
  match s.wgOf ctx wg, s.launch ctx with
  | some w, some l =>
    if (w.saved == .device || w.saved == .operator) && s.takesWork (coreDie core) l.supervisor
        && (s.partDies (coreDie w.core)).contains (coreDie core) && l.reservedCores.contains core then s.resumeWg ctx wg core
    else s
  | _, _ => s

/-- A word that is no instruction reaches issue (R46, R54): ILLEGAL with its operand. -/
def State.illegalWord (s : State) (operand : Nat) : State :=
  match s.group with
  | none => s
  | some g => { s with group := none }.trap g { code := .illegal, operand := operand } (nth 0 g.tids 0)

/-- The pending read of %energy of a thread performs (R247). -/
def State.readEnergy (s : State) (ctx wg tid : Nat) : State :=
  match s.flight.find? (fun a => a.ctx == ctx && a.wg == wg && a.tid == tid && (match a.op with | .energy _ _ => true | _ => false)) with
  | none => s
  | some a => match s.perform a with
    | .done s1 => s1
    | .wait | .breach _ => s

/-- RUN_PARK_COMPLETE (R58, R60): members in ascending lane. -/
def execRunParkComplete (ctx wg : Nat) (tids : List Nat) (s : State) : Result1 :=
  .next (if s.runs ctx wg then (laneOrder tids).foldl (State.parkOne ctx wg) s else s)

/-- LOCALITY_WINDOW_END (R22). -/
def execLocalityWindowEnd (core : Nat) (s : State) : Result1 :=
  .next (if (s.cluster (coreCluster core)).powered then
      s.modCore core (fun c => { c with
        victimHits := 0,
        loadLimit := if 64 < c.victimHits then Nat.max 4 (c.loadLimit / 2)
          else if c.victimHits ≤ 32 then Nat.min 32 (c.loadLimit * 2) else c.loadLimit })
    else s)

/-- WORKGROUP_DISPATCH (R26, R34). -/
def execWorkgroupDispatch (ctx wg core : Nat) (s : State) : Result1 := .next (s.dispatch ctx wg core)

/-- WORKGROUP_END (R23). -/
def execWorkgroupEnd (ctx wg : Nat) (s : State) : Result1 := .next (s.endWg ctx wg)

/-- BIN_CLOSE_TIMEOUT (R28). -/
def execBinCloseTimeout (cluster bin : Nat) (s : State) : Result1 := .next (s.binTimeout cluster bin)

/-- DET_GENERATION_FORM (R31). -/
def execDetGenerationForm (ctx : Nat) (s : State) : Result1 := .next (s.formGeneration ctx)

/-- PREEMPTION (R38). -/
def execPreemption (ctx wg cause : Nat) (s : State) : Result1 := .next (s.preempt ctx wg cause)

/-- RESUMPTION (R41). -/
def execResumption (ctx wg core : Nat) (s : State) : Result1 := .next (s.resumption ctx wg core)

/-- WAIT_WAKE (R66). -/
def execWaitWake (ctx wg : Nat) (tids : List Nat) (s : State) : Result1 :=
  .next (if s.runs ctx wg then (laneOrder tids).foldl (State.wakeOne ctx wg) s else s)

/-- WAIT_TIMEOUT (R67). -/
def execWaitTimeout (ctx wg tid : Nat) (s : State) : Result1 := .next (if s.runs ctx wg then State.timeoutOne ctx wg s tid else s)

/-- BARRIER_RELEASE (R162). -/
def execBarrierRelease (ctx wg : Nat) (tids : List Nat) (s : State) : Result1 :=
  .next (if s.runs ctx wg then (laneOrder tids).foldl (State.releaseOne ctx wg) s else s)

/-- DET_END_MARKER (R177). -/
def execDetEndMarker (ctx wg : Nat) (s : State) : Result1 := .next (s.endMarker ctx wg)

/-- TOKEN_PASS (R174). -/
def execTokenPass (ctx : Nat) (s : State) : Result1 := .next (s.passToken ctx)

/-- TX_HOME_VALIDATION (R181). -/
def execTxHomeValidation (ctx wg tid : Nat) (s : State) : Result1 := .next (s.txValidate ctx wg tid)

/-- REGDL_DETECT (R238). -/
def execRegdlDetect (ctx wg : Nat) (s : State) : Result1 := .next (s.detect ctx wg)

/-- The die of the first workgroup of a list. -/
def State.dieOfFirst (s : State) (touched : List (Nat × Nat)) : Option Nat :=
  touched.findSome? (fun x => (s.wgOf x.1 x.2).map (fun w => coreDie w.core))

/-- MCHK (R256): one error, which ends each workgroup that it touches and is counted once, on the die of the first of them that is
there (R360, R380; DESIGN CHOICE, log 110: the manual does not say which die an error stands on that touches several). -/
def execMchk (touched : List (Nat × Nat)) (s : State) : Result1 :=
  .next (match s.dieOfFirst touched with
    | none => s
    | some d => (touched.foldl State.machineCheck s).modDie d Die.countError)

/-- ILLEGAL_WORD_ISSUE (R54). -/
def execIllegalWordIssue (operand : Word) (s : State) : Result1 := .next (s.illegalWord operand.toNat)

/-- ENERGY_READ (R247). -/
def execEnergyRead (ctx wg tid : Nat) (s : State) : Result1 := .next (s.readEnergy ctx wg tid)

end Sys2Proof.Machine
end

