-- ==== Sys2Proof/Machine/EngineEvents.lean ====
section
/-! DEFINITION. Steps of engines, tiles and the lease arbiter: entries (R205, R206, R209, R219), tiles (R114), grants
(R197), power of sites (R193, R201), contributions (R211) and failures (R345). -/

namespace Sys2Proof.Machine

/-- TILE_READER_FINISH (R114): the reader count falls, and a draining tile empties at zero. -/
def Tile.readerDone (t : Tile) : Tile :=
  if t.finishing = 0 then t
  else
    let u := { t with finishing := t.finishing - 1, readers := t.readers - 1 }
    if u.state == .draining && u.readers == 0 then { u with state := .empty } else u

/-- SITE_WAKE_COMPLETE (R193): the wake latency has passed. -/
def Site.wakeDone (now : Nat) (x : Site) : Site := match x.power with
  | .waking due => if due ≤ now then { x with power := .awake } else x
  | .dark | .awake | .lingering _ => x

/-- LINGER_EXPIRY (R201): 50 µs have passed. -/
def Site.lingerDone (now : Nat) (x : Site) : Site := match x.power with
  | .lingering t => if t ≤ now then x.goDark else x
  | .dark | .awake | .waking _ => x

/-- COLL_CONTRIBUTION (R211): another rank's contribution arrives for a tag, one for each rank; or, of no elements, its word
that its entry will not be performed, whatever it contributed before. A rank that runs on this module sends none: its entry is
there (R339). -/
def State.contribute (s : State) (ctx tag rank op n : Nat) (data : List Word) : State :=
  match s.launch ctx with
  | none => s
  | some l =>
    let same := fun (c : Contribution) => c.ctx == ctx && c.tag == tag && c.rank == rank
    let near := (s.siblings l).any (fun m => m.rank == rank)
    if rank = l.rank || near || decide (l.nrank ≤ rank) || (n != 0 && s.contributions.any same) then s
    else
      { s with
        contributions := s.contributions.filter (fun c => !same c) ++ [{ ctx := ctx, tag := tag, rank := rank, op := op, n := n, data := data }] }

/-- A failed site belongs to no booking, and is neither booked nor granted (R345, R367) until a self-test has retired it: the
repair state changes at a self-test alone (R381). -/
def State.siteFails (s : State) (die site : Nat) : State :=
  { s.modDie die (fun d => { d with failedSites := if d.failedSites.contains site then d.failedSites else d.failedSites ++ [site] }) with
    launches := s.launches.map (fun l => { l with booked := l.booked.filter (fun b => !(b.die == die && b.sites.contains site)) }) }

/-- SITE_FAILURE (R345, Table 4): the breach is the device's, and so is that of a reserved lease, which ends as by an eviction
(R44). -/
def State.failSite (s : State) (die site : Nat) : State :=
  let s1 := s.siteFails die site
  match s.leases.find? (fun l => l.die == die && l.sites.contains site) with
  | none => s1
  | some l => ((s1.evict l).breach l.ctx 1 2 site die false).evictedReserved l

/-- TILE_FILL_COMPLETE (R114). -/
def execTileFillComplete (cluster tile : Nat) (s : State) : Result1 := .next (s.modTile cluster tile Tile.ready)

/-- TILE_READER_FINISH (R114). -/
def execTileReaderFinish (cluster tile : Nat) (s : State) : Result1 := .next (s.modTile cluster tile Tile.readerDone)

/-- ENTRY_START (R205). -/
def execEntryStart (die site : Nat) (s : State) : Result1 := .next (s.entryStart die site)

/-- MACRO_STEP (R219). -/
def execMacroStep (die site : Nat) (s : State) : Result1 := .next (s.macroStep die site)

/-- ENTRY_COMPLETE (R205). -/
def execEntryComplete (die site : Nat) (s : State) : Result1 := .next (s.entryComplete die site)

/-- COLL_CONTRIBUTION (R211). -/
def execCollContribution (ctx tag rank op n : Nat) (data : List Word) (s : State) : Result1 := .next (s.contribute ctx tag rank op n data)

/-- LEASE_GRANT (R197). -/
def execLeaseGrant (die : Nat) (s : State) : Result1 := .next (s.grantHead die)

/-- SITE_WAKE_COMPLETE (R193). -/
def execSiteWakeComplete (die site : Nat) (s : State) : Result1 := .next (s.modSite die site (Site.wakeDone s.now))

/-- LINGER_EXPIRY (R201). -/
def execLingerExpiry (die site : Nat) (s : State) : Result1 := .next (s.modSite die site (Site.lingerDone s.now))

/-- SITE_FAILURE (R345). -/
def execSiteFailure (die site : Nat) (s : State) : Result1 := .next (s.failSite die site)

end Sys2Proof.Machine
end

