-- ==== Sys2Proof/Machine/Float.lean ====
section
/-! DEFINITION. Group 0x2: FP32 arithmetic (R132-R134). -/

namespace Sys2Proof.Machine

/-- The word of a bit pattern. -/
def fw (n : Nat) : Word := BitVec.ofNat 32 n

/-- FADD (R132). -/
def execFadd (sw : Bool) (d : Reg) (a : Reg) (b : Reg) (s : State) : Result1 :=
  .next (opRRR (.fadd sw d a b) d a b (fun x y _ => fw (f32.add x.toNat y.toNat)) s)

/-- FSUB (R132). -/
def execFsub (sw : Bool) (d : Reg) (a : Reg) (b : Reg) (s : State) : Result1 :=
  .next (opRRR (.fsub sw d a b) d a b (fun x y _ => fw (f32.sub x.toNat y.toNat)) s)

/-- FMUL (R132). -/
def execFmul (sw : Bool) (d : Reg) (a : Reg) (b : Reg) (s : State) : Result1 :=
  .next (opRRR (.fmul sw d a b) d a b (fun x y _ => fw (f32.mul x.toNat y.toNat)) s)

/-- FFMA (R132): one rounding. -/
def execFfma (sw : Bool) (d : Reg) (a : Reg) (b : Reg) (s : State) : Result1 :=
  .next (opRRR (.ffma sw d a b) d a b (fun x y z => fw (f32.fma x.toNat y.toNat z.toNat)) s)

/-- FMIN (R132, R133). -/
def execFmin (sw : Bool) (d : Reg) (a : Reg) (b : Reg) (s : State) : Result1 :=
  .next (opRRR (.fmin sw d a b) d a b (fun x y _ => fw (f32.minNum x.toNat y.toNat)) s)

/-- FMAX (R132, R133). -/
def execFmax (sw : Bool) (d : Reg) (a : Reg) (b : Reg) (s : State) : Result1 :=
  .next (opRRR (.fmax sw d a b) d a b (fun x y _ => fw (f32.maxNum x.toNat y.toNat)) s)

/-- FDIV (R132): variable latency. -/
def execFdiv (sw : Bool) (d : Reg) (a : Reg) (b : Reg) (s : State) : Result1 :=
  .next (longOp (.fdiv sw d a b) d a b (fun x y => fw (f32Div x.toNat y.toNat)) s)

/-- FSEQ (R132, R133). -/
def execFseq (sw : Bool) (d : Reg) (a : Reg) (b : Reg) (s : State) : Result1 :=
  .next (opRRR (.fseq sw d a b) d a b (fun x y _ => flagWord ((f32.decode x.toNat).eq (f32.decode y.toNat))) s)

/-- FSLT (R132, R133). -/
def execFslt (sw : Bool) (d : Reg) (a : Reg) (b : Reg) (s : State) : Result1 :=
  .next (opRRR (.fslt sw d a b) d a b (fun x y _ => flagWord ((f32.decode x.toNat).lt (f32.decode y.toNat))) s)

/-- FSLE (R132, R133). -/
def execFsle (sw : Bool) (d : Reg) (a : Reg) (b : Reg) (s : State) : Result1 :=
  .next (opRRR (.fsle sw d a b) d a b (fun x y _ => flagWord ((f32.decode x.toNat).lt (f32.decode y.toNat) || (f32.decode x.toNat).eq (f32.decode y.toNat))) s)

/-- FSUN (R132). -/
def execFsun (sw : Bool) (d : Reg) (a : Reg) (b : Reg) (s : State) : Result1 :=
  .next (opRRR (.fsun sw d a b) d a b (fun x y _ => flagWord ((f32.decode x.toNat).isNan || (f32.decode y.toNat).isNan)) s)

/-- FCPYS (R132): on the bit patterns. -/
def execFcpys (sw : Bool) (d : Reg) (a : Reg) (b : Reg) (s : State) : Result1 :=
  .next (opRRR (.fcpys sw d a b) d a b (fun x y _ => (x &&& 0x7FFFFFFF) ||| (y &&& 0x80000000)) s)

/-- FSQRT (R134): variable latency. -/
def execFsqrt (sw : Bool) (d : Reg) (a : Reg) (s : State) : Result1 :=
  .next (longOp1 (.fsqrt sw d a) d a (fun x => fw (f32Sqrt x.toNat)) s)

/-- FRCP (R134): variable latency. -/
def execFrcp (sw : Bool) (d : Reg) (a : Reg) (s : State) : Result1 :=
  .next (longOp1 (.frcp sw d a) d a (fun x => fw (f32Rcp x.toNat)) s)

/-- FRSQ (R134): variable latency. -/
def execFrsq (sw : Bool) (d : Reg) (a : Reg) (s : State) : Result1 :=
  .next (longOp1 (.frsq sw d a) d a (fun x => fw (f32Rsq x.toNat)) s)

/-- FEXP2 (R134): variable latency. -/
def execFexp2 (sw : Bool) (d : Reg) (a : Reg) (s : State) : Result1 :=
  .next (longOp1 (.fexp2 sw d a) d a (fun x => fw (f32Exp2 x.toNat)) s)

/-- FLOG2 (R134): variable latency. -/
def execFlog2 (sw : Bool) (d : Reg) (a : Reg) (s : State) : Result1 :=
  .next (longOp1 (.flog2 sw d a) d a (fun x => fw (f32Log2 x.toNat)) s)

/-- FABS (R134): bit 31 := 0. -/
def execFabs (sw : Bool) (d : Reg) (a : Reg) (s : State) : Result1 :=
  .next (opRI (.fabs sw d a) d a (fun x => x &&& 0x7FFFFFFF) s)

/-- FNEG (R134): bit 31 inverted. -/
def execFneg (sw : Bool) (d : Reg) (a : Reg) (s : State) : Result1 :=
  .next (opRI (.fneg sw d a) d a (fun x => x ^^^ 0x80000000) s)

end Sys2Proof.Machine
end

