-- ==== Sys2Proof/Machine/Digest.lean ====
section
/-! DEFINITION. SHA-384, the digest that the manual names (R337, R363), by its published standard (FIPS 180-4). -/

namespace Sys2Proof.Machine

/-- A word of SHA-384. -/
abbrev Word64 := BitVec 64

/-- The round constants: fractions of the cube roots of the first 80 primes. -/
def shaRoundsA : List Word64 :=
  [0x428A2F98D728AE22, 0x7137449123EF65CD, 0xB5C0FBCFEC4D3B2F, 0xE9B5DBA58189DBBC, 0x3956C25BF348B538,
   0x59F111F1B605D019, 0x923F82A4AF194F9B, 0xAB1C5ED5DA6D8118, 0xD807AA98A3030242, 0x12835B0145706FBE,
   0x243185BE4EE4B28C, 0x550C7DC3D5FFB4E2, 0x72BE5D74F27B896F, 0x80DEB1FE3B1696B1, 0x9BDC06A725C71235,
   0xC19BF174CF692694, 0xE49B69C19EF14AD2, 0xEFBE4786384F25E3, 0x0FC19DC68B8CD5B5, 0x240CA1CC77AC9C65]
def shaRoundsB : List Word64 :=
  [0x2DE92C6F592B0275, 0x4A7484AA6EA6E483, 0x5CB0A9DCBD41FBD4, 0x76F988DA831153B5, 0x983E5152EE66DFAB,
   0xA831C66D2DB43210, 0xB00327C898FB213F, 0xBF597FC7BEEF0EE4, 0xC6E00BF33DA88FC2, 0xD5A79147930AA725,
   0x06CA6351E003826F, 0x142929670A0E6E70, 0x27B70A8546D22FFC, 0x2E1B21385C26C926, 0x4D2C6DFC5AC42AED,
   0x53380D139D95B3DF, 0x650A73548BAF63DE, 0x766A0ABB3C77B2A8, 0x81C2C92E47EDAEE6, 0x92722C851482353B]
def shaRoundsC : List Word64 :=
  [0xA2BFE8A14CF10364, 0xA81A664BBC423001, 0xC24B8B70D0F89791, 0xC76C51A30654BE30, 0xD192E819D6EF5218,
   0xD69906245565A910, 0xF40E35855771202A, 0x106AA07032BBD1B8, 0x19A4C116B8D2D0C8, 0x1E376C085141AB53,
   0x2748774CDF8EEB99, 0x34B0BCB5E19B48A8, 0x391C0CB3C5C95A63, 0x4ED8AA4AE3418ACB, 0x5B9CCA4F7763E373,
   0x682E6FF3D6B2B8A3, 0x748F82EE5DEFB2FC, 0x78A5636F43172F60, 0x84C87814A1F0AB72, 0x8CC702081A6439EC]
def shaRoundsD : List Word64 :=
  [0x90BEFFFA23631E28, 0xA4506CEBDE82BDE9, 0xBEF9A3F7B2C67915, 0xC67178F2E372532B, 0xCA273ECEEA26619C,
   0xD186B8C721C0C207, 0xEADA7DD6CDE0EB1E, 0xF57D4F7FEE6ED178, 0x06F067AA72176FBA, 0x0A637DC5A2C898A6,
   0x113F9804BEF90DAE, 0x1B710B35131C471B, 0x28DB77F523047D84, 0x32CAAB7B40C72493, 0x3C9EBE0A15C9BEBC,
   0x431D67C49C100D4C, 0x4CC5D4BECB3E42B6, 0x597F299CFC657E2A, 0x5FCB6FAB3AD6FAEC, 0x6C44198C4A475817]

/-- The chaining value that SHA-384 starts from: fractions of the square roots of the ninth to sixteenth primes. -/
def shaStart : List Word64 :=
  [0xCBBB9D5DC1059ED8, 0x629A292A367CD507, 0x9159015A3070DD17, 0x152FECD8F70E5939,
   0x67332667FFC00B31, 0x8EB44A8768581511, 0xDB0C2E0D64F98FA7, 0x47B5481DBEFA4FA4]

/-- The message with its padding: a 1 bit, zeros, and the length in bits as 128 bits. -/
def shaPad (m : List Byte) : List Byte :=
  m ++ 0x80 :: List.replicate ((239 - m.length % 128) % 128) 0 ++ (leBytes 16 (8 * m.length)).reverse

/-- Big-endian words of bytes. -/
def shaWords : List Byte → List Word64
  | b0 :: b1 :: b2 :: b3 :: b4 :: b5 :: b6 :: b7 :: bs => BitVec.ofNat 64 (leNat [b7, b6, b5, b4, b3, b2, b1, b0]) :: shaWords bs
  | _ => []

/-- The message schedule of a block: `k` more words after the last sixteen, latest first. -/
def shaExtend : Nat → List Word64 → List Word64
  | 0, w => w
  | k + 1, w =>
    let a := nth 0 w 14
    let b := nth 0 w 1
    let s0 := a.rotateRight 1 ^^^ a.rotateRight 8 ^^^ a >>> 7
    let s1 := b.rotateRight 19 ^^^ b.rotateRight 61 ^^^ b >>> 6
    shaExtend k ((s1 + nth 0 w 6 + s0 + nth 0 w 15) :: w)

/-- The 80 rounds of a block. -/
def shaRounds : List (Word64 × Word64) → List Word64 → List Word64
  | [], v => v
  | (k, w) :: r, [a, b, c, d, e, f, g, h] =>
    let s1 := e.rotateRight 14 ^^^ e.rotateRight 18 ^^^ e.rotateRight 41
    let s0 := a.rotateRight 28 ^^^ a.rotateRight 34 ^^^ a.rotateRight 39
    let t1 := h + s1 + (e &&& f ^^^ ~~~e &&& g) + k + w
    let t2 := s0 + (a &&& b ^^^ a &&& c ^^^ b &&& c)
    shaRounds r [t1 + t2, a, b, c, d + t1, e, f, g]
  | _ :: _, v => v

/-- One block. -/
def shaBlock (v block : List Word64) : List Word64 :=
  let w := (shaExtend 64 block.reverse).reverse
  (v.zip (shaRounds ((shaRoundsA ++ shaRoundsB ++ shaRoundsC ++ shaRoundsD).zip w) v)).map (fun x => x.1 + x.2)

/-- The blocks of a message, at most `k` of them. -/
def shaBlocks : Nat → List Word64 → List Word64 → List Word64
  | 0, _, v => v
  | k + 1, w, v => if w.isEmpty then v else shaBlocks k (w.drop 16) (shaBlock v (w.take 16))

/-- The 48 bytes of the SHA-384 digest of some bytes. -/
def sha384 (m : List Byte) : List Nat :=
  let w := shaWords (shaPad m)
  ((shaBlocks (w.length / 16 + 1) w shaStart).take 6).flatMap (fun x => ((leBytes 8 x.toNat).reverse).map (fun b => b.toNat))

/-- The number that some bytes are, most significant byte first. -/
def beNat (bs : List Nat) : Nat := bs.foldl (fun n b => 256 * n + b) 0

end Sys2Proof.Machine
end

