-- ==== Sys2Proof/Machine/MemEvents.lean ====
section
/-! DEFINITION. Steps of the memory system: accesses perform at their sites (R150, R152, R168, R173, R176, R186, R162, R28,
R192), waterlines (R187, R273), registers of other dies (R244, R246), clocks and links (R190, R273), polder migration
(R123), PCIe (R276, R366) and check values (R365, R366). A step whose condition does not hold leaves the machine as it
is. -/

namespace Sys2Proof.Machine

/-! Accesses. -/

/-- POLDER_BREACH (R123) on the thread that made an access: its trap is the kernel's, but where the device or the operator
lost the page. -/
def State.polderTrap (s : State) (a : Access) : State :=
  let s0 := s.drop a
  match s0.threadOf a.ctx a.wg a.tid with
  | none => s0
  | some t =>
    if t.live then
      let lost := s0.pageLost a.ctx a.addr
      let old := withLaunch s0 a.ctx 3 (fun l => l.outcome)
      let s1 := s0.modCore a.core (fun c => c.dropThreads a.ctx a.wg (fun x => x != a.tid))
      let s2 := s1.trap { core := a.core, ctx := a.ctx, wg := a.wg, pc := a.pc, tids := [a.tid] }
        { code := .polderBreach, operand := a.addr } a.tid
      if lost then s2.modLaunch a.ctx (fun l => { l with outcome := old }) else s2
    else s0

/-- An access of a kind performs, if it is there and may; one that would consume a block known bad raises MCHK instead (R366). -/
def State.performId (s : State) (id : Nat) (kind : AccOp → Bool) : State :=
  match s.flight.find? (fun a => a.id == id && kind a.op) with
  | none => s
  | some a => match s.perform a with
    | .done s1 => (match s.badRead a with
      | none => s1
      | some b => (s.drop a).consumeBad a.ctx a.wg b.1 b.2)
    | .wait => s
    | .breach s1 => s1.polderTrap a

/-- Loads (R150, R165, R189, R230). -/
def AccOp.isLoad : AccOp → Bool
  | .load _ _ | .mon | .asOf _ | .tileLoad _ _ _ => true
  | .store _ | .through _ _ | .atomic _ _ _ | .red _ _ | .detRed _ _ _ | .stamped _ _ | .release | .tileStore _ _ _ _ | .discard _
  | .move _ _ _ | .regRead _ | .regWrite _ _ | .energy _ _ | .arrive _ _ _ _ _ | .record _ _ _ => false

/-- Stores, and what reaches a home like one (R152, R159, R170, R191, R230). -/
def AccOp.isStore : AccOp → Bool
  | .store _ | .through _ _ | .release | .tileStore _ _ _ _ | .discard _ => true
  | .load _ _ | .mon | .asOf _ | .tileLoad _ _ _ | .atomic _ _ _ | .red _ _ | .detRed _ _ _ | .stamped _ _
  | .move _ _ _ | .regRead _ | .regWrite _ _ | .energy _ _ | .arrive _ _ _ _ _ | .record _ _ _ => false

/-- Whether an access is a write of a per-die register whose low index digit and value satisfy a test (R246). -/
def AccOp.isRegWrite (p : Nat → Nat → Bool) : AccOp → Bool
  | .regWrite i v => p (i % 16) v.toNat
  | .load _ _ | .mon | .asOf _ | .tileLoad _ _ _ | .store _ | .through _ _ | .release | .tileStore _ _ _ _ | .discard _ | .atomic _ _ _
  | .red _ _ | .detRed _ _ _ | .stamped _ _ | .move _ _ _ | .regRead _ | .energy _ _ | .arrive _ _ _ _ _ | .record _ _ _ => false

/-! Waterlines. -/

/-- A die's contribution to a waterline (R273): the lesser of its earliest time and its smallest stamp in flight; a die
powered down contributes what it last did. -/
def State.contribution (s : State) (d : Die) : Nat :=
  if d.tripped then d.contributed
  else
    let stamps := s.flight.filterMap (fun a => match a.op with
      | .stamped _ n => if coreDie a.core = d.id then some n else none
      | _ => none)
    minBy id (s.interval d.id).1 stamps

/-- Whether a die's stamped stores are still on their way (R273). -/
def State.stampsFrom (s : State) (die : Nat) : Bool :=
  s.flight.any (fun a => coreDie a.core == die && (match a.op with | .stamped _ _ => true | _ => false))

/-- Dies that take part in a waterline (R187): those of the partition, or every one of the module for the pod's; one that has
lost its power until its stamped stores have arrived (R273). -/
def State.lineDies (s : State) (first : Nat) : List Die :=
  s.dies.filter (fun d => (d.takesPart || s.stampsFrom d.id) && (first == 99 || (s.partDies first).contains d.id))

/-- The last value formed for a waterline. -/
def State.formed (s : State) (first : Nat) : Nat := ((s.formedLines.find? (fun f => f.1 == first)).map (fun f => f.2.1)).getD 0

/-- What the pod's other modules contribute (R187, R273): a module whose link retrains keeps its last contribution. -/
def State.podOthers (s : State) (first own : Nat) : Nat :=
  if first = 99 then
    Nat.min (Nat.min s.now (Config.podEarliest s.free)) (minBy (fun p => p.2) own s.podContribution)
  else own

/-- WATERLINE_FORM (R187): at most once in 50 ns; a value never decreases. -/
def State.formLine (s : State) (first : Nat) : State :=
  let ds := s.lineDies first
  let recent := s.formedLines.any (fun f => f.1 == first && decide (s.now < f.2.2 + 50))
  if ds.isEmpty || recent then s
  else
    let own := minBy (fun d => s.contribution d) s.now ds
    let v := Nat.max (s.formed first) (Nat.min own (s.podOthers first own))
    { s with
      free := s.free + (if first = 99 then 1 else 0),
      formedLines := (first, v, s.now) :: s.formedLines.filter (fun f => f.1 != first),
      dies := s.dies.map (fun d => if ds.contains d then { d with contributed := s.contribution d } else d) }

/-- The order in which held waterlines are listed. -/
def waterlineLe (x y : Waterline) : Bool :=
  decide (x.die * 2 ^ 16 + x.slice * 2 ^ 8 + x.firstDie ≤ y.die * 2 ^ 16 + y.slice * 2 ^ 8 + y.firstDie)

/-- WATERLINE_DELIVERY (R187) at a home slice, or at the die (slice 64): pending stores that the value exceeds commit. -/
def State.deliverLine (s : State) (die slice : Nat) : State :=
  let mine := s.formedLines.filter (fun f => f.1 == 99 || (s.partDies f.1).contains die)
  let put := fun (s : State) (f : Nat × Nat × Nat) =>
    let x : Waterline := { die := die, slice := slice, firstDie := f.1, value := Nat.max (s.waterline die slice f.1) f.2.1 }
    { s with
      waterlines := insertBy waterlineLe x (s.waterlines.filter (fun w => !(w.die == die && w.slice == slice && w.firstDie == f.1))) }
  (mine.foldl put s).commitSlice die slice

/-! Quiesce. -/

/-- Whether a launch stands on a die with a hold or a reservation (R338, R351); one that a PARTITION packet has evicted from
the die does not meanwhile (R354). -/
def Launch.covers (l : Launch) (die : Nat) : Bool :=
  (match l.stage with
   | .quoted | .residency | .running => true
   | .surveying | .ended => false) && !l.suspended.contains die && (bitOf l.quote.clusterMask (2 * die) || bitOf l.quote.clusterMask (2 * die + 1))

/-- Whether L2 lines of a die remain to be written back (R351). -/
def State.holdsDirty (s : State) (die : Nat) : Bool := s.dirty.any (fun k => s.lineDie k == die)

/-- The first six conditions of Table 2 of R351 that still hold, lowest busy id first. -/
def State.workIds (s : State) (die : Nat) : List Nat :=
  (rangeFrom 0 100).filter (fun i => !(s.siteOf die i).queue.isEmpty)
    ++ (if s.launches.any (fun l => !l.supervisor && l.covers die)
          || s.wgs.any (fun w => w.resident && coreDie w.core == die && !withLaunch s w.ctx false (fun l => l.supervisor)) then [0x80] else [])
    ++ (if s.holdsRecords die then [0x81] else [])
    ++ (if s.requests.any (fun r => r.die == die) then [0x82] else [])
    ++ (if s.clusters.any (fun c => c.id / 2 == die && decide (0 < c.sent + c.reported)) then [0x83] else [])

/-- The conditions of Table 2 of R351 that still hold, lowest busy id first: the L2's write-back where every queue and link is
clear. -/
def State.busyIds (s : State) (die : Nat) : List Nat :=
  if (s.workIds die).isEmpty then (if s.holdsDirty die then [0x84] else []) else s.workIds die

/-- QUIESCE_COMPLETE (R351). -/
def State.quiesceDone (s : State) (die : Nat) : State :=
  match (s.die die).quiesceAt with
  | none => s
  | some t =>
    if (s.busyIds die).isEmpty && decide (s.now ≤ t + 200000) then
      s.modDie die (fun d => { d with pqc := d.pqc ||| 0x100, quiesceAt := none })
    else s

/-- A pending quiesce whose 200 µs end as time passes completes, or is refused with the lowest busy id (R351). -/
def State.settleQuiesce (s : State) (ns : Nat) : State :=
  s.dies.foldl (fun s d => match d.quiesceAt with
    | none => s
    | some t =>
      if t + 200000 < s.now + ns then
        s.modDie d.id (fun d => match s.busyIds d.id with
          | [] => { d with pqc := d.pqc ||| 0x100, quiesceAt := none }
          | i :: _ => { d with pqc := BitVec.ofNat 32 (i * 2 ^ 16 + 2 ^ 9), quiesceAt := none })
      else s) s

/-- The L2s of quiescing dies write their dirty lines back (R351). -/
def State.writeBackQuiescing (s : State) : State :=
  if s.dirty.isEmpty then s else { s with dirty := s.dirty.filter (fun k => (s.die (s.lineDie k)).quiesceAt.isNone) }

/-- QUIESCE_REFUSE (R351): 200 µs have passed, and something is still busy; its lowest id is kept. -/
def State.quiesceRefused (s : State) (die : Nat) : State :=
  match (s.die die).quiesceAt with
  | none => s
  | some t =>
    if decide (t + 200000 ≤ s.now) && (!(s.busyIds die).isEmpty || decide (t + 200000 < s.now)) then
      s.modDie die (fun d => { d with pqc := BitVec.ofNat 32 (nth 0x84 (s.busyIds die) 0 * 2 ^ 16 + 2 ^ 9), quiesceAt := none })
    else s

/-! Clocks and links. -/

/-- CLOCK_REFERENCE_LOSS (R190): the die runs on its own oscillator, within 50 ppm of nominal, from its interval at the
loss. -/
def State.loseClock (s : State) (die : Nat) : State :=
  if (s.die die).clock.lostAt.isSome then s
  else
    { s.modDie die (fun d => { d with clock := { d.clock with lostAt := some s.now, drift := ((Config.oscillator s.free % 101 : Nat) : Int) - 50 } }) with
      free := s.free + 1 }

/-- LINK_RETRAIN (R273): the module keeps its last contribution to the pod waterline until its link returns. -/
def State.retrain (s : State) (module : Nat) : State :=
  if s.retraining.contains module then s
  else { s with retraining := s.retraining ++ [module], podContribution := s.podContribution ++ [(module, s.formed 99)] }

/-! Polder migration. -/

/-- Whether an access is to one of a launch's pages. -/
def Access.toPage (a : Access) (ctx : Nat) (r : Region) (pages : List Nat) : Bool :=
  a.op.memory && a.ctx == ctx && decide (r.base ≤ a.addr) && decide (a.addr < r.base + r.size) && pages.contains (r.pageOf a.addr)

/-- Pages of a region become lost, or backed, by its policy (R123), after the accesses already under way to them. -/
def State.breachPages (s : State) (ctx : Nat) (r : Region) (pages : List Nat) (byDevice : Bool) : State :=
  pages.foldl (fun s pg =>
    match s.polderPage ctx pg with
    | some (.backed _) => s
    | some (.moved _) | some (.lost _) | none =>
      if r.late then s.backPage ctx r pg
      else (s.discardLines ctx (pg * 2 ^ 16) r.pageBytes).1.setPolderPage ctx pg (.lost byDevice))
    (s.drain (fun a => a.toPage ctx r pages))

/-- Bytes of the L2 ways for polder lines that no launch has reserved on a die (R121). -/
def State.polderSpare (s : State) (die : Nat) : Nat :=
  64 * 2 ^ 20 - ((s.launches.filter (fun l => l.live)).map (fun l => s.polderReserved l die)).sum

/-- POLDER_MIGRATION_ORDER (R123, R124): pages move where the target has room, in the launch's reservation there or in ways
that none has (DEDUCED, log 59); else the policy applies, and the breach is of who ordered it. -/
def State.migrate (s : State) (ctx base n target : Nat) (byDevice : Bool) : State :=
  match s.launch ctx with
  | none => s
  | some l =>
    match l.polderAt base with
    | none => s
    | some r =>
      if s.bytesToMove l base n target ≤ s.polderRoom l target + s.polderSpare target then s.moveRange l base n target
      else ((l.polderParts base n).foldl (fun s p =>
          s.breachPages ctx p.1 (s.pagesToMove ctx p.1 (pagesOf p.1 p.2.1 p.2.2) target) byDevice) s).breach ctx (if byDevice then 1 else 2) (if byDevice then 8 else 19) 0xFF r.home false

/-! PCIe and check values. -/

/-- Whether a block of a physical range has a check value that differs from its bytes (R365). -/
def State.rangeMismatch (s : State) (address n : Nat) : Option (Nat × Word) :=
  s.badCheck.find? (fun c => (rangeFrom (address / 128) ((address + n - 1) / 128 + 1 - address / 128)).any (fun b => s.locOf 0 (b * 128) / 128 == c.1))

/-- PCIE_INBOUND_READ (R366): the bytes, or Completer Abort with an integrity record. -/
def State.inboundRead (s : State) (address n : Nat) : State :=
  match s.rangeMismatch address n with
  | some c => { s.reportBad address 0 c with port := s.port ++ [.completerAbort address] }
  | none => { s with port := s.port ++ [.pcieRead (s.readPhys 0 address n)] }

/-- Whether a location is one of a block that is there: a polder line only once it has been touched (R122). -/
def State.blockThere (s : State) (line : Nat) : Bool := match s.polderOf line with
  | some x => s.polderLines.contains (x.1.ctx, x.2.2 / 128) || (match s.polderPage x.1.ctx (x.2.1.pageOf x.2.2) with
      | some (.backed _) => true
      | some (.moved _) | some (.lost _) | none => false)
  | none => decide (line * 128 < 2 ^ 80)

/-- CHECK_VALUE_MISMATCH (R366): at exit (place 0) the transfer is aborted; at a move toward consumers the block is
uncorrectable, an error of its home die (R360), and MCHK follows for each. -/
def State.mismatch (s : State) (address place : Nat) (found : Word) (consumers : List (Nat × Nat)) : State :=
  let key := s.locOf 0 address / 128
  let expected := s.blockCheckValue (key * 128)
  if found = expected || !s.blockThere key then s
  else
    let s1 : State := { s with
      badCheck := (key, found) :: s.badCheck.filter (fun c => c.1 != key),
      faultQueue := s.faultQueue ++ [.integrity (address / 128 * 128) place expected found (((consumers.head?).map (fun c => c.1)).getD 0)] }
    if place = 0 then { s1 with port := s1.port ++ [.completerAbort address] }
    else consumers.foldl State.machineCheck (s1.modDie (s1.blockDie key) Die.countError)

/-- LOAD_PERFORM (R150). -/
def execLoadPerform (id : Nat) (s : State) : Result1 := .next (s.performId id AccOp.isLoad)

/-- STORE_PERFORM (R152). -/
def execStorePerform (id : Nat) (s : State) : Result1 := .next (s.performId id AccOp.isStore)

/-- ATOMIC_PERFORM (R168). -/
def execAtomicPerform (id : Nat) (s : State) : Result1 :=
  .next (s.performId id (fun o => match o with | .atomic _ _ _ => true | _ => false))

/-- REDUCTION_PERFORM (R173). -/
def execReductionPerform (id : Nat) (s : State) : Result1 :=
  .next (s.performId id (fun o => match o with | .red _ _ => true | _ => false))

/-- DET_REDUCTION_ARRIVAL (R176). -/
def execDetReductionArrival (id : Nat) (s : State) : Result1 :=
  .next (s.performId id (fun o => match o with | .detRed _ _ _ => true | _ => false))

/-- STAMP_ARRIVAL (R187). -/
def execStampArrival (id : Nat) (s : State) : Result1 :=
  .next (s.performId id (fun o => match o with | .stamped _ _ => true | _ => false))

/-- BARRIER_ARRIVAL (R162). -/
def execBarrierArrival (id : Nat) (s : State) : Result1 :=
  .next (s.performId id (fun o => match o with | .arrive _ _ _ _ _ => true | _ => false))

/-- CONTINUATION_RECORD (R28). -/
def execContinuationRecord (id : Nat) (s : State) : Result1 :=
  .next (s.performId id (fun o => match o with | .record _ _ _ => true | _ => false))

/-- PMOVE_COMPLETE (R124, R192). -/
def execPmoveComplete (id : Nat) (s : State) : Result1 :=
  .next (s.performId id (fun o => match o with | .move _ _ _ => true | _ => false))

/-- WATERLINE_FORM (R187, R273). -/
def execWaterlineForm (first : Nat) (s : State) : Result1 := .next (s.formLine first)

/-- WATERLINE_DELIVERY (R187). -/
def execWaterlineDelivery (die slice : Nat) (s : State) : Result1 := .next (s.deliverLine die slice)

/-- QUIESCE_REQUEST (R351): a write of %pqc with its quiesce bit reaches another die. -/
def execQuiesceRequest (id : Nat) (s : State) : Result1 := .next (s.performId id (AccOp.isRegWrite (fun i v => i == 3 && bitOf v 0)))

/-- QUIESCE_RELEASE (R351). -/
def execQuiesceRelease (id : Nat) (s : State) : Result1 := .next (s.performId id (AccOp.isRegWrite (fun i v => i == 3 && bitOf v 1)))

/-- CLEAR_REFUSED (R246). -/
def execClearRefused (id : Nat) (s : State) : Result1 := .next (s.performId id (AccOp.isRegWrite (fun i v => i == 3 && bitOf v 9)))

/-- QUIESCE_COMPLETE (R351). -/
def execQuiesceComplete (die : Nat) (s : State) : Result1 := .next (s.quiesceDone die)

/-- QUIESCE_REFUSE (R351). -/
def execQuiesceRefuse (die : Nat) (s : State) : Result1 := .next (s.quiesceRefused die)

/-- PID_WRITE (R246, R349). -/
def execPidWrite (id : Nat) (s : State) : Result1 := .next (s.performId id (AccOp.isRegWrite (fun i _ => i == 0)))

/-- PILV_WRITE (R246). -/
def execPilvWrite (id : Nat) (s : State) : Result1 := .next (s.performId id (AccOp.isRegWrite (fun i _ => i == 1)))

/-- PBND_WRITE (R246). -/
def execPbndWrite (id : Nat) (s : State) : Result1 := .next (s.performId id (AccOp.isRegWrite (fun i _ => i == 2)))

/-- EDIE_READ (R244, R247): a read of a register of another die is sampled as it arrives there. -/
def execEdieRead (id : Nat) (s : State) : Result1 :=
  .next (s.performId id (fun o => match o with | .regRead _ => true | _ => false))

/-- REGISTER_WRITE (R64): a write without a row of its own. -/
def execRegisterWrite (id : Nat) (s : State) : Result1 :=
  .next (s.performId id (AccOp.isRegWrite (fun i v => decide (4 ≤ i) || (i == 3 && !bitOf v 0 && !bitOf v 1 && !bitOf v 9))))

/-- CLOCK_REFERENCE_LOSS (R190). -/
def execClockReferenceLoss (die : Nat) (s : State) : Result1 := .next (s.loseClock die)

/-- LINK_RETRAIN (R273). -/
def execLinkRetrain (module : Nat) (s : State) : Result1 := .next (s.retrain module)

/-- POLDER_MIGRATION_ORDER (R123). -/
def execPolderMigrationOrder (ctx base length target : Nat) (byDevice : Bool) (s : State) : Result1 :=
  .next (s.migrate ctx base length target byDevice)

/-- PCIE_INBOUND_WRITE (R276, R365). -/
def execPcieInboundWrite (address : Nat) (data : List Byte) (s : State) : Result1 :=
  if (s.tierOf 0 address).isSome then .next (s.writePhys 0 address data) else .fault (.absentPhysical address)

/-- PCIE_INBOUND_READ (R366). -/
def execPcieInboundRead (address length : Nat) (s : State) : Result1 :=
  if (s.tierOf 0 address).isSome then .next (s.inboundRead address length) else .fault (.absentPhysical address)

/-- CHECK_VALUE_MISMATCH (R366). -/
def execCheckValueMismatch (address place : Nat) (found : Word) (consumers : List (Nat × Nat)) (s : State) : Result1 :=
  .next (s.mismatch address place found consumers)

end Sys2Proof.Machine
end

