-- ==== Sys2Proof/Machine/Walk.lean ====
section
/-! DEFINITION. The survey's walk (R66, R145, R237, R307, R309 to R315): what a kernel's code is, what each instruction
costs, and the worst path of each function. Energy counts in 1/32 pJ, so that every entry of Table 8 is whole. -/

namespace Sys2Proof.Machine

/-! The code. -/

/-- A word of the code section that is no literal: its PC, its instruction where it decodes, its bytes and the word. -/
structure CodeSlot where
  pc : Nat
  instr : Option Instr
  size : Nat
  word : Nat
  deriving DecidableEq, Repr

/-- The words of a code section as slots; the literal word of a MOVW is none (R70). -/
def slotsFrom : Nat → Bool → List Nat → List CodeSlot
  | _, _, [] => []
  | pc, true, _ :: ws => slotsFrom (pc + 4) false ws
  | pc, false, w :: ws =>
    let two := isMovw w
    let i := match decodeWords w (if two then ws.head? else none) with
      | .ok i => some i
      | .error _ => none
    { pc := pc, instr := i, size := if two then 8 else 4, word := w } :: slotsFrom (pc + 4) two ws

/-- The declared depth of the function whose header word this is (R143): 0 for any other word. -/
def headerDepth (w : Nat) : Nat := if w / 2 ^ 27 % 32 = 15 then w / 2 ^ 14 % 8192 else 0
/-- Its frame limit in units of 16 bytes (R143). -/
def headerLimit (w : Nat) : Nat := w % 2 ^ 14

/-- The tile readers whose hold may have a limit (R228). -/
def readsTile : Instr → Bool
  | .mxma _ _ _ _ => true
  | .ldt _ _ _ _ => true
  | .stt _ _ _ _ => true
  | .tcopy _ _ _ _ => true
  | .tcopym _ _ _ _ => true
  | _ => false

/-- The word offset of a forward transfer with an immediate (R142, R178). -/
def branchOffset : Instr → Option Int
  | .br _ m => some m.toInt
  | .bez _ _ m => some m.toInt
  | .bnz _ _ m => some m.toInt
  | .txb _ m => some m.toInt
  | _ => none

/-! Costs. -/

/-- The cost classes of the tables. -/
inductive Cost where
  | alu | mul | long | xch | spr | clk | rng | ctl | ld | st | atm | red | ord | wait | tx | stamp | polder | lse | cmd
  | tbl | tld | loan | spn | tok | sys
  deriving DecidableEq, Repr

/-- The cost class of an instruction (Tables 1, 3, 8 and 8 of R126, R154, R232 and R259). NOP is ADDI (R56). -/
def costOf : Instr → Cost
  | .mul _ _ _ _ => .mul
  | .mulh _ _ _ _ => .mul
  | .mulhu _ _ _ _ => .mul
  | .mad _ _ _ _ => .mul
  | .mul64 _ _ _ _ => .mul
  | .muli _ _ _ _ => .mul
  | .fmul _ _ _ _ => .mul
  | .ffma _ _ _ _ => .mul
  | .hmul2 _ _ _ _ => .mul
  | .hfma2 _ _ _ _ => .mul
  | .emul2 _ _ _ _ => .mul
  | .efma2 _ _ _ _ => .mul
  | .divu _ _ _ _ => .long
  | .remu _ _ _ _ => .long
  | .fdiv _ _ _ _ => .long
  | .fsqrt _ _ _ => .long
  | .frcp _ _ _ => .long
  | .frsq _ _ _ => .long
  | .fexp2 _ _ _ => .long
  | .flog2 _ _ _ => .long
  | .br _ _ => .ctl
  | .call _ _ => .ctl
  | .bez _ _ _ => .ctl
  | .bnz _ _ _ => .ctl
  | .callr _ _ => .ctl
  | .jr _ _ => .ctl
  | .ret _ => .ctl
  | .looph _ _ _ => .ctl
  | .loope _ _ _ => .ctl
  | .wbase _ _ => .ctl
  | .wbadj _ _ => .ctl
  | .exit _ => .ctl
  | .trap _ _ => .ctl
  | .brk _ _ => .ctl
  | .shfl _ _ _ _ => .xch
  | .shflx _ _ _ _ => .xch
  | .shflu _ _ _ _ => .xch
  | .shfld _ _ _ _ => .xch
  | .vany _ _ _ => .xch
  | .vall _ _ _ => .xch
  | .vbal _ _ _ => .xch
  | .matchOp _ _ _ => .xch
  | .gsum _ _ _ => .xch
  | .lanes _ _ => .xch
  | .clki _ _ => .clk
  | .mfs _ _ _ => .spr
  | .mts _ _ _ => .spr
  | .mfsr _ _ _ => .spr
  | .mtsr _ _ _ => .spr
  | .ldb _ _ _ _ => .ld
  | .ldbs _ _ _ _ => .ld
  | .ldh _ _ _ _ => .ld
  | .ldhs _ _ _ _ => .ld
  | .ldw _ _ _ _ => .ld
  | .ldd _ _ _ _ => .ld
  | .ldq _ _ _ _ => .ld
  | .ldc _ _ _ _ => .ld
  | .ldcd _ _ _ _ => .ld
  | .ldbx _ _ _ _ => .ld
  | .ldbsx _ _ _ _ => .ld
  | .ldhx _ _ _ _ => .ld
  | .ldhsx _ _ _ _ => .ld
  | .ldwx _ _ _ _ => .ld
  | .lddx _ _ _ _ => .ld
  | .ldqx _ _ _ _ => .ld
  | .ldcx _ _ _ _ => .ld
  | .ldcdx _ _ _ _ => .ld
  | .mon _ _ _ => .ld
  | .stb _ _ _ _ => .st
  | .sth _ _ _ _ => .st
  | .stw _ _ _ _ => .st
  | .std _ _ _ _ => .st
  | .stq _ _ _ _ => .st
  | .stbx _ _ _ _ => .st
  | .sthx _ _ _ _ => .st
  | .stwx _ _ _ _ => .st
  | .stdx _ _ _ _ => .st
  | .stqx _ _ _ _ => .st
  | .fence _ _ _ _ => .ord
  | .pfence _ _ _ => .ord
  | .slrel _ _ => .ord
  | .slacq _ _ _ _ => .wait
  | .bara _ _ _ _ => .wait
  | .barw _ _ _ => .wait
  | .bar _ _ _ _ => .wait
  | .barx _ _ _ _ => .wait
  | .mwait _ _ _ => .wait
  | .cwait _ _ _ => .wait
  | .lwait _ _ _ => .wait
  | .bwait _ _ _ => .wait
  | .twait _ _ _ _ => .wait
  | .rclaim _ _ _ => .wait
  | .tokw _ _ => .wait
  | .amoAdd _ _ _ _ _ _ => .atm
  | .amoAnd _ _ _ _ _ _ => .atm
  | .amoOr _ _ _ _ _ _ => .atm
  | .amoXor _ _ _ _ _ _ => .atm
  | .amoMin _ _ _ _ _ _ => .atm
  | .amoMax _ _ _ _ _ _ => .atm
  | .amoXchg _ _ _ _ _ _ => .atm
  | .amoFadd _ _ _ _ _ _ => .atm
  | .amoMinu _ _ _ _ _ _ => .atm
  | .amoMaxu _ _ _ _ _ _ => .atm
  | .amoAdd64 _ _ _ _ _ _ => .atm
  | .casW _ _ _ _ _ _ => .atm
  | .casD _ _ _ _ _ _ => .atm
  | .gts _ _ _ _ _ _ => .atm
  | .vcas _ _ _ _ _ _ => .atm
  | .tcas _ _ _ _ _ _ => .atm
  | .redAdd _ _ _ _ _ => .red
  | .redAnd _ _ _ _ _ => .red
  | .redOr _ _ _ _ _ => .red
  | .redXor _ _ _ _ _ => .red
  | .redMin _ _ _ _ _ => .red
  | .redMax _ _ _ _ _ => .red
  | .redMinu _ _ _ _ _ => .red
  | .redMaxu _ _ _ _ _ => .red
  | .redFadd _ _ _ _ _ => .red
  | .redHadd2 _ _ _ _ _ => .red
  | .redFmin _ _ _ _ _ => .red
  | .redFmax _ _ _ _ _ => .red
  | .txb _ _ => .tx
  | .txe _ => .tx
  | .txa _ => .tx
  | .stst _ _ _ _ => .stamp
  | .ststd _ _ _ _ => .stamp
  | .ldas _ _ _ _ => .stamp
  | .pdisc _ _ _ _ => .polder
  | .pmove _ _ _ _ => .polder
  | .lease _ _ _ _ => .lse
  | .lrel _ _ _ => .lse
  | .lstat _ _ _ => .lse
  | .tcopy _ _ _ _ => .cmd
  | .tcopym _ _ _ _ => .cmd
  | .gath _ _ _ _ => .cmd
  | .scat _ _ _ _ => .cmd
  | .coll _ _ _ _ => .cmd
  | .vdec _ _ _ _ => .cmd
  | .qfence _ _ _ => .cmd
  | .mxma _ _ _ _ => .cmd
  | .accz _ _ => .cmd
  | .accout _ _ _ => .cmd
  | .bseal _ _ => .tbl
  | .bstat _ _ _ => .tbl
  | .talloc _ _ => .tbl
  | .tfree _ _ _ => .tbl
  | .tstate _ _ _ => .tbl
  | .tset _ _ _ => .tbl
  | .ldt _ _ _ _ => .tld
  | .stt _ _ _ _ => .tld
  | .rgive _ => .loan
  | .rpool _ _ => .loan
  | .spawn _ _ _ _ => .spn
  | .sysc _ _ => .spn
  | .tokp _ _ => .tok
  | .rndb _ _ => .rng
  | .tlbi _ _ _ _ => .sys
  | .eret => .sys
  | .halt _ => .sys
  | .ctxsav _ _ _ => .sys
  | .ctxres _ _ _ _ => .sys
  | _ => .alu

/-- Whether the first field an instruction names is read and not written (R128, R140, R142, R149, R230). -/
def onlyReadsFirst : Instr → Bool
  | .nop _ => true
  | .br _ _ => true
  | .call _ _ => true
  | .bez _ _ _ => true
  | .bnz _ _ _ => true
  | .callr _ _ => true
  | .jr _ _ => true
  | .ret _ => true
  | .wbase _ _ => true
  | .wbadj _ _ => true
  | .exit _ => true
  | .trap _ _ => true
  | .brk _ _ => true
  | .mts _ _ _ => true
  | .stb _ _ _ _ => true
  | .sth _ _ _ _ => true
  | .stw _ _ _ _ => true
  | .std _ _ _ _ => true
  | .stq _ _ _ _ => true
  | .stbx _ _ _ _ => true
  | .sthx _ _ _ _ => true
  | .stwx _ _ _ _ => true
  | .stdx _ _ _ _ => true
  | .stqx _ _ _ _ => true
  | .fence _ _ _ _ => true
  | .pfence _ _ _ => true
  | .slrel _ _ => true
  | .bara _ _ _ _ => true
  | .barw _ _ _ => true
  | .bar _ _ _ _ => true
  | .barx _ _ _ _ => true
  | .redAdd _ _ _ _ _ => true
  | .redAnd _ _ _ _ _ => true
  | .redOr _ _ _ _ _ => true
  | .redXor _ _ _ _ _ => true
  | .redMin _ _ _ _ _ => true
  | .redMax _ _ _ _ _ => true
  | .redMinu _ _ _ _ _ => true
  | .redMaxu _ _ _ _ _ => true
  | .redFadd _ _ _ _ _ => true
  | .redHadd2 _ _ _ _ _ => true
  | .redFmin _ _ _ _ _ => true
  | .redFmax _ _ _ _ _ => true
  | .txb _ _ => true
  | .txa _ => true
  | .stt _ _ _ _ => true
  | .rgive _ => true
  | .mtsr _ _ _ => true
  | .eret => true
  | .halt _ => true
  | .sysc _ _ => true
  | _ => false

/-- Whether an instruction reads the d that it writes (R127, R128, R132, R135, R144, R169, R220). -/
def readsDest : Instr → Bool
  | .mad _ _ _ _ => true
  | .cmovz _ _ _ _ => true
  | .cmovn _ _ _ _ => true
  | .bfi _ _ _ _ => true
  | .ffma _ _ _ _ => true
  | .hfma2 _ _ _ _ => true
  | .efma2 _ _ _ _ => true
  | .looph _ _ _ => true
  | .loope _ _ _ => true
  | .casW _ _ _ _ _ _ => true
  | .casD _ _ _ _ _ _ => true
  | .vcas _ _ _ _ _ _ => true
  | .tcas _ _ _ _ _ _ => true
  | .mxma _ _ _ _ => true
  | .accz _ _ => true
  | .accout _ _ _ => true
  | _ => false

/-- The reference of a memory access: the pair's field, the index word's field or the displacement, and the bytes (R149,
R167). -/
def memRef : Instr → Option (Nat × Option Nat × Int × Nat)
  | .ldb _ _ a m => some (a.toNat, none, m.toInt * 1, 1)
  | .ldbs _ _ a m => some (a.toNat, none, m.toInt * 1, 1)
  | .ldh _ _ a m => some (a.toNat, none, m.toInt * 2, 2)
  | .ldhs _ _ a m => some (a.toNat, none, m.toInt * 2, 2)
  | .ldw _ _ a m => some (a.toNat, none, m.toInt * 4, 4)
  | .ldd _ _ a m => some (a.toNat, none, m.toInt * 8, 8)
  | .ldq _ _ a m => some (a.toNat, none, m.toInt * 16, 16)
  | .ldbx _ _ a b => some (a.toNat, some b.toNat, 0, 1)
  | .ldbsx _ _ a b => some (a.toNat, some b.toNat, 0, 1)
  | .ldhx _ _ a b => some (a.toNat, some b.toNat, 0, 2)
  | .ldhsx _ _ a b => some (a.toNat, some b.toNat, 0, 2)
  | .ldwx _ _ a b => some (a.toNat, some b.toNat, 0, 4)
  | .lddx _ _ a b => some (a.toNat, some b.toNat, 0, 8)
  | .ldqx _ _ a b => some (a.toNat, some b.toNat, 0, 16)
  | .stb _ _ a m => some (a.toNat, none, m.toInt * 1, 1)
  | .sth _ _ a m => some (a.toNat, none, m.toInt * 2, 2)
  | .stw _ _ a m => some (a.toNat, none, m.toInt * 4, 4)
  | .std _ _ a m => some (a.toNat, none, m.toInt * 8, 8)
  | .stq _ _ a m => some (a.toNat, none, m.toInt * 16, 16)
  | .stbx _ _ a b => some (a.toNat, some b.toNat, 0, 1)
  | .sthx _ _ a b => some (a.toNat, some b.toNat, 0, 2)
  | .stwx _ _ a b => some (a.toNat, some b.toNat, 0, 4)
  | .stdx _ _ a b => some (a.toNat, some b.toNat, 0, 8)
  | .stqx _ _ a b => some (a.toNat, some b.toNat, 0, 16)
  | .amoAdd _ _ _ a _ _ => some (2 * a.toNat, none, 0, 4)
  | .amoAnd _ _ _ a _ _ => some (2 * a.toNat, none, 0, 4)
  | .amoOr _ _ _ a _ _ => some (2 * a.toNat, none, 0, 4)
  | .amoXor _ _ _ a _ _ => some (2 * a.toNat, none, 0, 4)
  | .amoMin _ _ _ a _ _ => some (2 * a.toNat, none, 0, 4)
  | .amoMax _ _ _ a _ _ => some (2 * a.toNat, none, 0, 4)
  | .amoXchg _ _ _ a _ _ => some (2 * a.toNat, none, 0, 4)
  | .amoFadd _ _ _ a _ _ => some (2 * a.toNat, none, 0, 4)
  | .amoMinu _ _ _ a _ _ => some (2 * a.toNat, none, 0, 4)
  | .amoMaxu _ _ _ a _ _ => some (2 * a.toNat, none, 0, 4)
  | .amoAdd64 _ _ _ a _ _ => some (2 * a.toNat, none, 0, 8)
  | .casW _ _ _ a _ _ => some (2 * a.toNat, none, 0, 4)
  | .casD _ _ _ a _ _ => some (2 * a.toNat, none, 0, 8)
  | .gts _ _ _ a _ _ => some (2 * a.toNat, none, 0, 8)
  | .vcas _ _ _ a _ _ => some (2 * a.toNat, none, 0, 8)
  | .tcas _ _ _ a _ _ => some (2 * a.toNat, none, 0, 8)
  | .redAdd _ _ _ a _ => some (2 * a.toNat, none, 0, 4)
  | .redAnd _ _ _ a _ => some (2 * a.toNat, none, 0, 4)
  | .redOr _ _ _ a _ => some (2 * a.toNat, none, 0, 4)
  | .redXor _ _ _ a _ => some (2 * a.toNat, none, 0, 4)
  | .redMin _ _ _ a _ => some (2 * a.toNat, none, 0, 4)
  | .redMax _ _ _ a _ => some (2 * a.toNat, none, 0, 4)
  | .redMinu _ _ _ a _ => some (2 * a.toNat, none, 0, 4)
  | .redMaxu _ _ _ a _ => some (2 * a.toNat, none, 0, 4)
  | .redFadd _ _ _ a _ => some (2 * a.toNat, none, 0, 4)
  | .redHadd2 _ _ _ a _ => some (2 * a.toNat, none, 0, 4)
  | .redFmin _ _ _ a _ => some (2 * a.toNat, none, 0, 4)
  | .redFmax _ _ _ a _ => some (2 * a.toNat, none, 0, 4)
  | .mon _ _ a => some (a.toNat, none, 0, 4)
  | .tcopy _ _ a _ => some (a.toNat, none, 0, 64)
  | .tcopym _ _ a _ => some (a.toNat, none, 0, 64)
  | .gath _ _ a _ => some (a.toNat, none, 0, 64)
  | .scat _ _ a _ => some (a.toNat, none, 0, 64)
  | .coll _ _ a _ => some (a.toNat, none, 0, 64)
  | .vdec _ _ a _ => some (a.toNat, none, 0, 64)
  | _ => none

/-- The scope of an atomic or reduction, and its flag D (R51). -/
def scopeOf : Instr → Nat × Bool
  | .amoAdd _ p _ _ f _ => (p.toNat, f)
  | .amoAnd _ p _ _ f _ => (p.toNat, f)
  | .amoOr _ p _ _ f _ => (p.toNat, f)
  | .amoXor _ p _ _ f _ => (p.toNat, f)
  | .amoMin _ p _ _ f _ => (p.toNat, f)
  | .amoMax _ p _ _ f _ => (p.toNat, f)
  | .amoXchg _ p _ _ f _ => (p.toNat, f)
  | .amoFadd _ p _ _ f _ => (p.toNat, f)
  | .amoMinu _ p _ _ f _ => (p.toNat, f)
  | .amoMaxu _ p _ _ f _ => (p.toNat, f)
  | .amoAdd64 _ p _ _ f _ => (p.toNat, f)
  | .casW _ p _ _ f _ => (p.toNat, f)
  | .casD _ p _ _ f _ => (p.toNat, f)
  | .gts _ p _ _ f _ => (p.toNat, f)
  | .vcas _ p _ _ f _ => (p.toNat, f)
  | .tcas _ p _ _ f _ => (p.toNat, f)
  | .redAdd _ p f _ _ => (p.toNat, f)
  | .redAnd _ p f _ _ => (p.toNat, f)
  | .redOr _ p f _ _ => (p.toNat, f)
  | .redXor _ p f _ _ => (p.toNat, f)
  | .redMin _ p f _ _ => (p.toNat, f)
  | .redMax _ p f _ _ => (p.toNat, f)
  | .redMinu _ p f _ _ => (p.toNat, f)
  | .redMaxu _ p f _ _ => (p.toNat, f)
  | .redFadd _ p f _ _ => (p.toNat, f)
  | .redHadd2 _ p f _ _ => (p.toNat, f)
  | .redFmin _ p f _ _ => (p.toNat, f)
  | .redFmax _ p f _ _ => (p.toNat, f)
  | _ => (0, false)

/-- Issue slots of a class (R126, R154, R232, R259). -/
def Cost.issue : Cost → Nat
  | .long => 8
  | .xch => 2
  | .alu | .mul | .spr | .clk | .rng | .ctl | .ld | .st | .atm | .red | .ord | .wait | .tx | .stamp | .polder | .lse | .cmd
  | .tbl | .tld | .loan | .spn | .tok | .sys => 1

/-- Class energy of a group in pJ (Table 8 of R315); memory classes have none of their own. -/
def Cost.energy (c : Cost) (opclass : Nat) : Nat :=
  nth 0 (match c with
    | .alu | .ctl | .spr | .tbl | .lse | .loan | .tok | .ord | .wait => [76, 97, 120, 146]
    | .mul => [88, 113, 140, 170]
    | .long | .sys => [379, 483, 600, 730]
    | .xch => [126, 161, 200, 243]
    | .clk => [95, 121, 150, 182]
    | .rng => [158, 201, 250, 304]
    | .cmd | .spn => [253, 322, 400, 486]
    | .ld | .st | .atm | .red | .tx | .stamp | .polder | .tld => []) opclass

/-- The fields an instruction writes, as field and words; CALL and CALLR write w7 (R143). -/
def writtenFields (i : Instr) : List (Nat × Nat) :=
  match i with
  | .call _ _ => [(7, 1)]
  | .callr _ _ => [(7, 1)]
  | _ => if onlyReadsFirst i then [] else (namedFields i).take 1

/-- q of R313: the 32-bit register words an instruction reads; the calls read w0:1 and RET reads w7 (R143). -/
def wordsRead (i : Instr) : Nat :=
  let named := (namedFields i).map (fun f => f.2)
  let all := named.foldl (fun x y => x + y) 0
  match i with
  | .ret _ => 1
  | .call _ _ => 2
  | .callr _ _ => all + 2
  | .jr _ _ => all + 2
  | _ => if onlyReadsFirst i || readsDest i then all else all - named.headD 0

/-- Worst latencies by operating class (Table 8 of R315). -/
def hbmCycles (opclass : Nat) : Nat := nth 900 [600, 750, 900, 1025] opclass
def farCycles (opclass : Nat) : Nat := nth 2400 [1600, 2000, 2400, 2734] opclass
def wideCycles (opclass : Nat) : Nat := nth 500 [334, 417, 500, 570] opclass

/-! What the walk knows of a register: bounds of a word, a pair that is an aperture's base plus a bounded offset, or the result of
a LEASE that is known, by its code. -/

inductive Known where
  | word (lo hi : Int)
  | scratch (lo hi : Int)
  | priv (lo hi : Int)
  | lease (lo hi : Int)
  deriving DecidableEq, Repr

/-- The bounds of a known value. -/
def Known.bounds : Known → Int × Int
  | .word lo hi | .scratch lo hi | .priv lo hi | .lease lo hi => (lo, hi)

/-- Words it stands for. -/
def Known.size : Known → Nat
  | .word _ _ | .lease _ _ => 1
  | .scratch _ _ | .priv _ _ => 2

/-- A value of the same kind with other bounds. -/
def Known.withBounds (v : Known) (lo hi : Int) : Known := match v with
  | .word _ _ => .word lo hi
  | .scratch _ _ => .scratch lo hi
  | .priv _ _ => .priv lo hi
  | .lease _ _ => .lease lo hi

/-- Whether two are of one kind. -/
def Known.sameKind : Known → Known → Bool
  | .word _ _, .word _ _ => true
  | .scratch _ _, .scratch _ _ => true
  | .priv _ _, .priv _ _ => true
  | .lease _ _, .lease _ _ => true
  | _, _ => false

/-- What is known by field, relative to the window. -/
abbrev Facts := List (Nat × Known)

/-- The value of a field. -/
def Facts.get (k : Facts) (f : Nat) : Option Known := (k.find? (fun x => x.1 == f)).map (fun x => x.2)

/-- The bounds of a word. -/
def Facts.word (k : Facts) (f : Nat) : Option (Int × Int) := match k.get f with
  | some (.word lo hi) => some (lo, hi)
  | _ => none

/-- Facts without those that a write of `n` words at `f` ends. -/
def Facts.kill (k : Facts) (f n : Nat) : Facts := k.filter (fun x => !rangesMeet x.1 x.2.size f n)

/-- Facts at the join of two paths: what both know, by the hull of their bounds. -/
def Facts.join (k k' : Facts) : Facts :=
  k.filterMap (fun x => match k'.get x.1 with
    | some v => if x.2.sameKind v then
        some (x.1, x.2.withBounds (Min.min x.2.bounds.1 v.bounds.1) (Max.max x.2.bounds.2 v.bounds.2)) else none
    | none => none)

/-- A word's bounds, where they fit a signed word. -/
def asWord (lo hi : Int) : Option Known := if (-(2 ^ 31) : Int) ≤ lo ∧ hi < (2 ^ 31 : Int) then some (.word lo hi) else none

/-- Sum of bounds. -/
def addBounds (x y : Int × Int) : Int × Int := (x.1 + y.1, x.2 + y.2)

/-- A pair plus a bounded word. -/
def Known.plus (v : Option Known) (w : Option (Int × Int)) (scale : Int) : Option Known := match v, w with
  | some v, some (lo, hi) => if v.size = 2 then some (v.withBounds (v.bounds.1 + lo * scale) (v.bounds.2 + hi * scale)) else none
  | _, _ => none

/-- The value an instruction gives its d, where the walk follows it. -/
def valueOf (k : Facts) : Instr → Option Known
  | .movi _ _ m => some (.word m.toInt m.toInt)
  | .movw _ _ lit => some (.word lit.toInt lit.toInt)
  | .add _ _ a b => (match k.word a.toNat, k.word b.toNat with
      | some x, some y => asWord (addBounds x y).1 (addBounds x y).2
      | _, _ => none)
  | .sub _ _ a b => (match k.word a.toNat, k.word b.toNat with
      | some x, some y => asWord (x.1 - y.2) (x.2 - y.1)
      | _, _ => none)
  | .addi _ _ a m => (match k.word a.toNat with
      | some x => asWord (x.1 + m.toInt) (x.2 + m.toInt)
      | none => none)
  | .shli _ _ a m => (match k.word a.toNat with
      | some x => if 0 ≤ x.1 then asWord (x.1 * 2 ^ m.toNat) (x.2 * 2 ^ m.toNat) else none
      | none => none)
  | .andi _ _ _ m => some (.word 0 m.toNat)
  | .addx _ _ a b => Known.plus (k.get a.toNat) (k.word b.toNat) 1
  | .addx4 _ _ a b => Known.plus (k.get a.toNat) (k.word b.toNat) 4
  | .add64i _ _ a m => Known.plus (k.get a.toNat) (some (m.toInt, m.toInt)) 1
  | _ => none

/-- The facts after an instruction, which may be known to give its d another value. A window move ends those of windowed fields, and
so does a call (R62, R306). -/
def Facts.after (k : Facts) (i : Instr) (result : Option Known) : Facts :=
  let v := result.or (valueOf k i)
  let k1 := (writtenFields i).foldl (fun k f => k.kill f.1 f.2) k
  match i, v, (writtenFields i).head? with
  | .wbase _ _, _, _ => k.filter (fun x => decide (x.1 + x.2.size ≤ 8))
  | .wbadj _ _, _, _ => k.filter (fun x => decide (x.1 + x.2.size ≤ 8))
  | _, some v, some f => (f.1, v) :: k1
  | _, _, _ => k1

/-! Places and prices. -/

/-- What a survey's walk is given: the image, its code, the assumed rationing level, and what places its ranges may lie in. -/
structure Walk where
  img : Image
  code : List CodeSlot
  /-- PCs of LOOPH and LOOPE pairs (R145) -/
  loops : List (Nat × Nat)
  level : Nat
  /-- worst latency of a global access, whether it may lie beyond HBM, and whether every line lies on the cluster's die -/
  globalCycles : Nat
  far : Bool
  near : Bool
  privCycles : Nat
  /-- bytes of the largest polder region -/
  polderBytes : Nat
  /-- dies of the partition, and those on which the launch's clusters lie -/
  dies : Nat
  homes : List Nat
  /-- functions that lie on a cycle of the call graph (R307), and the PCs that a TXE can follow (R309, item 4) -/
  cyclic : List Nat
  toTxe : List Nat
  /-- the classes, bit by bit, of which a LEASE may take a lease without a booking on another die (R232) -/
  lent : Nat
  deriving DecidableEq, Repr

/-- Where an access may go (R154); `any` where the walk does not know. -/
inductive Place where
  | own | otherScratch | priv | global | any
  deriving DecidableEq, Repr

/-- The place of an instruction's reference. -/
def Walk.place (x : Walk) (k : Facts) (i : Instr) : Place :=
  match memRef i with
  | none => .global
  | some (a, idx, off, n) =>
    let ref := match idx with
      | none => Known.plus (k.get a) (some (off, off)) 1
      | some b => Known.plus (k.get a) (k.word b) 1
    match k.get a, ref with
    | some (.scratch _ _), some (.scratch lo hi) => if 0 ≤ lo ∧ hi + n ≤ x.img.scratch then .own else .otherScratch
    | some (.scratch _ _), _ => .otherScratch
    | some (.priv _ _), some (.priv lo hi) => if 0 ≤ lo ∧ hi + n ≤ x.img.priv then .priv else .any
    | _, _ => .any

/-- Every memory latency of a fused launch is 40 cycles more (R107). -/
def Walk.fused (x : Walk) : Nat := if x.img.fuse then 40 else 0

/-- The latency of a load at a place (R154, R101). -/
def Walk.loadCycles (x : Walk) : Place → Nat
  | .own => 32 + x.fused
  | .otherScratch => 96 + x.fused
  | .priv => x.privCycles + x.fused
  | .global => x.globalCycles + x.fused
  | .any => Nat.max (Nat.max 96 x.globalCycles) (if x.img.priv = 0 then 0 else x.privCycles) + x.fused

/-- The latency of an atomic of a scope at a place (R154). -/
def Walk.atomicCycles (x : Walk) (scope : Nat) (p : Place) : Nat :=
  if scope = 0 then x.loadCycles p + 8
  else if scope ≤ 2 then 160 + (if (p == .global || p == .any) && !x.near then 60 else 0) + x.fused
  else if scope ≤ 4 then x.loadCycles p + 20
  else (if x.far then farCycles x.img.opclass else wideCycles x.img.opclass) + x.fused

/-- The energy of a member's access in 1/32 pJ (R154, R315): one line, or 128 scratchpad bytes. No access crosses a 128-byte
boundary, each being aligned (R148). -/
def accessEnergy : Place → Nat
  | .own | .otherScratch => 9600
  | .priv | .global | .any => 35200

/-- Cycles of a limit in ns (R314). -/
def Walk.limitCycles (x : Walk) (pc : Nat) : Nat :=
  cdiv (((x.img.bounds.find? (fun b => b.1 == pc)).map (fun b => b.2)).getD 0 * Config.clockMHz x.img.opclass) 1000

/-- The engine class of a command's site, 5 where it may be any (R204 to R212, R220). -/
def commandClass : Instr → Nat
  | .tcopy _ _ _ _ => 1
  | .tcopym _ _ _ _ => 1
  | .gath _ _ _ _ => 2
  | .scat _ _ _ _ => 2
  | .coll _ _ _ _ => 3
  | .vdec _ _ _ _ => 4
  | .accz _ _ => 0
  | .mxma _ _ _ _ => 0
  | .accout _ _ _ => 0
  | _ => 5

/-- Whether the leases of a class (5: of any) that the launch uses lie on its core's die: its partition has no other, or no LEASE of
it may take one elsewhere (R232, R343). -/
def Walk.atHome (x : Walk) (cls : Nat) : Bool := decide (x.dies ≤ 1) || (if cls = 5 then x.lent == 0 else !bitOf x.lent cls)

/-- The class and count that a LEASE names, where the walk knows its word (R195). -/
def leaseNamed (k : Facts) (a : Nat) : Option (Nat × Nat) := match k.word a with
  | some (lo, hi) => if lo = hi then some (lo.toNat % 8, lo.toNat / 8 % 4 + 1) else none
  | none => none

/-- The declared bookings of a workgroup slot, as class and count (R304). -/
def Walk.declared (x : Walk) : List (Nat × Nat) := x.img.leases.map (fun d => (d.1, d.2.1))

/-- A lease that may be taken and that no declaration books, and one that stands for leases that the walk has lost count of. -/
def unbooked : Nat × Nat := (5, 0)
def uncounted : Nat × Nat := (6, 0)

/-- Whether a LEASE of a class and count finds a booking that is not taken (R196), beside the leases that its path has taken. -/
def Walk.bookingLeft (x : Walk) (taken : List (Nat × Nat)) (d : Nat × Nat) : Bool :=
  decide ((taken.filter (fun e => e == d)).length < (x.declared.filter (fun e => e == d)).length)

/-- The power in 10 mW of a lease that a LEASE may take without a booking (R196, R232): of its class and count where the walk knows
them, else the most that a request can name. -/
def Walk.opens (x : Walk) (k : Facts) (taken : List (Nat × Nat)) : Instr → Option Nat
  | .lease _ _ a _ => (match leaseNamed k a.toNat with
      | some d => if x.bookingLeft taken d then none else some (Config.sitePower d.1 x.img.opclass * d.2)
      | none => some (4 * Config.sitePower 0 x.img.opclass))
  | _ => none

/-- What the walk knows of a LEASE's result: the lease, by class and count, and whether it is a booked one. -/
def Walk.leaseResult (x : Walk) (k : Facts) (taken : List (Nat × Nat)) : Instr → Option Known
  | .lease _ _ a _ => (leaseNamed k a.toNat).map (fun d =>
      (let c : Int := ((8 * d.1 + d.2 + (if x.bookingLeft taken d then 64 else 0) : Nat) : Int)
       .lease c c))
  | _ => none

/-- The lease that a register names, where the walk knows it: class, count, and whether it is a booked one. -/
def Facts.lease (k : Facts) (f : Nat) : Option (Nat × Nat × Bool) := match k.get f with
  | some (.lease lo hi) => if lo = hi then some (lo.toNat / 8 % 8, lo.toNat % 8, decide (64 ≤ lo.toNat)) else none
  | _ => none

/-- Whether a LEASE's site lies on the core's die: it is booked, there is no other, or the request names its own (R195). -/
def Walk.leaseNear (x : Walk) (k : Facts) (taken : List (Nat × Nat)) (i : Instr) : Bool := match i with
  | .lease _ _ _ b => decide (x.dies ≤ 1) || (x.opens k taken i).isNone || (match k.word b.toNat with
      | some (lo, hi) => decide (lo = hi) && lo.toNat / 16 % 4 == 0
      | none => false)
  | _ => x.atHome 5

/-- The classes of the leases that an instruction may take on another die, bit by bit. -/
def Walk.lends (x : Walk) (k : Facts) (taken : List (Nat × Nat)) (i : Instr) : Nat := match i with
  | .lease _ _ a _ => if x.leaseNear k taken i then 0 else match leaseNamed k a.toNat with
      | some d => 2 ^ d.1
      | none => 31
  | _ => 0

/-! Paths. -/

/-- What the worst path has spent: issue slots, park cycles, energy, D-flagged reductions; of leases that are not booked, the
power of those held to the workgroup's end, and power times the issue slots and the park cycles between LEASE and LREL of the
others; and the classes that its LEASEs may take on another die (R310, R232). -/
structure Spend where
  issue : Nat
  park : Nat
  energy : Nat
  det : Nat
  lease : Nat
  heldIssue : Nat
  heldPark : Nat
  lends : Nat
  deriving DecidableEq, Repr

def Spend.zero : Spend := { issue := 0, park := 0, energy := 0, det := 0, lease := 0, heldIssue := 0, heldPark := 0, lends := 0 }
/-- Two component by component. -/
def Spend.both (f : Nat → Nat → Nat) (x y : Spend) : Spend :=
  { issue := f x.issue y.issue, park := f x.park y.park, energy := f x.energy y.energy, det := f x.det y.det, lease := f x.lease y.lease,
    heldIssue := f x.heldIssue y.heldIssue, heldPark := f x.heldPark y.heldPark, lends := x.lends ||| y.lends }
/-- Sum (R310: sequence). -/
def Spend.add (x y : Spend) : Spend := x.both (fun a b => a + b) y
/-- Multiple (R310: loop, call). -/
def Spend.times (n : Nat) (x : Spend) : Spend := x.both (fun a _ => n * a) x
/-- Maximum of each component (R310). -/
def Spend.sup (x y : Spend) : Spend := x.both Nat.max y

/-- The window base along a path: a value, or one relative to the base at the function's entry, or to what a call at a PC may
have left (R145). -/
inductive WinBase where
  | value (v : Int)
  | entry (d : Int)
  | left (pc : Nat) (d : Int)
  deriving DecidableEq, Repr

/-- A lease that a path holds without a booking: its power, and the issue slots and park cycles since its LEASE (R232). -/
abbrev Open := Nat × Nat × Nat

/-- What decides the rest of a path's price: the open run's longest latency and length, the longest acknowledgements
outstanding of stores and of reductions, the window base, the abort path of an active transaction, the powers of the leases held without a
booking, the leases taken else, and LRELs that may have released any of these. -/
structure PathKey where
  run : Nat
  len : Nat
  stores : Nat
  reds : Nat
  base : WinBase
  tx : Option Nat
  opened : List Nat
  taken : List (Nat × Nat)
  loose : Nat
  deriving DecidableEq, Repr

/-- Paths that reach one point with one key; `held` are the leases whose powers the key lists. -/
structure PathOpt where
  key : PathKey
  facts : Facts
  spend : Spend
  held : List Open
  deriving DecidableEq, Repr

/-- Two lists of the same leases, number by number. -/
def bothOpen (f : Nat → Nat → Nat) (x y : List Open) : List Open :=
  (x.zip y).map (fun (p : Open × Open) => ((p.1.1, f p.1.2.1 p.2.2.1, f p.1.2.2 p.2.2.2) : Open))

/-- Adds a path to those of a point: paths of one key join. -/
def addPath (p : PathOpt) : List PathOpt → List PathOpt
  | [] => [p]
  | q :: qs =>
    if q.key == p.key then { q with facts := q.facts.join p.facts, spend := q.spend.sup p.spend, held := bothOpen Nat.max q.held p.held } :: qs
    else q :: addPath p qs

/-- A path whose leases are those given. -/
def PathOpt.hold (p : PathOpt) (h : List Open) : PathOpt := { p with held := h, key := { p.key with opened := h.map (fun o => o.1) } }

/-- Leases opened beyond some that were open before are held to the workgroup's end (R232). -/
def PathOpt.keepOpen (before : List Nat) (p : PathOpt) : PathOpt :=
  (before.foldl List.erase p.key.opened).foldl (fun q w =>
    ({ q with spend := q.spend.add { Spend.zero with lease := w }, key := { q.key with taken := q.key.taken ++ [unbooked] } }).hold
      (q.held.erase ((q.held.find? (fun (o : Open) => o.1 == w)).getD (w, 0, 0)))) p

/-- Bookings as the walk takes them where it has lost count: all taken, and none known to return. -/
def Walk.lost (x : Walk) : List (Nat × Nat) := x.declared ++ [uncounted]

/-- A path that comes to a point where another has taken some leases: where it has not the same, the walk has lost count. -/
def PathOpt.settle (x : Walk) (taken : List (Nat × Nat)) (loose : Nat) (p : PathOpt) : PathOpt :=
  if p.key.taken = taken ∧ p.key.loose = loose then p else { p with key := { p.key with taken := x.lost, loose := 0 } }

/-- The worst of the leases that some paths with one list of powers hold. -/
def topOpen (opened : List Nat) (ps : List PathOpt) : List Open :=
  (ps.filter (fun p => p.key.opened == opened)).foldl (fun h p => bothOpen Nat.max h p.held) (opened.map (fun w => (w, 0, 0)))

/-- Points with the paths that reach them. -/
abbrev Reach := List (Nat × List PathOpt)

/-- Points beyond any code: a function's return, the end of a path, and the end of a loop's trip. -/
def retKey : Nat := 2 ^ 30
def endKey : Nat := 2 ^ 30 + 1
def tripKey : Nat := 2 ^ 30 + 2

/-- The paths at a point. -/
def Reach.at (r : Reach) (k : Nat) : List PathOpt := ((r.find? (fun x => x.1 == k)).map (fun x => x.2)).getD []
/-- The points but one. -/
def Reach.without (r : Reach) (k : Nat) : Reach := r.filter (fun x => x.1 != k)
/-- Adds paths at a point. -/
def Reach.put (r : Reach) (k : Nat) (ps : List PathOpt) : Reach :=
  if ps.isEmpty then r else (k, ps.foldl (fun l p => addPath p l) (r.at k)) :: r.without k
/-- Joins two. -/
def Reach.merge (r r' : Reach) : Reach := r'.foldl (fun r x => r.put x.1 x.2) r

/-- The greatest spending of some paths. -/
def worst (ps : List PathOpt) : Spend := ps.foldl (fun s p => s.sup p.spend) Spend.zero

/-- Paths with more spent. -/
def spent (s : Spend) (ps : List PathOpt) : List PathOpt := ps.map (fun p => { p with spend := p.spend.add s })

/-- The energy of TX, STAMP and POLDER beyond their lines: the 0.3 nJ of ATM, scaled as ALU (R154, R315). -/
def stampBase (opclass : Nat) : Nat := nth 9600 [6080, 7760, 9600, 11680] opclass

/-- The latency of an MFSR or MTSR (R259): 60 cycles more for a register of a die that is not every cluster's of the launch. -/
def Walk.registerCycles (x : Walk) (index : Nat) : Nat :=
  if decide (index < 0x2200) || x.homes.all (fun d => d == (index - 0x2200) / 16) then 12 else 72

/-- The latency and energy of an instruction (R313 to R315, R154, R232, R259). The 0.3 nJ that an atomic or a reduction adds is the
same at every class (DESIGN CHOICE, log 111: Table 8 of R315 scales the base parts of transactions, stamps and polder operations, and
names no other). -/
def Walk.price (x : Walk) (k : Facts) (key : PathKey) (pc : Nat) (i : Instr) : Nat × Nat :=
  let p := x.place k i
  let e := (costOf i).energy x.img.opclass
  match costOf i with
  | .alu | .mul | .ctl => (4, e)
  | .long => (24, e)
  | .xch | .rng => (16, e)
  | .spr => (match i with
      | .mfsr _ _ m => x.registerCycles m.toNat
      | .mtsr _ _ m => x.registerCycles m.toNat
      | _ => 12, e)
  | .clk => (40, e)
  | .ld => (x.loadCycles p, accessEnergy p)
  | .st => (0, accessEnergy p)
  | .atm => (x.atomicCycles (scopeOf i).1 p, accessEnergy p + 9600)
  | .red => (0, accessEnergy p + 9600)
  | .ord => (match i with
      | .fence _ u _ _ => Nat.max (if bitOf u.toNat 1 then key.stores else 0) (if bitOf u.toNat 2 then key.reds else 0)
      | .pfence _ u _ => if bitOf u.toNat 0 then Nat.max key.stores key.reds else 0
      | _ => Nat.max key.stores key.reds, e)
  | .wait => (x.limitCycles pc, e)
  | .tx => (match i with
      | .txe _ => (2 * x.atomicCycles 4 .global, 16 * 35200)
      | _ => (4, 0))
  | .stamp => (x.atomicCycles 4 .global, 35200 + stampBase x.img.opclass)
  | .polder => (match i with
      | .pdisc _ _ _ _ => x.atomicCycles 3 .global + x.polderBytes / 128 / 8
      | _ => 3600 + x.polderBytes / 256, 35200 * (x.polderBytes / 128))
  | .lse => (if x.leaseNear k key.taken i then 60 else 120, e)
  | .cmd => (48 + (if (memRef i).isSome && p != .own then 64 else 0) + (if x.atHome (commandClass i) then 0 else 60)
      + (if readsTile i then x.limitCycles pc else 0), e)
  | .tbl | .tok => (24, e)
  | .tld => (140 + x.fused + x.limitCycles pc, 35200)
  | .loan => (12, e)
  | .spn => (60, e)
  | .sys => (match i with
      | .tlbi _ _ _ _ => 4000
      | .ctxsav _ _ _ => 40000
      | .ctxres _ _ _ _ => 12000
      | _ => 4, e)

/-- The window base after an instruction (R146). -/
def WinBase.after (b : WinBase) : Instr → WinBase
  | .wbase _ m => .value m.toNat
  | .wbadj _ m => (match b with
      | .value v => .value (v + m.toInt)
      | .entry d => .entry (d + m.toInt)
      | .left pc d => .left pc (d + m.toInt))
  | _ => b

/-- The abort path of the transaction that is active after an instruction, on its fall-through (R178, R181, R182). -/
def txAfter (pc : Nat) (t : Option Nat) : Instr → Option Nat
  | .txb _ m => some ((pc : Int) + m.toInt * 4).toNat
  | .txe _ => none
  | .txa _ => none
  | _ => t

/-- A lease held without a booking ends (R232): its power over what passed since its LEASE is spent. -/
def PathOpt.close (p : PathOpt) (o : Open) : PathOpt :=
  { p with spend := p.spend.add { Spend.zero with heldIssue := o.1 * o.2.1, heldPark := o.1 * o.2.2 } }.hold (p.held.erase o)

/-- A path after an LREL (R200, R232). Of a lease that the walk knows, that one ends; else, where every lease is without a booking, the
one of least power; else all of them once there have been as many LRELs. -/
def Walk.release (x : Walk) (p : PathOpt) (a : Nat) : PathOpt :=
  let least := minBy (fun w => w) 0xFFFFFFFF p.key.opened
  let ofPower := fun (w : Nat) => p.held.find? (fun (o : Open) => o.1 == w)
  match p.facts.lease a with
  | some (cls, n, true) => { p with key := { p.key with taken := p.key.taken.erase (cls, n) } }
  | some (cls, n, false) => ((ofPower (Config.sitePower cls x.img.opclass * n)).map p.close).getD p
  | none =>
    if x.img.leases.isEmpty then ((ofPower least).map p.close).getD p
    else if p.key.taken.contains uncounted then p
    else if p.key.loose + 1 < p.key.taken.length + p.key.opened.length then { p with key := { p.key with loose := p.key.loose + 1 } }
    else (let q := p.held.foldl PathOpt.close p
          { q with key := { q.key with taken := [], loose := 0 } })

/-- The leases of a path after an instruction that takes `n` issue slots and `park` cycles (R196, R200, R232): a LEASE takes a booking,
or opens a lease without one. -/
def Walk.leases (x : Walk) (p : PathOpt) (i : Instr) (n park : Nat) : PathOpt :=
  let go := fun (q : PathOpt) => q.hold (q.held.map (fun o => (o.1, o.2.1 + n, o.2.2 + park)))
  match i, x.opens p.facts p.key.taken i with
  | .lrel _ _ a, _ => go (x.release p a.toNat)
  | _, some w => (let q := go p; q.hold ((w, n, park) :: q.held))
  | .lease _ _ a _, none =>
    (let q := go p
     match leaseNamed p.facts a.toNat with
     | some d => { q with key := { q.key with taken := q.key.taken ++ [d] } }
     | none => q)
  | _, none => go p

/-- A path after one instruction (R313, R314): a run that closes adds its longest latency. -/
def Walk.stepPath (x : Walk) (pc : Nat) (i : Instr) (p : PathOpt) : PathOpt :=
  let q := x.price p.facts p.key pc i
  let at_ := x.atomicCycles (scopeOf i).1 (x.place p.facts i)
  let run := Nat.max p.key.run q.1
  let closes := closesRun i p.key.len
  let cls := costOf i
  let stores := match i with
    | .fence _ u _ _ => if bitOf u.toNat 1 then 0 else p.key.stores
    | .pfence _ u _ => if bitOf u.toNat 0 then 0 else p.key.stores
    | .slrel _ _ => 0
    | _ => if cls == .st then Nat.max p.key.stores (x.loadCycles (x.place p.facts i)) else p.key.stores
  let reds := match i with
    | .fence _ u _ _ => if bitOf u.toNat 2 then 0 else p.key.reds
    | .pfence _ u _ => if bitOf u.toNat 0 then 0 else p.key.reds
    | .slrel _ _ => 0
    | _ => if cls == .red then Nat.max p.key.reds at_ else p.key.reds
  let n := Nat.max cls.issue (cdiv (wordsRead i) x.level)
  let park := if closes then run else 0
  let p1 := x.leases p i n park
  { key := { run := if closes then 0 else run, len := if closes then 0 else p.key.len + 1, stores := stores, reds := reds,
             base := p.key.base.after i, tx := txAfter pc p.key.tx i, opened := p1.key.opened, taken := p1.key.taken, loose := p1.key.loose },
    facts := p.facts.after i (x.leaseResult p.facts p.key.taken i),
    spend := p1.spend.add { Spend.zero with
      issue := n, park := park, energy := q.2, det := if x.img.det && cls == .red && (scopeOf i).2 then 1 else 0,
      lends := x.lends p.facts p.key.taken i },
    held := p1.held }

/-! Refusals, loops, calls and the walk. -/

/-- A refusal of the walk: status and the PC at fault (R337). -/
abbrev WalkResult (α : Type) := Except (Nat × Nat) α

/-- STRUCTURE and BOUNDS (R337). -/
def structureAt {α : Type} (pc : Nat) : WalkResult α := .error (3, pc)
def boundsAt {α : Type} (pc : Nat) : WalkResult α := .error (4, pc)

/-- The slot at a PC. -/
def slotAt (code : List CodeSlot) (pc : Nat) : Option CodeSlot := code.find? (fun c => c.pc == pc)

/-- The function entries of an image: every PC after a header word (R143). -/
def functionEntries (code : List CodeSlot) : List Nat :=
  (code.filter (fun c => headerDepth c.word != 0 && c.instr.isNone)).map (fun c => c.pc + 4)

/-- The header word of a function entry. -/
def headerAt (code : List CodeSlot) (entry : Nat) : Nat :=
  if entry < 4 then 0 else ((slotAt code (entry - 4)).map (fun c => c.word)).getD 0

/-- A branch target the survey accepts (R309, items 1 to 3): forward, a word of the code, no literal and no header. -/
def targetOk (code : List CodeSlot) (pc : Nat) (off : Int) : Option Nat :=
  if off ≤ 0 then none
  else
    let t := pc + off.toNat * 4
    match slotAt code t with
    | some c => if headerDepth c.word != 0 && c.instr.isNone then none else some t
    | none => none

/-- Facts at the head of a loop's later trips: bounds that a trip moves by a constant are stretched over all of them. -/
def stretch (n : Nat) (k0 k1 : Facts) : Facts :=
  k1.filterMap (fun x => match k0.get x.1 with
    | some v => if x.2.sameKind v then
        (let lo := x.2.bounds.1 - v.bounds.1
         let hi := x.2.bounds.2 - v.bounds.2
         some (x.1, v.withBounds (Min.min v.bounds.1 (v.bounds.1 + (n - 1 : Nat) * lo)) (Max.max v.bounds.2 (v.bounds.2 + (n - 1 : Nat) * hi))))
        else none
    | none => none)

/-- Whether a trip from the stretched facts moves each bound as the first one did. -/
def stretchHolds (k0 k1 head tail : Facts) : Bool :=
  head.all (fun x => match k0.get x.1, k1.get x.1, tail.get x.1 with
    | some v, some w, some t =>
      t.sameKind v && decide (t.bounds.1 - x.2.bounds.1 = w.bounds.1 - v.bounds.1) && decide (t.bounds.2 - x.2.bounds.2 = w.bounds.2 - v.bounds.2)
    | _, _, _ => false)

/-- Facts of fields that no instruction of a loop's body writes, and that its window moves leave. -/
def unwritten (body : List CodeSlot) (k : Facts) : Facts :=
  let moved := body.any (fun c => match c.instr with
    | some (.wbase _ _) => true
    | some (.wbadj _ _) => true
    | some (.call _ _) => true
    | some (.callr _ _) => true
    | _ => false)
  k.filter (fun x => !(moved && decide (8 < x.1 + x.2.size)) && body.all (fun c => match c.instr with
    | some i => (writtenFields i).all (fun f => !rangesMeet x.1 x.2.size f.1 f.2)
    | none => true))

/-- The facts known by every path. -/
def commonFacts : List PathOpt → Facts
  | [] => []
  | p :: ps => ps.foldl (fun k q => k.join q.facts) p.facts

/-- What a call finds in its function: the worst path, the window bases it returns with, and acknowledgements then
outstanding, and whether its leases are then those that it found. -/
structure Callee where
  cost : Spend
  bases : List WinBase
  stores : Nat
  reds : Nat
  steady : Bool
  deriving DecidableEq, Repr

/-- The base after a call whose function returns with `b`. -/
def WinBase.through (caller : WinBase) (b : WinBase) : WinBase := match b, caller with
  | .value v, _ => .value v
  | .left pc d, _ => .left pc d
  | .entry d, .value v => .value (v + d)
  | .entry d, .entry e => .entry (e + d)
  | .entry d, .left pc e => .left pc (e + d)

/-- A function on the walk's call stack: its entry, the advance of w0:1 before the call it is in, and whether its calls to
itself are taken to leave the window base as it was (R145). -/
structure Frame where
  entry : Nat
  advance : Option Nat
  steady : Bool
  deriving DecidableEq, Repr

/-- The advance of w0:1 since the function's entry, where the walk knows it (R307). -/
def frameAdvance (k : Facts) : Option Nat := match k.get 0 with
  | some (.priv lo hi) => if lo = hi ∧ 0 ≤ lo then some lo.toNat else none
  | _ => none

/-- Whether the functions of a cycle meet R307, from their entries and the advances before the calls between them. -/
def cycleOk (code : List CodeSlot) (cycle : List Frame) : Bool :=
  let advances := cycle.filterMap (fun c => c.advance)
  let least := minBy (fun x => x) 0xFFFFFFFF advances
  decide (advances.length = cycle.length) && decide (16 ≤ least) &&
    cycle.all (fun c =>
      let h := headerAt code c.entry
      decide (2 ≤ headerDepth h) && decide (headerLimit h * 16 ≤ (headerDepth h - 1) * least))

/-- The functions of the call stack from `t` on, innermost first, where `t` is on it. -/
def cycleFrom (t : Nat) : List Frame → List Frame
  | [] => []
  | c :: cs => if c.entry = t then [c] else c :: cycleFrom t cs

/-- The greatest cost times depth of some functions (R310). -/
def callCost (fs : List (Nat × Callee)) : Spend := fs.foldl (fun s f => s.sup (f.2.cost.times f.1)) Spend.zero

/-- The paths after a call of some functions, of which one returns. -/
def afterCall (x : Walk) (ps : List PathOpt) (fs : List (Nat × Callee)) : List PathOpt :=
  let bases := dedup (fs.flatMap (fun f => f.2.bases))
  let stores := fs.foldl (fun n f => Nat.max n f.2.stores) 0
  let reds := fs.foldl (fun n f => Nat.max n f.2.reds) 0
  let steady := fs.all (fun f => f.2.steady)
  ps.flatMap (fun p => bases.map (fun b =>
    { key := { p.key with base := p.key.base.through b, stores := Nat.max p.key.stores stores, reds := Nat.max p.key.reds reds,
                          taken := if steady then p.key.taken else x.lost, loose := if steady then p.key.loose else 0 },
      facts := p.facts.filter (fun x => decide (x.1 + x.2.size ≤ 8)), spend := p.spend.add (callCost fs), held := p.held }))

/-- The facts at the kernel's or a continuation's entry: the apertures' bases, and w6, the thread's index (R16). -/
def kernelFacts (img : Image) : Facts := [(0, .priv 0 0), (4, .scratch 0 0), (6, .word 0 (img.largestWg - 1 : Nat))]

/-- The facts at a function's entry: of the fields that no window moves, what every path that calls it knows; in one that may be called
again from within, what no instruction changes besides. Its private frame is counted from the base that it is given (R306). Of a
function that no path calls, the aperture's base is known where nothing writes it. -/
def entryFacts (x : Walk) (t : Nat) (ps : List PathOpt) : Facts :=
  let known := (commonFacts ps).filter (fun y => decide (y.1 + y.2.size ≤ 8) && (match y.2 with
    | .lease _ _ => false
    | .word _ _ | .scratch _ _ | .priv _ _ => true))
  let given := if ps.isEmpty then unwritten x.code [(4, .scratch 0 0)] else if x.cyclic.contains t then unwritten x.code known else known
  (if ps.isEmpty || (Facts.get known 0).any (fun v => v.sameKind (.priv 0 0)) then [(0, .priv 0 0)] else []) ++ Facts.kill given 0 2

/-- The path that enters a function at a PC, or with none the kernel or a continuation, with the leases that all of some paths have taken,
if they agree. -/
def entryPath (x : Walk) (entry : Option Nat) (stores reds : Nat) (ps : List PathOpt) : PathOpt :=
  let taken := ((ps.head?).map (fun p => p.key.taken)).getD []
  let loose := ((ps.head?).map (fun p => p.key.loose)).getD 0
  let agree := ps.all (fun p => p.key.taken == taken && p.key.loose == loose)
  { key := { run := 0, len := 0, stores := stores, reds := reds, base := if entry.isNone then .value 0 else .entry 0, tx := none,
             opened := [], taken := if agree then taken else x.lost, loose := if agree then loose else 0 },
    facts := (entry.map (fun t => entryFacts x t ps)).getD (kernelFacts x.img), spend := Spend.zero, held := [] }

/-- Whether an instruction with S = 0 or 1 ends its path (R309, item 2). -/
def endsPath : Instr → Bool
  | .exit _ => true
  | .trap _ _ => true
  | .brk _ _ => true
  | .halt _ => true
  | _ => false

/-- The paths at the head of a loop's later trips: nothing spent yet, with the facts given, and the leases taken at the head of its
first one if they are the same. -/
def laterHead (x : Walk) (taken : List (Nat × Nat)) (loose : Nat) (t1 : List PathOpt) (k : Facts) : List PathOpt :=
  (t1.map (fun (p : PathOpt) =>
    let q : PathOpt := { p.settle x taken loose with facts := k, spend := Spend.zero, held := p.held.map (fun o => (o.1, 0, 0)) }
    q)).foldl (fun l p => addPath p l) []

/-- The paths after a loop's last trip: those after its first, with the other `n` trips spent. -/
def loopExits (t1 tn : List PathOpt) (k : Facts) (n : Nat) : List PathOpt :=
  t1.map (fun (p : PathOpt) => { p with
    facts := k,
    key := { p.key with stores := tn.foldl (fun z q => Nat.max z q.key.stores) p.key.stores,
                        reds := tn.foldl (fun z q => Nat.max z q.key.reds) p.key.reds },
    spend := p.spend.add ((worst tn).times n),
    held := bothOpen (fun a b => a + n * b) p.held (topOpen p.key.opened tn) })

/-- Points whose paths leave a loop in a later trip: the first one, and `n` trips between, are spent. -/
def spentReach (t1 tn : List PathOpt) (n : Nat) (r : Reach) : Reach :=
  r.map (fun x => (x.1, x.2.map (fun (p : PathOpt) => { p with
    spend := p.spend.add ((worst t1).add ((worst tn).times n)),
    held := bothOpen (fun a b => a + b) p.held (bothOpen (fun a b => a + n * b) (topOpen p.key.opened t1) (topOpen p.key.opened tn)) })))

/-- The paths that enter a loop: where its body may release a lease, those held so far count to the workgroup's end. -/
def loopEntry (body : List CodeSlot) (ps : List PathOpt) : List PathOpt :=
  if body.any (fun c => match c.instr with
    | some (.lrel _ _ _) => true
    | _ => false) then ps.map (PathOpt.keepOpen []) else ps

/-- Transfers of a TXB's abort path: no transaction is active there (R178). -/
def noTx (ps : List PathOpt) : List PathOpt := ps.map (fun (p : PathOpt) => { p with key := { p.key with tx := none } })

/-- Whether a transaction's instruction aborts (R179): one that it may not hold, or a scratchpad access, where the walk knows it. -/
def Walk.abortsTx (x : Walk) (ps : List PathOpt) (i : Instr) : Bool :=
  ps.any (fun p => p.key.tx.isSome && (!txAllowed i || ((memRef i).isSome && (x.place p.facts i == .own || x.place p.facts i == .otherScratch))))

/-- Whether a path leaves its transaction for certain at an instruction (R179, R182). -/
def Walk.leavesTx (x : Walk) (pc : Nat) (i : Instr) (p : PathOpt) : Bool :=
  p.key.tx.any (fun t => decide (pc < t)) && (x.abortsTx [p] i || (match i with
    | .txa _ => true
    | _ => false))

/-- The paths that take a transaction's abort path at an instruction: those that leave it for certain, and at TXE all, which may abort
there (R181), so that what follows the abort path is priced behind the longer of it and the path to TXE (R310). -/
def Walk.abortReach (x : Walk) (pc : Nat) (i : Instr) (ps : List PathOpt) : Reach :=
  ps.foldl (fun r p => match p.key.tx, i with
    | some t, .txe _ => if pc < t then r.put t (noTx [x.stepPath pc i p]) else r
    | some t, _ => if x.leavesTx pc i p then r.put t (noTx [x.stepPath pc i p]) else r
    | none, _ => r) []

/-- Whether a SPAWN names a target that the image does not declare, where the walk knows it (R239). -/
def undeclaredSpawn (img : Image) (ps : List PathOpt) : Instr → Bool
  | .spawn _ _ a _ => ps.any (fun p => match p.facts.word a.toNat with
      | some (lo, hi) => decide (lo = hi) && !img.spawns.any (fun d => (d.target : Int) == lo)
      | none => false)
  | _ => false

/-- d of R310: the declared depth of a function on a cycle of the call graph, else 1. -/
def Walk.depth (x : Walk) (t : Nat) : Nat := if x.cyclic.contains t then headerDepth (headerAt x.code t) else 1

/-- The walk over a list of slots (R310): from the paths that reach its points, those that leave it. Of a function that is on the call
stack already it knows the base afterwards only where the function returns it unchanged; R145 does not say how a base is followed
through a recursion, and one that gives another base is taken as unknown (DESIGN CHOICE, log 131). -/
def Walk.go (x : Walk) : Nat → List Frame → List CodeSlot → Reach → WalkResult Reach
  | 0, _, _, _ => structureAt 0
  | fuel + 1, stack, slots, r =>
    match slots with
    | [] => .ok r
    | c :: rest =>
      let ps := r.at c.pc
      let r0 := r.without c.pc
      if ps.isEmpty then x.go fuel stack rest r
      else
        match c.instr with
        | none => structureAt c.pc
        | some i =>
          if x.abortsTx ps i && x.toTxe.contains c.pc then structureAt c.pc
          else if undeclaredSpawn x.img ps i then boundsAt c.pc
          else
            let r0 := r0.merge (x.abortReach c.pc i ps)
            let ps := ps.filter (fun p => !x.leavesTx c.pc i p)
            if ps.isEmpty then x.go fuel stack rest r0
            else
            let qs := (ps.map (x.stepPath c.pc i)).foldl (fun l p => addPath p l) []
            let next := c.pc + c.size
            let call : Nat → List PathOpt → WalkResult Callee := fun t ps =>
              let adv := ps.foldl (fun a p => match a, frameAdvance p.facts with
                | some n, some m => if n = m then some n else none
                | _, _ => none) ((ps.head?.map (fun p => frameAdvance p.facts)).getD none)
              let stack' : List Frame := match stack with
                | [] => []
                | f :: fs => { f with advance := adv } :: fs
              match (stack.find? (fun f => f.entry == t) : Option Frame) with
              | some f =>
                if cycleOk x.code (cycleFrom t stack') then
                  (let bases := [if f.steady then WinBase.entry 0 else WinBase.left c.pc 0]
                   .ok { cost := Spend.zero, bases := bases, stores := 0, reds := 0, steady := false } : WalkResult Callee)
                else boundsAt c.pc
              | none =>
                let walk : Bool → WalkResult Callee := fun steady =>
                  match x.go fuel ({ entry := t, advance := none, steady := steady } :: stack') (x.code.filter (fun y => decide (t ≤ y.pc)))
                      [(t, [entryPath x (some t) (ps.foldl (fun n p => Nat.max n p.key.stores) 0) (ps.foldl (fun n p => Nat.max n p.key.reds) 0) ps])] with
                  | .error e => .error e
                  | .ok out =>
                    let rets := out.at retKey
                    let first := (entryPath x (some t) 0 0 ps).key
                    if out.any (fun y => decide (y.1 < retKey) || y.1 == tripKey) then structureAt c.pc
                    else (.ok { cost := (worst rets).sup (worst (out.at endKey)), bases := dedup (rets.map (fun p => p.key.base)),
                                stores := rets.foldl (fun n p => Nat.max n p.key.stores) 0,
                                reds := rets.foldl (fun n (p : PathOpt) => Nat.max n p.key.reds) 0,
                                steady := rets.all (fun p => p.key.taken == first.taken && p.key.loose == first.loose) } : WalkResult Callee)
                match walk true with
                | .error e => .error e
                | .ok f => if x.cyclic.contains t && f.bases.any (fun b => b != .entry 0) then walk false else .ok f
            let callAll := fun (ps : List PathOpt) =>
              (functionEntries x.code).foldl (fun acc t => match acc with
                | .error e => .error e
                | .ok fs => match call t ps with
                  | .error e => .error e
                  | .ok f => .ok ((x.depth t, f) :: fs)) (.ok [] : WalkResult (List (Nat × Callee)))
            let onward : Reach → Nat → (PathOpt → PathOpt) → List (Nat × Callee) → Reach := fun r key f fs =>
              if fs.all (fun g => g.2.bases.isEmpty) then r.put endKey (spent (callCost fs) (qs.map (PathOpt.keepOpen [])))
              else r.put key ((afterCall x qs fs).map f)
            match i with
            | .looph _ d m =>
              (match x.loops.find? (fun l => l.1 == c.pc) with
               | none => x.go fuel stack rest (r0.put next qs)
               | some (_, e) =>
                 let body := rest.filter (fun y => decide (y.pc ≤ e))
                 let after := rest.filter (fun y => decide (e < y.pc))
                 if body.any (fun y => !(r0.at y.pc).isEmpty) then structureAt c.pc
                 else
                   let n := m.toNat
                   let qs := loopEntry body qs
                   let kinds := dedup (qs.map (fun q => (q.key.base, q.key.opened, q.key.taken, q.key.loose)))
                   let one := fun (b : WinBase × List Nat × List (Nat × Nat) × Nat) =>
                     let qs := qs.filter (fun q => q.key.base == b.1 && q.key.opened == b.2.1 && q.key.taken == b.2.2.1 && q.key.loose == b.2.2.2)
                     let k0 := commonFacts qs
                     let trips := fun (o : Reach) => (o.at tripKey).map (PathOpt.keepOpen b.2.1)
                     match x.go fuel stack body [(next, qs)] with
                     | .error z => (.error z : WalkResult Reach)
                     | .ok first =>
                       let t1 := trips first
                       if t1.any (fun p => p.key.base != b.1) then structureAt e
                       else if n ≤ 1 ∨ t1.isEmpty then .ok ((first.without tripKey).put (e + 4) t1)
                       else
                         let k1 := commonFacts t1
                         let again := fun (k : Facts) => x.go fuel stack body [(next, laterHead x b.2.2.1 b.2.2.2 t1 k)]
                         let later := match again (stretch n k0 k1) with
                           | .error z => (.error z : WalkResult Reach)
                           | .ok o => if stretchHolds k0 k1 (stretch n k0 k1) (commonFacts (o.at tripKey)) then .ok o else again (unwritten body k1)
                         match later with
                         | .error z => .error z
                         | .ok o =>
                           let tn := trips o
                           if tn.any (fun p => p.key.base != b.1) then structureAt e
                           else
                             let k2 := (commonFacts tn).join k1
                             let out := Reach.merge (first.without tripKey) (spentReach t1 tn (n - 2) (o.without tripKey))
                             .ok (out.put (e + 4) (loopExits (t1.map (PathOpt.settle x b.2.2.1 b.2.2.2)) tn k2 (n - 1)))
                   match kinds.foldl (fun acc b => match acc with
                       | .error z => .error z
                       | .ok out => match one b with
                         | .error z => .error z
                         | .ok o => .ok (out.merge o)) (.ok r0 : WalkResult Reach) with
                   | .error z => .error z
                   | .ok out => if d.toNat < 128 then x.go fuel stack after out else structureAt c.pc)
            | .loope _ _ _ => if rest.isEmpty then x.go fuel stack rest (r0.put tripKey qs) else structureAt c.pc
            | .call _ m =>
              (let t := (c.pc : Int) + m.toInt * 4
               if t < 0 ∨ !(functionEntries x.code).contains t.toNat then boundsAt c.pc
               else match call t.toNat qs with
                 | .error e => .error e
                 | .ok f => x.go fuel stack rest (onward r0 next (fun p => p) [(x.depth t.toNat, f)]))
            | .callr _ _ =>
              (match callAll qs with
               | .error e => .error e
               | .ok fs => x.go fuel stack rest (onward r0 next (fun p => p) fs))
            | .jr _ _ =>
              (match callAll qs with
               | .error e => .error e
               | .ok fs => x.go fuel stack rest (onward r0 retKey (PathOpt.keepOpen []) fs))
            | .ret _ => x.go fuel stack rest (r0.put retKey (qs.map (PathOpt.keepOpen [])))
            | .br _ m =>
              (match targetOk x.code c.pc m.toInt with
               | none => structureAt c.pc
               | some t => x.go fuel stack rest (r0.put t qs))
            | .eret => structureAt c.pc
            | _ =>
              if endsPath i then x.go fuel stack rest (r0.put endKey (qs.map (PathOpt.keepOpen [])))
              else
                match branchOffset i with
                | none => x.go fuel stack rest (r0.put next qs)
                | some o =>
                  (match targetOk x.code c.pc o with
                   | none => structureAt c.pc
                   | some t =>
                     let jump := match i with
                       | .txb _ _ => noTx qs
                       | _ => qs
                     x.go fuel stack rest ((r0.put next qs).put t jump))

/-- The pairs of LOOPH and LOOPE, or the PC of a LOOPE that names none (R145): its target is the word after a LOOPH of
the same field. -/
def loopPairs (code : List CodeSlot) : WalkResult (List (Nat × Nat × Nat)) :=
  code.foldl (fun acc c => match acc, c.instr with
    | .ok ls, some (.loope _ d m) =>
      if c.pc < m.toNat * 4 + 4 then structureAt c.pc
      else (match (slotAt code (c.pc - m.toNat * 4 - 4)).bind (fun h => h.instr) with
        | some (.looph _ d' _) => if d = d' then .ok (ls ++ [(c.pc - m.toNat * 4 - 4, c.pc, d.toNat)]) else structureAt c.pc
        | _ => structureAt c.pc)
    | acc, _ => acc) (.ok [])

/-- The PC of a loop that does not nest, or whose body writes its counter (R145). -/
def badLoop (code : List CodeSlot) (ls : List (Nat × Nat × Nat)) : Option Nat :=
  ls.findSome? (fun l =>
    if ls.any (fun k => k != l && (k.1 == l.1 || (decide (l.1 < k.1) && decide (k.1 < l.2.1) && decide (l.2.1 < k.2.1)))) then some l.2.1
    else (code.find? (fun c => decide (l.1 < c.pc) && decide (c.pc < l.2.1) && (match c.instr with
      | some i => (writtenFields i).any (fun f => rangesMeet f.1 f.2 l.2.2 1)
      | none => false))).map (fun c => c.pc))

/-- Fuel that no walk of a code section exhausts: the slots of a function, once for each function on the call stack. -/
def walkFuel (code : List CodeSlot) : Nat := (code.length + 2) * ((functionEntries code).length + 2)

/-- The instruction whose fall-through leaves the code section at one of some PCs. -/
def lastBefore (code : List CodeSlot) (ends : List Nat) : Nat :=
  ((code.find? (fun c => ends.contains (c.pc + c.size))).map (fun c => c.pc)).getD 0

/-- What the walk of a function at a PC reaches, the kernel's own or one with a header; whether its calls to itself leave the window
base as it was is taken as given. -/
def Walk.reach (x : Walk) (kernel steady : Bool) (entry : Nat) : WalkResult Reach :=
  x.go (walkFuel x.code) [{ entry := entry, advance := none, steady := steady }] (x.code.filter (fun y => decide (entry ≤ y.pc)))
    [(entry, [entryPath x (if kernel then none else some entry) 0 0 []])]

/-- Whether a function leaves the window base as it was, given that its calls to itself do (R145). -/
def Walk.steadyAt (x : Walk) (entry : Nat) : Bool :=
  !x.cyclic.contains entry || (match x.reach false true entry with
    | .ok r => (r.at retKey).all (fun p => p.key.base == .entry 0)
    | .error _ => false)

/-- The walk of a function: its worst path (R310). -/
def Walk.walkFrom (x : Walk) (kernel : Bool) (entry : Nat) : WalkResult Spend :=
  match x.reach kernel (x.steadyAt entry) entry with
  | .error e => .error e
  | .ok r => if r.any (fun y => decide (y.1 < retKey) || y.1 == tripKey) then structureAt (lastBefore x.code (r.map (fun y => y.1)))
    else .ok ((worst (r.at retKey)).sup (worst (r.at endKey)))

/-- The worst path of a kernel or a continuation. -/
def Walk.cost (x : Walk) (entry : Nat) : WalkResult Spend := x.walkFrom true entry

/-- Functions are judged (R309, items 1 to 4), those that no path reaches too: the classes that their LEASEs may take on another
die. -/
def Walk.judge (x : Walk) (kernel : Bool) : List Nat → WalkResult Nat
  | [] => .ok 0
  | t :: ts => match x.walkFrom kernel t, x.judge kernel ts with
    | .ok a, .ok n => .ok (a.lends ||| n)
    | .error e, _ => .error e
    | _, .error e => .error e

/-! Checks of the code as a whole, and the release marks. -/

/-- A word with SPAWN's opcode whose argument field breaks its limits (R53, R239). -/
def badSpawn (w : Nat) : Bool := w / 2 ^ 21 % 1024 == 835 && (decide (122 < (fB w).toNat) || (fB w).toNat % 2 != 0)

/-- Conditions of R32, R66, R70, R178, R239, R303 and R309 (items 1, 3, 5 and 6) on the words of the code, whether or not a
path reaches them: the first one broken. -/
def codeFault (img : Image) (code : List CodeSlot) : Option (Nat × Nat) :=
  code.findSome? (fun c => match c.instr with
    | none => if badSpawn c.word then some (3, c.pc) else none
    | some i =>
      if isWaiting i && !img.bounds.any (fun b => b.1 == c.pc) then some (4, c.pc)
      else if (branchOffset i).any (fun o => (targetOk code c.pc o).isNone) then some (3, c.pc)
      else match i with
        | .spawn _ _ _ _ =>
          if img.spawns.any (fun d => d.site == c.pc) then none else some (4, c.pc)
        | .call _ m =>
          let t := (c.pc : Int) + m.toInt * 4
          if t < 0 ∨ !(functionEntries code).contains t.toNat then some (4, c.pc) else none
        | .redFadd _ _ f _ _ => if img.det && !f then some (3, c.pc) else none
        | .redHadd2 _ _ f _ _ => if img.det && !f then some (3, c.pc) else none
        | _ => none)

/-- What can follow an instruction (R237): through calls into their callees. -/
def followers (code : List CodeSlot) (c : CodeSlot) : List Nat :=
  match c.instr with
  | none => []
  | some i =>
    if endsPath i then []
    else match i with
      | .br _ m => [((c.pc : Int) + m.toInt * 4).toNat]
      | .call _ m => [c.pc + 4, ((c.pc : Int) + m.toInt * 4).toNat]
      | .callr _ _ => (c.pc + 4) :: functionEntries code
      | .loope _ _ m => [c.pc + 4, c.pc - m.toNat * 4]
      | .ret _ => []
      | .jr _ _ => functionEntries code
      | .eret => []
      | _ => [c.pc + c.size] ++ ((branchOffset i).map (fun o => ((c.pc : Int) + o * 4).toNat)).toList

/-- RGIVE, a barrier arrival at .core, and a RET or JR, which counts as reaching both (R237). -/
def releases : Instr → Bool
  | .rgive _ => true
  | .bara _ _ l _ => decide (l = 0)
  | .bar _ _ l _ => decide (l = 0)
  | .barx _ _ l _ => decide (l = 0)
  | .ret _ => true
  | .jr _ _ => true
  | _ => false

/-- Points from which one of `r` can be reached, after some rounds. -/
def reaching (succ : CodeSlot → List Nat) (code : List CodeSlot) : Nat → List Nat → List Nat
  | 0, r => r
  | n + 1, r =>
    let new := (code.filter (fun c => !r.contains c.pc && (succ c).any r.contains)).map (fun c => c.pc)
    if new.isEmpty then r else reaching succ code n (r ++ new)

/-- The release marks of an image (R237). -/
def releaseMarks (code : List CodeSlot) : List Nat :=
  let r := reaching (followers code) code code.length ((code.filter (fun c => (c.instr.map releases).getD false)).map (fun c => c.pc))
  (code.filter (fun c => (c.instr.map isWaiting).getD false && (followers code c).any r.contains)).map (fun c => c.pc)

/-- What follows an instruction in its own function: a call is followed by its return. -/
def stepsTo (code : List CodeSlot) (c : CodeSlot) : List Nat := match c.instr with
  | some (.call _ _) => [c.pc + 4]
  | some (.callr _ _) => [c.pc + 4]
  | some (.jr _ _) => []
  | _ => followers code c

/-- The PCs on some path to a TXE (R309, item 4). -/
def txePath (code : List CodeSlot) : List Nat :=
  reaching (stepsTo code) code code.length ((code.filter (fun c => match c.instr with
    | some (.txe _) => true
    | _ => false)).map (fun c => c.pc))

/-- Points that some can reach, after some rounds. -/
def reachedBy (succ : CodeSlot → List Nat) (code : List CodeSlot) : Nat → List Nat → List Nat
  | 0, r => r
  | n + 1, r =>
    let r' := dedup (r ++ (code.filter (fun c => r.contains c.pc)).flatMap succ)
    if r'.length = r.length then r else reachedBy succ code n r'

/-- SPAWN sites that a PC can reach, after some rounds. -/
def reachedFrom (code : List CodeSlot) (n : Nat) (r : List Nat) : List Nat := reachedBy (followers code) code n r

/-- The functions that an instruction may call (R143). -/
def callTargets (code : List CodeSlot) (c : CodeSlot) : List Nat := match c.instr with
  | some (.call _ m) => [((c.pc : Int) + m.toInt * 4).toNat]
  | some (.callr _ _) => functionEntries code
  | some (.jr _ _) => functionEntries code
  | _ => []

/-- The functions on a cycle of the call graph (R307). -/
def cyclicFunctions (code : List CodeSlot) : List Nat :=
  (functionEntries code).filter (fun t =>
    let r := reachedFrom code code.length [t]
    code.any (fun c => r.contains c.pc && (callTargets code c).contains t))

/-- The first function that declares a recursion depth of 2 or more and lies on no cycle (R307); its status is DEDUCED (log 95). -/
def depthFault (code : List CodeSlot) : Option Nat :=
  let cyclic := cyclicFunctions code
  ((functionEntries code).find? (fun t => decide (2 ≤ headerDepth (headerAt code t)) && !cyclic.contains t)).map (fun t => t - 4)

/-! Loops that no path reaches (R145). -/

/-- What follows an instruction on a path of the walk, where the functions of a list return. -/
def pathSteps (code : List CodeSlot) (back : List Nat) (c : CodeSlot) : List Nat := match c.instr with
  | some (.call _ m) => if back.contains ((c.pc : Int) + m.toInt * 4).toNat then [c.pc + 4] else []
  | some (.callr _ _) => if back.isEmpty then [] else [c.pc + 4]
  | some (.jr _ _) => []
  | _ => followers code c

/-- The functions that return, after some rounds. -/
def returning (code : List CodeSlot) : Nat → List Nat → List Nat
  | 0, back => back
  | n + 1, back =>
    returning code n ((functionEntries code).filter (fun t =>
      let r := reachedBy (pathSteps code back) code code.length [t]
      code.any (fun c => r.contains c.pc && (match c.instr with
        | some (.ret _) => true
        | some (.jr _ _) => !back.isEmpty
        | _ => false))))

/-- The loops that no path of some functions reaches, but for those inside another of them. -/
def Walk.unreached (x : Walk) (entries : List Nat) : List (Nat × Nat) :=
  if x.loops.isEmpty then []
  else
    let r := reachedBy (pathSteps x.code (returning x.code ((functionEntries x.code).length + 1) [])) x.code x.code.length entries
    let far := x.loops.filter (fun l => !r.contains l.1)
    far.filter (fun l => !far.any (fun k => decide (k.1 < l.1) && decide (l.2 < k.2)))

/-- Such a loop's body is followed too, from a window base that nothing is known of: one that it cannot prove is refused (DEDUCED, log
112). -/
def Walk.provesLoop (x : Walk) (l : Nat × Nat) : Bool :=
  let p := entryPath x (some l.1) 0 0 []
  match x.go (walkFuel x.code) [{ entry := l.1, advance := none, steady := false }]
      (x.code.filter (fun y => decide (l.1 ≤ y.pc) && decide (y.pc ≤ l.2))) [(l.1, [{ p with facts := [], key := { p.key with base := .left l.1 0 } }])] with
  | .ok _ => true
  | .error _ => false

/-- Every loop that no path of some functions reaches keeps the window base (R145). -/
def Walk.deadLoops (x : Walk) (entries : List Nat) : WalkResult Unit :=
  match (x.unreached entries).find? (fun l => !x.provesLoop l) with
  | some l => structureAt l.2
  | none => .ok ()

end Sys2Proof.Machine
end

