-- ==== Sys2Proof/Machine/Survey.lean ====
section
/-! DEFINITION. The survey unit (R299 to R305, R311, R312, R316, R336 to R339, R343, R344, R371): the checks of an image and
a launch, where a launch would run, its price, its quotation and its hold. -/

namespace Sys2Proof.Machine

/-- A refusal of a survey: status and detail (R337). -/
abbrev SurveyResult (α : Type) := Except (Nat × Nat) α

/-- The first place of a list of conditions that is broken. -/
def firstBad (cs : List (Bool × Nat)) : Option Nat := (cs.find? (fun c => c.1)).map (fun c => c.2)

/-- Refuses with a status at the first broken place. -/
def refuseAt (status : Nat) (cs : List (Bool × Nat)) : SurveyResult Unit := match firstBad cs with
  | some d => .error (status, d)
  | none => .ok ()

/-! The image (R299 to R305). `w` reads a word of it by its offset. -/

/-- The sections: offset of the header word that places each, its place, its bytes (Table 1 of R299). -/
def imageSections (w : Nat → Nat) : List (Nat × Nat × Nat) :=
  [(0x20, w 0x20, w 0x24), (0x2C, w 0x2C, 8 * w 0x30), (0x34, w 0x34, 32 * w 0x38), (0x3C, w 0x3C, 32), (0x40, w 0x40, 16 * w 0x44),
   (0x48, w 0x48, 8 * w 0x4C), (0x50, w 0x50, w 0x54)]

/-- The rules of Table 1 on the header's own words (R299). -/
def headerRules (w : Nat → Nat) : List (Bool × Nat) :=
  let secs := (imageSections w).filter (fun x => x.2.2 != 0)
  [(w 0 != 0x4B483921, 0), (w 8 / 4 != 0, 8), (w 0xC / 64 != 0 || bitOf (w 0xC) 3, 0xC),
   (w 0x10 / 2 ^ 18 != 0 || bits (w 0x10) 15 10 != 0 || decide (512 < w 0x10 % 1024), 0x10),
   (w 0x14 % 4 != 0 || decide (65536 < w 0x14), 0x14), (decide (262144 < w 0x18), 0x18), (decide (1024 < w 0x1C), 0x1C),
   (w 0x24 % 4 != 0 || w 0x24 == 0 || decide (2 ^ 20 < w 0x24), 0x24), (w 0x28 % 4 != 0 || decide (w 0x24 ≤ w 0x28), 0x28),
   (decide (64 < w 0x38), 0x38), (decide (256 < w 0x44), 0x44), (decide (8 < w 0x4C), 0x4C), (decide (w 0x58 < 0x80), 0x58)]
    ++ (rangeFrom 0x17 9).map (fun k => (w (4 * k) != 0, 4 * k))
    ++ secs.map (fun x => (x.2.1 % 8 != 0 || decide (x.2.1 < 0x80) || decide (w 0x58 < x.2.1 + x.2.2), x.1))
    ++ secs.flatMap (fun x => secs.map (fun y => (decide (x.1 < y.1) && rangesMeet x.2.1 x.2.2 y.2.1 y.2.2, y.1)))

/-- The workgroup size: 0 stands for 512 (R299). -/
def imageWg (w : Nat → Nat) : Nat := if w 0x10 % 1024 = 0 then 512 else w 0x10 % 1024

/-- The rules of the role table (R24, R302). -/
def roleRules (w : Nat → Nat) : List (Bool × Nat) :=
  let n := w 0x10 / 2 ^ 16 % 4 + 1
  let at_ := fun k => w 0x3C + 8 * k
  (rangeFrom 0 4).map (fun k =>
    let c := w (at_ k)
    let r := w (at_ k + 4)
    (if k < n then c == 0 || decide (1 < n ∧ c % 32 ≠ 0) || decide (r < 16) || decide (1024 < r) || r % 8 != 0 else c != 0 || r != 0, at_ k))
    ++ [((rangeFrom 0 n).foldl (fun x k => x + w (at_ k)) 0 != imageWg w, at_ 0)]

/-- The rules of a region entry (R301, R305); `dies` are the partition's. -/
def regionRules (w : Nat → Nat) (dies : List Nat) : List (Bool × Nat) :=
  let n := w 0x38
  let at_ := fun k => w 0x34 + 32 * k
  (rangeFrom 0 n).flatMap (fun k =>
    let o := at_ k
    let a := w o
    let kind := a % 16
    let size := w (o + 8) + w (o + 12) * 2 ^ 32
    let page := if bitOf (w (o + 16)) 4 then 2 ^ 21 else 2 ^ 16
    let sl := a / 2 ^ 16
    [(kind == 0 || decide (4 < kind) || bits a 15 11 != 0 || bits a 7 6 != 0, o),
     (if kind = 4 then decide (bits a 10 8 < 1) || decide (5 < bits a 10 8) else bits a 10 8 != 0, o),
     ((kind == 2 || kind == 4) && (sl != 0 || bitOf a 4), o),
     (sl != 0 && (decide (n < sl) || w (at_ (sl - 1)) % 16 != 4), o),
     (bitOf a 5 && (kind != 1 || k + 1 != n || size != w 0x54 || w 0x54 == 0), o),
     (if kind = 2 then w (o + 4) % 128 != 0 || w (o + 4) == 0 || decide (size < w (o + 4)) else w (o + 4) != 0, o),
     ((kind == 2 && (size % page != 0 || size == 0)) || (kind == 3 && size % 128 != 0) || (kind == 4 && size != 64), o),
     (decide (32 ≤ w (o + 16)) || (kind == 2 && !dies.contains (w (o + 16) % 8)), o),
     (w (o + 20) != 0 || w (o + 24) != 0 || w (o + 28) != 0, o)])
    ++ [(w 0x54 != 0 && (n == 0 || !bitOf (w (at_ (n - 1))) 5), 0x54)]

/-- The rules of the spawn and lease tables that need no code (R303, R304). -/
def spawnRules (w : Nat → Nat) : List (Bool × Nat) :=
  let at_ := fun k => w 0x40 + 16 * k
  (rangeFrom 0 (w 0x44)).map (fun k =>
    let o := at_ k
    let z := w (o + 12)
    (w (o + 8) == 0 || decide (65535 < w (o + 8)) || decide (z % 2048 < 16) || decide (1024 < z % 2048) || z % 8 != 0 || bits z 15 11 != 0
      || decide (2 ^ 19 ≤ z) || w (o + 4) % 4 != 0 || decide (w 0x24 ≤ w (o + 4))
      || (rangeFrom 0 k).any (fun j => w (at_ j + 4) == w (o + 4) && w (at_ j + 12) != z), o))
  ++ (rangeFrom 0 (w 0x4C)).map (fun k =>
    let o := w 0x48 + 8 * k
    (decide (4 < w o % 8) || decide (bits (w o) 10 5 < 1) || decide (32 < bits (w o) 10 5) || w o / 2 ^ 11 != 0 || w (o + 4) != 0, o))

/-- The bound table (R66). -/
def imageBounds (w : Nat → Nat) : List (Nat × Nat) :=
  (rangeFrom 0 (w 0x30)).map (fun k => (w (w 0x2C + 8 * k), w (w 0x2C + 8 * k + 4)))

/-- The rules of the bound table's order and limits (R66). -/
def boundRules (w : Nat → Nat) (code : List CodeSlot) : List (Bool × Nat) :=
  (rangeFrom 0 (w 0x30)).map (fun k =>
    let o := w 0x2C + 8 * k
    let n := w (o + 4)
    let txb := match (slotAt code (w o)).bind (fun c => c.instr) with
      | some (.txb _ _) => true
      | _ => false
    ((k != 0 && decide (w o ≤ w (o - 8))) || (if txb then n == 0 || decide (255 < n) else n == 0xFFFFFFFF), o))

/-- Table entries that name no instruction of their kind (R66, R303): refused with BOUNDS. -/
def tableRules (w : Nat → Nat) (code : List CodeSlot) : List (Bool × Nat) :=
  (rangeFrom 0 (w 0x30)).map (fun k => (match (slotAt code (w (w 0x2C + 8 * k))).bind (fun c => c.instr) with
      | some i => !(isWaiting i || readsTile i)
      | none => true, w 0x2C + 8 * k))
  ++ (rangeFrom 0 (w 0x44)).map (fun k => (match (slotAt code (w (w 0x40 + 16 * k))).bind (fun c => c.instr) with
      | some (.spawn _ _ _ _) => false
      | _ => true, w 0x40 + 16 * k))

/-- The image of a header and tables that obey their rules. -/
def imageOf (w : Nat → Nat) : Image where
  det := bitOf (w 8) 0
  fuse := bitOf (w 8) 1
  opclass := w 0xC / 16 % 4
  energy := w 0xC % 8
  roles := (rangeFrom 0 (w 0x10 / 2 ^ 16 % 4 + 1)).map (fun k => (w (w 0x3C + 8 * k), w (w 0x3C + 8 * k + 4)))
  wgSize := imageWg w
  priv := w 0x14
  scratch := w 0x18
  tiles := w 0x1C
  codeOff := w 0x20
  codeLen := w 0x24
  entry := w 0x28
  bounds := imageBounds w
  regions := (rangeFrom 0 (w 0x38)).map (fun k =>
    let o := w 0x34 + 32 * k
    { kind := w o % 16, readonly := bitOf (w o) 5, shared := bitOf (w o) 4, sluice := w o / 2 ^ 16, scope := bits (w o) 10 8,
      capacity := w (o + 4), size := w (o + 8) + w (o + 12) * 2 ^ 32, bigPage := bitOf (w (o + 16)) 4, late := bitOf (w (o + 16)) 3,
      home := w (o + 16) % 8, base := 0 })
  spawns := (rangeFrom 0 (w 0x44)).map (fun k =>
    let o := w 0x40 + 16 * k
    { site := w o, target := w (o + 4), bound := w (o + 8), alloc := w (o + 12) % 2048, energy := bits (w (o + 12)) 18 16 })
  leases := (rangeFrom 0 (w 0x4C)).map (fun k => let z := w (w 0x48 + 8 * k); (z % 8, bits z 4 3 + 1, bits z 10 5))
  dataLen := w 0x54
  marks := []

/-- What the survey reads of an image: its header and tables, its code and its loops. -/
structure Surveyed where
  img : Image
  code : List CodeSlot
  loops : List (Nat × Nat)
  deriving DecidableEq, Repr

/-- A refusal of the walk, with its detail counted from the start of the image (R337). -/
def atCode {α : Type} (img : Image) (r : Except (Nat × Nat) α) : SurveyResult α := match r with
  | .ok x => .ok x
  | .error e => .error (e.1, img.codeOff + e.2)

/-- Checks an image (R299 to R305, R309): VERSION, HEADER, STRUCTURE and BOUNDS. -/
def surveyImage (w : Nat → Nat) (dies : List Nat) : SurveyResult Surveyed := do
  refuseAt 1 [(w 0 == 0x4B483921 && (w 4 / 2 ^ 16 != 1 || decide (3 < w 4 % 2 ^ 16)), 0)]
  refuseAt 2 (headerRules w ++ roleRules w ++ regionRules w dies ++ spawnRules w)
  let img := imageOf w
  let code := slotsFrom 0 false ((rangeFrom 0 (img.codeLen / 4)).map (fun k => w (img.codeOff + 4 * k)))
  refuseAt 2 (boundRules w code)
  refuseAt 4 (tableRules w code)
  refuseAt 4 [((depthFault code).isSome, img.codeOff + (depthFault code).getD 0)]
  match codeFault img code with
  | some e => .error (e.1, img.codeOff + e.2)
  | none => .ok ()
  let ls ← atCode img (loopPairs code)
  match badLoop code ls with
  | some pc => .error (3, img.codeOff + pc)
  | none => .ok ()
  .ok { img := { img with marks := releaseMarks code }, code := code, loops := ls.map (fun l => (l.1, l.2.1)) }

/-! Where a launch would run. -/

/-- Whether a launch holds or has reserved its resources (R338, R340). -/
def Launch.holds (l : Launch) : Bool := match l.stage with
  | .quoted | .residency | .running => l.quote.clusterMask != 0
  | .surveying | .ended => false

/-- Whether a hold or a reservation covers a cluster (R348). -/
def State.covered (s : State) (c : Nat) : Bool := s.launches.any (fun l => l.holds && bitOf l.quote.clusterMask c)

/-- The pool that a waking cluster wakes into (R356, R358): the one that what covers it has named, else what its targets name. -/
def State.wakeClass (s : State) (c : Nat) : Nat := if s.covered c then (s.cluster c).pool else (s.cluster c).nextPool

/-- Whether a cluster could run a class, and whether it must wake first (R348, R356); one that wakes already runs in the pool that it
wakes into, and one of a die that has tripped off runs nothing (R359). -/
def State.fitsPool (s : State) (c opclass : Nat) : Option Bool :=
  let x := s.cluster c
  if x.withdrawn || (s.die (c / 2)).tripped then none
  else match x.gate with
    | .active | .idle _ => if x.pool = opclass then some false else none
    | .gating _ => if x.pool = opclass then some true else none
    | .waking _ => if s.wakeClass c = opclass then some true else none
    | .gated => some true

/-- The clusters of some dies that a launch may take beside the launches `holders`: those of its pool that run, or those that must wake
(R356). -/
def State.freeClusters (s : State) (holders : List Launch) (dies : List Nat) (opclass : Nat) (wake : Bool) : List Nat :=
  (rangeFrom 0 16).filter (fun c => dies.contains (c / 2) && !holders.any (fun l => bitOf l.quote.clusterMask c) && s.fitsPool c opclass == some wake)

/-- The cores of a cluster that a quotation covers: the first, and the end, within the cluster. -/
def Quote.span (q : Quote) (c : Nat) : Nat × Nat :=
  if bitOf q.clusterMask c then
    let k := 128 * (q.clusters.filter (fun d => decide (d < c))).length
    (Nat.min 128 (q.firstCore - k), Nat.min 128 (q.firstCore + q.cores - k))
  else (0, 0)

/-- Cores of a cluster from one on that no holder covers. -/
def coreGap (holders : List Launch) (c start : Nat) : Nat :=
  let spans := holders.map (fun (l : Launch) => l.quote.span c)
  if spans.any (fun x => decide (x.1 ≤ start) && decide (start < x.2)) then 0
  else minBy (fun x => x.1) 128 (spans.filter (fun x => decide (start < x.1) && decide (x.1 < x.2))) - start

/-- Runs of `n` cores that no holder covers, in clusters that others share (DEDUCED from R357, which speaks of every hold or
reservation on a cluster, log 92): cluster and first core. -/
def State.sharedRuns (s : State) (holders : List Launch) (dies : List Nat) (opclass n : Nat) : List (Nat × Nat) :=
  let all := (rangeFrom 0 16).filter (fun c => dies.contains (c / 2) && holders.any (fun l => bitOf l.quote.clusterMask c)
    && s.fitsPool c opclass == some false)
  all.flatMap (fun c => ((0 :: holders.map (fun (l : Launch) => (l.quote.span c).2)).filter (fun k => decide (n ≤ coreGap holders c k))).map (fun k => (c, k)))

/-- Workgroups of a core for a grid over some cores (R26, R311). -/
def Image.perCore (x : Image) (count cores : Nat) : Nat := Nat.min x.admission (cdiv count (Nat.max 1 cores))

/-- Continuation workgroups of a core (R26, R28): 32 threads of the largest declared allocation and weight. -/
def Image.spawnCore (x : Image) : Nat :=
  if x.spawns.isEmpty then 0
  else
    let words := x.spawns.foldl (fun n d => Nat.max n d.alloc) 16
    let weight := x.spawns.foldl (fun n d => Nat.max n (Config.energyWeight d.energy)) 1
    Nat.min (Nat.min 16 (2048 / words)) (Nat.min (fits 256 x.granules) (32 / weight))

/-- The workgroup slots of a core (R343, R347). -/
def Image.slotsPerCore (x : Image) (count cores : Nat) : Nat := Nat.max (x.perCore count cores) x.spawnCore

/-- Books the declared leases of one slot on a die (R343): the lowest-indexed free sites of each class. -/
def bookSlot (free : Nat → Nat → Bool) (slot die : Nat) : List (Nat × Nat × Nat) → List Booking → Option (List Booking)
  | [], bs => some bs
  | d :: ds, bs =>
    let sites := ((rangeFrom (Config.classFirst d.1) (Config.classCount d.1)).filter (fun i =>
      free die i && !bs.any (fun b => b.die == die && b.sites.contains i))).take d.2.1
    if sites.length < d.2.1 then none
    else bookSlot free slot die ds (bs ++ [{ slot := slot, die := die, cls := d.1, sites := sites, taken := none }])

/-- Books every slot of a reservation (R343). -/
def bookSlots (free : Nat → Nat → Bool) (leases : List (Nat × Nat × Nat)) : List (Nat × Nat) → List Booking → Option (List Booking)
  | [], bs => some bs
  | x :: xs, bs => match bookSlot free x.1 x.2 leases bs with
    | none => none
    | some bs => bookSlots free leases xs bs

/-- Whether some bookings hold a site. -/
def booksSite (bs : List Booking) (die i : Nat) : Bool := bs.any (fun b => b.die == die && b.sites.contains i)

/-- The class that a die's budget will be of once a reservation's clusters run (R355, R356). -/
def State.classAfter (s : State) (clusters : List Nat) (opclass die : Nat) : Nat :=
  let one := fun (c : Nat) => if clusters.contains c then opclass else match (s.cluster c).gate with
    | .waking _ => s.wakeClass c
    | .active | .idle _ | .gating _ | .gated => (s.cluster c).pool
  Nat.max (one (2 * die)) (one (2 * die + 1))

/-- What a site draws while it is powered and does not linger, of the launches that stay (R193, R201). -/
def State.drawBeside (s : State) (holders : List Launch) (die i : Nat) : Nat :=
  let x := s.siteOf die i
  if x.powered && !x.lingers && x.keeper.any (fun k => holders.any (fun l => l.ctx == k.1)) then siteDraw i x.opclass else 0

/-- Whether a die's sites are within budget with a reservation beside others (R343, R355): every booked site and every powered one,
but those that linger, which go dark when another needs their power (R201). -/
def State.bookingsFit (s : State) (holders : List Launch) (clusters : List Nat) (opclass : Nat) (bs : List Booking) (die : Nat) : Bool :=
  let site := fun (i : Nat) => Nat.max (if booksSite bs die i then siteDraw i opclass else 0)
    (holders.foldl (fun n l => if booksSite l.booked die i then Nat.max n (siteDraw i l.img.opclass) else n) (s.drawBeside holders die i))
  budgetHolds (s.classAfter clusters opclass die) (drawOf site)

/-- The bookings of a reservation beside those of `holders`, within budget on every die that it books on or whose budget it lowers
(R343, R355). A budget that falls as a cluster wakes for the hold must hold what every other launch has there then, whatever they will have
released when this one starts (R193). -/
def State.bookAll (s : State) (holders : List Launch) (img : Image) (clusters cores : List Nat) (slots : Nat) : Option (List Booking) :=
  let free := fun die i => s.sitePresent die i && !holders.any (fun l => booksSite l.booked die i)
  let wanted := (cores.zip (rangeFrom 0 cores.length)).flatMap (fun c => (rangeFrom 0 slots).map (fun k => (c.2 * slots + k, coreDie c.1)))
  match if img.leases.isEmpty then some [] else bookSlots free img.leases wanted [] with
  | none => none
  | some bs =>
    let judged := (dedup (clusters.map (fun c => c / 2))).filter (fun d =>
      bs.any (fun b => b.die == d) || decide (s.classAfter clusters img.opclass d < s.budgetClass d))
    let lowered := judged.filter (fun d => decide (s.classAfter clusters img.opclass d < s.budgetClass d))
    if judged.all (s.bookingsFit holders clusters img.opclass bs)
        && lowered.all (s.bookingsFit (s.launches.filter Launch.holds) clusters img.opclass []) then some bs else none

/-- A reservation: clusters, cores, slots of a core and bookings. -/
structure Placement where
  clusters : List Nat
  first : Nat
  cores : Nat
  slots : Nat
  booked : List Booking
  deriving DecidableEq, Repr

/-- The reservation of `n` cores of some clusters from the `first` one on, if its bookings fit. -/
def State.placeCores (s : State) (holders : List Launch) (img : Image) (count : Nat) (clusters : List Nat) (first n : Nat) : Option Placement :=
  let used := clusters.take (cdiv (first + n) 128)
  let cores := ((used.flatMap (fun c => rangeFrom (c * 128) 128)).drop first).take n
  let slots := img.slotsPerCore count n
  if n = 0 ∨ img.admission = 0 then none
  else if !s.waysHold holders img used || !tilesFit holders img used then none
  else (s.bookAll holders img used cores slots).map (fun bs => { clusters := used, first := first, cores := n, slots := slots, booked := bs })

/-- The reservation of a launch in clusters of its own (R34, R107, R311): with `.fuse` whole ones, else one core a workgroup while there
are cores; fewer where the bookings need it. -/
def State.placeOwn (s : State) (holders : List Launch) (img : Image) (count : Nat) (cs : List Nat) : Option Placement :=
  if img.fuse then
    let n := Nat.min cs.length (cdiv count 128)
    (rangeFrom 0 n).findSome? (fun k => s.placeCores holders img count cs 0 (128 * (n - k)))
  else
    let n := Nat.min count (128 * cs.length)
    (rangeFrom 0 n).findSome? (fun k => s.placeCores holders img count cs 0 (n - k))

/-- The reservation of a launch in a run of cores beside others (log 92). -/
def State.placeShared (s : State) (holders : List Launch) (img : Image) (count : Nat) (dies : List Nat) : Option Placement :=
  let m := if img.fuse then 0 else Nat.min count 127
  (rangeFrom 0 m).findSome? (fun k =>
    (s.sharedRuns holders dies img.opclass (m - k)).findSome? (fun x => s.placeCores holders img count [x.1] x.2 (m - k)))

/-- The reservation of a launch on a partition beside `holders` (R34, R343, R356): in `.det` every logical core; else in clusters of its
pool that run, its own or beside others, and failing these in clusters that have to wake. -/
def State.placeLaunch (s : State) (holders : List Launch) (img : Image) (count : Nat) (dies : List Nat) : Option Placement :=
  if img.det then
    let every := (rangeFrom 0 16).filter (fun c => dies.contains (c / 2))
    if every.all (fun c => !holders.any (fun l => bitOf l.quote.clusterMask c) && (s.fitsPool c img.opclass).isSome) then
      s.placeCores holders img count every 0 (256 * dies.length)
    else none
  else
    match s.placeOwn holders img count (s.freeClusters holders dies img.opclass false), s.placeShared holders img count dies with
    | some p, _ | none, some p => some p
    | none, none => s.placeOwn holders img count (s.freeClusters holders dies img.opclass true)

/-- A partition's machine with nothing on it and every cluster gated: what it could come to hold (R337, R356). -/
def State.emptied (s : State) : State := { s with launches := [], clusters := s.clusters.map (fun c => { c with gate := .gated }) }

/-! The price. -/

/-- The walk's inputs for a placement (R154, R316, R319). -/
def walkOf (x : Surveyed) (p : Placement) (level partition : Nat) (tiers : List Nat) (hostPool : Bool) : Walk :=
  let oc := x.img.opclass
  let far := tiers.any (fun t => t != 0)
  let dies := dedup (p.clusters.map (fun c => c / 2))
  let polders := x.img.regions.filter (fun r => r.kind == 2)
  let others := x.img.regions.any (fun r => r.kind != 2)
  let here := fun (r : Region) => dies.all (fun d => d == r.home)
  let near := polders.map (fun r => if r.late then hbmCycles oc else if here r then 140 else 200)
  let base := if far then farCycles oc else if others || polders.isEmpty then hbmCycles oc else 0
  { img := x.img, code := x.code, loops := x.loops, level := level, globalCycles := near.foldl Nat.max base, far := far,
    near := decide (partition ≤ 1) || (!others && !polders.isEmpty && polders.all here), privCycles := if hostPool then farCycles oc else hbmCycles oc,
    polderBytes := polders.foldl (fun n r => Nat.max n r.size) 0, dies := partition, homes := dies, cyclic := cyclicFunctions x.code, toTxe := txePath x.code, lent := 0 }

/-- Greatest of each component over some functions. -/
def worstOf (x : Walk) : List Nat → WalkResult Spend
  | [] => .ok Spend.zero
  | e :: es => match x.cost e, worstOf x es with
    | .ok a, .ok b => .ok (a.sup b)
    | .error e, _ => .error e
    | _, .error e => .error e

/-- A generation of continuations: its records and its targets. -/
structure Generation where
  records : Nat
  targets : List Nat
  deriving DecidableEq, Repr

/-- The generation that one spawns (R303, R311): each thread the most records its sites may emit. -/
def nextGeneration (x : Surveyed) (threads : Nat) (entries : List Nat) : Generation :=
  let sites := fun e => (dedup ((x.img.spawns.filter (fun d => (reachedFrom x.code x.code.length [e]).contains d.site)).map (fun d => d.site)))
  let bound := fun site => ((x.img.spawns.find? (fun d => d.site == site)).map (fun d => d.bound)).getD 0
  let most := entries.foldl (fun n e => Nat.max n ((sites e).foldl (fun m z => m + bound z) 0)) 0
  { records := threads * most, targets := dedup (entries.flatMap (fun e => (x.img.spawns.filter (fun d => (sites e).contains d.site)).map (fun d => d.target))) }

/-- Every generation after one, at most `fuel`; none where they do not end (R30). -/
def generations (x : Surveyed) : Nat → Nat → List Nat → Option (List Generation)
  | 0, _, _ => none
  | fuel + 1, threads, entries =>
    let g := nextGeneration x threads entries
    if g.records = 0 then some []
    else (generations x fuel g.records g.targets).map (fun gs => g :: gs)

/-- Cycles of a class as whole ns (R311). -/
def cyclesNs (opclass cycles : Nat) : Nat := cdiv (cycles * 1000) (Config.clockMHz opclass)

/-- What a price has in it: worst time in ns, worst energy in nJ, overhead, and the most D-flagged reductions of a workgroup, a
continuation's of 32 threads among them (R344). -/
structure Price where
  time : Nat
  energy : Nat
  overhead : Nat
  reductions : Nat
  deriving DecidableEq, Repr

/-- The energy in 1/32 pJ of a workgroup's leases without a booking (R232): from LEASE to LREL or to the workgroup's end, for `a`
workgroups of `t` threads on a core, by the bound of R311. -/
def Walk.leaseUnits (x : Walk) (c : Spend) (a t : Nat) : Nat :=
  (c.lease * cyclesNs x.img.opclass (a * t * c.issue + c.park) + cyclesNs x.img.opclass (a * t * c.heldIssue + c.heldPark)) * 320

/-- The time and energy of continuation generations, in ns and 1/32 pJ (R311). Each generation's cycles are whole ns for themselves
(DESIGN CHOICE, log 113: the manual does not say whether they are rounded up once or one by one). -/
def continuationPrice (x : Walk) (p : Placement) : List Generation → WalkResult (Nat × Nat)
  | [] => .ok (0, 0)
  | g :: gs => match worstOf x g.targets, continuationPrice x p gs with
    | .ok c, .ok rest =>
      let a := Nat.max 1 x.img.spawnCore
      let n := cdiv g.records 32
      let waves := cdiv n (p.cores * a)
      let cost := x.leaseUnits c a 32
      .ok (rest.1 + 2000 + cyclesNs x.img.opclass (waves * (a * 32 * c.issue + c.park)), rest.2 + n * (32 * c.energy + cost))
    | .error e, _ => .error e
    | _, .error e => .error e

/-- The price of a launch of `count` workgroups (R311, R312). -/
def priceOf (x : Walk) (p : Placement) (count pages : Nat) (wake : Bool) (gens : List Generation) : WalkResult Price :=
  match x.cost x.img.entry, continuationPrice x p gens, worstOf x (dedup (gens.flatMap (fun g => g.targets))) with
  | .ok c, .ok k, .ok h =>
    let t := x.img.wgSize
    let a := x.img.perCore count p.cores
    let waves := cdiv count (p.cores * Nat.max 1 a)
    let pass := 24 + c.det * t * x.atomicCycles 4 .global
    let wave := a * t * c.issue + c.park
    let cycles :=
      if x.img.det && x.img.regions.any (fun r => r.shared) then count * (t * c.issue + c.park + pass)
      else waves * wave + (if x.img.det then count * pass else 0)
    let overhead := 2000 + 40 * pages + (if wake then 8000 else 0)
    let time := overhead + cyclesNs x.img.opclass cycles + k.1
    let power := p.booked.foldl (fun n b => n + b.sites.length * Config.sitePower b.cls x.img.opclass) 0
    let units := count * t * c.energy + k.2 + power * time * 320 + count * x.leaseUnits c a t
    .ok { time := time, energy := cdiv units 32000, overhead := overhead, reductions := Nat.max (c.det * t) (h.det * 32) }
  | .error e, _, _ => .error e
  | _, .error e, _ => .error e
  | _, _, .error e => .error e

/-! The launch's own checks (R337, R339, R371). -/

/-- Whether an instruction writes a %pilv (R245, R371). -/
def writesPilv : Instr → Bool
  | .mtsr _ _ m => decide (0x2200 ≤ m.toNat) && decide (m.toNat < 0x2280) && m.toNat % 16 == 1
  | _ => false

/-- Whether an image holds an MTSR to a %pilv index (R371). -/
def Surveyed.pilv (x : Surveyed) : Bool := x.code.any (fun c => (c.instr.map writesPilv).getD false)

/-- Alignment of a region's base (R121, R158, R187): a polder's page, a sluice's 64 bytes, a stamped region's line; none is stated
for an ordinary one (R286). -/
def Region.baseAlign (r : Region) : Nat := if r.kind = 2 then r.pageBytes else if r.kind = 4 then 64 else if r.kind = 3 then 128 else 1

/-- RANGE (R337): the first region whose base is refused. -/
def rangeRefused (quote : Nat) (regions : List Region) : Option Nat :=
  firstBad ((regions.zip (rangeFrom 0 regions.length)).map (fun x =>
    (x.1.base % x.1.baseAlign != 0 || decide (Config.privateBase < x.1.base + x.1.size)
      || (x.1.kind != 2 && (pagesOfRange x.1.base x.1.size).any (fun p => Config.pageForecast quote p % 5 == 4)), x.2)))

/-- The entry of a cadastre, by `w` over its words (R339): reserved fields, module, size, first, range and tag. -/
def cadastreOk (w : Nat → Nat) (n grid : Nat) (k : Nat) : Bool :=
  let o := 32 * k
  bits (w o) 31 16 == 0 && bits (w o) 5 3 == 0 && w (o + 4) == 0 && w (o + 24) == 0 && w (o + 28) == 0
    && w (o + 16) == w 16 && w (o + 20) == w 20 && decide (k < n) && decide (1 ≤ grid)
    && (bits (w o) 15 8 == Config.moduleNumber || Config.podReaches (bits (w o) 15 8))

/-- The ranks of a cadastre that name this module and a partition (R339). -/
def cadastreRanks (w : Nat → Nat) (n size first : Nat) : List Nat :=
  (rangeFrom 0 n).filter (fun k => bits (w (32 * k)) 15 8 == Config.moduleNumber && bits (w (32 * k)) 7 6 == size && w (32 * k) % 8 == first)

/-- What a launch is on one partition: rank, ranks, first workgroup, workgroups, and whether it spans modules (R339). -/
def cadastreRank (w : Nat → Nat) (n grid size first : Nat) : Option (Nat × Nat × Nat × Nat × Bool) :=
  if n = 0 then some (0, 1, 0, grid, false)
  else match cadastreRanks w n size first with
    | [k] =>
      let a := w (32 * k + 8)
      let m := w (32 * k + 12)
      if decide (n ≤ 1024) && (rangeFrom 0 n).all (cadastreOk w n grid) && decide (1 ≤ m) && decide (a + m ≤ grid) then
        some (k, n, a, m, (rangeFrom 0 n).any (fun j => bits (w (32 * j)) 15 8 != Config.moduleNumber))
      else none
    | _ => none

/-! The survey of one launch. -/

/-- The lowest dies of the module's partitions. -/
def State.partitions (s : State) : List Nat := (rangeFrom 0 8).filter (fun d => s.partFirst d == d)

/-- A refusal's quotation (R337). -/
def refusedQuote (status detail : Nat) : Quote :=
  { status := status, detail := Nat.min detail 0xFFFFFF, deadline := 0, earliest := 0, worstTime := 0, worstEnergy := 0, context := 0,
    rationing := 0, cores := 0, wake := false, clusterMask := 0, firstCore := 0, sites := [], assumptions := 0, overhead := 0, perCore := 0, reductions := 0,
    shares := .none }

/-- When a launch that holds its resources releases them, by its quotation (R338). -/
def Launch.releaseAt (l : Launch) : Nat := (if l.startAt = 0 then l.quote.earliest else l.startAt) + l.quote.worstTime

/-- The hash of what a quotation assumed (R337): the first 64 bits of SHA-384 over the image, the range list, the cost-table
version, the class, the rationing level and the reservation set (log 9). The first byte of the digest is the most significant of the
number, which the quotation then holds like any other (DESIGN CHOICE, log 128). -/
def State.assumptions (s : State) (l : Launch) (img : Image) (level mask first cores : Nat) : Nat :=
  let image := s.readPhys 0 l.imageAddr (s.readNat 0 (l.imageAddr + 0x58) 4)
  let list := s.readPhys 0 l.rangeAddr (8 * img.regions.length)
  beNat ((sha384 (image ++ list ++ (Config.digestBytes 0 [s.firmware.serial, img.opclass, level, mask, first, cores]).map (BitVec.ofNat 8))).take 8)

/-- A placement once the first of some accepted launches, in the order in which they release, have released (R338), and when. -/
def State.placeAfter (s : State) (img : Image) (count : Nat) (dies : List Nat) (holds : List Launch) : Nat → List Launch → Option (Placement × Nat)
  | t, [] => (s.placeLaunch holds img count dies).map (fun p => (p, t))
  | t, a :: rest => match s.placeLaunch (holds ++ a :: rest) img count dies with
    | some p => some (p, t)
    | none => s.placeAfter img count dies holds (Nat.max t a.releaseAt) rest

/-- A placement beside every hold, and the moment at which launches already accepted release what it still lacks (R338). A launch
of operator priority is placed as if those without that flag had released theirs (R343). -/
def State.placeOrWait (s : State) (l : Launch) (img : Image) (count : Nat) (dies : List Nat) : Option (Placement × Nat) :=
  let others := s.launches.filter (fun x => x.holds && x.quoteId != l.quoteId && (!l.priority || x.priority))
  s.placeAfter img count dies (others.filter (fun x => !x.live)) 0
    (sortBy (fun (x y : Launch) => decide (x.releaseAt ≤ y.releaseAt)) (others.filter (fun x => x.live)))

/-- What a reservation keeps besides clusters and bookings (R340): spawn space of 32 bytes for each record that R30 counts, the
fallback frames of late-frame regions, the declared queue entries of every slot, and the power of the booked sites. -/
def sharesOf (img : Image) (p : Placement) (gens : List Generation) : Shares :=
  { spawn := 32 * (gens.map (fun (g : Generation) => g.records)).sum,
    frames := ((img.regions.filter (fun r => r.kind == 2 && r.late)).map (fun (r : Region) => cdiv r.size r.pageBytes * r.pageBytes)).sum,
    depth := p.cores * p.slots * (img.leases.map (fun x => x.2.1 * x.2.2)).sum,
    power := (p.booked.map (fun (b : Booking) => b.sites.length * Config.sitePower b.cls img.opclass)).sum }

/-- The identifier of the cadastre that a launch's SURVEY names (R339), 0 without one. -/
def State.cadastreTagOf (s : State) (l : Launch) : Nat := if l.cadastreLen = 0 then 0 else s.readNat 0 (l.cadastre + 16) 8

/-- What a launch is on a partition, by the cadastre that its SURVEY names (R339). -/
def State.rankOn (s : State) (l : Launch) (first : Nat) : Option (Nat × Nat × Nat × Nat × Bool) :=
  cadastreRank (fun o => s.readNat 0 (l.cadastre + o) 4) l.cadastreLen l.grid ((s.die first).pid.toNat / 64 % 4) first

/-- Whether another launch of the same cadastre already has a rank of this module (R339). -/
def State.rankTaken (s : State) (l : Launch) (rank : Nat) : Bool :=
  l.cadastreLen != 0 && s.launches.any (fun x =>
    x.holds && x.quoteId != l.quoteId && x.cadastreLen == l.cadastreLen && x.cadastreTag == s.cadastreTagOf l && x.rank == rank)

/-- The survey of a launch on a partition: the launch as it would run, or its refusal. RESOURCES says that the partition can never hold
it (R337); status 0 that only what will pass stands in the way: holds which nobody has accepted or declined yet, and clusters of another
pool, which change it once they have gated (R356; log 89). -/
def State.surveyOn (s : State) (l : Launch) (first : Nat) : SurveyResult Launch := do
  let dies := s.partDies first
  let w := fun o => s.readNat 0 (l.imageAddr + o) 4
  let x ← surveyImage w dies
  let regions := (x.img.regions.zip (rangeFrom 0 x.img.regions.length)).map (fun r => { r.1 with base := s.readNat 0 (l.rangeAddr + 8 * r.2) 8 })
  let x := { x with img := { x.img with regions := regions } }
  let place := fun p => Config.pageForecast l.quoteId p % 5
  match rangeRefused l.quoteId regions with
  | some k => .error (8, k)
  | none => .ok ()
  let bound := l.supervisor && x.pilv
  let strays := (regions.zip (rangeFrom 0 regions.length)).filter (fun r => r.1.kind == 2 || (pagesOfRange r.1.base r.1.size).any (fun p => place p != 2))
  refuseAt 8 [(bound && !inHostRange l.imageAddr (w 0x58), 0), (bound && !strays.isEmpty, (strays.head?.map (fun r => r.2)).getD 0)]
  match s.rankOn l first with
  | none => .error (9, 0)
  | some (rank, nrank, firstWg, count, spans) =>
    if decide (l.grid < 1) || decide (2 ^ 31 < l.grid) then .error (2, 0)
    else if !l.supervisor && dies.any (fun d => !s.takesWork d false) then .error (6, 0)
    else match s.placeOrWait l x.img count dies with
      | none => .error (if (s.emptied.placeLaunch [] x.img count dies).isSome then 0 else 5, 0)
      | some (p, after) =>
        let level := minBy (fun c => (s.cluster c).rationing) 3 p.clusters
        let wake := p.clusters.any (fun c => s.fitsPool c x.img.opclass == some true)
        let walk := walkOf x p level dies.length (x.img.pages.map (fun q => if place q = 0 then 0 else 1)) bound
        match generations x (x.img.spawns.length + 1) (count * x.img.wgSize) [x.img.entry] with
        | none => .error (5, 0)
        | some gens =>
          let functions := functionEntries x.code
          let entries := dedup (x.img.entry :: gens.flatMap (fun g => g.targets))
          let lent ← atCode x.img (walk.judge false functions)
          let lent' ← atCode x.img (walk.judge true entries)
          atCode x.img (walk.deadLoops (entries ++ functions))
          let walk := { walk with lent := lent ||| lent' }
          let price ← atCode x.img (priceOf walk p count x.img.pages.length wake gens)
          let mask := p.clusters.foldl (fun n c => n + 2 ^ c) 0
          let now := s.schedulerTime
          .ok { l with
            img := x.img, rank := rank, nrank := nrank, firstWg := firstWg, count := count, spansPod := spans, firstDie := first,
            cadastreTag := s.cadastreTagOf l, booked := p.booked, stage := .quoted,
            quote := { status := 0, detail := 0, deadline := now + 2000000, earliest := Nat.max now after, worstTime := price.time,
                       worstEnergy := price.energy, context := cdiv (p.cores * p.slots * areaBytes x.img price.reductions) (2 ^ 16),
                       rationing := level, cores := p.cores, wake := wake, clusterMask := mask, firstCore := p.first,
                       sites := (rangeFrom 0 5).map (fun c => (p.booked.filter (fun b => b.cls == c)).foldl (fun n b => n + b.sites.length) 0),
                       assumptions := s.assumptions l x.img level mask p.first p.cores, overhead := price.overhead, perCore := p.slots,
                       reductions := price.reductions, shares := sharesOf x.img p gens } }

/-- The first partition that takes a launch, else one whose open holds have to end first (status 0), else the refusal of the first
one (log 19). -/
def surveyFirst : List (SurveyResult Launch) → SurveyResult Launch
  | [] => .error (5, 0)
  | [r] => r
  | .ok l :: _ => .ok l
  | .error e :: rs => match surveyFirst rs with
    | .ok l => .ok l
    | .error f => .error (if f.1 = 0 then f else e)

/-- The partitions that may answer a SURVEY: each has its own of a cadastre (R339), so those that it names and whose rank no other
launch has, failing these those that it names, and where it names none every one. -/
def State.answering (s : State) (l : Launch) : List Nat :=
  let named := s.partitions.filter (fun d => (s.rankOn l d).isSome)
  let fresh := named.filter (fun d => !(s.rankOn l d).any (fun r => s.rankTaken l r.1))
  if !fresh.isEmpty then fresh else if !named.isEmpty then named else s.partitions

/-- The survey of a launch among the module's partitions (R339). -/
def State.surveyAll (s : State) (l : Launch) : SurveyResult Launch := surveyFirst ((s.answering l).map (s.surveyOn l))

/-- The survey of a launch (R336, R337, R378): BUSY while the account backlog is full or 64 quotations are open. -/
def State.surveyLaunch (s : State) (l : Launch) : SurveyResult Launch :=
  if 1024 ≤ s.account.length then .error (6, 0)
  else match s.surveyAll l with
    | .error e => .error e
    | .ok q => if 64 ≤ (s.launches.filter (fun x => x.stage == .quoted && x.holds)).length then .error (6, 0) else .ok q

/-- The words of a quotation record (R337). -/
def quoteWords (l : Launch) : List Nat :=
  let q := l.quote
  if q.status != 0 then [l.quoteId, q.status + q.detail * 2 ^ 8] ++ List.replicate 14 0
  else
    let half := fun x => [x % 2 ^ 32, x / 2 ^ 32 % 2 ^ 32]
    [l.quoteId, 0] ++ half q.deadline ++ half q.earliest ++ half q.worstTime ++ half q.worstEnergy
      ++ [q.cores % 2048 + q.rationing * 2 ^ 12 + l.img.opclass * 2 ^ 14 + q.context % 2 ^ 16 * 2 ^ 16,
          q.clusterMask + l.img.tiles * 2 ^ 16 + (if q.wake then 2 ^ 31 else 0)]
      ++ half (q.sites.foldr (fun n x => n % 4096 + 4096 * x) 0) ++ half q.assumptions

/-- A cluster that a hold or reservation covers from now on (R348): an idle timer stops; gating before isolation is undone;
a cluster past it, or gated, wakes into the named pool, to which it changes now, before it holds a reservation (R356, R382, log 126). -/
def Cluster.cover (c : Cluster) (now opclass : Nat) : Cluster := match c.gate with
  | .active | .idle _ => { c with gate := .active }
  | .gating t => if now < t + 1000 then { c with gate := .active } else { c with gate := .waking (t + 2000), pool := opclass, nextPool := opclass }
  | .gated => { c with gate := .waking now, pool := opclass, nextPool := opclass }
  | .waking _ => c

/-- Covers a cluster; where it changes its pool, the manifest is made anew (R382), and its die keeps within its new budget (R355). -/
def State.coverCluster (opclass : Nat) (s : State) (c : Nat) : State :=
  let s1 := s.modCluster c (fun x => x.cover s.now opclass)
  if (s1.cluster c).pool = (s.cluster c).pool then s1 else s1.newManifest.keepBudget (c / 2)

/-- Covers the clusters of a reservation. -/
def State.coverClusters (s : State) (mask opclass : Nat) : State := ((rangeFrom 0 16).filter (bitOf mask)).foldl (State.coverCluster opclass) s

/-- Clusters that nothing covers any more and where no workgroup is resident start their idle timers (R348). -/
def State.idleClusters (s : State) : State :=
  { s with clusters := s.clusters.map (fun c =>
      if c.gate == .active && !s.covered c.id
          && !s.wgs.any (fun w => w.resident && coreCluster w.core == c.id) then { c with gate := .idle s.now } else c) }

/-- What a launch held or reserved is free again (R338, R340). -/
def Launch.lapse (l : Launch) : Launch := { l with booked := [], quote := { l.quote with clusterMask := 0, shares := .none } }

/-- A hold lapses (R338): the quotation keeps nothing. -/
def State.dropHold (s : State) (quote : Nat) : State :=
  State.idleClusters { s with launches := s.launches.map (fun l => if l.quoteId == quote then l.lapse else l) }

/-- What a survey comes to: the launch with its quotation; none while it has to wait for open holds (R338, log 89). -/
def State.surveyed? (s : State) (l : Launch) : Option Launch := match s.surveyLaunch l with
  | .ok q => some q
  | .error e => if e.1 = 0 then none else some { l with stage := .ended, quote := refusedQuote e.1 e.2 }

/-- What a survey reads, by address and length: the image, at least its header, the range list and the cadastre (R336). -/
def State.surveyReads (s : State) (l : Launch) : List (Nat × Nat) :=
  [(l.imageAddr, Nat.max 128 (s.readNat 0 (l.imageAddr + 0x58) 4)), (l.rangeAddr, 8 * Nat.min 64 (s.readNat 0 (l.imageAddr + 0x38) 4)),
   (l.cadastre, 32 * Nat.min 1024 l.cadastreLen)]

/-- Blocks known bad that a survey reads on their way to the host die (R365, R366): a record and an error for each. No workgroup consumes
them, and the survey judges the bytes that it finds, since no status of R337 is for them (DESIGN CHOICE, log 130). -/
def State.surveyReports (s : State) (l : Launch) : State :=
  if s.badCheck.isEmpty then s
  else (s.surveyReads l).foldl (fun s r => (rangeFrom (r.1 / 128) (if r.2 = 0 then 0 else (r.1 + r.2 - 1) / 128 + 1 - r.1 / 128)).foldl (fun s b =>
    match s.rangeMismatch (128 * b) 128 with
    | none => s
    | some c => (s.reportBad (128 * b) 1 c).modDie (s.lineDie c.1) Die.countError) s) s

/-- SURVEY_COMPLETE (R336, R337, R338): the record, and the hold of an OK quotation. The unit works on four at once. -/
def State.surveyDone (s : State) (quote : Nat) : State :=
  if !(s.surveys.take 4).contains quote then s
  else
    let s0 := { s with surveys := s.surveys.filter (fun q => q != quote) }
    match s0.launches.find? (fun l => l.quoteId == quote && l.stage == .surveying) with
    | none => s0
    | some l => match s0.surveyed? l with
      | none => s
      | some done =>
        let s1 : State := { s0.surveyReports l with launches := s0.launches.map (fun (x : Launch) => if x.quoteId == quote then done else x) }
        (s1.coverClusters done.quote.clusterMask done.img.opclass).writeWords 0 l.recordAddr (quoteWords done)

/-- SURVEY_COMPLETE. -/
def execSurveyComplete (quote : Nat) (s : State) : Result1 := .next (s.surveyDone quote)

/-- QUOTE_DEADLINE_EXPIRY (R338): the hold of a quotation that nobody accepted lapses after its deadline. -/
def execQuoteDeadlineExpiry (quote : Nat) (s : State) : Result1 :=
  .next (match s.launches.find? (fun l => l.quoteId == quote && l.stage == .quoted && l.holds) with
    | none => s
    | some l => if l.quote.deadline < s.schedulerTime then s.dropHold quote else s)

end Sys2Proof.Machine
end

