-- ==== Sys2Proof/Machine/Rings.lean ====
section
/-! DEFINITION. Command rings and packets (R328 to R334, R354): which ring is served, a packet's checks, its steps and its
retirement. Packets and records lie at physical addresses of the partition that die 0 belongs to. -/

namespace Sys2Proof.Machine

/-! The ring in memory. -/

/-- A word of a ring's control block (Table 1 of R328). -/
def State.ringWord (s : State) (r : Ring) (k : Nat) : Nat := s.readNat 0 (r.block + 4 * k) 4
/-- A pair of words. -/
def State.ringPair (s : State) (r : Ring) (k : Nat) : Nat := s.readNat 0 (r.block + 4 * k) 8
/-- The address of the slot at the ring's ticket (R329). -/
def Ring.slotAddr (r : Ring) : Nat := r.segment + r.ticket % 64 * 64
/-- A word of the packet at the head of a ring. -/
def State.packet (s : State) (r : Ring) (k : Nat) : Nat := s.readNat 0 (r.slotAddr + 4 * k) 4
/-- A pair of words of it. -/
def State.packetPair (s : State) (r : Ring) (k : Nat) : Nat := s.readNat 0 (r.slotAddr + 4 * k) 8
/-- The packet's type, step index and flags (R331). -/
def State.packetType (s : State) (r : Ring) : Nat := s.packet r 0 / 2 ^ 24 % 256
def State.packetStep (s : State) (r : Ring) : Nat := s.packet r 0 / 2 ^ 18 % 4
def State.packetFlags (s : State) (r : Ring) : Nat := s.packet r 0 % 2 ^ 16

/-- Changes a ring. -/
def State.modRing (s : State) (k : Nat) (f : Ring → Ring) : State :=
  { s with rings := (s.rings.zip (rangeFrom 0 s.rings.length)).map (fun x => if x.2 = k then f x.1 else x.1) }

/-- Writes the error word of a ring (R332). -/
def State.ringError (s : State) (r : Ring) (code : Nat) : State := s.writeNat 0 (r.block + 20) 4 (code * 2 ^ 24 + r.ticket % 2 ^ 24)

/-- Zeroes word 0 of every slot of a drained segment (R330). -/
def State.clearSlots (s : State) (segment : Nat) : State := (rangeFrom 0 64).foldl (fun s k => s.writeNat 0 (segment + 64 * k) 4 0) s

/-- Writes the step index into the slot's header (R331, R334). -/
def State.writeStep (s : State) (r : Ring) (step : Nat) : State :=
  s.writeNat 0 r.slotAddr 4 (s.packet r 0 - s.packetStep r * 2 ^ 18 + step * 2 ^ 18)

/-! A packet's checks (R332, R333). -/

/-- The number of steps that a flag set selects. -/
def flagCount (flags : Nat) : Nat := (rangeFrom 0 3).foldl (fun n i => if bitOf flags i then n + 1 else n) 0

/-- Whether a reserved field of a packet is set, or a field is outside what it may hold (R331, R333, R336, R340, R354). -/
def State.packetReserved (s : State) (r : Ring) : Bool :=
  let w := s.packet r
  let f := s.packetFlags r
  let zero := fun a n => (rangeFrom a n).any (fun k => w k != 0)
  let share := decide (8 ≤ f) || bits (w 1) 31 16 != 0 || bits (w 1) 7 3 != 0 || w 7 != 0
    || (bitOf f 0 && (w 6 == 0 || s.packetPair r 2 % 8 != 0))
    || (bitOf f 1 && (decide (w 1 % 8 < 1) || decide (4 < w 1 % 8) || s.packetPair r 8 % 4 != 0))
    || (bitOf f 2 && s.packetPair r 10 % 8 != 0)
  bits (w 0) 17 16 != 0 ||
    match s.packetType r with
    | 1 => decide (16 ≤ f) || w 1 != 0
    | 2 => f != 0 || zero 14 2
    | 3 => f != 0 || zero 2 14
    | 4 => share || f != 2
    | 5 => share || f != 4
    | 6 => share || f != 1
    | 7 => share || f == 0
    | 8 => f != 0 || w 6 == 0 || decide (2 ^ 24 < w 6) || s.packetPair r 10 % 8 != 0
    | 9 => decide (2 ≤ f) || bits (w 1) 31 8 != 0 || w 5 != 0 || zero 8 8 || s.packetPair r 6 % 8 != 0
    | 10 => f != 0
    | _ => false

/-- The error of a packet that the scheduler does not act on (R332). -/
def State.packetFault (s : State) (r : Ring) : Option Nat :=
  let t := s.packetType r
  if 11 ≤ t then some 1
  else if r.version == 0 || s.packet r 0 / 2 ^ 20 % 16 != r.version then some 2
  else if s.packetReserved r then some 3
  else if !r.privileged && (t == 9 || (t == 1 && (bitOf (s.packetFlags r) 2 || bitOf (s.packetFlags r) 3))) then some 4
  else none

/-! Steps. -/

/-- The kinds of steps of the shared layout (R333): 0 wait, 1 write, 2 signal. -/
def stepKinds (flags : Nat) : List Nat := (rangeFrom 0 3).filter (bitOf flags)

/-- The kind of the step that a ring's head packet performs next. -/
def State.nextKind (s : State) (r : Ring) : Nat := nth 3 (stepKinds (s.packetFlags r)) (s.packetStep r)

/-- Whether a wait step's condition holds (R333). -/
def State.waitHolds (s : State) (r : Ring) : Bool := decide (s.packetPair r 4 ≤ s.readNat 0 (s.packetPair r 2) 8)

/-- Dies of a byte. -/
def diesOf (mask : Nat) : List Nat := (rangeFrom 0 8).filter (bitOf mask)

/-- Whether every named die is quiesced or refused, while a PARTITION packet's first step waits (R354). -/
def State.quiesceSettled (s : State) (r : Ring) : Bool := (diesOf (s.packet r 1)).all (fun d => (s.die d).quiesceAt.isNone)

/-- A quotation that nobody has accepted or declined. -/
def State.openQuote (s : State) (quote : Nat) : Option Launch := s.launches.find? (fun l => l.stage == .quoted && l.quoteId == quote)

/-- The words of a code section. -/
def State.codeWords (s : State) (l : Launch) : List Nat :=
  (rangeFrom 0 (l.img.codeLen / 4)).map (fun k => s.readNat 0 (l.imageAddr + l.img.codeOff + 4 * k) 4)

/-- Whether a supervisor launch's image writes a %pilv (R371). -/
def State.hostBound (s : State) (l : Launch) : Bool :=
  l.supervisor && (slotsFrom 0 false (s.codeWords l)).any (fun c => (c.instr.map writesPilv).getD false)

/-- NOPOOL (R340, R371): a pool that is too small to lie where it is named, a bad page-table root, or results of a bound
supervisor launch outside host-die memory. -/
def State.noPool (s : State) (l : Launch) (r : Ring) : Bool :=
  let pool := s.packetPair r 8
  let root := s.packetPair r 12
  root == 0 || root % 4096 != 0
    || (s.tierOf 0 pool).isNone || (l.quote.context != 0 && (s.tierOf 0 (pool + l.quote.context * 2 ^ 16 - 1)).isNone)
    || (s.hostBound l && !(inHostRange (s.packetPair r 2) (32 * s.packet r 4) && inHostRange (s.packetPair r 6) (64 + 64 * s.packet r 5)
          && inHostRange pool (l.quote.context * 2 ^ 16) && inHostRange (s.packetPair r 10) 64))

/-- Whether every die that a quotation covers takes the work of its launch (R351): a die that quiesces accepts no reservation, and the
ACCEPT waits until its quiesce is over (DEDUCED, log 119). -/
def State.mayReserve (s : State) (l : Launch) : Bool :=
  (rangeFrom 0 8).all (fun d => s.takesWork d l.supervisor || !(bitOf l.quote.clusterMask (2 * d) || bitOf l.quote.clusterMask (2 * d + 1)))

/-- Whether the ACCEPT at a ring's head waits: its message has no permit (R335), or a die of its quotation quiesces (R351, log 119).
What refuses the launch sends no message, and does not wait (R340). -/
def State.acceptWaits (s : State) (r : Ring) : Bool := match s.openQuote (s.packet r 1) with
  | none => false
  | some l => decide (s.schedulerTime ≤ l.quote.deadline) && !s.noPool l r && (!s.maySend l.quote.clusterMask || !s.mayReserve l)

/-- Whether the head packet of a ring blocks now: a wait whose condition does not hold and whose limit runs, or a quiesce
that is pending (R334, R354); or it is an ACCEPT that waits. -/
def State.ringBlocked (s : State) (r : Ring) : Bool :=
  (s.packetType r == 2 && (s.packetFault r).isNone && s.acceptWaits r) || r.blocked && (if s.packetType r = 9 then !s.quiesceSettled r
    else !s.waitHolds r && (match r.waitUntil with | some t => decide (s.now < t) | none => false))

/-- Whether a ring has a packet that the scheduler can act on (R329, R334). -/
def State.ringReady (s : State) (r : Ring) : Bool :=
  s.ringPair r 0 % 2 ^ 32 != r.ticket && s.packetType r != 0 && !s.ringBlocked r

/-- The ring that the scheduler serves next (R334): the one in service until its slice expires between packets, else the
ready ring of highest priority, in rotation from the last one served of that priority. -/
def State.servedRing (s : State) : Option Nat :=
  let idx := rangeFrom 0 s.rings.length
  let ready := fun k => (s.rings[k]?.map s.ringReady).getD false
  let keep := match s.inService with
    | none => none
    | some k => (s.rings[k]?).bind (fun r => if s.ringReady r && (decide (s.now < s.sliceEnd) || s.packetStep r != 0) then some k else none)
  match keep with
  | some k => some k
  | none =>
    let most := idx.foldl (fun m k => if ready k then Nat.max m ((s.rings[k]?.map (fun r => r.priority + 1)).getD 0) else m) 0
    let from_ := ((s.lastServed.find? (fun x => x.1 + 1 == most)).map (fun x => x.2 + 1)).getD 0
    let order := idx.filter (fun k => decide (from_ ≤ k)) ++ idx.filter (fun k => decide (k < from_))
    order.find? (fun k => ready k && (s.rings[k]?.map (fun r => r.priority + 1)).getD 0 == most)

/-- The scheduler turns to a ring: its slice begins, but for a packet whose steps the ring in service still completes (R334). -/
def State.serve (s : State) (k : Nat) (r : Ring) : State :=
  if s.inService == some k && (decide (s.now < s.sliceEnd) || s.packetStep r != 0) then s
  else { s with inService := some k, sliceEnd := s.now + r.slice * 1000, lastServed := (r.priority, k) :: s.lastServed.filter (fun x => x.1 != r.priority) }

/-- A ring that has no packet to act on, or whose packet blocks, loses the scheduler (R334). -/
def State.stepAway (s : State) (k : Nat) : State :=
  if s.inService == some k && !(s.rings[k]?.map s.ringReady).getD false then { s with inService := none } else s

/-- Retires the head packet (R330): retired counts on; after slot 63 the head segment moves to the LINK's target, and the
drained segment goes to the free list. -/
def State.retire (s : State) (k : Nat) (r : Ring) : State :=
  let target := s.packetPair r 2
  let s1 := s.writeNat 0 r.block 8 ((s.ringPair r 0 + 2 ^ 32) % 2 ^ 64)
  let next : Ring := { r with ticket := (r.ticket + 1) % 2 ^ 32, waitUntil := none, blocked := false, claimedAt := none }
  if r.ticket % 64 = 63 then
    let list := s.ringPair r 8
    let count := s.readNat 0 list 4
    let s2 := (s1.writeNat 0 (r.block + 8) 8 target).writeNat 0 (list + 8 + count % 511 * 8) 8 r.segment
    (((s2.writeNat 0 list 4 ((count + 1) % 2 ^ 32)).clearSlots r.segment).modRing k (fun _ => { next with segment := target, freed := r.freed + 1 })).stepAway k
  else (s1.modRing k (fun _ => next)).stepAway k

/-- The ring, if the scheduler serves it now and its head packet is one to act on, of a type. -/
def State.turn (s : State) (k type : Nat) : Option Ring :=
  match s.rings[k]? with
  | none => none
  | some r => if s.servedRing == some k && s.packetType r == type && (s.packetFault r).isNone then some r else none

/-- One step of the shared layout is done: the next step's index, or the packet's end. -/
def State.stepDone (s : State) (k : Nat) (r : Ring) : State :=
  if s.packetStep r + 1 < (stepKinds (s.packetFlags r)).length then
    (s.writeStep r (s.packetStep r + 1)).modRing k (fun r => { r with waitUntil := none, blocked := false })
  else s.retire k r

/-! Residency's fault records (R119, R342). -/

/-- The number that stands for a page of the context pool, by its place, among those of declared ranges. -/
def poolPage (k : Nat) : Nat := 2 ^ 48 + k

/-- Pages that a launch's residency finds missing (R119, R342, R395): declared ones that have no translation yet, asked for by 64 KiB,
since no leaf says their size (DESIGN CHOICE, log 116); and those of the context pool, which lies at physical addresses, whose touch is
left open (log 85). -/
def State.missingPages (s : State) (l : Launch) : List Nat :=
  l.img.pages.filter (fun p => (s.walk l.firstDie l (p * 2 ^ 16)).isNone)
    ++ ((rangeFrom 0 l.quote.context).filter (Config.poolMisses l.ctx)).map poolPage

/-- The address of a page that residency has asked for. -/
def Launch.pageAddress (l : Launch) (page : Nat) : Nat := if page < 2 ^ 48 then page * 2 ^ 16 else l.pool + (page - 2 ^ 48) * 2 ^ 16

/-- Whether a page that the driver has completed is there: a declared one needs its translation (R342). -/
def State.pageThere (s : State) (l : Launch) (page : Nat) : Bool := decide (2 ^ 48 ≤ page) || (s.walk l.firstDie l (page * 2 ^ 16)).isSome

/-- The page fault record that a first miss sends, with the page's completion doorbell (R342); the die that it names is the
launch's first (DEDUCED, log 96), and the access kind is 0, which the manual codes nowhere (DESIGN CHOICE, log 117). -/
def pageRecord (l : Launch) (page : Nat) : FaultRecord :=
  .page l.ctx (l.pageAddress page) l.firstDie 0 (Config.doorbellAt l.ctx page)

/-- Free entries of a die's fault merge table, which holds one for each page asked for (R119). -/
def State.mergeRoom (s : State) (die : Nat) : Nat :=
  1024 - ((s.launches.filter (fun l => l.live && l.firstDie == die)).map (fun l => l.asked.length)).sum

/-- Missing pages of a launch take the free entries of its die's table, and their records go to the driver (R119). -/
def State.askPages (s : State) (ctx : Nat) : State :=
  match s.launch ctx with
  | none => s
  | some l =>
    let next := (l.missing.filter (fun p => !l.asked.contains p)).take (s.mergeRoom l.firstDie)
    if next.isEmpty then s
    else { s.modLaunch ctx (fun l => { l with asked := l.asked ++ next }) with faultQueue := s.faultQueue ++ next.map (pageRecord l) }

/-- The launches in residency on a die, in turn (R119). -/
def State.askAll (s : State) (die : Nat) : State :=
  (s.launches.filter (fun l => l.live && l.firstDie == die && !l.missing.isEmpty)).foldl (fun s l => s.askPages l.ctx) s

/-- PAGE_FAULT_DOORBELL (R119, R342): 1 completes a page, and its waiting requests are replayed; 2, or a page still without
a translation, ends the launch. The entry is free for the next miss. -/
def State.doorbell (s : State) (ctx page : Nat) (mapped : Bool) : State :=
  match s.launch ctx with
  | none => s
  | some l =>
    if !l.asked.contains page then s
    else if mapped && s.pageThere l page then
      (s.modLaunch ctx (fun l => { l with missing := l.missing.filter (fun p => p != page), asked := l.asked.filter (fun p => p != page) })).askAll l.firstDie
    else ((s.modLaunch ctx (fun l => { l with missing := [], asked := [] })).callerFault ctx).askAll l.firstDie

/-- The pages whose doorbell lies at an address (R342). -/
def State.pagesAt (s : State) (addr : Nat) : List (Nat × Nat) :=
  (s.launches.filter (fun l => l.live)).flatMap (fun l =>
    (l.asked.filter (fun p => Config.doorbellAt l.ctx p == addr)).map (fun (p : Nat) => (l.ctx, p)))

/-- A word that a WRITE packet has written rings the doorbells at its address: 1 says mapped, 2 that the driver cannot (R342). -/
def State.ringBells (s : State) (addr word : Nat) : State :=
  if word = 1 ∨ word = 2 then (s.pagesAt addr).foldl (fun s p => s.doorbell p.1 p.2 (word == 1)) s else s

/-- The write step (R333), and the doorbells that it rings (R342). -/
def State.writeData (s : State) (r : Ring) : State :=
  let a := s.packetPair r 8
  let ws := (rangeFrom 12 (s.packet r 1 % 8)).map (s.packet r)
  (ws.zip (rangeFrom 0 ws.length)).foldl (fun s x => s.ringBells (a + 4 * x.2) x.1) (s.writeWords 0 a ws)

/-- Adds 1 to a signal word, at scope .sys (R333). -/
def State.addSignal (s : State) (addr : Nat) : State := s.writeNat 0 addr 8 ((s.readNat 0 addr 8 + 1) % 2 ^ 64)

/-- The signal step, and the interrupt after it (R333). -/
def State.signal (s : State) (r : Ring) : State :=
  let s1 := s.addSignal (s.packetPair r 10)
  let v := bits (s.packet r 1) 15 8
  if v = 0 then s1 else { s1 with interrupts := s1.interrupts ++ [v] }

/-- The wait step (R333, R334): it completes, expires with WAITEXPIRED, or blocks. -/
def State.waitStep (s : State) (k : Nat) (r : Ring) : State :=
  if s.waitHolds r then s.stepDone k r
  else match r.waitUntil with
    | none => (s.modRing k (fun r => { r with waitUntil := some (s.now + s.packet r 6), blocked := true })).stepAway k
    | some t => if t ≤ s.now then (s.ringError r 6).stepDone k r else s

/-- The next step of WRITE, SIGNAL, WAIT or WRITE_SIGNAL (R333). -/
def State.sharedStep (s : State) (k type : Nat) : State :=
  match s.turn k type with
  | none => s
  | some r =>
    let s := s.serve k r
    match s.nextKind r with
    | 0 => s.waitStep k r
    | 1 => (s.writeData r).stepDone k r
    | _ => (s.signal r).stepDone k r

/-- The copy of COPY (R333). Its bytes' check values are checked on their way (R365): a block that differs is reported, at exit or at a
move, and the transfer is aborted (R366; DEDUCED, log 118). -/
def State.copyBytes (s : State) (source target n : Nat) : State :=
  match s.rangeMismatch source n with
  | none => s.writePhys 0 target (s.readPhys 0 source n)
  | some c =>
    if (s.homeDie 0 target).isSome then (s.reportBad source 1 c).modDie (s.lineDie c.1) Die.countError else s.reportBad source 0 c

/-- The steps of COPY (R333): the copy, then the signal. -/
def State.copyStep (s : State) (k : Nat) : State :=
  match s.turn k 8 with
  | none => s
  | some r =>
    let s := s.serve k r
    if s.packetStep r = 0 then
      (s.copyBytes (s.packetPair r 2) (s.packetPair r 4) (s.packet r 6)).writeStep r 1
    else (s.addSignal (s.packetPair r 10)).retire k r

/-- A physical address that a packet step names and that lies in no range of R395. -/
def State.strayAddress (s : State) (xs : List Nat) : Option Nat := xs.find? (fun a => (s.tierOf 0 a).isNone)

/-- The addresses that the next step of a packet names. -/
def State.stepAddresses (s : State) (r : Ring) : List Nat :=
  let t := s.packetType r
  if t = 8 then (if s.packetStep r = 0 then [s.packetPair r 2, s.packetPair r 4] else [s.packetPair r 10])
  else if 4 ≤ t ∧ t ≤ 7 then
    (match s.nextKind r with
     | 0 => [s.packetPair r 2]
     | 1 => if (s.pagesAt (s.packetPair r 8)).isEmpty then [s.packetPair r 8] else []
     | _ => [s.packetPair r 10])
  else []

/-- Runs a packet step unless it names an absent address. -/
def State.guarded (s : State) (k type : Nat) (f : State → State) : Result1 :=
  match (s.turn k type).bind (fun r => s.strayAddress (s.stepAddresses r)) with
  | some a => .fault (.absentPhysical a)
  | none => .next (f s)

/-! PARTITION (R354). -/

/-- The dies of the form that a %pid names (Table 1 of R349). -/
def formDies (pid : Nat) : List Nat := rangeFrom (pid % 8) (nth 8 [2, 4, 8] (pid / 64 % 4))

/-- Whether the values of a PARTITION packet make a legal partition (R349). -/
def State.partitionLegal (s : State) (r : Ring) : Bool :=
  let named := diesOf (s.packet r 1)
  let pid := s.packet r 2
  let form := formDies pid
  bits pid 31 8 == 0 && bits pid 5 3 == 0 && pidLegal (BitVec.ofNat 32 pid) && named.all (fun d => form.contains d)
    && form.all (fun d => named.contains d || (s.die d).pid.toNat == pid)
    && s.packet r 3 == form.foldl (fun n d => n + 3 * 4 ^ d) 0
    && s.packet r 4 == (boundaries.zip (rangeFrom 0 10)).foldl (fun n b => if form.contains b.1.1 && form.contains b.1.2 then n + 2 ^ b.2 else n) 0

/-- Writes a value to one register of each of some dies. -/
def State.writeDies (s : State) (off : Nat) (v : Nat) (dies : List Nat) : State :=
  dies.foldl (fun s d => s.writeDieRegister (0x2200 + 16 * d + off) (BitVec.ofNat 32 v)) s

/-- Evicts the non-supervisor launches from some dies (R354): their workgroups are saved, with breach PARTITION. -/
def State.evictDies (s : State) (dies : List Nat) : State :=
  let mine := fun (w : Workgroup) => w.resident && dies.contains (coreDie w.core) && !withLaunch s w.ctx false (fun l => l.supervisor)
  let s1 := (s.wgs.filter mine).foldl (fun s w => s.preempt w.ctx w.wg 17) s
  { s1 with launches := s1.launches.map (fun l => if l.supervisor || !l.live then l else { l with suspended := l.suspended ++ dies }) }

/-- Ends the eviction from some dies. -/
def State.readmit (s : State) (dies : List Nat) : State :=
  { s with launches := s.launches.map (fun l => { l with suspended := l.suspended.filter (fun d => !dies.contains d) }) }

/-- The PARTITION packet's next step (R354): 0 quiesce, 1 shoot-down, 2 rewrite, 3 release. -/
def State.partitionStep (s : State) (k : Nat) : State :=
  match s.turn k 9 with
  | none => s
  | some r =>
    let s := s.serve k r
    let dies := diesOf (s.packet r 1)
    let status := fun (s : State) (v : Nat) => s.writeNat 0 (s.packetPair r 6) 4 v
    match s.packetStep r with
    | 0 =>
      if !s.partitionLegal r then (status s 2).retire k r
      else if !r.blocked then
        let s1 := if bitOf (s.packetFlags r) 0 then s.evictDies dies else s
        ((s1.writeDies 3 1 dies).modRing k (fun r => { r with blocked := true })).stepAway k
      else if !s.quiesceSettled r then s
      else match dies.find? (fun d => !bitOf (s.die d).pqc.toNat 8) with
        | some d =>
          ((status s (1 + d * 2 ^ 8 + bits (s.die d).pqc.toNat 31 16 * 2 ^ 16)).writeDies 3 2 (dies.filter (fun d => bitOf (s.die d).pqc.toNat 8))).readmit dies
            |>.retire k r
        | none => (s.writeStep r 1).modRing k (fun r => { r with blocked := false })
    | 1 => (match dies.head? with | some d => s.shootDown d 2 0 0 | none => s).writeStep r 2
    | 2 => (((s.writeDies 0 (s.packet r 2) dies).writeDies 1 (s.packet r 3) dies).writeDies 2 (s.packet r 4) dies).writeStep r 3
    | _ => (status ((s.writeDies 3 2 dies).readmit dies) 0).retire k r

/-! The rows. -/

/-- The packet version that a ring runs, by word 6 of its control block (R332, R368): the highest of both sides', none where the driver
states none (log 115). -/
def packetVersion (stated : Nat) : Nat := Nat.min 1 stated

/-- RING_REGISTER (R328): firmware registers a ring, at most 64, its first segment and its version read from its control block. -/
def execRingRegister (block priority slice : Nat) (privileged : Bool) (s : State) : Result1 :=
  if s.booted && decide (s.rings.length < 64) && block % 64 == 0 && inHost block && decide (priority ≤ 3) && decide (1 ≤ slice) && decide (slice ≤ 1000) then
    .next { s with rings := s.rings ++ [{ block := block, priority := priority, slice := slice, privileged := privileged,
                                          version := packetVersion (s.readNat 0 (block + 24) 4),
                                          ticket := s.readNat 0 (block + 4) 4, segment := s.readNat 0 (block + 8) 8, freed := 0,
                                          waitUntil := none, blocked := false, claimedAt := none }] }
  else .next s

/-- WRITE (R333). -/
def execWritePkt (ring : Nat) (s : State) : Result1 := s.guarded ring 4 (fun s => s.sharedStep ring 4)
/-- SIGNAL (R333). -/
def execSignalPkt (ring : Nat) (s : State) : Result1 := s.guarded ring 5 (fun s => s.sharedStep ring 5)
/-- WAIT (R333). -/
def execWaitPkt (ring : Nat) (s : State) : Result1 := s.guarded ring 6 (fun s => s.sharedStep ring 6)
/-- WRITE_SIGNAL (R333): its next selected step. -/
def execWriteSignal (ring : Nat) (s : State) : Result1 := s.guarded ring 7 (fun s => s.sharedStep ring 7)
/-- COPY (R333): its next step. -/
def execCopyPkt (ring : Nat) (s : State) : Result1 := s.guarded ring 8 (fun s => s.copyStep ring)
/-- PARTITION (R354): its next step. -/
def execPartition (ring : Nat) (s : State) : Result1 := .next (s.partitionStep ring)
/-- LINK (R330, R333): its retirement in slot 63 moves to the next segment. -/
def execLink (ring : Nat) (s : State) : Result1 :=
  .next (match s.turn ring 10 with
    | none => s
    | some r => (s.serve ring r).retire ring r)

/-- A SURVEY with a privileged flag on an ordinary ring is refused with status PRIV, beside the ring's error (R332, R337;
log 29). -/
def State.refusePriv (s : State) (r : Ring) (code : Nat) : State :=
  if s.packetType r = 1 ∧ code = 4 then
    { s with nextQuote := s.nextQuote + 1 }.writeWords 0 (s.packetPair r 14) ([s.nextQuote, 7] ++ List.replicate 14 0)
  else s

/-- PACKET_REFUSED (R332): the packet is retired, and the error word says why. -/
def execPacketRefused (ring : Nat) (s : State) : Result1 :=
  .next (match s.rings[ring]? with
    | none => s
    | some r => (match s.packetFault r with
      | none => s
      | some code => if s.servedRing == some ring then (((s.serve ring r).ringError r code).refusePriv r code).retire ring r else s))

/-- SLOT_UNWRITTEN_TIMEOUT (R332): the scheduler counts from when it finds the claimed slot unwritten; 1 ms later it writes
UNWRITTEN and goes on waiting. -/
def execSlotUnwrittenTimeout (ring : Nat) (s : State) : Result1 :=
  .next (match s.rings[ring]? with
    | none => s
    | some r =>
      if s.ringPair r 0 % 2 ^ 32 == r.ticket || s.packetType r != 0 then s
      else match r.claimedAt with
        | none => s.modRing ring (fun r => { r with claimedAt := some s.now })
        | some t => if t + 1000000 ≤ s.now then (s.ringError r 5).modRing ring (fun r => { r with claimedAt := some s.now }) else s)

/-- SLICE_EXPIRY (R334): between packets, the ring in service loses the scheduler when its slice has run out. -/
def execSliceExpiry (s : State) : Result1 :=
  .next (match s.inService.bind (fun k => s.rings[k]?) with
    | none => s
    | some r => if decide (s.sliceEnd ≤ s.now) && s.packetStep r == 0 then { s with inService := none } else s)

/-- WAIT_STEP_RESUME (R334): the scheduler returns to a blocked packet, whose wait has ended, at its step index. -/
def execWaitStepResume (ring : Nat) (s : State) : Result1 :=
  match s.rings[ring]? with
  | none => .next s
  | some r =>
    if r.blocked && !s.ringBlocked r then
      (if s.packetType r = 9 then .next (s.partitionStep ring) else s.guarded ring (s.packetType r) (fun s => s.sharedStep ring (s.packetType r)))
    else .next s

end Sys2Proof.Machine
end

