-- ==== Sys2Proof/Machine/LaunchEvents.lean ====
section
/-! DEFINITION. A launch from its SURVEY packet to its settlement (R336, R340 to R344, R376 to R379): acceptance, residency,
start, completion and the account. -/

namespace Sys2Proof.Machine

/-! The determinism manifest (R363, R364, R382). -/

/-- What a measurement block covers (R363). -/
def State.measured (s : State) : Nat → List Nat
  | 2 => [s.firmware.serial, s.firmware.securityVersion]
  | 3 => [s.firmware.serial]
  | 4 => s.dies.flatMap (fun d => [d.pid.toNat, d.pilv.toNat, d.pbnd.toNat])
  | 5 => s.dies.flatMap (fun d => d.deadSites ++ [1000] ++ d.badWays ++ [1000]) ++ s.clusters.flatMap (fun c => [c.spares, if c.withdrawn then 1 else 0])
      ++ s.stackSpares ++ [1000] ++ s.linkSpares.flatMap (fun x => [x.1, if x.2.1 then 1 else 0, x.2.2])
  | _ => []

/-- A measurement block's digest (R363). -/
def State.blockDigest (s : State) (index : Nat) : List Nat := sha384 ((Config.digestBytes index (s.measured index)).map (BitVec.ofNat 8))

/-- The determinism manifest's inputs (R364), and its generation (R382): measurements 1 to 5, the generator's version,
logical cores of each partition, pools, the ABI and packet versions. -/
def State.manifestContent (s : State) : List Nat :=
  (rangeFrom 1 5).flatMap s.blockDigest ++ [1]
    ++ s.partitions.map (fun d => 256 * (s.partDies d).length) ++ s.clusters.map (fun c => c.pool) ++ [1, 3, 1] ++ [s.manifestGen]

/-- The determinism manifest's digest (R364). -/
def State.manifestDigest (s : State) : List Nat := sha384 ((Config.digestBytes 16 s.manifestContent).map (BitVec.ofNat 8))

/-! Records. -/

/-- Two words of a 64-bit field. -/
def twoWords (x : Nat) : List Nat := [x % 2 ^ 32, x / 2 ^ 32 % 2 ^ 32]

/-- The words of a completion record (R341). -/
def completionWords (l : Launch) (state : Nat) : List Nat :=
  [l.quoteId, state + (if l.breach then 2 ^ 8 else 0) + l.ctx * 2 ^ 16] ++ twoWords l.startAt ++ twoWords l.endAt
    ++ twoWords (l.energyPj / 1000000 % 2 ^ 63 + (if l.energySat then 2 ^ 63 else 0)) ++ [l.traps, l.trapsDropped, l.svcDropped, l.retired] ++ List.replicate 4 0

/-- Writes a launch's completion record in a state (R341). -/
def State.writeCompletion (s : State) (l : Launch) (state : Nat) : State := s.writeWords 0 l.completion (completionWords l state)

/-- C of R379. A debug launch is settled with credit 0. -/
def Launch.settledCredit (l : Launch) : Nat := if l.debug then 0 else Nat.min 1000 l.credit

/-- The charge of a launch in its final state (R379). -/
def Launch.charge (l : Launch) (state : Nat) : Nat × Nat :=
  let qt := l.quote.worstTime
  let qe := l.quote.worstEnergy
  let mt := if l.startAt = 0 then 0 else l.endAt - l.startAt
  let me := if l.energySat then qe else l.energyPj / 1000000 * 1000
  let c := l.settledCredit
  if state = 3 then (qt * (1000 - c) / 1000, qe * (1000 - c) / 1000)
  else if state = 4 then (Nat.min qt mt * (1000 - c) / 1000, Nat.min qe me * (1000 - c) / 1000)
  else if state = 5 then (Nat.min qt (l.quote.overhead + mt), Nat.min qe me)
  else (0, 0)

/-- The words of a settlement record (Table 1 of R378). -/
def settlementWords (l : Launch) (state : Nat) : List Nat :=
  let c := l.charge state
  [l.quoteId, state + (if state < 16 then l.ctx * 2 ^ 16 else 0)] ++ twoWords c.1 ++ twoWords c.2
    ++ [l.settledCredit + Nat.min l.breaches 0x7FFF * 2 ^ 16 + (if l.manifestChanged then 2 ^ 31 else 0),
        if l.img.det && !l.debug then l.manifest else 0]

/-! SURVEY (R336). -/

/-- A launch as its SURVEY packet names it. -/
def State.surveyed (s : State) (r : Ring) : Launch :=
  let f := s.packetFlags r
  { quoteId := s.nextQuote, ctx := 0, stage := .surveying, cont := bitOf f 0, debug := bitOf f 1, supervisor := bitOf f 2, priority := bitOf f 3,
    imageAddr := s.packetPair r 2, rangeAddr := s.packetPair r 4,
    img := { det := false, fuse := false, opclass := 0, energy := 0, roles := [], wgSize := 1, priv := 0, scratch := 0, tiles := 0, codeOff := 0,
             codeLen := 0, entry := 0, bounds := [], regions := [], spawns := [], leases := [], dataLen := 0, marks := [] },
    grid := s.packet r 6, firstWg := 0, count := 0, rank := 0, nrank := 1, spansPod := false, seed := s.packetPair r 10, args := s.packetPair r 12,
    recordAddr := s.packetPair r 14, cadastre := s.packetPair r 8, cadastreLen := s.packet r 7, cadastreTag := 0, firstDie := 0, quote := refusedQuote 0 0,
    trapArea := 0, trapCap := 0, traps := 0, trapsDropped := 0, svcQueue := 0, svcEntries := 0, svcProduced := 0, svcDropped := 0, pool := 0,
    completion := 0, pageTable := 0, outcome := 3, startAt := 0, endAt := 0, retired := 0, breach := false, breaches := 0, credit := 0,
    energyPj := 0, energySat := false, manifestChanged := false, manifest := 0, missing := [], asked := [], pending := [], formed := [], kept := [],
    nextCont := 0, generation := 0, stopped := false, token := 0, passing := false, roots := [], booked := [], areas := [], suspended := [] }

/-- SURVEY (R336): the launch goes to the survey unit, and the packet retires. -/
def State.surveyPacket (s : State) (k : Nat) : State :=
  match s.turn k 1 with
  | none => s
  | some r =>
    let s := s.serve k r
    ({ s with launches := s.launches ++ [s.surveyed r], surveys := s.surveys ++ [s.nextQuote], nextQuote := s.nextQuote + 1 }).retire k r

/-! ACCEPT and DECLINE (R340). -/

/-- Replaces the launch of a quotation. -/
def State.putLaunch (s : State) (l : Launch) : State :=
  { s with launches := s.launches.map (fun (x : Launch) => if x.quoteId == l.quoteId then l else x) }

/-- The lowest context not in use, from one that the quotation's id gives (R340). -/
def State.freeContext (s : State) (quote : Nat) : Nat :=
  let start := quote % 65535
  (((rangeFrom 0 65535).map (fun k => (start + k) % 65535 + 1)).find? (fun c => !s.launches.any (fun l => l.live && l.ctx == c))).getD 0

/-- A launch refused at ACCEPT (R340, R377): its completion record and its settlement; the hold lapses. -/
def State.refuseAccept (s : State) (l : Launch) (state : Nat) : State :=
  let l1 := { l.lapse with stage := .ended }
  (((s.putLaunch l1).idleClusters).writeCompletion l1 state).settle (settlementWords l1 state)

/-- STALE (R340, R377): the breach record first. -/
def State.refuseStale (s : State) (l : Launch) : State :=
  if l.debug then s.refuseAccept l 16
  else
    let r := (breachWords l s.schedulerTime 3 34 0xFF 0xFF 1000).map (BitVec.ofNat 32)
    ({ s with staged := stageRecord r s.staged } : State).refuseAccept { l with breach := true, breaches := 1 } 16

/-- Whether every page of the context pool has the tier it must have (R344): HBM where the image has a private size. -/
def State.poolTier (s : State) (l : Launch) : Bool :=
  l.img.priv == 0 || (rangeFrom 0 l.quote.context).all (fun k =>
    if s.hostBound l then inHost (l.pool + k * 2 ^ 16) else s.tierOf l.firstDie (l.pool + k * 2 ^ 16) == some 0)

/-- The pool's areas, one for each slot, from its first 128-byte boundary on (R344). -/
def areasOf (l : Launch) (pool : Nat) : List Nat :=
  (rangeFrom 0 l.slots).map (fun k => cdiv pool 128 * 128 + k * areaBytes l.img l.quote.reductions)

/-- A launch that has been accepted, by its ACCEPT packet. That its quotation does not bind, where it is a debug launch (R257), stands in
the launch alone (DESIGN CHOICE, log 120: the manual gives no field of a record for it). The first byte of the manifest's digest is the
most significant one of its 32 bits (DESIGN CHOICE, log 128). -/
def State.accepted (s : State) (l : Launch) (r : Ring) : Launch :=
  let pool := s.packetPair r 8
  { l with stage := .residency, ctx := s.freeContext l.quoteId, trapArea := s.packetPair r 2, trapCap := s.packet r 4, svcEntries := s.packet r 5,
           svcQueue := s.packetPair r 6, pool := pool, completion := s.packetPair r 10, pageTable := s.packetPair r 12,
           areas := areasOf l pool, pending := [(l.firstWg, l.count)], token := l.firstWg, nextCont := l.grid,
           manifest := if l.img.det then beNat (s.manifestDigest.take 4) else 0 }

/-- Workgroups that an operator-priority launch displaces (R343): they are saved, and each launch that loses some has one breach
PRIORITY, which names the first one's die. -/
def State.displace (s : State) (l : Launch) : State :=
  if !l.priority then s
  else s.preemptAll (s.wgs.filter (fun w =>
    w.resident && w.ctx != l.ctx && withLaunch s w.ctx false (fun x => !x.priority && s.needs l x w.core w.slot))) 16

/-- Residency begins (R119, R342, R344): missing pages are sent to the driver; a pool of another tier ends the launch. -/
def State.beginResidency (s : State) (l : Launch) : State :=
  let s1 := (s.putLaunch { l with missing := s.missingPages l }).askPages l.ctx
  if s1.poolTier l then s1 else s1.callerFault l.ctx

/-- ACCEPT (R340): UNKNOWNQUOTE, STALE, NOPOOL, or the reservations, which the leaf controllers are told of (R335), the context
and residency. -/
def State.acceptPacket (s : State) (k : Nat) : State :=
  match s.turn k 2 with
  | none => s
  | some r =>
    let s := s.serve k r
    match s.openQuote (s.packet r 1) with
    | none => (s.ringError r 7).retire k r
    | some l =>
      let named := { l with completion := s.packetPair r 10 }
      if l.quote.deadline < s.schedulerTime then (s.refuseStale named).retire k r
      else if s.noPool l r then (s.refuseAccept named 17).retire k r
      else
        let a := s.accepted l r
        (((((s.message a.quote.clusterMask false).putLaunch a).writeCompletion a 1).displace a).beginResidency a).retire k r

/-- DECLINE (R340). -/
def State.declinePacket (s : State) (k : Nat) : State :=
  match s.turn k 3 with
  | none => s
  | some r =>
    let s := s.serve k r
    match s.openQuote (s.packet r 1) with
    | none => (s.ringError r 7).retire k r
    | some l => ((s.dropHold l.quoteId).putLaunch { l.lapse with stage := .ended }).retire k r

/-! Residency, start and end. -/

/-- The release count of every sluice of a launch is 0 at its start, and the object's other bytes read as zero (R158). -/
def State.clearSluices (s : State) (l : Launch) : State :=
  (l.img.regions.filter (fun r => r.kind == 4)).foldl (fun s r => match s.locate l.firstDie l r.base with
    | some t => s.writeHome t.key (List.replicate 64 0)
    | none => s) s

/-- What a launch's cores have read before goes at its start (R117, R263): every constant cache is invalidated, the TLBs of its
clusters hold its ranges (R33, R119), and the lines of its cores' L1s are read anew (log 77). -/
def State.freshStart (s : State) (l : Launch) : State :=
  let s1 : State := { s with copies := s.copies.filter (fun c => c.path != .con), tlb := s.builtTlb l l.quote.clusters }
  (s1.cores.filter (fun c => l.reservedCores.contains c.id)).foldl (fun s c => s.l1Refresh c.id (fun _ => true)) s1

/-- LAUNCH_START (R342): at the later of the earliest start and the last doorbell, when the leaf controllers are told (R335). -/
def State.startLaunch (s : State) (ctx : Nat) : State :=
  match s.launch ctx with
  | none => s
  | some l =>
    if l.stage == .residency && l.missing.isEmpty && l.outcome != 5 && decide (l.quote.earliest ≤ s.schedulerTime) && s.maySend l.quote.clusterMask then
      let l1 := { l with stage := .running, startAt := s.schedulerTime }
      ((((s.message l.quote.clusterMask false).putLaunch l1).clearSluices l1).freshStart l1).writeCompletion l1 2
    else s

/-- Whether everything of a launch is done (R341, R372, R177): every workgroup has retired, every record formed, every
access acknowledged, every engine entry completed, and the final token pass made. -/
def State.launchDone (s : State) (l : Launch) : Bool :=
  (l.stage == .running || l.outcome == 5) && l.pending.isEmpty && l.formed.isEmpty && l.kept.isEmpty
    && !s.wgs.any (fun w => w.ctx == l.ctx) && !s.flight.any (fun a => a.ctx == l.ctx)
    && !s.clusters.any (fun c => c.bins.any (fun b => b.ctx == l.ctx)) && !s.sites.any (fun x => x.queue.any (fun e => e.ctx == l.ctx))

/-- What a launch still holds of the device returns (R120, R124, R226): its polder lines are discarded, so that a later launch of
the context finds zeros at its first touch (R122). -/
def State.freeLaunch (s : State) (ctx : Nat) : State :=
  { s with
    mem := Cells.zero s.mem (polderKey ctx 0) (2 ^ 56),
    badCheck := s.badCheck.filter (fun c => !(decide (polderKey ctx 0 ≤ c.1 * 128) && decide (c.1 * 128 < polderKey ctx (2 ^ 56)))),
    tiles := s.tiles.filter (fun t => t.ctx != ctx || t.state == .free),
    polderLines := s.polderLines.filter (fun p => p.1 != ctx),
    polderPages := s.polderPages.filter (fun p => p.ctx != ctx),
    tlb := s.tlb.filter (fun t => t.ctx != ctx),
    cores := s.cores.map (fun (c : Core) => { c with l1 := c.l1.filter (fun x => x.ctx != ctx) }),
    evicted := s.evicted.filter (fun x => x.ctx != ctx) }

/-- LAUNCH_COMPLETE (R341, R377, R379): the final completion record, then the settlement. The end is when the last workgroup retired, or
now where none has. -/
def State.completeLaunch (s : State) (ctx : Nat) : State :=
  match s.launch ctx with
  | none => s
  | some l =>
    if !s.launchDone l || !s.mayReport l.quote.clusterMask then s
    else
      let l1 := { l with endAt := if l.retired = 0 then s.schedulerTime else l.endAt, startAt := if l.stage == .running then l.startAt else 0 }
      let ended := { l1.lapse with stage := .ended }
      (((((s.freeLaunch ctx).message l.quote.clusterMask true).putLaunch ended).idleClusters).writeCompletion l1 l.outcome).settle (settlementWords l1 l.outcome)

/-- ACCOUNT_BACKLOG_DRAIN (R378). -/
def State.drainAccount (s : State) : State :=
  match s.account with
  | [] => s
  | ws :: rest => if s.accountUsed < s.accountCap then ({ s with account := rest } : State).accountPut (ws.map (fun w => w.toNat)) else s

/-! The rows. -/

/-- SURVEY. -/
def execSurvey (ring : Nat) (s : State) : Result1 := .next (s.surveyPacket ring)
/-- ACCEPT. -/
def execAccept (ring : Nat) (s : State) : Result1 := .next (s.acceptPacket ring)
/-- DECLINE. -/
def execDecline (ring : Nat) (s : State) : Result1 := .next (s.declinePacket ring)
/-- PAGE_FAULT_DOORBELL. -/
def execPageFaultDoorbell (ctx page : Nat) (mapped : Bool) (s : State) : Result1 := .next (s.doorbell ctx page mapped)
/-- LAUNCH_START. -/
def execLaunchStart (ctx : Nat) (s : State) : Result1 := .next (s.startLaunch ctx)
/-- LAUNCH_COMPLETE. -/
def execLaunchComplete (ctx : Nat) (s : State) : Result1 := .next (s.completeLaunch ctx)
/-- ACCOUNT_BACKLOG_DRAIN. -/
def execAccountBacklogDrain (s : State) : Result1 := .next s.drainAccount

end Sys2Proof.Machine
end

