-- ==== Sys2Proof/Machine/LoadStore.lean ====
section
/-! DEFINITION. Group 0x6: loads and stores (R149-R153), inside a transaction as R179 says. -/

namespace Sys2Proof.Machine

/-- The operand checks of a load or store of a member (R150, R175, R123): in a transaction a scratchpad address aborts (R179),
and so does one in a stamped region or a sluice object (R158, R185). -/
def memCheck (addr : Thread → Nat) (n : Nat) (isStore constant : Bool) (s : State) (g : Group) (t : Thread) : Option TrapInfo :=
  withLaunch s g.ctx none (fun l =>
    match accessCheck s l g.core t.parent (addr t) n isStore constant with
    | some x => some x
    | none =>
      if t.tx.active && (classOf (addr t) == .scratch || l.stampedAt (addr t) n || l.sluiceAt (addr t) n) then trapOf .access (addr t)
      else orTrap (if isStore then gateCheck l g.wg (addr t) n else none)
        (if t.tx.active && isStore then none else polderCheck addr s g t))

/-- A store to a shared region of a `.det` launch holds until the token comes (R175). -/
def storeHold (addr : Thread → Nat) (n : Nat) (s : State) (g : Group) (t : Thread) : Option HoldKind :=
  withLaunch s g.ctx none (fun l => gateHold l g.wg (addr t) n)

/-- The physical line of an address for a transaction's sets (R179). -/
def txLine (s : State) (die : Nat) (l : Launch) (addr : Nat) : Nat := ((s.locate die l addr).map (fun t => t.key / 128)).getD (addr / 128)

/-- A load of a member goes into flight: at most 8 bytes to an access (R151), its words in one result each. -/
def sendLoad (path : Path) (sg : Bool) (d addr n words : Nat) (tx : Option (List (Nat × Byte))) (g : Group) (tid gid : Nat) (s : State) : State :=
  if n = 16 then
    (s.send g tid path (.load false 2) addr 8 0 d 2 tx gid).send g tid path (.load false 2) (addr + 8) 8 0 (d + 2) 2 tx gid
  else s.send g tid path (.load sg words) addr n 0 d words tx gid

/-- A load (R149-R151); in a transaction a global one joins the read set, and a private one performs as usual (R179; R99 lists
transactions among the users of a private address that raise ACCESS, log 75). -/
def loadOp (i : Instr) (d : Reg) (n words : Nat) (sg : Bool) (path : Path) (addr : Thread → Nat) (s : State) : State :=
  issue i (memCheck addr n false (path == .con))
    (fun s g tid =>
      match s.threadOf g.ctx g.wg tid with
      | none => s
      | some t =>
        if t.tx.active && classOf (addr t) == .global then
          withLaunch s g.ctx s (fun l =>
            let line := txLine s (coreDie g.core) l (addr t)
            if t.tx.readLines.contains line then sendLoad path sg (rn d) (addr t) n words (some t.tx.writes) g tid (groupId s g) s
            else if t.tx.readLines.length < 8 then
              sendLoad path sg (rn d) (addr t) n words (some t.tx.writes) g tid (groupId s g)
                (s.modThread g.ctx g.wg tid (fun t => { t with tx := { t.tx with readLines := t.tx.readLines ++ [line] } }))
            else s.modThread g.ctx g.wg tid (fun t => t.abortTx .capacity 0))
        else sendLoad path sg (rn d) (addr t) n words none g tid (groupId s g) s) s

/-- A thread's write set with bytes put into it (R179). -/
def Tx.buffer (x : Tx) (key : Nat) (bs : List Byte) : Tx :=
  let new := (rangeFrom key bs.length).zip bs
  { x with writes := new ++ x.writes.filter (fun w => !new.any (fun p => p.1 == w.1)) }

/-- A store of a member goes into flight, at most 8 bytes to an access (R151). -/
def sendStore (addr n v : Nat) (g : Group) (tid gid : Nat) (s : State) : State :=
  if n = 16 then
    (s.send g tid .ord (.store (v % 2 ^ 64)) addr 8 0 0 0 none gid).send g tid .ord (.store (v / 2 ^ 64)) (addr + 8) 8 0 0 0 none gid
  else s.send g tid .ord (.store v) addr n 0 0 0 none gid

/-- The data of a store (R149). -/
def storeData (t : Thread) (d n : Nat) : Nat :=
  if n = 16 then t.readQuad d else if n = 8 then t.readPair d else (t.readW d).toNat

/-- A store (R149, R151, R152); in a transaction a global one is buffered (R179). -/
def storeOp (i : Instr) (d : Reg) (n : Nat) (addr : Thread → Nat) (s : State) : State :=
  issueHeld i (memCheck addr n true false) (storeHold addr n)
    (fun s g tid =>
      match s.threadOf g.ctx g.wg tid with
      | none => s
      | some t =>
        let v := storeData t (rn d) n
        if t.tx.active && classOf (addr t) == .global then
          withLaunch s g.ctx s (fun l =>
            let line := txLine s (coreDie g.core) l (addr t)
            let key := ((s.locate (coreDie g.core) l (addr t)).map (fun t => t.key)).getD (addr t)
            if t.tx.writeLines.contains line then
              s.modThread g.ctx g.wg tid (fun t => { t with tx := t.tx.buffer key (leBytes n v) })
            else if t.tx.writeLines.length < 8 then
              s.modThread g.ctx g.wg tid (fun t =>
                { t with tx := { t.tx.buffer key (leBytes n v) with writeLines := t.tx.writeLines ++ [line] } })
            else s.modThread g.ctx g.wg tid (fun t => t.abortTx .capacity 0))
        else sendStore (addr t) n v g tid (groupId s g) s) s

/-- LDB (R149, R150). -/
def execLdb (sw : Bool) (d : Reg) (a : Reg) (m : BitVec 7) (s : State) : Result1 :=
  .next (loadOp (.ldb sw d a m) d 1 1 false .ord (fun t => addrImm t a m 1) s)

/-- LDBS (R149, R150). -/
def execLdbs (sw : Bool) (d : Reg) (a : Reg) (m : BitVec 7) (s : State) : Result1 :=
  .next (loadOp (.ldbs sw d a m) d 1 1 true .ord (fun t => addrImm t a m 1) s)

/-- LDH (R149, R150). -/
def execLdh (sw : Bool) (d : Reg) (a : Reg) (m : BitVec 7) (s : State) : Result1 :=
  .next (loadOp (.ldh sw d a m) d 2 1 false .ord (fun t => addrImm t a m 2) s)

/-- LDHS (R149, R150). -/
def execLdhs (sw : Bool) (d : Reg) (a : Reg) (m : BitVec 7) (s : State) : Result1 :=
  .next (loadOp (.ldhs sw d a m) d 2 1 true .ord (fun t => addrImm t a m 2) s)

/-- LDW (R149, R150). -/
def execLdw (sw : Bool) (d : Reg) (a : Reg) (m : BitVec 7) (s : State) : Result1 :=
  .next (loadOp (.ldw sw d a m) d 4 1 false .ord (fun t => addrImm t a m 4) s)

/-- LDD (R149, R150). -/
def execLdd (sw : Bool) (d : Reg) (a : Reg) (m : BitVec 7) (s : State) : Result1 :=
  .next (loadOp (.ldd sw d a m) d 8 2 false .ord (fun t => addrImm t a m 8) s)

/-- LDQ (R149, R150). -/
def execLdq (sw : Bool) (d : Reg) (a : Reg) (m : BitVec 7) (s : State) : Result1 :=
  .next (loadOp (.ldq sw d a m) d 16 4 false .ord (fun t => addrImm t a m 16) s)

/-- LDC (R149, R150). -/
def execLdc (sw : Bool) (d : Reg) (a : Reg) (m : BitVec 7) (s : State) : Result1 :=
  .next (loadOp (.ldc sw d a m) d 4 1 false .con (fun t => addrImm t a m 4) s)

/-- LDCD (R149, R150). -/
def execLdcd (sw : Bool) (d : Reg) (a : Reg) (m : BitVec 7) (s : State) : Result1 :=
  .next (loadOp (.ldcd sw d a m) d 8 2 false .con (fun t => addrImm t a m 8) s)

/-- STB (R149, R150, R152). -/
def execStb (sw : Bool) (d : Reg) (a : Reg) (m : BitVec 7) (s : State) : Result1 :=
  .next (storeOp (.stb sw d a m) d 1 (fun t => addrImm t a m 1) s)

/-- STH (R149, R150, R152). -/
def execSth (sw : Bool) (d : Reg) (a : Reg) (m : BitVec 7) (s : State) : Result1 :=
  .next (storeOp (.sth sw d a m) d 2 (fun t => addrImm t a m 2) s)

/-- STW (R149, R150, R152). -/
def execStw (sw : Bool) (d : Reg) (a : Reg) (m : BitVec 7) (s : State) : Result1 :=
  .next (storeOp (.stw sw d a m) d 4 (fun t => addrImm t a m 4) s)

/-- STD (R149, R150, R152). -/
def execStd (sw : Bool) (d : Reg) (a : Reg) (m : BitVec 7) (s : State) : Result1 :=
  .next (storeOp (.std sw d a m) d 8 (fun t => addrImm t a m 8) s)

/-- STQ (R149, R150, R152). -/
def execStq (sw : Bool) (d : Reg) (a : Reg) (m : BitVec 7) (s : State) : Result1 :=
  .next (storeOp (.stq sw d a m) d 16 (fun t => addrImm t a m 16) s)

/-- LDBX (R149, R150). -/
def execLdbx (sw : Bool) (d : Reg) (a : Reg) (b : Reg) (s : State) : Result1 :=
  .next (loadOp (.ldbx sw d a b) d 1 1 false .ord (fun t => addrIdx t a b) s)

/-- LDBSX (R149, R150). -/
def execLdbsx (sw : Bool) (d : Reg) (a : Reg) (b : Reg) (s : State) : Result1 :=
  .next (loadOp (.ldbsx sw d a b) d 1 1 true .ord (fun t => addrIdx t a b) s)

/-- LDHX (R149, R150). -/
def execLdhx (sw : Bool) (d : Reg) (a : Reg) (b : Reg) (s : State) : Result1 :=
  .next (loadOp (.ldhx sw d a b) d 2 1 false .ord (fun t => addrIdx t a b) s)

/-- LDHSX (R149, R150). -/
def execLdhsx (sw : Bool) (d : Reg) (a : Reg) (b : Reg) (s : State) : Result1 :=
  .next (loadOp (.ldhsx sw d a b) d 2 1 true .ord (fun t => addrIdx t a b) s)

/-- LDWX (R149, R150). -/
def execLdwx (sw : Bool) (d : Reg) (a : Reg) (b : Reg) (s : State) : Result1 :=
  .next (loadOp (.ldwx sw d a b) d 4 1 false .ord (fun t => addrIdx t a b) s)

/-- LDDX (R149, R150). -/
def execLddx (sw : Bool) (d : Reg) (a : Reg) (b : Reg) (s : State) : Result1 :=
  .next (loadOp (.lddx sw d a b) d 8 2 false .ord (fun t => addrIdx t a b) s)

/-- LDQX (R149, R150). -/
def execLdqx (sw : Bool) (d : Reg) (a : Reg) (b : Reg) (s : State) : Result1 :=
  .next (loadOp (.ldqx sw d a b) d 16 4 false .ord (fun t => addrIdx t a b) s)

/-- LDCX (R149, R150). -/
def execLdcx (sw : Bool) (d : Reg) (a : Reg) (b : Reg) (s : State) : Result1 :=
  .next (loadOp (.ldcx sw d a b) d 4 1 false .con (fun t => addrIdx t a b) s)

/-- LDCDX (R149, R150). -/
def execLdcdx (sw : Bool) (d : Reg) (a : Reg) (b : Reg) (s : State) : Result1 :=
  .next (loadOp (.ldcdx sw d a b) d 8 2 false .con (fun t => addrIdx t a b) s)

/-- STBX (R149, R150, R152). -/
def execStbx (sw : Bool) (d : Reg) (a : Reg) (b : Reg) (s : State) : Result1 :=
  .next (storeOp (.stbx sw d a b) d 1 (fun t => addrIdx t a b) s)

/-- STHX (R149, R150, R152). -/
def execSthx (sw : Bool) (d : Reg) (a : Reg) (b : Reg) (s : State) : Result1 :=
  .next (storeOp (.sthx sw d a b) d 2 (fun t => addrIdx t a b) s)

/-- STWX (R149, R150, R152). -/
def execStwx (sw : Bool) (d : Reg) (a : Reg) (b : Reg) (s : State) : Result1 :=
  .next (storeOp (.stwx sw d a b) d 4 (fun t => addrIdx t a b) s)

/-- STDX (R149, R150, R152). -/
def execStdx (sw : Bool) (d : Reg) (a : Reg) (b : Reg) (s : State) : Result1 :=
  .next (storeOp (.stdx sw d a b) d 8 (fun t => addrIdx t a b) s)

/-- STQX (R149, R150, R152). -/
def execStqx (sw : Bool) (d : Reg) (a : Reg) (b : Reg) (s : State) : Result1 :=
  .next (storeOp (.stqx sw d a b) d 16 (fun t => addrIdx t a b) s)

end Sys2Proof.Machine
end

