-- ==== Sys2Proof/Machine/PowerEvents.lean ====
section
/-! DEFINITION. Power (R348, R356 to R360): cluster gating, the power microcontroller's loop, its targets, emergencies and
SRAM margining. -/

namespace Sys2Proof.Machine

/-! Cluster gating (R348). -/

/-- Whether a cluster has a resident workgroup, a hold or a reservation (R348). -/
def State.clusterUsed (s : State) (c : Nat) : Bool :=
  s.covered c || s.wgs.any (fun w => w.resident && coreCluster w.core == c)

/-- The L1s and constant caches of a cluster are invalidated (Table 5, step 1). -/
def State.flushCluster (s : State) (c : Nat) : State :=
  { s with
    cores := s.cores.map (fun (x : Core) => if coreCluster x.id = c then { x with l1 := [] } else x),
    copies := s.copies.filter (fun x => !(x.path == .con && coreCluster x.owner == c)) }

/-- IDLE_TIMER_EXPIRY: after 50 µs the gating sequence starts. -/
def State.startGating (s : State) (c : Nat) : State :=
  match (s.cluster c).gate with
  | .idle t =>
    if decide (t + 50000 ≤ s.now) && !s.clusterUsed c then (s.flushCluster c).modCluster c (fun x => { x with gate := .gating s.now }) else s
  | .active | .gating _ | .gated | .waking _ => s

/-- GATING_COMPLETE: step 4 ends 2 µs after the start; the cluster's translations go with its rail. -/
def State.endGating (s : State) (c : Nat) : State :=
  match (s.cluster c).gate with
  | .gating t =>
    if t + 2000 ≤ s.now then { s.modCluster c (fun x => { x with gate := .gated }) with tlb := s.tlb.filter (fun x => x.cluster != c) } else s
  | .active | .idle _ | .gated | .waking _ => s

/-- CLUSTER_WAKE_COMPLETE: after 8 µs the cluster runs in its pool (R356), or, where nothing covers it any more, in the one that its
targets name (R358); its cores' load limits are 32 (R22). A new pool makes a new manifest (R382), and its die keeps within its
budget (R355). -/
def State.wakeCluster (s : State) (c : Nat) : State :=
  match (s.cluster c).gate with
  | .waking t =>
    if t + 8000 ≤ s.now then
      let pool := s.wakeClass c
      let moved := (s.cluster c).pool != pool
      let s1 := { s.modCluster c (fun x => { x with gate := if s.clusterUsed c then .active else .idle s.now, pool := pool }) with
        cores := s.cores.map (fun (x : Core) => if coreCluster x.id = c then { x with loadLimit := 32, victims := [], victimHits := 0 } else x) }
      if moved then s1.newManifest.keepBudget (c / 2) else s1
    else s
  | .active | .idle _ | .gating _ | .gated => s

/-! Emergencies (R359). -/

/-- The floor of a cluster's rationing (R357): the highest level that a hold or reservation assumed. -/
def State.rationFloor (s : State) (c : Nat) : Nat :=
  s.launches.foldl (fun n l => if l.holds && bitOf l.quote.clusterMask c then Nat.max n l.quote.rationing else n) 1

/-- One step of a cluster's rationing toward its floor. -/
def State.rationDown (s : State) (c : Nat) : Nat := Nat.max (s.rationFloor c) ((s.cluster c).rationing - 1)

/-- The target mailbox of a die as the loop leaves it (R358). -/
def State.writeTargets (s : State) (die : Nat) : State :=
  let d := s.die die
  s.writeWords 0 (Config.targetBox die) [d.targetRationing, d.targetPools, d.targetRail, d.targetShed]

/-- The first row, for an emergency of a cause: rationing toward the floors, and every class shed. -/
def State.row1 (s : State) (die cause : Nat) : State :=
  s.modDie die (fun d => { d with
    thermalRow := Nat.max 1 d.thermalRow, emergency := cause, targetShed := 31,
    targetRationing := s.rationDown (2 * die) + 4 * s.rationDown (2 * die + 1) })

/-- The second row: the die's workgroups are pre-empted, THERMAL (3) or SUPPLY (4) for each launch affected. Of
the row's two measures it is this one, since a reserved cluster keeps its pool (R356, R382, log 127). -/
def State.row2 (s : State) (die cause : Nat) : State :=
  (s.preemptAll (s.wgs.filter (fun w => w.resident && coreDie w.core == die)) cause).modDie die
    (fun d => { d with thermalRow := Nat.max 2 d.thermalRow, emergency := cause })

/-- Polder pages homed on a die that has lost its power take their region's policy (R123). -/
def State.losePolder (s : State) (die : Nat) : State :=
  (s.launches.filter (fun l => l.live)).foldl (fun s l =>
    (l.img.regions.filter (fun r => r.kind == 2)).foldl (fun s r =>
      let pages := (pagesOf r r.base r.size).filter (fun pg => match s.polderPage l.ctx pg with
        | some (.moved d) => d == die
        | some (.backed _) => false
        | some (.lost _) => false
        | none => r.home == die)
      if pages.isEmpty then s else (s.breachPages l.ctx r pages true).breach l.ctx 1 8 0xFF die false) s) s

/-- A die trips off (R359): its workgroups end, with a breach for each launch; its leases end, and the end of a reserved one is a breach
of its own (R44); its sites go dark, its clusters are off, and its polder lines follow R123. -/
def State.tripDie (s : State) (die cause : Nat) : State :=
  let here := s.wgs.filter (fun w => w.resident && coreDie w.core == die)
  let s1 := (s.leases.filter (fun l => l.die == die)).foldl (fun s l => (s.evict l).evictedReserved l) s
  let s2 := here.foldl (fun s w => s.stopWg w.ctx w.wg) s1
  let s3 := (dedup (here.map (fun w => w.ctx))).foldl (fun s ctx => s.breach ctx 1 cause 0xFF die true) s2
  let s4 := (rangeFrom 0 100).foldl (fun s i => s.evictSite die i) s3
  ((((s4.losePolder die).flushCluster (2 * die)).flushCluster (2 * die + 1)).modCluster (2 * die) (fun c => { c with gate := .gated })).modCluster
    (2 * die + 1) (fun c => { c with gate := .gated }) |>.modDie die (fun d => { d with tripped := true, thermalRow := 3 })

/-- The row for a supply droop (R359): the next one once a loop has passed since the last, which has not brought the die back, else the
same (log 125). -/
def State.nextRow (s : State) (die cause : Nat) : State :=
  let again := (s.die die).emergency == cause
  match (s.die die).thermalRow with
  | 0 => (s.row1 die cause).writeTargets die
  | 1 => if again then s else s.row2 die cause
  | _ => if again then s.row2 die cause else s.tripDie die cause

/-! The power loop (R358, R360). -/

/-- SRAM_MARGIN_WINDOW (R360): after at least 10^13 reads the rail goes down by 5 mV, or up by 10 mV and is held. A hold ends
when the junction has moved by 10 °C; an uncorrectable error pins the rail, and counts unless it has been counted already (R380). -/
def Die.marginWindow (d : Die) (r : SensorReading) : Die :=
  if r.uncorrected != 0 then { d.pin with uncorrected := d.uncorrected + (r.uncorrected - d.counted) }
  else
    let moved := decide (80 ≤ (r.temperature - d.heldTemperature) + (d.heldTemperature - r.temperature))
    match d.margin with
    | .pinned => d
    | .held => if moved then { d with margin := .margining, marginReads := 0, marginErrors := 0 } else d
    | .margining =>
      let reads := d.marginReads + r.reads
      let errors := d.marginErrors + r.corrected
      if 10 ≤ errors then
        { d with margin := .held, heldTemperature := r.temperature, targetRail := Nat.min 800 (d.targetRail + 10), marginReads := 0, marginErrors := 0 }
      else if 10 ^ 13 ≤ reads then { d with targetRail := Nat.max 700 (d.targetRail - 5), marginReads := 0, marginErrors := 0 }
      else { d with marginReads := reads, marginErrors := errors }

/-- What a die's mailbox says is kept for telemetry (R358, R380), with the power of its powered and booked sites. -/
def Die.sense (d : Die) (r : SensorReading) (engines : Nat) : Die :=
  { d.marginWindow r with
    temperature := r.temperature, powerTenths := r.power, enginePower := engines, corrected := sat32 (d.corrected + r.corrected), counted := 0 }

/-- A die writes its sensor mailbox, which the loop reads (R358). -/
def State.senseDie (s : State) (die : Nat) (r : SensorReading) : State :=
  let engines := s.engineDraw die / 10
  (s.modDie die (fun d => d.sense r engines)).writeWords 0 (Config.sensorBox die)
    [r.temperature, r.power, engines, r.reads % 2 ^ 32, r.reads / 2 ^ 32, r.corrected, r.uncorrected]

/-- A die without an emergency by its temperature (R359): nothing is asked any more. A supply droop's row lasts for a loop beyond it, so
that a droop that comes again finds the rows that have not brought the die back (log 125). -/
def Die.cool (d : Die) : Die :=
  if d.emergency = 4 then { d with emergency := 5, targetShed := 0 } else { d with emergency := 0, thermalRow := 0, targetShed := 0 }

/-- The rows of a die's temperature (R359): from 100 °C the first, and where it has been tried, from 110 °C the second too. -/
def State.thermalRows (s : State) (die : Nat) : State :=
  let t := (s.die die).temperature
  if t < 800 then s.modDie die Die.cool
  else if decide (880 ≤ t) && (s.die die).thermalRow != 0 then (s.row1 die 3).row2 die 3
  else s.row1 die 3

/-- The loop for one die (R358): its sensor mailbox, the rows of R359, and its target mailbox, whose pools are those that its clusters
have or wake into. One that has tripped off writes none, and takes part in no waterline any more (R273). -/
def State.loopDie (s : State) (x : Nat × SensorReading) : State :=
  let k := x.1
  if (s.die k).tripped then s.modDie k (fun d => { d with takesPart := false })
  else
    let s1 := (s.senseDie k x.2).thermalRows k
    (s1.modDie k (fun d => { d with targetPools := (s1.cluster (2 * k)).nextPool % 4 + 4 * ((s1.cluster (2 * k + 1)).nextPool % 4) })).writeTargets k

/-- Power shed in an emergency (R202): leases of the classes ordered that are not reserved are evicted by ascending priority, the
latest grant first, until the die is within budget. The emergency's budget is the microcontroller's, and is left open (log 84). -/
def State.shedPower (s : State) (die mask : Nat) : State :=
  let ls := (s.shedOrder die).filter (fun l => bitOf mask l.cls)
  if ls.isEmpty then s
  else
    let budget := Nat.min (s.engineBudget die) (Config.shedBudget s.free)
    ls.foldl (fun s l => if s.engineDraw die ≤ budget then s else s.evict l) { s with free := s.free + 1 }

/-- The launches that a target pool of a die forces below the class quoted to them, in an emergency whose second row is reached (R345,
R359). -/
def State.forced (s : State) (d : Die) : List Launch :=
  if decide (2 ≤ d.thermalRow) && (d.emergency == 3 || d.emergency == 4) then
    s.launches.filter (fun l => l.live && (rangeFrom 0 2).any (fun j =>
      bitOf l.quote.clusterMask (2 * d.id + j) && decide (d.targetPools / 4 ^ j % 4 < l.img.opclass)))
  else []

/-- TARGET_APPLY (R357, R358): rationing never below a floor, pools at the next wake, the rail, and power shed. Each launch that an
emergency forces below the class quoted to it has a breach THERMAL, or SUPPLY (R345, R359). -/
def State.applyTargets (s : State) (die : Nat) : State :=
  let d := s.die die
  let one := fun (s : State) (j : Nat) =>
    let c := 2 * die + j
    let level := d.targetRationing / 4 ^ j % 4
    s.modCluster c (fun x => { x with
      rationing := if level = 0 then x.rationing else Nat.max level (s.rationFloor c), nextPool := d.targetPools / 4 ^ j % 4 })
  let s1 := (s.forced d).foldl (fun s l => s.breach l.ctx 1 d.emergency 0xFF die false) (one (one s 0) 1)
  (s1.modDie die (fun d => { d with rail := d.targetRail })).shedPower die d.targetShed

/-! The rows. -/

/-- IDLE_TIMER_EXPIRY (R348). -/
def execIdleTimerExpiry (cluster : Nat) (s : State) : Result1 := .next (s.startGating cluster)
/-- GATING_COMPLETE (R348). -/
def execGatingComplete (cluster : Nat) (s : State) : Result1 := .next (s.endGating cluster)
/-- CLUSTER_WAKE_COMPLETE (R348). -/
def execClusterWakeComplete (cluster : Nat) (s : State) : Result1 := .next (s.wakeCluster cluster)
/-- POWER_LOOP (R358): the dies' mailboxes in ascending order. -/
def execPowerLoop (readings : List SensorReading) (s : State) : Result1 := .next (((rangeFrom 0 8).zip readings).foldl State.loopDie s)
/-- TARGET_APPLY (R358). -/
def execTargetApply (die : Nat) (s : State) : Result1 := .next (s.applyTargets die)
/-- THERMAL_TRIP (R359): at 120 °C, which the die's sensors have read. -/
def execThermalTrip (die : Nat) (s : State) : Result1 :=
  .next (if (s.die die).tripped || decide ((s.die die).temperature < 960) then s else s.tripDie die 3)
/-- SUPPLY_DROOP (R359): the same rows, with cause SUPPLY. -/
def execSupplyDroop (die : Nat) (s : State) : Result1 := .next (if (s.die die).tripped then s else s.nextRow die 4)
/-- MARGINING_RESTART_REQUEST (R360): a held rail is margined again; a pinned one waits for the next boot. -/
def execMarginingRestartRequest (die : Nat) (s : State) : Result1 :=
  .next (s.modDie die (fun d => if d.margin == .held then { d with margin := .margining, marginReads := 0, marginErrors := 0 } else d))

end Sys2Proof.Machine
end

