-- ==== Sys2Proof/Machine/MgmtEvents.lean ====
section
/-! DEFINITION. Boot, firmware, self-test, links, attestation and telemetry (R361 to R364, R367, R368, R380 to R382). -/

namespace Sys2Proof.Machine

/-! Links (R1, R361, R368). Link b from 0 to 9 is die boundary b, 10 and 11 join the host die at dies 0 and 4; 16 to 23 are the PCIe
root ports, 24 to 27 the CXL modes of four of them, 32 + k is HBM stack k, and 256 × (1 + p) + m is pod port p, of 16, toward module m
(log 21). Versions count in tenths. -/

/-- The versions that the H9 runs on a link (Table 5; a stack is HBM4, R1): none where there is no such link. -/
def linkVersions (link : Nat) : List Nat :=
  if link < 12 then [11, 10]
  else if 16 ≤ link ∧ link < 24 then [60, 50, 40]
  else if 24 ≤ link ∧ link < 28 then [30, 20]
  else if 32 ≤ link ∧ link < 48 then [40]
  else if 256 ≤ link ∧ link < 256 * 17 then [11, 10]
  else []

/-- Whether two numbers name one link: a pod port leads to one module at a time (R1). -/
def sameLink (a b : Nat) : Bool := a == b || (decide (256 ≤ a) && decide (256 ≤ b) && a / 256 == b / 256)

/-- LINK_TRAINING (R368): the highest version that both sides run; a trained pod link ends its module's retraining (R273). -/
def State.trainLink (s : State) (link peer : Nat) : State :=
  match (linkVersions link).find? (fun v => decide (v ≤ peer)) with
  | none => s
  | some v =>
    let s1 := { s with links := (link, v) :: s.links.filter (fun x => !sameLink x.1 link) }
    if 256 ≤ link then
      { s1 with retraining := s1.retraining.filter (fun m => m != link % 256), podContribution := s1.podContribution.filter (fun x => x.1 != link % 256) }
    else s1

/-! Boot (R361, R362). -/

/-- Whether an image passes every check of R361. -/
def imagePasses (x : FirmwareImage) (fusedMin : Nat) : Bool := x.ed25519Ok && x.mlDsaOk && x.digestsOk && decide (fusedMin ≤ x.securityVersion)

/-- Where firmware places the first privileged ring (log 22): control block, first segment, free list. -/
def bootRing : Nat := Config.systemBase + 0x10000
def bootSegment : Nat := Config.systemBase + 0x11000
def bootFreeList : Nat := Config.systemBase + 0x12000

/-- Dies after a reset keep what self-test has retired (R367), and what it is to find. -/
def Die.rebooted (d : Die) : Die := { Die.reset d.id with deadSites := d.deadSites, failedSites := d.failedSites, badWays := d.badWays }
/-- And so do clusters. -/
def Cluster.rebooted (now : Nat) (c : Cluster) : Cluster := { Cluster.reset c.id with spares := c.spares, withdrawn := c.withdrawn, gate := .idle now }

/-- The time that a boot begins at: a module of no pod takes this moment as its epoch (R141). -/
def State.bootTime (s : State) : Nat := if Config.inPod then s.now else 0

/-- The module as the boot ROM finds it (R361): everything but its memories, its repairs, its images and its account records, none of
which is lost (R378, log 121), is reset. -/
def State.cold (s : State) : State :=
  { State.reset with
    agenda := s.agenda, now := s.bootTime, free := s.free, nextId := s.nextId, mem := s.mem, badCheck := s.badCheck, nextQuote := s.nextQuote,
    dies := s.dies.map Die.rebooted, clusters := s.clusters.map (Cluster.rebooted s.bootTime), stackSpares := s.stackSpares, linkSpares := s.linkSpares,
    account := s.account, accountBase := s.accountBase, accountCap := s.accountCap, accountProduced := s.accountProduced,
    firmware := s.firmware, nextImage := s.nextImage, fusedMin := s.fusedMin, manifestGen := s.manifestGen }

/-- The firmware registers the account queue (R376), whose header goes on counting the records produced. -/
def State.registerAccount (s : State) : State := s.writeWords 0 s.accountBase [s.accountProduced % 2 ^ 32]

/-- The firmware registers the first privileged ring (R328, R361), in a control block that it lays out. -/
def State.firstRing (s : State) : State :=
  let s1 := (s.writeWords 0 bootRing ([0, 0] ++ twoWords bootSegment ++ [64, 0, 1, 0] ++ twoWords bootFreeList ++ List.replicate 6 0)).writeNat 0 bootFreeList 4 0
  { s1.clearSlots bootSegment with
    rings := [{ block := bootRing, priority := 3, slice := 20, privileged := true, version := 1, ticket := 0, segment := bootSegment, freed := 0,
                waitUntil := none, blocked := false, claimedAt := none }] }

/-- RESET (R361, R362): the stored image is checked; the firmware starts, and its self-test is next, or the recovery loader starts.
Account records of this instant leave for their queue first. -/
def State.boot (s : State) : State :=
  let x := s.nextImage.getD s.firmware
  let s1 := s.postStaged.cold
  if imagePasses x s.fusedMin then { s1 with firmware := x, nextImage := none, booting := true } else { s1 with recovery := true }

/-- The firmware trains the links (R361): those inside the module, the root ports' as their far sides allow, in a pod its ports',
and the HBM stacks. -/
def State.trainLinks (s : State) : State :=
  let own := (rangeFrom 0 12).map (fun b => (b, 11)) ++ (rangeFrom 32 16).map (fun k => (k, 40))
  let ports := if Config.inPod then (rangeFrom 1 16).map (fun p => 256 * p + Config.portModule (p - 1) % 256) else []
  own.foldl (fun s x => s.trainLink x.1 x.2) s |> (rangeFrom 16 12 ++ ports).foldl (fun s x => s.trainLink x (Config.linkPeer x))

/-- A boot whose self-test is done (R361, R362): the links are trained, the account queue and the first privileged ring are
registered, and the fused minimum rises where the manifest so requests. -/
def State.bootDone (s : State) : State :=
  { s.trainLinks.registerAccount.firstRing with
    booting := false, booted := true,
    fusedMin := if s.firmware.raiseMinimum then Nat.max s.fusedMin s.firmware.securityVersion else s.fusedMin }

/-! Self-test (R367, R381, R382). -/

/-- Whether a finding is on dies of a list; stacks 2k and 2k + 1 are die k's (R350), a boundary is both its dies', the host die's joins
are dies 0 and 4's, and a pod port is no die's. -/
def Finding.onDies (dies : List Nat) : Finding → Bool
  | .core c => dies.contains (c / 2)
  | .way d _ => dies.contains d
  | .site d _ => dies.contains d
  | .stack k => dies.contains (k / 2)
  | .link b _ =>
    if b < 10 then dies.contains (nth (0, 0) boundaries b).1 && dies.contains (nth (0, 0) boundaries b).2
    else if b < 12 then dies.contains (4 * (b - 10)) else true

/-- One more lane spare of a link's direction is used: a Melaux link has two in each (R367). -/
def useSpare (xs : List (Nat × Bool × Nat)) (b : Nat) (back : Bool) : List (Nat × Bool × Nat) :=
  let same := fun (x : Nat × Bool × Nat) => x.1 == b && x.2.1 == back
  let n := ((xs.find? same).map (fun x => x.2.2)).getD 0
  xs.filter (fun x => !same x) ++ [(b, back, Nat.min 2 (n + 1))]

/-- A faulty unit is retired (R367): a spare core takes its place or the cluster is withdrawn; a way of a slice or a site is
gone; a stack has used its spares; a Melaux link uses a lane spare. -/
def State.retireUnit (s : State) (f : Finding) : State := match f with
  | .core c => s.modCluster c (fun x => if x.spares = 0 then { x with withdrawn := true } else { x with spares := x.spares - 1 })
  | .way d i => s.modDie d (fun x => { x with badWays := if x.badWays.contains i then x.badWays else x.badWays ++ [i] })
  | .site d i => s.modDie d (fun x => { x with deadSites := if x.deadSites.contains i then x.deadSites else x.deadSites ++ [i] })
  | .stack k => { s with stackSpares := if s.stackSpares.contains k then s.stackSpares else s.stackSpares ++ [k] }
  | .link b back => if b < 12 ∨ 256 ≤ b ∧ b < 256 * 17 then { s with linkSpares := useSpare s.linkSpares (if b < 12 then b else b / 256 * 256) back } else s

/-- The sites that have failed on dies since their last self-test: faulty units that this one finds (R345, R367). -/
def State.failed (s : State) (dies : List Nat) : List Finding :=
  dies.flatMap (fun d => (s.die d).failedSites.map (Finding.site d))

/-- A self-test of dies (R367): the faulty units on them are retired, and the manifest is made anew (R382). -/
def State.testDies (s : State) (dies : List Nat) (findings : List Finding) : State :=
  let s1 := ((s.failed dies ++ findings).filter (Finding.onDies dies)).foldl State.retireUnit s
  (dies.foldl (fun s d => s.modDie d (fun x => { x with failedSites := [] })) s1).newManifest

/-- SELF_TEST (R361, R367): every die's at a boot, which it ends, or an operator's on dies that are quiesced. -/
def State.selfTest (s : State) (dies : List Nat) (findings : List Finding) : State :=
  if s.booting then (s.testDies (rangeFrom 0 8) findings).bootDone
  else if s.booted && dies.all (fun d => bitOf (s.die d).pqc.toNat 8) then s.testDies dies findings
  else s

/-! Attestation and telemetry. -/

/-- The digest of a measurement block (R363); block 16 is the manifest's. -/
def State.measurement (s : State) (index : Nat) : List Nat :=
  if index = 16 then s.manifestDigest else s.blockDigest index

/-- The words of a die's telemetry block (Table 3 of R380). -/
def State.telemetryBlock (s : State) (k : Nat) : List Nat :=
  let d := s.die k
  let c0 := s.cluster (2 * k)
  let c1 := s.cluster (2 * k + 1)
  let flag := fun (b : Bool) (i : Nat) => if b then 2 ^ i else 0
  let margin := match d.margin with
    | .margining => 0
    | .held => 1
    | .pinned => 2
  twoWords (d.energyPj / 1000000 % 2 ^ 63 + flag d.energySat 63) ++ twoWords s.schedulerTime
    ++ [d.temperature, d.powerTenths, d.rail + margin * 2 ^ 16, sat32 d.corrected, sat32 d.uncorrected,
        c0.rationing + c1.rationing * 4 + c0.pool * 16 + c1.pool * 64,
        c0.spares + c1.spares * 8 + d.badWays.length * 2 ^ 8 + d.deadSites.length * 2 ^ 16 + flag c0.withdrawn 23 + flag c1.withdrawn 24,
        (dedup ((s.linkSpares.filter (fun x => decide (x.1 < 10) && x.2.2 == 2)).map (fun x => x.1))).foldl (fun n b => n + 2 ^ b) 0 + (dedup s.stackSpares).foldl (fun n k => n + 2 ^ (16 + k)) 0]
    ++ List.replicate 4 0

/-- TELEMETRY (R380): one signed block for each die. -/
def State.sendTelemetry (s : State) : State :=
  let blocks := (rangeFrom 0 8).map s.telemetryBlock
  { s with port := s.port ++ [.telemetry blocks (blocks.map Config.signEd25519)] }

/-! The rows. -/

/-- LINK_TRAINING. -/
def execLinkTraining (link peer : Nat) (s : State) : Result1 := .next (s.trainLink link peer)
/-- RESET. -/
def execResetModule (s : State) : Result1 := .next s.boot
/-- RECOVERY_IMAGE (R362): the recovery loader verifies an image and writes it. -/
def execRecoveryImage (image : FirmwareImage) (s : State) : Result1 :=
  .next (if s.recovery && imagePasses image s.fusedMin then { s with nextImage := some image } else s)
/-- FIRMWARE_UPDATE (R362): the whole image is written; the next boot verifies it. -/
def execFirmwareUpdate (image : FirmwareImage) (s : State) : Result1 :=
  .next (if s.booted then { s with nextImage := some image } else s)
/-- SELF_TEST. -/
def execSelfTest (dies : List Nat) (findings : List Finding) (s : State) : Result1 := .next (s.selfTest dies findings)
/-- GET_VERSION (R363, R368): SPDM 1.3 or 1.2, the highest that both run. -/
def execGetVersion (offered : List Nat) (s : State) : Result1 :=
  .next (match [13, 12].find? (fun v => offered.contains v) with
    | some v => { s with spdm := v, port := s.port ++ [.version v] }
    | none => s)
/-- SPDM_MEASUREMENTS (R363): a signed block. -/
def execSpdmMeasurements (index : Nat) (s : State) : Result1 :=
  .next (if [1, 2, 3, 4, 5, 16].contains index then
      { s with port := s.port ++ [.measurement index (s.measurement index) (Config.signEd25519 (s.measurement index))] } else s)
/-- DETERMINISM_MANIFEST_REQUEST (R364): the digest with its two signatures. -/
def execDeterminismManifestRequest (s : State) : Result1 :=
  .next { s with port := s.port ++ [.manifest (s.measurement 16) (Config.signEd25519 (s.measurement 16)) (Config.signMlDsa (s.measurement 16))] }
/-- TELEMETRY. -/
def execTelemetry (s : State) : Result1 := .next s.sendTelemetry

end Sys2Proof.Machine
end

