-- ==== Sys2Proof/Machine/Paired.lean ====
section
/-! DEFINITION. Group 0x3: paired 16-bit arithmetic and conversions (R135, R136). -/

namespace Sys2Proof.Machine

/-- A paired operation: each half on its own (R135). -/
def halves (f : Nat → Nat → Nat → Nat) (x y z : Word) : Word :=
  fw (f (x.toNat % 2 ^ 16) (y.toNat % 2 ^ 16) (z.toNat % 2 ^ 16)
    + f (x.toNat / 2 ^ 16) (y.toNat / 2 ^ 16) (z.toNat / 2 ^ 16) * 2 ^ 16)

/-- HADD2 (R135). -/
def execHadd2 (sw : Bool) (d : Reg) (a : Reg) (b : Reg) (s : State) : Result1 :=
  .next (opRRR (.hadd2 sw d a b) d a b (halves (fun p q _ => bf16.add p q)) s)

/-- HMUL2 (R135). -/
def execHmul2 (sw : Bool) (d : Reg) (a : Reg) (b : Reg) (s : State) : Result1 :=
  .next (opRRR (.hmul2 sw d a b) d a b (halves (fun p q _ => bf16.mul p q)) s)

/-- HFMA2 (R135). -/
def execHfma2 (sw : Bool) (d : Reg) (a : Reg) (b : Reg) (s : State) : Result1 :=
  .next (opRRR (.hfma2 sw d a b) d a b (halves (fun p q r => bf16.fma p q r)) s)

/-- HMAX2 (R135). -/
def execHmax2 (sw : Bool) (d : Reg) (a : Reg) (b : Reg) (s : State) : Result1 :=
  .next (opRRR (.hmax2 sw d a b) d a b (halves (fun p q _ => bf16.maxNum p q)) s)

/-- EADD2 (R135). -/
def execEadd2 (sw : Bool) (d : Reg) (a : Reg) (b : Reg) (s : State) : Result1 :=
  .next (opRRR (.eadd2 sw d a b) d a b (halves (fun p q _ => fp16.add p q)) s)

/-- EMUL2 (R135). -/
def execEmul2 (sw : Bool) (d : Reg) (a : Reg) (b : Reg) (s : State) : Result1 :=
  .next (opRRR (.emul2 sw d a b) d a b (halves (fun p q _ => fp16.mul p q)) s)

/-- EFMA2 (R135). -/
def execEfma2 (sw : Bool) (d : Reg) (a : Reg) (b : Reg) (s : State) : Result1 :=
  .next (opRRR (.efma2 sw d a b) d a b (halves (fun p q r => fp16.fma p q r)) s)

/-- EMAX2 (R135). -/
def execEmax2 (sw : Bool) (d : Reg) (a : Reg) (b : Reg) (s : State) : Result1 :=
  .next (opRRR (.emax2 sw d a b) d a b (halves (fun p q _ => fp16.maxNum p q)) s)

/-- CVT.F32.SW (R136). -/
def execCvtF32Sw (sw : Bool) (d : Reg) (a : Reg) (s : State) : Result1 :=
  .next (opRI (.cvtF32Sw sw d a) d a (fun x => fw (f32.ofInt x.toInt)) s)

/-- CVT.F32.UW (R136). -/
def execCvtF32Uw (sw : Bool) (d : Reg) (a : Reg) (s : State) : Result1 :=
  .next (opRI (.cvtF32Uw sw d a) d a (fun x => fw (f32.ofInt x.toNat)) s)

/-- CVT.SW.F32 (R136): toward zero. -/
def execCvtSwF32 (sw : Bool) (d : Reg) (a : Reg) (s : State) : Result1 :=
  .next (opRI (.cvtSwF32 sw d a) d a (fun x => BitVec.ofInt 32 (toIntSat truncInt (-2147483648) 2147483647 (f32.decode x.toNat))) s)

/-- CVT.SW.F32.RN (R136): nearest, ties to even. -/
def execCvtSwF32Rn (sw : Bool) (d : Reg) (a : Reg) (s : State) : Result1 :=
  .next (opRI (.cvtSwF32Rn sw d a) d a (fun x => BitVec.ofInt 32 (toIntSat nearestInt (-2147483648) 2147483647 (f32.decode x.toNat))) s)

/-- CVT.UW.F32 (R136). -/
def execCvtUwF32 (sw : Bool) (d : Reg) (a : Reg) (s : State) : Result1 :=
  .next (opRI (.cvtUwF32 sw d a) d a (fun x => BitVec.ofInt 32 (toIntSat truncInt 0 4294967295 (f32.decode x.toNat))) s)

/-- CVT.BF16.F32 (R136). -/
def execCvtBf16F32 (sw : Bool) (d : Reg) (a : Reg) (b : Reg) (s : State) : Result1 :=
  .next (opRRR (.cvtBf16F32 sw d a b) d a b (fun x y _ => fw (convert f32 bf16 y.toNat * 2 ^ 16 + convert f32 bf16 x.toNat)) s)

/-- CVT.BF16.F32.SR (R98, R136). -/
def execCvtBf16F32Sr (sw : Bool) (d : Reg) (a : Reg) (b : Reg) (s : State) : Result1 :=
  .next (opRRR (.cvtBf16F32Sr sw d a b) d a b (fun x y _ => fw (stochastic x.toNat (y.toNat % 2 ^ 16))) s)

/-- CVT.FP16.F32 (R136). -/
def execCvtFp16F32 (sw : Bool) (d : Reg) (a : Reg) (b : Reg) (s : State) : Result1 :=
  .next (opRRR (.cvtFp16F32 sw d a b) d a b (fun x y _ => fw (convert f32 fp16 y.toNat * 2 ^ 16 + convert f32 fp16 x.toNat)) s)

/-- CVT.F32.BF16 (R136): bits 31:16 are ignored. -/
def execCvtF32Bf16 (sw : Bool) (d : Reg) (a : Reg) (s : State) : Result1 :=
  .next (opRI (.cvtF32Bf16 sw d a) d a (fun x => fw (convert bf16 f32 (x.toNat % 2 ^ 16))) s)

/-- CVT.F32.FP16 (R136). -/
def execCvtF32Fp16 (sw : Bool) (d : Reg) (a : Reg) (s : State) : Result1 :=
  .next (opRI (.cvtF32Fp16 sw d a) d a (fun x => fw (convert fp16 f32 (x.toNat % 2 ^ 16))) s)

/-- CVT.LC8.F32 (R76, R136). -/
def execCvtLc8F32 (sw : Bool) (d : Reg) (a : Reg) (s : State) : Result1 :=
  .next (opRI (.cvtLc8F32 sw d a) d a (fun x => fw (lc8Encode (f32.decode x.toNat)).1) s)

/-- CVT.F32.LC8 (R86, R136): bits 31:8 are ignored. -/
def execCvtF32Lc8 (sw : Bool) (d : Reg) (a : Reg) (s : State) : Result1 :=
  .next (opRI (.cvtF32Lc8 sw d a) d a (fun x => fw (lc8ToF32 (x.toNat % 2 ^ 8))) s)

/-- CVT.I8.F32 (R86, R136). -/
def execCvtI8F32 (sw : Bool) (d : Reg) (a : Reg) (s : State) : Result1 :=
  .next (opRI (.cvtI8F32 sw d a) d a (fun x => BitVec.ofInt 32 (numToI8 (f32.decode x.toNat))) s)

end Sys2Proof.Machine
end

