-- ==== Sys2Proof/Machine/Reduction.lean ====
section
/-! DEFINITION. Group 0xA: no-return reductions, transactions, stamped stores and polder instructions (R173-R192). -/

namespace Sys2Proof.Machine

/-- A no-return reduction (R173); with D in a `.det` launch it goes to the deterministic unit of its home (R176). -/
def redOp (i : Instr) (op : AmoOp) (scope : Nat) (det : Bool) (a : BitVec 6) (b : Reg) (s : State) : State :=
  issue i
    (fun s g t => orTrap (withLaunch s g.ctx none (fun l => atomicCheck s l g.core t.parent (addrPair6 t a) 4 scope false (det && l.img.det)))
      (polderCheck (fun t => addrPair6 t a) s g t))
    (fun s g tid =>
      match s.threadOf g.ctx g.wg tid with
      | none => s
      | some t =>
        let v := (t.readW (rn b)).toNat
        withLaunch s g.ctx s (fun l =>
          if det && l.img.det then
            (s.send g tid .ord (.detRed op v t.redSeq) (addrPair6 t a) 4 scope 0 0 none (groupId s g)).modThread g.ctx g.wg tid
              (fun t => { t with redSeq := t.redSeq + 1 })
          else s.send g tid .ord (.red op v) (addrPair6 t a) 4 scope 0 0 none (groupId s g))) s

/-- Aborts counted against a TXB (R178). -/
def beginAborts (t : Thread) (pc : Nat) : Nat := if t.tx.lastTxb = some pc then txsAborts t.txs else 0

/-- TXB begins a transaction with empty sets (R178, R184). -/
def beginTx (offset : Int) (s : State) (g : Group) (tid : Nat) : State :=
  s.modThread g.ctx g.wg tid (fun t =>
    { t with
      txs := txsWord (bits t.txs.toNat 31 18) (beginAborts t g.pc) (bits t.txs.toNat 6 4) 1,
      tx := { t.tx.idle with
        active := true, abortPc := (((g.pc : Int) + offset * 4) % (2 ^ 32 : Nat)).toNat, lastTxb := some g.pc } })

/-- Whether two line lists share a line. -/
def shareLine (x y : List Nat) : Bool := x.any (fun a => y.contains a)

/-- Stage 1 of R181: members in ascending lane, each against the lower survivors; those that abort with INTRA. -/
def intraAborts : List Thread → List Thread → List Nat
  | [], _ => []
  | t :: ts, low =>
    let clash := low.any (fun u =>
      shareLine t.tx.writeLines u.tx.readLines || shareLine t.tx.writeLines u.tx.writeLines || shareLine t.tx.readLines u.tx.writeLines)
    if clash then t.tid :: intraAborts ts low else intraAborts ts (low ++ [t])

/-- Stage 2 of R181: survivors whose lines bring the union above 64 abort with CAPACITY. -/
def capacityAborts : List Thread → List Nat → List Nat
  | [], _ => []
  | t :: ts, lines =>
    let all := dedup (lines ++ t.tx.readLines ++ t.tx.writeLines)
    if 64 < all.length then t.tid :: capacityAborts ts lines else capacityAborts ts all

/-- A member's TXE aborts: d receives the cause, and after the park the PC is the abort path (R181). -/
def abortAtEnd (d : Nat) (cause : AbortCause) (g : Group) (tid : Nat) (s : State) : State :=
  (giveWord g tid d (BitVec.ofNat 32 cause.num) s).modThread g.ctx g.wg tid (fun t => t.abortTx cause 0)

/-- Addresses of the polder lines that a thread's write set holds (R122, R179). -/
def Tx.polderLines (l : Launch) (x : Tx) : List Nat :=
  (x.writeLines.filter (fun k => decide (polderKey l.ctx 0 ≤ k * 128) && decide (k * 128 < polderKey l.ctx 0 + 2 ^ 56))).map
    (fun k => k * 128 - polderKey l.ctx 0)

/-- The checks of one access after another, each behind those before it. -/
def breachChecks (s : State) (l : Launch) : List Nat → List Nat → Option TrapInfo
  | _, [] => none
  | lower, a :: as => orTrap (breachCheck s l lower a) (breachChecks s l (lower ++ [a]) as)

/-- TXE's checks: an active transaction (R181), and room for the polder lines that the commit first touches (R122, R123). -/
def txeCheck (s : State) (g : Group) (t : Thread) : Option TrapInfo :=
  if t.tx.active then
    withLaunch s g.ctx none (fun l => breachChecks s l ((s.lowerMembers g t).flatMap (fun u => u.tx.polderLines l)) (t.tx.polderLines l))
  else trapOf .illegal 0

/-- TXE in one member (R181): an abort of stage 1 or 2, or a validation to come at the homes. The polder lines that its writes first touch
are allocated here, and a breach is counted here, also where it then aborts (DESIGN CHOICE, log 123: R122 does not say when a buffered
write first touches its line). -/
def endTxOne (d : Nat) (intra cap : List Nat) (g : Group) (s : State) (t : Thread) : State :=
  if intra.contains t.tid then abortAtEnd d .intra g t.tid s
  else if cap.contains t.tid then abortAtEnd d .capacity g t.tid s
  else
    let s1 := withLaunch s g.ctx s (fun l => (t.tx.polderLines l).foldl (fun s a => s.touchAtIssue g.ctx a) s)
    s1.modThread g.ctx g.wg t.tid (fun t =>
      { t.addResult (t.dests d 1) none with tx := { t.tx with committing := some (t.nextSlot, groupId s g) } })

/-- TXE (R181): the members that execute it together are resolved at once, as the first of them performs. -/
def endTx (d : Nat) (s : State) (g : Group) (tid : Nat) : State :=
  let ts := s.members g
  if (ts.head?).any (fun t => t.tid == tid) then
    let intra := intraAborts ts []
    let cap := capacityAborts (ts.filter (fun t => !intra.contains t.tid)) []
    ts.foldl (endTxOne d intra cap g) s
  else s

/-- The checks of a stamped access (R186, R189, R190): alignment, a stamped region, the interval's width. The operand of ALIGN and ACCESS is
the address (DESIGN CHOICE, log 134). -/
def stampCheck (s : State) (g : Group) (addr n : Nat) : Option TrapInfo :=
  if addr % n != 0 then trapOf .align addr
  else if !withLaunch s g.ctx false (fun l => ((l.regionOf addr n).map (fun r => r.kind == 3)).getD false) then trapOf .access addr
  else widenCheck s g.core

/-- STST and STSTD (R186): the stamp is the interval's latest time at issue. -/
def stampOp (i : Instr) (d a : Reg) (n : Nat) (v : Thread → Nat) (s : State) : State :=
  issueHeld i
    (fun s g t => match stampCheck s g (t.readPair (rn a)) n with
      | some x => some x
      | none => withLaunch s g.ctx none (fun l => gateCheck l g.wg (t.readPair (rn a)) n))
    (fun s g t => withLaunch s g.ctx none (fun l => gateHold l g.wg (t.readPair (rn a)) n))
    (fun s g tid =>
      match s.threadOf g.ctx g.wg tid with
      | none => s
      | some t =>
        let stamp := (s.interval (coreDie g.core)).2
        (s.send g tid .ord (.stamped (v t) stamp) (t.readPair (rn a)) n 4 0 0 none (groupId s g)).modThread g.ctx g.wg tid
          (fun t => t.addResult (t.dests (rn d) 2) (some (wordsOf 2 stamp)))) s

/-- PDISC's checks (R191). A line of a lost page raises nothing (DESIGN CHOICE, log 133), and the trap operand of ALIGN and ACCESS is the
address, as in R150 (DESIGN CHOICE, log 134). -/
def discardCheck (s : State) (g : Group) (addr n : Nat) : Option TrapInfo :=
  if addr % 128 != 0 || n % 128 != 0 then trapOf .align addr
  else if withLaunch s g.ctx false (fun l => (rangeFrom 0 (n / 128)).all (fun k => (l.polderAt (addr + 128 * k)).isSome)) then none
  else trapOf .access addr

/-- Whether a length is no multiple of the page size (R192): in a range that spans several regions, of the page size of each for its share
(DEDUCED, log 137). -/
def rangeMisaligned (l : Launch) (r : Region) (addr n : Nat) : Bool :=
  match l.polderParts addr n with
  | [] | [_] => n % r.pageBytes != 0
  | ps => ps.any (fun p => p.2.1 % p.1.pageBytes != 0 || p.2.2 % p.1.pageBytes != 0)

/-- PMOVE's checks (R192): alignment to the region's pages, a range of the launch's polder regions, the reserved bits and
a GX handle that the launch holds. The trap operand is the address (DESIGN CHOICE, log 134). -/
def moveCheck (s : State) (g : Group) (addr n x : Nat) : Option TrapInfo :=
  withLaunch s g.ctx none (fun l =>
    match l.polderAt addr with
    | none => trapOf .access addr
    | some r =>
      if addr % r.pageBytes != 0 || rangeMisaligned l r addr n then trapOf .align addr
      else if ((l.polderParts addr n).map (fun p => p.2.2)).sum != n then trapOf .access addr
      else if bits x 15 3 != 0 then trapOf .access addr
      else if !(s.leases ++ s.evicted ++ s.wgs.flatMap (fun w => w.savedLeases)).any (fun y => !y.released && y.ctx == g.ctx && y.cls == 2 && y.handle / 4 == x / 2 ^ 18 && decide (x / 2 ^ 16 % 4 < y.count)) then
        trapOf .access addr
      else none)

/-- The status of a PMOVE whose lease was evicted before it issued (R192). -/
def moveAtOnce (s : State) (g : Group) (addr n target : Nat) : Word :=
  withLaunch s g.ctx 0 (fun l => BitVec.ofNat 32 (s.moveStatus l addr n target true))

/-- Whether a PMOVE of the launch on an overlapping range is in flight (R192). -/
def moveBusy (s : State) (ctx addr n : Nat) : Bool :=
  s.flight.any (fun a => match a.op with
    | .move m _ _ => a.ctx == ctx && rangesMeet a.addr m addr n
    | _ => false)

/-- redAdd (R173, R176). -/
def execRedAdd (sw : Bool) (p : BitVec 3) (f : Bool) (a : BitVec 6) (b : Reg) (s : State) : Result1 :=
  .next (redOp (.redAdd sw p f a b) .add p.toNat f a b s)

/-- redAnd (R173, R176). -/
def execRedAnd (sw : Bool) (p : BitVec 3) (f : Bool) (a : BitVec 6) (b : Reg) (s : State) : Result1 :=
  .next (redOp (.redAnd sw p f a b) .and p.toNat f a b s)

/-- redOr (R173, R176). -/
def execRedOr (sw : Bool) (p : BitVec 3) (f : Bool) (a : BitVec 6) (b : Reg) (s : State) : Result1 :=
  .next (redOp (.redOr sw p f a b) .or p.toNat f a b s)

/-- redXor (R173, R176). -/
def execRedXor (sw : Bool) (p : BitVec 3) (f : Bool) (a : BitVec 6) (b : Reg) (s : State) : Result1 :=
  .next (redOp (.redXor sw p f a b) .xor p.toNat f a b s)

/-- redMin (R173, R176). -/
def execRedMin (sw : Bool) (p : BitVec 3) (f : Bool) (a : BitVec 6) (b : Reg) (s : State) : Result1 :=
  .next (redOp (.redMin sw p f a b) .min p.toNat f a b s)

/-- redMax (R173, R176). -/
def execRedMax (sw : Bool) (p : BitVec 3) (f : Bool) (a : BitVec 6) (b : Reg) (s : State) : Result1 :=
  .next (redOp (.redMax sw p f a b) .max p.toNat f a b s)

/-- redMinu (R173, R176). -/
def execRedMinu (sw : Bool) (p : BitVec 3) (f : Bool) (a : BitVec 6) (b : Reg) (s : State) : Result1 :=
  .next (redOp (.redMinu sw p f a b) .minu p.toNat f a b s)

/-- redMaxu (R173, R176). -/
def execRedMaxu (sw : Bool) (p : BitVec 3) (f : Bool) (a : BitVec 6) (b : Reg) (s : State) : Result1 :=
  .next (redOp (.redMaxu sw p f a b) .maxu p.toNat f a b s)

/-- redFadd (R173, R176). -/
def execRedFadd (sw : Bool) (p : BitVec 3) (f : Bool) (a : BitVec 6) (b : Reg) (s : State) : Result1 :=
  .next (redOp (.redFadd sw p f a b) .fadd p.toNat f a b s)

/-- redHadd2 (R173, R176). -/
def execRedHadd2 (sw : Bool) (p : BitVec 3) (f : Bool) (a : BitVec 6) (b : Reg) (s : State) : Result1 :=
  .next (redOp (.redHadd2 sw p f a b) .hadd2 p.toNat f a b s)

/-- redFmin (R173, R176). -/
def execRedFmin (sw : Bool) (p : BitVec 3) (f : Bool) (a : BitVec 6) (b : Reg) (s : State) : Result1 :=
  .next (redOp (.redFmin sw p f a b) .fmin p.toNat f a b s)

/-- redFmax (R173, R176). -/
def execRedFmax (sw : Bool) (p : BitVec 3) (f : Bool) (a : BitVec 6) (b : Reg) (s : State) : Result1 :=
  .next (redOp (.redFmax sw p f a b) .fmax p.toNat f a b s)

/-- TXB (R178): BOUND when the abort count equals the limit; the retry count of another TXB starts anew. -/
def execTxb (sw : Bool) (m : BitVec 14) (s : State) : Result1 :=
  .next (issue (.txb sw m) (fun s g t => withLaunch s g.ctx none (fun l => if l.bound g.pc = some (beginAborts t g.pc) then trapOf .bound 0 else none)) (beginTx m.toInt) s)

/-- TXE (R181): stages 1 and 2 at issue, stage 3 at the homes. -/
def execTxe (d : Reg) (s : State) : Result1 :=
  .next (issue (.txe d) txeCheck (endTx (rn d)) s)

/-- TXA (R182). -/
def execTxa (m : BitVec 14) (s : State) : Result1 :=
  .next (issue (.txa m) (fun _ _ t => if t.tx.active then none else trapOf .illegal 0) (onThread (fun t => t.abortTx .explicit m.toNat)) s)

/-- STST (R186). -/
def execStst (sw : Bool) (d : Reg) (a : Reg) (b : Reg) (s : State) : Result1 :=
  .next (stampOp (.stst sw d a b) d a 4 (fun t => (t.readW (rn b)).toNat) s)

/-- STSTD (R186). -/
def execStstd (sw : Bool) (d : Reg) (a : Reg) (b : Reg) (s : State) : Result1 :=
  .next (stampOp (.ststd sw d a b) d a 8 (fun t => t.readPair (rn b)) s)

/-- CWAIT (R188): a wait for the waterline at the issuing die. -/
def execCwait (sw : Bool) (d : Reg) (a : Reg) (s : State) : Result1 :=
  .next (issue (.cwait sw d a) (fun s g _ => widenCheck s g.core) (fun s g tid => match s.threadOf g.ctx g.wg tid with
    | none => s
    | some t => sleepOn (.cwait (t.readPair (rn a))) (some (rn d)) g tid s) s)

/-- LDAS (R189). -/
def execLdas (sw : Bool) (d : Reg) (a : Reg) (b : Reg) (s : State) : Result1 :=
  .next (issue (.ldas sw d a b) (fun s g t => stampCheck s g (t.readPair (rn a)) 4) (fun s g tid => match s.threadOf g.ctx g.wg tid with
    | none => s
    | some t => s.send g tid .ord (.asOf (t.readPair (rn b))) (t.readPair (rn a)) 4 0 (rn d) 2 none (groupId s g)) s)

/-- PDISC (R191): a length of 0 does nothing and writes 0. -/
def execPdisc (sw : Bool) (d : Reg) (a : Reg) (b : Reg) (s : State) : Result1 :=
  .next (issue (.pdisc sw d a b) (fun s g t => discardCheck s g (t.readPair (rn a)) (t.readW (rn b)).toNat) (fun s g tid => match s.threadOf g.ctx g.wg tid with
    | none => s
    | some t =>
      let n := (t.readW (rn b)).toNat
      if n = 0 then giveWord g tid (rn d) 0 s
      else s.send g tid .ord (.discard n) (t.readPair (rn a)) n 0 (rn d) 1 none (groupId s g)) s)

/-- PMOVE (R192): BUSY at once where another move overlaps, and the status at once where its lease is already evicted; otherwise
it comes with the move. An answer EVICTED is no report of the eviction: the handle is held until LWAIT or a command reports it (DESIGN CHOICE,
log 124). -/
def execPmove (sw : Bool) (d : Reg) (a : Reg) (b : Reg) (s : State) : Result1 :=
  .next (issue (.pmove sw d a b) (fun s g t => moveCheck s g (t.readPair (rn a)) (t.readW (rn b)).toNat (t.readW (rn b + 1)).toNat) (fun s g tid => match s.threadOf g.ctx g.wg tid with
    | none => s
    | some t =>
      let n := (t.readW (rn b)).toNat
      let x := (t.readW (rn b + 1)).toNat
      if moveBusy s g.ctx (t.readPair (rn a)) n then giveWord g tid (rn d) 3 s
      else if s.evicted.any (fun y => y.ctx == g.ctx && y.handle / 4 == x / 2 ^ 18) then
        giveWord g tid (rn d) (moveAtOnce s g (t.readPair (rn a)) n (x % 8)) s
      else s.send g tid .ord (.move n (x % 8) (x / 2 ^ 16)) (t.readPair (rn a)) n 0 (rn d) 1 none (groupId s g)) s)

end Sys2Proof.Machine
end

