-- ==== Sys2Proof/Machine/Sync.lean ====
section
/-! DEFINITION. Group 0x7: fences, sluices, barriers, MON and MWAIT (R155-R166). -/

namespace Sys2Proof.Machine

/-- SLACQ and SLREL on an address that is no declared sluice raise ACCESS (R158). -/
def sluiceCheck (s : State) (g : Group) (addr : Nat) : Option TrapInfo :=
  withLaunch s g.ctx none (fun l => if (l.sluiceOf addr).isSome then none else trapOf .access addr)

/-- The scope of the sluice at an address (R158). -/
def sluiceScope (s : State) (g : Group) (addr : Nat) : Nat :=
  withLaunch s g.ctx 0 (fun l => ((l.sluiceOf addr).map (fun x => x.2)).getD 0)

/-- The count of a barrier lies in 1 to 2^31 (R161). -/
def countCheck (n : Word) : Option TrapInfo := if n.toNat = 0 ∨ 2 ^ 31 < n.toNat then trapOf .illegal 0 else none

/-- A member's arrival leaves for the root (R162); `f` gives its count and expected bytes. -/
def arriveAt (s : State) (g : Group) (tid level id : Nat) (f : Thread → Nat × Nat) : State :=
  match s.threadOf g.ctx g.wg tid with
  | none => s
  | some t =>
    let k := s.nextId
    (s.send g tid .ord (.arrive level (levelInst level g.core) id (f t).1 (f t).2) 0 0 level 0 0 none k).modThread g.ctx g.wg tid
      (fun t => { t with arrived := { level := level, inst := levelInst level g.core, id := id, flight := some k, phase := 0 }
        :: t.arrived.filter (fun r => !(r.level == level && r.id == id)) })

/-- Marks the watchers of a dropped line of a core as LOST (R165). -/
def loseLine (core line : Nat) (s : State) : State :=
  { s with wgs := s.wgs.map (fun w =>
      if w.core == core then
        { w with threads := w.threads.map (fun t =>
            { t with watches := t.watches.map (fun x => if x.line == line then { x with state := .lost } else x) }) }
      else w) }

/-- The lines of a core's watch table (R165): those that a thread of a workgroup on the core watches. One whose watches have been dropped,
or have ended with their threads, is in the table no more. -/
def State.watchTable (s : State) (core : Nat) : List (Nat × Nat) :=
  (s.coreOf core).watched.filter (fun x => s.wgs.any (fun w => w.core == core && w.saved == .running &&
    w.threads.any (fun t => t.watches.any (fun y => y.line == x.1 && y.state != .lost))))

/-- MON arms a watch of the thread (R165): a new line in a full table of 32 drops the one armed longest ago. -/
def armWatch (s : State) (g : Group) (tid addr : Nat) : State :=
  let line := withLaunch s g.ctx 0 (fun l => watchLine s l g.core addr)
  let table := s.watchTable g.core
  let rest := table.filter (fun x => x.1 != line)
  let full := !(table.any (fun x => x.1 == line)) && decide (32 ≤ table.length)
  let oldest := rest.foldl (fun (m : Nat × Nat) x => if x.2 < m.2 then x else m) ((rest.head?).getD (0, 0))
  let s1 := if full then loseLine g.core oldest.1 s else s
  let kept := if full then rest.filter (fun x => x.1 != oldest.1) else rest
  let s2 := s1.modCore g.core (fun c => { c with watched := kept ++ [(line, c.armings)], armings := c.armings + 1 })
  s2.modThread g.ctx g.wg tid (fun t =>
    { t with watches := { line := line, state := .armed } :: t.watches.filter (fun x => x.line != line) })

/-- FENCE (R155): the thread is held until the predecessors have performed at the scope; the run goes on. -/
def execFence (sw : Bool) (u : BitVec 7) (v : BitVec 7) (c : BitVec 3) (s : State) : Result1 :=
  .next (fixedOp (.fence sw u v c) (fun t => { t with status := .held (.fence u.toNat v.toNat c.toNat) }) s)

/-- PFENCE (R157). -/
def execPfence (sw : Bool) (u : BitVec 7) (v : BitVec 7) (s : State) : Result1 :=
  .next (fixedOp (.pfence sw u v) (fun t => { t with status := .held (.pfence u.toNat v.toNat) }) s)

/-- SLACQ (R160): a wait on the release count. -/
def execSlacq (sw : Bool) (d : Reg) (a : Reg) (b : Reg) (s : State) : Result1 :=
  .next (issue (.slacq sw d a b) (fun s g t => sluiceCheck s g (t.readPair (rn a))) (fun s g tid => match s.threadOf g.ctx g.wg tid with
    | none => s
    | some t => sleepOn (.slacq (t.readPair (rn a)) (t.readW (rn b)).toNat) (some (rn d)) g tid s) s)

/-- SLREL (R159): the thread does not wait. -/
def execSlrel (sw : Bool) (a : Reg) (s : State) : Result1 :=
  .next (issue (.slrel sw a) (fun s g t => sluiceCheck s g (t.readPair (rn a))) (fun s g tid => match s.threadOf g.ctx g.wg tid with
    | none => s
    | some t => s.send g tid .ord .release (t.readPair (rn a)) 4 (sluiceScope s g (t.readPair (rn a))) 0 0 none (groupId s g)) s)

/-- BARA (R161, R162). -/
def execBara (sw : Bool) (n : BitVec 4) (l : BitVec 3) (a : Reg) (s : State) : Result1 :=
  .next (issue (.bara sw n l a) (fun _ _ t => countCheck (t.readW (rn a))) (fun s g tid => arriveAt s g tid l.toNat n.toNat (fun t => ((t.readW (rn a)).toNat, 0))) s)

/-- BARW (R163). -/
def execBarw (sw : Bool) (n : BitVec 4) (l : BitVec 3) (s : State) : Result1 :=
  .next (issue (.barw sw n l) noCheck (fun s g tid => sleepOn (.barrier l.toNat n.toNat) none g tid s) s)

/-- BAR (R163): BARA followed by BARW, as one instruction. -/
def execBar (sw : Bool) (n : BitVec 4) (l : BitVec 3) (a : Reg) (s : State) : Result1 :=
  .next (issue (.bar sw n l a) (fun _ _ t => countCheck (t.readW (rn a))) (fun s g tid => sleepOn (.barrier l.toNat n.toNat) none g tid (arriveAt s g tid l.toNat n.toNat (fun t => ((t.readW (rn a)).toNat, 0)))) s)

/-- BARX (R164): word a the expected bytes, word a + 1 the count. -/
def execBarx (sw : Bool) (n : BitVec 4) (l : BitVec 3) (a : Reg) (s : State) : Result1 :=
  .next (issue (.barx sw n l a) (fun _ _ t => countCheck (t.readW (rn a + 1))) (fun s g tid => sleepOn (.barrier l.toNat n.toNat) none g tid (arriveAt s g tid l.toNat n.toNat (fun t => ((t.readW (rn a + 1)).toNat, (t.readW (rn a)).toNat)))) s)

/-- MON (R165): arms the watch, then loads at the home slice or bank. -/
def execMon (sw : Bool) (d : Reg) (a : Reg) (s : State) : Result1 :=
  .next (issue (.mon sw d a) (fun s g t => orTrap (withLaunch s g.ctx none (fun l => monCheck s l g.core t.parent (t.readPair (rn a)))) (polderCheck (fun t => t.readPair (rn a)) s g t)) (fun s g tid => match s.threadOf g.ctx g.wg tid with
    | none => s
    | some t => (armWatch s g tid (t.readPair (rn a))).send g tid .ord .mon (t.readPair (rn a)) 4 0 (rn d) 1 none (groupId s g)) s)

/-- MWAIT (R166). -/
def execMwait (sw : Bool) (d : Reg) (a : Reg) (s : State) : Result1 :=
  .next (issue (.mwait sw d a) (fun s g t => withLaunch s g.ctx none (fun l => monCheck s l g.core t.parent (t.readPair (rn a)))) (fun s g tid => match s.threadOf g.ctx g.wg tid with
    | none => s
    | some t => sleepOn (.mwait (withLaunch s g.ctx 0 (fun l => watchLine s l g.core (t.readPair (rn a))))) (some (rn d)) g tid s) s)

end Sys2Proof.Machine
end

