-- ==== Sys2Proof/Machine/Dispatch.lean ====
section
/-! DEFINITION. What each instruction does: one arm for each constructor of Instr, each one call of its meaning. -/

namespace Sys2Proof.Machine

/-- The meaning of an instruction or step at a state. -/
def exec (i : Instr) (s : State) : Host.Outcome State Fault Refusal :=
  match i with
  | .add sw d a b => Sys2Proof.Machine.execAdd sw d a b s
  | .sub sw d a b => Sys2Proof.Machine.execSub sw d a b s
  | .mul sw d a b => Sys2Proof.Machine.execMul sw d a b s
  | .mulh sw d a b => Sys2Proof.Machine.execMulh sw d a b s
  | .mulhu sw d a b => Sys2Proof.Machine.execMulhu sw d a b s
  | .mad sw d a b => Sys2Proof.Machine.execMad sw d a b s
  | .divu sw d a b => Sys2Proof.Machine.execDivu sw d a b s
  | .remu sw d a b => Sys2Proof.Machine.execRemu sw d a b s
  | .and sw d a b => Sys2Proof.Machine.execAnd sw d a b s
  | .or sw d a b => Sys2Proof.Machine.execOr sw d a b s
  | .xor sw d a b => Sys2Proof.Machine.execXor sw d a b s
  | .andn sw d a b => Sys2Proof.Machine.execAndn sw d a b s
  | .shl sw d a b => Sys2Proof.Machine.execShl sw d a b s
  | .shr sw d a b => Sys2Proof.Machine.execShr sw d a b s
  | .sra sw d a b => Sys2Proof.Machine.execSra sw d a b s
  | .rot sw d a b => Sys2Proof.Machine.execRot sw d a b s
  | .min sw d a b => Sys2Proof.Machine.execMin sw d a b s
  | .max sw d a b => Sys2Proof.Machine.execMax sw d a b s
  | .minu sw d a b => Sys2Proof.Machine.execMinu sw d a b s
  | .maxu sw d a b => Sys2Proof.Machine.execMaxu sw d a b s
  | .seq sw d a b => Sys2Proof.Machine.execSeq sw d a b s
  | .sne sw d a b => Sys2Proof.Machine.execSne sw d a b s
  | .slt sw d a b => Sys2Proof.Machine.execSlt sw d a b s
  | .sltu sw d a b => Sys2Proof.Machine.execSltu sw d a b s
  | .sle sw d a b => Sys2Proof.Machine.execSle sw d a b s
  | .sleu sw d a b => Sys2Proof.Machine.execSleu sw d a b s
  | .cmovz sw d a b => Sys2Proof.Machine.execCmovz sw d a b s
  | .cmovn sw d a b => Sys2Proof.Machine.execCmovn sw d a b s
  | .add64 sw d a b => Sys2Proof.Machine.execAdd64 sw d a b s
  | .sub64 sw d a b => Sys2Proof.Machine.execSub64 sw d a b s
  | .mul64 sw d a b => Sys2Proof.Machine.execMul64 sw d a b s
  | .addx sw d a b => Sys2Proof.Machine.execAddx sw d a b s
  | .addx4 sw d a b => Sys2Proof.Machine.execAddx4 sw d a b s
  | .bfx sw d a b => Sys2Proof.Machine.execBfx sw d a b s
  | .bfxs sw d a b => Sys2Proof.Machine.execBfxs sw d a b s
  | .bfi sw d a b => Sys2Proof.Machine.execBfi sw d a b s
  | .addi sw d a m => Sys2Proof.Machine.execAddi sw d a m s
  | .nop sw => Sys2Proof.Machine.execNop sw s
  | .andi sw d a m => Sys2Proof.Machine.execAndi sw d a m s
  | .ori sw d a m => Sys2Proof.Machine.execOri sw d a m s
  | .xori sw d a m => Sys2Proof.Machine.execXori sw d a m s
  | .shli sw d a m => Sys2Proof.Machine.execShli sw d a m s
  | .shri sw d a m => Sys2Proof.Machine.execShri sw d a m s
  | .srai sw d a m => Sys2Proof.Machine.execSrai sw d a m s
  | .slti sw d a m => Sys2Proof.Machine.execSlti sw d a m s
  | .sltui sw d a m => Sys2Proof.Machine.execSltui sw d a m s
  | .seqi sw d a m => Sys2Proof.Machine.execSeqi sw d a m s
  | .muli sw d a m => Sys2Proof.Machine.execMuli sw d a m s
  | .add64i sw d a m => Sys2Proof.Machine.execAdd64i sw d a m s
  | .clz sw d a => Sys2Proof.Machine.execClz sw d a s
  | .popc sw d a => Sys2Proof.Machine.execPopc sw d a s
  | .brev sw d a => Sys2Proof.Machine.execBrev sw d a s
  | .abs sw d a => Sys2Proof.Machine.execAbs sw d a s
  | .sexb sw d a => Sys2Proof.Machine.execSexb sw d a s
  | .sexh sw d a => Sys2Proof.Machine.execSexh sw d a s
  | .movi sw d m => Sys2Proof.Machine.execMovi sw d m s
  | .movw sw d lit => Sys2Proof.Machine.execMovw sw d lit s
  | .fadd sw d a b => Sys2Proof.Machine.execFadd sw d a b s
  | .fsub sw d a b => Sys2Proof.Machine.execFsub sw d a b s
  | .fmul sw d a b => Sys2Proof.Machine.execFmul sw d a b s
  | .ffma sw d a b => Sys2Proof.Machine.execFfma sw d a b s
  | .fmin sw d a b => Sys2Proof.Machine.execFmin sw d a b s
  | .fmax sw d a b => Sys2Proof.Machine.execFmax sw d a b s
  | .fdiv sw d a b => Sys2Proof.Machine.execFdiv sw d a b s
  | .fseq sw d a b => Sys2Proof.Machine.execFseq sw d a b s
  | .fslt sw d a b => Sys2Proof.Machine.execFslt sw d a b s
  | .fsle sw d a b => Sys2Proof.Machine.execFsle sw d a b s
  | .fsun sw d a b => Sys2Proof.Machine.execFsun sw d a b s
  | .fcpys sw d a b => Sys2Proof.Machine.execFcpys sw d a b s
  | .fsqrt sw d a => Sys2Proof.Machine.execFsqrt sw d a s
  | .frcp sw d a => Sys2Proof.Machine.execFrcp sw d a s
  | .frsq sw d a => Sys2Proof.Machine.execFrsq sw d a s
  | .fexp2 sw d a => Sys2Proof.Machine.execFexp2 sw d a s
  | .flog2 sw d a => Sys2Proof.Machine.execFlog2 sw d a s
  | .fabs sw d a => Sys2Proof.Machine.execFabs sw d a s
  | .fneg sw d a => Sys2Proof.Machine.execFneg sw d a s
  | .hadd2 sw d a b => Sys2Proof.Machine.execHadd2 sw d a b s
  | .hmul2 sw d a b => Sys2Proof.Machine.execHmul2 sw d a b s
  | .hfma2 sw d a b => Sys2Proof.Machine.execHfma2 sw d a b s
  | .hmax2 sw d a b => Sys2Proof.Machine.execHmax2 sw d a b s
  | .eadd2 sw d a b => Sys2Proof.Machine.execEadd2 sw d a b s
  | .emul2 sw d a b => Sys2Proof.Machine.execEmul2 sw d a b s
  | .efma2 sw d a b => Sys2Proof.Machine.execEfma2 sw d a b s
  | .emax2 sw d a b => Sys2Proof.Machine.execEmax2 sw d a b s
  | .cvtF32Sw sw d a => Sys2Proof.Machine.execCvtF32Sw sw d a s
  | .cvtF32Uw sw d a => Sys2Proof.Machine.execCvtF32Uw sw d a s
  | .cvtSwF32 sw d a => Sys2Proof.Machine.execCvtSwF32 sw d a s
  | .cvtSwF32Rn sw d a => Sys2Proof.Machine.execCvtSwF32Rn sw d a s
  | .cvtUwF32 sw d a => Sys2Proof.Machine.execCvtUwF32 sw d a s
  | .cvtBf16F32 sw d a b => Sys2Proof.Machine.execCvtBf16F32 sw d a b s
  | .cvtBf16F32Sr sw d a b => Sys2Proof.Machine.execCvtBf16F32Sr sw d a b s
  | .cvtFp16F32 sw d a b => Sys2Proof.Machine.execCvtFp16F32 sw d a b s
  | .cvtF32Bf16 sw d a => Sys2Proof.Machine.execCvtF32Bf16 sw d a s
  | .cvtF32Fp16 sw d a => Sys2Proof.Machine.execCvtF32Fp16 sw d a s
  | .cvtLc8F32 sw d a => Sys2Proof.Machine.execCvtLc8F32 sw d a s
  | .cvtF32Lc8 sw d a => Sys2Proof.Machine.execCvtF32Lc8 sw d a s
  | .cvtI8F32 sw d a => Sys2Proof.Machine.execCvtI8F32 sw d a s
  | .br sw m => Sys2Proof.Machine.execBr sw m s
  | .call sw m => Sys2Proof.Machine.execCall sw m s
  | .bez sw d m => Sys2Proof.Machine.execBez sw d m s
  | .bnz sw d m => Sys2Proof.Machine.execBnz sw d m s
  | .callr sw a => Sys2Proof.Machine.execCallr sw a s
  | .jr sw a => Sys2Proof.Machine.execJr sw a s
  | .ret sw => Sys2Proof.Machine.execRet sw s
  | .looph sw d m => Sys2Proof.Machine.execLooph sw d m s
  | .loope sw d m => Sys2Proof.Machine.execLoope sw d m s
  | .wbase sw m => Sys2Proof.Machine.execWbase sw m s
  | .wbadj sw m => Sys2Proof.Machine.execWbadj sw m s
  | .exit sw => Sys2Proof.Machine.execExit sw s
  | .trap sw m => Sys2Proof.Machine.execTrap sw m s
  | .brk sw m => Sys2Proof.Machine.execBrk sw m s
  | .shfl sw d a b => Sys2Proof.Machine.execShfl sw d a b s
  | .shflx sw d a b => Sys2Proof.Machine.execShflx sw d a b s
  | .shflu sw d a b => Sys2Proof.Machine.execShflu sw d a b s
  | .shfld sw d a b => Sys2Proof.Machine.execShfld sw d a b s
  | .vany sw d a => Sys2Proof.Machine.execVany sw d a s
  | .vall sw d a => Sys2Proof.Machine.execVall sw d a s
  | .vbal sw d a => Sys2Proof.Machine.execVbal sw d a s
  | .matchOp sw d a => Sys2Proof.Machine.execMatchOp sw d a s
  | .gsum sw d a => Sys2Proof.Machine.execGsum sw d a s
  | .lanes sw d => Sys2Proof.Machine.execLanes sw d s
  | .clki sw d => Sys2Proof.Machine.execClki sw d s
  | .mfs sw d m => Sys2Proof.Machine.execMfs sw d m s
  | .mts sw d m => Sys2Proof.Machine.execMts sw d m s
  | .ldb sw d a m => Sys2Proof.Machine.execLdb sw d a m s
  | .ldbs sw d a m => Sys2Proof.Machine.execLdbs sw d a m s
  | .ldh sw d a m => Sys2Proof.Machine.execLdh sw d a m s
  | .ldhs sw d a m => Sys2Proof.Machine.execLdhs sw d a m s
  | .ldw sw d a m => Sys2Proof.Machine.execLdw sw d a m s
  | .ldd sw d a m => Sys2Proof.Machine.execLdd sw d a m s
  | .ldq sw d a m => Sys2Proof.Machine.execLdq sw d a m s
  | .stb sw d a m => Sys2Proof.Machine.execStb sw d a m s
  | .sth sw d a m => Sys2Proof.Machine.execSth sw d a m s
  | .stw sw d a m => Sys2Proof.Machine.execStw sw d a m s
  | .std sw d a m => Sys2Proof.Machine.execStd sw d a m s
  | .stq sw d a m => Sys2Proof.Machine.execStq sw d a m s
  | .ldc sw d a m => Sys2Proof.Machine.execLdc sw d a m s
  | .ldcd sw d a m => Sys2Proof.Machine.execLdcd sw d a m s
  | .ldbx sw d a b => Sys2Proof.Machine.execLdbx sw d a b s
  | .ldbsx sw d a b => Sys2Proof.Machine.execLdbsx sw d a b s
  | .ldhx sw d a b => Sys2Proof.Machine.execLdhx sw d a b s
  | .ldhsx sw d a b => Sys2Proof.Machine.execLdhsx sw d a b s
  | .ldwx sw d a b => Sys2Proof.Machine.execLdwx sw d a b s
  | .lddx sw d a b => Sys2Proof.Machine.execLddx sw d a b s
  | .ldqx sw d a b => Sys2Proof.Machine.execLdqx sw d a b s
  | .stbx sw d a b => Sys2Proof.Machine.execStbx sw d a b s
  | .sthx sw d a b => Sys2Proof.Machine.execSthx sw d a b s
  | .stwx sw d a b => Sys2Proof.Machine.execStwx sw d a b s
  | .stdx sw d a b => Sys2Proof.Machine.execStdx sw d a b s
  | .stqx sw d a b => Sys2Proof.Machine.execStqx sw d a b s
  | .ldcx sw d a b => Sys2Proof.Machine.execLdcx sw d a b s
  | .ldcdx sw d a b => Sys2Proof.Machine.execLdcdx sw d a b s
  | .fence sw u v c => Sys2Proof.Machine.execFence sw u v c s
  | .pfence sw u v => Sys2Proof.Machine.execPfence sw u v s
  | .slacq sw d a b => Sys2Proof.Machine.execSlacq sw d a b s
  | .slrel sw a => Sys2Proof.Machine.execSlrel sw a s
  | .bara sw n l a => Sys2Proof.Machine.execBara sw n l a s
  | .barw sw n l => Sys2Proof.Machine.execBarw sw n l s
  | .bar sw n l a => Sys2Proof.Machine.execBar sw n l a s
  | .barx sw n l a => Sys2Proof.Machine.execBarx sw n l a s
  | .mon sw d a => Sys2Proof.Machine.execMon sw d a s
  | .mwait sw d a => Sys2Proof.Machine.execMwait sw d a s
  | .amoAdd sw p d a f b => Sys2Proof.Machine.execAmoAdd sw p d a f b s
  | .amoAnd sw p d a f b => Sys2Proof.Machine.execAmoAnd sw p d a f b s
  | .amoOr sw p d a f b => Sys2Proof.Machine.execAmoOr sw p d a f b s
  | .amoXor sw p d a f b => Sys2Proof.Machine.execAmoXor sw p d a f b s
  | .amoMin sw p d a f b => Sys2Proof.Machine.execAmoMin sw p d a f b s
  | .amoMax sw p d a f b => Sys2Proof.Machine.execAmoMax sw p d a f b s
  | .amoXchg sw p d a f b => Sys2Proof.Machine.execAmoXchg sw p d a f b s
  | .amoFadd sw p d a f b => Sys2Proof.Machine.execAmoFadd sw p d a f b s
  | .amoMinu sw p d a f b => Sys2Proof.Machine.execAmoMinu sw p d a f b s
  | .amoMaxu sw p d a f b => Sys2Proof.Machine.execAmoMaxu sw p d a f b s
  | .amoAdd64 sw p d a f b => Sys2Proof.Machine.execAmoAdd64 sw p d a f b s
  | .casW sw p d a f b => Sys2Proof.Machine.execCasW sw p d a f b s
  | .casD sw p d a f b => Sys2Proof.Machine.execCasD sw p d a f b s
  | .gts sw p d a f b => Sys2Proof.Machine.execGts sw p d a f b s
  | .vcas sw p d a f b => Sys2Proof.Machine.execVcas sw p d a f b s
  | .tcas sw p d a f b => Sys2Proof.Machine.execTcas sw p d a f b s
  | .redAdd sw p f a b => Sys2Proof.Machine.execRedAdd sw p f a b s
  | .redAnd sw p f a b => Sys2Proof.Machine.execRedAnd sw p f a b s
  | .redOr sw p f a b => Sys2Proof.Machine.execRedOr sw p f a b s
  | .redXor sw p f a b => Sys2Proof.Machine.execRedXor sw p f a b s
  | .redMin sw p f a b => Sys2Proof.Machine.execRedMin sw p f a b s
  | .redMax sw p f a b => Sys2Proof.Machine.execRedMax sw p f a b s
  | .redMinu sw p f a b => Sys2Proof.Machine.execRedMinu sw p f a b s
  | .redMaxu sw p f a b => Sys2Proof.Machine.execRedMaxu sw p f a b s
  | .redFadd sw p f a b => Sys2Proof.Machine.execRedFadd sw p f a b s
  | .redHadd2 sw p f a b => Sys2Proof.Machine.execRedHadd2 sw p f a b s
  | .redFmin sw p f a b => Sys2Proof.Machine.execRedFmin sw p f a b s
  | .redFmax sw p f a b => Sys2Proof.Machine.execRedFmax sw p f a b s
  | .txb sw m => Sys2Proof.Machine.execTxb sw m s
  | .txe d => Sys2Proof.Machine.execTxe d s
  | .txa m => Sys2Proof.Machine.execTxa m s
  | .stst sw d a b => Sys2Proof.Machine.execStst sw d a b s
  | .ststd sw d a b => Sys2Proof.Machine.execStstd sw d a b s
  | .cwait sw d a => Sys2Proof.Machine.execCwait sw d a s
  | .ldas sw d a b => Sys2Proof.Machine.execLdas sw d a b s
  | .pdisc sw d a b => Sys2Proof.Machine.execPdisc sw d a b s
  | .pmove sw d a b => Sys2Proof.Machine.execPmove sw d a b s
  | .lease sw d a b => Sys2Proof.Machine.execLease sw d a b s
  | .lwait sw d a => Sys2Proof.Machine.execLwait sw d a s
  | .lrel sw d a => Sys2Proof.Machine.execLrel sw d a s
  | .lstat sw d a => Sys2Proof.Machine.execLstat sw d a s
  | .tcopy sw d a b => Sys2Proof.Machine.execTcopy sw d a b s
  | .tcopym sw d a b => Sys2Proof.Machine.execTcopym sw d a b s
  | .gath sw d a b => Sys2Proof.Machine.execGath sw d a b s
  | .scat sw d a b => Sys2Proof.Machine.execScat sw d a b s
  | .coll sw d a b => Sys2Proof.Machine.execColl sw d a b s
  | .vdec sw d a b => Sys2Proof.Machine.execVdec sw d a b s
  | .qfence sw d a => Sys2Proof.Machine.execQfence sw d a s
  | .bseal sw d => Sys2Proof.Machine.execBseal sw d s
  | .bwait sw d a => Sys2Proof.Machine.execBwait sw d a s
  | .bstat sw d a => Sys2Proof.Machine.execBstat sw d a s
  | .mxma sw d a b => Sys2Proof.Machine.execMxma sw d a b s
  | .accz sw d => Sys2Proof.Machine.execAccz sw d s
  | .accout sw d a => Sys2Proof.Machine.execAccout sw d a s
  | .talloc sw d => Sys2Proof.Machine.execTalloc sw d s
  | .tfree sw d a => Sys2Proof.Machine.execTfree sw d a s
  | .tstate sw d a => Sys2Proof.Machine.execTstate sw d a s
  | .tset sw d a => Sys2Proof.Machine.execTset sw d a s
  | .twait sw d a b => Sys2Proof.Machine.execTwait sw d a b s
  | .ldt sw d a b => Sys2Proof.Machine.execLdt sw d a b s
  | .stt sw d a b => Sys2Proof.Machine.execStt sw d a b s
  | .rgive m => Sys2Proof.Machine.execRgive m s
  | .rclaim sw d m => Sys2Proof.Machine.execRclaim sw d m s
  | .rpool sw d => Sys2Proof.Machine.execRpool sw d s
  | .spawn sw d a b => Sys2Proof.Machine.execSpawn sw d a b s
  | .tokw sw d => Sys2Proof.Machine.execTokw sw d s
  | .tokp sw d => Sys2Proof.Machine.execTokp sw d s
  | .rndb sw d => Sys2Proof.Machine.execRndb sw d s
  | .mfsr sw d m => Sys2Proof.Machine.execMfsr sw d m s
  | .mtsr sw d m => Sys2Proof.Machine.execMtsr sw d m s
  | .tlbi sw d a b => Sys2Proof.Machine.execTlbi sw d a b s
  | .eret => Sys2Proof.Machine.execEret s
  | .halt a => Sys2Proof.Machine.execHalt a s
  | .ctxsav sw d a => Sys2Proof.Machine.execCtxsav sw d a s
  | .ctxres sw d a b => Sys2Proof.Machine.execCtxres sw d a b s
  | .sysc sw m => Sys2Proof.Machine.execSysc sw m s
  | .runParkComplete ctx wg tids => Sys2Proof.Machine.execRunParkComplete ctx wg tids s
  | .localityWindowEnd core => Sys2Proof.Machine.execLocalityWindowEnd core s
  | .workgroupDispatch ctx wg core => Sys2Proof.Machine.execWorkgroupDispatch ctx wg core s
  | .workgroupEnd ctx wg => Sys2Proof.Machine.execWorkgroupEnd ctx wg s
  | .continuationRecord id => Sys2Proof.Machine.execContinuationRecord id s
  | .binCloseTimeout cluster bin => Sys2Proof.Machine.execBinCloseTimeout cluster bin s
  | .detGenerationForm ctx => Sys2Proof.Machine.execDetGenerationForm ctx s
  | .preemption ctx wg cause => Sys2Proof.Machine.execPreemption ctx wg cause s
  | .resumption ctx wg core => Sys2Proof.Machine.execResumption ctx wg core s
  | .waitWake ctx wg tids => Sys2Proof.Machine.execWaitWake ctx wg tids s
  | .waitTimeout ctx wg tid => Sys2Proof.Machine.execWaitTimeout ctx wg tid s
  | .tileFillComplete cluster tile => Sys2Proof.Machine.execTileFillComplete cluster tile s
  | .tileReaderFinish cluster tile => Sys2Proof.Machine.execTileReaderFinish cluster tile s
  | .entryStart die site => Sys2Proof.Machine.execEntryStart die site s
  | .macroStep die site => Sys2Proof.Machine.execMacroStep die site s
  | .entryComplete die site => Sys2Proof.Machine.execEntryComplete die site s
  | .collContribution ctx tag rank op n data => Sys2Proof.Machine.execCollContribution ctx tag rank op n data s
  | .leaseGrant die => Sys2Proof.Machine.execLeaseGrant die s
  | .siteWakeComplete die site => Sys2Proof.Machine.execSiteWakeComplete die site s
  | .lingerExpiry die site => Sys2Proof.Machine.execLingerExpiry die site s
  | .loadPerform id => Sys2Proof.Machine.execLoadPerform id s
  | .storePerform id => Sys2Proof.Machine.execStorePerform id s
  | .atomicPerform id => Sys2Proof.Machine.execAtomicPerform id s
  | .reductionPerform id => Sys2Proof.Machine.execReductionPerform id s
  | .detReductionArrival id => Sys2Proof.Machine.execDetReductionArrival id s
  | .detEndMarker ctx wg => Sys2Proof.Machine.execDetEndMarker ctx wg s
  | .tokenPass ctx => Sys2Proof.Machine.execTokenPass ctx s
  | .txHomeValidation ctx wg tid => Sys2Proof.Machine.execTxHomeValidation ctx wg tid s
  | .regdlDetect ctx wg => Sys2Proof.Machine.execRegdlDetect ctx wg s
  | .stampArrival id => Sys2Proof.Machine.execStampArrival id s
  | .waterlineForm first => Sys2Proof.Machine.execWaterlineForm first s
  | .waterlineDelivery die slice => Sys2Proof.Machine.execWaterlineDelivery die slice s
  | .barrierArrival id => Sys2Proof.Machine.execBarrierArrival id s
  | .barrierRelease ctx wg tids => Sys2Proof.Machine.execBarrierRelease ctx wg tids s
  | .pmoveComplete id => Sys2Proof.Machine.execPmoveComplete id s
  | .ringRegister block priority slice privileged => Sys2Proof.Machine.execRingRegister block priority slice privileged s
  | .survey ring => Sys2Proof.Machine.execSurvey ring s
  | .accept ring => Sys2Proof.Machine.execAccept ring s
  | .decline ring => Sys2Proof.Machine.execDecline ring s
  | .writePkt ring => Sys2Proof.Machine.execWritePkt ring s
  | .signalPkt ring => Sys2Proof.Machine.execSignalPkt ring s
  | .waitPkt ring => Sys2Proof.Machine.execWaitPkt ring s
  | .writeSignal ring => Sys2Proof.Machine.execWriteSignal ring s
  | .copyPkt ring => Sys2Proof.Machine.execCopyPkt ring s
  | .partition ring => Sys2Proof.Machine.execPartition ring s
  | .link ring => Sys2Proof.Machine.execLink ring s
  | .packetRefused ring => Sys2Proof.Machine.execPacketRefused ring s
  | .slotUnwrittenTimeout ring => Sys2Proof.Machine.execSlotUnwrittenTimeout ring s
  | .sliceExpiry => Sys2Proof.Machine.execSliceExpiry s
  | .waitStepResume ring => Sys2Proof.Machine.execWaitStepResume ring s
  | .surveyComplete quote => Sys2Proof.Machine.execSurveyComplete quote s
  | .quoteDeadlineExpiry quote => Sys2Proof.Machine.execQuoteDeadlineExpiry quote s
  | .pageFaultDoorbell ctx page mapped => Sys2Proof.Machine.execPageFaultDoorbell ctx page mapped s
  | .launchStart ctx => Sys2Proof.Machine.execLaunchStart ctx s
  | .launchComplete ctx => Sys2Proof.Machine.execLaunchComplete ctx s
  | .accountBacklogDrain => Sys2Proof.Machine.execAccountBacklogDrain s
  | .idleTimerExpiry cluster => Sys2Proof.Machine.execIdleTimerExpiry cluster s
  | .gatingComplete cluster => Sys2Proof.Machine.execGatingComplete cluster s
  | .clusterWakeComplete cluster => Sys2Proof.Machine.execClusterWakeComplete cluster s
  | .powerLoop readings => Sys2Proof.Machine.execPowerLoop readings s
  | .targetApply die => Sys2Proof.Machine.execTargetApply die s
  | .thermalTrip die => Sys2Proof.Machine.execThermalTrip die s
  | .supplyDroop die => Sys2Proof.Machine.execSupplyDroop die s
  | .mchk touched => Sys2Proof.Machine.execMchk touched s
  | .checkValueMismatch address place found consumers => Sys2Proof.Machine.execCheckValueMismatch address place found consumers s
  | .quiesceRequest id => Sys2Proof.Machine.execQuiesceRequest id s
  | .quiesceRelease id => Sys2Proof.Machine.execQuiesceRelease id s
  | .clearRefused id => Sys2Proof.Machine.execClearRefused id s
  | .quiesceComplete die => Sys2Proof.Machine.execQuiesceComplete die s
  | .quiesceRefuse die => Sys2Proof.Machine.execQuiesceRefuse die s
  | .pidWrite id => Sys2Proof.Machine.execPidWrite id s
  | .pilvWrite id => Sys2Proof.Machine.execPilvWrite id s
  | .pbndWrite id => Sys2Proof.Machine.execPbndWrite id s
  | .energyRead ctx wg tid => Sys2Proof.Machine.execEnergyRead ctx wg tid s
  | .edieRead id => Sys2Proof.Machine.execEdieRead id s
  | .registerWrite id => Sys2Proof.Machine.execRegisterWrite id s
  | .clockReferenceLoss die => Sys2Proof.Machine.execClockReferenceLoss die s
  | .linkRetrain module => Sys2Proof.Machine.execLinkRetrain module s
  | .linkTraining link peer => Sys2Proof.Machine.execLinkTraining link peer s
  | .resetModule => Sys2Proof.Machine.execResetModule s
  | .recoveryImage image => Sys2Proof.Machine.execRecoveryImage image s
  | .selfTest dies findings => Sys2Proof.Machine.execSelfTest dies findings s
  | .getVersion offered => Sys2Proof.Machine.execGetVersion offered s
  | .spdmMeasurements index => Sys2Proof.Machine.execSpdmMeasurements index s
  | .determinismManifestRequest => Sys2Proof.Machine.execDeterminismManifestRequest s
  | .telemetry => Sys2Proof.Machine.execTelemetry s
  | .pcieInboundWrite address data => Sys2Proof.Machine.execPcieInboundWrite address data s
  | .pcieInboundRead address length => Sys2Proof.Machine.execPcieInboundRead address length s
  | .illegalWordIssue operand => Sys2Proof.Machine.execIllegalWordIssue operand s
  | .siteFailure die site => Sys2Proof.Machine.execSiteFailure die site s
  | .polderMigrationOrder ctx base length target byDevice => Sys2Proof.Machine.execPolderMigrationOrder ctx base length target byDevice s
  | .firmwareUpdate image => Sys2Proof.Machine.execFirmwareUpdate image s
  | .marginingRestartRequest die => Sys2Proof.Machine.execMarginingRestartRequest die s

end Sys2Proof.Machine
end

