-- ==== Sys2Proof/Machine/Schedule.lean ====
section
/-! DEFINITION. What happens next. A core issues the oldest eligible entry of its PC table (R18 to R22); which agent moves
when the manual leaves it open is the agenda's choice, and a default one where the agenda is empty (log 1). And how an
instruction comes to stand where the machine fetches next (log 23). -/

namespace Sys2Proof.Machine

/-- What a row without a word does: its meaning, as in exec. -/
def Event.perform (e : Event) (s : State) : Host.Outcome State Fault Refusal :=
  match e with
  | .runParkComplete ctx wg tids => execRunParkComplete ctx wg tids s
  | .localityWindowEnd core => execLocalityWindowEnd core s
  | .workgroupDispatch ctx wg core => execWorkgroupDispatch ctx wg core s
  | .workgroupEnd ctx wg => execWorkgroupEnd ctx wg s
  | .continuationRecord id => execContinuationRecord id s
  | .binCloseTimeout cluster bin => execBinCloseTimeout cluster bin s
  | .detGenerationForm ctx => execDetGenerationForm ctx s
  | .preemption ctx wg cause => execPreemption ctx wg cause s
  | .resumption ctx wg core => execResumption ctx wg core s
  | .waitWake ctx wg tids => execWaitWake ctx wg tids s
  | .waitTimeout ctx wg tid => execWaitTimeout ctx wg tid s
  | .tileFillComplete cluster tile => execTileFillComplete cluster tile s
  | .tileReaderFinish cluster tile => execTileReaderFinish cluster tile s
  | .entryStart die site => execEntryStart die site s
  | .macroStep die site => execMacroStep die site s
  | .entryComplete die site => execEntryComplete die site s
  | .collContribution ctx tag rank op n data => execCollContribution ctx tag rank op n data s
  | .leaseGrant die => execLeaseGrant die s
  | .siteWakeComplete die site => execSiteWakeComplete die site s
  | .lingerExpiry die site => execLingerExpiry die site s
  | .loadPerform id => execLoadPerform id s
  | .storePerform id => execStorePerform id s
  | .atomicPerform id => execAtomicPerform id s
  | .reductionPerform id => execReductionPerform id s
  | .detReductionArrival id => execDetReductionArrival id s
  | .detEndMarker ctx wg => execDetEndMarker ctx wg s
  | .tokenPass ctx => execTokenPass ctx s
  | .txHomeValidation ctx wg tid => execTxHomeValidation ctx wg tid s
  | .regdlDetect ctx wg => execRegdlDetect ctx wg s
  | .stampArrival id => execStampArrival id s
  | .waterlineForm first => execWaterlineForm first s
  | .waterlineDelivery die slice => execWaterlineDelivery die slice s
  | .barrierArrival id => execBarrierArrival id s
  | .barrierRelease ctx wg tids => execBarrierRelease ctx wg tids s
  | .pmoveComplete id => execPmoveComplete id s
  | .ringRegister block priority slice privileged => execRingRegister block priority slice privileged s
  | .survey ring => execSurvey ring s
  | .accept ring => execAccept ring s
  | .decline ring => execDecline ring s
  | .writePkt ring => execWritePkt ring s
  | .signalPkt ring => execSignalPkt ring s
  | .waitPkt ring => execWaitPkt ring s
  | .writeSignal ring => execWriteSignal ring s
  | .copyPkt ring => execCopyPkt ring s
  | .partition ring => execPartition ring s
  | .link ring => execLink ring s
  | .packetRefused ring => execPacketRefused ring s
  | .slotUnwrittenTimeout ring => execSlotUnwrittenTimeout ring s
  | .sliceExpiry => execSliceExpiry s
  | .waitStepResume ring => execWaitStepResume ring s
  | .surveyComplete quote => execSurveyComplete quote s
  | .quoteDeadlineExpiry quote => execQuoteDeadlineExpiry quote s
  | .pageFaultDoorbell ctx page mapped => execPageFaultDoorbell ctx page mapped s
  | .launchStart ctx => execLaunchStart ctx s
  | .launchComplete ctx => execLaunchComplete ctx s
  | .accountBacklogDrain => execAccountBacklogDrain s
  | .idleTimerExpiry cluster => execIdleTimerExpiry cluster s
  | .gatingComplete cluster => execGatingComplete cluster s
  | .clusterWakeComplete cluster => execClusterWakeComplete cluster s
  | .powerLoop readings => execPowerLoop readings s
  | .targetApply die => execTargetApply die s
  | .thermalTrip die => execThermalTrip die s
  | .supplyDroop die => execSupplyDroop die s
  | .mchk touched => execMchk touched s
  | .checkValueMismatch address place found consumers => execCheckValueMismatch address place found consumers s
  | .quiesceRequest id => execQuiesceRequest id s
  | .quiesceRelease id => execQuiesceRelease id s
  | .clearRefused id => execClearRefused id s
  | .quiesceComplete die => execQuiesceComplete die s
  | .quiesceRefuse die => execQuiesceRefuse die s
  | .pidWrite id => execPidWrite id s
  | .pilvWrite id => execPilvWrite id s
  | .pbndWrite id => execPbndWrite id s
  | .energyRead ctx wg tid => execEnergyRead ctx wg tid s
  | .edieRead id => execEdieRead id s
  | .registerWrite id => execRegisterWrite id s
  | .clockReferenceLoss die => execClockReferenceLoss die s
  | .linkRetrain module => execLinkRetrain module s
  | .linkTraining lk peer => execLinkTraining lk peer s
  | .resetModule => execResetModule s
  | .recoveryImage image => execRecoveryImage image s
  | .selfTest dies findings => execSelfTest dies findings s
  | .getVersion offered => execGetVersion offered s
  | .spdmMeasurements index => execSpdmMeasurements index s
  | .determinismManifestRequest => execDeterminismManifestRequest s
  | .telemetry => execTelemetry s
  | .pcieInboundWrite address data => execPcieInboundWrite address data s
  | .pcieInboundRead address length => execPcieInboundRead address length s
  | .illegalWordIssue operand => execIllegalWordIssue operand s
  | .siteFailure die site => execSiteFailure die site s
  | .polderMigrationOrder ctx base length target byDevice => execPolderMigrationOrder ctx base length target byDevice s
  | .firmwareUpdate image => execFirmwareUpdate image s
  | .marginingRestartRequest die => execMarginingRestartRequest die s

/-! Fetch and issue. -/

/-- What a PC holds for a core: the instruction, or the operand of the ILLEGAL trap that its word raises (R46, R54, R70). -/
def State.fetch (s : State) (core ctx pc : Nat) : Except Nat Instr :=
  match s.launch ctx with
  | none => .error pc
  | some l =>
    match s.codeWord (coreDie core) l pc with
    | none => .error pc
    | some w => match decodeWords w (some ((s.codeWord (coreDie core) l (pc + 4)).getD 0)) with
      | .ok i => if i.bytes == 8 && (s.codeWord (coreDie core) l (pc + 4)).isNone then .error (pc + 4) else .ok i
      | .error _ => .error 0

/-- Whether an entry's instruction is a load of R22. -/
def State.entryLoads (s : State) (core : Nat) (e : PcEntry) : Bool := match s.fetch core e.ctx e.pc with
  | .ok i => isLoadGroup i
  | .error _ => false

/-- Load groups of a core whose results have not all returned (R22). -/
def State.loadGroups (s : State) (core : Nat) : Nat :=
  (dedup ((s.flight.filter (fun a => a.core == core && a.op.isLoad && (a.path == .ord || a.path == .con))).map (fun a => a.gid))).length

/-- Whether an entry is eligible (R22): below the load limit any; at it, a load entry only where no other stands or it has
existed for 4 096 slots. -/
def State.eligible (s : State) (c : Core) (e : PcEntry) : Bool :=
  decide (s.loadGroups c.id < c.loadLimit) || !s.entryLoads c.id e || c.entries.all (s.entryLoads c.id) || decide (e.born + 4096 ≤ c.slots)

/-- The entry of smallest age (R20). -/
def oldestEntry : List PcEntry → Option PcEntry
  | [] => none
  | e :: es => match oldestEntry es with
    | none => some e
    | some f => if f.age < e.age then some f else some e

/-- Whether a core's clock runs. -/
def State.coreOn (s : State) (core : Nat) : Bool := (s.cluster (coreCluster core)).powered && !(s.die (coreDie core)).tripped

/-- The entry that a core issues (R20). -/
def State.pick (s : State) (core : Nat) : Option PcEntry :=
  if s.coreOn core then (let c := s.coreOf core; oldestEntry (c.entries.filter (s.eligible c))) else none

/-- The thread of smallest ready stamp on a lane of an entry (R20). -/
def State.oldestOn (s : State) (e : PcEntry) (lane : Nat) : Option Nat :=
  ((e.tids.filter (fun t => t % 32 == lane)).filterMap (fun t => s.threadOf e.ctx e.wg t)).foldl (fun (m : Option Thread) t => match m with
    | none => some t
    | some u => if t.stamp < u.stamp then some t else some u) none |>.map Thread.tid

/-- The issue group of an entry (R20), in ascending lane. Its members have the entry's PC and whatever trips of a loop they are in: two
of different trips whose atomics name one byte of scratchpad go as one access, so that fewer may perform than R283 counts (DESIGN
CHOICE, log 122). -/
def State.groupOf (s : State) (core : Nat) (e : PcEntry) : Group :=
  { core := core, ctx := e.ctx, wg := e.wg, pc := e.pc, tids := (rangeFrom 0 32).filterMap (s.oldestOn e) }

/-- The group leaves its entry, and the issue slot is counted (R20). -/
def State.issueFrom (s : State) (core : Nat) (e : PcEntry) : State :=
  let g := s.groupOf core e
  { s.modCore core (fun c => { c.take e.age g.tids with slots := c.slots + 1 }) with group := some g }

/-- What a turn performs, if anything: an instruction that a core issues, or a row without a word. -/
inductive Turn where
  | issue (i : Instr)
  | event (e : Event)
  | quiet
  deriving DecidableEq, Repr

/-- A block known bad that an entry's instruction lies in: its address, and the block (R365, R366). -/
def State.badCode (s : State) (core : Nat) (e : PcEntry) : Option (Nat × Nat × Word) :=
  if s.badCheck.isEmpty then none
  else withLaunch s e.ctx none (fun l =>
    let pa := l.imageAddr + l.img.codeOff + e.pc
    let bad := fun k => if e.pc + k + 4 ≤ l.img.codeLen then (s.badBlock (s.locOf (coreDie core) (pa + k)) 4).map (fun b => (pa + k, b)) else none
    match bad 0, s.fetch core e.ctx e.pc with
    | some x, _ => some x
    | none, .ok i => if i.bytes == 8 then bad 4 else none
    | none, .error _ => none)

/-- THE ISSUE of a core: the instruction to perform and the machine at its issue; none where no entry is eligible. A word of a block
known bad is consumed instead (R366, log 105). -/
def State.issueAt (s : State) (core : Nat) : Option (Turn × State) :=
  match s.pick core with
  | none => none
  | some e =>
    match s.badCode core e, s.fetch core e.ctx e.pc with
    | some (pa, b), _ => some (.quiet, s.consumeBad e.ctx e.wg pa b)
    | none, .ok i => some (.issue i, s.issueFrom core e)
    | none, .error x => some (.event (.illegalWordIssue (BitVec.ofNat 32 x)), s.issueFrom core e)

/-! Moves of the outside world. -/

/-- Most picojoules that an accumulator of 63 bits in µJ holds (R247). -/
def energyCap : Nat := (2 ^ 63 - 1) * 1000000

/-- The accumulators of a launch and of a die count energy and saturate (R247). -/
def State.meter (s : State) (ctx die pj : Nat) : State :=
  (s.modLaunch ctx (fun l => { l with
      energyPj := Nat.min energyCap (l.energyPj + pj), energySat := l.energySat || decide (energyCap < l.energyPj + pj) })).modDie die
    (fun d => { d with energyPj := Nat.min energyCap (d.energyPj + pj), energySat := d.energySat || decide (energyCap < d.energyPj + pj) })

/-- Time passes: what cannot outlast it takes place first, a deadlock detector's trap (R238), a wait that is met (R67) and the end of a
quiesce (R351); bins close before records that come later (R28), and breach records that nothing can precede any more go to the
account queue (R377). -/
def State.pass (s : State) (ns : Nat) : State :=
  let s0 := ((s.settleStuck ns).settleWaits ns).settleQuiesce ns
  let s1 := (s0.clusters.foldl (fun s c => s.closeDue c.id (s.now + ns - 1)) s0).postPassed ns
  { s1 with now := s1.now + ns }

/-- A move that performs no row of the table. -/
def State.quiet (s : State) : Move → State
  | .issue _ | .act _ => s
  | .elapse ns => s.pass ns
  | .writeBack die => { s with dirty := s.dirty.filter (fun k => s.lineDie k != die) }
  | .meter ctx die pj => s.meter ctx die pj
  | .host address data => if isSystem address && isSystem (address + (data.length - 1)) then s.writePhys 0 address data else s
  | .firmware die index value => s.writeDieRegister (0x2200 + die * 16 + index % 16) value
  | .revoke ctx => s.callerEnds ctx 33
  | .acknowledge c up => s.modCluster c (fun x => if up then { x with reported := x.reported - 1 } else { x with sent := x.sent - 1 })

/-! The default schedule (log 1). -/

/-- The row by which an access in flight performs. -/
def Access.rowOf (a : Access) : Event :=
  match a.op with
  | .load _ _ | .mon | .asOf _ | .tileLoad _ _ _ => .loadPerform a.id
  | .store _ | .through _ _ | .release | .tileStore _ _ _ _ | .discard _ => .storePerform a.id
  | .atomic _ _ _ => .atomicPerform a.id
  | .red _ _ => .reductionPerform a.id
  | .detRed _ _ _ => .detReductionArrival a.id
  | .stamped _ _ => .stampArrival a.id
  | .move _ _ _ => .pmoveComplete a.id
  | .regRead _ => .edieRead a.id
  | .energy _ _ => .energyRead a.ctx a.wg a.tid
  | .arrive _ _ _ _ _ => .barrierArrival a.id
  | .record _ _ _ => .continuationRecord a.id
  | .regWrite i v => match i % 16 with
    | 0 => .pidWrite a.id
    | 1 => .pilvWrite a.id
    | 2 => .pbndWrite a.id
    | 3 => if bitOf v.toNat 0 then .quiesceRequest a.id else if bitOf v.toNat 1 then .quiesceRelease a.id
      else if bitOf v.toNat 9 then .clearRefused a.id else .registerWrite a.id
    | _ => .registerWrite a.id

/-- Rows that may take place for a workgroup. -/
def Workgroup.rows (w : Workgroup) : List Event :=
  let tids := w.threads.map Thread.tid
  [.runParkComplete w.ctx w.wg tids, .waitWake w.ctx w.wg tids, .barrierRelease w.ctx w.wg tids]
    ++ (w.threads.filter (fun t => t.tx.committing.isSome)).map (fun t => Event.txHomeValidation w.ctx w.wg t.tid)
    ++ tids.map (fun t => Event.waitTimeout w.ctx w.wg t)
    ++ [.detEndMarker w.ctx w.wg, .regdlDetect w.ctx w.wg, .workgroupEnd w.ctx w.wg]

/-- The next workgroup that a launch may dispatch, if any. -/
def Launch.nextToDispatch (l : Launch) : Option Nat := match l.pending with
  | (a, _) :: _ => some a
  | [] => (l.formed.head?).map (fun f => f.wg)

/-- Rows that may take place for a launch. -/
def Launch.rows (l : Launch) : List Event :=
  [.tokenPass l.ctx, .detGenerationForm l.ctx, .launchStart l.ctx, .launchComplete l.ctx, .quoteDeadlineExpiry l.quoteId]
    ++ (match l.nextToDispatch with
        | none => []
        | some n => l.reservedCores.map (fun c => Event.workgroupDispatch l.ctx n c))

/-- Rows that resume a workgroup which the device or the operator saved. -/
def State.resumeRows (s : State) (l : Launch) : List Event :=
  (s.wgs.filter (fun w => w.ctx == l.ctx && (w.saved == .device || w.saved == .operator))).flatMap (fun w =>
    l.reservedCores.map (fun c => Event.resumption l.ctx w.wg c))

/-- Rows of an engine site. -/
def Site.rows (x : Site) : List Event :=
  [.siteWakeComplete x.die x.index, .lingerExpiry x.die x.index]
    ++ (if x.queue.isEmpty then [] else [.entryComplete x.die x.index, .macroStep x.die x.index, .entryStart x.die x.index])

/-- Rows of a ring: its head packet, by type. -/
def State.ringRows (s : State) (k : Nat) : List Event :=
  match s.rings[k]? with
  | none => []
  | some r =>
    [.packetRefused k, .waitStepResume k]
      ++ (match s.packetType r with
          | 1 => [.survey k]
          | 2 => [.accept k]
          | 3 => [.decline k]
          | 4 => [.writePkt k]
          | 5 => [.signalPkt k]
          | 6 => [.waitPkt k]
          | 7 => [.writeSignal k]
          | 8 => [.copyPkt k]
          | 9 => [.partition k]
          | 10 => [.link k]
          | _ => [.slotUnwrittenTimeout k])

/-- Rows of a die and of its clusters. -/
def State.dieRows (s : State) (die : Nat) : List Event :=
  [.leaseGrant die, .thermalTrip die, .quiesceComplete die, .quiesceRefuse die, .waterlineForm (s.partFirst die), .waterlineDelivery die 64]
    ++ (rangeFrom (2 * die) 2).flatMap (fun c =>
        [.clusterWakeComplete c, .gatingComplete c, .idleTimerExpiry c] ++ (rangeFrom 0 (s.cluster c).bins.length).map (fun b => Event.binCloseTimeout c b))
    ++ (dedup ((s.stampLines.filter (fun x => x.die == die)).map (fun x => x.slice))).map (fun k => Event.waterlineDelivery die k)

/-- Every row that may be due, in the order in which the default schedule tries them. -/
def State.dueRows (s : State) : List Event :=
  (if s.booting then [.selfTest (rangeFrom 0 8) []] else if s.booted || s.recovery then [] else [.resetModule])
    ++ (sortBy (fun (x y : Access) => decide (x.id ≤ y.id)) s.flight).map Access.rowOf
    ++ s.wgs.flatMap Workgroup.rows
    ++ s.launches.flatMap Launch.rows
    ++ s.launches.flatMap s.resumeRows
    ++ s.sites.flatMap Site.rows
    ++ s.tiles.flatMap (fun t => [.tileFillComplete t.cluster t.number, .tileReaderFinish t.cluster t.number])
    ++ s.surveys.map (fun q => Event.surveyComplete q)
    ++ [.accountBacklogDrain, .sliceExpiry]
    ++ (rangeFrom 0 s.rings.length).flatMap s.ringRows
    ++ (rangeFrom 0 8).flatMap s.dieRows

/-- Whether a row changes the machine now; a row that is not due leaves it as it is. -/
def State.changes (s : State) (e : Event) : Bool := match e.perform s with
  | .next t => decide (t ≠ s)
  | .fault _ | .refused _ => true

/-- The core whose turn it is to issue: the first, from one that true time gives, that has an eligible entry. -/
def State.coreTurn (s : State) : Option Nat :=
  let ids := s.cores.map (fun c => c.id)
  let k := if ids.length = 0 then 0 else s.now % ids.length
  (ids.drop k ++ ids.take k).find? (fun c => (s.pick c).isSome)

/-- Every message is acknowledged (R335). -/
def State.answerLinks (s : State) : State :=
  if s.clusters.all (fun c => c.sent == 0 && c.reported == 0) then s
  else { s with clusters := s.clusters.map (fun c => { c with sent := 0, reported := 0 }) }

/-- The default schedule: rows that are due, then one issue in each nanosecond, then time, in which messages are acknowledged and
dirty lines of quiescing dies written back. -/
def State.defaultTurn (s : State) : Turn × State :=
  match s.dueRows.find? s.changes with
  | some e => (.event e, s)
  | none =>
    let s1 := s.answerLinks.writeBackQuiescing.pass 1
    match (s.coreTurn).bind s1.issueAt with
    | some x => x
    | none => (.quiet, s1)

/-- What the machine does next: the row that it performs, if any, and the state in which it performs it. The deadlock detectors
have taken note of what stands (R238). -/
def State.turnOf (s : State) : Turn × State :=
  let s0 := s.noteStuck
  match s0.agenda with
  | [] => s0.defaultTurn
  | m :: ms =>
    let s1 := { s0 with agenda := ms }
    match m with
    | .act e => (.event e, s1)
    | .issue core => (match s1.issueAt core with
      | some x => x
      | none => (.quiet, s1))
    | .elapse _ | .meter _ _ _ | .host _ _ | .firmware _ _ _ | .revoke _ | .writeBack _ | .acknowledge _ _ => (.quiet, s1.quiet m)

/-! A program placed from outside (log 23). -/

/-- The image of a one-thread kernel of 8 bytes of code, with a wait bound of 1 ns at its first word. -/
def placedImage : Image :=
  { det := false, fuse := false, opclass := 2, energy := 0, roles := [(1, 256)], wgSize := 1, priv := 0, scratch := 0, tiles := 0,
    codeOff := 0, codeLen := 8, entry := 0, bounds := [(0, 1)], regions := [], spawns := [], leases := [], dataLen := 0, marks := [] }

/-- A quotation of one core of cluster 0. -/
def placedQuote : Quote :=
  { status := 0, detail := 0, deadline := 0, earliest := 0, worstTime := 0, worstEnergy := 0, context := 4096, rationing := 3, cores := 1,
    wake := false, clusterMask := 1, firstCore := 0, sites := [], assumptions := 0, overhead := 0, perCore := 1, reductions := 0, shares := .none }

/-- Where the loaded code stands. -/
def placedBase : Nat := 0x100000

/-- A running supervisor launch of that image, as a driver would have had it accepted. -/
def placedLaunch : Launch :=
  { quoteId := 0, ctx := 1, stage := .running, cont := false, debug := false, supervisor := true, priority := false,
    imageAddr := placedBase, rangeAddr := 0, img := placedImage, grid := 1, firstWg := 0, count := 1, rank := 0, nrank := 1, spansPod := false,
    seed := 0, args := 0, recordAddr := placedBase + 0x10000, cadastre := 0, cadastreLen := 0, cadastreTag := 0, firstDie := 0, quote := placedQuote,
    trapArea := placedBase + 0x20000, trapCap := 16, traps := 0, trapsDropped := 0, svcQueue := 0, svcEntries := 0, svcProduced := 0,
    svcDropped := 0, pool := placedBase + 0x30000, completion := placedBase + 0x40000, pageTable := placedBase + 0x50000, outcome := 3, startAt := 0,
    endAt := 0, retired := 0, breach := false, breaches := 0, credit := 0, energyPj := 0, energySat := false, manifestChanged := false,
    manifest := 0, missing := [], asked := [], pending := [], formed := [], kept := [], nextCont := 1, generation := 0, stopped := false, token := 0,
    passing := false, roots := [], booked := [], areas := [placedBase + 0x30000], suspended := [] }

/-- Its one workgroup, on core 0, with its thread ready at offset 0. -/
def placedWg : Workgroup :=
  { ctx := 1, wg := 0, core := 0, saved := .running, savedAt := 0, slot := 0, area := 0, generation := 0, energy := 0,
    threads := [{ Thread.fresh 0 0 0 256 placedLaunch Config.scratchBase [] with status := .ready }],
    scratchOff := 0, scratchLen := 0, savedScratch := [], acs := 0, pools := [], claims := [], stuckAt := none, leaf := [], redQueue := [], savedLeases := [],
    savedSites := [] }

/-- Core 0 with that thread's entry. -/
def placedCore : Core :=
  { Core.reset 0 with
    entries := [{ ctx := 1, wg := 0, pc := 0, age := 0, opened := true, born := 0, tids := [0] }], ageCounter := 1 }

/-- Puts the loaded launch onto a machine: core 0 is powered and holds it alone. -/
def State.install (s : State) : State :=
  { s with
    cores := placedCore :: s.cores.filter (fun c => c.id != 0),
    wgs := placedWg :: s.wgs.filter (fun w => w.core != 0 && w.ctx != 1),
    launches := placedLaunch :: s.launches.filter (fun l => l.ctx != 1),
    flight := s.flight.filter (fun a => a.core != 0),
    clusters := s.clusters.map (fun c => if c.id == 0 then { c with gate := .active } else c),
    dies := s.dies.map (fun d => if d.id == 0 then { d with tripped := false } else d) }

/-- Stores a word's bytes at the PC of a core's next entry, within the code section, which grows to hold it. -/
def State.putCode (s : State) (core : Nat) (e : PcEntry) (bs : List Byte) : State :=
  match s.launch e.ctx with
  | none => s
  | some l =>
    { s with mem := writePhysCells s (coreDie core) (l.imageAddr + l.img.codeOff + e.pc) bs s.mem }.modLaunch e.ctx
      (fun l => { l with img := { l.img with codeLen := Nat.max l.img.codeLen (e.pc + bs.length) } })

/-- Places bytes where a core issues next, and gives that core the next turn; none where it has no eligible entry, or would
then issue another. -/
def State.placeOn (s : State) (core : Nat) (bs : List Byte) : Option State :=
  match s.pick core with
  | none => none
  | some e =>
    if (s.launch e.ctx).isSome then
      (let s1 := s.putCode core e bs
       if s1.pick core = some e then some { s1 with agenda := .issue core :: s.agenda } else none)
    else none

/-- The machine with an instruction's bytes where it fetches next: at the first core with an eligible entry, else in a
launch loaded for it. -/
def State.placeCode (s : State) (bs : List Byte) : State :=
  match s.cores.findSome? (fun c => s.placeOn c.id bs) with
  | some t => t
  | none => (s.install.placeOn 0 bs).getD s.install

end Sys2Proof.Machine
end

