-- ==== Sys2Proof/Machine/Step.lean ====
section
/-! DEFINITION. One step of the machine: the next move of the schedule, and the meaning of the row that it performs. -/

namespace Sys2Proof.Machine

/-- A step: the row whose turn it is performs in the state of its turn; a move without a row only changes the state. -/
def step (s : State) : Host.Outcome State Fault Refusal :=
  match s.turnOf with
  | (.issue i, s1) => exec i s1
  | (.event e, s1) => e.perform s1
  | (.quiet, s1) => .next s1

/-- The machine with an instruction, given as the opcode table numbers its bits, stored where the next step fetches. -/
def State.withFetchWord (s : State) (nbits w : Nat) : State := s.placeCode (leBytes 8 (w % 2 ^ nbits))

end Sys2Proof.Machine
end

