-- ==== Sys2Proof/Laws/PerInstr.lean ====
section
/-! SUPPORT. One lemma for each constructor of Instr: its encoded first word is a 32-bit word. -/

namespace Sys2Proof.Laws

/-- A word of three 7-bit fields under an opcode of at most 31 bits. -/
theorem encWord_lt (base : Nat) (s : Bool) (x y z : Nat) (h : base + (x * 2 ^ 14 + y * 2 ^ 7 + z) < 2 ^ 31) :
    encWord base s x y z < 2 ^ 32 := by
  unfold encWord encS
  split <;> omega

/-- A format A word. -/
theorem encA_lt (base : Nat) (s : Bool) (p d a : Nat) (f : Bool) (b : Nat)
    (h : base + (p * 2 ^ 21 + d * 2 ^ 14 + a * 2 ^ 8 + 2 ^ 7 + b) < 2 ^ 31) : encA base s p d a f b < 2 ^ 32 := by
  unfold encA encS encFlag
  split <;> split <;> omega

/-- A format N word. -/
theorem encN_lt (base : Nat) (s : Bool) (p : Nat) (f : Bool) (a b : Nat)
    (h : base + (p * 2 ^ 18 + 2 ^ 14 + a * 2 ^ 8 + b) < 2 ^ 31) : encN base s p f a b < 2 ^ 32 := by
  unfold encN encS encFlag
  split <;> split <;> omega

/-- A format B word. -/
theorem encB_lt (base : Nat) (s : Bool) (n l a : Nat) (h : base + (n * 2 ^ 17 + l * 2 ^ 14 + a * 2 ^ 7) < 2 ^ 31) :
    encB base s n l a < 2 ^ 32 := by
  unfold encB encS
  split <;> omega

namespace WordFits

/-- An encoded instruction's first word fits in 32 bits (R45). -/
def Statement (i : Instr) : Prop := ∀ w, encodeWord i = some w → w < 2 ^ 32

theorem add (s : Bool) (d : Reg) (a : Reg) (b : Reg) : Statement (.add s d a b) := by
  intro w h
  cases h
  exact encWord_lt _ _ _ _ _ (by omega)

theorem sub (s : Bool) (d : Reg) (a : Reg) (b : Reg) : Statement (.sub s d a b) := by
  intro w h
  cases h
  exact encWord_lt _ _ _ _ _ (by omega)

theorem mul (s : Bool) (d : Reg) (a : Reg) (b : Reg) : Statement (.mul s d a b) := by
  intro w h
  cases h
  exact encWord_lt _ _ _ _ _ (by omega)

theorem mulh (s : Bool) (d : Reg) (a : Reg) (b : Reg) : Statement (.mulh s d a b) := by
  intro w h
  cases h
  exact encWord_lt _ _ _ _ _ (by omega)

theorem mulhu (s : Bool) (d : Reg) (a : Reg) (b : Reg) : Statement (.mulhu s d a b) := by
  intro w h
  cases h
  exact encWord_lt _ _ _ _ _ (by omega)

theorem mad (s : Bool) (d : Reg) (a : Reg) (b : Reg) : Statement (.mad s d a b) := by
  intro w h
  cases h
  exact encWord_lt _ _ _ _ _ (by omega)

theorem divu (s : Bool) (d : Reg) (a : Reg) (b : Reg) : Statement (.divu s d a b) := by
  intro w h
  cases h
  exact encWord_lt _ _ _ _ _ (by omega)

theorem remu (s : Bool) (d : Reg) (a : Reg) (b : Reg) : Statement (.remu s d a b) := by
  intro w h
  cases h
  exact encWord_lt _ _ _ _ _ (by omega)

theorem and (s : Bool) (d : Reg) (a : Reg) (b : Reg) : Statement (.and s d a b) := by
  intro w h
  cases h
  exact encWord_lt _ _ _ _ _ (by omega)

theorem or (s : Bool) (d : Reg) (a : Reg) (b : Reg) : Statement (.or s d a b) := by
  intro w h
  cases h
  exact encWord_lt _ _ _ _ _ (by omega)

theorem xor (s : Bool) (d : Reg) (a : Reg) (b : Reg) : Statement (.xor s d a b) := by
  intro w h
  cases h
  exact encWord_lt _ _ _ _ _ (by omega)

theorem andn (s : Bool) (d : Reg) (a : Reg) (b : Reg) : Statement (.andn s d a b) := by
  intro w h
  cases h
  exact encWord_lt _ _ _ _ _ (by omega)

theorem shl (s : Bool) (d : Reg) (a : Reg) (b : Reg) : Statement (.shl s d a b) := by
  intro w h
  cases h
  exact encWord_lt _ _ _ _ _ (by omega)

theorem shr (s : Bool) (d : Reg) (a : Reg) (b : Reg) : Statement (.shr s d a b) := by
  intro w h
  cases h
  exact encWord_lt _ _ _ _ _ (by omega)

theorem sra (s : Bool) (d : Reg) (a : Reg) (b : Reg) : Statement (.sra s d a b) := by
  intro w h
  cases h
  exact encWord_lt _ _ _ _ _ (by omega)

theorem rot (s : Bool) (d : Reg) (a : Reg) (b : Reg) : Statement (.rot s d a b) := by
  intro w h
  cases h
  exact encWord_lt _ _ _ _ _ (by omega)

theorem min (s : Bool) (d : Reg) (a : Reg) (b : Reg) : Statement (.min s d a b) := by
  intro w h
  cases h
  exact encWord_lt _ _ _ _ _ (by omega)

theorem max (s : Bool) (d : Reg) (a : Reg) (b : Reg) : Statement (.max s d a b) := by
  intro w h
  cases h
  exact encWord_lt _ _ _ _ _ (by omega)

theorem minu (s : Bool) (d : Reg) (a : Reg) (b : Reg) : Statement (.minu s d a b) := by
  intro w h
  cases h
  exact encWord_lt _ _ _ _ _ (by omega)

theorem maxu (s : Bool) (d : Reg) (a : Reg) (b : Reg) : Statement (.maxu s d a b) := by
  intro w h
  cases h
  exact encWord_lt _ _ _ _ _ (by omega)

theorem seq (s : Bool) (d : Reg) (a : Reg) (b : Reg) : Statement (.seq s d a b) := by
  intro w h
  cases h
  exact encWord_lt _ _ _ _ _ (by omega)

theorem sne (s : Bool) (d : Reg) (a : Reg) (b : Reg) : Statement (.sne s d a b) := by
  intro w h
  cases h
  exact encWord_lt _ _ _ _ _ (by omega)

theorem slt (s : Bool) (d : Reg) (a : Reg) (b : Reg) : Statement (.slt s d a b) := by
  intro w h
  cases h
  exact encWord_lt _ _ _ _ _ (by omega)

theorem sltu (s : Bool) (d : Reg) (a : Reg) (b : Reg) : Statement (.sltu s d a b) := by
  intro w h
  cases h
  exact encWord_lt _ _ _ _ _ (by omega)

theorem sle (s : Bool) (d : Reg) (a : Reg) (b : Reg) : Statement (.sle s d a b) := by
  intro w h
  cases h
  exact encWord_lt _ _ _ _ _ (by omega)

theorem sleu (s : Bool) (d : Reg) (a : Reg) (b : Reg) : Statement (.sleu s d a b) := by
  intro w h
  cases h
  exact encWord_lt _ _ _ _ _ (by omega)

theorem cmovz (s : Bool) (d : Reg) (a : Reg) (b : Reg) : Statement (.cmovz s d a b) := by
  intro w h
  cases h
  exact encWord_lt _ _ _ _ _ (by omega)

theorem cmovn (s : Bool) (d : Reg) (a : Reg) (b : Reg) : Statement (.cmovn s d a b) := by
  intro w h
  cases h
  exact encWord_lt _ _ _ _ _ (by omega)

theorem add64 (s : Bool) (d : Reg) (a : Reg) (b : Reg) : Statement (.add64 s d a b) := by
  intro w h
  cases h
  exact encWord_lt _ _ _ _ _ (by omega)

theorem sub64 (s : Bool) (d : Reg) (a : Reg) (b : Reg) : Statement (.sub64 s d a b) := by
  intro w h
  cases h
  exact encWord_lt _ _ _ _ _ (by omega)

theorem mul64 (s : Bool) (d : Reg) (a : Reg) (b : Reg) : Statement (.mul64 s d a b) := by
  intro w h
  cases h
  exact encWord_lt _ _ _ _ _ (by omega)

theorem addx (s : Bool) (d : Reg) (a : Reg) (b : Reg) : Statement (.addx s d a b) := by
  intro w h
  cases h
  exact encWord_lt _ _ _ _ _ (by omega)

theorem addx4 (s : Bool) (d : Reg) (a : Reg) (b : Reg) : Statement (.addx4 s d a b) := by
  intro w h
  cases h
  exact encWord_lt _ _ _ _ _ (by omega)

theorem bfx (s : Bool) (d : Reg) (a : Reg) (b : Reg) : Statement (.bfx s d a b) := by
  intro w h
  cases h
  exact encWord_lt _ _ _ _ _ (by omega)

theorem bfxs (s : Bool) (d : Reg) (a : Reg) (b : Reg) : Statement (.bfxs s d a b) := by
  intro w h
  cases h
  exact encWord_lt _ _ _ _ _ (by omega)

theorem bfi (s : Bool) (d : Reg) (a : Reg) (b : Reg) : Statement (.bfi s d a b) := by
  intro w h
  cases h
  exact encWord_lt _ _ _ _ _ (by omega)

theorem addi (s : Bool) (d : Reg) (a : Reg) (m : BitVec 7) : Statement (.addi s d a m) := by
  intro w h
  cases h
  exact encWord_lt _ _ _ _ _ (by omega)

theorem nop (s : Bool) : Statement (.nop s) := by
  intro w h
  cases h
  exact encWord_lt _ _ _ _ _ (by omega)

theorem andi (s : Bool) (d : Reg) (a : Reg) (m : BitVec 7) : Statement (.andi s d a m) := by
  intro w h
  cases h
  exact encWord_lt _ _ _ _ _ (by omega)

theorem ori (s : Bool) (d : Reg) (a : Reg) (m : BitVec 7) : Statement (.ori s d a m) := by
  intro w h
  cases h
  exact encWord_lt _ _ _ _ _ (by omega)

theorem xori (s : Bool) (d : Reg) (a : Reg) (m : BitVec 7) : Statement (.xori s d a m) := by
  intro w h
  cases h
  exact encWord_lt _ _ _ _ _ (by omega)

theorem shli (s : Bool) (d : Reg) (a : Reg) (m : BitVec 7) : Statement (.shli s d a m) := by
  intro w h
  cases h
  exact encWord_lt _ _ _ _ _ (by omega)

theorem shri (s : Bool) (d : Reg) (a : Reg) (m : BitVec 7) : Statement (.shri s d a m) := by
  intro w h
  cases h
  exact encWord_lt _ _ _ _ _ (by omega)

theorem srai (s : Bool) (d : Reg) (a : Reg) (m : BitVec 7) : Statement (.srai s d a m) := by
  intro w h
  cases h
  exact encWord_lt _ _ _ _ _ (by omega)

theorem slti (s : Bool) (d : Reg) (a : Reg) (m : BitVec 7) : Statement (.slti s d a m) := by
  intro w h
  cases h
  exact encWord_lt _ _ _ _ _ (by omega)

theorem sltui (s : Bool) (d : Reg) (a : Reg) (m : BitVec 7) : Statement (.sltui s d a m) := by
  intro w h
  cases h
  exact encWord_lt _ _ _ _ _ (by omega)

theorem seqi (s : Bool) (d : Reg) (a : Reg) (m : BitVec 7) : Statement (.seqi s d a m) := by
  intro w h
  cases h
  exact encWord_lt _ _ _ _ _ (by omega)

theorem muli (s : Bool) (d : Reg) (a : Reg) (m : BitVec 7) : Statement (.muli s d a m) := by
  intro w h
  cases h
  exact encWord_lt _ _ _ _ _ (by omega)

theorem add64i (s : Bool) (d : Reg) (a : Reg) (m : BitVec 7) : Statement (.add64i s d a m) := by
  intro w h
  cases h
  exact encWord_lt _ _ _ _ _ (by omega)

theorem clz (s : Bool) (d : Reg) (a : Reg) : Statement (.clz s d a) := by
  intro w h
  cases h
  exact encWord_lt _ _ _ _ _ (by omega)

theorem popc (s : Bool) (d : Reg) (a : Reg) : Statement (.popc s d a) := by
  intro w h
  cases h
  exact encWord_lt _ _ _ _ _ (by omega)

theorem brev (s : Bool) (d : Reg) (a : Reg) : Statement (.brev s d a) := by
  intro w h
  cases h
  exact encWord_lt _ _ _ _ _ (by omega)

theorem abs (s : Bool) (d : Reg) (a : Reg) : Statement (.abs s d a) := by
  intro w h
  cases h
  exact encWord_lt _ _ _ _ _ (by omega)

theorem sexb (s : Bool) (d : Reg) (a : Reg) : Statement (.sexb s d a) := by
  intro w h
  cases h
  exact encWord_lt _ _ _ _ _ (by omega)

theorem sexh (s : Bool) (d : Reg) (a : Reg) : Statement (.sexh s d a) := by
  intro w h
  cases h
  exact encWord_lt _ _ _ _ _ (by omega)

theorem movi (s : Bool) (d : Reg) (m : BitVec 14) : Statement (.movi s d m) := by
  intro w h
  cases h
  exact encWord_lt _ _ _ _ _ (by omega)

theorem movw (s : Bool) (d : Reg) (lit : Word) : Statement (.movw s d lit) := by
  intro w h
  cases h
  exact encWord_lt _ _ _ _ _ (by omega)

theorem fadd (s : Bool) (d : Reg) (a : Reg) (b : Reg) : Statement (.fadd s d a b) := by
  intro w h
  cases h
  exact encWord_lt _ _ _ _ _ (by omega)

theorem fsub (s : Bool) (d : Reg) (a : Reg) (b : Reg) : Statement (.fsub s d a b) := by
  intro w h
  cases h
  exact encWord_lt _ _ _ _ _ (by omega)

theorem fmul (s : Bool) (d : Reg) (a : Reg) (b : Reg) : Statement (.fmul s d a b) := by
  intro w h
  cases h
  exact encWord_lt _ _ _ _ _ (by omega)

theorem ffma (s : Bool) (d : Reg) (a : Reg) (b : Reg) : Statement (.ffma s d a b) := by
  intro w h
  cases h
  exact encWord_lt _ _ _ _ _ (by omega)

theorem fmin (s : Bool) (d : Reg) (a : Reg) (b : Reg) : Statement (.fmin s d a b) := by
  intro w h
  cases h
  exact encWord_lt _ _ _ _ _ (by omega)

theorem fmax (s : Bool) (d : Reg) (a : Reg) (b : Reg) : Statement (.fmax s d a b) := by
  intro w h
  cases h
  exact encWord_lt _ _ _ _ _ (by omega)

theorem fdiv (s : Bool) (d : Reg) (a : Reg) (b : Reg) : Statement (.fdiv s d a b) := by
  intro w h
  cases h
  exact encWord_lt _ _ _ _ _ (by omega)

theorem fseq (s : Bool) (d : Reg) (a : Reg) (b : Reg) : Statement (.fseq s d a b) := by
  intro w h
  cases h
  exact encWord_lt _ _ _ _ _ (by omega)

theorem fslt (s : Bool) (d : Reg) (a : Reg) (b : Reg) : Statement (.fslt s d a b) := by
  intro w h
  cases h
  exact encWord_lt _ _ _ _ _ (by omega)

theorem fsle (s : Bool) (d : Reg) (a : Reg) (b : Reg) : Statement (.fsle s d a b) := by
  intro w h
  cases h
  exact encWord_lt _ _ _ _ _ (by omega)

theorem fsun (s : Bool) (d : Reg) (a : Reg) (b : Reg) : Statement (.fsun s d a b) := by
  intro w h
  cases h
  exact encWord_lt _ _ _ _ _ (by omega)

theorem fcpys (s : Bool) (d : Reg) (a : Reg) (b : Reg) : Statement (.fcpys s d a b) := by
  intro w h
  cases h
  exact encWord_lt _ _ _ _ _ (by omega)

theorem fsqrt (s : Bool) (d : Reg) (a : Reg) : Statement (.fsqrt s d a) := by
  intro w h
  cases h
  exact encWord_lt _ _ _ _ _ (by omega)

theorem frcp (s : Bool) (d : Reg) (a : Reg) : Statement (.frcp s d a) := by
  intro w h
  cases h
  exact encWord_lt _ _ _ _ _ (by omega)

theorem frsq (s : Bool) (d : Reg) (a : Reg) : Statement (.frsq s d a) := by
  intro w h
  cases h
  exact encWord_lt _ _ _ _ _ (by omega)

theorem fexp2 (s : Bool) (d : Reg) (a : Reg) : Statement (.fexp2 s d a) := by
  intro w h
  cases h
  exact encWord_lt _ _ _ _ _ (by omega)

theorem flog2 (s : Bool) (d : Reg) (a : Reg) : Statement (.flog2 s d a) := by
  intro w h
  cases h
  exact encWord_lt _ _ _ _ _ (by omega)

theorem fabs (s : Bool) (d : Reg) (a : Reg) : Statement (.fabs s d a) := by
  intro w h
  cases h
  exact encWord_lt _ _ _ _ _ (by omega)

theorem fneg (s : Bool) (d : Reg) (a : Reg) : Statement (.fneg s d a) := by
  intro w h
  cases h
  exact encWord_lt _ _ _ _ _ (by omega)

theorem hadd2 (s : Bool) (d : Reg) (a : Reg) (b : Reg) : Statement (.hadd2 s d a b) := by
  intro w h
  cases h
  exact encWord_lt _ _ _ _ _ (by omega)

theorem hmul2 (s : Bool) (d : Reg) (a : Reg) (b : Reg) : Statement (.hmul2 s d a b) := by
  intro w h
  cases h
  exact encWord_lt _ _ _ _ _ (by omega)

theorem hfma2 (s : Bool) (d : Reg) (a : Reg) (b : Reg) : Statement (.hfma2 s d a b) := by
  intro w h
  cases h
  exact encWord_lt _ _ _ _ _ (by omega)

theorem hmax2 (s : Bool) (d : Reg) (a : Reg) (b : Reg) : Statement (.hmax2 s d a b) := by
  intro w h
  cases h
  exact encWord_lt _ _ _ _ _ (by omega)

theorem eadd2 (s : Bool) (d : Reg) (a : Reg) (b : Reg) : Statement (.eadd2 s d a b) := by
  intro w h
  cases h
  exact encWord_lt _ _ _ _ _ (by omega)

theorem emul2 (s : Bool) (d : Reg) (a : Reg) (b : Reg) : Statement (.emul2 s d a b) := by
  intro w h
  cases h
  exact encWord_lt _ _ _ _ _ (by omega)

theorem efma2 (s : Bool) (d : Reg) (a : Reg) (b : Reg) : Statement (.efma2 s d a b) := by
  intro w h
  cases h
  exact encWord_lt _ _ _ _ _ (by omega)

theorem emax2 (s : Bool) (d : Reg) (a : Reg) (b : Reg) : Statement (.emax2 s d a b) := by
  intro w h
  cases h
  exact encWord_lt _ _ _ _ _ (by omega)

theorem cvtF32Sw (s : Bool) (d : Reg) (a : Reg) : Statement (.cvtF32Sw s d a) := by
  intro w h
  cases h
  exact encWord_lt _ _ _ _ _ (by omega)

theorem cvtF32Uw (s : Bool) (d : Reg) (a : Reg) : Statement (.cvtF32Uw s d a) := by
  intro w h
  cases h
  exact encWord_lt _ _ _ _ _ (by omega)

theorem cvtSwF32 (s : Bool) (d : Reg) (a : Reg) : Statement (.cvtSwF32 s d a) := by
  intro w h
  cases h
  exact encWord_lt _ _ _ _ _ (by omega)

theorem cvtSwF32Rn (s : Bool) (d : Reg) (a : Reg) : Statement (.cvtSwF32Rn s d a) := by
  intro w h
  cases h
  exact encWord_lt _ _ _ _ _ (by omega)

theorem cvtUwF32 (s : Bool) (d : Reg) (a : Reg) : Statement (.cvtUwF32 s d a) := by
  intro w h
  cases h
  exact encWord_lt _ _ _ _ _ (by omega)

theorem cvtBf16F32 (s : Bool) (d : Reg) (a : Reg) (b : Reg) : Statement (.cvtBf16F32 s d a b) := by
  intro w h
  cases h
  exact encWord_lt _ _ _ _ _ (by omega)

theorem cvtBf16F32Sr (s : Bool) (d : Reg) (a : Reg) (b : Reg) : Statement (.cvtBf16F32Sr s d a b) := by
  intro w h
  cases h
  exact encWord_lt _ _ _ _ _ (by omega)

theorem cvtFp16F32 (s : Bool) (d : Reg) (a : Reg) (b : Reg) : Statement (.cvtFp16F32 s d a b) := by
  intro w h
  cases h
  exact encWord_lt _ _ _ _ _ (by omega)

theorem cvtF32Bf16 (s : Bool) (d : Reg) (a : Reg) : Statement (.cvtF32Bf16 s d a) := by
  intro w h
  cases h
  exact encWord_lt _ _ _ _ _ (by omega)

theorem cvtF32Fp16 (s : Bool) (d : Reg) (a : Reg) : Statement (.cvtF32Fp16 s d a) := by
  intro w h
  cases h
  exact encWord_lt _ _ _ _ _ (by omega)

theorem cvtLc8F32 (s : Bool) (d : Reg) (a : Reg) : Statement (.cvtLc8F32 s d a) := by
  intro w h
  cases h
  exact encWord_lt _ _ _ _ _ (by omega)

theorem cvtF32Lc8 (s : Bool) (d : Reg) (a : Reg) : Statement (.cvtF32Lc8 s d a) := by
  intro w h
  cases h
  exact encWord_lt _ _ _ _ _ (by omega)

theorem cvtI8F32 (s : Bool) (d : Reg) (a : Reg) : Statement (.cvtI8F32 s d a) := by
  intro w h
  cases h
  exact encWord_lt _ _ _ _ _ (by omega)

theorem br (s : Bool) (m : BitVec 21) : Statement (.br s m) := by
  intro w h
  cases h
  exact encWord_lt _ _ _ _ _ (by omega)

theorem call (s : Bool) (m : BitVec 21) : Statement (.call s m) := by
  intro w h
  cases h
  exact encWord_lt _ _ _ _ _ (by omega)

theorem bez (s : Bool) (d : Reg) (m : BitVec 14) : Statement (.bez s d m) := by
  intro w h
  cases h
  exact encWord_lt _ _ _ _ _ (by omega)

theorem bnz (s : Bool) (d : Reg) (m : BitVec 14) : Statement (.bnz s d m) := by
  intro w h
  cases h
  exact encWord_lt _ _ _ _ _ (by omega)

theorem callr (s : Bool) (a : Reg) : Statement (.callr s a) := by
  intro w h
  cases h
  exact encWord_lt _ _ _ _ _ (by omega)

theorem jr (s : Bool) (a : Reg) : Statement (.jr s a) := by
  intro w h
  cases h
  exact encWord_lt _ _ _ _ _ (by omega)

theorem ret (s : Bool) : Statement (.ret s) := by
  intro w h
  cases h
  exact encWord_lt _ _ _ _ _ (by omega)

theorem looph (s : Bool) (d : Reg) (m : BitVec 14) : Statement (.looph s d m) := by
  intro w h
  cases h
  exact encWord_lt _ _ _ _ _ (by omega)

theorem loope (s : Bool) (d : Reg) (m : BitVec 14) : Statement (.loope s d m) := by
  intro w h
  cases h
  exact encWord_lt _ _ _ _ _ (by omega)

theorem wbase (s : Bool) (m : BitVec 14) : Statement (.wbase s m) := by
  intro w h
  cases h
  exact encWord_lt _ _ _ _ _ (by omega)

theorem wbadj (s : Bool) (m : BitVec 14) : Statement (.wbadj s m) := by
  intro w h
  cases h
  exact encWord_lt _ _ _ _ _ (by omega)

theorem exit (s : Bool) : Statement (.exit s) := by
  intro w h
  cases h
  exact encWord_lt _ _ _ _ _ (by omega)

theorem trap (s : Bool) (m : BitVec 21) : Statement (.trap s m) := by
  intro w h
  cases h
  exact encWord_lt _ _ _ _ _ (by omega)

theorem brk (s : Bool) (m : BitVec 21) : Statement (.brk s m) := by
  intro w h
  cases h
  exact encWord_lt _ _ _ _ _ (by omega)

theorem shfl (s : Bool) (d : Reg) (a : Reg) (b : Reg) : Statement (.shfl s d a b) := by
  intro w h
  cases h
  exact encWord_lt _ _ _ _ _ (by omega)

theorem shflx (s : Bool) (d : Reg) (a : Reg) (b : Reg) : Statement (.shflx s d a b) := by
  intro w h
  cases h
  exact encWord_lt _ _ _ _ _ (by omega)

theorem shflu (s : Bool) (d : Reg) (a : Reg) (b : Reg) : Statement (.shflu s d a b) := by
  intro w h
  cases h
  exact encWord_lt _ _ _ _ _ (by omega)

theorem shfld (s : Bool) (d : Reg) (a : Reg) (b : Reg) : Statement (.shfld s d a b) := by
  intro w h
  cases h
  exact encWord_lt _ _ _ _ _ (by omega)

theorem vany (s : Bool) (d : Reg) (a : Reg) : Statement (.vany s d a) := by
  intro w h
  cases h
  exact encWord_lt _ _ _ _ _ (by omega)

theorem vall (s : Bool) (d : Reg) (a : Reg) : Statement (.vall s d a) := by
  intro w h
  cases h
  exact encWord_lt _ _ _ _ _ (by omega)

theorem vbal (s : Bool) (d : Reg) (a : Reg) : Statement (.vbal s d a) := by
  intro w h
  cases h
  exact encWord_lt _ _ _ _ _ (by omega)

theorem matchOp (s : Bool) (d : Reg) (a : Reg) : Statement (.matchOp s d a) := by
  intro w h
  cases h
  exact encWord_lt _ _ _ _ _ (by omega)

theorem gsum (s : Bool) (d : Reg) (a : Reg) : Statement (.gsum s d a) := by
  intro w h
  cases h
  exact encWord_lt _ _ _ _ _ (by omega)

theorem lanes (s : Bool) (d : Reg) : Statement (.lanes s d) := by
  intro w h
  cases h
  exact encWord_lt _ _ _ _ _ (by omega)

theorem clki (s : Bool) (d : Reg) : Statement (.clki s d) := by
  intro w h
  cases h
  exact encWord_lt _ _ _ _ _ (by omega)

theorem mfs (s : Bool) (d : Reg) (m : BitVec 14) : Statement (.mfs s d m) := by
  intro w h
  cases h
  exact encWord_lt _ _ _ _ _ (by omega)

theorem mts (s : Bool) (d : Reg) (m : BitVec 14) : Statement (.mts s d m) := by
  intro w h
  cases h
  exact encWord_lt _ _ _ _ _ (by omega)

theorem ldb (s : Bool) (d : Reg) (a : Reg) (m : BitVec 7) : Statement (.ldb s d a m) := by
  intro w h
  cases h
  exact encWord_lt _ _ _ _ _ (by omega)

theorem ldbs (s : Bool) (d : Reg) (a : Reg) (m : BitVec 7) : Statement (.ldbs s d a m) := by
  intro w h
  cases h
  exact encWord_lt _ _ _ _ _ (by omega)

theorem ldh (s : Bool) (d : Reg) (a : Reg) (m : BitVec 7) : Statement (.ldh s d a m) := by
  intro w h
  cases h
  exact encWord_lt _ _ _ _ _ (by omega)

theorem ldhs (s : Bool) (d : Reg) (a : Reg) (m : BitVec 7) : Statement (.ldhs s d a m) := by
  intro w h
  cases h
  exact encWord_lt _ _ _ _ _ (by omega)

theorem ldw (s : Bool) (d : Reg) (a : Reg) (m : BitVec 7) : Statement (.ldw s d a m) := by
  intro w h
  cases h
  exact encWord_lt _ _ _ _ _ (by omega)

theorem ldd (s : Bool) (d : Reg) (a : Reg) (m : BitVec 7) : Statement (.ldd s d a m) := by
  intro w h
  cases h
  exact encWord_lt _ _ _ _ _ (by omega)

theorem ldq (s : Bool) (d : Reg) (a : Reg) (m : BitVec 7) : Statement (.ldq s d a m) := by
  intro w h
  cases h
  exact encWord_lt _ _ _ _ _ (by omega)

theorem stb (s : Bool) (d : Reg) (a : Reg) (m : BitVec 7) : Statement (.stb s d a m) := by
  intro w h
  cases h
  exact encWord_lt _ _ _ _ _ (by omega)

theorem sth (s : Bool) (d : Reg) (a : Reg) (m : BitVec 7) : Statement (.sth s d a m) := by
  intro w h
  cases h
  exact encWord_lt _ _ _ _ _ (by omega)

theorem stw (s : Bool) (d : Reg) (a : Reg) (m : BitVec 7) : Statement (.stw s d a m) := by
  intro w h
  cases h
  exact encWord_lt _ _ _ _ _ (by omega)

theorem std (s : Bool) (d : Reg) (a : Reg) (m : BitVec 7) : Statement (.std s d a m) := by
  intro w h
  cases h
  exact encWord_lt _ _ _ _ _ (by omega)

theorem stq (s : Bool) (d : Reg) (a : Reg) (m : BitVec 7) : Statement (.stq s d a m) := by
  intro w h
  cases h
  exact encWord_lt _ _ _ _ _ (by omega)

theorem ldc (s : Bool) (d : Reg) (a : Reg) (m : BitVec 7) : Statement (.ldc s d a m) := by
  intro w h
  cases h
  exact encWord_lt _ _ _ _ _ (by omega)

theorem ldcd (s : Bool) (d : Reg) (a : Reg) (m : BitVec 7) : Statement (.ldcd s d a m) := by
  intro w h
  cases h
  exact encWord_lt _ _ _ _ _ (by omega)

theorem ldbx (s : Bool) (d : Reg) (a : Reg) (b : Reg) : Statement (.ldbx s d a b) := by
  intro w h
  cases h
  exact encWord_lt _ _ _ _ _ (by omega)

theorem ldbsx (s : Bool) (d : Reg) (a : Reg) (b : Reg) : Statement (.ldbsx s d a b) := by
  intro w h
  cases h
  exact encWord_lt _ _ _ _ _ (by omega)

theorem ldhx (s : Bool) (d : Reg) (a : Reg) (b : Reg) : Statement (.ldhx s d a b) := by
  intro w h
  cases h
  exact encWord_lt _ _ _ _ _ (by omega)

theorem ldhsx (s : Bool) (d : Reg) (a : Reg) (b : Reg) : Statement (.ldhsx s d a b) := by
  intro w h
  cases h
  exact encWord_lt _ _ _ _ _ (by omega)

theorem ldwx (s : Bool) (d : Reg) (a : Reg) (b : Reg) : Statement (.ldwx s d a b) := by
  intro w h
  cases h
  exact encWord_lt _ _ _ _ _ (by omega)

theorem lddx (s : Bool) (d : Reg) (a : Reg) (b : Reg) : Statement (.lddx s d a b) := by
  intro w h
  cases h
  exact encWord_lt _ _ _ _ _ (by omega)

theorem ldqx (s : Bool) (d : Reg) (a : Reg) (b : Reg) : Statement (.ldqx s d a b) := by
  intro w h
  cases h
  exact encWord_lt _ _ _ _ _ (by omega)

theorem stbx (s : Bool) (d : Reg) (a : Reg) (b : Reg) : Statement (.stbx s d a b) := by
  intro w h
  cases h
  exact encWord_lt _ _ _ _ _ (by omega)

theorem sthx (s : Bool) (d : Reg) (a : Reg) (b : Reg) : Statement (.sthx s d a b) := by
  intro w h
  cases h
  exact encWord_lt _ _ _ _ _ (by omega)

theorem stwx (s : Bool) (d : Reg) (a : Reg) (b : Reg) : Statement (.stwx s d a b) := by
  intro w h
  cases h
  exact encWord_lt _ _ _ _ _ (by omega)

theorem stdx (s : Bool) (d : Reg) (a : Reg) (b : Reg) : Statement (.stdx s d a b) := by
  intro w h
  cases h
  exact encWord_lt _ _ _ _ _ (by omega)

theorem stqx (s : Bool) (d : Reg) (a : Reg) (b : Reg) : Statement (.stqx s d a b) := by
  intro w h
  cases h
  exact encWord_lt _ _ _ _ _ (by omega)

theorem ldcx (s : Bool) (d : Reg) (a : Reg) (b : Reg) : Statement (.ldcx s d a b) := by
  intro w h
  cases h
  exact encWord_lt _ _ _ _ _ (by omega)

theorem ldcdx (s : Bool) (d : Reg) (a : Reg) (b : Reg) : Statement (.ldcdx s d a b) := by
  intro w h
  cases h
  exact encWord_lt _ _ _ _ _ (by omega)

theorem fence (s : Bool) (u : BitVec 7) (v : BitVec 7) (c : BitVec 3) : Statement (.fence s u v c) := by
  intro w h
  cases h
  exact encWord_lt _ _ _ _ _ (by omega)

theorem pfence (s : Bool) (u : BitVec 7) (v : BitVec 7) : Statement (.pfence s u v) := by
  intro w h
  cases h
  exact encWord_lt _ _ _ _ _ (by omega)

theorem slacq (s : Bool) (d : Reg) (a : Reg) (b : Reg) : Statement (.slacq s d a b) := by
  intro w h
  cases h
  exact encWord_lt _ _ _ _ _ (by omega)

theorem slrel (s : Bool) (a : Reg) : Statement (.slrel s a) := by
  intro w h
  cases h
  exact encWord_lt _ _ _ _ _ (by omega)

theorem bara (s : Bool) (n : BitVec 4) (l : BitVec 3) (a : Reg) : Statement (.bara s n l a) := by
  intro w h
  cases h
  exact encB_lt _ _ _ _ _ (by omega)

theorem barw (s : Bool) (n : BitVec 4) (l : BitVec 3) : Statement (.barw s n l) := by
  intro w h
  cases h
  exact encB_lt _ _ _ _ _ (by omega)

theorem bar (s : Bool) (n : BitVec 4) (l : BitVec 3) (a : Reg) : Statement (.bar s n l a) := by
  intro w h
  cases h
  exact encB_lt _ _ _ _ _ (by omega)

theorem barx (s : Bool) (n : BitVec 4) (l : BitVec 3) (a : Reg) : Statement (.barx s n l a) := by
  intro w h
  cases h
  exact encB_lt _ _ _ _ _ (by omega)

theorem mon (s : Bool) (d : Reg) (a : Reg) : Statement (.mon s d a) := by
  intro w h
  cases h
  exact encWord_lt _ _ _ _ _ (by omega)

theorem mwait (s : Bool) (d : Reg) (a : Reg) : Statement (.mwait s d a) := by
  intro w h
  cases h
  exact encWord_lt _ _ _ _ _ (by omega)

theorem amoAdd (s : Bool) (p : BitVec 3) (d : Reg) (a : BitVec 6) (f : Bool) (b : Reg) : Statement (.amoAdd s p d a f b) := by
  intro w h
  cases h
  exact encA_lt _ _ _ _ _ _ _ (by omega)

theorem amoAnd (s : Bool) (p : BitVec 3) (d : Reg) (a : BitVec 6) (f : Bool) (b : Reg) : Statement (.amoAnd s p d a f b) := by
  intro w h
  cases h
  exact encA_lt _ _ _ _ _ _ _ (by omega)

theorem amoOr (s : Bool) (p : BitVec 3) (d : Reg) (a : BitVec 6) (f : Bool) (b : Reg) : Statement (.amoOr s p d a f b) := by
  intro w h
  cases h
  exact encA_lt _ _ _ _ _ _ _ (by omega)

theorem amoXor (s : Bool) (p : BitVec 3) (d : Reg) (a : BitVec 6) (f : Bool) (b : Reg) : Statement (.amoXor s p d a f b) := by
  intro w h
  cases h
  exact encA_lt _ _ _ _ _ _ _ (by omega)

theorem amoMin (s : Bool) (p : BitVec 3) (d : Reg) (a : BitVec 6) (f : Bool) (b : Reg) : Statement (.amoMin s p d a f b) := by
  intro w h
  cases h
  exact encA_lt _ _ _ _ _ _ _ (by omega)

theorem amoMax (s : Bool) (p : BitVec 3) (d : Reg) (a : BitVec 6) (f : Bool) (b : Reg) : Statement (.amoMax s p d a f b) := by
  intro w h
  cases h
  exact encA_lt _ _ _ _ _ _ _ (by omega)

theorem amoXchg (s : Bool) (p : BitVec 3) (d : Reg) (a : BitVec 6) (f : Bool) (b : Reg) : Statement (.amoXchg s p d a f b) := by
  intro w h
  cases h
  exact encA_lt _ _ _ _ _ _ _ (by omega)

theorem amoFadd (s : Bool) (p : BitVec 3) (d : Reg) (a : BitVec 6) (f : Bool) (b : Reg) : Statement (.amoFadd s p d a f b) := by
  intro w h
  cases h
  exact encA_lt _ _ _ _ _ _ _ (by omega)

theorem amoMinu (s : Bool) (p : BitVec 3) (d : Reg) (a : BitVec 6) (f : Bool) (b : Reg) : Statement (.amoMinu s p d a f b) := by
  intro w h
  cases h
  exact encA_lt _ _ _ _ _ _ _ (by omega)

theorem amoMaxu (s : Bool) (p : BitVec 3) (d : Reg) (a : BitVec 6) (f : Bool) (b : Reg) : Statement (.amoMaxu s p d a f b) := by
  intro w h
  cases h
  exact encA_lt _ _ _ _ _ _ _ (by omega)

theorem amoAdd64 (s : Bool) (p : BitVec 3) (d : Reg) (a : BitVec 6) (f : Bool) (b : Reg) : Statement (.amoAdd64 s p d a f b) := by
  intro w h
  cases h
  exact encA_lt _ _ _ _ _ _ _ (by omega)

theorem casW (s : Bool) (p : BitVec 3) (d : Reg) (a : BitVec 6) (f : Bool) (b : Reg) : Statement (.casW s p d a f b) := by
  intro w h
  cases h
  exact encA_lt _ _ _ _ _ _ _ (by omega)

theorem casD (s : Bool) (p : BitVec 3) (d : Reg) (a : BitVec 6) (f : Bool) (b : Reg) : Statement (.casD s p d a f b) := by
  intro w h
  cases h
  exact encA_lt _ _ _ _ _ _ _ (by omega)

theorem gts (s : Bool) (p : BitVec 3) (d : Reg) (a : BitVec 6) (f : Bool) (b : Reg) : Statement (.gts s p d a f b) := by
  intro w h
  cases h
  exact encA_lt _ _ _ _ _ _ _ (by omega)

theorem vcas (s : Bool) (p : BitVec 3) (d : Reg) (a : BitVec 6) (f : Bool) (b : Reg) : Statement (.vcas s p d a f b) := by
  intro w h
  cases h
  exact encA_lt _ _ _ _ _ _ _ (by omega)

theorem tcas (s : Bool) (p : BitVec 3) (d : Reg) (a : BitVec 6) (f : Bool) (b : Reg) : Statement (.tcas s p d a f b) := by
  intro w h
  cases h
  exact encA_lt _ _ _ _ _ _ _ (by omega)

theorem redAdd (s : Bool) (p : BitVec 3) (f : Bool) (a : BitVec 6) (b : Reg) : Statement (.redAdd s p f a b) := by
  intro w h
  cases h
  exact encN_lt _ _ _ _ _ _ (by omega)

theorem redAnd (s : Bool) (p : BitVec 3) (f : Bool) (a : BitVec 6) (b : Reg) : Statement (.redAnd s p f a b) := by
  intro w h
  cases h
  exact encN_lt _ _ _ _ _ _ (by omega)

theorem redOr (s : Bool) (p : BitVec 3) (f : Bool) (a : BitVec 6) (b : Reg) : Statement (.redOr s p f a b) := by
  intro w h
  cases h
  exact encN_lt _ _ _ _ _ _ (by omega)

theorem redXor (s : Bool) (p : BitVec 3) (f : Bool) (a : BitVec 6) (b : Reg) : Statement (.redXor s p f a b) := by
  intro w h
  cases h
  exact encN_lt _ _ _ _ _ _ (by omega)

theorem redMin (s : Bool) (p : BitVec 3) (f : Bool) (a : BitVec 6) (b : Reg) : Statement (.redMin s p f a b) := by
  intro w h
  cases h
  exact encN_lt _ _ _ _ _ _ (by omega)

theorem redMax (s : Bool) (p : BitVec 3) (f : Bool) (a : BitVec 6) (b : Reg) : Statement (.redMax s p f a b) := by
  intro w h
  cases h
  exact encN_lt _ _ _ _ _ _ (by omega)

theorem redMinu (s : Bool) (p : BitVec 3) (f : Bool) (a : BitVec 6) (b : Reg) : Statement (.redMinu s p f a b) := by
  intro w h
  cases h
  exact encN_lt _ _ _ _ _ _ (by omega)

theorem redMaxu (s : Bool) (p : BitVec 3) (f : Bool) (a : BitVec 6) (b : Reg) : Statement (.redMaxu s p f a b) := by
  intro w h
  cases h
  exact encN_lt _ _ _ _ _ _ (by omega)

theorem redFadd (s : Bool) (p : BitVec 3) (f : Bool) (a : BitVec 6) (b : Reg) : Statement (.redFadd s p f a b) := by
  intro w h
  cases h
  exact encN_lt _ _ _ _ _ _ (by omega)

theorem redHadd2 (s : Bool) (p : BitVec 3) (f : Bool) (a : BitVec 6) (b : Reg) : Statement (.redHadd2 s p f a b) := by
  intro w h
  cases h
  exact encN_lt _ _ _ _ _ _ (by omega)

theorem redFmin (s : Bool) (p : BitVec 3) (f : Bool) (a : BitVec 6) (b : Reg) : Statement (.redFmin s p f a b) := by
  intro w h
  cases h
  exact encN_lt _ _ _ _ _ _ (by omega)

theorem redFmax (s : Bool) (p : BitVec 3) (f : Bool) (a : BitVec 6) (b : Reg) : Statement (.redFmax s p f a b) := by
  intro w h
  cases h
  exact encN_lt _ _ _ _ _ _ (by omega)

theorem txb (s : Bool) (m : BitVec 14) : Statement (.txb s m) := by
  intro w h
  cases h
  exact encWord_lt _ _ _ _ _ (by omega)

theorem txe (d : Reg) : Statement (.txe d) := by
  intro w h
  cases h
  exact encWord_lt _ _ _ _ _ (by omega)

theorem txa (m : BitVec 14) : Statement (.txa m) := by
  intro w h
  cases h
  exact encWord_lt _ _ _ _ _ (by omega)

theorem stst (s : Bool) (d : Reg) (a : Reg) (b : Reg) : Statement (.stst s d a b) := by
  intro w h
  cases h
  exact encWord_lt _ _ _ _ _ (by omega)

theorem ststd (s : Bool) (d : Reg) (a : Reg) (b : Reg) : Statement (.ststd s d a b) := by
  intro w h
  cases h
  exact encWord_lt _ _ _ _ _ (by omega)

theorem cwait (s : Bool) (d : Reg) (a : Reg) : Statement (.cwait s d a) := by
  intro w h
  cases h
  exact encWord_lt _ _ _ _ _ (by omega)

theorem ldas (s : Bool) (d : Reg) (a : Reg) (b : Reg) : Statement (.ldas s d a b) := by
  intro w h
  cases h
  exact encWord_lt _ _ _ _ _ (by omega)

theorem pdisc (s : Bool) (d : Reg) (a : Reg) (b : Reg) : Statement (.pdisc s d a b) := by
  intro w h
  cases h
  exact encWord_lt _ _ _ _ _ (by omega)

theorem pmove (s : Bool) (d : Reg) (a : Reg) (b : Reg) : Statement (.pmove s d a b) := by
  intro w h
  cases h
  exact encWord_lt _ _ _ _ _ (by omega)

theorem lease (s : Bool) (d : Reg) (a : Reg) (b : Reg) : Statement (.lease s d a b) := by
  intro w h
  cases h
  exact encWord_lt _ _ _ _ _ (by omega)

theorem lwait (s : Bool) (d : Reg) (a : Reg) : Statement (.lwait s d a) := by
  intro w h
  cases h
  exact encWord_lt _ _ _ _ _ (by omega)

theorem lrel (s : Bool) (d : Reg) (a : Reg) : Statement (.lrel s d a) := by
  intro w h
  cases h
  exact encWord_lt _ _ _ _ _ (by omega)

theorem lstat (s : Bool) (d : Reg) (a : Reg) : Statement (.lstat s d a) := by
  intro w h
  cases h
  exact encWord_lt _ _ _ _ _ (by omega)

theorem tcopy (s : Bool) (d : Reg) (a : Reg) (b : Reg) : Statement (.tcopy s d a b) := by
  intro w h
  cases h
  exact encWord_lt _ _ _ _ _ (by omega)

theorem tcopym (s : Bool) (d : Reg) (a : Reg) (b : Reg) : Statement (.tcopym s d a b) := by
  intro w h
  cases h
  exact encWord_lt _ _ _ _ _ (by omega)

theorem gath (s : Bool) (d : Reg) (a : Reg) (b : Reg) : Statement (.gath s d a b) := by
  intro w h
  cases h
  exact encWord_lt _ _ _ _ _ (by omega)

theorem scat (s : Bool) (d : Reg) (a : Reg) (b : Reg) : Statement (.scat s d a b) := by
  intro w h
  cases h
  exact encWord_lt _ _ _ _ _ (by omega)

theorem coll (s : Bool) (d : Reg) (a : Reg) (b : Reg) : Statement (.coll s d a b) := by
  intro w h
  cases h
  exact encWord_lt _ _ _ _ _ (by omega)

theorem vdec (s : Bool) (d : Reg) (a : Reg) (b : Reg) : Statement (.vdec s d a b) := by
  intro w h
  cases h
  exact encWord_lt _ _ _ _ _ (by omega)

theorem qfence (s : Bool) (d : Reg) (a : Reg) : Statement (.qfence s d a) := by
  intro w h
  cases h
  exact encWord_lt _ _ _ _ _ (by omega)

theorem bseal (s : Bool) (d : Reg) : Statement (.bseal s d) := by
  intro w h
  cases h
  exact encWord_lt _ _ _ _ _ (by omega)

theorem bwait (s : Bool) (d : Reg) (a : Reg) : Statement (.bwait s d a) := by
  intro w h
  cases h
  exact encWord_lt _ _ _ _ _ (by omega)

theorem bstat (s : Bool) (d : Reg) (a : Reg) : Statement (.bstat s d a) := by
  intro w h
  cases h
  exact encWord_lt _ _ _ _ _ (by omega)

theorem mxma (s : Bool) (d : Reg) (a : Reg) (b : Reg) : Statement (.mxma s d a b) := by
  intro w h
  cases h
  exact encWord_lt _ _ _ _ _ (by omega)

theorem accz (s : Bool) (d : Reg) : Statement (.accz s d) := by
  intro w h
  cases h
  exact encWord_lt _ _ _ _ _ (by omega)

theorem accout (s : Bool) (d : Reg) (a : Reg) : Statement (.accout s d a) := by
  intro w h
  cases h
  exact encWord_lt _ _ _ _ _ (by omega)

theorem talloc (s : Bool) (d : Reg) : Statement (.talloc s d) := by
  intro w h
  cases h
  exact encWord_lt _ _ _ _ _ (by omega)

theorem tfree (s : Bool) (d : Reg) (a : Reg) : Statement (.tfree s d a) := by
  intro w h
  cases h
  exact encWord_lt _ _ _ _ _ (by omega)

theorem tstate (s : Bool) (d : Reg) (a : Reg) : Statement (.tstate s d a) := by
  intro w h
  cases h
  exact encWord_lt _ _ _ _ _ (by omega)

theorem tset (s : Bool) (d : Reg) (a : Reg) : Statement (.tset s d a) := by
  intro w h
  cases h
  exact encWord_lt _ _ _ _ _ (by omega)

theorem twait (s : Bool) (d : Reg) (a : Reg) (b : Reg) : Statement (.twait s d a b) := by
  intro w h
  cases h
  exact encWord_lt _ _ _ _ _ (by omega)

theorem ldt (s : Bool) (d : Reg) (a : Reg) (b : Reg) : Statement (.ldt s d a b) := by
  intro w h
  cases h
  exact encWord_lt _ _ _ _ _ (by omega)

theorem stt (s : Bool) (d : Reg) (a : Reg) (b : Reg) : Statement (.stt s d a b) := by
  intro w h
  cases h
  exact encWord_lt _ _ _ _ _ (by omega)

theorem rgive (m : BitVec 14) : Statement (.rgive m) := by
  intro w h
  cases h
  exact encWord_lt _ _ _ _ _ (by omega)

theorem rclaim (s : Bool) (d : Reg) (m : BitVec 14) : Statement (.rclaim s d m) := by
  intro w h
  cases h
  exact encWord_lt _ _ _ _ _ (by omega)

theorem rpool (s : Bool) (d : Reg) : Statement (.rpool s d) := by
  intro w h
  cases h
  exact encWord_lt _ _ _ _ _ (by omega)

theorem spawn (s : Bool) (d : Reg) (a : Reg) (b : Reg) : Statement (.spawn s d a b) := by
  intro w h
  cases h
  exact encWord_lt _ _ _ _ _ (by omega)

theorem tokw (s : Bool) (d : Reg) : Statement (.tokw s d) := by
  intro w h
  cases h
  exact encWord_lt _ _ _ _ _ (by omega)

theorem tokp (s : Bool) (d : Reg) : Statement (.tokp s d) := by
  intro w h
  cases h
  exact encWord_lt _ _ _ _ _ (by omega)

theorem rndb (s : Bool) (d : Reg) : Statement (.rndb s d) := by
  intro w h
  cases h
  exact encWord_lt _ _ _ _ _ (by omega)

theorem mfsr (s : Bool) (d : Reg) (m : BitVec 14) : Statement (.mfsr s d m) := by
  intro w h
  cases h
  exact encWord_lt _ _ _ _ _ (by omega)

theorem mtsr (s : Bool) (d : Reg) (m : BitVec 14) : Statement (.mtsr s d m) := by
  intro w h
  cases h
  exact encWord_lt _ _ _ _ _ (by omega)

theorem tlbi (s : Bool) (d : Reg) (a : Reg) (b : Reg) : Statement (.tlbi s d a b) := by
  intro w h
  cases h
  exact encWord_lt _ _ _ _ _ (by omega)

theorem eret : Statement (.eret) := by
  intro w h
  cases h
  exact encWord_lt _ _ _ _ _ (by omega)

theorem halt (a : Reg) : Statement (.halt a) := by
  intro w h
  cases h
  exact encWord_lt _ _ _ _ _ (by omega)

theorem ctxsav (s : Bool) (d : Reg) (a : Reg) : Statement (.ctxsav s d a) := by
  intro w h
  cases h
  exact encWord_lt _ _ _ _ _ (by omega)

theorem ctxres (s : Bool) (d : Reg) (a : Reg) (b : Reg) : Statement (.ctxres s d a b) := by
  intro w h
  cases h
  exact encWord_lt _ _ _ _ _ (by omega)

theorem sysc (s : Bool) (m : BitVec 21) : Statement (.sysc s m) := by
  intro w h
  cases h
  exact encWord_lt _ _ _ _ _ (by omega)

theorem runParkComplete (ctx wg : Nat) (tids : List Nat) : Statement (.runParkComplete ctx wg tids) := by
  intro w h
  cases h

theorem localityWindowEnd (core : Nat) : Statement (.localityWindowEnd core) := by
  intro w h
  cases h

theorem workgroupDispatch (ctx wg core : Nat) : Statement (.workgroupDispatch ctx wg core) := by
  intro w h
  cases h

theorem workgroupEnd (ctx wg : Nat) : Statement (.workgroupEnd ctx wg) := by
  intro w h
  cases h

theorem continuationRecord (id : Nat) : Statement (.continuationRecord id) := by
  intro w h
  cases h

theorem binCloseTimeout (cluster bin : Nat) : Statement (.binCloseTimeout cluster bin) := by
  intro w h
  cases h

theorem detGenerationForm (ctx : Nat) : Statement (.detGenerationForm ctx) := by
  intro w h
  cases h

theorem preemption (ctx wg cause : Nat) : Statement (.preemption ctx wg cause) := by
  intro w h
  cases h

theorem resumption (ctx wg core : Nat) : Statement (.resumption ctx wg core) := by
  intro w h
  cases h

theorem waitWake (ctx wg : Nat) (tids : List Nat) : Statement (.waitWake ctx wg tids) := by
  intro w h
  cases h

theorem waitTimeout (ctx wg tid : Nat) : Statement (.waitTimeout ctx wg tid) := by
  intro w h
  cases h

theorem tileFillComplete (cluster tile : Nat) : Statement (.tileFillComplete cluster tile) := by
  intro w h
  cases h

theorem tileReaderFinish (cluster tile : Nat) : Statement (.tileReaderFinish cluster tile) := by
  intro w h
  cases h

theorem entryStart (die site : Nat) : Statement (.entryStart die site) := by
  intro w h
  cases h

theorem macroStep (die site : Nat) : Statement (.macroStep die site) := by
  intro w h
  cases h

theorem entryComplete (die site : Nat) : Statement (.entryComplete die site) := by
  intro w h
  cases h

theorem collContribution (ctx tag rank op n : Nat) (data : List Word) : Statement (.collContribution ctx tag rank op n data) := by
  intro w h
  cases h

theorem leaseGrant (die : Nat) : Statement (.leaseGrant die) := by
  intro w h
  cases h

theorem siteWakeComplete (die site : Nat) : Statement (.siteWakeComplete die site) := by
  intro w h
  cases h

theorem lingerExpiry (die site : Nat) : Statement (.lingerExpiry die site) := by
  intro w h
  cases h

theorem loadPerform (id : Nat) : Statement (.loadPerform id) := by
  intro w h
  cases h

theorem storePerform (id : Nat) : Statement (.storePerform id) := by
  intro w h
  cases h

theorem atomicPerform (id : Nat) : Statement (.atomicPerform id) := by
  intro w h
  cases h

theorem reductionPerform (id : Nat) : Statement (.reductionPerform id) := by
  intro w h
  cases h

theorem detReductionArrival (id : Nat) : Statement (.detReductionArrival id) := by
  intro w h
  cases h

theorem detEndMarker (ctx wg : Nat) : Statement (.detEndMarker ctx wg) := by
  intro w h
  cases h

theorem tokenPass (ctx : Nat) : Statement (.tokenPass ctx) := by
  intro w h
  cases h

theorem txHomeValidation (ctx wg tid : Nat) : Statement (.txHomeValidation ctx wg tid) := by
  intro w h
  cases h

theorem regdlDetect (ctx wg : Nat) : Statement (.regdlDetect ctx wg) := by
  intro w h
  cases h

theorem stampArrival (id : Nat) : Statement (.stampArrival id) := by
  intro w h
  cases h

theorem waterlineForm (first : Nat) : Statement (.waterlineForm first) := by
  intro w h
  cases h

theorem waterlineDelivery (die slice : Nat) : Statement (.waterlineDelivery die slice) := by
  intro w h
  cases h

theorem barrierArrival (id : Nat) : Statement (.barrierArrival id) := by
  intro w h
  cases h

theorem barrierRelease (ctx wg : Nat) (tids : List Nat) : Statement (.barrierRelease ctx wg tids) := by
  intro w h
  cases h

theorem pmoveComplete (id : Nat) : Statement (.pmoveComplete id) := by
  intro w h
  cases h

theorem ringRegister (block priority slice : Nat) (privileged : Bool) : Statement (.ringRegister block priority slice privileged) := by
  intro w h
  cases h

theorem survey (ring : Nat) : Statement (.survey ring) := by
  intro w h
  cases h

theorem accept (ring : Nat) : Statement (.accept ring) := by
  intro w h
  cases h

theorem decline (ring : Nat) : Statement (.decline ring) := by
  intro w h
  cases h

theorem writePkt (ring : Nat) : Statement (.writePkt ring) := by
  intro w h
  cases h

theorem signalPkt (ring : Nat) : Statement (.signalPkt ring) := by
  intro w h
  cases h

theorem waitPkt (ring : Nat) : Statement (.waitPkt ring) := by
  intro w h
  cases h

theorem writeSignal (ring : Nat) : Statement (.writeSignal ring) := by
  intro w h
  cases h

theorem copyPkt (ring : Nat) : Statement (.copyPkt ring) := by
  intro w h
  cases h

theorem partition (ring : Nat) : Statement (.partition ring) := by
  intro w h
  cases h

theorem link (ring : Nat) : Statement (.link ring) := by
  intro w h
  cases h

theorem packetRefused (ring : Nat) : Statement (.packetRefused ring) := by
  intro w h
  cases h

theorem slotUnwrittenTimeout (ring : Nat) : Statement (.slotUnwrittenTimeout ring) := by
  intro w h
  cases h

theorem sliceExpiry : Statement (.sliceExpiry) := by
  intro w h
  cases h

theorem waitStepResume (ring : Nat) : Statement (.waitStepResume ring) := by
  intro w h
  cases h

theorem surveyComplete (quote : Nat) : Statement (.surveyComplete quote) := by
  intro w h
  cases h

theorem quoteDeadlineExpiry (quote : Nat) : Statement (.quoteDeadlineExpiry quote) := by
  intro w h
  cases h

theorem pageFaultDoorbell (ctx page : Nat) (mapped : Bool) : Statement (.pageFaultDoorbell ctx page mapped) := by
  intro w h
  cases h

theorem launchStart (ctx : Nat) : Statement (.launchStart ctx) := by
  intro w h
  cases h

theorem launchComplete (ctx : Nat) : Statement (.launchComplete ctx) := by
  intro w h
  cases h

theorem accountBacklogDrain : Statement (.accountBacklogDrain) := by
  intro w h
  cases h

theorem idleTimerExpiry (cluster : Nat) : Statement (.idleTimerExpiry cluster) := by
  intro w h
  cases h

theorem gatingComplete (cluster : Nat) : Statement (.gatingComplete cluster) := by
  intro w h
  cases h

theorem clusterWakeComplete (cluster : Nat) : Statement (.clusterWakeComplete cluster) := by
  intro w h
  cases h

theorem powerLoop (readings : List SensorReading) : Statement (.powerLoop readings) := by
  intro w h
  cases h

theorem targetApply (die : Nat) : Statement (.targetApply die) := by
  intro w h
  cases h

theorem thermalTrip (die : Nat) : Statement (.thermalTrip die) := by
  intro w h
  cases h

theorem supplyDroop (die : Nat) : Statement (.supplyDroop die) := by
  intro w h
  cases h

theorem mchk (touched : List (Nat × Nat)) : Statement (.mchk touched) := by
  intro w h
  cases h

theorem checkValueMismatch (address place : Nat) (found : Word) (consumers : List (Nat × Nat)) : Statement (.checkValueMismatch address place found consumers) := by
  intro w h
  cases h

theorem quiesceRequest (id : Nat) : Statement (.quiesceRequest id) := by
  intro w h
  cases h

theorem quiesceRelease (id : Nat) : Statement (.quiesceRelease id) := by
  intro w h
  cases h

theorem clearRefused (id : Nat) : Statement (.clearRefused id) := by
  intro w h
  cases h

theorem quiesceComplete (die : Nat) : Statement (.quiesceComplete die) := by
  intro w h
  cases h

theorem quiesceRefuse (die : Nat) : Statement (.quiesceRefuse die) := by
  intro w h
  cases h

theorem pidWrite (id : Nat) : Statement (.pidWrite id) := by
  intro w h
  cases h

theorem pilvWrite (id : Nat) : Statement (.pilvWrite id) := by
  intro w h
  cases h

theorem pbndWrite (id : Nat) : Statement (.pbndWrite id) := by
  intro w h
  cases h

theorem energyRead (ctx wg tid : Nat) : Statement (.energyRead ctx wg tid) := by
  intro w h
  cases h

theorem edieRead (id : Nat) : Statement (.edieRead id) := by
  intro w h
  cases h

theorem registerWrite (id : Nat) : Statement (.registerWrite id) := by
  intro w h
  cases h

theorem clockReferenceLoss (die : Nat) : Statement (.clockReferenceLoss die) := by
  intro w h
  cases h

theorem linkRetrain (module : Nat) : Statement (.linkRetrain module) := by
  intro w h
  cases h

theorem linkTraining (link peer : Nat) : Statement (.linkTraining link peer) := by
  intro w h
  cases h

theorem resetModule : Statement (.resetModule) := by
  intro w h
  cases h

theorem recoveryImage (image : FirmwareImage) : Statement (.recoveryImage image) := by
  intro w h
  cases h

theorem selfTest (dies : List Nat) (findings : List Finding) : Statement (.selfTest dies findings) := by
  intro w h
  cases h

theorem getVersion (offered : List Nat) : Statement (.getVersion offered) := by
  intro w h
  cases h

theorem spdmMeasurements (index : Nat) : Statement (.spdmMeasurements index) := by
  intro w h
  cases h

theorem determinismManifestRequest : Statement (.determinismManifestRequest) := by
  intro w h
  cases h

theorem telemetry : Statement (.telemetry) := by
  intro w h
  cases h

theorem pcieInboundWrite (address : Nat) (data : List Byte) : Statement (.pcieInboundWrite address data) := by
  intro w h
  cases h

theorem pcieInboundRead (address length : Nat) : Statement (.pcieInboundRead address length) := by
  intro w h
  cases h

theorem illegalWordIssue (operand : Word) : Statement (.illegalWordIssue operand) := by
  intro w h
  cases h

theorem siteFailure (die site : Nat) : Statement (.siteFailure die site) := by
  intro w h
  cases h

theorem polderMigrationOrder (ctx base length target : Nat) (byDevice : Bool) : Statement (.polderMigrationOrder ctx base length target byDevice) := by
  intro w h
  cases h

theorem firmwareUpdate (image : FirmwareImage) : Statement (.firmwareUpdate image) := by
  intro w h
  cases h

theorem marginingRestartRequest (die : Nat) : Statement (.marginingRestartRequest die) := by
  intro w h
  cases h

end WordFits

end Sys2Proof.Laws
end

