-- ==== Sys2Proof/Safety.lean ====
section
/-! DEFINITION. What counts as a safe run, and the terms that claims use: when an issue group performs its instruction, and
what an instruction leaves as it was. -/

namespace Sys2Proof.Machine

/-- Both byte stores are in canonical form. -/
def State.canonical (s : State) : Bool := Memory.wf s.mem && Memory.wf s.scratch

/-- A step that neither faults nor is refused. -/
def State.goesOn (s : State) : Bool := match step s with
  | .next _ => true
  | .fault _ | .refused _ => false

/-- A run of `n` steps none of which stops. -/
def safeFor : Nat → State → Prop
  | 0, _ => True
  | n + 1, s => ∃ t, step s = .next t ∧ safeFor n t

/-! When an issue group performs its instruction. -/

/-- A member that may perform: it is ready, its transaction allows the instruction (R179), a producer stands in sub-group 0
(R25), and its fields lie in its allocation (R63). -/
def memberOk (i : Instr) (u : Thread) : Bool :=
  u.status == .ready && (!u.tx.active || txAllowed i) && (!isProducer i || u.sub == 0) && (windowCheck i u).isNone

/-- The group being executed may perform `i`: checks 1 to 5 of R57 pass in every member. -/
def issuable (i : Instr) (s : State) (g : Group) : Bool :=
  s.group == some g && i.wf && decide g.tids.Nodup && (!isPrivileged i || s.privileged g) && !userPrivIndex i
    && (!isWaiting i || ((s.launch g.ctx).bind (fun l => l.bound g.pc)).isSome)
    && g.tids.all (fun k => (s.threadOf g.ctx g.wg k).any (memberOk i))

/-- The same for members outside any transaction. -/
def issuableOutside (i : Instr) (s : State) (g : Group) : Bool :=
  issuable i s g && g.tids.all (fun k => (s.threadOf g.ctx g.wg k).any (fun u => !u.tx.active))

/-! What an instruction leaves as it was. -/

/-- A workgroup apart from its threads. -/
def Workgroup.shell (w : Workgroup) : Workgroup := { w with threads := [] }

/-- A core apart from its PC table. -/
def Core.shell (c : Core) : Core := { c with entries := [], held := [], ageCounter := 0 }

/-- Nothing changed but the threads of the group and the PC tables: not memory, not a die, a cluster, a launch, an engine or
an access in flight, not another thread, and of a workgroup and of a core only the threads and the table. -/
structure OnlyMembers (s t : State) (g : Group) : Prop where
  rest : t = { s with group := none, wgs := t.wgs, cores := t.cores }
  others : ∀ c w k, ¬(c = g.ctx ∧ w = g.wg ∧ k ∈ g.tids) → t.threadOf c w k = s.threadOf c w k
  shells : ∀ c w, (t.wgOf c w).map Workgroup.shell = (s.wgOf c w).map Workgroup.shell
  cores : ∀ k, (t.coreOf k).shell = (s.coreOf k).shell

/-- Every member of the group went from a thread to one that `post` relates to it. -/
def EachMember (s t : State) (g : Group) (post : Thread → Thread → Prop) : Prop :=
  ∀ k ∈ g.tids, ∃ u v, s.threadOf g.ctx g.wg k = some u ∧ t.threadOf g.ctx g.wg k = some v ∧ post u v

/-- The run of a thread after it performed an instruction (R20, R58): it closes and parks, or it goes on and stays ready. -/
def RunGoesOn (i : Instr) (u v : Thread) : Prop :=
  if closesRun i u.runLen = true then v.status = .parked ∧ v.runLen = 64 else v.status = .ready ∧ v.runLen = u.runLen + 1

/-- The thread wrote the words `ws` to the fields from `d` on at issue, went to `pc`, and kept everything else. -/
structure Wrote (i : Instr) (pc d : Nat) (ws : List Word) (u v : Thread) : Prop where
  value : ∀ k, k < ws.length → v.readW (d + k) = nth 0 ws k
  frame : ∀ p, (∀ k, k < ws.length → p ≠ u.phys (d + k)) → nth 0 v.regs p = nth 0 u.regs p
  size : v.regs.length = u.regs.length
  rest : v = { u with regs := v.regs, pc := pc, holdPc := none, status := v.status, runLen := v.runLen }
  run : RunGoesOn i u v

/-- The thread owes the words `ws` to the fields from `d` on, to be committed at its park (R60), went to `pc`, and kept
everything else: no register has changed yet. -/
structure Owes (i : Instr) (pc d : Nat) (ws : List Word) (u v : Thread) : Prop where
  rest : v = { u with
    results := u.results ++ [{ slot := u.nextSlot, dest := (rangeFrom d ws.length).map u.phys, value := some (ws.map some) }],
    nextSlot := u.nextSlot + 1, pc := pc, holdPc := none, status := v.status, runLen := v.runLen }
  run : RunGoesOn i u v

/-- The thread sleeps on `w` (R66), its limit that of the bound-table entry, with a result to come for field `d` if it names
one, and kept everything else. -/
def Sleeps (i : Instr) (w : WaitKind) (limit now pc : Nat) (d : Option Nat) (u v : Thread) : Prop :=
  v = { u with
    status := .asleep w, deadline := now + limit, waitSlot := u.nextSlot, pc := pc, holdPc := none,
    results := (match d with
      | none => u.results
      | some f => u.results ++ [{ slot := u.nextSlot, dest := [u.phys f], value := none }]),
    nextSlot := (match d with | none => u.nextSlot | some _ => u.nextSlot + 1),
    runLen := if closesRun i u.runLen = true then 64 else u.runLen + 1 }

/-- The thread became `u'`, went to `pc`, and its run goes on or closes. -/
structure Went (i : Instr) (pc : Nat) (u' u v : Thread) : Prop where
  rest : v = { u' with pc := pc, holdPc := none, status := v.status, runLen := v.runLen }
  run : RunGoesOn i u v

/-- The thread became `u'`, which is held or asleep: it went to `pc`, and its run counts the instruction. -/
def Stays (i : Instr) (pc : Nat) (u' u v : Thread) : Prop :=
  v = { u' with pc := pc, holdPc := none, runLen := if closesRun i u.runLen = true then 64 else u.runLen + 1 }

/-- Accesses went into flight; besides them nothing changed but the threads of the group and the PC tables. -/
structure Sent (s t : State) (g : Group) (accs : List Access) : Prop where
  rest : t = { s with group := none, wgs := t.wgs, cores := t.cores, flight := s.flight ++ accs, nextId := s.nextId + accs.length }
  others : ∀ c w k, ¬(c = g.ctx ∧ w = g.wg ∧ k ∈ g.tids) → t.threadOf c w k = s.threadOf c w k
  shells : ∀ c w, (t.wgOf c w).map Workgroup.shell = (s.wgOf c w).map Workgroup.shell
  cores : ∀ k, (t.coreOf k).shell = (s.coreOf k).shell

/-- The accesses of a group's members in ascending lane, `n` of each, from the next number on. -/
def perMember (s : State) (g : Group) (n : Nat) (mk : Nat → Thread → List Access) : List Access :=
  g.tids.zipIdx.flatMap (fun p => ((s.threadOf g.ctx g.wg p.1).map (mk (s.nextId + n * p.2))).getD [])

/-- An access of a member, as it leaves: of its group's issue (R22), with the generations of scratchpad granules (R110). -/
def sentAccess (s : State) (g : Group) (path : Path) (op : AccOp) (addr size scope : Nat) (slot : Option Nat) (id : Nat) (u : Thread) :
    Access :=
  { id := id, ctx := g.ctx, wg := g.wg, tid := u.tid, core := g.core, path := path, op := op, addr := addr, size := size,
    scope := scope, slot := slot, gens := if classOf addr = .scratch then s.granuleGens (coreCluster g.core) addr size else [],
    gid := groupId s g, pc := g.pc, taken := 0, tx := none, after := u.seen }

/-- A result of `n` words from field `d` on, still to return; it is the thread's `k`-th from now. -/
def owing (u : Thread) (k d n : Nat) : Result := { slot := u.nextSlot + k, dest := (rangeFrom d n).map u.phys, value := none }

/-- A property of every member. -/
def Members (s : State) (g : Group) (p : Thread → Prop) : Prop := ∀ k ∈ g.tids, ∀ u, s.threadOf g.ctx g.wg k = some u → p u

/-- R150: the conditions under which a load or store of `n` bytes raises nothing. -/
def Reachable (s : State) (l : Launch) (core : Nat) (parent : Option Nat) (addr n : Nat) (isStore constant : Bool) : Prop :=
  addr % n = 0 ∧ classOfRange addr n ≠ .bad ∧
  (classOfRange addr n = .priv → addr - Config.privateBase + n ≤ l.img.priv) ∧
  (classOfRange addr n = .scratch → s.granulesOwned l.ctx parent (coreCluster core) addr n = true) ∧
  (isStore = true → classOfRange addr n = .global → l.readOnlyAt addr n = false ∧ l.stampedAt addr n = false ∧ l.sluiceAt addr n = false) ∧
  (constant = true → classOfRange addr n = .global) ∧
  (classOfRange addr n = .global → l.inLease addr n = true)

/-- No byte of an access is the first touch of a polder line (R122, R123): it lies in no polder region, in a page that has its
late frame, or in an allocated line whose page is not lost. -/
def Settled (s : State) (l : Launch) (addr n : Nat) : Prop :=
  ∀ a, addr ≤ a → a < addr + n → ∀ r, l.polderAt a = some r →
    (∃ b, s.polderPage l.ctx (r.pageOf a) = some (.backed b)) ∨
    ((l.ctx, a / 128) ∈ s.polderLines ∧ ∀ x, s.polderPage l.ctx (r.pageOf a) ≠ some (.lost x))

/-- R150, R167, R170, R172, R173, R176, R185: the conditions under which an atomic or a reduction raises nothing. -/
def AtomicReachable (s : State) (l : Launch) (core : Nat) (parent : Option Nat) (addr n scope : Nat) (pcieOp det : Bool) : Prop :=
  addr % n = 0 ∧ (classOfRange addr n = .scratch ∨ classOfRange addr n = .global) ∧
  (classOfRange addr n = .scratch → scope < 3 ∧ det = false ∧ s.granulesOwned l.ctx parent (coreCluster core) addr n = true) ∧
  (classOfRange addr n = .global → l.readOnlyAt addr n = false ∧ l.stampedAt addr n = false ∧ l.sluiceAt addr n = false ∧
    l.inLease addr n = true ∧ outsideForbids s (coreDie core) l addr scope pcieOp = false ∧
    (det = true → ∀ pa, (s.locate (coreDie core) l addr).bind (fun t => t.phys) = some pa → isSystem pa = false ∧ isPeer pa = false))

/-- The instruction completes: it performs in every member as `post` says, and nothing else changes. -/
def Performs (i : Instr) (s : State) (g : Group) (post : Thread → Thread → Prop) : Prop :=
  ∃ t, exec i s = .next t ∧ OnlyMembers s t g ∧ EachMember s t g post

/-- The instruction completes: its accesses leave, every member becomes as `post` says, and nothing else changes. -/
def Sends (i : Instr) (s : State) (g : Group) (accs : List Access) (post : Thread → Thread → Prop) : Prop :=
  ∃ t, exec i s = .next t ∧ Sent s t g accs ∧ EachMember s t g post

/-- An arrival of a member at a barrier, on its way to the root (R162): an issue of its own. -/
def arrival (s : State) (g : Group) (level id count expected n : Nat) (u : Thread) : Access :=
  { sentAccess s g .ord (.arrive level (levelInst level g.core) id count expected) 0 0 level none n u with gid := n, gens := [] }

/-- A thread whose arrival from a core, numbered `n`, has left (R163). -/
def arrivedAt (u : Thread) (core level id n : Nat) : Thread :=
  { u with
    arrived := { level := level, inst := levelInst level core, id := id, flight := some n, phase := 0 } :: u.arrived.filter (fun r => !(r.level == level && r.id == id)) }

/-- R165: the conditions under which MON and MWAIT raise nothing. -/
def Watchable (s : State) (l : Launch) (core : Nat) (parent : Option Nat) (addr : Nat) : Prop :=
  addr % 4 = 0 ∧ (classOf addr = .scratch ∨ classOf addr = .global) ∧
  (classOf addr = .scratch → s.granulesOwned l.ctx parent (coreCluster core) addr 4 = true) ∧ (classOf addr = .global → l.inLease addr 4 = true)

/-- R186, R189: an aligned address of a stamped region. -/
def StampedAt (l : Launch) (addr n : Nat) : Prop := addr % n = 0 ∧ ∃ r, l.regionOf addr n = some r ∧ r.kind = 3

/-- The width of the clock interval of a core's die (R141, R190). -/
def State.intervalWidth (s : State) (core : Nat) : Nat := (s.interval (coreDie core)).2 - (s.interval (coreDie core)).1

/-- A lone member's instruction completes with the word `r` owed to d; memory, accesses in flight and other threads stay as
they were, and `post` holds of the state and the member after. -/
def Answers (i : Instr) (s : State) (g : Group) (k : Nat) (d : Reg) (r : Word) (post : State → Thread → Prop) : Prop :=
  ∃ t u v, exec i s = .next t ∧ s.threadOf g.ctx g.wg k = some u ∧ t.threadOf g.ctx g.wg k = some v ∧
    v.results = u.results ++ [.mk u.nextSlot [u.phys d.toNat] (some [some r])] ∧ v.regs = u.regs ∧ v.pc = g.pc + i.bytes ∧
    RunGoesOn i u v ∧ t.mem = s.mem ∧ t.scratch = s.scratch ∧ t.flight = s.flight ∧
    (∀ c w j, ¬(c = g.ctx ∧ w = g.wg ∧ j = k) → t.threadOf c w j = s.threadOf c w j) ∧ post t v

/-- The queue of a lease's member gained one entry of the kind, of thread `k`, not yet started (R205). -/
def Enqueued (s t : State) (g : Group) (k : Nat) (l : Lease) (m : Nat) (kind : EntryKind) (e : Entry) : Prop :=
  (t.siteOf l.die (l.site m)).queue = (s.siteOf l.die (l.site m)).queue ++ [e] ∧ e.kind = kind ∧ e.ctx = g.ctx ∧ e.wg = g.wg ∧
  e.tid = k ∧ e.core = g.core ∧ e.pc = g.pc ∧ e.step = 0 ∧ e.started = false ∧ e.failed = false

/-- Steps 3 to 6 of R204 pass for a command without a follow-on: its ranges are declared and allowed, its handle names a
member of its class, the tiles that it fills are held and empty, and those that it reads held and ready. -/
structure CommandPasses (s : State) (g : Group) (l : Launch) (parent : Option Nat) (h : Nat) (c : Command) (le : Lease) (m : Nat) : Prop where
  leased : ∀ r ∈ c.ranges, rangeOutside l r = false
  token : gatedRanges s (coreCluster g.core) l c = [] ∨ l.holdsToken g.wg = true
  handle : handleStep s g h c.cls = .ok (le, m)
  allowed : ∀ r ∈ c.ranges, rangeBad s l parent (coreCluster g.core) c.globalOnly r = false
  fills : ∀ f ∈ c.kind.fills, (s.heldTile g.ctx (coreCluster g.core) f.1).any (fun t => t.state == .empty) = true
  once : hasRepeat (c.kind.fills.map (fun f => f.1)) = false
  reads : ∀ n ∈ c.kind.readers, (s.heldTile g.ctx (coreCluster g.core) n).any (fun t => t.state == .ready) = true
  types : toMemoryIllegal s (coreCluster g.core) c.kind = false
  tag : tagBusy s g.ctx c.kind = false
  key : needsKey s le m c.kind = false

/-- The streaming commands without a follow-on (R204). -/
def streamTable : List ((Bool → Reg → Reg → Reg → Instr) × Stream) :=
  [(.tcopy, .tcopy), (.gath, .gath), (.scat, .scat), (.coll, .coll), (.vdec, .vdec)]

/-- No access of the group's members is in flight. -/
def Quiet (s : State) (g : Group) : Prop := ∀ a ∈ s.flight, ¬(a.ctx = g.ctx ∧ a.wg = g.wg ∧ a.tid ∈ g.tids)

/-- A workgroup with no access in flight, no transaction and no lease. -/
def AtRest (s : State) (w : Workgroup) : Prop :=
  (∀ a ∈ s.flight, ¬(a.ctx = w.ctx ∧ a.wg = w.wg)) ∧ (∀ t ∈ w.threads, t.tx.active = false ∧ t.tx.committing = none) ∧
  (∀ l ∈ s.leases, ¬(l.ctx = w.ctx ∧ l.wg = w.wg))

/-- The loads of 16 bytes (R149): destination and address. -/
def QuadLoad (i : Instr) (d : Reg) (addr : Thread → Nat) : Prop :=
  (∃ sw a m, i = .ldq sw d a m ∧ addr = fun u => addrImm u a m 16) ∨ (∃ sw a b, i = .ldqx sw d a b ∧ addr = fun u => addrIdx u a b)

/-- The stores of 16 bytes (R149): source and address. -/
def QuadStore (i : Instr) (d : Reg) (addr : Thread → Nat) : Prop :=
  (∃ sw a m, i = .stq sw d a m ∧ addr = fun u => addrImm u a m 16) ∨ (∃ sw a b, i = .stqx sw d a b ∧ addr = fun u => addrIdx u a b)

/-- The thread's transaction aborted (R180, R184): %txs holds the cause, one aborted attempt more and the state 2, the write
set is gone, and after the park the thread goes to the abort path. -/
def Aborted (u v : Thread) (cause code : Nat) : Prop :=
  v.status = .parked ∧ v.pc = u.tx.abortPc ∧ v.tx.active = false ∧ v.tx.writes = [] ∧ v.regs = u.regs ∧
  v.txs.toNat % 4 = 2 ∧ v.txs.toNat / 2 ^ 4 % 2 ^ 3 = cause ∧ v.txs.toNat / 2 ^ 18 = code ∧
  v.txs.toNat / 2 ^ 10 % 2 ^ 8 = (if cause = 5 then u.txs.toNat / 2 ^ 10 % 2 ^ 8 else min 255 (u.txs.toNat / 2 ^ 10 % 2 ^ 8 + 1))

/-- BRK, which a debug launch takes otherwise (R257). -/
def isBreak : Instr → Bool
  | .brk _ _ => true
  | _ => false

/-- The group raises a trap, which names member `k` (R57). -/
def Traps (i : Instr) (s : State) (g : Group) (code : TrapCode) (operand k : Nat) : Prop :=
  exec i s = .next (State.trap { s with group := none } g { code := code, operand := operand } k)

/-- R190: a WIDEN has been recorded as a breach: of the device, by clock loss, where %tol is no narrower than the guaranteed width of the
launch's scope, and else of the operator. -/
def WidenBreach (s t : State) (g : Group) (l : Launch) : Prop :=
  ∃ r, t.staged = stageRecord r s.staged ∧ nth 0 r 0 = BitVec.ofNat 32 l.quoteId ∧
    (nth 0 r 1).toNat = (if (if l.spansPod then 120 else 8) ≤ (s.die (coreDie g.core)).tol.toNat then 5 + 2 ^ 8 else 18 + 2 * 2 ^ 8) ∧
    (t.launch g.ctx).map Launch.breaches = some (l.breaches + 1)

/-- R192: a range that begins in a polder region is one of polder pages: of that region, or of adjacent ones whose shares of it are pages
each. -/
def MoveRange (l : Launch) (r : Region) (addr n : Nat) : Prop :=
  (addr + n ≤ r.base + r.size ∧ n % r.pageBytes = 0) ∨
  (1 < (l.polderParts addr n).length ∧ ((l.polderParts addr n).map (fun p => p.2.2)).sum = n ∧
    ∀ p ∈ l.polderParts addr n, p.2.1 % p.1.pageBytes = 0 ∧ p.2.2 % p.1.pageBytes = 0)

/-- R143: the three checks of a call to `target` pass. -/
def CallAllowed (s : State) (core : Nat) (l : Launch) (u : Thread) (target : Nat) : Prop :=
  target % 4 = 0 ∧ 4 ≤ target ∧ ∃ w, s.codeWord (coreDie core) l (target - 4) = some w ∧ w / 2 ^ 27 % 32 = 15 ∧ 1 ≤ w / 2 ^ 14 % 2 ^ 13 ∧
    (u.readPair 0 + 2 ^ 64 - Config.privateBase) % 2 ^ 64 ≤ w % 2 ^ 14 * 16

/-- R143: the checks of a return to `target` pass: the word before it is a CALL (group 0x4, index 1) or a CALLR (index 4). -/
def ReturnAllowed (s : State) (core : Nat) (l : Launch) (target : Nat) : Prop :=
  target % 4 = 0 ∧ 4 ≤ target ∧ ∃ w, s.codeWord (coreDie core) l (target - 4) = some w ∧
    (w / 2 ^ 21 % 2 ^ 10 = 4 * 2 ^ 6 + 1 ∨ w / 2 ^ 21 % 2 ^ 10 = 4 * 2 ^ 6 + 4)

/-- Val(j) of R138: the value of operand a in the member on lane j, if there is one. -/
def laneValue (s : State) (g : Group) (a j : Nat) : Option Word :=
  ((g.tids.find? (fun k => k % 32 == j)).bind (fun k => s.threadOf g.ctx g.wg k)).map (fun u => u.readW a)

/-- The mask of the members whose value satisfies a test (R139). -/
def laneMask (s : State) (g : Group) (a : Nat) (p : Word → Bool) : Nat :=
  ((g.tids.filter (fun k => (s.threadOf g.ctx g.wg k).any (fun u => p (u.readW a)))).map (fun k => 2 ^ (k % 32))).sum

/-- Table 9 of R139: the member's thread index and the value y of operand b, to the result. -/
def subGroupTable (s : State) (g : Group) (a : Nat) : List ((Bool → Reg → Reg → Reg → Instr) × (Nat → Nat → Option Word)) :=
  [(.shfl, fun _ y => laneValue s g a (y % 32)),
   (.shflx, fun k y => laneValue s g a ((k % 32) ^^^ (y % 32))),
   (.shflu, fun k y => if y ≤ k % 32 then laneValue s g a (k % 32 - y) else none),
   (.shfld, fun k y => if k % 32 + y ≤ 31 then laneValue s g a (k % 32 + y) else none)]

/-- Table 9 of R139, the votes: the value of the reader, to the result. -/
def voteTable (s : State) (g : Group) (a : Nat) : List ((Bool → Reg → Reg → Instr) × (Word → Nat)) :=
  [(.vany, fun _ => if laneMask s g a (fun x => x != 0) = 0 then 0 else 1),
   (.vall, fun _ => if laneMask s g a (fun x => x == 0) = 0 then 1 else 0),
   (.vbal, fun _ => laneMask s g a (fun x => x != 0)),
   (.matchOp, fun x => laneMask s g a (fun y => y == x)),
   (.gsum, fun _ => ((g.tids.filterMap (fun k => s.threadOf g.ctx g.wg k)).map (fun u => (u.readW a).toNat)).sum % 2 ^ 32)]

/-- The user view of a member, but for %energy and %energyh (R65): index and value. -/
def userView (s : State) (l : Launch) (w : Workgroup) (g : Group) (u : Thread) : List (Nat × Nat) :=
  [(0x0000, u.tid), (0x0001, u.tid % 32), (0x0002, u.sub), (0x0003, g.wg), (0x0004, l.grid), (0x0005, g.core % 128),
   (0x0006, g.core / 128), (0x0007, g.core / 256), (0x0008, l.rank), (0x0009, l.nrank), (0x0010, u.clkw.toNat),
   (0x0011, (s.die (g.core / 256)).tol.toNat), (0x0018, u.txs.toNat), (0x0019, u.tws.toNat), (0x0020, w.acs.toNat),
   (0x0030, if l.img.det = true ∧ g.wg = l.token ∧ l.passing = false then 1 else 0)]

/-- The limit of a waiting instruction: its bound-table entry (R66). -/
def waitLimit (s : State) (g : Group) : Nat := ((s.launch g.ctx).bind (fun l => l.bound g.pc)).getD 0

/-- Nothing changed but one thread: not memory, not an access in flight, not another thread, not what is not a thread. -/
structure OnlyThread (s t : State) (ctx wg k : Nat) : Prop where
  rest : t = { s with wgs := t.wgs }
  others : ∀ c w j, ¬(c = ctx ∧ w = wg ∧ j = k) → t.threadOf c w j = s.threadOf c w j
  shells : ∀ c w, (t.wgOf c w).map Workgroup.shell = (s.wgOf c w).map Workgroup.shell

/-- A thread of a resident workgroup. -/
def Resident (s : State) (ctx wg k : Nat) (w : Workgroup) (u : Thread) : Prop :=
  s.wgOf ctx wg = some w ∧ w.saved = .running ∧ w.thread k = some u

/-- R58, R60: the run's results are committed in program order, the last of them last, and nothing else is written; the clock
value waits no more. -/
structure Committed (u v : Thread) : Prop where
  none : v.results = []
  run : v.runLen = 0
  pc : v.pc = u.pc
  clock : v.clkw = u.clkwNext.getD u.clkw
  size : v.regs.length = u.regs.length
  frame : ∀ p, (∀ r ∈ u.results, p ∉ r.dest) → nth 0 v.regs p = nth 0 u.regs p
  last : ∀ rs r vs i x, u.results = rs ++ [r] → r.value = some vs → r.dest.Nodup → i < r.dest.length → vs[i]? = some (some x) →
    nth 0 r.dest i < u.regs.length → nth 0 v.regs (nth 0 r.dest i) = x

/-- R66: the sleeping thread's wait is over, and its result is `r`. -/
def Woken (u v : Thread) (r : Word) : Prop :=
  v = { u with status := .parked, results := u.results.map (fun x => if x.slot == u.waitSlot then { x with value := some [some r] } else x) }

/-- WAIT_WAKE ends the wait of thread `k` with the word `r`, and changes nothing else. -/
def Wakes (s : State) (ctx wg k : Nat) (u : Thread) (r : Word) : Prop :=
  ∃ t v, exec (.waitWake ctx wg [k]) s = .next t ∧ OnlyThread s t ctx wg k ∧ t.threadOf ctx wg k = some v ∧ Woken u v r

/-- The same where the wake carries an edge of Table 3 (R263): what the core's L1 holds may be read anew, and nothing else
changes. -/
def WakesFresh (s : State) (ctx wg k : Nat) (u : Thread) (r : Word) : Prop :=
  ∃ t v, exec (.waitWake ctx wg [k]) s = .next t ∧ t = { s with wgs := t.wgs, cores := t.cores } ∧
    (∀ c w j, ¬(c = ctx ∧ w = wg ∧ j = k) → t.threadOf c w j = s.threadOf c w j) ∧
    (∀ i, t.coreOf i = { s.coreOf i with l1 := (t.coreOf i).l1 }) ∧ t.threadOf ctx wg k = some v ∧ Woken u v r

/-- The only access numbered `n` in flight is `a`, nothing holds it up (R262), and it reads no block known bad (R366). -/
def Due (s : State) (n : Nat) (a : Access) : Prop :=
  a ∈ s.flight ∧ a.id = n ∧ (∀ b ∈ s.flight, b.id = n → b = a) ∧ s.blocked a = false ∧ s.badRead a = none

/-- No polder page is being moved (R124). -/
def NoMoves (s : State) : Prop := ∀ b ∈ s.flight, ∀ n d h, b.op ≠ .move n d h

/-- A die has tripped off (R359): nothing runs on it, every launch that had a workgroup there has one breach for it and one more for
each reserved lease of its own that ended there (R44). -/
def TrippedOff (s t : State) (d : Nat) : Prop :=
  (t.die d).tripped = true ∧ (t.cluster (2 * d)).gate = .gated ∧ (t.cluster (2 * d + 1)).gate = .gated ∧
  (∀ i, i < 100 → (t.siteOf d i).power = .dark) ∧ t.mem = s.mem ∧ (∀ le ∈ t.leases, le.die ≠ d) ∧
  (∀ w ∈ s.wgs, w.resident = true → coreDie w.core = d → ∀ k v, t.threadOf w.ctx w.wg k = some v → v.status = .exited) ∧
  ∀ ctx l, s.launch ctx = some l → l.debug = false → (∃ w ∈ s.wgs, w.resident = true ∧ coreDie w.core = d ∧ w.ctx = ctx) →
    (t.launch ctx).map Launch.breaches =
      some (l.breaches + 1 + (s.leases.filter (fun le => le.die == d && le.reserved && le.ctx == ctx)).length)

/-- The access has left the flight; no other has. -/
def Landed (s t : State) (n : Nat) : Prop := t.flight = s.flight.filter (fun b => b.id != n)

/-- Bytes of memory from a location on are `bs`, and every other byte is as it was. -/
def Stored (m m' : List Host.Cell) (key : Nat) (bs : List Byte) : Prop :=
  (∀ i, i < bs.length → Cells.get m' (key + i) = nth 0 bs i) ∧ (∀ x, x < key ∨ key + bs.length ≤ x → Cells.get m' x = Cells.get m x)

/-- A formed workgroup but for its context area. -/
def Formed.plain (f : Formed) : Formed := { f with area := none }

/-- The launch `l` became `x`: it formed the workgroup `f`, which took the first free context area where no other waits for one (R347). -/
structure FormedMore (s : State) (l x : Launch) (f : Formed) : Prop where
  rest : x = { l with formed := x.formed, nextCont := l.nextCont + 1 }
  formed : x.formed.map Formed.plain = l.formed.map Formed.plain ++ [f]
  area : ∀ k, (∀ y ∈ l.formed, y.area.isSome = true ∧ y.wg ≠ f.wg) → s.freeArea l = some k → x.formed = l.formed ++ [{ f with area := some k }]

/-- A ring whose head packet has retired in a slot below 63 (R330). -/
structure Retired (s t : State) (k : Nat) (r : Ring) : Prop where
  ring : t.rings[k]? = some { r with ticket := (r.ticket + 1) % 2 ^ 32, waitUntil := none, blocked := false, claimedAt := none }
  others : ∀ j, j ≠ k → t.rings[j]? = s.rings[j]?
  mem : t.mem = (s.writeNat 0 r.block 8 ((s.ringPair r 0 + 2 ^ 32) % 2 ^ 64)).mem

/-- The ring's head packet is of a type, is one to act on, and its slot is not the segment's last (R329, R330). -/
def Heads (s : State) (k type : Nat) (r : Ring) : Prop := s.turn k type = some r ∧ r.ticket % 64 ≠ 63

/-- The same for a packet whose steps lie at addresses that exist, the step index its header's (R331, R333). -/
def StepDue (s : State) (k type step : Nat) (r : Ring) : Prop :=
  Heads s k type r ∧ s.strayAddress (s.stepAddresses r) = none ∧ s.packetStep r = step

/-! What instructions compute, by the tables of the spec: values in exact arithmetic, to be taken modulo 2^32 or 2^64. -/

/-- The position of a bit field in y (R128). -/
def specPos (y : Word) : Nat := y.toNat % 32

/-- The length of a bit field in y, cut at bit 31 (R128). -/
def specLen (y : Word) : Nat := min (y.toNat / 32 % 32 + 1) (32 - y.toNat % 32)

/-- Table 2 of R127, the word operations that write d at issue: x, y and z are the values of a, b and d. -/
def wordTable : List ((Bool → Reg → Reg → Reg → Instr) × (Word → Word → Word → Int)) :=
  [(.add, fun x y _ => x.toNat + y.toNat),
   (.sub, fun x y _ => (x.toNat : Int) - y.toNat),
   (.mul, fun x y _ => x.toNat * y.toNat),
   (.mulh, fun x y _ => x.toInt * y.toInt / 2 ^ 32),
   (.mulhu, fun x y _ => x.toNat * y.toNat / 2 ^ 32),
   (.mad, fun x y z => x.toNat * y.toNat + z.toNat),
   (.and, fun x y _ => (x.toNat &&& y.toNat : Nat)),
   (.or, fun x y _ => (x.toNat ||| y.toNat : Nat)),
   (.xor, fun x y _ => (x.toNat ^^^ y.toNat : Nat)),
   (.andn, fun x y _ => (x.toNat : Int) - (x.toNat &&& y.toNat : Nat)),
   (.shl, fun x y _ => x.toNat * 2 ^ (y.toNat % 32)),
   (.shr, fun x y _ => x.toNat / 2 ^ (y.toNat % 32)),
   (.sra, fun x y _ => x.toInt / 2 ^ (y.toNat % 32)),
   (.rot, fun x y _ => x.toNat * 2 ^ (y.toNat % 32) + x.toNat / 2 ^ (32 - y.toNat % 32)),
   (.min, fun x y _ => min x.toInt y.toInt),
   (.max, fun x y _ => max x.toInt y.toInt),
   (.minu, fun x y _ => min x.toNat y.toNat),
   (.maxu, fun x y _ => max x.toNat y.toNat),
   (.seq, fun x y _ => if x = y then 1 else 0),
   (.sne, fun x y _ => if x = y then 0 else 1),
   (.slt, fun x y _ => if x.toInt < y.toInt then 1 else 0),
   (.sltu, fun x y _ => if x.toNat < y.toNat then 1 else 0),
   (.sle, fun x y _ => if x.toInt ≤ y.toInt then 1 else 0),
   (.sleu, fun x y _ => if x.toNat ≤ y.toNat then 1 else 0),
   (.bfx, fun x y _ => x.toNat / 2 ^ specPos y % 2 ^ specLen y),
   (.bfxs, fun x y _ => sextNat (x.toNat / 2 ^ specPos y) (specLen y)),
   (.bfi, fun x y z => z.toNat % 2 ^ specPos y + x.toNat % 2 ^ specLen y * 2 ^ specPos y
      + z.toNat / 2 ^ (specPos y + specLen y) * 2 ^ (specPos y + specLen y))]

/-- Table 2 of R127, the operations on pairs: X is the pair a; y the word b, Y the pair b. -/
def pairTable : List ((Bool → Reg → Reg → Reg → Instr) × (Nat → Word → Nat → Int)) :=
  [(.add64, fun X _ Y => X + Y),
   (.sub64, fun X _ Y => (X : Int) - Y),
   (.mul64, fun X _ Y => X * Y),
   (.addx, fun X y _ => X + y.toInt),
   (.addx4, fun X y _ => X + y.toInt * 4)]

/-- Table 3 of R129, the word operations: x is the value of a, m the immediate. -/
def immTable : List ((Bool → Reg → Reg → BitVec 7 → Instr) × (Word → BitVec 7 → Int)) :=
  [(.addi, fun x m => x.toNat + m.toInt),
   (.andi, fun x m => (x.toNat &&& m.toNat : Nat)),
   (.ori, fun x m => (x.toNat ||| m.toNat : Nat)),
   (.xori, fun x m => (x.toNat ^^^ m.toNat : Nat)),
   (.shli, fun x m => x.toNat * 2 ^ m.toNat),
   (.shri, fun x m => x.toNat / 2 ^ m.toNat),
   (.srai, fun x m => x.toInt / 2 ^ m.toNat),
   (.slti, fun x m => if x.toInt < m.toInt then 1 else 0),
   (.sltui, fun x m => if (x.toNat : Int) < m.toInt % 2 ^ 32 then 1 else 0),
   (.seqi, fun x m => if (x.toNat : Int) = m.toInt % 2 ^ 32 then 1 else 0),
   (.muli, fun x m => x.toNat * m.toInt)]

/-- Table 4 of R130. -/
def unaryTable : List ((Bool → Reg → Reg → Instr) × (Word → Int)) :=
  [(.clz, fun x => if x = 0 then 32 else 31 - (Nat.log2 x.toNat : Int)),
   (.popc, fun x => ((List.range 32).filter (fun j => x.getLsbD j)).length),
   (.brev, fun x => ((List.range 32).map (fun j => if x.getLsbD (31 - j) then 2 ^ j else 0)).sum),
   (.abs, fun x => |x.toInt|),
   (.sexb, fun x => sextNat x.toNat 8),
   (.sexh, fun x => sextNat x.toNat 16)]

/-- The pair of words of a number. -/
def pairWords (r : Nat) : List Word := [BitVec.ofNat 32 r, BitVec.ofNat 32 (r / 2 ^ 32)]

/-- Table 2 of R132, the word operations of fixed latency, on the numbers that the words stand for, rounded once (R94). -/
def floatTable : List ((Bool → Reg → Reg → Reg → Instr) × (Num → Num → Num → Num)) :=
  [(.fadd, fun x y _ => x.add y),
   (.fsub, fun x y _ => x.add y.neg),
   (.fmul, fun x y _ => x.mul y),
   (.ffma, fun x y z => (x.mul y).add z)]

/-- Table 2 of R132, the comparisons. -/
def floatTests : List ((Bool → Reg → Reg → Reg → Instr) × (Num → Num → Bool)) :=
  [(.fseq, fun x y => x.eq y),
   (.fslt, fun x y => x.lt y),
   (.fsle, fun x y => x.lt y || x.eq y),
   (.fsun, fun x y => x.isNan || y.isNan)]

/-- The rational number that a bit pattern of a non-negative finite number stands for, and that a next one would after the
largest (R77). -/
def magnitude (f : Fmt) (z : Nat) : ℚ :=
  let e := z / 2 ^ (f.prec - 1)
  let frac := z % 2 ^ (f.prec - 1)
  if e = 0 then frac * (2 : ℚ) ^ (f.emin - ((f.prec : Int) - 1))
  else (2 ^ (f.prec - 1) + frac : Nat) * (2 : ℚ) ^ (f.emin - ((f.prec : Int) - 1) + ((e : Int) - 1))

/-- The bit pattern `r` is the rounding of the non-negative real `x` to a format (R71): the nearest number, a tie to the even
pattern, and the infinity from half a unit past the largest number on. -/
def Nearest (f : Fmt) (x : ℝ) (r : Nat) : Prop :=
  r ≤ f.infBits ∧
  (r < f.infBits → ∀ z < f.infBits, |(magnitude f r : ℝ) - x| ≤ |(magnitude f z : ℝ) - x| ∧
    (|(magnitude f r : ℝ) - x| = |(magnitude f z : ℝ) - x| → z ≠ r → r % 2 = 0)) ∧
  (r = f.infBits ↔ ((magnitude f f.infBits + magnitude f (f.infBits - 1)) / 2 : ℝ) ≤ x)

/-- Table 5 of R133 for FDIV: the quotient of the numbers of `x` and `y` rounded once, and its special cases. -/
def Quotient (x y r : Nat) : Prop :=
  (∀ nx mx ex ny my ey, f32.decode x = .fin nx mx ex → f32.decode y = .fin ny my ey →
    (my ≠ 0 → Nearest f32 (mx * (2 : ℝ) ^ ex / (my * (2 : ℝ) ^ ey)) (r % 2 ^ 31) ∧ r / 2 ^ 31 = (if nx = ny then 0 else 1)) ∧
    (my = 0 → mx = 0 → r = 0x7FC00000) ∧
    (my = 0 → mx ≠ 0 → r = 0x7F800000 + (if nx = ny then 0 else 2 ^ 31))) ∧
  ((f32.decode x).isNan = true ∨ (f32.decode y).isNan = true → r = 0x7FC00000) ∧
  (∀ nx ny, f32.decode x = .inf nx → f32.decode y = .inf ny → r = 0x7FC00000) ∧
  (∀ nx ny my ey, f32.decode x = .inf nx → f32.decode y = .fin ny my ey → r = 0x7F800000 + (if nx = ny then 0 else 2 ^ 31)) ∧
  (∀ nx mx ex ny, f32.decode x = .fin nx mx ex → f32.decode y = .inf ny → r = if nx = ny then 0 else 2 ^ 31)

/-- minimumNumber and maximumNumber (R133) on bit patterns of a format: a NaN yields to the other operand, and −0 ranks below
+0. -/
def Extreme (f : Fmt) (max : Bool) (x y r : Nat) : Prop :=
  ((f.decode x).isNan = true → (f.decode y).isNan = true → r = f.nan) ∧
  ((f.decode x).isNan = true → (f.decode y).isNan = false → r = y) ∧
  ((f.decode x).isNan = false → (f.decode y).isNan = true → r = x) ∧
  ((f.decode x).isNan = false → (f.decode y).isNan = false →
    ((f.decode x).lt (f.decode y) = true → r = if max then y else x) ∧
    ((f.decode y).lt (f.decode x) = true → r = if max then x else y) ∧
    ((f.decode x).lt (f.decode y) = false → (f.decode y).lt (f.decode x) = false →
      (r = x ∨ r = y) ∧ ((f.decode x).sign ≠ (f.decode y).sign → (f.decode r).sign = !max)))

/-- The rational number (−1)^neg × m × 2^e. -/
def signed (neg : Bool) (m : Nat) (e : Int) : ℚ := (if neg then -1 else 1) * m * (2 : ℚ) ^ e

/-- R132, R133: `r` is the exact sum of two numbers: ∞ − ∞ is NaN, and a sum of zero is +0 unless both terms are −0. -/
def ExactSum (x y r : Num) : Prop :=
  (x = .nan ∨ y = .nan → r = .nan) ∧
  (∀ a b, x = .inf a → y = .inf b → r = if a = b then .inf a else .nan) ∧
  (∀ a n m e, x = .inf a ∧ y = .fin n m e ∨ x = .fin n m e ∧ y = .inf a → r = .inf a) ∧
  (∀ nx mx ex ny my ey, x = .fin nx mx ex → y = .fin ny my ey → ∃ n m e, r = .fin n m e ∧
    signed n m e = signed nx mx ex + signed ny my ey ∧ (m = 0 → (n = true ↔ mx = 0 ∧ my = 0 ∧ nx = true ∧ ny = true)))

/-- R132, R133: `r` is the exact product of two numbers: 0 × ∞ is NaN, and the sign is the exclusive-or of the signs. -/
def ExactProduct (x y r : Num) : Prop :=
  (x = .nan ∨ y = .nan → r = .nan) ∧
  (∀ a b, x = .inf a → y = .inf b → r = .inf (a != b)) ∧
  (∀ a n m e, x = .inf a ∧ y = .fin n m e ∨ x = .fin n m e ∧ y = .inf a → r = if m = 0 then .nan else .inf (a != n)) ∧
  (∀ nx mx ex ny my ey, x = .fin nx mx ex → y = .fin ny my ey → ∃ m e, r = .fin (nx != ny) m e ∧
    (m : ℚ) * 2 ^ e = mx * 2 ^ ex * (my * 2 ^ ey))

/-- R71, R133: `r` is the FP32 bit pattern of a number, rounded once; a zero keeps its sign. -/
def Rounded (x : Num) (r : Nat) : Prop :=
  (x = .nan → r = 0x7FC00000) ∧ (∀ n, x = .inf n → r = 0x7F800000 + if n then 2 ^ 31 else 0) ∧
  (∀ n m e, x = .fin n m e → ∃ z, r = z + (if n then 2 ^ 31 else 0) ∧ Nearest f32 (m * (2 : ℝ) ^ e) z)

/-- The operations of R134 that return later: the function of Numeric that computes each, and special cases of Table 6. -/
def floatLong : List ((Bool → Reg → Reg → Instr) × (Nat → Nat) × List (Word × Word)) :=
  [(.fsqrt, f32Sqrt, [(0, 0), (0x80000000, 0x80000000), (0xBF800000, 0x7FC00000), (0x7F800000, 0x7F800000), (0xFF800000, 0x7FC00000)]),
   (.frcp, f32Div 0x3F800000, [(0, 0x7F800000), (0x80000000, 0xFF800000), (0x7F800000, 0), (0xFF800000, 0x80000000)]),
   (.frsq, f32Rsq, [(0, 0x7F800000), (0x80000000, 0xFF800000), (0xFF800000, 0x7FC00000), (0x7F800000, 0)]),
   (.fexp2, f32Exp2, [(0xFF800000, 0), (0x7F800000, 0x7F800000)]),
   (.flog2, f32Log2, [(0, 0xFF800000), (0x80000000, 0xFF800000), (0xFF800000, 0x7FC00000), (0x7F800000, 0x7F800000)])]

/-- Table 3 of R135: each half on its own, in BF16 or in FP16, rounded once. -/
def pairedTable : List ((Bool → Reg → Reg → Reg → Instr) × Fmt × (Num → Num → Num → Num)) :=
  [(.hadd2, bf16, fun x y _ => x.add y), (.hmul2, bf16, fun x y _ => x.mul y), (.hfma2, bf16, fun x y z => (x.mul y).add z),
   (.eadd2, fp16, fun x y _ => x.add y), (.emul2, fp16, fun x y _ => x.mul y), (.efma2, fp16, fun x y z => (x.mul y).add z)]

/-- The low and the high half of a word. -/
def lowHalf (x : Word) : Nat := x.toNat % 2 ^ 16
def highHalf (x : Word) : Nat := x.toNat / 2 ^ 16

/-- Table 4 of R136, the conversions of one source, to a number of a format or to an integer; x is the value of a. -/
def convertTable : List ((Bool → Reg → Reg → Instr) × (Word → Int)) :=
  [(.cvtF32Sw, fun x => f32.round (Num.ofInt x.toInt 0 false)),
   (.cvtF32Uw, fun x => f32.round (Num.ofInt x.toNat 0 false)),
   (.cvtSwF32, fun x => toIntSat truncInt (-2 ^ 31) (2 ^ 31 - 1) (f32.decode x.toNat)),
   (.cvtSwF32Rn, fun x => toIntSat nearestInt (-2 ^ 31) (2 ^ 31 - 1) (f32.decode x.toNat)),
   (.cvtUwF32, fun x => toIntSat truncInt 0 (2 ^ 32 - 1) (f32.decode x.toNat)),
   (.cvtF32Bf16, fun x => f32.round (bf16.decode (lowHalf x))),
   (.cvtF32Fp16, fun x => f32.round (fp16.decode (lowHalf x))),
   (.cvtLc8F32, fun x => (lc8Encode (f32.decode x.toNat)).1),
   (.cvtF32Lc8, fun x => lc8ToF32 (x.toNat % 2 ^ 8)),
   (.cvtI8F32, fun x => toIntSat nearestInt (-128) 127 (f32.decode x.toNat))]

/-- The loads of R149 in their immediate and indexed forms: bytes, words, sign extension and path. -/
def loadTable : List ((Bool → Reg → Reg → BitVec 7 → Instr) × (Bool → Reg → Reg → Reg → Instr) × Nat × Nat × Bool × Path) :=
  [(.ldb, .ldbx, 1, 1, false, .ord), (.ldbs, .ldbsx, 1, 1, true, .ord), (.ldh, .ldhx, 2, 1, false, .ord),
   (.ldhs, .ldhsx, 2, 1, true, .ord), (.ldw, .ldwx, 4, 1, false, .ord), (.ldd, .lddx, 8, 2, false, .ord),
   (.ldc, .ldcx, 4, 1, false, .con), (.ldcd, .ldcdx, 8, 2, false, .con)]

/-- The stores of R149 in their immediate and indexed forms: bytes. -/
def storeTable : List ((Bool → Reg → Reg → BitVec 7 → Instr) × (Bool → Reg → Reg → Reg → Instr) × Nat) :=
  [(.stb, .stbx, 1), (.sth, .sthx, 2), (.stw, .stwx, 4), (.std, .stdx, 8)]

/-- A load of R149 in one of its forms, its address, its bytes, and whether it takes the constant path. -/
def LoadForm (i : Instr) (addr : Thread → Nat) (n : Nat) (constant : Bool) : Prop :=
  (∃ p ∈ loadTable, n = p.2.2.1 ∧ constant = decide (p.2.2.2.2.2 = .con) ∧
    ((∃ sw d a m, i = p.1 sw d a m ∧ addr = fun u => addrImm u a m n) ∨ (∃ sw d a b, i = p.2.1 sw d a b ∧ addr = fun u => addrIdx u a b))) ∨
  (n = 16 ∧ constant = false ∧ ∃ d, QuadLoad i d addr)

/-- A store of R149 in one of its forms, its address and its bytes. -/
def StoreForm (i : Instr) (addr : Thread → Nat) (n : Nat) : Prop :=
  (∃ p ∈ storeTable, n = p.2.2 ∧
    ((∃ sw d a m, i = p.1 sw d a m ∧ addr = fun u => addrImm u a m n) ∨ (∃ sw d a b, i = p.2.1 sw d a b ∧ addr = fun u => addrIdx u a b))) ∨
  (n = 16 ∧ ∃ d, QuadStore i d addr)

/-- A load of R149 in one of its forms: its address, its bytes, its path, the accesses that leave for a member (R151) and the results that it
owes. -/
def LoadSends (i : Instr) (addr : Thread → Nat) (n : Nat) (path : Path) (accs : State → Group → Thread → List Access)
    (res : Thread → List Result) : Prop :=
  (∃ p ∈ loadTable, n = p.2.2.1 ∧ path = p.2.2.2.2.2 ∧ ∃ d : Reg,
    ((∃ sw a m, i = p.1 sw d a m ∧ addr = fun u => addrImm u a m n) ∨ (∃ sw a b, i = p.2.1 sw d a b ∧ addr = fun u => addrIdx u a b)) ∧
    accs = (fun s g u => [sentAccess s g path (.load p.2.2.2.2.1 p.2.2.2.1) (addr u) n 0 (some u.nextSlot) s.nextId u]) ∧
    res = fun u => [owing u 0 d.toNat p.2.2.2.1]) ∨
  (n = 16 ∧ path = .ord ∧ ∃ d, QuadLoad i d addr ∧
    accs = (fun s g u => [sentAccess s g .ord (.load false 2) (addr u) 8 0 (some u.nextSlot) s.nextId u,
      sentAccess s g .ord (.load false 2) (addr u + 8) 8 0 (some (u.nextSlot + 1)) (s.nextId + 1) u]) ∧
    res = fun u => [owing u 0 d.toNat 2, owing u 1 (d.toNat + 2) 2])

/-- A store of R149 in one of its forms: its address, its bytes and its data. -/
def StoreSends (i : Instr) (addr : Thread → Nat) (n : Nat) (data : Thread → Nat) : Prop :=
  (∃ p ∈ storeTable, n = p.2.2 ∧ ∃ d : Reg,
    ((∃ sw a m, i = p.1 sw d a m ∧ addr = fun u => addrImm u a m n) ∨ (∃ sw a b, i = p.2.1 sw d a b ∧ addr = fun u => addrIdx u a b)) ∧
    data = fun u => if n = 8 then u.readPair d.toNat else (u.readW d.toNat).toNat) ∨
  (n = 16 ∧ ∃ d, QuadStore i d addr ∧ data = fun u => u.readPair d.toNat + u.readPair (d.toNat + 2) * 2 ^ 64)

/-- The returning atomics of R168: operation, bytes, and whether PCIe carries it (R172). -/
def atomicTable : List ((Bool → BitVec 3 → Reg → BitVec 6 → Bool → Reg → Instr) × AmoOp × Nat × Bool) :=
  [(.amoAdd, .add, 4, true), (.amoAnd, .and, 4, false), (.amoOr, .or, 4, false), (.amoXor, .xor, 4, false), (.amoMin, .min, 4, false),
   (.amoMax, .max, 4, false), (.amoXchg, .xchg, 4, true), (.amoFadd, .fadd, 4, false), (.amoMinu, .minu, 4, false),
   (.amoMaxu, .maxu, 4, false), (.amoAdd64, .add64, 8, true), (.casW, .casW, 4, true), (.casD, .casD, 8, true), (.gts, .gts, 8, false),
   (.vcas, .vcas, 8, false), (.tcas, .tcas, 8, false)]

/-- The no-return reductions of R173. -/
def reductionTable : List ((Bool → BitVec 3 → Bool → BitVec 6 → Reg → Instr) × AmoOp) :=
  [(.redAdd, .add), (.redAnd, .and), (.redOr, .or), (.redXor, .xor), (.redMin, .min), (.redMax, .max), (.redMinu, .minu),
   (.redMaxu, .maxu), (.redFadd, .fadd), (.redHadd2, .hadd2), (.redFmin, .fmin), (.redFmax, .fmax)]

end Sys2Proof.Machine
end

