-- ==== Sys2Proof/Certificates/Slice0/Obligations.lean ====
section
/-! DEFINITION. The statements for the provers. -/

open Sys2Proof Sys2Proof.Machine

/-- R127, R128, R95: every instruction of group 0x0 completes with the result of Table 2 in every member, a division by 0 without a trap; a
conditional move whose condition fails writes nothing; nothing but the destination, the PC and the run changes. -/
def Obligations.IntegerOperations : Prop :=
  (∀ p ∈ wordTable, ∀ (sw : Bool) (d a b : Reg) (s : State) (g : Group), issuable (p.1 sw d a b) s g = true →
    Performs (p.1 sw d a b) s g (fun u v =>
      ∃ r : Word, (r.toNat : Int) = p.2 (u.readW a.toNat) (u.readW b.toNat) (u.readW d.toNat) % 2 ^ 32 ∧
        Wrote (p.1 sw d a b) (g.pc + 4) d.toNat [r] u v)) ∧
  (∀ p ∈ ([(.cmovz, fun y => y = 0), (.cmovn, fun y => y ≠ 0)] : List ((Bool → Reg → Reg → Reg → Instr) × (Word → Prop))),
    ∀ (sw : Bool) (d a b : Reg) (s : State) (g : Group), issuable (p.1 sw d a b) s g = true →
    Performs (p.1 sw d a b) s g (fun u v =>
      (p.2 (u.readW b.toNat) → Wrote (p.1 sw d a b) (g.pc + 4) d.toNat [u.readW a.toNat] u v) ∧
      (¬ p.2 (u.readW b.toNat) → Wrote (p.1 sw d a b) (g.pc + 4) d.toNat [] u v))) ∧
  (∀ p ∈ pairTable, ∀ (sw : Bool) (d a b : Reg) (s : State) (g : Group), issuable (p.1 sw d a b) s g = true →
    Performs (p.1 sw d a b) s g (fun u v =>
      ∃ r : Nat, (r : Int) = p.2 (u.readPair a.toNat) (u.readW b.toNat) (u.readPair b.toNat) % 2 ^ 64 ∧
        Wrote (p.1 sw d a b) (g.pc + 4) d.toNat (pairWords r) u v)) ∧
  (∀ (sw : Bool) (d a b : Reg) (s : State) (g : Group), issuable (.divu sw d a b) s g = true →
    Performs (.divu sw d a b) s g (fun u v =>
      ∃ r : Word, r.toNat = (if u.readW b.toNat = 0 then 0xFFFFFFFF else (u.readW a.toNat).toNat / (u.readW b.toNat).toNat) ∧
        Owes (.divu sw d a b) (g.pc + 4) d.toNat [r] u v)) ∧
  (∀ (sw : Bool) (d a b : Reg) (s : State) (g : Group), issuable (.remu sw d a b) s g = true →
    Performs (.remu sw d a b) s g (fun u v =>
      ∃ r : Word, r.toNat = (u.readW a.toNat).toNat % (u.readW b.toNat).toNat ∧
        Owes (.remu sw d a b) (g.pc + 4) d.toNat [r] u v))

/-- R129, R131, R56: the immediate forms of group 0x1 complete with the result of Table 3; MOVI and MOVW write their
constants, MOVW moving past its literal word; NOP writes nothing.
R129, R49: a shift immediate from 32 to 127 raises ILLEGAL.
R130: the unary integer instructions complete with the result of Table 4. -/
def Obligations.ImmediateAndUnaryOperations : Prop :=
  (∀ p ∈ immTable, ∀ (sw : Bool) (d a : Reg) (m : BitVec 7) (s : State) (g : Group), issuable (p.1 sw d a m) s g = true →
    Performs (p.1 sw d a m) s g (fun u v =>
      ∃ r : Word, (r.toNat : Int) = p.2 (u.readW a.toNat) m % 2 ^ 32 ∧ Wrote (p.1 sw d a m) (g.pc + 4) d.toNat [r] u v)) ∧
  (∀ (sw : Bool) (d a : Reg) (m : BitVec 7) (s : State) (g : Group), issuable (.add64i sw d a m) s g = true →
    Performs (.add64i sw d a m) s g (fun u v =>
      ∃ r : Nat, (r : Int) = ((u.readPair a.toNat : Nat) + m.toInt) % 2 ^ 64 ∧
        Wrote (.add64i sw d a m) (g.pc + 4) d.toNat (pairWords r) u v)) ∧
  (∀ (sw : Bool) (d : Reg) (m : BitVec 14) (s : State) (g : Group), issuable (.movi sw d m) s g = true →
    Performs (.movi sw d m) s g (fun u v => ∃ r : Word, r.toInt = m.toInt ∧ Wrote (.movi sw d m) (g.pc + 4) d.toNat [r] u v)) ∧
  (∀ (sw : Bool) (d : Reg) (lit : Word) (s : State) (g : Group), issuable (.movw sw d lit) s g = true →
    Performs (.movw sw d lit) s g (fun u v => Wrote (.movw sw d lit) (g.pc + 8) d.toNat [lit] u v)) ∧
  (∀ (sw : Bool) (s : State) (g : Group), issuable (.nop sw) s g = true →
    Performs (.nop sw) s g (fun u v => Wrote (.nop sw) (g.pc + 4) 0 [] u v)) ∧
  (∀ p ∈ ([.shli, .shri, .srai] : List (Bool → Reg → Reg → BitVec 7 → Instr)), ∀ (sw : Bool) (d a : Reg) (m : BitVec 7) (s : State)
    (g : Group) (k : Nat) (ks : List Nat) (u : Thread), s.group = some g → g.tids = k :: ks → s.threadOf g.ctx g.wg k = some u →
    32 ≤ m.toNat → Traps (p sw d a m) s g .illegal 0 k) ∧
  (∀ p ∈ unaryTable, ∀ (sw : Bool) (d a : Reg) (s : State) (g : Group), issuable (p.1 sw d a) s g = true →
    Performs (p.1 sw d a) s g (fun u v =>
      ∃ r : Word, (r.toNat : Int) = p.2 (u.readW a.toNat) % 2 ^ 32 ∧ Wrote (p.1 sw d a) (g.pc + 4) d.toNat [r] u v))

/-- R71: rounding is to the nearest number of the format, ties to the even bit pattern; half a unit past the largest number
the result is the infinity: of mant × 2^exp itself, and, where sticky, of any number between it and (mant + 1) × 2^exp once mant has
more bits than the format's significand. R133, R134: the quotient of two FP32 numbers, the square root of one and its reciprocal are so
rounded. -/
def Obligations.RoundsToNearest : Prop :=
  (∀ f ∈ [f32, bf16, fp16], ∀ (mant : Nat) (exp : Int),
    Nearest f (mant * (2 : ℝ) ^ exp) (f.roundMag mant exp false) ∧
    (∀ x : ℝ, 2 ^ f.prec ≤ mant → mant * (2 : ℝ) ^ exp < x → x < (mant + 1) * (2 : ℝ) ^ exp →
      Nearest f x (f.roundMag mant exp true))) ∧
  (∀ x y : Word, Quotient x.toNat y.toNat (f32Div x.toNat y.toNat)) ∧
  (∀ (x : Word) (m : Nat) (e : Int), f32.decode x.toNat = .fin false m e → m ≠ 0 →
    Nearest f32 (Real.sqrt (m * (2 : ℝ) ^ e)) (f32Sqrt x.toNat) ∧ Nearest f32 (1 / Real.sqrt (m * (2 : ℝ) ^ e)) (f32Rsq x.toNat)) ∧
  (∀ (x : Word) (m : Nat) (e : Int), f32.decode x.toNat = .fin true m e → m ≠ 0 →
    f32Sqrt x.toNat = 0x7FC00000 ∧ f32Rsq x.toNat = 0x7FC00000)

/-- R132, R133: the FP32 instructions of two operands complete with the result of Table 5, rounded once.
R133, R71: sums and products are exact before they are rounded once, with the invalid results and the signs of zero that R133 gives.
R134: FABS and FNEG act on bit 31 alone, at issue; FSQRT, FRCP, FRSQ, FEXP2 and FLOG2 return later with the special
cases of Table 6, FDIV and FRCP with a correctly rounded quotient, FSQRT and FRSQ with a correctly rounded root; FEXP2 gives 2^x exactly
for every integer x from −149 to 127 and +∞ from 128 on, FLOG2 gives n exactly for every 2^n and NaN for every negative number.
Rests on the model's own choice of log 16. -/
def Obligations.FloatOperations : Prop :=
  (∀ x y : Machine.Num, ExactSum x y (x.add y) ∧ ExactSum x y.neg (x.add y.neg) ∧ ExactProduct x y (x.mul y) ∧ Rounded x (f32.round x)) ∧
  (∀ (n : Bool) (m : Nat) (e : Int), (Machine.Num.fin n m e).neg = .fin (!n) m e ∧ (Machine.Num.inf n).neg = .inf (!n) ∧
    Machine.Num.nan.neg = .nan) ∧
  (∀ p ∈ floatTable, ∀ (sw : Bool) (d a b : Reg) (s : State) (g : Group), issuable (p.1 sw d a b) s g = true →
    Performs (p.1 sw d a b) s g (fun u v =>
      Wrote (p.1 sw d a b) (g.pc + 4) d.toNat [BitVec.ofNat 32 (f32.round (p.2 (f32.decode (u.readW a.toNat).toNat)
        (f32.decode (u.readW b.toNat).toNat) (f32.decode (u.readW d.toNat).toNat)))] u v)) ∧
  (∀ p ∈ floatTests, ∀ (sw : Bool) (d a b : Reg) (s : State) (g : Group), issuable (p.1 sw d a b) s g = true →
    Performs (p.1 sw d a b) s g (fun u v =>
      Wrote (p.1 sw d a b) (g.pc + 4) d.toNat
        [if p.2 (f32.decode (u.readW a.toNat).toNat) (f32.decode (u.readW b.toNat).toNat) then 1 else 0] u v)) ∧
  (∀ p ∈ ([(.fmin, false), (.fmax, true)] : List ((Bool → Reg → Reg → Reg → Instr) × Bool)),
    ∀ (sw : Bool) (d a b : Reg) (s : State) (g : Group), issuable (p.1 sw d a b) s g = true →
    Performs (p.1 sw d a b) s g (fun u v =>
      ∃ r : Word, Extreme f32 p.2 (u.readW a.toNat).toNat (u.readW b.toNat).toNat r.toNat ∧
        Wrote (p.1 sw d a b) (g.pc + 4) d.toNat [r] u v)) ∧
  (∀ (sw : Bool) (d a b : Reg) (s : State) (g : Group), issuable (.fcpys sw d a b) s g = true →
    Performs (.fcpys sw d a b) s g (fun u v =>
      ∃ r : Word, r.toNat = (u.readW a.toNat).toNat % 2 ^ 31 + (u.readW b.toNat).toNat / 2 ^ 31 * 2 ^ 31 ∧
        Wrote (.fcpys sw d a b) (g.pc + 4) d.toNat [r] u v)) ∧
  (∀ (sw : Bool) (d a b : Reg) (s : State) (g : Group), issuable (.fdiv sw d a b) s g = true →
    Performs (.fdiv sw d a b) s g (fun u v => ∃ r : Word, Quotient (u.readW a.toNat).toNat (u.readW b.toNat).toNat r.toNat ∧
      Owes (.fdiv sw d a b) (g.pc + 4) d.toNat [r] u v)) ∧
  (∀ (sw : Bool) (d a : Reg) (s : State) (g : Group), issuable (.fabs sw d a) s g = true →
    Performs (.fabs sw d a) s g (fun u v => ∃ r : Word, r.toNat = (u.readW a.toNat).toNat % 2 ^ 31 ∧
      Wrote (.fabs sw d a) (g.pc + 4) d.toNat [r] u v)) ∧
  (∀ (sw : Bool) (d a : Reg) (s : State) (g : Group), issuable (.fneg sw d a) s g = true →
    Performs (.fneg sw d a) s g (fun u v => ∃ r : Word, r.toNat = ((u.readW a.toNat).toNat + 2 ^ 31) % 2 ^ 32 ∧
      Wrote (.fneg sw d a) (g.pc + 4) d.toNat [r] u v)) ∧
  (∀ p ∈ floatLong, ∀ (sw : Bool) (d a : Reg) (s : State) (g : Group), issuable (p.1 sw d a) s g = true →
    Performs (p.1 sw d a) s g (fun u v => ∃ r : Word, r = BitVec.ofNat 32 (p.2.1 (u.readW a.toNat).toNat) ∧
      (∀ q ∈ p.2.2, u.readW a.toNat = q.1 → r = q.2) ∧
      ((f32.decode (u.readW a.toNat).toNat).isNan = true → r = 0x7FC00000) ∧
      Owes (p.1 sw d a) (g.pc + 4) d.toNat [r] u v)) ∧
  (∀ (sw : Bool) (d a : Reg) (s : State) (g : Group), issuable (.frcp sw d a) s g = true →
    Performs (.frcp sw d a) s g (fun u v => ∃ r : Word, Quotient 0x3F800000 (u.readW a.toNat).toNat r.toNat ∧
      Owes (.frcp sw d a) (g.pc + 4) d.toNat [r] u v)) ∧
  (∀ p ∈ ([(.fsqrt, fun x => Real.sqrt x), (.frsq, fun x => 1 / Real.sqrt x)] : List ((Bool → Reg → Reg → Instr) × (ℝ → ℝ))),
    ∀ (sw : Bool) (d a : Reg) (s : State) (g : Group), issuable (p.1 sw d a) s g = true →
    Performs (p.1 sw d a) s g (fun u v => ∃ r : Word,
      (∀ m e, f32.decode (u.readW a.toNat).toNat = .fin false m e → m ≠ 0 → Nearest f32 (p.2 (m * (2 : ℝ) ^ e)) r.toNat) ∧
      (∀ m e, f32.decode (u.readW a.toNat).toNat = .fin true m e → m ≠ 0 → r = 0x7FC00000) ∧
      Owes (p.1 sw d a) (g.pc + 4) d.toNat [r] u v)) ∧
  (∀ (sw : Bool) (d a : Reg) (s : State) (g : Group), issuable (.fexp2 sw d a) s g = true →
    Performs (.fexp2 sw d a) s g (fun u v => ∃ r : Word,
      (∀ m e, f32.decode (u.readW a.toNat).toNat = .fin false m e → 128 ≤ (m : ℚ) * 2 ^ e → r = 0x7F800000) ∧
      (∀ n m e (k : Int), f32.decode (u.readW a.toNat).toNat = .fin n m e → -149 ≤ k → k ≤ 127 → signed n m e = (k : ℚ) →
        r.toNat < 0x7F800000 ∧ magnitude f32 r.toNat = (2 : ℚ) ^ k) ∧
      Owes (.fexp2 sw d a) (g.pc + 4) d.toNat [r] u v)) ∧
  (∀ (sw : Bool) (d a : Reg) (s : State) (g : Group), issuable (.flog2 sw d a) s g = true →
    Performs (.flog2 sw d a) s g (fun u v => ∃ r : Word,
      (∀ m e, f32.decode (u.readW a.toNat).toNat = .fin true m e → m ≠ 0 → r = 0x7FC00000) ∧
      (∀ m e (k : Int), f32.decode (u.readW a.toNat).toNat = .fin false m e → (m : ℚ) * 2 ^ e = (2 : ℚ) ^ k →
        ∃ n m' e', f32.decode r.toNat = .fin n m' e' ∧ signed n m' e' = (k : ℚ)) ∧
      Owes (.flog2 sw d a) (g.pc + 4) d.toNat [r] u v))

/-- R135: the paired instructions complete, each half on its own.
R136, R86, R98: the conversions complete with the result of Table 7. -/
def Obligations.PairedOperations : Prop :=
  (∀ p ∈ pairedTable, ∀ (sw : Bool) (d a b : Reg) (s : State) (g : Group), issuable (p.1 sw d a b) s g = true →
    Performs (p.1 sw d a b) s g (fun u v => ∃ r : Word,
      (∀ h ∈ [lowHalf, highHalf], h r = p.2.1.round (p.2.2 (p.2.1.decode (h (u.readW a.toNat))) (p.2.1.decode (h (u.readW b.toNat)))
        (p.2.1.decode (h (u.readW d.toNat))))) ∧
      Wrote (p.1 sw d a b) (g.pc + 4) d.toNat [r] u v)) ∧
  (∀ p ∈ ([(.hmax2, bf16), (.emax2, fp16)] : List ((Bool → Reg → Reg → Reg → Instr) × Fmt)),
    ∀ (sw : Bool) (d a b : Reg) (s : State) (g : Group), issuable (p.1 sw d a b) s g = true →
    Performs (p.1 sw d a b) s g (fun u v => ∃ r : Word,
      (∀ h ∈ [lowHalf, highHalf], Extreme p.2 true (h (u.readW a.toNat)) (h (u.readW b.toNat)) (h r)) ∧
      Wrote (p.1 sw d a b) (g.pc + 4) d.toNat [r] u v)) ∧
  (∀ p ∈ convertTable, ∀ (sw : Bool) (d a : Reg) (s : State) (g : Group), issuable (p.1 sw d a) s g = true →
    Performs (p.1 sw d a) s g (fun u v =>
      ∃ r : Word, (r.toNat : Int) = p.2 (u.readW a.toNat) % 2 ^ 32 ∧ Wrote (p.1 sw d a) (g.pc + 4) d.toNat [r] u v)) ∧
  (∀ p ∈ ([(.cvtBf16F32, bf16), (.cvtFp16F32, fp16)] : List ((Bool → Reg → Reg → Reg → Instr) × Fmt)),
    ∀ (sw : Bool) (d a b : Reg) (s : State) (g : Group), issuable (p.1 sw d a b) s g = true →
    Performs (p.1 sw d a b) s g (fun u v => ∃ r : Word,
      lowHalf r = p.2.round (f32.decode (u.readW a.toNat).toNat) ∧ highHalf r = p.2.round (f32.decode (u.readW b.toNat).toNat) ∧
      Wrote (p.1 sw d a b) (g.pc + 4) d.toNat [r] u v)) ∧
  (∀ (sw : Bool) (d a b : Reg) (s : State) (g : Group), issuable (.cvtBf16F32Sr sw d a b) s g = true →
    Performs (.cvtBf16F32Sr sw d a b) s g (fun u v => ∃ r : Word,
      ((∃ n m e, f32.decode (u.readW a.toNat).toNat = .fin n m e) →
        r.toNat = ((u.readW a.toNat).toNat + lowHalf (u.readW b.toNat)) / 2 ^ 16) ∧
      ((f32.decode (u.readW a.toNat).toNat).isNan = true → r = 0x7FC0) ∧
      ((∃ n, f32.decode (u.readW a.toNat).toNat = .inf n) → r.toNat = highHalf (u.readW a.toNat)) ∧
      Wrote (.cvtBf16F32Sr sw d a b) (g.pc + 4) d.toNat [r] u v))

/-- R76: the LC8 encoding of a number: zero of either sign gives 0x00, NaN 0x80, an infinity 127 with its sign, saturated; any other
number the code n + 64 with its sign, n the integer nearest to 4 × log2 |x|, where a code above 127 becomes 127 and one below 1 gives
0x00, both saturated. The ratio |x| / 2^(n/4) lies within 2^(1/8) of 1, said of eighth powers. R82: an LG6 element under a scale: zero
gives 0x00 and void 0x80 whatever the scale, any other code L + 48 + 4s with its sign, cut in the same way. -/
def Obligations.NumberFormats : Prop :=
  lc8Encode .nan = (0x80, false) ∧ (∀ neg e, lc8Encode (.fin neg 0 e) = (0, false)) ∧
  (∀ neg, lc8Encode (.inf neg) = (127 + (if neg then 128 else 0), true)) ∧
  (∀ (neg : Bool) (m : Nat) (e : Int), 0 < m → ∃ n : Int,
    (2 : ℚ) ^ (2 * n - 1) ≤ ((m : ℚ) * 2 ^ e) ^ 8 ∧ ((m : ℚ) * 2 ^ e) ^ 8 ≤ (2 : ℚ) ^ (2 * n + 1) ∧
    (127 < n + 64 → lc8Encode (.fin neg m e) = (127 + (if neg then 128 else 0), true)) ∧
    (n + 64 < 1 → lc8Encode (.fin neg m e) = (0, true)) ∧
    (1 ≤ n + 64 → n + 64 ≤ 127 → lc8Encode (.fin neg m e) = ((n + 64).toNat + (if neg then 128 else 0), false))) ∧
  (∀ s : Int, lg6ToLc8 0 s = (0, false) ∧ lg6ToLc8 0x20 s = (0x80, false)) ∧
  (∀ (neg : Bool) (l : Nat) (s : Int), 1 ≤ l → l ≤ 31 →
    (127 < l + 48 + 4 * s → lg6ToLc8 (l + (if neg then 32 else 0)) s = (127 + (if neg then 128 else 0), true)) ∧
    (l + 48 + 4 * s < 1 → lg6ToLc8 (l + (if neg then 32 else 0)) s = (0, true)) ∧
    (1 ≤ l + 48 + 4 * s → l + 48 + 4 * s ≤ 127 →
      lg6ToLc8 (l + (if neg then 32 else 0)) s = ((l + 48 + 4 * s).toNat + (if neg then 128 else 0), false)))

/-- R142: BR, BEZ and BNZ go to PC + offset × 4 or to PC + 4, and change nothing else.
R143: where their checks pass in every member, CALL and CALLR write PC + 4 to w7 and go to their target, JR goes without
writing, and RET goes to w7; nothing else changes.
R143: a call whose target is no multiple of 4 raises ALIGN, one whose target has no header before it ILLEGAL, and one
whose frame pointer lies beyond the frame limit BOUND, each with the target as operand, named by the first member that fails; a return
raises ALIGN or, without a call before its target, ILLEGAL, likewise. -/
def Obligations.BranchesAndCalls : Prop :=
  (∀ (sw : Bool) (m : BitVec 21) (s : State) (g : Group), issuable (.br sw m) s g = true →
    Performs (.br sw m) s g (fun u v => ∃ pc : Nat, (pc : Int) = (g.pc + m.toInt * 4) % 2 ^ 32 ∧ Went (.br sw m) pc u u v)) ∧
  (∀ p ∈ ([(.bez, fun x => x = 0), (.bnz, fun x => x ≠ 0)] : List ((Bool → Reg → BitVec 14 → Instr) × (Word → Prop))),
    ∀ (sw : Bool) (d : Reg) (m : BitVec 14) (s : State) (g : Group), issuable (p.1 sw d m) s g = true →
    Performs (p.1 sw d m) s g (fun u v => ∃ pc : Nat,
      (p.2 (u.readW d.toNat) → (pc : Int) = (g.pc + m.toInt * 4) % 2 ^ 32) ∧ (¬ p.2 (u.readW d.toNat) → pc = g.pc + 4) ∧
      Went (p.1 sw d m) pc u u v)) ∧
  (∀ (sw : Bool) (m : BitVec 21) (s : State) (g : Group) (l : Launch) (pc : Nat), s.launch g.ctx = some l →
    issuable (.call sw m) s g = true → (pc : Int) = (g.pc + m.toInt * 4) % 2 ^ 32 → Members s g (fun u => CallAllowed s g.core l u pc) →
    Performs (.call sw m) s g (fun u v => Went (.call sw m) pc (u.writeW 7 (BitVec.ofNat 32 (g.pc + 4))) u v)) ∧
  (∀ (sw : Bool) (a : Reg) (s : State) (g : Group) (l : Launch), s.launch g.ctx = some l → issuable (.callr sw a) s g = true →
    Members s g (fun u => CallAllowed s g.core l u (u.readW a.toNat).toNat) →
    Performs (.callr sw a) s g (fun u v =>
      Went (.callr sw a) (u.readW a.toNat).toNat (u.writeW 7 (BitVec.ofNat 32 (g.pc + 4))) u v)) ∧
  (∀ (sw : Bool) (a : Reg) (s : State) (g : Group) (l : Launch), s.launch g.ctx = some l → issuable (.jr sw a) s g = true →
    Members s g (fun u => CallAllowed s g.core l u (u.readW a.toNat).toNat) →
    Performs (.jr sw a) s g (fun u v => Went (.jr sw a) (u.readW a.toNat).toNat u u v)) ∧
  (∀ (sw : Bool) (s : State) (g : Group) (l : Launch), s.launch g.ctx = some l → issuable (.ret sw) s g = true →
    Members s g (fun u => ReturnAllowed s g.core l (u.readW 7).toNat) →
    Performs (.ret sw) s g (fun u v => Went (.ret sw) (u.readW 7).toNat u u v)) ∧
  (∀ (sw : Bool) (a : Reg) (i : Instr) (s : State) (g : Group) (l : Launch) (k : Nat) (ks : List Nat) (u : Thread) (target : Nat),
    (i = .callr sw a ∨ i = .jr sw a) ∧ target = (u.readW a.toNat).toNat ∨
      (∃ m : BitVec 21, i = .call sw m ∧ (target : Int) = (g.pc + m.toInt * 4) % 2 ^ 32) →
    s.launch g.ctx = some l → issuable i s g = true → g.tids = k :: ks → s.threadOf g.ctx g.wg k = some u →
    (target % 4 ≠ 0 → Traps i s g .align target k) ∧
    (target % 4 = 0 → target < 4 ∨ s.codeWord (coreDie g.core) l (target - 4) = none → Traps i s g .illegal target k) ∧
    (∀ w, target % 4 = 0 → 4 ≤ target → s.codeWord (coreDie g.core) l (target - 4) = some w →
      (w / 2 ^ 27 % 32 ≠ 15 ∨ w / 2 ^ 14 % 2 ^ 13 = 0 → Traps i s g .illegal target k) ∧
      (w / 2 ^ 27 % 32 = 15 → w / 2 ^ 14 % 2 ^ 13 ≠ 0 →
        w % 2 ^ 14 * 16 < (u.readPair 0 + 2 ^ 64 - Config.privateBase) % 2 ^ 64 → Traps i s g .bound target k))) ∧
  (∀ (sw : Bool) (s : State) (g : Group) (l : Launch) (k : Nat) (ks : List Nat) (u : Thread) (target : Nat),
    s.launch g.ctx = some l → issuable (.ret sw) s g = true → g.tids = k :: ks → s.threadOf g.ctx g.wg k = some u →
    target = (u.readW 7).toNat →
    (target % 4 ≠ 0 → Traps (.ret sw) s g .align target k) ∧
    (target % 4 = 0 → target < 4 ∨ s.codeWord (coreDie g.core) l (target - 4) = none → Traps (.ret sw) s g .illegal target k) ∧
    (∀ w, target % 4 = 0 → 4 ≤ target → s.codeWord (coreDie g.core) l (target - 4) = some w →
      w / 2 ^ 21 % 2 ^ 10 ≠ 4 * 2 ^ 6 + 1 → w / 2 ^ 21 % 2 ^ 10 ≠ 4 * 2 ^ 6 + 4 → Traps (.ret sw) s g .illegal target k))

/-- R144: LOOPH writes its count and goes on; LOOPE owes the count less 1 and goes back while it is not 0; each raises BOUND
with the count as operand outside its limits. -/
def Obligations.Loops : Prop :=
  (∀ (sw : Bool) (d : Reg) (m : BitVec 14) (s : State) (g : Group), issuable (.looph sw d m) s g = true →
    (Members s g (fun u => u.readW d.toNat ≠ 0 ∧ (u.readW d.toNat).toNat ≤ m.toNat) →
      Performs (.looph sw d m) s g (fun u v => Wrote (.looph sw d m) (g.pc + 4) d.toNat [u.readW d.toNat] u v)) ∧
    (∀ k ks u, g.tids = k :: ks → s.threadOf g.ctx g.wg k = some u → (u.readW d.toNat = 0 ∨ m.toNat < (u.readW d.toNat).toNat) →
      Traps (.looph sw d m) s g .bound (u.readW d.toNat).toNat k)) ∧
  (∀ (sw : Bool) (d : Reg) (m : BitVec 14) (s : State) (g : Group), issuable (.loope sw d m) s g = true →
    (Members s g (fun u => u.readW d.toNat ≠ 0) →
      Performs (.loope sw d m) s g (fun u v => ∃ pc : Nat,
        (u.readW d.toNat ≠ 1 → (pc : Int) = ((g.pc : Int) - m.toNat * 4) % 2 ^ 32) ∧ (u.readW d.toNat = 1 → pc = g.pc + 4) ∧
        Owes (.loope sw d m) pc d.toNat [u.readW d.toNat - 1] u v)) ∧
    (∀ k ks u, g.tids = k :: ks → s.threadOf g.ctx g.wg k = some u → u.readW d.toNat = 0 →
      Traps (.loope sw d m) s g .bound 0 k))

/-- R62, R146, R147: WBASE and WBADJ set the window base of the next run, and raise WINDOW with the requested base as operand
where it lies outside 0 to allocation − 8; EXIT marks the thread to end at its park. -/
def Obligations.WindowsAndExit : Prop :=
  (∀ p ∈ ([(.wbase, fun _ m => (m.toNat : Int)), (.wbadj, fun u m => (u.base : Int) + m.toInt)] :
      List ((Bool → BitVec 14 → Instr) × (Thread → BitVec 14 → Int))),
    ∀ (sw : Bool) (m : BitVec 14) (s : State) (g : Group), issuable (p.1 sw m) s g = true →
    (Members s g (fun u => 0 ≤ p.2 u m ∧ p.2 u m + 8 ≤ u.alloc) →
      Performs (p.1 sw m) s g (fun u v => ∃ b : Nat, (b : Int) = p.2 u m ∧
        Went (p.1 sw m) (g.pc + 4) { u with parkAct := .window b } u v)) ∧
    (∀ k ks u, g.tids = k :: ks → s.threadOf g.ctx g.wg k = some u → (p.2 u m < 0 ∨ (u.alloc : Int) < p.2 u m + 8) →
      ∃ operand : Nat, (operand : Int) = p.2 u m % 2 ^ 64 ∧ Traps (p.1 sw m) s g .window operand k)) ∧
  (∀ (sw : Bool) (s : State) (g : Group), issuable (.exit sw) s g = true →
    Performs (.exit sw) s g (fun u v => Went (.exit sw) (g.pc + 4) { u with parkAct := .exit } u v))

/-- R57, R63, R25, R66, R243: the checks at issue of every instruction that has a word, in their order; the trap names the
lowest member that fails, and is that of the first check that fails in any member; the operand of WINDOW is the first named field that
lies outside.
Rests on the model's own choices of log 48 and log 74. -/
def Obligations.IssueChecks : Prop :=
  ∀ (i : Instr) (s : State) (g : Group) (lower : List Nat) (k : Nat) (ks : List Nat) (u : Thread), (encode i).isSome = true →
    isBreak i = false → s.group = some g → g.tids = lower ++ k :: ks → s.threadOf g.ctx g.wg k = some u →
    (i.wf = false → lower = [] → Traps i s g .illegal 0 k) ∧
    (i.wf = true → lower = [] → (isPrivileged i = true ∧ s.privileged g = false ∨ userPrivIndex i = true) → Traps i s g .priv 0 k) ∧
    (i.wf = true → (isPrivileged i = true → s.privileged g = true) → userPrivIndex i = false →
      (isWaiting i = true → lower = [] → (s.launch g.ctx).bind (fun l => l.bound g.pc) = none → Traps i s g .bound 0 k) ∧
      ((isWaiting i = true → (s.launch g.ctx).bind (fun l => l.bound g.pc) ≠ none) →
        (isProducer i = true → (∀ j ∈ lower, ∀ v, s.threadOf g.ctx g.wg j = some v → v.sub = 0) → u.sub ≠ 0 → Traps i s g .streamer 0 k) ∧
        (∀ fs gs f n j, (isProducer i = true → Members s g (fun v => v.sub = 0)) → namedFields i = fs ++ (f, n) :: gs →
          (∀ m ∈ lower, ∀ v, s.threadOf g.ctx g.wg m = some v → ∀ p ∈ namedFields i, ∀ x < p.2, v.phys (p.1 + x) < v.regs.length) →
          (∀ p ∈ fs, ∀ x < p.2, u.phys (p.1 + x) < u.regs.length) → j < n → u.regs.length ≤ u.phys (f + j) →
          Traps i s g .window f k)))

/-- R148: TRAP raises TRAP, and BRK outside a debug launch raises BRK, with the immediate as operand.
R249: a trap of privileged members that all have a handler, in no handler already, other than MCHK: each member goes to
its %tvec with its results committed, %epc the trapping PC, %ecause the code with bit 31 set, and the operand in %eop and
%eoph; no record is written and no memory changes. The members have no access in flight, so the run's earlier instructions
have performed (R61).
R254, R255, R57: a trap of a launch in the user view ends the workgroup: one record of 32 bytes is written after those the
trap area holds, where it has room, and every thread of the workgroup stops.
R190: a WIDEN is a breach besides, of the device or of the operator.
Rests on the model's own choice of log 48. -/
def Obligations.TrapEntry : Prop :=
  (∀ (sw : Bool) (m : BitVec 21) (s : State) (g : Group) (k : Nat) (ks : List Nat), issuable (.trap sw m) s g = true →
    g.tids = k :: ks → Traps (.trap sw m) s g .trap m.toNat k) ∧
  (∀ (sw : Bool) (m : BitVec 21) (s : State) (g : Group) (l : Launch) (k : Nat) (ks : List Nat), s.launch g.ctx = some l →
    l.debug = false → issuable (.brk sw m) s g = true → g.tids = k :: ks → Traps (.brk sw m) s g .brk m.toNat k) ∧
  (∀ (s : State) (g : Group) (x : TrapInfo) (k : Nat), s.group = none → g.tids.Nodup → s.privileged g = true → x.code ≠ .mchk →
    Members s g (fun u => u.tvec ≠ 0 ∧ u.ecause.toNat < 2 ^ 31) → (∀ j ∈ g.tids, (s.threadOf g.ctx g.wg j).isSome) →
    Quiet s g →
    (s.trap g x k).mem = s.mem ∧ (s.trap g x k).scratch = s.scratch ∧
    (x.code ≠ .widen → (s.trap g x k).launches = s.launches ∧ (s.trap g x k).staged = s.staged) ∧
    (∀ l, x.code = .widen → s.launch g.ctx = some l → l.debug = false → WidenBreach s (s.trap g x k) g l) ∧
    (∀ c w j, ¬(c = g.ctx ∧ w = g.wg ∧ j ∈ g.tids) → (s.trap g x k).threadOf c w j = s.threadOf c w j) ∧
    EachMember s (s.trap g x k) g (fun u v => v.status = .ready ∧ v.pc = u.tvec.toNat ∧ v.epc = BitVec.ofNat 32 g.pc ∧
      v.ecause = BitVec.ofNat 32 (x.code.num + 2 ^ 31) ∧ v.eop = BitVec.ofNat 32 x.operand ∧
      v.eoph = BitVec.ofNat 32 (x.operand / 2 ^ 32) ∧ v.regs = u.commit.regs ∧ v.results = [] ∧ v.runLen = 0 ∧ v.tvec = u.tvec)) ∧
  (∀ (s : State) (g : Group) (x : TrapInfo) (k : Nat) (l : Launch) (w : Workgroup), s.group = none → s.launch g.ctx = some l →
    l.supervisor = false → l.live = true → s.wgOf g.ctx g.wg = some w → l.traps < l.trapCap →
    Quiet s g →
    (s.trap g x k).mem = (s.writeWords l.firstDie (l.trapArea + 32 * l.traps)
      [x.code.num + k % 32 * 2 ^ 16, g.pc, x.operand % 2 ^ 32, x.operand / 2 ^ 32 % 2 ^ 32, g.wg, k + g.ctx * 2 ^ 16,
       w.core / 256 + w.core / 128 * 2 ^ 3 + w.core % 128 * 2 ^ 7, 0]).mem ∧
    ((s.trap g x k).launch g.ctx).map Launch.traps = some (l.traps + 1) ∧
    (x.code ≠ .widen → (s.trap g x k).staged = s.staged) ∧ (x.code = .widen → l.debug = false → WidenBreach s (s.trap g x k) g l) ∧
    (∀ j v, (s.trap g x k).threadOf g.ctx g.wg j = some v → v.status = .exited))

/-- R138, R139: each sub-group operation gives every member its result of Table 9 from the values of the members, who stand
on different lanes (R14). -/
def Obligations.SubGroups : Prop :=
  (∀ (s : State) (g : Group) (a : Reg), (g.tids.map (fun k => k % 32)).Nodup → ∀ p ∈ subGroupTable s g a.toNat,
    ∀ (sw : Bool) (d b : Reg), issuable (p.1 sw d a b) s g = true →
    Performs (p.1 sw d a b) s g (fun u v =>
      Owes (p.1 sw d a b) (g.pc + 4) d.toNat [(p.2 u.tid (u.readW b.toNat).toNat).getD (u.readW a.toNat)] u v)) ∧
  (∀ (s : State) (g : Group) (a : Reg), (g.tids.map (fun k => k % 32)).Nodup → ∀ p ∈ voteTable s g a.toNat,
    ∀ (sw : Bool) (d : Reg), issuable (p.1 sw d a) s g = true →
    Performs (p.1 sw d a) s g (fun u v => ∃ r : Word, r.toNat = p.2 (u.readW a.toNat) ∧
      Owes (p.1 sw d a) (g.pc + 4) d.toNat [r] u v)) ∧
  (∀ (s : State) (g : Group) (sw : Bool) (d : Reg), (g.tids.map (fun k => k % 32)).Nodup → issuable (.lanes sw d) s g = true →
    Performs (.lanes sw d) s g (fun u v => ∃ r : Word, r.toNat = (g.tids.map (fun k => 2 ^ (k % 32))).sum ∧
      Owes (.lanes sw d) (g.pc + 4) d.toNat [r] u v))

/-- R64, R65, R140, R17: MFS owes the register of the user view that it names, as sampled at issue; a read of %energy leaves
to be read, and of %energyh gives what the last one latched; MTS clears the bits of %acs written as 1 and changes no other
register.
R141, R137, R96, R97: CLKI owes the earliest and the latest time of the die's interval and %clkw its width; RNDB owes the
draw of the member's seed, global id and counter, which advances by 1. -/
def Obligations.SpecialRegisters : Prop :=
  (∀ (sw : Bool) (d : Reg) (m : BitVec 14) (s : State) (g : Group) (l : Launch) (w : Workgroup), s.launch g.ctx = some l →
    s.wgOf g.ctx g.wg = some w → m ≠ 0x0028 → m ≠ 0x0029 → issuable (.mfs sw d m) s g = true →
    Performs (.mfs sw d m) s g (fun u v => ∃ x, (m.toNat, x) ∈ userView s l w g u ∧
      Owes (.mfs sw d m) (g.pc + 4) d.toNat [BitVec.ofNat 32 x] u v)) ∧
  (∀ (i : Instr) (sw : Bool) (d : Reg) (s : State) (g : Group), i = .mfs sw d 0x0029 ∨ i = .mfsr sw d 0x2029 → issuable i s g = true →
    Quiet s g → Performs i s g (fun u v => Owes i (g.pc + 4) d.toNat [u.energyHi] u v)) ∧
  (∀ (i : Instr) (sw : Bool) (d : Reg) (s : State) (g : Group) (l : Launch), i = .mfs sw d 0x0028 ∨ i = .mfsr sw d 0x2028 →
    s.launch g.ctx = some l → issuable i s g = true →
    Sends i s g (perMember s g 1 (fun id u => [{ sentAccess s g .ord (.energy (BitVec.ofNat 32 (l.energyPj / 1000000))
        (BitVec.ofNat 32 (l.energyPj / 1000000 / 2 ^ 32 % 2 ^ 31 + if l.energySat then 2 ^ 31 else 0))) 0 0 0 (some u.nextSlot) id u with gid := id }]))
      (fun u v => Went i (g.pc + 4) { u with results := u.results ++ [owing u 0 d.toNat 1], nextSlot := u.nextSlot + 1 } u v)) ∧
  (∀ (sw : Bool) (d : Reg) (m : BitVec 14) (s : State) (g : Group), m ≠ 0x0020 → issuable (.mts sw d m) s g = true →
    Performs (.mts sw d m) s g (fun u v => Went (.mts sw d m) (g.pc + 4) u u v)) ∧
  (∀ (i : Instr) (sw : Bool) (d : Reg) (s : State) (g : Group) (w : Workgroup), i = .mts sw d 0x0020 ∨ i = .mtsr sw d 0x2020 →
    s.wgOf g.ctx g.wg = some w → issuable i s g = true →
    ∃ t w', exec i s = .next t ∧ t = { s with group := none, wgs := t.wgs, cores := t.cores } ∧
      t.wgOf g.ctx g.wg = some w' ∧ w'.shell = { w.shell with acs := w'.acs } ∧
      (∀ c x, ¬(c = g.ctx ∧ x = g.wg) → t.wgOf c x = s.wgOf c x) ∧ (∀ k, (t.coreOf k).shell = (s.coreOf k).shell) ∧
      (∀ j < 32, w'.acs.getLsbD j = (w.acs.getLsbD j &&
        !(decide (j < 4) && g.tids.any (fun k => (s.threadOf g.ctx g.wg k).any (fun u => (u.readW d.toNat).getLsbD j))))) ∧
      EachMember s t g (fun u v => Went i (g.pc + 4) u u v)) ∧
  (∀ (sw : Bool) (d : Reg) (s : State) (g : Group), issuable (.clki sw d) s g = true →
    Performs (.clki sw d) s g (fun u v => ∃ e l : DWord, e = BitVec.ofNat 64 (s.interval (coreDie g.core)).1 ∧
      l = BitVec.ofNat 64 (s.interval (coreDie g.core)).2 ∧
      Went (.clki sw d) (g.pc + 4) { u with
        results := u.results ++ [.mk u.nextSlot ((rangeFrom d.toNat 4).map u.phys)
          (some [some (e.setWidth 32), some ((e >>> 32).setWidth 32), some (l.setWidth 32), some ((l >>> 32).setWidth 32)])],
        nextSlot := u.nextSlot + 1,
        clkwNext := some (BitVec.ofNat 32 (min ((s.interval (coreDie g.core)).2 - (s.interval (coreDie g.core)).1) (2 ^ 32 - 1))) }
        u v)) ∧
  (∀ (sw : Bool) (d : Reg) (s : State) (g : Group) (l : Launch), s.launch g.ctx = some l → issuable (.rndb sw d) s g = true →
    Performs (.rndb sw d) s g (fun u v => Went (.rndb sw d) (g.pc + 4) { u with
      results := u.results ++ [.mk u.nextSlot [u.phys d.toNat]
        (some [some (BitVec.ofNat 32 (rndWord l.seed (g.wg * 512 + u.tid) u.rng.toNat))])],
      nextSlot := u.nextSlot + 1, rng := u.rng + 1 } u v))

/-- R149, R150, R151, R22: a load outside any transaction leaves for its address, or in two halves of 8 bytes, owing its words
to d; no register, memory or other thread changes at issue. A first touch of a polder line is the statement PolderTouch's. -/
def Obligations.Loads : Prop :=
  (∀ p ∈ loadTable, ∀ (sw : Bool) (d a : Reg) (m : BitVec 7) (s : State) (g : Group) (l : Launch), s.launch g.ctx = some l →
    issuableOutside (p.1 sw d a m) s g = true →
    Members s g (fun u => Reachable s l g.core u.parent (addrImm u a m p.2.2.1) p.2.2.1 false (decide (p.2.2.2.2.2 = .con)) ∧
      Settled s l (addrImm u a m p.2.2.1) p.2.2.1) →
    Sends (p.1 sw d a m) s g
      (perMember s g 1 (fun id u => [sentAccess s g p.2.2.2.2.2 (.load p.2.2.2.2.1 p.2.2.2.1) (addrImm u a m p.2.2.1) p.2.2.1 0
        (some u.nextSlot) id u]))
      (fun u v => Went (p.1 sw d a m) (g.pc + 4) { u with results := u.results ++ [owing u 0 d.toNat p.2.2.2.1], nextSlot := u.nextSlot + 1 } u v)) ∧
  (∀ p ∈ loadTable, ∀ (sw : Bool) (d a b : Reg) (s : State) (g : Group) (l : Launch), s.launch g.ctx = some l →
    issuableOutside (p.2.1 sw d a b) s g = true →
    Members s g (fun u => Reachable s l g.core u.parent (addrIdx u a b) p.2.2.1 false (decide (p.2.2.2.2.2 = .con)) ∧
      Settled s l (addrIdx u a b) p.2.2.1) →
    Sends (p.2.1 sw d a b) s g
      (perMember s g 1 (fun id u => [sentAccess s g p.2.2.2.2.2 (.load p.2.2.2.2.1 p.2.2.2.1) (addrIdx u a b) p.2.2.1 0
        (some u.nextSlot) id u]))
      (fun u v => Went (p.2.1 sw d a b) (g.pc + 4) { u with results := u.results ++ [owing u 0 d.toNat p.2.2.2.1], nextSlot := u.nextSlot + 1 } u v)) ∧
  (∀ (i : Instr) (d : Reg) (addr : Thread → Nat), QuadLoad i d addr → ∀ (s : State) (g : Group) (l : Launch), s.launch g.ctx = some l →
    issuableOutside i s g = true → Members s g (fun u => Reachable s l g.core u.parent (addr u) 16 false false ∧ Settled s l (addr u) 16) →
    Sends i s g
      (perMember s g 2 (fun id u => [sentAccess s g .ord (.load false 2) (addr u) 8 0 (some u.nextSlot) id u,
        sentAccess s g .ord (.load false 2) (addr u + 8) 8 0 (some (u.nextSlot + 1)) (id + 1) u]))
      (fun u v => Went i (g.pc + 4) { u with
        results := u.results ++ [owing u 0 d.toNat 2, owing u 1 (d.toNat + 2) 2], nextSlot := u.nextSlot + 2 } u v))

/-- R149, R150, R151, R175: a store outside any transaction leaves for its address with its data; at issue no byte of memory,
no register and no other thread changes. A store to a shared region of a `.det` launch does so while its workgroup holds the
token. -/
def Obligations.Stores : Prop :=
  (∀ p ∈ storeTable, ∀ (sw : Bool) (d a : Reg) (m : BitVec 7) (s : State) (g : Group) (l : Launch), s.launch g.ctx = some l →
    issuableOutside (p.1 sw d a m) s g = true →
    Members s g (fun u => Reachable s l g.core u.parent (addrImm u a m p.2.2) p.2.2 true false ∧ Settled s l (addrImm u a m p.2.2) p.2.2 ∧
      (l.gated (addrImm u a m p.2.2) p.2.2 = true → l.holdsToken g.wg = true)) →
    Sends (p.1 sw d a m) s g
      (perMember s g 1 (fun id u => [sentAccess s g .ord (.store (if p.2.2 = 8 then u.readPair d.toNat else (u.readW d.toNat).toNat))
        (addrImm u a m p.2.2) p.2.2 0 none id u]))
      (fun u v => Went (p.1 sw d a m) (g.pc + 4) u u v)) ∧
  (∀ p ∈ storeTable, ∀ (sw : Bool) (d a b : Reg) (s : State) (g : Group) (l : Launch), s.launch g.ctx = some l →
    issuableOutside (p.2.1 sw d a b) s g = true →
    Members s g (fun u => Reachable s l g.core u.parent (addrIdx u a b) p.2.2 true false ∧ Settled s l (addrIdx u a b) p.2.2 ∧
      (l.gated (addrIdx u a b) p.2.2 = true → l.holdsToken g.wg = true)) →
    Sends (p.2.1 sw d a b) s g
      (perMember s g 1 (fun id u => [sentAccess s g .ord (.store (if p.2.2 = 8 then u.readPair d.toNat else (u.readW d.toNat).toNat))
        (addrIdx u a b) p.2.2 0 none id u]))
      (fun u v => Went (p.2.1 sw d a b) (g.pc + 4) u u v)) ∧
  (∀ (i : Instr) (d : Reg) (addr : Thread → Nat), QuadStore i d addr → ∀ (s : State) (g : Group) (l : Launch), s.launch g.ctx = some l →
    issuableOutside i s g = true →
    Members s g (fun u => Reachable s l g.core u.parent (addr u) 16 true false ∧ Settled s l (addr u) 16 ∧
      (l.gated (addr u) 16 = true → l.holdsToken g.wg = true)) →
    Sends i s g
      (perMember s g 2 (fun id u => [sentAccess s g .ord (.store (u.readPair d.toNat)) (addr u) 8 0 none id u,
        sentAccess s g .ord (.store (u.readPair (d.toNat + 2))) (addr u + 8) 8 0 none (id + 1) u]))
      (fun u v => Went i (g.pc + 4) u u v))

/-- R150, R57: a load or a store of any size and form raises ALIGN for an address that is no multiple of its size, before any other
check of its address, ACCESS for one in no class, for a store to read-only, stamped or sluice memory and for a constant load outside
global memory, and OUTSIDE_LEASE for a global address that no declared range covers, each with the address as operand. -/
def Obligations.AddressChecks : Prop :=
  (∀ (i : Instr) (addr : Thread → Nat) (n : Nat) (constant : Bool), LoadForm i addr n constant → ∀ (s : State) (g : Group) (l : Launch)
    (k : Nat) (ks : List Nat) (u : Thread), s.launch g.ctx = some l → issuableOutside i s g = true → g.tids = k :: ks →
    s.threadOf g.ctx g.wg k = some u →
    (addr u % n ≠ 0 → Traps i s g .align (addr u) k) ∧
    (addr u % n = 0 → classOfRange (addr u) n = .bad → Traps i s g .access (addr u) k) ∧
    (addr u % n = 0 → constant = true → classOfRange (addr u) n ≠ .global → Traps i s g .access (addr u) k) ∧
    (addr u % n = 0 → classOfRange (addr u) n = .global → l.inLease (addr u) n = false → Traps i s g .outsideLease (addr u) k)) ∧
  (∀ (i : Instr) (addr : Thread → Nat) (n : Nat), StoreForm i addr n → ∀ (s : State) (g : Group) (l : Launch) (k : Nat) (ks : List Nat)
    (u : Thread), s.launch g.ctx = some l → issuableOutside i s g = true → g.tids = k :: ks → s.threadOf g.ctx g.wg k = some u →
    (addr u % n ≠ 0 → Traps i s g .align (addr u) k) ∧
    (addr u % n = 0 → classOfRange (addr u) n = .bad → Traps i s g .access (addr u) k) ∧
    (addr u % n = 0 → classOfRange (addr u) n = .global →
      (l.readOnlyAt (addr u) n = true ∨ l.stampedAt (addr u) n = true ∨ l.sluiceAt (addr u) n = true) →
      Traps i s g .access (addr u) k) ∧
    (addr u % n = 0 → classOfRange (addr u) n = .global → l.readOnlyAt (addr u) n = false → l.stampedAt (addr u) n = false →
      l.sluiceAt (addr u) n = false → l.inLease (addr u) n = false → Traps i s g .outsideLease (addr u) k))

/-- R179, R158, R185: inside a transaction an ordinary global load of any size and form joins the read set and returns the thread's own buffered bytes, a
global store of any size and form is buffered and performs nowhere, and the access that would need a ninth line aborts with CAPACITY, to
the abort path; a load from a stamped region or a sluice object, and any access to the scratchpad, aborts with FAULT, and
so does every instruction that a transaction does not allow (LDC, a nested TXB, a waiting instruction, a command among them), once its
checks at issue have passed. LOAD_PERFORM of such a load returns the bytes of its home under those of the
write set that it left with, and records what it read of the home. -/
def Obligations.TransactionalAccesses : Prop :=
  (∀ (i : Instr) (addr : Thread → Nat) (n : Nat) (path : Path) (accs : State → Group → Thread → List Access) (res : Thread → List Result),
    LoadSends i addr n path accs res → ∀ (s : State) (g : Group) (l : Launch) (k : Nat) (u : Thread) (line : Nat),
    s.launch g.ctx = some l → issuable i s g = true → g.tids = [k] → s.threadOf g.ctx g.wg k = some u →
    u.tx.active = true → Reachable s l g.core u.parent (addr u) n false (decide (path = .con)) → line = txLine s (coreDie g.core) l (addr u) →
    (classOfRange (addr u) n = .scratch → ∃ t v, exec i s = .next t ∧ t.threadOf g.ctx g.wg k = some v ∧ t.mem = s.mem ∧
      t.flight = s.flight ∧ Aborted u v 6 0) ∧
    (classOfRange (addr u) n = .global → Settled s l (addr u) n →
      (l.stampedAt (addr u) n = true ∨ l.sluiceAt (addr u) n = true →
        ∃ t v, exec i s = .next t ∧ t.threadOf g.ctx g.wg k = some v ∧ t.mem = s.mem ∧ t.flight = s.flight ∧ Aborted u v 6 0) ∧
      (l.stampedAt (addr u) n = false → l.sluiceAt (addr u) n = false →
        ((line ∈ u.tx.readLines ∨ u.tx.readLines.length < 8) →
          ∃ t v, exec i s = .next t ∧ t.threadOf g.ctx g.wg k = some v ∧ t.mem = s.mem ∧
            t.flight = s.flight ++ (accs s g u).map (fun x => { x with tx := some u.tx.writes }) ∧
            v.tx.readLines = (if line ∈ u.tx.readLines then u.tx.readLines else u.tx.readLines ++ [line]) ∧
            v.tx.active = true ∧ v.tx.writes = u.tx.writes ∧ v.results = u.results ++ res u) ∧
        (line ∉ u.tx.readLines → 8 ≤ u.tx.readLines.length →
          ∃ t v, exec i s = .next t ∧ t.threadOf g.ctx g.wg k = some v ∧ t.flight = s.flight ∧ Aborted u v 3 0)))) ∧
  (∀ (i : Instr) (addr : Thread → Nat) (n : Nat) (data : Thread → Nat), StoreSends i addr n data →
    ∀ (s : State) (g : Group) (l : Launch) (k : Nat) (u : Thread) (line key : Nat),
    s.launch g.ctx = some l → issuable i s g = true → g.tids = [k] → s.threadOf g.ctx g.wg k = some u →
    u.tx.active = true → Reachable s l g.core u.parent (addr u) n true false → (l.gated (addr u) n = true → l.holdsToken g.wg = true) →
    line = txLine s (coreDie g.core) l (addr u) → key = ((s.locate (coreDie g.core) l (addr u)).map (fun t => t.key)).getD (addr u) →
    (classOfRange (addr u) n = .scratch → ∃ t v, exec i s = .next t ∧ t.threadOf g.ctx g.wg k = some v ∧ t.mem = s.mem ∧
      t.flight = s.flight ∧ Aborted u v 6 0) ∧
    (classOfRange (addr u) n = .global →
      (line ∈ u.tx.writeLines ∨ u.tx.writeLines.length < 8 →
        ∃ t v, exec i s = .next t ∧ t.threadOf g.ctx g.wg k = some v ∧ t.mem = s.mem ∧ t.flight = s.flight ∧
          v.tx.active = true ∧ v.tx.writeLines = (if line ∈ u.tx.writeLines then u.tx.writeLines else u.tx.writeLines ++ [line]) ∧
          (∀ j < n, v.tx.writes.find? (fun w => w.1 == key + j) = some (key + j, BitVec.ofNat 8 (data u / 256 ^ j))) ∧
          (∀ x, (x < key ∨ key + n ≤ x) → v.tx.writes.find? (fun w => w.1 == x) = u.tx.writes.find? (fun w => w.1 == x))) ∧
      (line ∉ u.tx.writeLines → 8 ≤ u.tx.writeLines.length →
        ∃ t v, exec i s = .next t ∧ t.threadOf g.ctx g.wg k = some v ∧ t.flight = s.flight ∧ Aborted u v 3 0))) ∧
  (∀ (i : Instr) (s : State) (g : Group) (l : Launch) (k : Nat) (u : Thread), (encode i).isSome = true → isBreak i = false → i.wf = true →
    s.launch g.ctx = some l → s.group = some g → g.tids = [k] → s.threadOf g.ctx g.wg k = some u → u.status = .ready → u.tx.active = true →
    txAllowed i = false → (isPrivileged i = true → s.privileged g = true) → userPrivIndex i = false →
    (isWaiting i = true → (l.bound g.pc).isSome = true) → (isProducer i = true → u.sub = 0) → windowCheck i u = none →
    ∃ t v, exec i s = .next t ∧ t.threadOf g.ctx g.wg k = some v ∧ t.mem = s.mem ∧ t.flight = s.flight ∧ Aborted u v 6 0) ∧
  (∀ (s : State) (n slot words : Nat) (a : Access) (writes : List (Nat × Byte)) (l : Launch) (u : Thread) (tgt : Target)
    (bs : List Byte), Due s n a → NoMoves s → a.op = .load false words → a.slot = some slot → a.tx = some writes →
    s.launch a.ctx = some l → s.threadOf a.ctx a.wg a.tid = some u → classOf a.addr = .global → l.polderAt a.addr = none →
    s.locateVia (coreCluster a.core) l a.addr = some tgt → s.takenMeets a = false → bs.length = a.size →
    (∀ i < a.size, nth 0 bs i = ((writes.find? (fun w => w.1 == tgt.key + i)).map (fun w => w.2)).getD (Cells.get s.mem (tgt.key + i))) →
    ∃ t v, exec (.loadPerform n) s = .next t ∧ Landed s t n ∧ t.mem = s.mem ∧ t.scratch = s.scratch ∧
      t.threadOf a.ctx a.wg a.tid = some v ∧
      v = { u with
        results := (u.fillSlot slot ((List.range words).map (fun i => some (BitVec.ofNat 32 (leNat bs / 2 ^ (32 * i)))))).results,
        tx := { u.tx with reads := v.tx.reads } } ∧
      (∀ r ∈ u.tx.reads, r ∈ v.tx.reads) ∧
      (∀ i < a.size, (∀ w ∈ writes, w.1 ≠ tgt.key + i) → (tgt.key + i, Cells.get s.mem (tgt.key + i)) ∈ v.tx.reads))

/-- R122, R123, R61: the first access to a polder line. Where the region has room the line is allocated as the access issues, and
its 128 bytes read as zero; where it has none the access raises POLDER_BREACH with its address, which is precise, or gives the page
its late frame where the region declares one. An access to a lost page raises POLDER_BREACH.
Rests on the model's own choice of log 50. -/
def Obligations.PolderTouch : Prop :=
  ∀ (i : Instr) (acc : Thread → AccOp × Path × Option Nat) (addr n : Nat) (s : State) (g : Group) (l : Launch) (k : Nat) (u : Thread)
    (r : Region), ((∃ p ∈ loadTable, ∃ sw d a m, i = p.1 sw d a m ∧ n = p.2.2.1 ∧ addr = addrImm u a m n ∧
        Reachable s l g.core u.parent addr n false (decide (p.2.2.2.2.2 = .con)) ∧
        acc = fun u => (.load p.2.2.2.2.1 p.2.2.2.1, p.2.2.2.2.2, some u.nextSlot)) ∨
      (∃ p ∈ storeTable, ∃ sw d a m, i = p.1 sw d a m ∧ n = p.2.2 ∧ addr = addrImm u a m n ∧ Reachable s l g.core u.parent addr n true false ∧
        (l.gated addr n = true → l.holdsToken g.wg = true) ∧
        acc = fun u => (.store (if n = 8 then u.readPair d.toNat else (u.readW d.toNat).toNat), .ord, none))) →
    s.launch g.ctx = some l → l.ctx = g.ctx → issuableOutside i s g = true → g.tids = [k] → s.threadOf g.ctx g.wg k = some u →
    l.polderAt addr = some r →
    ((∃ x, s.polderPage l.ctx (r.pageOf addr) = some (.lost x)) → Traps i s g .polderBreach addr k) ∧
    (s.polderPage l.ctx (r.pageOf addr) = none ∨ (∃ x, s.polderPage l.ctx (r.pageOf addr) = some (.moved x)) →
      (l.ctx, addr / 128) ∉ s.polderLines →
      ((s.polderHeld l.ctx r + 1) * 128 ≤ s.polderCap l.ctx r →
        ∃ t, exec i s = .next t ∧ t.polderLines = s.polderLines ++ [(l.ctx, addr / 128)] ∧ t.polderPages = s.polderPages ∧
          t.flight = s.flight ++ [sentAccess s g (acc u).2.1 (acc u).1 addr n 0 (acc u).2.2 s.nextId u] ∧ t.scratch = s.scratch ∧
          (s.canonical = true → Stored s.mem t.mem (polderKey g.ctx (addr / 128 * 128)) (List.replicate 128 0))) ∧
      (s.polderCap l.ctx r < (s.polderHeld l.ctx r + 1) * 128 →
        (r.late = false → Traps i s g .polderBreach addr k) ∧
        (r.late = true → ∃ t, exec i s = .next t ∧ t.polderPage l.ctx (r.pageOf addr) =
            some (.backed ((s.polderLines.filter (fun p => p.1 == l.ctx && r.pageOf (p.2 * 128) == r.pageOf addr)).length * 128)) ∧
          t.flight = s.flight ++ [sentAccess s g (acc u).2.1 (acc u).1 addr n 0 (acc u).2.2 s.nextId u] ∧ t.scratch = s.scratch)))

/-- R155, R157, R58: FENCE and PFENCE hold their thread for the sets and the scope they name, without closing its run;
nothing else changes.
R158, R159, R160, R66: on a declared sluice SLACQ sleeps until the release count reaches its need, owing d, and SLREL
sends a release of the sluice's scope without waiting; on any other address each raises ACCESS.
Rests on the model's own choice of log 15. -/
def Obligations.Fences : Prop :=
  (∀ (sw : Bool) (p q : BitVec 7) (c : BitVec 3) (s : State) (g : Group), issuable (.fence sw p q c) s g = true →
    Performs (.fence sw p q c) s g (fun u v =>
      Stays (.fence sw p q c) (g.pc + 4) { u with status := .held (.fence p.toNat q.toNat c.toNat) } u v)) ∧
  (∀ (sw : Bool) (p q : BitVec 7) (s : State) (g : Group), issuable (.pfence sw p q) s g = true →
    Performs (.pfence sw p q) s g (fun u v =>
      Stays (.pfence sw p q) (g.pc + 4) { u with status := .held (.pfence p.toNat q.toNat) } u v)) ∧
  (∀ (sw : Bool) (d a b : Reg) (s : State) (g : Group) (l : Launch), s.launch g.ctx = some l → issuable (.slacq sw d a b) s g = true →
    (Members s g (fun u => u.tx.active = false ∧ (l.sluiceOf (u.readPair a.toNat)).isSome = true) →
      Performs (.slacq sw d a b) s g (fun u v =>
        Sleeps (.slacq sw d a b) (.slacq (u.readPair a.toNat) (u.readW b.toNat).toNat) (waitLimit s g) (s.dieTime (coreDie g.core)) (g.pc + 4) (some d.toNat) u v)) ∧
    (∀ k ks u, g.tids = k :: ks → s.threadOf g.ctx g.wg k = some u → l.sluiceOf (u.readPair a.toNat) = none →
      Traps (.slacq sw d a b) s g .access (u.readPair a.toNat) k)) ∧
  (∀ (sw : Bool) (a : Reg) (s : State) (g : Group) (l : Launch), s.launch g.ctx = some l → issuable (.slrel sw a) s g = true →
    (Members s g (fun u => (l.sluiceOf (u.readPair a.toNat)).isSome = true) →
      Sends (.slrel sw a) s g
        (perMember s g 1 (fun id u => [sentAccess s g .ord .release (u.readPair a.toNat) 4
          (((l.sluiceOf (u.readPair a.toNat)).map (fun x => x.2)).getD 0) none id u]))
        (fun u v => Went (.slrel sw a) (g.pc + 4) u u v)) ∧
    (∀ k ks u, g.tids = k :: ks → s.threadOf g.ctx g.wg k = some u → l.sluiceOf (u.readPair a.toNat) = none →
      Traps (.slrel sw a) s g .access (u.readPair a.toNat) k))

/-- R161 to R164: BARA sends its arrival, with its count, and goes on; BARW sleeps on the barrier; BAR and BARX do both, BARX
with the expected bytes of word a and the count of word a + 1; a count outside 1 to 2^31 raises ILLEGAL.
R161, R162, R163: BARRIER_ARRIVAL counts an arrival in the open phase of its barrier, whose count the first one gives, and the
phase completes with the arrival that reaches the count once the expected bytes have landed; BARRIER_RELEASE wakes a waiter whose
phase has completed within its limit, with %tws 0, and no other; one of level 0 follows what its workgroup has stored and its L1 still
holds (R263, R264).
R66, R67: a waiter whose limit is 0 is tested once, and else times out with %tws FFFFFFFFH. -/
def Obligations.Barriers : Prop :=
  (∀ (sw : Bool) (n : BitVec 4) (l : BitVec 3) (a : Reg) (s : State) (g : Group), issuable (.bara sw n l a) s g = true →
    (Members s g (fun u => u.readW a.toNat ≠ 0 ∧ (u.readW a.toNat).toNat ≤ 2 ^ 31) →
      Sends (.bara sw n l a) s g (perMember s g 1 (fun id u => [arrival s g l.toNat n.toNat (u.readW a.toNat).toNat 0 id u]))
        (fun u v => ∃ j : Nat, g.tids[j]? = some u.tid ∧ Went (.bara sw n l a) (g.pc + 4) (arrivedAt u g.core l.toNat n.toNat (s.nextId + j)) u v)) ∧
    (∀ k ks u, g.tids = k :: ks → s.threadOf g.ctx g.wg k = some u → (u.readW a.toNat = 0 ∨ 2 ^ 31 < (u.readW a.toNat).toNat) →
      Traps (.bara sw n l a) s g .illegal 0 k)) ∧
  (∀ (sw : Bool) (n : BitVec 4) (l : BitVec 3) (s : State) (g : Group), issuable (.barw sw n l) s g = true →
    Performs (.barw sw n l) s g (fun u v =>
      Sleeps (.barw sw n l) (.barrier l.toNat n.toNat) (waitLimit s g) (s.dieTime (coreDie g.core)) (g.pc + 4) none u v)) ∧
  (∀ (sw : Bool) (n : BitVec 4) (l : BitVec 3) (a : Reg) (s : State) (g : Group), issuable (.bar sw n l a) s g = true →
    Members s g (fun u => u.readW a.toNat ≠ 0 ∧ (u.readW a.toNat).toNat ≤ 2 ^ 31) →
    Sends (.bar sw n l a) s g (perMember s g 1 (fun id u => [arrival s g l.toNat n.toNat (u.readW a.toNat).toNat 0 id u]))
      (fun u v => ∃ j : Nat, g.tids[j]? = some u.tid ∧
        Sleeps (.bar sw n l a) (.barrier l.toNat n.toNat) (waitLimit s g) (s.dieTime (coreDie g.core)) (g.pc + 4) none (arrivedAt u g.core l.toNat n.toNat (s.nextId + j)) v)) ∧
  (∀ (sw : Bool) (n : BitVec 4) (l : BitVec 3) (a : Reg) (s : State) (g : Group), issuable (.barx sw n l a) s g = true →
    Members s g (fun u => u.readW (a.toNat + 1) ≠ 0 ∧ (u.readW (a.toNat + 1)).toNat ≤ 2 ^ 31) →
    Sends (.barx sw n l a) s g
      (perMember s g 1 (fun id u => [arrival s g l.toNat n.toNat (u.readW (a.toNat + 1)).toNat (u.readW a.toNat).toNat id u]))
      (fun u v => ∃ j : Nat, g.tids[j]? = some u.tid ∧
        Sleeps (.barx sw n l a) (.barrier l.toNat n.toNat) (waitLimit s g) (s.dieTime (coreDie g.core)) (g.pc + 4) none (arrivedAt u g.core l.toNat n.toNat (s.nextId + j)) v)) ∧
  (∀ (s : State) (n : Nat) (a : Access) (level inst id count expected : Nat) (b : Barrier),
    Due s n a → a.op = .arrive level inst id count expected → (level = 0 → inst = 0) →
    (∀ c ∈ s.flight, c.ctx = a.ctx → c.wg = a.wg → c.tid = a.tid → c.id = n) →
    (level = 0 → (s.wgOf a.ctx a.wg).isSome = true) → (level ≠ 0 → (s.launch a.ctx).isSome = true) →
    b = s.barrierAt a.ctx a.wg level inst id →
    ∃ t m, exec (.barrierArrival n) s = .next t ∧ Landed s t n ∧ t.mem = s.mem ∧ m = (if b.count = 0 then count else b.count) ∧
      (b.arrivals + 1 < m → t.barrierAt a.ctx a.wg level inst id =
        { b with arrivals := b.arrivals + 1, count := m, expected := b.expected + expected }) ∧
      (m ≠ 0 → m ≤ b.arrivals + 1 → b.expected + expected ≤ b.landed →
        (t.barrierAt a.ctx a.wg level inst id).phase = b.phase + 1 ∧ (t.barrierAt a.ctx a.wg level inst id).arrivals = 0 ∧
        (t.barrierAt a.ctx a.wg level inst id).landed = b.landed - (b.expected + expected))) ∧
  (∀ (s : State) (ctx wg k : Nat) (w : Workgroup) (u : Thread) (level id : Nat) (r : Arrived), Resident s ctx wg k w u →
    u.status = .asleep (.barrier level id) → u.arrived.find? (fun r => r.level == level && r.id == id) = some r → r.flight = none →
    (u.deadline < s.dieTime (coreDie w.core) → exec (.barrierRelease ctx wg [k]) s = .next s) ∧
    (s.dieTime (coreDie w.core) ≤ u.deadline → r.phase < (s.barrierAt ctx wg level r.inst id).phase →
      ∃ t v, exec (.barrierRelease ctx wg [k]) s = .next t ∧ t.threadOf ctx wg k = some v ∧ t.flight = s.flight ∧
        v = { u with status := .parked, tws := 0, seen := v.seen } ∧ (level ≠ 0 → v.seen = u.seen) ∧
        (level = 0 → ∀ a ∈ s.flight, a.ctx = ctx → a.wg = wg → a.taken ≠ 0 → a.id ∈ v.seen) ∧
        (∀ c j x, ¬(c = ctx ∧ x = wg ∧ j = k) → t.threadOf c x j = s.threadOf c x j)) ∧
    (s.dieTime (coreDie w.core) ≤ u.deadline → (s.barrierAt ctx wg level r.inst id).phase ≤ r.phase →
      (s.limitOf w u ≠ 0 → exec (.barrierRelease ctx wg [k]) s = .next s) ∧
      (s.limitOf w u = 0 → ∃ t v, exec (.barrierRelease ctx wg [k]) s = .next t ∧ OnlyThread s t ctx wg k ∧
        t.threadOf ctx wg k = some v ∧ v = { u with status := .parked, tws := 0xFFFFFFFF })))

/-- R165, R166: MON of a lone member whose core can take the line, for it watches the line already or has fewer than 32 others that a
thread still watches, arms its watch, latest armed, and sends its load of the word at the home; MWAIT sleeps on the line, owing d. -/
def Obligations.Monitors : Prop :=
  (∀ (sw : Bool) (d a : Reg) (s : State) (g : Group) (l : Launch) (k : Nat) (u : Thread) (addr line : Nat),
    s.launch g.ctx = some l → issuable (.mon sw d a) s g = true → g.tids = [k] → s.threadOf g.ctx g.wg k = some u →
    u.tx.active = false → addr = u.readPair a.toNat → Watchable s l g.core u.parent addr → Settled s l addr 4 → line = watchLine s l g.core addr →
    ((s.watchTable g.core).any (fun x => x.1 == line) = true ∨ (s.watchTable g.core).length < 32) →
    ∃ t v, exec (.mon sw d a) s = .next t ∧ t.threadOf g.ctx g.wg k = some v ∧ t.mem = s.mem ∧ t.scratch = s.scratch ∧
      t.flight = s.flight ++ [sentAccess s g .ord .mon addr 4 0 (some u.nextSlot) s.nextId u] ∧
      (t.coreOf g.core).watched = (s.watchTable g.core).filter (fun x => x.1 != line) ++ [(line, (s.coreOf g.core).armings)] ∧
      Went (.mon sw d a) (g.pc + 4) { u with
        watches := { line := line, state := .armed } :: u.watches.filter (fun x => x.line != line),
        results := u.results ++ [owing u 0 d.toNat 1], nextSlot := u.nextSlot + 1 } u v) ∧
  (∀ (sw : Bool) (d a : Reg) (s : State) (g : Group) (l : Launch), s.launch g.ctx = some l → issuable (.mwait sw d a) s g = true →
    Members s g (fun u => Watchable s l g.core u.parent (u.readPair a.toNat)) →
    Performs (.mwait sw d a) s g (fun u v =>
      Sleeps (.mwait sw d a) (.mwait (watchLine s l g.core (u.readPair a.toNat))) (waitLimit s g) (s.dieTime (coreDie g.core)) (g.pc + 4) (some d.toNat) u v))

/-- R167, R168, R169, R175: a returning atomic leaves for its site with the operand and the expected value that its registers
hold at issue, owing the old value to d; nothing else changes at issue. -/
def Obligations.Atomics : Prop :=
  ∀ p ∈ atomicTable, ∀ (sw : Bool) (c : BitVec 3) (d : Reg) (a : BitVec 6) (f : Bool) (b : Reg) (s : State) (g : Group) (l : Launch),
    s.launch g.ctx = some l → issuable (p.1 sw c d a f b) s g = true →
    Members s g (fun u => AtomicReachable s l g.core u.parent (u.readPair (2 * a.toNat)) p.2.2.1 c.toNat p.2.2.2 false ∧
      Settled s l (u.readPair (2 * a.toNat)) p.2.2.1 ∧
      (l.gated (u.readPair (2 * a.toNat)) p.2.2.1 = true → l.holdsToken g.wg = true)) →
    Sends (p.1 sw c d a f b) s g
      (perMember s g 1 (fun id u => [sentAccess s g .ord
        (.atomic p.2.1 (if p.2.2.1 = 8 then u.readPair b.toNat else (u.readW b.toNat).toNat)
          (if p.2.2.1 = 8 then u.readPair d.toNat else (u.readW d.toNat).toNat))
        (u.readPair (2 * a.toNat)) p.2.2.1 c.toNat (some u.nextSlot) id u]))
      (fun u v => Went (p.1 sw c d a f b) (g.pc + 4) { u with
        results := u.results ++ [owing u 0 d.toNat (p.2.2.1 / 4)], nextSlot := u.nextSlot + 1 } u v)

/-- R173, R176: a no-return reduction leaves for its site with its operand and owes nothing; with D in a `.det` launch it goes
to the deterministic unit with the thread's sequence number, which advances. -/
def Obligations.Reductions : Prop :=
  ∀ p ∈ reductionTable, ∀ (sw : Bool) (c : BitVec 3) (f : Bool) (a : BitVec 6) (b : Reg) (s : State) (g : Group) (l : Launch),
    s.launch g.ctx = some l → issuable (p.1 sw c f a b) s g = true →
    Members s g (fun u => AtomicReachable s l g.core u.parent (u.readPair (2 * a.toNat)) 4 c.toNat false (f && l.img.det) ∧
      Settled s l (u.readPair (2 * a.toNat)) 4) →
    Sends (p.1 sw c f a b) s g
      (perMember s g 1 (fun id u => [sentAccess s g .ord
        (if (f && l.img.det) = true then .detRed p.2 (u.readW b.toNat).toNat u.redSeq else .red p.2 (u.readW b.toNat).toNat)
        (u.readPair (2 * a.toNat)) 4 c.toNat none id u]))
      (fun u v => Went (p.1 sw c f a b) (g.pc + 4) { u with redSeq := if (f && l.img.det) = true then u.redSeq + 1 else u.redSeq } u v)

/-- R178, R181, R182, R184: TXB begins a transaction with empty sets and the abort path PC + offset × 4, its aborts counted
from 0 unless it is the TXB that began last, and raises BOUND at its limit; TXE outside a transaction raises ILLEGAL, and a lone
member's goes to validate, owing d; TXA aborts with EXPLICIT and its code.
R180, R181, R184: TX_HOME_VALIDATION of a transaction that read at its homes what they still hold writes its bytes there, its
result 0, %txs's state 3 and its abort count 0; it waits for the thread's own stores on their way to those lines; with one byte
different it aborts with cause HOME and writes none, and a thread that has ended stays ended (R250). R238: REGDL_DETECT ends a workgroup
whose live threads are all stuck, one of them in RCLAIM, and no other; one of a supervisor launch too, handler or not.
Rests on the model's own choices of log 41 and log 51. -/
def Obligations.Transactions : Prop :=
  (∀ (sw : Bool) (m : BitVec 14) (s : State) (g : Group) (l : Launch), s.launch g.ctx = some l → issuable (.txb sw m) s g = true →
    (Members s g (fun u => l.bound g.pc ≠ some (if u.tx.lastTxb = some g.pc then u.txs.toNat / 2 ^ 10 % 2 ^ 8 else 0)) →
      Performs (.txb sw m) s g (fun u v => ∃ pc txs : Nat, (pc : Int) = (g.pc + m.toInt * 4) % 2 ^ 32 ∧
        txs = u.txs.toNat / 2 ^ 18 * 2 ^ 18 + (if u.tx.lastTxb = some g.pc then u.txs.toNat / 2 ^ 10 % 2 ^ 8 else 0) * 2 ^ 10 +
          u.txs.toNat / 2 ^ 4 % 2 ^ 3 * 2 ^ 4 + 1 ∧
        Went (.txb sw m) (g.pc + 4) { u with txs := BitVec.ofNat 32 txs, tx := { active := true, abortPc := pc, reads := [], writes := [], readLines := [], writeLines := [], lastTxb := some g.pc, committing := none } } u v)) ∧
    (∀ k ks u, g.tids = k :: ks → s.threadOf g.ctx g.wg k = some u →
      l.bound g.pc = some (if u.tx.lastTxb = some g.pc then u.txs.toNat / 2 ^ 10 % 2 ^ 8 else 0) → Traps (.txb sw m) s g .bound 0 k)) ∧
  (∀ (d : Reg) (s : State) (g : Group) (k : Nat) (u : Thread), issuable (.txe d) s g = true → g.tids = [k] →
    s.threadOf g.ctx g.wg k = some u →
    (u.tx.active = false → Traps (.txe d) s g .illegal 0 k) ∧
    (u.tx.active = true → u.tx.committing = none → (dedup (u.tx.readLines ++ u.tx.writeLines)).length ≤ 64 →
      (∀ l, s.launch g.ctx = some l → u.tx.polderLines l = []) →
      Performs (.txe d) s g (fun u v => Went (.txe d) (g.pc + 4) { u with
        results := u.results ++ [owing u 0 d.toNat 1], nextSlot := u.nextSlot + 1,
        tx := { u.tx with committing := some (u.nextSlot, groupId s g) } } u v))) ∧
  (∀ (m : BitVec 14) (s : State) (g : Group), issuable (.txa m) s g = true →
    (Members s g (fun u => u.tx.active = true) → Performs (.txa m) s g (fun u v => Aborted u v 4 m.toNat)) ∧
    (∀ k ks u, g.tids = k :: ks → s.threadOf g.ctx g.wg k = some u → u.tx.active = false → Traps (.txa m) s g .illegal 0 k)) ∧
  (∀ (s : State) (ctx wg k slot gid : Nat) (w : Workgroup) (u : Thread), s.wgOf ctx wg = some w → s.threadOf ctx wg k = some u →
    (u.tx.committing = none → exec (.txHomeValidation ctx wg k) s = .next s) ∧
    (u.tx.committing = some (slot, gid) → s.txBehind ctx wg u = true → exec (.txHomeValidation ctx wg k) s = .next s) ∧
    (u.tx.committing = some (slot, gid) → s.txTurn ctx wg u gid = true → s.txBehind ctx wg u = false →
      (s.canonical = true → (∀ r ∈ u.tx.reads, Cells.get s.mem r.1 = r.2) → (u.tx.writes.map (fun p => p.1)).Nodup →
        ∃ t v, exec (.txHomeValidation ctx wg k) s = .next t ∧ t.threadOf ctx wg k = some v ∧
          (∀ p ∈ u.tx.writes, Cells.get t.mem p.1 = p.2) ∧
          (∀ x, (∀ p ∈ u.tx.writes, p.1 ≠ x) → Cells.get t.mem x = Cells.get s.mem x) ∧
          v.results = (u.fillSlot slot [some 0]).results ∧ v.regs = u.regs ∧ v.tx.active = false ∧ v.tx.writes = [] ∧
          v.txs.toNat = u.txs.toNat / 2 ^ 18 * 2 ^ 18 + u.txs.toNat / 2 ^ 4 % 2 ^ 3 * 2 ^ 4 + 3) ∧
      ((∃ r ∈ u.tx.reads, Cells.get s.mem r.1 ≠ r.2) →
        ∃ t v, exec (.txHomeValidation ctx wg k) s = .next t ∧ OnlyThread s t ctx wg k ∧ t.threadOf ctx wg k = some v ∧
          (u.status ≠ .exited → v.results = (u.fillSlot slot [some 2]).results ∧ Aborted u v 2 0) ∧
          (u.status = .exited → v.status = .exited ∧ v.tx.committing = none)))) ∧
  (∀ (s : State) (ctx wg : Nat) (l : Launch) (w : Workgroup), s.launch ctx = some l → s.wgOf ctx wg = some w → w.saved = .running →
    ((∃ u ∈ w.threads, u.live = true ∧ s.stuck l w u = false) → exec (.regdlDetect ctx wg) s = .next s) ∧
    ((∀ u ∈ w.threads, u.live = true → u.claim = none) → exec (.regdlDetect ctx wg) s = .next s) ∧
    ((∀ u ∈ w.threads, u.live = true → s.stuck l w u = true) → (∃ u ∈ w.threads, u.live = true ∧ u.claim.isSome = true) →
      (∀ a ∈ s.flight, ¬(a.ctx = ctx ∧ a.wg = wg)) →
      ∃ t, exec (.regdlDetect ctx wg) s = .next t ∧ (∀ k v, t.threadOf ctx wg k = some v → v.status = .exited) ∧ t.flight = s.flight))

/-- R185, R186, R188, R189, R190: on an aligned address of a stamped region, with a clock interval no wider than %tol, STST and
STSTD send their value with the interval's latest time, which d owes, and LDAS sends its read as of a time; CWAIT sleeps until
that time is settled. A wider interval raises WIDEN with its width in each of the four; a misaligned address ALIGN, one outside the
stamped regions ACCESS.
R187, R273: STAMP_ARRIVAL holds a store pending at its home line, and a fifth one waits; WATERLINE_FORM never lowers a waterline,
raises none above what a participating die contributes, and leaves one formed within 50 ns; WATERLINE_DELIVERY commits a pending
store whose stamp the waterline now exceeds, and moves no byte where none is pending.
Rests on the model's own choices of log 12 and log 15. -/
def Obligations.Stamped : Prop :=
  (∀ p ∈ ([(.stst, 4), (.ststd, 8)] : List ((Bool → Reg → Reg → Reg → Instr) × Nat)),
    ∀ (sw : Bool) (d a b : Reg) (s : State) (g : Group) (l : Launch), s.launch g.ctx = some l → issuable (p.1 sw d a b) s g = true →
    s.intervalWidth g.core ≤ (s.die (coreDie g.core)).tol.toNat →
    Members s g (fun u => StampedAt l (u.readPair a.toNat) p.2 ∧ (l.gated (u.readPair a.toNat) p.2 = true → l.holdsToken g.wg = true)) →
    Sends (p.1 sw d a b) s g
      (perMember s g 1 (fun id u => [sentAccess s g .ord
        (.stamped (if p.2 = 8 then u.readPair b.toNat else (u.readW b.toNat).toNat) (s.interval (coreDie g.core)).2)
        (u.readPair a.toNat) p.2 4 none id u]))
      (fun u v => Went (p.1 sw d a b) (g.pc + 4) { u with
        results := u.results ++ [.mk u.nextSlot [u.phys d.toNat, u.phys (d.toNat + 1)]
          (some ((pairWords (s.interval (coreDie g.core)).2).map some))],
        nextSlot := u.nextSlot + 1 } u v)) ∧
  (∀ (sw : Bool) (d a b : Reg) (s : State) (g : Group) (l : Launch), s.launch g.ctx = some l → issuable (.ldas sw d a b) s g = true →
    s.intervalWidth g.core ≤ (s.die (coreDie g.core)).tol.toNat → Members s g (fun u => StampedAt l (u.readPair a.toNat) 4) →
    Sends (.ldas sw d a b) s g
      (perMember s g 1 (fun id u => [sentAccess s g .ord (.asOf (u.readPair b.toNat)) (u.readPair a.toNat) 4 0 (some u.nextSlot) id u]))
      (fun u v => Went (.ldas sw d a b) (g.pc + 4) { u with
        results := u.results ++ [owing u 0 d.toNat 2], nextSlot := u.nextSlot + 1 } u v)) ∧
  (∀ (sw : Bool) (d a : Reg) (s : State) (g : Group), issuable (.cwait sw d a) s g = true →
    (s.intervalWidth g.core ≤ (s.die (coreDie g.core)).tol.toNat →
      Performs (.cwait sw d a) s g (fun u v =>
        Sleeps (.cwait sw d a) (.cwait (u.readPair a.toNat)) (waitLimit s g) (s.dieTime (coreDie g.core)) (g.pc + 4) (some d.toNat) u v)) ∧
    (∀ k ks u, g.tids = k :: ks → s.threadOf g.ctx g.wg k = some u → (s.die (coreDie g.core)).tol.toNat < s.intervalWidth g.core →
      Traps (.cwait sw d a) s g .widen (min (s.intervalWidth g.core) (2 ^ 32 - 1)) k)) ∧
  (∀ p ∈ ([(.stst, 4), (.ststd, 8), (.ldas, 4)] : List ((Bool → Reg → Reg → Reg → Instr) × Nat)),
    ∀ (sw : Bool) (d a b : Reg) (s : State) (g : Group) (l : Launch) (k : Nat) (ks : List Nat) (u : Thread) (addr : Nat),
    s.launch g.ctx = some l → issuable (p.1 sw d a b) s g = true → g.tids = k :: ks → s.threadOf g.ctx g.wg k = some u →
    addr = u.readPair a.toNat →
    (addr % p.2 ≠ 0 → Traps (p.1 sw d a b) s g .align addr k) ∧
    (addr % p.2 = 0 → (∀ r, l.regionOf addr p.2 = some r → r.kind ≠ 3) → Traps (p.1 sw d a b) s g .access addr k) ∧
    (StampedAt l addr p.2 → (s.die (coreDie g.core)).tol.toNat < s.intervalWidth g.core →
      Traps (p.1 sw d a b) s g .widen (min (s.intervalWidth g.core) (2 ^ 32 - 1)) k)) ∧
  (∀ (s : State) (n v stamp : Nat) (a : Access) (l : Launch) (tgt : Target) (x : Machine.Stamped), Due s n a → a.op = .stamped v stamp →
    s.launch a.ctx = some l → s.locateVia (coreCluster a.core) l a.addr = some tgt →
    x = .mk tgt.key v a.size stamp (coreDie a.core) a.core (a.tid % 32) a.id l.lineId l.spansPod →
    s.waterline (s.homeOf (coreDie a.core) l tgt).1 (s.homeOf (coreDie a.core) l tgt).2 l.lineId ≤ stamp →
    (s.stampLines = [] → ∃ t, exec (.stampArrival n) s = .next t ∧ Landed s t n ∧ t.mem = s.mem ∧
      t.stampLines = [.mk (tgt.key / 128) (s.homeOf (coreDie a.core) l tgt).1 (s.homeOf (coreDie a.core) l tgt).2 [x] [] [(0, s.readHome (tgt.key / 128 * 128) 128)]]) ∧
    (∀ k, s.stampLines = [k] → k.line = tgt.key / 128 → 4 ≤ k.pending.length →
      (∀ y ∈ k.pending ++ k.waiting, s.waterline k.die k.slice y.firstDie ≤ y.stamp) →
      s.waterline k.die k.slice l.lineId ≤ stamp →
      ∃ t, exec (.stampArrival n) s = .next t ∧ Landed s t n ∧ t.mem = s.mem ∧ t.stampLines = [{ k with waiting := k.waiting ++ [x] }])) ∧
  (∀ (s : State) (first : Nat),
    ((∃ f ∈ s.formedLines, f.1 = first ∧ s.now < f.2.2 + 50) → exec (.waterlineForm first) s = .next s) ∧
    (s.lineDies first ≠ [] → (∀ f ∈ s.formedLines, f.1 = first → f.2.2 + 50 ≤ s.now) → ∃ t, exec (.waterlineForm first) s = .next t ∧
      t.mem = s.mem ∧ t.stampLines = s.stampLines ∧ t.waterlines = s.waterlines ∧ s.formed first ≤ t.formed first ∧
      (∀ d ∈ s.lineDies first, t.formed first ≤ max (s.formed first) (s.contribution d)))) ∧
  (∀ (s : State) (die slice : Nat) (f : Nat × Nat × Nat), s.formedLines = [f] → f.1 ≠ 99 → (s.partDies f.1).contains die = true →
    ((∀ k ∈ s.stampLines, ¬(k.die = die ∧ k.slice = slice)) → ∃ t, exec (.waterlineDelivery die slice) s = .next t ∧
      t = { s with waterlines := t.waterlines } ∧ t.waterline die slice f.1 = max (s.waterline die slice f.1) f.2.1) ∧
    (∀ k x, s.canonical = true → s.stampLines = [k] → k.die = die → k.slice = slice → k.pending = [x] → k.waiting = [] →
      x.firstDie = f.1 → x.stamp < f.2.1 →
      ∃ t, exec (.waterlineDelivery die slice) s = .next t ∧ t.scratch = s.scratch ∧ Stored s.mem t.mem x.key (leBytes x.size x.value) ∧
        ∃ vs, t.stampLines = [{ k with pending := [], versions := (x.stamp, t.readHome (x.key / 128 * 128) 128) :: vs }]))

/-- R191, R192: PDISC of a length of 0 owes 0 and does nothing; of a range of the launch's polder lines it sends the discard.
PMOVE of a range of polder pages sends the move, or owes 3 at once where another overlaps, 2 where its lease is already evicted. An
address that is no multiple of a line, or of a page, raises ALIGN.
R123, R124, R192, R365: PMOVE_COMPLETE under a live lease gives the pages their new home and returns 0 where the target has room, with
one integrity record for each of their lines whose check value differs, which stays so, and returns 1 and moves nothing where it has
none; POLDER_MIGRATION_ORDER moves the pages of its range where the target has room, and
loses them where it has none and no late frame is declared; it does nothing outside a polder region.
A range that spans several polder regions is taken region by region, its trap operand is the address, and of several statuses of Table 15
BACKED, DONE, EVICTED and NOROOM come in this order: the model's own choices of log 134, log 135 and log 137.
Rests on the model's own choices of log 7, log 59, log 105, log 124, log 134, log 135 and log 137. -/
def Obligations.Polders : Prop :=
  (∀ (sw : Bool) (d a b : Reg) (s : State) (g : Group) (l : Launch), s.launch g.ctx = some l → issuable (.pdisc sw d a b) s g = true →
    (Members s g (fun u => u.readPair a.toNat % 128 = 0 ∧ u.readW b.toNat = 0) →
      Performs (.pdisc sw d a b) s g (fun u v => Owes (.pdisc sw d a b) (g.pc + 4) d.toNat [0] u v)) ∧
    (Members s g (fun u => u.readPair a.toNat % 128 = 0 ∧ (u.readW b.toNat).toNat % 128 = 0 ∧ u.readW b.toNat ≠ 0 ∧
        ∀ j < (u.readW b.toNat).toNat / 128, (l.polderAt (u.readPair a.toNat + 128 * j)).isSome = true) →
      Sends (.pdisc sw d a b) s g
        (perMember s g 1 (fun id u => [sentAccess s g .ord (.discard (u.readW b.toNat).toNat) (u.readPair a.toNat)
          (u.readW b.toNat).toNat 0 (some u.nextSlot) id u]))
        (fun u v => Went (.pdisc sw d a b) (g.pc + 4) { u with
          results := u.results ++ [owing u 0 d.toNat 1], nextSlot := u.nextSlot + 1 } u v)) ∧
    (∀ k ks u, g.tids = k :: ks → s.threadOf g.ctx g.wg k = some u → u.tx.active = false → u.readPair a.toNat % 128 ≠ 0 →
      Traps (.pdisc sw d a b) s g .align (u.readPair a.toNat) k)) ∧
  (∀ (sw : Bool) (d a b : Reg) (s : State) (g : Group) (l : Launch) (k : Nat) (u : Thread) (r : Region), s.launch g.ctx = some l →
    issuable (.pmove sw d a b) s g = true → g.tids = [k] → s.threadOf g.ctx g.wg k = some u →
    l.polderAt (u.readPair a.toNat) = some r → u.readPair a.toNat % r.pageBytes = 0 → MoveRange l r (u.readPair a.toNat) (u.readW b.toNat).toNat →
    (u.readW (b.toNat + 1)).toNat / 8 % 2 ^ 13 = 0 →
    (∃ y ∈ s.leases ++ s.evicted ++ s.wgs.flatMap (fun w => w.savedLeases), y.released = false ∧ y.ctx = g.ctx ∧ y.cls = 2 ∧
      y.handle / 4 = (u.readW (b.toNat + 1)).toNat / 2 ^ 18 ∧ (u.readW (b.toNat + 1)).toNat / 2 ^ 16 % 4 < y.count) →
    (moveBusy s g.ctx (u.readPair a.toNat) (u.readW b.toNat).toNat = true →
      Performs (.pmove sw d a b) s g (fun u v => Owes (.pmove sw d a b) (g.pc + 4) d.toNat [3] u v)) ∧
    (moveBusy s g.ctx (u.readPair a.toNat) (u.readW b.toNat).toNat = false →
      (∃ y ∈ s.evicted, y.ctx = g.ctx ∧ y.handle / 4 = (u.readW (b.toNat + 1)).toNat / 2 ^ 18) →
      (∀ p ∈ l.polderParts (u.readPair a.toNat) (u.readW b.toNat).toNat, p.1.home ≠ (u.readW (b.toNat + 1)).toNat % 8 ∧
        ∀ pg ∈ pagesOf p.1 p.2.1 p.2.2, s.polderPage l.ctx pg = none) → 0 < (u.readW b.toNat).toNat →
      Performs (.pmove sw d a b) s g (fun u v => Owes (.pmove sw d a b) (g.pc + 4) d.toNat [2] u v)) ∧
    (moveBusy s g.ctx (u.readPair a.toNat) (u.readW b.toNat).toNat = false →
      (∀ y ∈ s.evicted, ¬(y.ctx = g.ctx ∧ y.handle / 4 = (u.readW (b.toNat + 1)).toNat / 2 ^ 18)) →
      Sends (.pmove sw d a b) s g
        [sentAccess s g .ord (.move (u.readW b.toNat).toNat ((u.readW (b.toNat + 1)).toNat % 8) ((u.readW (b.toNat + 1)).toNat / 2 ^ 16))
          (u.readPair a.toNat) (u.readW b.toNat).toNat 0 (some u.nextSlot) s.nextId u]
        (fun u v => Went (.pmove sw d a b) (g.pc + 4) { u with
          results := u.results ++ [owing u 0 d.toNat 1], nextSlot := u.nextSlot + 1 } u v))) ∧
  (∀ (sw : Bool) (d a b : Reg) (s : State) (g : Group) (l : Launch) (k : Nat) (ks : List Nat) (u : Thread), s.launch g.ctx = some l →
    issuable (.pmove sw d a b) s g = true → g.tids = k :: ks → s.threadOf g.ctx g.wg k = some u →
    (∀ r n, l.polderAt (u.readPair a.toNat) = some r → n = (u.readW b.toNat).toNat →
      (u.readPair a.toNat % r.pageBytes ≠ 0 ∨ (u.readPair a.toNat + n ≤ r.base + r.size ∧ n % r.pageBytes ≠ 0) ∨
          (1 < (l.polderParts (u.readPair a.toNat) n).length ∧
            ∃ p ∈ l.polderParts (u.readPair a.toNat) n, p.2.1 % p.1.pageBytes ≠ 0 ∨ p.2.2 % p.1.pageBytes ≠ 0) →
        Traps (.pmove sw d a b) s g .align (u.readPair a.toNat) k) ∧
      (u.readPair a.toNat % r.pageBytes = 0 → n % r.pageBytes = 0 → r.base + r.size < u.readPair a.toNat + n →
        l.polderAt (r.base + r.size) = none → Traps (.pmove sw d a b) s g .access (u.readPair a.toNat) k)) ∧
    (l.polderAt (u.readPair a.toNat) = none → Traps (.pmove sw d a b) s g .access (u.readPair a.toNat) k)) ∧
  (∀ (s : State) (n bytes target handle slot : Nat) (a : Access) (l : Launch) (u : Thread) (ps : List (Region × Nat × Nat)), Due s n a →
    a.op = .move bytes target handle → a.slot = some slot → s.launch a.ctx = some l → ps = l.polderParts a.addr bytes →
    s.threadOf a.ctx a.wg a.tid = some u → (∀ y ∈ s.evicted, ¬(y.ctx = a.ctx ∧ y.handle / 4 = handle / 4)) →
    (∀ p ∈ ps, p.1.home ≠ target ∧ ∀ pg ∈ pagesOf p.1 p.2.1 p.2.2, s.polderPage a.ctx pg = none) → (∃ p ∈ ps, pagesOf p.1 p.2.1 p.2.2 ≠ []) →
    ((ps.map (fun p => s.pagesHeld a.ctx p.1 (pagesOf p.1 p.2.1 p.2.2))).sum ≤ s.polderRoom l target →
      ∃ t, exec (.pmoveComplete n) s = .next t ∧ Landed s t n ∧ t.mem = s.mem ∧ t.threadOf a.ctx a.wg a.tid = some (u.fillSlot slot [some 0]) ∧
        t.badCheck = s.badCheck ∧
        (∀ r m, ps = [(r, a.addr, m)] →
          t.faultQueue.length = s.faultQueue.length + (s.badLines a.ctx r (pagesOf r a.addr m)).length) ∧
        ∀ p ∈ ps, ∀ pg ∈ pagesOf p.1 p.2.1 p.2.2, t.polderPage a.ctx pg = some (.moved target)) ∧
    (s.polderRoom l target < (ps.map (fun p => s.pagesHeld a.ctx p.1 (pagesOf p.1 p.2.1 p.2.2))).sum →
      ∃ t, exec (.pmoveComplete n) s = .next t ∧ Landed s t n ∧ t.mem = s.mem ∧ t.threadOf a.ctx a.wg a.tid = some (u.fillSlot slot [some 1]) ∧
        t.polderPages = s.polderPages)) ∧
  (∀ (s : State) (ctx base bytes target : Nat) (byDevice : Bool) (l : Launch), s.launch ctx = some l →
    (l.polderAt base = none → exec (.polderMigrationOrder ctx base bytes target byDevice) s = .next s) ∧
    (∀ r ps, l.polderAt base = some r → ps = l.polderParts base bytes →
      (s.bytesToMove l base bytes target ≤ s.polderRoom l target + s.polderSpare target →
        ∃ t, exec (.polderMigrationOrder ctx base bytes target byDevice) s = .next t ∧ t.mem = s.mem ∧ t.badCheck = s.badCheck ∧
          (s.badCheck = [] → t = { s with polderPages := t.polderPages }) ∧
          ∀ p ∈ ps, ∀ pg ∈ pagesOf p.1 p.2.1 p.2.2, p.1.home ≠ target → s.polderPage ctx pg = none →
            t.polderPage ctx pg = some (.moved target)) ∧
      (s.polderRoom l target + s.polderSpare target < s.bytesToMove l base bytes target →
        (∀ p ∈ ps, p.1.late = false) → (∀ a ∈ s.flight, a.ctx ≠ ctx) →
        ∃ t, exec (.polderMigrationOrder ctx base bytes target byDevice) s = .next t ∧
          ∀ p ∈ ps, ∀ pg ∈ pagesOf p.1 p.2.1 p.2.2, p.1.home ≠ target → s.polderPage ctx pg = none →
            t.polderPage ctx pg = some (.lost byDevice))))

/-- R194 to R200: LEASE takes a booking that it matches, is DENIED where the workgroup holds eight leases or its die is
quiescing, and is granted at once on its own die where nothing waits and the sites and the budget are there; LREL releases what
it names; LSTAT answers without changing anything; LWAIT sleeps.
Rests on the model's own choices of log 54 and log 55. -/
def Obligations.Leases : Prop :=
  (∀ (sw : Bool) (d a b : Reg) (s : State) (g : Group) (l : Launch) (w : Workgroup) (k : Nat) (u : Thread) (x y : Nat),
    s.launch g.ctx = some l → s.wgOf g.ctx g.wg = some w → issuable (.lease sw d a b) s g = true → g.tids = [k] →
    s.threadOf g.ctx g.wg k = some u → x = (u.readW a.toNat).toNat → y = (u.readW b.toNat).toNat → x < 32 → x % 8 < 5 → y < 8 →
    (∀ bk, l.matchBooking w.slot (x % 8) (x / 8 + 1) (fun b => bitOf y 2 && s.bookingLingers g.ctx g.wg b) = some bk →
      State.fitsAwake bk.die l.img.opclass bk.sites s = true →
      (∀ i ∈ bk.sites, ∀ le ∈ s.leases, le.die = bk.die → i ∉ le.sites) →
      ∃ le : Lease, le.sites = bk.sites ∧ le.die = bk.die ∧ le.cls = bk.cls ∧ le.reserved = true ∧ le.ctx = g.ctx ∧ le.wg = g.wg ∧
        Answers (.lease sw d a b) s g k d (BitVec.ofNat 32 le.handle) (fun t _ => t.leases = s.leases ++ [le])) ∧
    (l.matchBooking w.slot (x % 8) (x / 8 + 1) (fun b => bitOf y 2 && s.bookingLingers g.ctx g.wg b) = none →
      (8 ≤ (s.leases.filter (fun le => le.ctx == g.ctx && le.wg == g.wg)).length →
        Performs (.lease sw d a b) s g (fun u v => Owes (.lease sw d a b) (g.pc + 4) d.toNat [0xFFFFFFF6] u v)) ∧
      ((s.leases.filter (fun le => le.ctx == g.ctx && le.wg == g.wg)).length < 8 →
        (l.supervisor = false → (s.die (coreDie g.core)).pqc.toNat % 2 = 1 →
          Performs (.lease sw d a b) s g (fun u v => Owes (.lease sw d a b) (g.pc + 4) d.toNat [0xFFFFFFF6] u v)) ∧
        (∀ sites, (s.die (coreDie g.core)).pqc.toNat % 2 = 0 → s.dieQueue (coreDie g.core) = [] →
          x / 8 + 1 ≤ (s.classSites (coreDie g.core) (x % 8)).length →
          s.fitGrant (coreDie g.core) (x % 8) (x / 8 + 1) g.ctx g.wg l.img.opclass (bitOf y 2) = some (sites, []) →
          ∃ le : Lease, le.sites = sites ∧ le.die = coreDie g.core ∧ le.cls = x % 8 ∧ le.reserved = false ∧ le.ctx = g.ctx ∧
            le.wg = g.wg ∧
            Answers (.lease sw d a b) s g k d (BitVec.ofNat 32 le.handle) (fun t _ => t.leases = s.leases ++ [le]))))) ∧
  (∀ (sw : Bool) (d a : Reg) (s : State) (g : Group) (k : Nat) (u : Thread) (x : Nat), issuable (.lrel sw d a) s g = true →
    g.tids = [k] → s.threadOf g.ctx g.wg k = some u → x = (u.readW a.toNat).toNat →
    (∀ r, s.nameTicket g.ctx g.wg x = some r →
      Answers (.lrel sw d a) s g k d 0 (fun t _ => t.requests = s.requests.filter (fun y => y != r) ∧ t.leases = s.leases)) ∧
    (s.nameTicket g.ctx g.wg x = none →
      (∀ le m, s.nameWord g.ctx g.wg x = .member le m →
        Answers (.lrel sw d a) s g k d 0 (fun t _ =>
          t.leases = s.leases.filter (fun y => y.handle != le.handle || y.ctx != le.ctx || y.wg != le.wg))) ∧
      (∀ le, s.nameWord g.ctx g.wg x = .evicted le →
        Answers (.lrel sw d a) s g k d 0 (fun t _ => t.evicted = s.evicted.filter (fun y => y != le))) ∧
      (s.nameWord g.ctx g.wg x = .bad →
        Performs (.lrel sw d a) s g (fun u v => Owes (.lrel sw d a) (g.pc + 4) d.toNat [0xFFFFFFF3] u v)))) ∧
  (∀ (sw : Bool) (d a : Reg) (s : State) (g : Group), issuable (.lstat sw d a) s g = true →
    Performs (.lstat sw d a) s g (fun u v => ∃ r : Word,
      (∀ q, s.nameTicket g.ctx g.wg (u.readW a.toNat).toNat = some q → r.toNat = min (s.ahead q) 0x1FFF * 2 ^ 3 + 1) ∧
      (s.nameTicket g.ctx g.wg (u.readW a.toNat).toNat = none →
        (s.nameWord g.ctx g.wg (u.readW a.toNat).toNat = .bad → r = 0) ∧
        (∀ le, s.nameWord g.ctx g.wg (u.readW a.toNat).toNat = .evicted le → r = 4) ∧
        (∀ le m, s.nameWord g.ctx g.wg (u.readW a.toNat).toNat = .member le m → le.die < 8 → le.site m < 100 →
          r.toNat / 2 ^ 25 = le.site m ∧ r.toNat / 2 ^ 22 % 8 = le.die ∧ (r.getLsbD 16 = le.reserved) ∧ (r.getLsbD 17 = le.kept) ∧
          (r.toNat % 8 = 3 ↔ (s.siteOf le.die (le.site m)).power = .awake) ∧
          (r.toNat % 8 = 2 ↔ (s.siteOf le.die (le.site m)).power ≠ .awake))) ∧
      Owes (.lstat sw d a) (g.pc + 4) d.toNat [r] u v)) ∧
  (∀ (sw : Bool) (d a : Reg) (s : State) (g : Group), issuable (.lwait sw d a) s g = true →
    Performs (.lwait sw d a) s g (fun u v =>
      Sleeps (.lwait sw d a) (.lwait (u.readW a.toNat).toNat) (waitLimit s g) (s.dieTime (coreDie g.core)) (g.pc + 4) (some d.toNat) u v))

/-- R204, R205, R209, R114: a lone member's streaming command whose steps pass is queued at its site, owing 0 (ACCEPTED); with
32 entries there, the declared depth of a reserved lease among them used up (R304), it owes FULL and changes nothing. TCOPYM queues its follow-on behind its copy.
Rests on the model's own choice of log 42. -/
def Obligations.Commands : Prop :=
  (∀ p ∈ streamTable, ∀ (sw : Bool) (d a b : Reg) (s : State) (g : Group) (l : Launch) (k : Nat) (u : Thread) (c : Command) (le : Lease)
    (m : Nat), s.launch g.ctx = some l → issuable (p.1 sw d a b) s g = true → g.tids = [k] → s.threadOf g.ctx g.wg k = some u →
    Quiet s g → readCommand s g k (u.readPair a.toNat) p.2 = .ok c → CommandPasses s g l u.parent (u.readW b.toNat).toNat c le m → c.follow = none →
    ((s.siteOf le.die (le.site m)).queue.length < 32 →
      ∃ e, Answers (p.1 sw d a b) s g k d 0 (fun t v => Enqueued s t g k le m c.kind e ∧ v.openBatch.isSome = true ∧
        (∀ f ∈ c.kind.fills, (t.tileOf (coreCluster g.core) f.1).any (fun x => x.state == .filling && x.type == f.2.1 && x.rows == f.2.2) = true))) ∧
    (32 ≤ (s.siteOf le.die (le.site m)).queue.length →
      s.declaredDepth le ≤ ((s.siteOf le.die (le.site m)).queue.filter (fun e => e.handle == le.handle && e.ctx == le.ctx)).length →
      Performs (p.1 sw d a b) s g (fun u v => Owes (p.1 sw d a b) (g.pc + 4) d.toNat [0xFFFFFFF0] u v))) ∧
  (∀ (sw : Bool) (d a b : Reg) (s : State) (g : Group) (l : Launch) (k : Nat) (u : Thread) (c : Command) (le lf : Lease) (m mf : Nat)
    (w : MatrixWord) (ta tb : Nat), s.launch g.ctx = some l → issuable (.tcopym sw d a b) s g = true → g.tids = [k] →
    s.threadOf g.ctx g.wg k = some u → Quiet s g → readCommand s g k (u.readPair a.toNat) .tcopym = .ok c →
    CommandPasses s g l u.parent (u.readW b.toNat).toNat c le m → c.follow = some (w, ta, tb) → handleStep s g w.handle 0 = .ok (lf, mf) →
    (le.die, le.site m) ≠ (lf.die, lf.site mf) → accIllegal s lf mf w ta = false → followIllegal s (coreCluster g.core) c = false →
    (∀ x ∈ tileWaits c, (s.heldTile g.ctx (coreCluster g.core) x.1).isSome = true ∧ s.tileWaitDone (coreCluster g.core) x = true) →
    (s.siteOf le.die (le.site m)).queue.length < 32 → (s.siteOf lf.die (lf.site mf)).queue.length < 32 →
    ∃ e f, Answers (.tcopym sw d a b) s g k d 0 (fun t _ => Enqueued s t g k le m c.kind e ∧ Enqueued s t g k lf mf (.mxma w ta tb) f ∧
      f.after = some e.id ∧ (t.siteOf lf.die (lf.site mf)).lastA = some (ta, w.start, w.groups)))

/-- R206, R216, R217, R218: a lone member's QFENCE of one handle queues a fence there; of none it raises ILLEGAL; BSEAL closes
the open batch under the next number, or owes FULL with 16 unfinished; BWAIT sleeps; BSTAT owes the record, or GONE. -/
def Obligations.FencesAndBatches : Prop :=
  (∀ (sw : Bool) (d a : Reg) (s : State) (g : Group) (k : Nat) (u : Thread), issuable (.qfence sw d a) s g = true → g.tids = [k] →
    s.threadOf g.ctx g.wg k = some u →
    (u.readPair a.toNat = 0 → Traps (.qfence sw d a) s g .illegal 0 k) ∧
    (∀ le m, 0 < u.readPair a.toNat → u.readPair a.toNat < 2 ^ 16 → s.nameHandle g.ctx g.wg (u.readPair a.toNat) = .member le m →
      ((s.siteOf le.die (le.site m)).queue.length < 32 →
        ∃ e j, Answers (.qfence sw d a) s g k d 0 (fun t _ => Enqueued s t g k le m (.fence j) e)) ∧
      (32 ≤ (s.siteOf le.die (le.site m)).queue.length →
        s.declaredDepth le ≤ ((s.siteOf le.die (le.site m)).queue.filter (fun e => e.handle == le.handle && e.ctx == le.ctx)).length →
        Performs (.qfence sw d a) s g (fun u v => Owes (.qfence sw d a) (g.pc + 4) d.toNat [0xFFFFFFF0] u v)))) ∧
  (∀ (sw : Bool) (d : Reg) (s : State) (g : Group) (k : Nat) (u : Thread), issuable (.bseal sw d) s g = true → g.tids = [k] →
    s.threadOf g.ctx g.wg k = some u →
    ((u.batches.filter (fun b => decide (b.finished < b.entries))).length < 16 →
      Answers (.bseal sw d) s g k d (BitVec.ofNat 32 (if u.batchNo < 2 ^ 31 - 1 then u.batchNo + 1 else 1)) (fun _ v =>
        v.openBatch = none ∧ v.batchNo = (if u.batchNo < 2 ^ 31 - 1 then u.batchNo + 1 else 1) ∧
        v.batches.tail.take 63 = u.batches.take 63 ∧ (∀ b ∈ u.batches, b.finished < b.entries → b ∈ v.batches) ∧
        (v.batches.head?).map Batch.number = some v.batchNo ∧
        (∀ b, u.openBatch = some b → (v.batches.head?).map Batch.entries = some b.entries))) ∧
    (16 ≤ (u.batches.filter (fun b => decide (b.finished < b.entries))).length →
      Performs (.bseal sw d) s g (fun u v => Owes (.bseal sw d) (g.pc + 4) d.toNat [0xFFFFFFF0] u v))) ∧
  (∀ (sw : Bool) (d a : Reg) (s : State) (g : Group), issuable (.bwait sw d a) s g = true →
    Performs (.bwait sw d a) s g (fun u v =>
      Sleeps (.bwait sw d a) (.bwait (u.readW a.toNat).toNat) (waitLimit s g) (s.dieTime (coreDie g.core)) (g.pc + 4) (some d.toNat) u v)) ∧
  (∀ (sw : Bool) (d a : Reg) (s : State) (g : Group), issuable (.bstat sw d a) s g = true →
    Performs (.bstat sw d a) s g (fun u v => ∃ r,
      ((∀ b ∈ u.batches.take 64, b.number ≠ (u.readW a.toNat).toNat) → r = [some 0xFFFFFFF9, some 0, some 0, some 0]) ∧
      (∀ b, (u.batches.take 64).find? (fun b => b.number == (u.readW a.toNat).toNat) = some b → r = batchWords b) ∧
      Went (.bstat sw d a) (g.pc + 4) { u with
        results := u.results ++ [.mk u.nextSlot ((rangeFrom d.toNat 4).map u.phys) (some r)], nextSlot := u.nextSlot + 1 } u v))

/-- R220 to R224: a lone member's MXMA, ACCZ or ACCOUT whose checks pass is queued at its MX site, owing 0: MXMA with a reader
more on each tile, ACCZ recording its type for the accumulator, ACCOUT with its tile filling. A handle that names nothing owes
BADHANDLE.
Rests on the model's own choices of log 42 and log 47. -/
def Obligations.Matrix : Prop :=
  (∀ (sw : Bool) (d a b : Reg) (s : State) (g : Group) (k : Nat) (u : Thread) (w : MatrixWord) (ta tb : Nat),
    issuable (.mxma sw d a b) s g = true → g.tids = [k] → s.threadOf g.ctx g.wg k = some u → w = parseMatrix (u.readW d.toNat).toNat →
    ta = (u.readW a.toNat).toNat → tb = (u.readW b.toNat).toNat → ta < 1024 → tb < 1024 → w.type < 5 →
    w.start + w.groups ≤ Config.typeGroups w.type →
    (s.nameHandle g.ctx g.wg w.handle = .bad →
      Performs (.mxma sw d a b) s g (fun u v => Owes (.mxma sw d a b) (g.pc + 4) d.toNat [0xFFFFFFF3] u v)) ∧
    (∀ le m x y, handleStep s g w.handle 0 = .ok (le, m) → ((s.siteOf le.die (le.site m)).acc w.acc).recorded = some w.type →
      (w.keep = true → (s.siteOf le.die (le.site m)).lastA = some (ta, w.start, w.groups)) →
      s.heldTile g.ctx (coreCluster g.core) ta = some x → s.heldTile g.ctx (coreCluster g.core) tb = some y → x.state = .ready →
      y.state = .ready → x.type = w.type → y.type = w.type → (s.siteOf le.die (le.site m)).queue.length < 32 →
      ∃ e, Answers (.mxma sw d a b) s g k d 0 (fun t _ => Enqueued s t g k le m (.mxma w ta tb) e ∧
        (t.siteOf le.die (le.site m)).lastA = some (ta, w.start, w.groups) ∧
        (ta ≠ tb → (t.tileOf (coreCluster g.core) ta).map Tile.readers = some (x.readers + 1) ∧
          (t.tileOf (coreCluster g.core) tb).map Tile.readers = some (y.readers + 1))))) ∧
  (∀ (sw : Bool) (d : Reg) (s : State) (g : Group) (k : Nat) (u : Thread) (w : MatrixWord) (le : Lease) (m : Nat),
    issuable (.accz sw d) s g = true → g.tids = [k] → s.threadOf g.ctx g.wg k = some u → w = parseMatrix (u.readW d.toNat).toNat →
    w.type < 5 → (u.readW d.toNat).toNat % 2 ^ 12 = 0 → handleStep s g w.handle 0 = .ok (le, m) →
    (s.siteOf le.die (le.site m)).queue.length < 32 →
    ∃ e, Answers (.accz sw d) s g k d 0 (fun t _ => Enqueued s t g k le m (.accz w.acc w.type) e ∧
      ((t.siteOf le.die (le.site m)).acc w.acc).recorded = some w.type)) ∧
  (∀ (sw : Bool) (d a : Reg) (s : State) (g : Group) (k : Nat) (u : Thread) (w : MatrixWord) (le : Lease) (m n : Nat) (x : Tile),
    issuable (.accout sw d a) s g = true → g.tids = [k] → s.threadOf g.ctx g.wg k = some u → w = parseMatrix (u.readW d.toNat).toNat →
    w.type = 0 ∨ w.type = 2 ∨ w.type = 4 → (u.readW d.toNat).toNat % 2 ^ 12 = 0 → handleStep s g w.handle 0 = .ok (le, m) →
    ((s.siteOf le.die (le.site m)).acc w.acc).recorded.isSome = true → n = (u.readW a.toNat).toNat % 2 ^ 10 →
    s.heldTile g.ctx (coreCluster g.core) n = some x → x.state = .empty → (s.siteOf le.die (le.site m)).queue.length < 32 →
    ∃ e, Answers (.accout sw d a) s g k d 0 (fun t _ => Enqueued s t g k le m (.accout w.acc w.type n) e ∧
      (t.tileOf (coreCluster g.core) n).any (fun y => y.state == .filling && y.type == w.type && y.rows == 64) = true))

/-- R113, R114, R226, R227, R229: for a lone member TALLOC takes the lowest free tile, empty, or owes NOTILE at the declared
number; TFREE frees a held tile that is empty or ready without readers, or owes BUSY; TSTATE answers the tile's word; TSET
releases a ready tile, or owes WRONGSTATE; TWAIT sleeps. A tile that the launch does not hold raises ACCESS. -/
def Obligations.Tiles : Prop :=
  (∀ (sw : Bool) (d : Reg) (s : State) (g : Group) (l : Launch) (k : Nat), s.launch g.ctx = some l → issuable (.talloc sw d) s g = true →
    g.tids = [k] →
    (l.img.tiles ≤ (s.tiles.filter (fun t => t.cluster == coreCluster g.core && t.ctx == g.ctx)).length →
      Performs (.talloc sw d) s g (fun u v => Owes (.talloc sw d) (g.pc + 4) d.toNat [0xFFFFFFF8] u v)) ∧
    (∀ n, (s.tiles.filter (fun t => t.cluster == coreCluster g.core && t.ctx == g.ctx)).length < l.img.tiles → n < 1024 →
      (∀ t ∈ s.tiles, t.cluster = coreCluster g.core → t.number ≠ n) →
      (∀ j < n, ∃ t ∈ s.tiles, t.cluster = coreCluster g.core ∧ t.number = j) →
      Answers (.talloc sw d) s g k d (BitVec.ofNat 32 n) (fun t _ => ∃ x : Tile, t.tiles = s.tiles ++ [x] ∧ x.cluster = coreCluster g.core ∧
        x.number = n ∧ x.state = .empty ∧ x.fault = false ∧ x.readers = 0 ∧ x.ctx = g.ctx))) ∧
  (∀ (sw : Bool) (d a : Reg) (s : State) (g : Group) (k : Nat) (u : Thread) (n : Nat) (x : Tile), g.tids = [k] →
    s.threadOf g.ctx g.wg k = some u → n = (u.readW a.toNat).toNat → n < 1024 → s.heldTile g.ctx (coreCluster g.core) n = some x →
    (issuable (.tfree sw d a) s g = true →
      ((x.state = .empty ∨ x.state = .ready) ∧ x.readers = 0 →
        Answers (.tfree sw d a) s g k d 0 (fun t _ => t.tileOf (coreCluster g.core) n = none)) ∧
      (¬((x.state = .empty ∨ x.state = .ready) ∧ x.readers = 0) →
        Performs (.tfree sw d a) s g (fun u v => Owes (.tfree sw d a) (g.pc + 4) d.toNat [0xFFFFFFF7] u v))) ∧
    (issuable (.tstate sw d a) s g = true →
      Performs (.tstate sw d a) s g (fun u v => ∃ r : Word,
        r.toNat = (x.readers * 2 ^ 16 + x.rows * 2 ^ 7 + x.type * 2 ^ 4 + (if x.fault = true then 8 else 0) + x.state.num) % 2 ^ 32 ∧
        Owes (.tstate sw d a) (g.pc + 4) d.toNat [r] u v)) ∧
    (issuable (.tset sw d a) s g = true →
      (x.state = .ready ∨ x.state = .draining →
        Answers (.tset sw d a) s g k d 0 (fun t _ =>
          (t.tileOf (coreCluster g.core) n).map Tile.state = some (if x.readers = 0 then .empty else .draining))) ∧
      (x.state = .empty ∨ x.state = .filling →
        Performs (.tset sw d a) s g (fun u v => Owes (.tset sw d a) (g.pc + 4) d.toNat [0xFFFFFFFA] u v)))) ∧
  (∀ (i : Instr) (sw : Bool) (d a : Reg) (s : State) (g : Group) (k : Nat) (u : Thread), i = .tfree sw d a ∨ i = .tstate sw d a ∨ i = .tset sw d a →
    issuable i s g = true → g.tids = [k] → s.threadOf g.ctx g.wg k = some u → (u.readW a.toNat).toNat < 1024 →
    s.heldTile g.ctx (coreCluster g.core) (u.readW a.toNat).toNat = none → Traps i s g .access 0 k) ∧
  (∀ (sw : Bool) (d a b : Reg) (s : State) (g : Group), issuable (.twait sw d a b) s g = true →
    Members s g (fun u => (u.readW a.toNat).toNat < 1024 ∧ (u.readW b.toNat = 1 ∨ u.readW b.toNat = 3) ∧
      (s.heldTile g.ctx (coreCluster g.core) (u.readW a.toNat).toNat).isSome = true) →
    Performs (.twait sw d a b) s g (fun u v =>
      Sleeps (.twait sw d a b) (.twait (u.readW a.toNat).toNat (u.readW b.toNat).toNat) (waitLimit s g) (s.dieTime (coreDie g.core)) (g.pc + 4) (some d.toNat) u v))

/-- R230, R115: LDT and STT of a lone member to a row and offset of a ready tile that its launch holds leave on the tile path,
with a reader more on the tile; while the tile is not ready the thread is held, to issue again. R228: under a limit of 0 the tile is
tested once: LDT owes TIMEOUT to the first word of d, STT leaves it in %tws, and the run goes on. -/
def Obligations.TileAccesses : Prop :=
  ∀ (i : Instr) (sw : Bool) (d a b : Reg) (s : State) (g : Group) (k : Nat) (u : Thread) (w n row off : Nat) (x : Tile),
    i = .ldt sw d a b ∨ i = .stt sw d a b → issuable i s g = true → g.tids = [k] → s.threadOf g.ctx g.wg k = some u →
    w = (u.readW a.toNat).toNat → w < 2 ^ 22 → w / 2 ^ 10 % 2 ^ 6 = 0 → n = w % 2 ^ 10 → row = w / 2 ^ 16 →
    off = (u.readW b.toNat).toNat → off ≤ 575 → off % 16 = 0 → s.heldTile g.ctx (coreCluster g.core) n = some x →
    (x.state = .ready →
      ∃ t v, exec i s = .next t ∧ t.threadOf g.ctx g.wg k = some v ∧ t.mem = s.mem ∧ t.scratch = s.scratch ∧
        (t.tileOf (coreCluster g.core) n).map Tile.readers = some (x.readers + 1) ∧
        (i = .ldt sw d a b → t.flight = s.flight ++ [sentAccess s g .tile (.tileLoad n row off) 0 16 0 (some u.nextSlot) s.nextId u] ∧
          Went i (g.pc + 4) { u with results := u.results ++ [owing u 0 d.toNat 4], nextSlot := u.nextSlot + 1 } u v) ∧
        (i = .stt sw d a b → t.flight = s.flight ++ [sentAccess s g .tile
            (.tileStore n row off (u.readPair d.toNat + u.readPair (d.toNat + 2) * 2 ^ 64)) 0 16 0 none s.nextId u] ∧
          Went i (g.pc + 4) u u v)) ∧
    (x.state ≠ .ready → 0 < waitLimit s g →
      ∃ t v, exec i s = .next t ∧ t.threadOf g.ctx g.wg k = some v ∧ t.flight = s.flight ∧ t.tiles = s.tiles ∧ t.mem = s.mem ∧
        v.status = .held (.tile [(n, false)]) ∧ v.pc = g.pc ∧ v.regs = u.regs ∧ v.results = u.results) ∧
    (x.state ≠ .ready → waitLimit s g = 0 →
      (i = .ldt sw d a b → Performs i s g (fun u v => Owes i (g.pc + 4) d.toNat [0xFFFFFFFF] u v)) ∧
      (i = .stt sw d a b → Performs i s g (fun u v => Went i (g.pc + 4) { u with tws := 0xFFFFFFFF } u v)))

/-- R233 to R236: RGIVE marks its words to leave at the park where the allocation allows it, else WINDOW; a lone member's
RCLAIM sleeps, served at once where its lane's pool holds enough and no claim waits there, or joins the queue, and one that
would pass 1 024 words raises WINDOW; RPOOL owes the pool and the claims of its lane. -/
def Obligations.RegisterLoans : Prop :=
  (∀ (m : BitVec 14) (s : State) (g : Group), issuable (.rgive m) s g = true →
    (Members s g (fun u => m.toNat + 16 ≤ u.regs.length ∧ u.base + m.toNat + 8 ≤ u.regs.length) →
      Performs (.rgive m) s g (fun u v => Went (.rgive m) (g.pc + 4) { u with parkAct := .give m.toNat } u v)) ∧
    (∀ k ks u, g.tids = k :: ks → s.threadOf g.ctx g.wg k = some u →
      (u.regs.length < m.toNat + 16 ∨ u.regs.length < u.base + m.toNat + 8) → Traps (.rgive m) s g .window m.toNat k)) ∧
  (∀ (sw : Bool) (d : Reg) (m : BitVec 14) (s : State) (g : Group) (w : Workgroup) (k : Nat) (u : Thread),
    issuable (.rclaim sw d m) s g = true → g.tids = [k] → s.wgOf g.ctx g.wg = some w → s.threadOf g.ctx g.wg k = some u →
    (u.regs.length + m.toNat ≤ 1024 → (∀ j ∈ w.claims, j % 32 ≠ k % 32) →
      (m.toNat ≤ w.poolOf (k % 32) → ∃ t v x, exec (.rclaim sw d m) s = .next t ∧ t.threadOf g.ctx g.wg k = some v ∧
        t.wgOf g.ctx g.wg = some x ∧ x.poolOf (k % 32) = w.poolOf (k % 32) - m.toNat ∧ x.claims = w.claims ∧ t.mem = s.mem ∧
        v.status = .asleep (.rclaim m.toNat) ∧ v.regs = u.regs ++ List.replicate m.toNat 0 ∧
        v.results.getLast? = some (.mk u.nextSlot [u.phys d.toNat] (some [some (BitVec.ofNat 32 (u.regs.length + m.toNat))]))) ∧
      (w.poolOf (k % 32) < m.toNat → ∃ t v x, exec (.rclaim sw d m) s = .next t ∧ t.threadOf g.ctx g.wg k = some v ∧
        t.wgOf g.ctx g.wg = some x ∧ x.pools = w.pools ∧ x.claims = w.claims ++ [k] ∧ t.mem = s.mem ∧
        Sleeps (.rclaim sw d m) (.rclaim m.toNat) (waitLimit s g) (s.dieTime (coreDie g.core)) (g.pc + 4) (some d.toNat) u v)) ∧
    (1024 < u.regs.length + m.toNat → Traps (.rclaim sw d m) s g .window (u.regs.length + m.toNat) k)) ∧
  (∀ (sw : Bool) (d : Reg) (s : State) (g : Group) (w : Workgroup), s.wgOf g.ctx g.wg = some w → issuable (.rpool sw d) s g = true →
    Performs (.rpool sw d) s g (fun u v => ∃ r : Word,
      r.toNat = w.poolOf (u.tid % 32) % 2 ^ 16 + (w.claims.filter (fun j => j % 32 == u.tid % 32)).length % 2 ^ 8 * 2 ^ 16 ∧
      Owes (.rpool sw d) (g.pc + 4) d.toNat [r] u v))

/-- R239, R241, R242: a lone member's SPAWN to a declared entry, below its site's bound, sends its record with its six
arguments and owes its count; the target that no entry declares raises ILLEGAL, the bound reached BOUND. TOKW owes 1 outside
`.det`, 2 once the token has passed, and else sleeps; TOKP passes the token that its workgroup holds.
R176, R177, R174: DET_REDUCTION_ARRIVAL buffers an update at its home slice's unit while fewer than 16 wait there, and keeps it
at its core otherwise; DET_END_MARKER of a workgroup that does not pass the token changes nothing, and of one that does applies its
one buffered update; TOKEN_PASS hands the token on once nothing of the workgroup's is left.
Rests on the model's own choices of log 53 and log 58. -/
def Obligations.SpawnAndToken : Prop :=
  (∀ (sw : Bool) (d a b : Reg) (s : State) (g : Group) (l : Launch) (k : Nat) (u : Thread) (target n : Nat), s.launch g.ctx = some l →
    issuable (.spawn sw d a b) s g = true → g.tids = [k] → s.threadOf g.ctx g.wg k = some u → target = (u.readW a.toNat).toNat →
    n = ((u.spawned.find? (fun p => p.1 == g.pc)).map (fun p => p.2)).getD 0 → b.toNat ≤ 122 →
    (target % 4 = 0 → target < l.img.codeLen → (∃ e ∈ l.img.spawns, e.target = target) →
      (∀ e, (l.img.spawns.filter (fun e => e.site == g.pc)).head? = some e → n < e.bound →
        ∃ t v, exec (.spawn sw d a b) s = .next t ∧ t.threadOf g.ctx g.wg k = some v ∧ t.mem = s.mem ∧
          t.flight = s.flight ++ [sentAccess s g .ord (.record target ((rangeFrom b.toNat 6).map u.readW) u.spawnSeq) 0 0 0 none s.nextId u] ∧
          Went (.spawn sw d a b) (g.pc + 4) { u with
            results := u.results ++ [.mk u.nextSlot [u.phys d.toNat] (some [some (BitVec.ofNat 32 (n + 1))])],
            nextSlot := u.nextSlot + 1, spawned := (g.pc, n + 1) :: u.spawned.filter (fun p => p.1 != g.pc),
            spawnSeq := u.spawnSeq + 1 } u v) ∧
      (∀ e, (l.img.spawns.filter (fun e => e.site == g.pc)).head? = some e → e.bound ≤ n → Traps (.spawn sw d a b) s g .bound 0 k)) ∧
    (target % 4 ≠ 0 ∨ l.img.codeLen ≤ target ∨ (∀ e ∈ l.img.spawns, e.target ≠ target) →
      Traps (.spawn sw d a b) s g .illegal target k)) ∧
  (∀ (sw : Bool) (d : Reg) (s : State) (g : Group) (l : Launch), s.launch g.ctx = some l → issuable (.tokw sw d) s g = true →
    (l.img.det = false → Performs (.tokw sw d) s g (fun u v => Owes (.tokw sw d) (g.pc + 4) d.toNat [1] u v)) ∧
    (l.img.det = true → (g.wg < l.token ∨ g.wg = l.token ∧ l.passing = true) →
      Performs (.tokw sw d) s g (fun u v => Owes (.tokw sw d) (g.pc + 4) d.toNat [2] u v)) ∧
    (l.img.det = true → ¬(g.wg < l.token ∨ g.wg = l.token ∧ l.passing = true) →
      Performs (.tokw sw d) s g (fun u v => Sleeps (.tokw sw d) .tokw (waitLimit s g) (s.dieTime (coreDie g.core)) (g.pc + 4) (some d.toNat) u v))) ∧
  (∀ (sw : Bool) (d : Reg) (s : State) (g : Group) (l : Launch) (k : Nat), s.launch g.ctx = some l → issuable (.tokp sw d) s g = true →
    g.tids = [k] →
    (l.img.det = false → Performs (.tokp sw d) s g (fun u v => Owes (.tokp sw d) (g.pc + 4) d.toNat [1] u v)) ∧
    (l.img.det = true → (g.wg < l.token ∨ g.wg = l.token ∧ l.passing = true) →
      Performs (.tokp sw d) s g (fun u v => Owes (.tokp sw d) (g.pc + 4) d.toNat [2] u v)) ∧
    (l.img.det = true → g.wg = l.token → l.passing = false →
      Answers (.tokp sw d) s g k d 0 (fun t _ => t.launch g.ctx = some { l with passing := true })) ∧
    (l.img.det = true → l.token < g.wg → Performs (.tokp sw d) s g (fun u v => Owes (.tokp sw d) (g.pc + 4) d.toNat [3] u v))) ∧
  (∀ (s : State) (n v sequence : Nat) (a : Access) (op : AmoOp) (l : Launch) (w : Workgroup) (tgt : Target), Due s n a →
    a.op = .detRed op v sequence → s.launch a.ctx = some l → s.wgOf a.ctx a.wg = some w → l.polderAt a.addr = none →
    s.locateVia (coreCluster a.core) l a.addr = some tgt → NoMoves s →
    ((s.detUnits.filter (fun u => u.die == (s.homeOf (coreDie a.core) l tgt).1 && u.slice == (s.homeOf (coreDie a.core) l tgt).2)).length < 16 →
      ∃ t, exec (.detReductionArrival n) s = .next t ∧ Landed s t n ∧ t.mem = s.mem ∧
        t.detUnits = s.detUnits ++ [.mk a.ctx a.wg a.tid sequence op v tgt.key a.addr (s.homeOf (coreDie a.core) l tgt).1 (s.homeOf (coreDie a.core) l tgt).2]) ∧
    (16 ≤ (s.detUnits.filter (fun u => u.die == (s.homeOf (coreDie a.core) l tgt).1 && u.slice == (s.homeOf (coreDie a.core) l tgt).2)).length →
      ∃ t, exec (.detReductionArrival n) s = .next t ∧ Landed s t n ∧ t.mem = s.mem ∧ t.detUnits = s.detUnits ∧
        (t.wgOf a.ctx a.wg).map Workgroup.redQueue =
          some (w.redQueue ++ [.mk a.ctx a.wg a.tid sequence op v tgt.key a.addr (s.homeOf (coreDie a.core) l tgt).1 (s.homeOf (coreDie a.core) l tgt).2]))) ∧
  (∀ (s : State) (ctx wg : Nat) (l : Launch) (w : Workgroup), s.launch ctx = some l → s.wgOf ctx wg = some w →
    (wg ≠ l.token → exec (.detEndMarker ctx wg) s = .next s) ∧
    (∀ x, s.canonical = true → l.img.det = true → wg = l.token → l.passing = true → (∀ a ∈ s.flight, ¬(a.ctx = ctx ∧ a.wg = wg)) →
      w.saved = .running → s.detUnits.filter (fun u => u.ctx == ctx && u.wg == wg) = [x] → w.redQueue = [] → s.badBlock x.key 4 = none →
      ∃ t, exec (.detEndMarker ctx wg) s = .next t ∧ t.detUnits = s.detUnits.filter (fun u => !(u.ctx == ctx && u.wg == wg)) ∧
        t.scratch = s.scratch ∧ Stored s.mem t.mem x.key (leBytes 4 (amoValue x.op (leNat (s.readHome x.key 4)) x.value 0)))) ∧
  (∀ (s : State) (ctx : Nat) (l : Launch) (w : Workgroup), s.launch ctx = some l → s.wgOf ctx l.token = some w →
    (w.redQueue ≠ [] → exec (.tokenPass ctx) s = .next s) ∧
    (l.img.det = true → l.passing = true → w.saved = .running → w.redQueue = [] → (∀ u ∈ s.detUnits, ¬(u.ctx = ctx ∧ u.wg = l.token)) →
      (∀ a ∈ s.flight, ¬(a.ctx = ctx ∧ a.wg = l.token)) → (∀ x ∈ s.sites, ∀ e ∈ x.queue, ¬(e.ctx = ctx ∧ e.wg = l.token)) →
      ∃ t, exec (.tokenPass ctx) s = .next t ∧ t = { s with launches := t.launches, cores := t.cores } ∧
        (∀ i, t.coreOf i = { s.coreOf i with l1 := (t.coreOf i).l1 }) ∧ t.launch ctx = some { l with token := if l.token + 1 = l.firstWg + l.count then l.grid else l.token + 1, passing := false }))

/-- R243, R244, R245, R246: MFSR owes the mirrors of the user view, the trap registers, %ctx and the own die's registers, as they
are at issue, and sends a read of another die's; MTSR writes %tvec with bits 1:0 clear, %epc, a lone member's
%tol and own die's registers, sends a write of another die's register, and changes nothing for a read-only register.
Rests on the model's own choice of log 56. -/
def Obligations.PrivilegedRegisters : Prop :=
  (∀ (sw : Bool) (d : Reg) (m : BitVec 14) (s : State) (g : Group) (l : Launch) (w : Workgroup), s.launch g.ctx = some l →
    s.wgOf g.ctx g.wg = some w → issuable (.mfsr sw d m) s g = true →
    (m.toNat < 0x2100 → m ≠ 0x2028 → m ≠ 0x2029 → Performs (.mfsr sw d m) s g (fun u v => ∃ x, (m.toNat - 0x2000, x) ∈ userView s l w g u ∧
      Owes (.mfsr sw d m) (g.pc + 4) d.toNat [BitVec.ofNat 32 x] u v)) ∧
    (∀ p ∈ ([(0x2100, fun u => u.tvec), (0x2101, fun u => u.epc), (0x2102, fun u => u.ecause), (0x2103, fun u => u.eop),
        (0x2104, fun u => u.eoph), (0x2108, fun _ => BitVec.ofNat 32 (g.ctx % 2 ^ 16))] : List (BitVec 14 × (Thread → Word))), m = p.1 →
      Performs (.mfsr sw d m) s g (fun u v => Owes (.mfsr sw d m) (g.pc + 4) d.toNat [p.2 u] u v)) ∧
    (∀ p ∈ ([(0, fun x => x.pid), (1, fun x => x.pilv), (2, fun x => x.pbnd), (3, fun x => x.pqc)] : List (Nat × (Die → Word))),
      m.toNat = 0x2200 + 16 * coreDie g.core + p.1 → coreDie g.core < 8 →
      Performs (.mfsr sw d m) s g (fun u v => Owes (.mfsr sw d m) (g.pc + 4) d.toNat [p.2 (s.die (coreDie g.core))] u v)) ∧
    (0x2200 ≤ m.toNat → (m.toNat - 0x2200) / 16 ≠ coreDie g.core →
      Sends (.mfsr sw d m) s g (perMember s g 1 (fun id u => [sentAccess s g .ord (.regRead m.toNat) 0 0 0 (some u.nextSlot) id u]))
        (fun u v => Went (.mfsr sw d m) (g.pc + 4) { u with results := u.results ++ [owing u 0 d.toNat 1], nextSlot := u.nextSlot + 1 } u v))) ∧
  (∀ (sw : Bool) (d : Reg) (m : BitVec 14) (s : State) (g : Group), issuable (.mtsr sw d m) s g = true →
    (m = 0x2100 → Performs (.mtsr sw d m) s g (fun u v => ∃ x : Word, x.toNat = (u.readW d.toNat).toNat / 4 * 4 ∧
      Went (.mtsr sw d m) (g.pc + 4) { u with tvec := x } u v)) ∧
    (m = 0x2101 → Performs (.mtsr sw d m) s g (fun u v => Went (.mtsr sw d m) (g.pc + 4) { u with epc := u.readW d.toNat } u v)) ∧
    (m = 0x2102 ∨ m = 0x2103 ∨ m = 0x2104 ∨ m = 0x2108 ∨ (m.toNat < 0x2100 ∧ m ≠ 0x2011 ∧ m ≠ 0x2020) →
      Performs (.mtsr sw d m) s g (fun u v => Went (.mtsr sw d m) (g.pc + 4) u u v)) ∧
    (∀ k u x, g.tids = [k] → s.threadOf g.ctx g.wg k = some u → s.dies.find? (fun y => y.id == coreDie g.core) = some x → coreDie g.core < 8 →
      (m = 0x2011 → ∃ t v, exec (.mtsr sw d m) s = .next t ∧ t.threadOf g.ctx g.wg k = some v ∧ Went (.mtsr sw d m) (g.pc + 4) u u v ∧
        t.mem = s.mem ∧ t.die (coreDie g.core) = { x with tol := u.readW d.toNat }) ∧
      (0x2200 ≤ m.toNat → (m.toNat - 0x2200) / 16 = coreDie g.core → ∃ t v, exec (.mtsr sw d m) s = .next t ∧
        t.threadOf g.ctx g.wg k = some v ∧ Went (.mtsr sw d m) (g.pc + 4) u u v ∧ t.mem = s.mem ∧
        t.dies = (s.writeDieRegister m.toNat (u.readW d.toNat)).dies)) ∧
    (0x2200 ≤ m.toNat → (m.toNat - 0x2200) / 16 ≠ coreDie g.core →
      Sends (.mtsr sw d m) s g (perMember s g 1 (fun id u => [sentAccess s g .ord (.regWrite m.toNat (u.readW d.toNat)) 0 0 0 none id u]))
        (fun u v => Went (.mtsr sw d m) (g.pc + 4) u u v)))

/-- R246, R349, R350, R351: a write of %pid, %pilv or %pbnd takes effect on a quiesced die alone, %pid for a legal form of Table 1
alone; another write leaves the register and sets the refused bit.
R351, R64, R244, R247: the write reaches another die in its own step; a quiesce request, its release and the clearing of the refused
bit set and clear the bits of %pqc; QUIESCE_COMPLETE sets the quiesced bit once nothing is busy, QUIESCE_REFUSE the refused bit with
the lowest busy id after 200 µs; EDIE_READ and ENERGY_READ return what they sample and latch the high half.
Rests on the model's own choices of log 15, log 24 and log 43. -/
def Obligations.PartitionRegisters : Prop :=
  (∀ (s : State) (k : Nat) (x : Die) (v : Word), k < 8 → s.dies.find? (fun y => y.id == k) = some x →
    (∀ p ∈ ([(0, fun d => { d with pid := v &&& 0xC7 }), (1, fun d => { d with pilv := v &&& 0xFFFF }), (2, fun d => { d with pbnd := v &&& 0x3FF })] :
        List (Nat × (Die → Die))),
      (bitOf x.pqc.toNat 8 = true → (p.1 = 0 → pidLegal v = true) →
        ((s.writeDieRegister (0x2200 + 16 * k + p.1) v).die k) = p.2 x ∧ (s.writeDieRegister (0x2200 + 16 * k + p.1) v).mem = s.mem) ∧
      (bitOf x.pqc.toNat 8 = false → (s.writeDieRegister (0x2200 + 16 * k + p.1) v).die k = { x with pqc := x.pqc ||| 0x200 })) ∧
    (bitOf x.pqc.toNat 8 = true → pidLegal v = false →
      (s.writeDieRegister (0x2200 + 16 * k) v).die k = { x with pqc := x.pqc ||| 0x200 }) ∧
    (∀ j, j ≠ k → ∀ r < 4, (s.writeDieRegister (0x2200 + 16 * k + r) v).die j = s.die j)) ∧
  (∀ (s : State) (n k r : Nat) (a : Access) (v : Word) (x : Die), Due s n a → a.op = .regWrite (0x2200 + 16 * k + r) v → r < 16 →
    s.dies.find? (fun y => y.id == k) = some x →
    (∀ p ∈ ([(0, .pidWrite n), (1, .pilvWrite n), (2, .pbndWrite n)] : List (Nat × Instr)), r = p.1 →
      ∃ t, exec p.2 s = .next t ∧ Landed s t n ∧ t.mem = s.mem ∧ t.dies = (s.writeDieRegister (0x2200 + 16 * k + r) v).dies) ∧
    (4 ≤ r → ∃ t, exec (.registerWrite n) s = .next t ∧ Landed s t n ∧ t.mem = s.mem ∧ t.dies = s.dies) ∧
    (r = 3 → v = 1 → x.pqc.toNat % 2 = 0 → ∃ t, exec (.quiesceRequest n) s = .next t ∧ Landed s t n ∧ t.mem = s.mem ∧
      t.die k = { x with pqc := BitVec.ofNat 32 (x.pqc.toNat + 1), quiesceAt := some s.now }) ∧
    (r = 3 → v = 2 → ∃ t, exec (.quiesceRelease n) s = .next t ∧ Landed s t n ∧ t.mem = s.mem ∧ (t.die k).quiesceAt = none ∧
      (t.die k).pqc.toNat % 2 = 0 ∧ (t.die k).pqc.toNat / 2 ^ 8 % 2 = 0 ∧
      (t.die k).pqc.toNat / 2 ^ 9 % 2 = x.pqc.toNat / 2 ^ 9 % 2) ∧
    (r = 3 → v = 0x200 → ∃ t, exec (.clearRefused n) s = .next t ∧ Landed s t n ∧ t.mem = s.mem ∧
      t.die k = { x with pqc := if x.pqc.toNat / 2 ^ 9 % 2 = 1 then BitVec.ofNat 32 (x.pqc.toNat - 2 ^ 9) else x.pqc })) ∧
  (∀ (s : State) (k n : Nat) (x : Die), s.dies.find? (fun y => y.id == k) = some x → x.quiesceAt = some n →
    (s.busyIds k ≠ [] ∨ n + 200000 < s.now → exec (.quiesceComplete k) s = .next s) ∧
    (s.busyIds k = [] → s.now ≤ n + 200000 → ∃ t, exec (.quiesceComplete k) s = .next t ∧ t = { s with dies := t.dies } ∧
      t.die k = { x with pqc := x.pqc ||| 0x100, quiesceAt := none }) ∧
    (s.now < n + 200000 → exec (.quiesceRefuse k) s = .next s) ∧
    (s.busyIds k = [] → s.now = n + 200000 → exec (.quiesceRefuse k) s = .next s) ∧
    (s.busyIds k ≠ [] → n + 200000 ≤ s.now → ∃ t, exec (.quiesceRefuse k) s = .next t ∧ t = { s with dies := t.dies } ∧
      t.die k = { x with pqc := BitVec.ofNat 32 (nth 0 (s.busyIds k) 0 * 2 ^ 16 + 2 ^ 9), quiesceAt := none })) ∧
  (∀ v : Word, pidLegal v = true ↔ ∃ size < 3, ∃ first < 8, v.toNat / 2 ^ 6 % 4 = size ∧ v.toNat % 8 = first ∧
    first % (nth 0 [2, 4, 8] size) = 0) ∧
  (∀ (s : State) (n k r slot : Nat) (a : Access) (x : Die) (u : Thread), Due s n a → a.op = .regRead (0x2200 + 16 * k + r) →
    a.slot = some slot → s.threadOf a.ctx a.wg a.tid = some u → s.dies.find? (fun y => y.id == k) = some x →
    (∀ p ∈ ([(0, x.pid), (1, x.pilv), (2, x.pbnd), (3, x.pqc)] : List (Nat × Word)), r = p.1 →
      ∃ t, exec (.edieRead n) s = .next t ∧ Landed s t n ∧ t.mem = s.mem ∧ t.dies = s.dies ∧
        t.threadOf a.ctx a.wg a.tid = some (u.fillSlot slot [some p.2])) ∧
    (r = 5 → ∃ t v, exec (.edieRead n) s = .next t ∧ Landed s t n ∧ t.mem = s.mem ∧ t.threadOf a.ctx a.wg a.tid = some v ∧
      v.results = (u.fillSlot slot [some (BitVec.ofNat 32 (x.energyPj / 1000000))]).results ∧
      v.edieHi.find? (fun p => p.1 == k) =
        some (k, BitVec.ofNat 32 (x.energyPj / 1000000 / 2 ^ 32 % 2 ^ 31 + if x.energySat then 2 ^ 31 else 0)))) ∧
  (∀ (s : State) (a : Access) (lo hi : Word) (slot : Nat) (u : Thread), Due s a.id a → a.op = .energy lo hi → a.slot = some slot →
    (∀ b ∈ s.flight, b.ctx = a.ctx → b.wg = a.wg → b.tid = a.tid → b = a) → s.threadOf a.ctx a.wg a.tid = some u →
    ∃ t, exec (.energyRead a.ctx a.wg a.tid) s = .next t ∧ Landed s t a.id ∧ t.mem = s.mem ∧
      t.threadOf a.ctx a.wg a.tid = some { u.fillSlot slot [some lo] with energyHi := hi })

/-- R248: a lone member's TLBI drops the translations that it covers on the dies that it reaches, and no other, and owes 0; modes 1 and 2
leave no L1 line of a context they cover in the cores there. R352: the dies are those of its partition, and from a quiesced die every
quiesced one besides. Reserved bits or mode 3 raise ILLEGAL.
R249, R250: ERET in a handler goes to %epc and clears bit 31 of %ecause; outside one it raises ILLEGAL, and to a target that
is no multiple of 4 ALIGN; HALT marks its workgroup to end at the park, with ReadW(a) as the record's operand. -/
def Obligations.ShootdownReturnAndHalt : Prop :=
  (∀ (sw : Bool) (d a b : Reg) (s : State) (g : Group) (k : Nat) (u : Thread) (mode ctx : Nat), issuable (.tlbi sw d a b) s g = true →
    g.tids = [k] → s.threadOf g.ctx g.wg k = some u → mode = (u.readW b.toNat).toNat / 2 ^ 16 % 4 → ctx = (u.readW b.toNat).toNat % 2 ^ 16 →
    ((u.readW b.toNat).toNat < 2 ^ 18 → mode ≠ 3 →
      ∃ t v, exec (.tlbi sw d a b) s = .next t ∧ t.threadOf g.ctx g.wg k = some v ∧ v.regs = u.regs ∧ v.pc = g.pc + 4 ∧
        v.results = u.results ++ [.mk u.nextSlot [u.phys d.toNat] (some [some 0])] ∧
        t.tlb = s.tlb.filter (fun e => !((s.tlbiDies (coreDie g.core)).contains (e.cluster / 2) &&
          (mode == 2 || e.ctx == ctx && (mode == 1 || e.page == u.readPair a.toNat / 2 ^ e.sizeLog)))) ∧
        (∀ c, (s.tlbiDies (coreDie g.core)).contains (coreDie c) = true → ∀ x ∈ (t.coreOf c).l1, mode ≠ 2 ∧ (mode = 1 → x.ctx ≠ ctx))) ∧
    (2 ^ 18 ≤ (u.readW b.toNat).toNat ∨ mode = 3 → Traps (.tlbi sw d a b) s g .illegal 0 k)) ∧
  (∀ (s : State) (die : Nat),
    ((s.die die).pqc.toNat / 2 ^ 8 % 2 = 0 → s.tlbiDies die = s.partDies die) ∧
    ((s.die die).pqc.toNat / 2 ^ 8 % 2 = 1 → ∀ e, (s.tlbiDies die).contains e = true ↔
      ∃ x ∈ s.dies, x.id = e ∧ (x.pqc.toNat / 2 ^ 8 % 2 = 1 ∨ (s.partDies die).contains e = true))) ∧
  (∀ (s : State) (g : Group), issuable .eret s g = true →
    (Members s g (fun u => 2 ^ 31 ≤ u.ecause.toNat ∧ u.epc.toNat % 4 = 0) →
      Performs .eret s g (fun u v => ∃ c : Word, c.toNat = u.ecause.toNat - 2 ^ 31 ∧ Went .eret u.epc.toNat { u with ecause := c } u v)) ∧
    (∀ k ks u, g.tids = k :: ks → s.threadOf g.ctx g.wg k = some u →
      (u.ecause.toNat < 2 ^ 31 → Traps .eret s g .illegal 0 k) ∧
      (2 ^ 31 ≤ u.ecause.toNat → u.epc.toNat % 4 ≠ 0 → Traps .eret s g .align u.epc.toNat k))) ∧
  (∀ (a : Reg) (s : State) (g : Group), issuable (.halt a) s g = true →
    Performs (.halt a) s g (fun u v => Went (.halt a) (g.pc + 4) { u with parkAct := .halt (u.readW a.toNat).toNat } u v))

/-- R251, R252: a lone member's CTXSAV saves a resident workgroup of its partition (here one at rest), and owes 0; it owes 3 for its own, 1 for one
that is not there and 2 for one already saved. CTXRES owes 1 for a workgroup that CTXSAV or a BRK did not save, 2 for a running
one and 3 where no core of the dies named has room, and changes nothing then.
That a workgroup of the issuer's own launch is saved like any other is the model's own choice of log 109.
Rests on the model's own choices of log 52 and log 109. -/
def Obligations.Contexts : Prop :=
  (∀ (sw : Bool) (d a : Reg) (s : State) (g : Group) (k : Nat) (u : Thread) (x ctx wg : Nat), issuable (.ctxsav sw d a) s g = true →
    g.tids = [k] → s.threadOf g.ctx g.wg k = some u → x = u.readPair a.toNat → ctx = x % 2 ^ 16 → wg = x / 2 ^ 32 → x / 2 ^ 16 % 2 ^ 16 = 0 →
    (ctx = g.ctx ∧ wg = g.wg → Performs (.ctxsav sw d a) s g (fun u v => Owes (.ctxsav sw d a) (g.pc + 4) d.toNat [3] u v)) ∧
    (¬(ctx = g.ctx ∧ wg = g.wg) →
      (s.partWg (coreDie g.core) ctx wg = none →
        Performs (.ctxsav sw d a) s g (fun u v => Owes (.ctxsav sw d a) (g.pc + 4) d.toNat [1] u v)) ∧
      (∀ w, s.partWg (coreDie g.core) ctx wg = some w → w.saved ≠ .running →
        Performs (.ctxsav sw d a) s g (fun u v => Owes (.ctxsav sw d a) (g.pc + 4) d.toNat [2] u v)) ∧
      (∀ w, s.partWg (coreDie g.core) ctx wg = some w → w.saved = .running → AtRest s w →
        ∃ t v w', exec (.ctxsav sw d a) s = .next t ∧ t.threadOf g.ctx g.wg k = some v ∧ t.wgOf ctx wg = some w' ∧ w'.saved = .ctxsav ∧
          w'.savedAt = s.dieTime (coreDie w.core) ∧ v.pc = g.pc + 4 ∧
          v.results.getLast? = some (.mk u.nextSlot [u.phys d.toNat] (some [some 0]))))) ∧
  (∀ (sw : Bool) (d a b : Reg) (s : State) (g : Group) (k : Nat) (u : Thread) (x ctx wg y : Nat), issuable (.ctxres sw d a b) s g = true →
    g.tids = [k] → s.threadOf g.ctx g.wg k = some u → x = u.readPair a.toNat → ctx = x % 2 ^ 16 → wg = x / 2 ^ 32 → x / 2 ^ 16 % 2 ^ 16 = 0 →
    y = (u.readW b.toNat).toNat → y ≤ 8 →
    (s.partWg (coreDie g.core) ctx wg = none →
      Performs (.ctxres sw d a b) s g (fun u v => Owes (.ctxres sw d a b) (g.pc + 4) d.toNat [1] u v)) ∧
    (∀ w l, s.partWg (coreDie g.core) ctx wg = some w → s.launch ctx = some l →
      (w.saved = .running → Performs (.ctxres sw d a b) s g (fun u v => Owes (.ctxres sw d a b) (g.pc + 4) d.toNat [2] u v)) ∧
      (w.saved = .device ∨ w.saved = .operator →
        Performs (.ctxres sw d a b) s g (fun u v => Owes (.ctxres sw d a b) (g.pc + 4) d.toNat [1] u v)) ∧
      (w.saved = .ctxsav ∨ w.saved = .brk →
        (∀ c, l.reservedCores.contains c = true → s.resumeSlot l w c = none) →
        Performs (.ctxres sw d a b) s g (fun u v => Owes (.ctxres sw d a b) (g.pc + 4) d.toNat [3] u v)) ∧
      (∀ c slot, w.saved = .ctxsav ∨ w.saved = .brk → s.resumeCore l w (if y = 8 then s.partDies (coreDie g.core) else (s.partDies (coreDie g.core)).filter (fun z => z == y)) = some c →
        s.resumeSlot l w c = some slot → ¬(ctx = g.ctx ∧ wg = g.wg) → w.savedLeases = [] →
        ∃ t v w', exec (.ctxres sw d a b) s = .next t ∧ t.threadOf g.ctx g.wg k = some v ∧ t.wgOf ctx wg = some w' ∧ w'.saved = .running ∧
          w'.core = c ∧ w'.slot = slot ∧ v.results.getLast? = some (.mk u.nextSlot [u.phys d.toNat] (some [some 0])))))

/-- R253, R346, R257: a lone member's SYSC writes its service record of 16 words and advances the produced count where the queue
has room, and counts a dropped record otherwise; the thread goes on. BRK in a debug launch saves its workgroup, here
one at rest, after the BRK.
Rests on the model's own choices of log 14 and log 51. -/
def Obligations.Services : Prop :=
  (∀ (sw : Bool) (m : BitVec 21) (s : State) (g : Group) (l : Launch) (k : Nat) (u : Thread) (used : Nat), s.launch g.ctx = some l →
    issuable (.sysc sw m) s g = true → g.tids = [k] → s.threadOf g.ctx g.wg k = some u →
    used = (l.svcProduced + 2 ^ 32 - s.readNat l.firstDie (l.svcQueue + 4) 4) % 2 ^ 32 →
    (used < l.svcEntries →
      ∃ t v, exec (.sysc sw m) s = .next t ∧ t.threadOf g.ctx g.wg k = some v ∧ v.pc = g.pc + 4 ∧ v.regs = u.regs ∧
        (t.launch g.ctx).map Launch.svcProduced = some ((l.svcProduced + 1) % 2 ^ 32) ∧
        t.mem = ((s.writeWords l.firstDie (l.svcQueue + 64 + 64 * (l.svcProduced % l.svcEntries))
          ([m.toNat, g.ctx, g.wg, k] ++ (rangeFrom 8 6).map (fun f => (u.readW f).toNat) ++ List.replicate 6 0)).writeNat
            l.firstDie l.svcQueue 4 ((l.svcProduced + 1) % 2 ^ 32)).mem) ∧
    (l.svcEntries ≤ used →
      ∃ t v, exec (.sysc sw m) s = .next t ∧ t.threadOf g.ctx g.wg k = some v ∧ v.pc = g.pc + 4 ∧ v.regs = u.regs ∧ t.mem = s.mem ∧
        (t.launch g.ctx).map Launch.svcDropped = some (l.svcDropped + 1))) ∧
  (∀ (sw : Bool) (m : BitVec 21) (s : State) (g : Group) (l : Launch) (w : Workgroup), s.launch g.ctx = some l → l.debug = true →
    s.group = some g → s.wgOf g.ctx g.wg = some w → AtRest s w →
    ∃ t w', exec (.brk sw m) s = .next t ∧ t.wgOf g.ctx g.wg = some w' ∧ w'.saved = .brk ∧ w'.savedAt = s.dieTime (coreDie w.core) ∧
      (∀ j ∈ g.tids, (s.threadOf g.ctx g.wg j).isSome = true → (t.threadOf g.ctx g.wg j).map Thread.pc = some (g.pc + 4)))

/-- R58, R60, R146, R147, R20: RUN_PARK_COMPLETE of a parked thread all of whose results have returned commits them; the thread
takes its new window base, gives its words to its lane's pool (R234) or exits, and otherwise becomes ready under a new stamp and takes
its place; of a HALT it ends the workgroup with one record of code 0 (R250); with a result missing nothing changes. R66, R67: WAIT_WAKE ends a wait whose condition holds within its limit with its result, one on a sluice of the core's scope with what the
L1 still holds of its bound regions to follow (R263, R264); one of limit 0 that is unmet
ends with TIMEOUT at once; WAIT_TIMEOUT ends one whose limit, on the die's clock, has passed with TIMEOUT, and no other. R22: LOCALITY_WINDOW_END sets the core's load limit by its victim hits.
Rests on the model's own choice of log 15. -/
def Obligations.ParksAndWaits : Prop :=
  (∀ (s : State) (ctx wg k : Nat) (w : Workgroup) (u : Thread), Resident s ctx wg k w u → u.status = .parked →
    ((∃ r ∈ u.results, r.value = none) → exec (.runParkComplete ctx wg [k]) s = .next s) ∧
    ((∀ r ∈ u.results, r.value.isSome = true) →
      (∀ b, (u.parkAct = .none ∧ b = u.base) ∨ u.parkAct = .window b →
        ∃ t v, exec (.runParkComplete ctx wg [k]) s = .next t ∧ t.threadOf ctx wg k = some v ∧ t.mem = s.mem ∧ t.flight = s.flight ∧
          Committed u v ∧ v.status = .ready ∧ v.stamp = s.nextId ∧ v.base = b ∧
          ((∃ e ∈ (t.coreOf w.core).entries, e.ctx = ctx ∧ e.wg = wg ∧ e.pc = u.pc ∧ k ∈ e.tids) ∨
            (∃ h ∈ (t.coreOf w.core).held, h.ctx = ctx ∧ h.wg = wg ∧ h.pc = u.pc ∧ h.tid = k))) ∧
      (u.parkAct = .exit → ∃ t v, exec (.runParkComplete ctx wg [k]) s = .next t ∧ t.threadOf ctx wg k = some v ∧ t.mem = s.mem ∧
        t.flight = s.flight ∧ Committed u v ∧ v.status = .exited ∧ v.watches = []) ∧
      (∀ n, u.parkAct = .give n → (∀ j ∈ w.claims, j % 32 ≠ k % 32) →
        ∃ t v x, exec (.runParkComplete ctx wg [k]) s = .next t ∧ t.threadOf ctx wg k = some v ∧ t.wgOf ctx wg = some x ∧ t.mem = s.mem ∧
          t.flight = s.flight ∧ v.status = .ready ∧ v.results = [] ∧ v.regs = u.commit.regs.take (u.regs.length - n) ∧
          x.poolOf (k % 32) = w.poolOf (k % 32) + n ∧ x.claims = w.claims) ∧
      (∀ op l, u.parkAct = .halt op → s.launch ctx = some l → l.traps < l.trapCap →
        ∃ t, exec (.runParkComplete ctx wg [k]) s = .next t ∧ t.flight = s.flight ∧ (t.launch ctx).map Launch.traps = some (l.traps + 1) ∧
          t.mem = (s.writeWords l.firstDie (l.trapArea + 32 * l.traps)
            [k % 32 * 2 ^ 16, u.pc - 4, op % 2 ^ 32, op / 2 ^ 32 % 2 ^ 32, wg, k + ctx * 2 ^ 16,
             w.core / 256 + w.core / 128 * 2 ^ 3 + w.core % 128 * 2 ^ 7, 0]).mem ∧
          ∀ j v, t.threadOf ctx wg j = some v → v.status = .exited))) ∧
  (∀ (s : State) (ctx wg k : Nat) (w : Workgroup) (u : Thread) (l : Launch), Resident s ctx wg k w u → s.launch ctx = some l →
    s.dieTime (coreDie w.core) ≤ u.deadline →
    (∀ n, u.status = .asleep (.cwait n) → n < s.waterline (coreDie w.core) 64 l.lineId → s.uncommitted l.lineId n = false →
      WakesFresh s ctx wg k u 0) ∧
    (∀ n, u.status = .asleep (.cwait n) → s.waterline (coreDie w.core) 64 l.lineId ≤ n → s.limitOf w u ≠ 0 →
      exec (.waitWake ctx wg [k]) s = .next s) ∧
    (∀ n, u.status = .asleep (.bwait n) → u.unfinished ≤ n → Wakes s ctx wg k u (BitVec.ofNat 32 u.unfinished)) ∧
    (u.status = .asleep .tokw → l.img.det = true → (wg = l.token → l.passing = false → WakesFresh s ctx wg k u 0) ∧
      (wg < l.token ∨ wg = l.token ∧ l.passing = true → Wakes s ctx wg k u 2)) ∧
    (∀ n st x, u.status = .asleep (.twait n st) → s.tileOf (coreCluster w.core) n = some x → x.state.num = st →
      Wakes s ctx wg k u (tileWord x)) ∧
    (∀ n le m, u.status = .asleep (.lwait n) → s.nameTicket ctx wg n = none → s.nameWord ctx wg n = .member le m →
      (∀ i ∈ le.sites, (s.siteOf le.die i).power = .awake) → Wakes s ctx wg k u (BitVec.ofNat 32 le.handle)) ∧
    (∀ addr need x n, u.status = .asleep (.slacq addr need) → l.sluiceOf addr = some x → n = s.sluiceCount (probe w u addr) l x.2 →
      need ≤ n → ∃ t v, exec (.waitWake ctx wg [k]) s = .next t ∧ t.threadOf ctx wg k = some v ∧ t.flight = s.flight ∧
        Woken { u with seen := v.seen } v (BitVec.ofNat 32 n) ∧ (x.2 ≠ 0 → v.seen = u.seen) ∧
        (x.2 = 0 → ∀ a ∈ s.flight, a.ctx = ctx → a.taken ≠ 0 → s.sameL1 w.core a.core = true →
          (∃ r, l.regionOf a.addr a.size = some r ∧ r.sluice = x.1) → a.id ∈ v.seen)) ∧
    (∀ n x, u.status = .asleep (.mwait n) → u.watches.find? (fun y => y.line == n) = some x → x.state ≠ .armed →
      ∃ t v, exec (.waitWake ctx wg [k]) s = .next t ∧ t.threadOf ctx wg k = some v ∧ t.mem = s.mem ∧ v.regs = u.regs ∧
        (∀ y ∈ v.watches, y.line ≠ n) ∧ Woken { u with watches := v.watches } v (if x.state = .written then 0 else 2)) ∧
    (∀ n, u.status = .asleep (.bwait n) → n < u.unfinished → (s.limitOf w u ≠ 0 → exec (.waitWake ctx wg [k]) s = .next s) ∧
      (s.limitOf w u = 0 → Wakes s ctx wg k u 0xFFFFFFFF))) ∧
  (∀ (s : State) (ctx wg k : Nat) (w : Workgroup) (u : Thread) (l : Launch), Resident s ctx wg k w u → s.launch ctx = some l →
    (∀ x, u.status = .asleep x → u.deadline < s.dieTime (coreDie w.core) → exec (.waitWake ctx wg [k]) s = .next s) ∧
    (s.dieTime (coreDie w.core) < u.deadline → exec (.waitTimeout ctx wg k) s = .next s) ∧
    (u.deadline ≤ s.dieTime (coreDie w.core) → s.regdlFirst w u = false →
      (∀ n, u.status = .asleep (.bwait n) → n < u.unfinished →
        (s.limitOf w u = 0 ∨ l.spansPod = false ∧ ∀ d ∈ s.partDies l.firstDie, (s.die d).clock.lostAt = none) →
        ∃ t v, exec (.waitTimeout ctx wg k) s = .next t ∧ OnlyThread s t ctx wg k ∧ t.threadOf ctx wg k = some v ∧
          Woken u v 0xFFFFFFFF) ∧
      (∀ level id, u.status = .asleep (.barrier level id) → s.barrierDone ctx wg u level id = false →
        ∃ t v, exec (.waitTimeout ctx wg k) s = .next t ∧ OnlyThread s t ctx wg k ∧ t.threadOf ctx wg k = some v ∧
          v = { u with status := .parked, tws := 0xFFFFFFFF }))) ∧
  (∀ (s : State) (c : Nat), (s.cluster (coreCluster c)).gate = .active →
    ∃ t n, exec (.localityWindowEnd c) s = .next t ∧ t = { s with cores := t.cores } ∧ (∀ j, j ≠ c → t.coreOf j = s.coreOf j) ∧
      t.coreOf c = { s.coreOf c with victimHits := 0, loadLimit := n } ∧
      (64 < (s.coreOf c).victimHits → n = max 4 ((s.coreOf c).loadLimit / 2)) ∧
      ((s.coreOf c).victimHits ≤ 32 → n = min 32 ((s.coreOf c).loadLimit * 2)) ∧
      (32 < (s.coreOf c).victimHits → (s.coreOf c).victimHits ≤ 64 → n = (s.coreOf c).loadLimit))

/-- R15, R16, R26, R34: WORKGROUP_DISPATCH places a pending grid workgroup on a reserved core that admits it, its threads at the
entry point with their initial registers. R23: WORKGROUP_END frees a workgroup whose threads have ended, and its granules, and the launch's end is so far
that time (R341); with a thread left, or a commit, nothing changes. R37, R38, R41: PREEMPTION saves a workgroup, here one at rest, and records the breach; RESUMPTION puts
one that the device or the operator saved on a reserved core with room.
Rests on the model's own choices of log 13, log 20, log 32 and log 37. -/
def Obligations.Workgroups : Prop :=
  (∀ (s : State) (ctx wg core slot area run a n : Nat) (l : Launch), s.launch ctx = some l → s.wgOf ctx wg = none → l.img.det = false →
    l.img.fuse = false → l.stage = .running → l.stopped = false → l.pending = [(a, n)] → a ≤ wg → wg < a + n → l.reservedCores.contains core = true →
    (s.cluster (coreCluster core)).gate = .active → s.takesWork (coreDie core) l.supervisor = true → s.freeSlot l core = some slot →
    s.freeArea l = some area → s.granuleRun core l.img.granules = some run →
    s.admits core (((l.gridPlan wg).threads.zip (rangeFrom 0 (l.gridPlan wg).threads.length)).map (fun x => (x.2 % 32, x.1.2.1))) (fun _ => 0)
      l.img.granules (Config.energyWeight l.img.energy) = true →
    s.handoverBlocked core (rangeFrom run l.img.granules) = false →
    ∃ t w, exec (.workgroupDispatch ctx wg core) s = .next t ∧ t.wgOf ctx wg = some w ∧ w.core = core ∧ w.slot = slot ∧ w.area = area ∧
      w.saved = .running ∧ w.threads.length = l.img.wgSize ∧ t.mem = s.mem ∧ (t.launch ctx).map (fun x => x.isPending wg) = some false ∧
      (∀ k, k < l.img.wgSize → ∃ v, t.threadOf ctx wg k = some v ∧ v.pc = l.img.entry ∧ v.base = 0 ∧ v.status = .ready ∧ v.rng = 0 ∧
        v.readPair 0 = Config.privateBase ∧ v.readPair 2 = l.args % 2 ^ 64 ∧ v.readPair 4 = scratchBaseOf core (run * 1024) % 2 ^ 64 ∧
        (v.readW 6).toNat = k % 2 ^ 32 ∧ (∀ f, 7 ≤ f → v.readW f = 0))) ∧
  (∀ (s : State) (ctx wg : Nat) (l : Launch) (w : Workgroup), s.launch ctx = some l → s.wgOf ctx wg = some w →
    ((∃ u ∈ w.threads, u.status ≠ .exited ∨ u.tx.committing.isSome = true) → exec (.workgroupEnd ctx wg) s = .next s) ∧
    ((∀ u ∈ w.threads, u.status = .exited) → l.img.det = false → (s.coreOf w.core).fused = false →
      (∀ a ∈ s.flight, ¬(a.ctx = ctx ∧ a.wg = wg)) → (∀ u ∈ w.threads, u.tx.committing = none) →
      (∀ x ∈ s.leases, ¬(x.ctx = ctx ∧ x.wg = wg)) →
      ∃ t, exec (.workgroupEnd ctx wg) s = .next t ∧ t.wgOf ctx wg = none ∧ t.mem = s.mem ∧ t.leases = s.leases ∧
        (t.launch ctx).map Launch.retired = some (l.retired + 1) ∧ (t.launch ctx).map Launch.endAt = some s.schedulerTime ∧
        (∀ g ∈ (t.coreOf w.core).granules, g.ctx = ctx → g.wg = wg → g.live = false))) ∧
  (∀ (s : State) (ctx wg cause : Nat) (l : Launch) (w : Workgroup), s.launch ctx = some l → s.wgOf ctx wg = some w →
    (cause ∉ [1, 3, 4, 16, 17] → exec (.preemption ctx wg cause) s = .next s) ∧
    (cause ∈ [1, 3, 4, 16, 17] → w.saved = .running → AtRest s w → l.debug = false →
      ∃ t x, exec (.preemption ctx wg cause) s = .next t ∧ t.wgOf ctx wg = some x ∧ x.saved = (if cause ≤ 4 then .device else .operator) ∧
        x.savedAt = s.dieTime (coreDie w.core) ∧ (t.launch ctx).map Launch.breaches = some (l.breaches + 1)) ∧
    (∀ core slot, w.saved = .device ∨ w.saved = .operator → l.img.fuse = false → (s.coreOf w.core).fused = false →
      s.takesWork (coreDie core) l.supervisor = true → (s.partDies (coreDie w.core)).contains (coreDie core) = true →
      l.reservedCores.contains core = true → s.resumeSlot l w core = some slot → w.savedLeases = [] →
      ∃ t x, exec (.resumption ctx wg core) s = .next t ∧ t.wgOf ctx wg = some x ∧ x.saved = .running ∧ x.core = core ∧ x.slot = slot ∧
        t.mem = s.mem) ∧
    (∀ core, w.saved = .running ∨ w.saved = .ctxsav ∨ w.saved = .brk → exec (.resumption ctx wg core) s = .next s))

/-- R28, R29, R31: CONTINUATION_RECORD joins the bin of its target, opens one, or closes a bin that it fills, whose 32 records form
one workgroup of the next generation, which takes a free context area (R347); with all 16 bins in use the one whose first record is
oldest closes and makes room; a bin 2 µs old has closed before the record comes; in `.det` the record is kept, with the leaf controller
that holds it. BIN_CLOSE_TIMEOUT closes a bin 2 µs old, and no younger one.
DET_GENERATION_FORM forms the workgroups of the next generation, of at most 32 records each, under consecutive numbers.
Rests on the model's own choice of log 15. -/
def Obligations.Continuations : Prop :=
  (∀ (s : State) (n : Nat) (a : Access) (target sequence : Nat) (args : List Word) (l : Launch) (c : Cluster),
    Due s n a → a.op = .record target args sequence → s.launch a.ctx = some l → l.stopped = false →
    s.clusters.find? (fun x => x.id == coreCluster a.core) = some c →
    (l.img.det = true → ∃ t, exec (.continuationRecord n) s = .next t ∧ Landed s t n ∧ t.mem = s.mem ∧
      t.launch a.ctx = some { l with kept := l.kept ++ [.mk (coreCluster a.core) a.wg a.tid sequence target args] }) ∧
    (l.img.det = false → c.bins.length < 16 → (∀ b ∈ c.bins, s.now < b.since + 2000) → (∀ b ∈ c.bins, ¬(b.ctx = a.ctx ∧ b.pc = target)) →
      ∃ t, exec (.continuationRecord n) s = .next t ∧ Landed s t n ∧ t.mem = s.mem ∧
        t.cluster (coreCluster a.core) = { c with bins := c.bins ++ [.mk target a.ctx s.now [args] [a.wg]] }) ∧
    (∀ b, l.img.det = false → c.bins = [b] → b.ctx = a.ctx → b.pc = target →
      (b.since + 2000 ≤ s.now → ∃ t x, exec (.continuationRecord n) s = .next t ∧ Landed s t n ∧ t.mem = s.mem ∧
        t.cluster (coreCluster a.core) = { c with bins := [.mk target a.ctx s.now [args] [a.wg]] } ∧ t.launch a.ctx = some x ∧
        FormedMore s l x (.mk l.nextCont (l.generation + 1) target (some (coreCluster a.core)) none b.records b.parents)) ∧
      (s.now < b.since + 2000 → b.records.length < 31 → ∃ t, exec (.continuationRecord n) s = .next t ∧ Landed s t n ∧ t.mem = s.mem ∧
        t.cluster (coreCluster a.core) = { c with bins := [{ b with records := b.records ++ [args], parents := b.parents ++ [a.wg] }] }) ∧
      (s.now < b.since + 2000 → b.records.length = 31 → ∃ t, exec (.continuationRecord n) s = .next t ∧ Landed s t n ∧ t.mem = s.mem ∧
        t.cluster (coreCluster a.core) = { c with bins := [] } ∧
        ∃ x, t.launch a.ctx = some x ∧ FormedMore s l x
          (.mk l.nextCont (l.generation + 1) target (some (coreCluster a.core)) none (b.records ++ [args]) (b.parents ++ [a.wg])))) ∧
    (∀ b bs lb, l.img.det = false → c.bins = b :: bs → 15 ≤ bs.length → (∀ x ∈ bs, ¬(x.ctx = b.ctx ∧ x.pc = b.pc)) →
      (∀ x ∈ c.bins, ¬(x.ctx = a.ctx ∧ x.pc = target) ∧ s.now < x.since + 2000) → s.launch b.ctx = some lb →
      ∃ t x, exec (.continuationRecord n) s = .next t ∧ Landed s t n ∧ t.mem = s.mem ∧
        t.cluster (coreCluster a.core) = { c with bins := bs ++ [.mk target a.ctx s.now [args] [a.wg]] } ∧
        t.launch b.ctx = some x ∧ FormedMore s lb x
          (.mk lb.nextCont (lb.generation + 1) b.pc (some (coreCluster a.core)) none b.records b.parents))) ∧
  (∀ (s : State) (c i : Nat) (b : Bin) (l : Launch), (s.cluster c).bins[i]? = some b → s.launch b.ctx = some l →
    (s.now < b.since + 2000 → exec (.binCloseTimeout c i) s = .next s) ∧
    (b.since + 2000 ≤ s.now → ∃ t, exec (.binCloseTimeout c i) s = .next t ∧ t.mem = s.mem ∧
      (∀ x ∈ (t.cluster c).bins, ¬(x.ctx = b.ctx ∧ x.pc = b.pc)) ∧
      ∃ x, t.launch b.ctx = some x ∧ FormedMore s l x (.mk l.nextCont (l.generation + 1) b.pc (some c) none b.records b.parents))) ∧
  (∀ (s : State) (ctx : Nat) (l : Launch), s.launch ctx = some l →
    (l.pending ≠ [] ∨ l.formed ≠ [] ∨ l.kept = [] → exec (.detGenerationForm ctx) s = .next s) ∧
    (l.img.det = true → l.kept ≠ [] → l.pending = [] → l.formed = [] → (∀ w ∈ s.wgs, w.ctx ≠ ctx) → s.mayReport l.quote.clusterMask = true →
      ∃ t x, exec (.detGenerationForm ctx) s = .next t ∧ t = { s with launches := t.launches, clusters := t.clusters } ∧ t.launch ctx = some x ∧ x.kept = [] ∧
        x.generation = l.generation + 1 ∧ x.nextCont = l.nextCont + x.formed.length ∧
        x.formed.map Formed.wg = rangeFrom l.nextCont x.formed.length ∧
        (∀ f ∈ x.formed, 1 ≤ f.records.length ∧ f.records.length ≤ 32 ∧ f.generation = l.generation + 1 ∧
          f.parents.length = f.records.length ∧
          ∀ p ∈ f.records.zip f.parents, ∃ y ∈ l.kept, y.target = f.target ∧ y.args = p.1 ∧ y.wg = p.2)))

/-- R150, R110, R262: LOAD_PERFORM of a load that nothing holds up returns the bytes of its bank, or of its home where no L1 line
holds it, and one that an earlier access of its thread holds up changes nothing. R152: STORE_PERFORM writes its bytes at its bank,
or at its home where no L1 line holds it, and no other byte. -/
def Obligations.LoadsAndStoresPerform : Prop :=
  (∀ (s : State) (n slot words : Nat) (a : Access) (signed : Bool) (l : Launch) (u : Thread), a ∈ s.flight → a.id = n →
    (∀ b ∈ s.flight, b.id = n → b = a) → a.op = .load signed words → a.slot = some slot → s.launch a.ctx = some l →
    s.threadOf a.ctx a.wg a.tid = some u →
    (s.blocked a = true → exec (.loadPerform n) s = .next s) ∧
    (∀ bs ws, s.blocked a = false → s.badRead a = none →
      (signed = false → ws = (List.range words).map (fun i => some (BitVec.ofNat 32 (leNat bs / 2 ^ (32 * i))))) →
      (signed = true → ws = [some (BitVec.ofInt 32 (sextNat (leNat bs) (8 * a.size)))]) →
      (classOf a.addr = .scratch → s.granulesFresh a.ctx (coreCluster a.core) a.addr a.size a.gens = true →
          bs = s.readBank (scratchTarget (coreCluster a.core) a.addr).1 (scratchTarget (coreCluster a.core) a.addr).2 a.size →
        ∃ t, exec (.loadPerform n) s = .next t ∧ Landed s t n ∧ t.mem = s.mem ∧ t.scratch = s.scratch ∧
          t.threadOf a.ctx a.wg a.tid = some (u.fillSlot slot ws)) ∧
      (∀ tgt, classOf a.addr = .global → a.path = .ord → a.tx = none → NoMoves s → l.polderAt a.addr = none →
          s.locateVia (coreCluster a.core) l a.addr = some tgt → (s.coreOf a.core).fused = false → (s.coreOf a.core).l1 = [] →
          (∀ b ∈ s.flight, b.taken = 0) → tgt.key % 128 = a.addr % 128 → a.addr % 128 + a.size ≤ 128 → bs = s.readHome tgt.key a.size →
        ∃ t, exec (.loadPerform n) s = .next t ∧ Landed s t n ∧ t.mem = s.mem ∧ t.scratch = s.scratch ∧
          t.threadOf a.ctx a.wg a.tid = some (u.fillSlot slot ws)))) ∧
  (∀ (s : State) (n v : Nat) (a : Access) (l : Launch), s.canonical = true → Due s n a → a.op = .store v → s.launch a.ctx = some l →
    (classOf a.addr = .scratch → s.granulesFresh a.ctx (coreCluster a.core) a.addr a.size a.gens = true →
      ∃ t, exec (.storePerform n) s = .next t ∧ Landed s t n ∧ t.mem = s.mem ∧
        Stored s.scratch t.scratch ((scratchTarget (coreCluster a.core) a.addr).1 * Config.scratchPerCore +
          (scratchTarget (coreCluster a.core) a.addr).2) (leBytes a.size v)) ∧
    (∀ tgt, classOf a.addr = .global → NoMoves s → l.polderAt a.addr = none → s.locateVia (coreCluster a.core) l a.addr = some tgt →
      (s.coreOf a.core).fused = false → (s.coreOf a.core).l1 = [] → s.homeBlocked a = false →
      ∃ t, exec (.storePerform n) s = .next t ∧ Landed s t n ∧ t.scratch = s.scratch ∧ Stored s.mem t.mem tgt.key (leBytes a.size v)))

/-- R168, R169, R173: ATOMIC_PERFORM at a bank, or at the home for a scope beyond the cluster, writes the new value of Table 6 and
returns the old one; REDUCTION_PERFORM writes it and returns nothing. -/
def Obligations.AtomicsPerform : Prop :=
  (∀ (s : State) (n slot : Nat) (a : Access) (op : AmoOp) (v e m : Nat) (l : Launch) (u : Thread), s.canonical = true → Due s n a →
    a.op = .atomic op v e → a.slot = some slot → s.launch a.ctx = some l → s.threadOf a.ctx a.wg a.tid = some u →
    (classOf a.addr = .scratch → s.granulesFresh a.ctx (coreCluster a.core) a.addr a.size a.gens = true →
      m = leNat (s.readBank (scratchTarget (coreCluster a.core) a.addr).1 (scratchTarget (coreCluster a.core) a.addr).2 a.size) →
      ∃ t x, exec (.atomicPerform n) s = .next t ∧ Landed s t n ∧ t.mem = s.mem ∧ t.threadOf a.ctx a.wg a.tid = some x ∧
        x.results = (u.fillSlot slot ((List.range (a.size / 4)).map (fun i => some (BitVec.ofNat 32 (m / 2 ^ (32 * i)))))).results ∧
        Stored s.scratch t.scratch ((scratchTarget (coreCluster a.core) a.addr).1 * Config.scratchPerCore +
          (scratchTarget (coreCluster a.core) a.addr).2) (leBytes a.size (amoValue op m v e))) ∧
    (∀ tgt pa, classOf a.addr = .global → NoMoves s → l.polderAt a.addr = none → s.locateVia (coreCluster a.core) l a.addr = some tgt →
      tgt.phys = some pa → isPcie pa = false → 2 < a.scope → s.homeBlocked a = false → s.takenMeets a = false → m = leNat (s.readHome tgt.key a.size) →
      ∃ t x, exec (.atomicPerform n) s = .next t ∧ Landed s t n ∧ t.scratch = s.scratch ∧ t.threadOf a.ctx a.wg a.tid = some x ∧
        x.results = (u.fillSlot slot ((List.range (a.size / 4)).map (fun i => some (BitVec.ofNat 32 (m / 2 ^ (32 * i)))))).results ∧
        Stored s.mem t.mem tgt.key (leBytes a.size (amoValue op m v e)))) ∧
  (∀ (s : State) (n : Nat) (a : Access) (op : AmoOp) (v m : Nat) (l : Launch), s.canonical = true → Due s n a → a.op = .red op v →
    a.slot = none → s.launch a.ctx = some l →
    (classOf a.addr = .scratch → s.granulesFresh a.ctx (coreCluster a.core) a.addr a.size a.gens = true →
      m = leNat (s.readBank (scratchTarget (coreCluster a.core) a.addr).1 (scratchTarget (coreCluster a.core) a.addr).2 a.size) →
      ∃ t, exec (.reductionPerform n) s = .next t ∧ Landed s t n ∧ t.mem = s.mem ∧
        Stored s.scratch t.scratch ((scratchTarget (coreCluster a.core) a.addr).1 * Config.scratchPerCore +
          (scratchTarget (coreCluster a.core) a.addr).2) (leBytes a.size (amoValue op m v 0))) ∧
    (∀ tgt pa, classOf a.addr = .global → NoMoves s → l.polderAt a.addr = none → s.locateVia (coreCluster a.core) l a.addr = some tgt →
      tgt.phys = some pa → isPcie pa = false → 2 < a.scope → s.homeBlocked a = false → s.takenMeets a = false → m = leNat (s.readHome tgt.key a.size) →
      ∃ t, exec (.reductionPerform n) s = .next t ∧ Landed s t n ∧ t.scratch = s.scratch ∧
        Stored s.mem t.mem tgt.key (leBytes a.size (amoValue op m v 0)))) ∧
  (∀ m v e : Word, ∀ p ∈ ([(.add, m + v), (.and, m &&& v), (.or, m ||| v), (.xor, m ^^^ v), (.xchg, v),
      (.min, if v.toInt < m.toInt then v else m), (.max, if m.toInt < v.toInt then v else m), (.minu, if v.toNat < m.toNat then v else m),
      (.maxu, if m.toNat < v.toNat then v else m), (.casW, if m = e then v else m)] : List (AmoOp × Word)),
    amoValue p.1 m.toNat v.toNat e.toNat = p.2.toNat) ∧
  (∀ m v e : DWord, ∀ p ∈ ([(.add64, m + v), (.gts, if m.toNat < v.toNat then v else m), (.casD, if m = e then v else m),
      (.vcas, if m.toNat / 2 ^ 48 = e.toNat / 2 ^ 48 then v else m),
      (.tcas, if m = e then BitVec.ofNat 64 (v.toNat % 2 ^ 48 + (m.toNat / 2 ^ 48 + 1) % 2 ^ 16 * 2 ^ 48) else m)] : List (AmoOp × DWord)),
    amoValue p.1 m.toNat v.toNat e.toNat = p.2.toNat)

/-- R114, R205, R219, R220, R222, R88, R90: TILE_FILL_COMPLETE makes a filling tile whose last byte has landed ready;
TILE_READER_FINISH lowers a reader count, and a draining tile without readers empties; ENTRY_START starts a head entry whose site is
awake, and MACRO_STEP does its next step: ACCZ clears its accumulator, MXMA adds one group of products to every element, exactly for
I8; ENTRY_COMPLETE retires a head entry that has done its steps, and one marked not performed.
Rests on the model's own choices of log 7 and log 62. -/
def Obligations.EngineSteps : Prop :=
  (∀ (s : State) (c n : Nat) (x : Tile), s.tileOf c n = some x →
    (x.state = .filling → x.landed = true → ∃ t, exec (.tileFillComplete c n) s = .next t ∧ t = { s with tiles := t.tiles } ∧
      t.tileOf c n = some { x with state := .ready, landed := false }) ∧
    (x.state ≠ .filling ∨ x.landed = false → ∃ t, exec (.tileFillComplete c n) s = .next t ∧ t.tileOf c n = some x) ∧
    (0 < x.finishing → ∃ t, exec (.tileReaderFinish c n) s = .next t ∧ t = { s with tiles := t.tiles } ∧
      t.tileOf c n = some { x with
        finishing := x.finishing - 1, readers := x.readers - 1,
        state := if x.state = .draining ∧ x.readers ≤ 1 then .empty else x.state })) ∧
  (∀ (s : State) (d i : Nat) (e : Entry), (s.siteOf d i).queue.head? = some e →
    ((s.siteOf d i).power ≠ .awake ∨ e.started = true ∨ e.after.isSome = true → exec (.entryStart d i) s = .next s) ∧
    ((s.siteOf d i).power = .awake → e.started = false → e.failed = false → e.after = none → e.follow = false → s.tilesReady e = true →
      ∃ t, exec (.entryStart d i) s = .next t ∧ t = { s with sites := t.sites } ∧
        (t.siteOf d i).queue.head? = some { e with started := true }) ∧
    (e.started = false → exec (.macroStep d i) s = .next s) ∧
    (∀ k type, e.kind = .accz k type → e.started = true → e.failed = false → e.step = 0 → (s.launch e.ctx).isSome = true →
      ∃ t, exec (.macroStep d i) s = .next t ∧ t = { s with sites := t.sites } ∧
        (t.siteOf d i).queue.head? = some { e with step := 1 } ∧
        (t.siteOf d i).acc k = { (s.siteOf d i).acc k with type := some type, void := false, elems := [] }) ∧
    (∀ w ta tb x y, e.kind = .mxma w ta tb → e.started = true → e.failed = false → e.step < w.groups → (s.launch e.ctx).isSome = true →
      s.tileOf (coreCluster e.core) ta = some x → s.tileOf (coreCluster e.core) tb = some y →
      ∃ t, exec (.macroStep d i) s = .next t ∧ t = { s with sites := t.sites } ∧
        (t.siteOf d i).queue.head? = some { e with step := e.step + 1 } ∧
        ∀ p q, p < 64 → q < 64 → nth 0 ((t.siteOf d i).acc w.acc).elems (64 * p + q) =
          (accGroup w.type (nth 0 ((s.siteOf d i).acc w.acc).elems (64 * p + q)) (groupElems w.type (x.row p) (w.start + e.step))
            (groupElems w.type (y.row q) (w.start + e.step))).1) ∧
    (∀ g u b, e.kind = .gather g → (∀ y ∈ (s.siteOf d i).queue.tail, y.after ≠ some e.id) → s.threadOf e.ctx e.wg e.tid = some u →
      u.openBatch = none → u.batches = [b] → b.serial = e.batch →
      (e.failed = false → e.step < g.count → exec (.entryComplete d i) s = .next s) ∧
      (e.failed = false → e.started = true → g.count ≤ e.step → ∃ t v, exec (.entryComplete d i) s = .next t ∧ t.mem = s.mem ∧
        (t.siteOf d i).queue = (s.siteOf d i).queue.tail ∧ t.threadOf e.ctx e.wg e.tid = some v ∧
        v = { u with batches := [{ b with finished := b.finished + 1 }] }) ∧
      (e.failed = true → ∃ t v, exec (.entryComplete d i) s = .next t ∧ t.mem = s.mem ∧
        (t.siteOf d i).queue = (s.siteOf d i).queue.tail ∧ t.threadOf e.ctx e.wg e.tid = some v ∧
        v = { u with batches := [{ b with finished := b.finished + 1, notPerformed := b.notPerformed + 1 }] }))) ∧
  (∀ (z : Int) (ps : List ((Nat × Bool) × (Nat × Bool))),
    (((accGroup 1 z (ps.map (fun p => p.1)) (ps.map (fun p => p.2))).1 - z -
      (ps.map (fun p => if p.1.2 && p.2.2 then sextNat p.1.1 8 * sextNat p.2.1 8 else 0)).sum) % 2 ^ 48 = 0) ∧
    -2 ^ 47 ≤ (accGroup 1 z (ps.map (fun p => p.1)) (ps.map (fun p => p.2))).1 ∧
    (accGroup 1 z (ps.map (fun p => p.1)) (ps.map (fun p => p.2))).1 < 2 ^ 47)

/-- R193, R197, R201, R202, R211, R345: LEASE_GRANT grants the head of a die's queue where it fits; SITE_WAKE_COMPLETE and
LINGER_EXPIRY act when their time has come and not before; SITE_FAILURE takes the site out of use and out of every booking, ends the
lease on it and records the breach, and a second one for a reserved lease (R44); COLL_CONTRIBUTION takes one contribution of another
rank for a tag from another module (R339), and the word that the rank's entry will not be performed in its place.
Rests on the model's own choices of log 15, log 40 and log 55. -/
def Obligations.SitesAndLeases : Prop :=
  (∀ (s : State) (d : Nat) (r : Request), (s.dieQueue d).head? = some r →
    (s.fitGrant d r.cls r.count r.ctx r.wg r.opclass r.keepState = none → exec (.leaseGrant d) s = .next s) ∧
    (∀ sites, s.fitGrant d r.cls r.count r.ctx r.wg r.opclass r.keepState = some (sites, []) →
      ∃ t le, exec (.leaseGrant d) s = .next t ∧ t.leases = s.leases ++ [le] ∧ le.sites = sites ∧ le.die = d ∧ le.cls = r.cls ∧
        le.ctx = r.ctx ∧ le.wg = r.wg ∧ le.reserved = false ∧ le.ticket = some r.ticket ∧ t.mem = s.mem ∧ t.wgs = s.wgs ∧
        t.requests = s.requests.filter (fun x => x != r))) ∧
  (∀ (s : State) (d i due : Nat),
    ((s.siteOf d i).power = .waking due → due ≤ s.now → ∃ t, exec (.siteWakeComplete d i) s = .next t ∧ t = { s with sites := t.sites } ∧
      t.siteOf d i = { s.siteOf d i with power := .awake }) ∧
    ((s.siteOf d i).power = .waking due → s.now < due → ∃ t, exec (.siteWakeComplete d i) s = .next t ∧ t.siteOf d i = s.siteOf d i) ∧
    ((s.siteOf d i).power = .lingering due → due ≤ s.now → ∃ t, exec (.lingerExpiry d i) s = .next t ∧ t = { s with sites := t.sites } ∧
      (t.siteOf d i).power = .dark ∧ (t.siteOf d i).acc0 = Accumulator.fresh ∧ (t.siteOf d i).acc1 = Accumulator.fresh ∧
      (t.siteOf d i).keeper = none) ∧
    ((s.siteOf d i).power = .lingering due → s.now < due → ∃ t, exec (.lingerExpiry d i) s = .next t ∧ t.siteOf d i = s.siteOf d i)) ∧
  (∀ (s : State) (d i : Nat), s.dies.any (fun x => x.id == d) = true →
    ((∀ l ∈ s.leases, ¬(l.die = d ∧ i ∈ l.sites)) → ∃ t, exec (.siteFailure d i) s = .next t ∧
      t = { s with
        dies := t.dies,
        launches := s.launches.map (fun l => { l with booked := l.booked.filter (fun b => !(b.die == d && b.sites.contains i)) }) } ∧
      (t.die d).failedSites.contains i = true ∧ (∀ r, t.sitePresent d r = (s.sitePresent d r && r != i))) ∧
    (∀ le l, s.leases.find? (fun l => l.die == d && l.sites.contains i) = some le → (∀ j ∈ le.sites, (s.siteOf d j).queue = []) →
      s.launch le.ctx = some l → l.debug = false → ∃ t, exec (.siteFailure d i) s = .next t ∧ (t.die d).failedSites.contains i = true ∧
        (∀ x ∈ t.leases, ¬(x.handle = le.handle ∧ x.ctx = le.ctx ∧ x.wg = le.wg)) ∧ t.evicted = s.evicted ++ [le] ∧
        (t.launch le.ctx).map Launch.breaches = some (l.breaches + (if le.reserved then 2 else 1)))) ∧
  (∀ (s : State) (ctx tag rank op n : Nat) (data : List Word) (l : Launch), s.launch ctx = some l →
    (rank = l.rank ∨ (∃ m ∈ s.siblings l, m.rank = rank) ∨ l.nrank ≤ rank ∨
        n ≠ 0 ∧ (∃ c ∈ s.contributions, c.ctx = ctx ∧ c.tag = tag ∧ c.rank = rank) → exec (.collContribution ctx tag rank op n data) s = .next s) ∧
    (rank ≠ l.rank → (∀ m ∈ s.siblings l, m.rank ≠ rank) → rank < l.nrank →
      n = 0 ∨ (∀ c ∈ s.contributions, ¬(c.ctx = ctx ∧ c.tag = tag ∧ c.rank = rank)) →
      exec (.collContribution ctx tag rank op n data) s = .next { s with
        contributions := s.contributions.filter (fun c => !(c.ctx == ctx && c.tag == tag && c.rank == rank)) ++ [.mk ctx tag rank op n data] }))

/-- R328 to R334, R354: RING_REGISTER adds a ring that R328 allows, under the version that it and its driver share (R368), and no other;
the steps of WRITE, SIGNAL, WAIT, WRITE_SIGNAL and
COPY write, add, wait, expire and copy as R333 says, and the last one retires the packet; a COPY of a block known bad moves no byte and
reports it (R366); a WRITE of 1 to a page's doorbell takes the page off the missing ones (R342); LINK in slot 63 moves the ring to its
target segment.
Rests on the model's own choices of log 15, log 32, log 115 and log 118. -/
def Obligations.PacketSteps : Prop :=
  (∀ (s : State) (block priority slice : Nat) (privileged : Bool),
    (s.booted = true → s.rings.length < 64 → block % 64 = 0 → inHost block = true → priority ≤ 3 → 1 ≤ slice → slice ≤ 1000 →
      exec (.ringRegister block priority slice privileged) s = .next { s with
        rings := s.rings ++ [.mk block priority slice privileged (min 1 (s.readNat 0 (block + 24) 4)) (s.readNat 0 (block + 4) 4)
          (s.readNat 0 (block + 8) 8) 0 none false none] }) ∧
    (s.booted = false ∨ 64 ≤ s.rings.length ∨ block % 64 ≠ 0 ∨ inHost block = false ∨ 3 < priority ∨ slice = 0 ∨ 1000 < slice →
      exec (.ringRegister block priority slice privileged) s = .next s)) ∧
  (∀ (s s1 : State) (k : Nat) (r : Ring), StepDue s k 4 0 r → s.packetFlags r = 2 →
    s1 = s.writeWords 0 (s.packetPair r 8) ((List.range (s.packet r 1 % 8)).map (fun i => s.packet r (12 + i))) →
    s1.packet r 0 = s.packet r 0 →
    ((∀ i < 4, s.pagesAt (s.packetPair r 8 + 4 * i) = []) → ∃ t, exec (.writePkt k) s = .next t ∧ Retired s1 t k r) ∧
    (∀ ctx page l, s.pagesAt (s.packetPair r 8) = [(ctx, page)] → s.packet r 1 % 8 = 1 → s.packet r 12 = 1 → s.launch ctx = some l →
      s1.pageThere l page = true → ∃ t x, exec (.writePkt k) s = .next t ∧ Retired s1 t k r ∧ t.launch ctx = some x ∧
        x.missing = l.missing.filter (fun p => p != page) ∧ page ∉ x.asked)) ∧
  (∀ (s s1 : State) (k : Nat) (r : Ring), StepDue s k 5 0 r → s.packetFlags r = 4 →
    s1 = s.writeNat 0 (s.packetPair r 10) 8 ((s.readNat 0 (s.packetPair r 10) 8 + 1) % 2 ^ 64) → s1.packet r 0 = s.packet r 0 →
    ∃ t, exec (.signalPkt k) s = .next t ∧ Retired s1 t k r ∧
      t.interrupts = s.interrupts ++ (if s.packet r 1 / 2 ^ 8 % 2 ^ 8 = 0 then [] else [s.packet r 1 / 2 ^ 8 % 2 ^ 8])) ∧
  (∀ (s : State) (k : Nat) (r : Ring), StepDue s k 6 0 r → s.packetFlags r = 1 →
    (s.packetPair r 4 ≤ s.readNat 0 (s.packetPair r 2) 8 → ∃ t, exec (.waitPkt k) s = .next t ∧ Retired s t k r) ∧
    (s.readNat 0 (s.packetPair r 2) 8 < s.packetPair r 4 →
      (r.waitUntil = none → ∃ t, exec (.waitPkt k) s = .next t ∧ t.mem = s.mem ∧
        t.rings[k]? = some { r with waitUntil := some (s.now + s.packet r 6), blocked := true }) ∧
      (∀ n s1, r.waitUntil = some n → n ≤ s.now → s1 = s.writeNat 0 (r.block + 20) 4 (6 * 2 ^ 24 + r.ticket % 2 ^ 24) →
        s1.packet r 0 = s.packet r 0 → ∃ t, exec (.waitPkt k) s = .next t ∧ Retired s1 t k r))) ∧
  (∀ (s s1 : State) (k : Nat) (r : Ring), StepDue s k 7 0 r → s.packetFlags r = 6 → (∀ i < 4, s.pagesAt (s.packetPair r 8 + 4 * i) = []) →
    s1 = s.writeWords 0 (s.packetPair r 8) ((List.range (s.packet r 1 % 8)).map (fun i => s.packet r (12 + i))) →
    s1.packet r 0 = s.packet r 0 → ∃ t, exec (.writeSignal k) s = .next t ∧ t.interrupts = s.interrupts ∧
      t.mem = (s1.writeNat 0 r.slotAddr 4 (s.packet r 0 + 2 ^ 18)).mem ∧ t.rings[k]? = some { r with waitUntil := none, blocked := false }) ∧
  (∀ (s s1 : State) (k : Nat) (r : Ring), StepDue s k 7 1 r → s.packetFlags r = 6 →
    s1 = s.writeNat 0 (s.packetPair r 10) 8 ((s.readNat 0 (s.packetPair r 10) 8 + 1) % 2 ^ 64) → s1.packet r 0 = s.packet r 0 →
    ∃ t, exec (.writeSignal k) s = .next t ∧ Retired s1 t k r) ∧
  (∀ (s s1 : State) (k : Nat) (r : Ring), StepDue s k 8 0 r →
    (s.rangeMismatch (s.packetPair r 2) (s.packet r 6) = none →
      s1 = s.writePhys 0 (s.packetPair r 4) (s.readPhys 0 (s.packetPair r 2) (s.packet r 6)) → s1.packet r 0 = s.packet r 0 →
      ∃ t, exec (.copyPkt k) s = .next t ∧ t.mem = (s1.writeNat 0 r.slotAddr 4 (s.packet r 0 + 2 ^ 18)).mem ∧ t.rings[k]? = some r) ∧
    (∀ c, s.rangeMismatch (s.packetPair r 2) (s.packet r 6) = some c →
      ∃ t, exec (.copyPkt k) s = .next t ∧ t.mem = (s.writeNat 0 r.slotAddr 4 (s.packet r 0 + 2 ^ 18)).mem ∧ t.rings[k]? = some r ∧
        t.faultQueue = s.faultQueue ++ [.integrity (s.packetPair r 2 / 128 * 128) (if (s.homeDie 0 (s.packetPair r 4)).isSome then 1 else 0)
          (s.blockCheckValue (c.1 * 128)) c.2 0])) ∧
  (∀ (s s1 : State) (k : Nat) (r : Ring), StepDue s k 8 1 r →
    s1 = s.writeNat 0 (s.packetPair r 10) 8 ((s.readNat 0 (s.packetPair r 10) 8 + 1) % 2 ^ 64) →
    ∃ t, exec (.copyPkt k) s = .next t ∧ Retired s1 t k r) ∧
  (∀ (s : State) (k : Nat) (r : Ring), (Heads s k 10 r → ∃ t, exec (.link k) s = .next t ∧ Retired s t k r) ∧
    (s.turn k 10 = some r → r.ticket % 64 = 63 → ∃ t, exec (.link k) s = .next t ∧
      t.rings[k]? = some { r with
        ticket := (r.ticket + 1) % 2 ^ 32, waitUntil := none, blocked := false, claimedAt := none, segment := s.packetPair r 2,
        freed := r.freed + 1 }))

/-- R332, R334, R354: PACKET_REFUSED writes its code to the error word and retires the packet, and a SURVEY refused for its privileged flags
gets a quotation of status PRIV (R337); SLOT_UNWRITTEN_TIMEOUT writes
UNWRITTEN once 1 ms has passed, and waits on; SLICE_EXPIRY ends a slice that has run out; WAIT_STEP_RESUME goes on with a wait whose
condition has come to hold, and with no ring that is not blocked. PARTITION refuses an illegal form with status 2, and asks each die
of a legal one to quiesce.
Rests on the model's own choices of log 15, log 24, log 29, log 32 and log 38. -/
def Obligations.Scheduling : Prop :=
  (∀ (s : State) (k code : Nat) (r : Ring), s.rings[k]? = some r →
    (s.packetFault r = none → exec (.packetRefused k) s = .next s) ∧
    (∀ s1, s.packetFault r = some code → s.servedRing = some k → r.ticket % 64 ≠ 63 → s.packetType r = 1 → code = 4 →
      s1 = s.writeNat 0 (r.block + 20) 4 (code * 2 ^ 24 + r.ticket % 2 ^ 24) → s1.packet r 0 = s.packet r 0 →
      ∃ t, exec (.packetRefused k) s = .next t ∧
        Retired (s1.writeWords 0 (s1.packetPair r 14) ([s.nextQuote, 7] ++ List.replicate 14 0)) t k r ∧ t.nextQuote = s.nextQuote + 1) ∧
    (s.packetFault r = some code → s.servedRing = some k → r.ticket % 64 ≠ 63 → ¬(s.packetType r = 1 ∧ code = 4) →
      ∃ t, exec (.packetRefused k) s = .next t ∧ Retired (s.writeNat 0 (r.block + 20) 4 (code * 2 ^ 24 + r.ticket % 2 ^ 24)) t k r)) ∧
  (∀ (s : State) (k : Nat) (r : Ring), s.rings[k]? = some r →
    (s.packetType r ≠ 0 → exec (.slotUnwrittenTimeout k) s = .next s) ∧
    (s.packetType r = 0 → s.ringPair r 0 % 2 ^ 32 ≠ r.ticket →
      (r.claimedAt = none → ∃ t, exec (.slotUnwrittenTimeout k) s = .next t ∧ t = { s with rings := t.rings } ∧
        t.rings[k]? = some { r with claimedAt := some s.now }) ∧
      (∀ n, r.claimedAt = some n → s.now < n + 1000000 → exec (.slotUnwrittenTimeout k) s = .next s) ∧
      (∀ n, r.claimedAt = some n → n + 1000000 ≤ s.now → ∃ t, exec (.slotUnwrittenTimeout k) s = .next t ∧
        t.mem = (s.writeNat 0 (r.block + 20) 4 (5 * 2 ^ 24 + r.ticket % 2 ^ 24)).mem ∧
        t.rings[k]? = some { r with claimedAt := some s.now }))) ∧
  (∀ (s : State) (k : Nat) (r : Ring), s.inService = some k → s.rings[k]? = some r →
    (s.sliceEnd ≤ s.now → s.packetStep r = 0 → exec .sliceExpiry s = .next { s with inService := none }) ∧
    (s.now < s.sliceEnd → exec .sliceExpiry s = .next s)) ∧
  (∀ (s : State) (k : Nat) (r : Ring), s.rings[k]? = some r → (r.blocked = false → exec (.waitStepResume k) s = .next s) ∧
    (r.blocked = true → StepDue s k 6 0 r → s.packetFlags r = 1 → s.packetPair r 4 ≤ s.readNat 0 (s.packetPair r 2) 8 →
      ∃ t, exec (.waitStepResume k) s = .next t ∧ Retired s t k r)) ∧
  (∀ (s : State) (k : Nat) (r : Ring), Heads s k 9 r → s.packetStep r = 0 →
    (s.partitionLegal r = false → ∃ t, exec (.partition k) s = .next t ∧ Retired (s.writeNat 0 (s.packetPair r 6) 4 2) t k r) ∧
    (s.partitionLegal r = true → r.blocked = false → s.packetFlags r = 0 → ∃ t, exec (.partition k) s = .next t ∧ t.mem = s.mem ∧
      t.rings[k]? = some { r with blocked := true } ∧
      ∀ d x, s.packet r 1 / 2 ^ d % 2 = 1 → d < 8 → s.dies.find? (fun y => y.id == d) = some x →
        (t.die d).pqc.toNat % 2 = 1 ∧ (t.die d).pid = x.pid))

/-- R336, R337, R338, R340, R356: SURVEY adds the launch it names; SURVEY_COMPLETE writes the quotation record of a launch being
surveyed, and the clusters of its hold wake into its pool; QUOTE_DEADLINE_EXPIRY drops the hold of a quotation past its deadline and of
no other; ACCEPT of an unknown quotation is the ring error 7, and of an open one that nothing refuses puts the launch into residency
under a context that no live launch has; past the deadline it is STALE, with its breach, and with a pool too small or a bad root NOPOOL,
and the hold lapses; it waits for a permit (R335) and for a die that quiesces (R351), and other rings are served meanwhile (R334);
DECLINE ends one.
Rests on the model's own choices of log 15, log 32, log 34, log 35, log 43, log 89, log 119 and log 126. -/
def Obligations.QuotationPackets : Prop :=
  (∀ (s : State) (k : Nat) (r : Ring), Heads s k 1 r → ∃ t l, exec (.survey k) s = .next t ∧ t.launches = s.launches ++ [l] ∧
    l.quoteId = s.nextQuote ∧ l.stage = .surveying ∧ l.grid = s.packet r 6 ∧ l.imageAddr = s.packetPair r 2 ∧ l.args = s.packetPair r 12 ∧
    l.recordAddr = s.packetPair r 14 ∧ t.surveys = s.surveys ++ [s.nextQuote] ∧ t.nextQuote = s.nextQuote + 1 ∧ Retired s t k r) ∧
  (∀ (s : State) (q : Nat) (l : Launch), (q ∉ s.surveys.take 4 → exec (.surveyComplete q) s = .next s) ∧
    (q ∈ s.surveys.take 4 → s.launches.find? (fun x => x.quoteId == q && x.stage == .surveying) = some l →
      (∀ e, ({ s with surveys := s.surveys.filter (fun x => x != q) } : State).surveyLaunch l = .error e →
        (e.1 = 0 → exec (.surveyComplete q) s = .next s) ∧
        (e.1 ≠ 0 → ∃ t x, exec (.surveyComplete q) s = .next t ∧ t.surveys = s.surveys.filter (fun x => x != q) ∧ x ∈ t.launches ∧
          x.quoteId = q ∧ x.stage = .ended ∧ x.quote.status = e.1 ∧ x.quote.clusterMask = 0 ∧
          t.mem = (s.writeWords 0 l.recordAddr
            [q, e.1 + min e.2 0xFFFFFF * 2 ^ 8, 0, 0, 0, 0, 0, 0, 0, 0, 0, 0, 0, 0, 0, 0]).mem)) ∧
      (∀ x, ({ s with surveys := s.surveys.filter (fun x => x != q) } : State).surveyLaunch l = .ok x →
        (s.leases = [] ∨ ∀ c < 16, bitOf x.quote.clusterMask c = true → (s.cluster c).gate = .active ∨
          ∃ n, (s.cluster c).gate = .idle n ∨ (s.cluster c).gate = .waking n) →
        ∃ t y, exec (.surveyComplete q) s = .next t ∧ t.surveys = s.surveys.filter (fun x => x != q) ∧ y ∈ t.launches ∧
          y = { x with manifestChanged := y.manifestChanged } ∧ t.mem = (s.writeWords 0 l.recordAddr (quoteWords x)).mem ∧
          ∀ c z, c < 16 → bitOf x.quote.clusterMask c = true → s.clusters.find? (fun z => z.id == c) = some z →
            (z.gate = .gated → t.cluster c = { z with gate := .waking s.now, pool := x.img.opclass, nextPool := x.img.opclass }) ∧
            (z.gate = .active ∨ (∃ n, z.gate = .idle n) → t.cluster c = { z with gate := .active })))) ∧
  (∀ (s : State) (q : Nat) (l : Launch), s.launches.find? (fun x => x.quoteId == q && x.stage == .quoted && x.holds) = some l →
    (s.schedulerTime ≤ l.quote.deadline → exec (.quoteDeadlineExpiry q) s = .next s) ∧
    (l.quote.deadline < s.schedulerTime → ∃ t, exec (.quoteDeadlineExpiry q) s = .next t ∧ t.mem = s.mem ∧
      ∀ x ∈ t.launches, x.quoteId = q → x.booked = [] ∧ x.quote.clusterMask = 0)) ∧
  (∀ (s : State) (k : Nat) (r : Ring), Heads s k 2 r →
    (s.openQuote (s.packet r 1) = none →
      ∃ t, exec (.accept k) s = .next t ∧ Retired (s.writeNat 0 (r.block + 20) 4 (7 * 2 ^ 24 + r.ticket % 2 ^ 24)) t k r) ∧
    (∀ l, s.openQuote (s.packet r 1) = some l → s.staged = [] →
      (l.quote.deadline < s.schedulerTime → l.debug = false → ∃ t ws bs cs, exec (.accept k) s = .next t ∧
        Retired (((s.writeWords 0 (s.packetPair r 10) ws).accountPost bs).accountPost cs) t k r ∧
        nth 0 ws 0 = l.quoteId ∧ nth 0 ws 1 % 2 ^ 16 = 16 + 2 ^ 8 ∧ nth 0 bs 0 = l.quoteId % 2 ^ 32 ∧ nth 0 bs 1 = 34 + 3 * 2 ^ 8 ∧
        nth 0 cs 0 = l.quoteId ∧ nth 0 cs 1 = 16 ∧ ∀ x ∈ t.launches, x.quoteId = l.quoteId → x.stage = .ended ∧ x.quote.clusterMask = 0) ∧
      (s.schedulerTime ≤ l.quote.deadline → s.noPool l r = true → l.breach = false → l.ctx = 0 → ∃ t ws cs, exec (.accept k) s = .next t ∧
        Retired ((s.writeWords 0 (s.packetPair r 10) ws).accountPost cs) t k r ∧
        nth 0 ws 0 = l.quoteId ∧ nth 0 ws 1 = 17 ∧ nth 0 cs 0 = l.quoteId ∧ nth 0 cs 1 = 17 ∧
        ∀ x ∈ t.launches, x.quoteId = l.quoteId → x.stage = .ended ∧ x.quote.clusterMask = 0)) ∧
    (∀ l, s.openQuote (s.packet r 1) = some l → s.schedulerTime ≤ l.quote.deadline → s.noPool l r = false → l.priority = false →
      ∃ t x, exec (.accept k) s = .next t ∧ x ∈ t.launches ∧ x.quoteId = l.quoteId ∧ x.stage = .residency ∧
        x.ctx = s.freeContext l.quoteId ∧ x.trapArea = s.packetPair r 2 ∧ x.trapCap = s.packet r 4 ∧ x.svcEntries = s.packet r 5 ∧
        x.svcQueue = s.packetPair r 6 ∧ x.pool = s.packetPair r 8 ∧ x.completion = s.packetPair r 10 ∧ x.pageTable = s.packetPair r 12)) ∧
  (∀ (s : State) (k : Nat) (r : Ring) (l : Launch), s.rings[k]? = some r → s.packetType r = 2 → s.packetFault r = none →
    s.openQuote (s.packet r 1) = some l → s.schedulerTime ≤ l.quote.deadline → s.noPool l r = false →
    (s.maySend l.quote.clusterMask = false ∨ (∃ d < 8, s.takesWork d l.supervisor = false ∧
      (bitOf l.quote.clusterMask (2 * d) = true ∨ bitOf l.quote.clusterMask (2 * d + 1) = true))) →
    exec (.accept k) s = .next s ∧ s.servedRing ≠ some k) ∧
  (∀ (s : State) (k : Nat) (r : Ring), Heads s k 3 r →
    (s.openQuote (s.packet r 1) = none →
      ∃ t, exec (.decline k) s = .next t ∧ Retired (s.writeNat 0 (r.block + 20) 4 (7 * 2 ^ 24 + r.ticket % 2 ^ 24)) t k r) ∧
    (∀ l, s.openQuote (s.packet r 1) = some l → ∃ t, exec (.decline k) s = .next t ∧ Retired s t k r ∧
      ∀ x ∈ t.launches, x.quoteId = l.quoteId → x.stage = .ended ∧ x.quote.clusterMask = 0)) ∧
  (∀ (s : State) (q : Nat), s.launches.length < 65535 → ∀ l ∈ s.launches, l.live = true → l.ctx ≠ s.freeContext q)

/-- R341, R342, R376, R377, R378, R379: PAGE_FAULT_DOORBELL takes a page that the driver was asked for, and that is now mapped, off
the missing ones, and ends the launch as the caller's fault otherwise; LAUNCH_START starts a launch without missing pages once its
earliest start has come, writes its record and empties the constant caches (R117); LAUNCH_COMPLETE ends a launch of which nothing is
left, and no other: its last completion record says when its last workgroup retired, its breach records that wait are posted,
and then its settlement with its charge. A record goes to the account queue, or behind the backlog where the queue is full;
ACCOUNT_BACKLOG_DRAIN moves the first record of the backlog to the queue where it has room.
Rests on the model's own choices of log 32, log 37, log 43 and log 85. -/
def Obligations.LaunchLife : Prop :=
  (∀ (s : State) (ctx page : Nat) (mapped : Bool) (l : Launch), s.launch ctx = some l →
    (page ∉ l.asked → exec (.pageFaultDoorbell ctx page mapped) s = .next s) ∧
    (page ∈ l.asked → mapped = true → s.pageThere l page = true →
      ∃ t x, exec (.pageFaultDoorbell ctx page mapped) s = .next t ∧ t.mem = s.mem ∧ t.launch ctx = some x ∧
        x = { l with missing := l.missing.filter (fun p => p != page), asked := x.asked } ∧ page ∉ x.asked ∧
        (∀ p ∈ l.asked, p ≠ page → p ∈ x.asked)) ∧
    (page ∈ l.asked → mapped = false ∨ s.pageThere l page = false → (∀ y ∈ s.launches, y.ctx = ctx → y.outcome ≠ 5) →
      ∃ t x, exec (.pageFaultDoorbell ctx page mapped) s = .next t ∧ t.launch ctx = some x ∧ x.outcome = 5 ∧ x.missing = [] ∧ x.pending = [] ∧ x.stopped = true)) ∧
  (∀ (s : State) (ctx : Nat) (l : Launch), s.launch ctx = some l →
    (l.stage ≠ .residency ∨ l.missing ≠ [] ∨ s.schedulerTime < l.quote.earliest ∨ s.maySend l.quote.clusterMask = false →
      exec (.launchStart ctx) s = .next s) ∧
    (l.stage = .residency → l.missing = [] → l.outcome ≠ 5 → l.quote.earliest ≤ s.schedulerTime → s.maySend l.quote.clusterMask = true →
      (∀ x ∈ s.launches, x.quoteId = l.quoteId → x = l) → (∀ r ∈ l.img.regions, r.kind ≠ 4) →
      ∃ t, exec (.launchStart ctx) s = .next t ∧ t.launch ctx = some { l with stage := .running, startAt := s.schedulerTime } ∧
        (∀ c ∈ t.copies, c.path ≠ .con) ∧
        t.mem = (s.writeWords 0 l.completion (completionWords { l with stage := .running, startAt := s.schedulerTime } 2)).mem) ∧
    (s.launchDone l = false ∨ s.mayReport l.quote.clusterMask = false → exec (.launchComplete ctx) s = .next s) ∧
    (∀ (l1 : Launch) (s1 : State), s.launchDone l = true → s.mayReport l.quote.clusterMask = true →
      l1 = { l with endAt := if l.retired = 0 then s.schedulerTime else l.endAt, startAt := if l.stage = .running then l.startAt else 0 } →
      s1 = ({ s with mem := Cells.zero s.mem (polderKey ctx 0) (2 ^ 56) } : State).writeWords 0 l.completion ([l.quoteId,
        l.outcome + (if l.breach then 2 ^ 8 else 0) + ctx * 2 ^ 16] ++ twoWords l1.startAt ++ twoWords l1.endAt ++
        twoWords (l.energyPj / 1000000 % 2 ^ 63 + (if l.energySat then 2 ^ 63 else 0)) ++
        [l.traps, l.trapsDropped, l.svcDropped, l.retired] ++ List.replicate 4 0) →
      ∃ t x s2, exec (.launchComplete ctx) s = .next t ∧ x ∈ t.launches ∧ x.quoteId = l.quoteId ∧ x.stage = .ended ∧
        x.endAt = l1.endAt ∧ x.quote.clusterMask = 0 ∧ (∀ y ∈ t.polderLines, y.1 ≠ ctx) ∧ (∀ y ∈ t.tlb, y.ctx ≠ ctx) ∧
        (∀ c ∈ t.cores, ∀ y ∈ c.l1, y.ctx ≠ ctx) ∧
        s2 = (s1.postThose (fun r => nth 0 r 0 == BitVec.ofNat 32 l.quoteId)).accountPost ([l.quoteId, l.outcome + (if l.outcome < 16 then ctx * 2 ^ 16 else 0)] ++
          twoWords (l1.charge l.outcome).1 ++ twoWords (l1.charge l.outcome).2 ++
          [(if l.debug then 0 else min 1000 l.credit) + min l.breaches 0x7FFF * 2 ^ 16 + (if l.manifestChanged then 2 ^ 31 else 0),
            if l.img.det && !l.debug then l.manifest else 0]) ∧
        t.mem = s2.mem ∧ t.account = s2.account ∧ t.accountProduced = s2.accountProduced ∧
        t.staged = s.staged.filter (fun r => !(nth 0 r 0 == BitVec.ofNat 32 l.quoteId)))) ∧
  (∀ (s : State) (ws : List Nat),
    (s.account ≠ [] ∨ s.accountCap ≤ s.accountUsed → s.accountPost ws = { s with account := s.account ++ [ws.map (BitVec.ofNat 32)] }) ∧
    (s.account = [] → s.accountUsed < s.accountCap → ∃ t, s.accountPost ws = t ∧ t.account = [] ∧
      t.accountProduced = (s.accountProduced + 1) % 2 ^ 32 ∧
      t.mem = ((s.writeWords 0 (s.accountBase + 64 + s.accountProduced % s.accountCap * 32) ws).writeNat 0 s.accountBase 4
        ((s.accountProduced + 1) % 2 ^ 32)).mem)) ∧
  (∀ (s : State) (ws : List Word) (rest : List (List Word)), (s.account = [] → exec .accountBacklogDrain s = .next s) ∧
    (s.account = ws :: rest → s.accountCap ≤ s.accountUsed → exec .accountBacklogDrain s = .next s) ∧
    (s.account = ws :: rest → s.accountUsed < s.accountCap → ∃ t, exec .accountBacklogDrain s = .next t ∧ t.account = rest ∧
      t.accountProduced = (s.accountProduced + 1) % 2 ^ 32 ∧
      t.mem = ((s.writeWords 0 (s.accountBase + 64 + s.accountProduced % s.accountCap * 32) (ws.map BitVec.toNat)).writeNat 0 s.accountBase 4
        ((s.accountProduced + 1) % 2 ^ 32)).mem)) ∧
  (∀ (l : Launch) (c mt me : Nat), l.debug = false → c = min 1000 l.credit → 0 < l.startAt → mt = l.endAt - l.startAt → l.energySat = false →
    me = l.energyPj / 1000000 * 1000 →
    l.charge 3 = (l.quote.worstTime * (1000 - c) / 1000, l.quote.worstEnergy * (1000 - c) / 1000) ∧
    l.charge 4 = (min l.quote.worstTime mt * (1000 - c) / 1000, min l.quote.worstEnergy me * (1000 - c) / 1000) ∧
    l.charge 5 = (min l.quote.worstTime (l.quote.overhead + mt), min l.quote.worstEnergy me))

/-- R335, R31: each leaf controller's command link has 8 permits in each direction. ACCEPT and LAUNCH_START spend one toward every
cluster of the reservation, WORKGROUP_DISPATCH of a continuation in `.det` one toward its cluster, LAUNCH_COMPLETE and
DET_GENERATION_FORM one back from every cluster; an acknowledgement returns it; no step goes on that has
none to spend, and none takes a count beyond 8. What is not acknowledged shows as busy id 0x83 (R351).
Which steps send messages, but for DET_GENERATION_FORM, is the model's own choice of log 43. -/
def Obligations.SendPermits : Prop :=
  (∀ (s : State) (mask c : Nat) (up : Bool) (x : Cluster), s.clusters.find? (fun y => y.id == c) = some x → c < 16 →
    (bitOf mask c = true → (s.message mask up).cluster c =
      { x with sent := if up then x.sent else x.sent + 1, reported := if up then x.reported + 1 else x.reported }) ∧
    (bitOf mask c = false → (s.message mask up).cluster c = x) ∧
    (s.maySend mask = true → bitOf mask c = true → x.sent < 8) ∧ (s.mayReport mask = true → bitOf mask c = true → x.reported < 8)) ∧
  (∀ (s t : State) (ctx c : Nat) (l : Launch), s.launch ctx = some l → c < 16 → s.clusters.any (fun y => y.id == c) = true →
    bitOf l.quote.clusterMask c = true →
    (l.stage = .residency → exec (.launchStart ctx) s = .next t → t ≠ s →
      (t.cluster c).sent = (s.cluster c).sent + 1 ∧ (t.cluster c).sent ≤ 8) ∧
    (s.launchDone l = true → exec (.launchComplete ctx) s = .next t → t ≠ s →
      (t.cluster c).reported = (s.cluster c).reported + 1 ∧ (t.cluster c).reported ≤ 8) ∧
    (l.kept ≠ [] → exec (.detGenerationForm ctx) s = .next t → t ≠ s →
      (t.cluster c).reported = (s.cluster c).reported + 1 ∧ (t.cluster c).reported ≤ 8)) ∧
  (∀ (s : State) (k c : Nat) (r : Ring) (l : Launch), Heads s k 2 r → s.openQuote (s.packet r 1) = some l →
    s.schedulerTime ≤ l.quote.deadline → s.noPool l r = false → l.priority = false → c < 16 → s.clusters.any (fun y => y.id == c) = true → bitOf l.quote.clusterMask c = true →
    ∃ t, exec (.accept k) s = .next t ∧ (t.cluster c).sent = (s.cluster c).sent + 1 ∧ (t.cluster c).sent ≤ 8) ∧
  (∀ (s t : State) (ctx wg core : Nat) (l : Launch) (p : Plan), s.launch ctx = some l → l.plan wg = some p → coreCluster core < 16 →
    s.clusters.any (fun y => y.id == coreCluster core) = true → exec (.workgroupDispatch ctx wg core) s = .next t → t ≠ s →
    (t.cluster (coreCluster core)).sent = (s.cluster (coreCluster core)).sent + (if l.img.det = true ∧ p.generation ≠ 0 then 1 else 0) ∧
    (l.img.det = true → p.generation ≠ 0 → (t.cluster (coreCluster core)).sent ≤ 8)) ∧
  (∀ (s : State) (c : Nat) (up : Bool) (ms : List Move) (x : Cluster), s.agenda = .acknowledge c up :: ms →
    s.clusters.find? (fun y => y.id == c) = some x → (∀ w ∈ s.wgs, w.claims = [] ∧ w.stuckAt = none) →
    ∃ t, step s = .next t ∧ t.agenda = ms ∧ t.mem = s.mem ∧ t.cluster c =
      { x with sent := if up then x.sent else x.sent - 1, reported := if up then x.reported - 1 else x.reported }) ∧
  (∀ (s : State) (d : Nat), 0x83 ∈ s.busyIds d ↔ ∃ c ∈ s.clusters, c.id / 2 = d ∧ 0 < c.sent + c.reported)

/-- R348, R356, R357, R358, R359, R360: IDLE_TIMER_EXPIRY starts the gating of a cluster that nothing has used for 50 µs and of no other,
GATING_COMPLETE ends it 2 µs later, and CLUSTER_WAKE_COMPLETE ends a wake of 8 µs in the pool to come, its cores' load limits 32;
TARGET_APPLY sets rationing, never below the floor that holds and reservations set, pools and rail, and a pool below a launch's class
is a breach THERMAL or SUPPLY in an emergency whose second row is reached (R345, R359), and none in any other state; POWER_LOOP writes a die's sensor mailbox, keeps what it says, moves to the first row at 100 °C,
and writes the target mailbox; MARGINING_RESTART_REQUEST margins a held rail again, and no pinned one.
Rests on the model's own choices of log 5, log 15, log 39, log 102, log 125 and log 126. -/
def Obligations.PowerStates : Prop :=
  (∀ (s : State) (c n : Nat) (x : Cluster), s.clusters.find? (fun y => y.id == c) = some x →
    (x.gate = .idle n → (s.now < n + 50000 ∨ s.clusterUsed c = true) → exec (.idleTimerExpiry c) s = .next s) ∧
    (x.gate = .idle n → n + 50000 ≤ s.now → s.clusterUsed c = false → ∃ t, exec (.idleTimerExpiry c) s = .next t ∧ t.mem = s.mem ∧
      t.cluster c = { x with gate := .gating s.now } ∧ (∀ k ∈ t.cores, coreCluster k.id = c → k.l1 = [])) ∧
    (x.gate = .gating n → s.now < n + 2000 → exec (.gatingComplete c) s = .next s) ∧
    (x.gate = .gating n → n + 2000 ≤ s.now → ∃ t, exec (.gatingComplete c) s = .next t ∧ t.mem = s.mem ∧
      t.cluster c = { x with gate := .gated } ∧ (∀ e ∈ t.tlb, e.cluster ≠ c)) ∧
    (x.gate = .waking n → s.now < n + 8000 → exec (.clusterWakeComplete c) s = .next s) ∧
    (∀ pool, x.gate = .waking n → n + 8000 ≤ s.now → pool = (if s.covered c then x.pool else x.nextPool) → pool = x.pool ∨ s.leases = [] →
      ∃ t g, exec (.clusterWakeComplete c) s = .next t ∧ t.mem = s.mem ∧ t.cluster c = { x with pool := pool, gate := g } ∧
        g = (if s.clusterUsed c then .active else .idle s.now) ∧ (∀ k ∈ t.cores, coreCluster k.id = c → k.loadLimit = 32) ∧
        t.manifestGen = (if x.pool = pool then s.manifestGen else (s.manifestGen + 1) % 2 ^ 32))) ∧
  (∀ (s : State) (d : Nat) (x : Die), s.dies.find? (fun y => y.id == d) = some x →
    (x.thermalRow < 2 ∨ x.emergency ≠ 3 ∧ x.emergency ≠ 4 ∨
        (∀ l ∈ s.launches, ∀ j < 2, l.live = true → bitOf l.quote.clusterMask (2 * d + j) = true → l.img.opclass ≤ x.targetPools / 4 ^ j % 4) →
      s.leases = [] ∨ x.targetShed = 0 → ∃ t, exec (.targetApply d) s = .next t ∧ t.mem = s.mem ∧ t.launches = s.launches ∧
      t.die d = { x with rail := x.targetRail } ∧
      ∀ j y, j < 2 → s.clusters.find? (fun z => z.id == 2 * d + j) = some y → t.cluster (2 * d + j) = { y with
        rationing := if x.targetRationing / 4 ^ j % 4 = 0 then y.rationing else max (x.targetRationing / 4 ^ j % 4) (s.rationFloor (2 * d + j)),
        nextPool := x.targetPools / 4 ^ j % 4 } ∧
        (x.targetRationing / 4 ^ j % 4 ≠ 0 → ∀ l ∈ s.launches, l.holds = true → bitOf l.quote.clusterMask (2 * d + j) = true →
          l.quote.rationing ≤ (t.cluster (2 * d + j)).rationing)) ∧
    (∀ l, s.launches = [l] → l.live = true → l.debug = false → s.leases = [] → s.staged = [] →
      (∃ j < 2, bitOf l.quote.clusterMask (2 * d + j) = true ∧ x.targetPools / 4 ^ j % 4 < l.img.opclass) →
      (2 ≤ x.thermalRow → x.emergency = 3 ∨ x.emergency = 4 → ∃ t ws, exec (.targetApply d) s = .next t ∧
        t.mem = s.mem ∧ t.staged = [ws] ∧ (nth 0 ws 1).toNat = x.emergency + 2 ^ 8 ∧
        (t.launch l.ctx).map Launch.breaches = some (l.breaches + 1))) ∧
    (x.margin = .held → ∃ t, exec (.marginingRestartRequest d) s = .next t ∧ t.mem = s.mem ∧
      t.die d = { x with margin := .margining, marginReads := 0, marginErrors := 0 }) ∧
    (x.margin ≠ .held → ∃ t, exec (.marginingRestartRequest d) s = .next t ∧ t.die d = x) ∧
    (∀ r, d = 0 → r.temperature < 880 ∨ x.thermalRow = 0 → x.tripped = false → ∃ t, exec (.powerLoop [r]) s = .next t ∧
      t.mem = ((s.writeWords 0 (Config.sensorBox 0) [r.temperature, r.power, s.engineDraw 0 / 10, r.reads % 2 ^ 32, r.reads / 2 ^ 32,
        r.corrected, r.uncorrected]).writeWords 0 (Config.targetBox 0) [(t.die 0).targetRationing, (t.die 0).targetPools,
          (t.die 0).targetRail, (t.die 0).targetShed]).mem ∧
      (t.die 0).targetPools = (s.cluster 0).nextPool % 4 + 4 * ((s.cluster 1).nextPool % 4) ∧
      (t.die 0).temperature = r.temperature ∧ (t.die 0).powerTenths = r.power ∧ (t.die 0).enginePower = s.engineDraw 0 / 10 ∧
      (r.temperature < 800 → (t.die 0).targetShed = 0 ∧ (t.die 0).targetRationing = x.targetRationing ∧
        (t.die 0).thermalRow = if x.emergency = 4 then x.thermalRow else 0) ∧
      (800 ≤ r.temperature → (t.die 0).targetShed = 31 ∧ (t.die 0).emergency = 3 ∧ (t.die 0).thermalRow = max 1 x.thermalRow ∧
        (t.die 0).targetRationing = max (s.rationFloor 0) ((s.cluster 0).rationing - 1) + 4 * max (s.rationFloor 1) ((s.cluster 1).rationing - 1)) ∧
      (r.uncorrected = 0 → x.margin = .margining → x.marginErrors + r.corrected < 10 → 10 ^ 13 ≤ x.marginReads + r.reads →
        (t.die 0).targetRail = max 700 (x.targetRail - 5)) ∧
      (r.uncorrected = 0 → x.margin = .margining → 10 ≤ x.marginErrors + r.corrected →
        (t.die 0).targetRail = min 800 (x.targetRail + 10) ∧ (t.die 0).margin = .held))) ∧
  (∀ (s : State) (c : Nat), ∀ l ∈ s.launches, l.holds = true → bitOf l.quote.clusterMask c = true → l.quote.rationing ≤ s.rationFloor c)

/-- R359, R256, R366, R365: THERMAL_TRIP at 120 °C and the third SUPPLY_DROOP trip a die: its workgroups end, with a breach for each
launch, its leases end, a reserved one with a breach of its own (R44), and its clusters are off; a first droop only asks for rationing
and shedding, and one that comes again before a loop has passed finds that row done; MCHK ends the workgroups it touched with a record
and pins their die's rail (R360); an access that would read a block known bad raises it, with an integrity record;
CHECK_VALUE_MISMATCH at exit aborts the transfer with an integrity record, and is none where the value agrees; an inbound write
writes its bytes, and a read returns them, or Completer Abort where a check value is wrong; an address in no range faults.
Rests on the model's own choices of log 32, log 33, log 39, log 57, log 61, log 102, log 105, log 110 and log 125. -/
def Obligations.Emergencies : Prop :=
  (∀ (s : State) (d : Nat) (x : Die), s.dies.find? (fun y => y.id == d) = some x → s.clusters.any (fun c => c.id == 2 * d) = true →
    s.clusters.any (fun c => c.id == 2 * d + 1) = true →
    (x.tripped = true → exec (.thermalTrip d) s = .next s ∧ exec (.supplyDroop d) s = .next s) ∧
    (x.temperature < 960 → exec (.thermalTrip d) s = .next s) ∧
    ((∀ i, (s.siteOf d i).queue = []) → (∀ l ∈ s.launches, ∀ r ∈ l.img.regions, r.kind ≠ 2) → x.tripped = false →
      (960 ≤ x.temperature → ∃ t, exec (.thermalTrip d) s = .next t ∧ TrippedOff s t d) ∧
      (2 ≤ x.thermalRow → x.emergency ≠ 4 → ∃ t, exec (.supplyDroop d) s = .next t ∧ TrippedOff s t d)) ∧
    (x.tripped = false → x.thermalRow = 0 → ∃ t, exec (.supplyDroop d) s = .next t ∧
      t.die d = { x with
        thermalRow := 1, emergency := 4, targetShed := 31,
        targetRationing := max (s.rationFloor (2 * d)) ((s.cluster (2 * d)).rationing - 1) +
          4 * max (s.rationFloor (2 * d + 1)) ((s.cluster (2 * d + 1)).rationing - 1) } ∧ t.leases = s.leases ∧ t.launches = s.launches ∧
      t.mem = (s.writeWords 0 (Config.targetBox d) [(t.die d).targetRationing, x.targetPools, x.targetRail, 31]).mem) ∧
    (x.tripped = false → x.thermalRow = 1 → x.emergency = 4 → exec (.supplyDroop d) s = .next s) ∧
    ((∀ w ∈ s.wgs, w.resident = true → coreDie w.core ≠ d) → x.tripped = false → x.thermalRow = 1 → x.emergency ≠ 4 →
      ∃ t, exec (.supplyDroop d) s = .next t ∧ t = { s with dies := t.dies } ∧ t.die d = { x with thermalRow := 2, emergency := 4 })) ∧
  (∀ (s : State) (ctx wg k : Nat) (l : Launch) (w : Workgroup) (u : Thread), s.launch ctx = some l → s.wgOf ctx wg = some w →
    w.threads = [u] → u.tid = k → u.status = .ready → u.tx.committing = none → l.debug = false → l.cont = true →
    s.dies.any (fun y => y.id == coreDie w.core) = true → (∀ a ∈ s.flight, ¬(a.ctx = ctx ∧ a.wg = wg)) → s.staged = [] →
    ∃ t ws, exec (.mchk [(ctx, wg)]) s = .next t ∧ (∀ j v, t.threadOf ctx wg j = some v → v.status = .exited) ∧
      t.die (coreDie w.core) = { s.die (coreDie w.core) with
        rail := 800, targetRail := 800, margin := .pinned, uncorrected := (s.die (coreDie w.core)).uncorrected + 1,
        counted := (s.die (coreDie w.core)).counted + 1 } ∧
      t.staged = [ws] ∧ (nth 0 ws 1).toNat = 1 + 2 ^ 8 ∧ (nth 0 ws 6).toNat = (coreDie w.core + 0xFF * 2 ^ 8) % 2 ^ 32 ∧
      (t.launch ctx).map Launch.breaches = some (l.breaches + 1) ∧
      (t.launch ctx).map Launch.traps = some (if l.traps < l.trapCap then l.traps + 1 else l.traps)) ∧
  (∀ (s : State) (n : Nat) (a : Access) (signed : Bool) (words address block : Nat) (found : Word), a ∈ s.flight → a.id = n →
    (∀ b ∈ s.flight, b.id = n → b = a) → a.op = .load signed words → s.badRead a = some (address, block, found) →
    (∃ s1, s.perform a = .done s1) → (∀ w, s.wgOf a.ctx a.wg = some w → ∀ u ∈ w.threads, u.status = .exited) →
    ∃ t, exec (.loadPerform n) s = .next t ∧ Landed s t n ∧ t.mem = s.mem ∧ t.wgs = s.wgs ∧
      t.faultQueue = s.faultQueue ++ [.integrity (address / 128 * 128) 1 (s.blockCheckValue (block * 128)) found a.ctx]) ∧
  (∀ (s : State) (n : Nat) (a : Access) (signed : Bool) (words address block : Nat) (found : Word) (l : Launch) (w : Workgroup) (u : Thread),
    s.flight = [a] → a.id = n → a.op = .load signed words → s.badRead a = some (address, block, found) →
    (∃ s1, s.perform a = .done s1) → s.launch a.ctx = some l → s.wgOf a.ctx a.wg = some w → w.threads = [u] → u.status = .ready →
    u.tx.committing = none → l.debug = false → l.cont = true → ∃ t, exec (.loadPerform n) s = .next t ∧ t.flight = [] ∧
      (∀ j v, t.threadOf a.ctx a.wg j = some v → v.status = .exited) ∧ (t.launch a.ctx).map Launch.breaches = some (l.breaches + 1) ∧
      t.faultQueue = s.faultQueue ++ [.integrity (address / 128 * 128) 1 (s.blockCheckValue (block * 128)) found a.ctx]) ∧
  (∀ (s : State) (address : Nat) (found : Word),
    (found = s.blockCheckValue (s.locOf 0 address / 128 * 128) → ∀ place cs, exec (.checkValueMismatch address place found cs) s = .next s) ∧
    (found ≠ s.blockCheckValue (s.locOf 0 address / 128 * 128) → ∃ t, exec (.checkValueMismatch address 0 found []) s = .next t ∧
      t.mem = s.mem ∧ t.port = s.port ++ [.completerAbort address] ∧ t.faultQueue = s.faultQueue ++
        [.integrity (address / 128 * 128) 0 (s.blockCheckValue (s.locOf 0 address / 128 * 128)) found 0])) ∧
  (∀ (s : State) (address n : Nat) (data : List Byte),
    (s.tierOf 0 address = none → exec (.pcieInboundWrite address data) s = .fault (.absentPhysical address) ∧
      exec (.pcieInboundRead address n) s = .fault (.absentPhysical address)) ∧
    ((s.tierOf 0 address).isSome = true →
      (∃ t, exec (.pcieInboundWrite address data) s = .next t ∧ t.scratch = s.scratch ∧ t.flight = s.flight ∧
        (s.canonical = true → (∀ i j, i < data.length → j < data.length → s.locOf 0 (address + i) = s.locOf 0 (address + j) → i = j) →
          (∀ i, i < data.length → Cells.get t.mem (s.locOf 0 (address + i)) = nth 0 data i) ∧
          (∀ x, (∀ i, i < data.length → s.locOf 0 (address + i) ≠ x) → Cells.get t.mem x = Cells.get s.mem x))) ∧
      (s.badCheck = [] → exec (.pcieInboundRead address n) s = .next { s with
        port := s.port ++ [.pcieRead ((List.range n).map (fun i => Cells.get s.mem (s.locOf 0 (address + i))))] }) ∧
      (∀ c, s.rangeMismatch address n = some c → ∃ t, exec (.pcieInboundRead address n) s = .next t ∧ t.mem = s.mem ∧
        t.port = s.port ++ [.completerAbort address])))

/-- R46, R54, R190, R273, R361 to R364, R367, R368, R380: a word that is no instruction raises ILLEGAL with its operand; a die that
loses its clock reference runs on its oscillator from its interval; a module whose link retrains keeps its contribution until
LINK_TRAINING, which takes the highest version that both sides run; RESET starts the firmware that passes every check, whose boot ends
with a self-test of every die, and the recovery loader where it does not; RECOVERY_IMAGE and FIRMWARE_UPDATE store an image; SELF_TEST
retires what it finds, and the sites that have failed, on quiesced dies; the management port answers with a version, a measurement, the
manifest and telemetry.
Rests on the model's own choices of log 9, log 11, log 21, log 22, log 28, log 40 and log 121. -/
def Obligations.ManagementAndLinks : Prop :=
  (∀ (s : State) (g : Group) (k : Nat) (ks : List Nat) (x : Word), s.group = some g → g.tids = k :: ks →
    exec (.illegalWordIssue x) s = .next (State.trap { s with group := none } g { code := .illegal, operand := x.toNat } k)) ∧
  (∀ (s : State) (d n : Nat) (x : Die), s.dies.find? (fun y => y.id == d) = some x →
    (x.clock.lostAt = some n → exec (.clockReferenceLoss d) s = .next s) ∧
    (x.clock.lostAt = none → ∃ t, exec (.clockReferenceLoss d) s = .next t ∧ t.mem = s.mem ∧ (t.die d).clock.lostAt = some s.now ∧
      -50 ≤ (t.die d).clock.drift ∧ (t.die d).clock.drift ≤ 50 ∧ t.interval d = s.interval d)) ∧
  (∀ (s : State) (m : Nat), (m ∈ s.retraining → exec (.linkRetrain m) s = .next s) ∧
    (m ∉ s.retraining → exec (.linkRetrain m) s = .next { s with
      retraining := s.retraining ++ [m], podContribution := s.podContribution ++ [(m, s.formed 99)] })) ∧
  (∀ (s : State) (lk peer : Nat),
    ((∀ v ∈ linkVersions lk, peer < v) → exec (.linkTraining lk peer) s = .next s) ∧
    ((∃ v ∈ linkVersions lk, v ≤ peer) → ∃ t v, exec (.linkTraining lk peer) s = .next t ∧ t.mem = s.mem ∧ v ∈ linkVersions lk ∧ v ≤ peer ∧
      (∀ z ∈ linkVersions lk, z ≤ peer → z ≤ v) ∧ t.links.find? (fun z => z.1 == lk) = some (lk, v) ∧
      (256 ≤ lk → lk % 256 ∉ t.retraining))) ∧
  (∀ (s : State) (x : FirmwareImage), x = s.nextImage.getD s.firmware →
    (imagePasses x s.fusedMin = true → ∃ t, exec .resetModule s = .next t ∧ t.booting = true ∧ t.booted = false ∧ t.firmware = x ∧
      t.launches = [] ∧ t.wgs = [] ∧ t.flight = [] ∧ t.rings = [] ∧ (s.staged = [] → t.account = s.account ∧ t.mem = s.mem) ∧
      ∀ fs, ∃ t2 r, exec (.selfTest [] fs) t = .next t2 ∧ t2.booting = false ∧ t2.booted = true ∧ t2.rings = [r] ∧
        r.privileged = true ∧ r.priority = 3 ∧ r.version = 1 ∧ t2.launches = [] ∧
        t2.fusedMin = (if x.raiseMinimum then max s.fusedMin x.securityVersion else s.fusedMin)) ∧
    (imagePasses x s.fusedMin = false → ∃ t, exec .resetModule s = .next t ∧ t.booting = false ∧ t.booted = false ∧ t.recovery = true ∧
      t.rings = [] ∧ (s.staged = [] → t.mem = s.mem))) ∧
  (∀ (s : State) (x : FirmwareImage),
    (s.recovery = true → imagePasses x s.fusedMin = true → exec (.recoveryImage x) s = .next { s with nextImage := some x }) ∧
    (imagePasses x s.fusedMin = false → exec (.recoveryImage x) s = .next s) ∧
    (s.booted = true → exec (.firmwareUpdate x) s = .next { s with nextImage := some x }) ∧
    (s.booted = false → exec (.firmwareUpdate x) s = .next s)) ∧
  (∀ (s : State) (d c i : Nat) (y : Cluster) (z : Die), s.clusters.find? (fun x => x.id == c) = some y →
    s.dies.find? (fun x => x.id == d) = some z → s.booting = false →
    (s.booted = false ∨ bitOf z.pqc.toNat 8 = false → ∀ fs, exec (.selfTest [d] fs) s = .next s) ∧
    (s.booted = true → bitOf z.pqc.toNat 8 = true →
      (c / 2 = d → 0 < y.spares → ∃ t, exec (.selfTest [d] [.core c]) s = .next t ∧ t.mem = s.mem ∧
        t.cluster c = { y with spares := y.spares - 1 } ∧ t.manifestGen = (s.manifestGen + 1) % 2 ^ 32) ∧
      (c / 2 = d → y.spares = 0 → ∃ t, exec (.selfTest [d] [.core c]) s = .next t ∧ t.cluster c = { y with withdrawn := true }) ∧
      (i ∉ z.deadSites → z.failedSites = [] → ∃ t, exec (.selfTest [d] [.site d i]) s = .next t ∧
        t.die d = { z with deadSites := z.deadSites ++ [i] }) ∧
      (i ∉ z.deadSites → z.failedSites = [i] → ∃ t, exec (.selfTest [d] []) s = .next t ∧
        t.die d = { z with deadSites := z.deadSites ++ [i], failedSites := [] }))) ∧
  (∀ (s : State) (offered : List Nat), (13 ∈ offered → exec (.getVersion offered) s = .next { s with spdm := 13, port := s.port ++ [.version 13] }) ∧
    (13 ∉ offered → 12 ∈ offered → exec (.getVersion offered) s = .next { s with spdm := 12, port := s.port ++ [.version 12] }) ∧
    (13 ∉ offered → 12 ∉ offered → exec (.getVersion offered) s = .next s)) ∧
  (∀ (s : State) (i : Nat), (i ∈ [1, 2, 3, 4, 5, 16] → exec (.spdmMeasurements i) s = .next { s with
      port := s.port ++ [.measurement i (s.measurement i) (Config.signEd25519 (s.measurement i))] }) ∧
    (i ∉ [1, 2, 3, 4, 5, 16] → exec (.spdmMeasurements i) s = .next s) ∧
    exec .determinismManifestRequest s = .next { s with
      port := s.port ++ [.manifest (s.measurement 16) (Config.signEd25519 (s.measurement 16)) (Config.signMlDsa (s.measurement 16))] }) ∧
  (∀ (s : State), ∃ t bs sigs, exec .telemetry s = .next t ∧ t = { s with port := t.port } ∧ t.port = s.port ++ [.telemetry bs sigs] ∧
    bs.length = 8 ∧ (∀ b ∈ bs, b.length = 16) ∧ (∀ k, k < 8 → (nth [] bs k)[4]? = some (s.die k).temperature ∧
      (nth [] bs k)[8]? = some (min (s.die k).uncorrected (2 ^ 32 - 1))))

/-- R22, R65, R245, R246, R247, R360, R361: right after reset no launch, workgroup, ring, lease or access exists; on every die
%pqc, %pqbusy and the energy accumulator are 0, %tol is 1 000 and the SRAM rail 800 mV; every core's load limit is 32 and its PC
table empty; a thread that starts has %clkw, %txs, %tws, %tvec, %epc, %ecause, %eop and %eoph 0. Memory and scratchpad bytes read as
0, which is the model's choice (log 2, log 3). -/
def Obligations.ResetValues : Prop :=
  State.reset.launches = [] ∧ State.reset.wgs = [] ∧ State.reset.rings = [] ∧ State.reset.leases = [] ∧ State.reset.flight = [] ∧
  State.reset.booted = false ∧
  (∀ k, k < 8 → (State.reset.die k).pqc = 0 ∧ State.reset.busyBits k = 0 ∧ (State.reset.die k).energyPj = 0 ∧
    (State.reset.die k).energySat = false ∧ (State.reset.die k).tol = 1000 ∧ (State.reset.die k).rail = 800) ∧
  (∀ c, (State.reset.coreOf c).loadLimit = 32 ∧ (State.reset.coreOf c).entries = [] ∧ (State.reset.coreOf c).l1 = []) ∧
  (∀ (tid sub pc n : Nat) (l : Launch) (b : Nat) (args : List Word), (Thread.fresh tid sub pc n l b args).clkw = 0 ∧
    (Thread.fresh tid sub pc n l b args).txs = 0 ∧ (Thread.fresh tid sub pc n l b args).tws = 0 ∧
    (Thread.fresh tid sub pc n l b args).tvec = 0 ∧ (Thread.fresh tid sub pc n l b args).epc = 0 ∧
    (Thread.fresh tid sub pc n l b args).ecause = 0 ∧ (Thread.fresh tid sub pc n l b args).eop = 0 ∧
    (Thread.fresh tid sub pc n l b args).eoph = 0) ∧
  (∀ a, Cells.get State.reset.mem a = 0 ∧ Cells.get State.reset.scratch a = 0)

/-- The two byte stores of the machine right after reset are in canonical form. -/
def Obligations.ResetCanonical : Prop := State.reset.canonical = true

/-- Every step that goes on keeps both byte stores in canonical form: addresses strictly rise and no listed byte is what an
unlisted one reads as. -/
def Obligations.StepKeepsCanonical : Prop := ∀ (s t : State), s.canonical = true → step s = .next t → t.canonical = true

/-- R20, R46, R54, R70: the step whose turn a core's issue is takes the core's entry, reads the bytes at its PC in the code section, and
performs the instruction that they decode to, as exec does, on a group of the entry's threads; bytes that decode to none, a PC
at or beyond the code's end, or a MOVW whose literal lies there (R70), make it perform ILLEGAL_WORD_ISSUE, with the operand 0, the PC or
PC + 4. Where the word lies in a block whose check value differs, the workgroup
consumes the block instead (R366). Before any move the deadlock detectors note since when a workgroup is stuck, and change nothing else
(R238). Any other turn performs its row. Rests on the model's own choices of logs 1 and 105. -/
def Obligations.StepRunsDecoded : Prop :=
  (∀ (s : State), (∃ f : Workgroup → Option Nat, s.noteStuck = { s with wgs := s.wgs.map (fun w => { w with stuckAt := f w }) }) ∧
    ((∀ w ∈ s.wgs, w.claims = [] ∧ w.stuckAt = none) → s.noteStuck = s)) ∧
  (∀ (s : State) (core : Nat) (ms : List Move) (e : PcEntry) (l : Launch) (pa : Nat), s.agenda = .issue core :: ms →
    s.noteStuck.pick core = some e → s.launch e.ctx = some l → pa = l.imageAddr + l.img.codeOff + e.pc →
    (s.badCheck = [] → s.badCode core e = none) ∧
    (e.pc + 4 ≤ l.img.codeLen → ∀ b, s.badBlock (s.locOf (coreDie core) pa) 4 = some b →
      step s = .next (({ s.noteStuck with agenda := ms } : State).consumeBad e.ctx e.wg pa b)) ∧
    (∀ x b, s.badCode core e = some (x, b) → b ∈ s.badCheck ∧ (x = pa ∨ x = pa + 4) ∧
      step s = .next (({ s.noteStuck with agenda := ms } : State).consumeBad e.ctx e.wg x b))) ∧
  (∀ (s : State) (core : Nat) (ms : List Move) (e : PcEntry) (l : Launch) (code : Nat → List Byte), s.agenda = .issue core :: ms →
    s.noteStuck.pick core = some e → s.launch e.ctx = some l →
    s.badCode core e = none →
    (∀ n, code n = (List.range n).map (fun j => Cells.get s.mem (s.locOf (coreDie core) (l.imageAddr + l.img.codeOff + e.pc + j)))) →
    ∃ t g, t = { s.noteStuck with agenda := ms, group := some g, cores := t.cores } ∧ g.core = core ∧ g.ctx = e.ctx ∧ g.wg = e.wg ∧ g.pc = e.pc ∧
      (∀ k ∈ g.tids, k ∈ e.tids) ∧ (∀ c, c ≠ core → t.coreOf c = s.coreOf c) ∧
      (∀ i, e.pc + i.bytes ≤ l.img.codeLen → decode (code i.bytes) = .ok (i, []) → step s = exec i t) ∧
      (e.pc + 4 ≤ l.img.codeLen → (∀ x i r, decode (code 4 ++ x) ≠ .ok (i, r)) → step s = exec (.illegalWordIssue 0) t) ∧
      (∀ x i, e.pc + 4 ≤ l.img.codeLen → l.img.codeLen < e.pc + 8 → x.length = 4 → decode (code 4 ++ x) = .ok (i, []) →
        step s = exec (.illegalWordIssue (BitVec.ofNat 32 (e.pc + 4))) t) ∧
      (l.img.codeLen < e.pc + 4 → step s = exec (.illegalWordIssue (BitVec.ofNat 32 e.pc)) t)) ∧
  (∀ (s t : State) (i : Instr), s.turnOf = (.issue i, t) → step s = exec i t) ∧
  (∀ (s t : State) (e : Event), s.turnOf = (.event e, t) → step s = e.perform t)

/-- R45, R47, R53: words written out from the tables of the spec decode to the instructions they stand for: ADD, ADDI, MOVW with its
literal, FFMA, BNZ, LDW, STW, AMO.ADD, RED.ADD, LEASE and MFSR. -/
def Obligations.DecodeWords : Prop :=
  decode [0x84, 0xC2, 0x00, 0x80] = .ok (.add true 3 5 4, []) ∧
  decode [0x7D, 0x45, 0x02, 0x08] = .ok (.addi false 9 10 125, []) ∧
  decode [0x00, 0x00, 0x2A, 0x0C, 0x78, 0x56, 0x34, 0x12] = .ok (.movw false 40 0x12345678, []) ∧
  decode [0x96, 0x0A, 0x65, 0x10] = .ok (.ffma false 20 21 22, []) ∧
  decode [0xFE, 0xFF, 0x61, 0xA0] = .ok (.bnz true 7 0x3FFE, []) ∧
  decode [0x02, 0xC6, 0x82, 0xB0] = .ok (.ldw true 11 12 2, []) ∧
  decode [0x7F, 0xC6, 0x22, 0x31] = .ok (.stw false 11 12 127, []) ∧
  decode [0x0F, 0x4E, 0xC2, 0x40] = .ok (.amoAdd false 6 9 14 false 15, []) ∧
  decode [0x0F, 0x4E, 0x18, 0x50] = .ok (.redAdd false 6 true 14 15, []) ∧
  decode [0x8A, 0x04, 0x02, 0x58] = .ok (.lease false 8 9 10, []) ∧
  decode [0x00, 0x22, 0x02, 0x70] = .ok (.mfsr false 8 0x2200, [])

/-- R45 to R56: encoding loses nothing and no two instructions share a word: the bytes that encode writes for a well-formed
instruction decode to it, whatever follows them; and every word that decodes is the first word of its encoding. -/
def Obligations.EncodeDecode : Prop :=
  (∀ (i : Instr) (bs rest : List Byte), i.wf = true → encode i = some bs → decode (bs ++ rest) = .ok (i, rest)) ∧
  (∀ (w : Nat) (lit : Option Nat) (i : Instr), w < 2 ^ 32 → decodeWords w lit = .ok i → i.wf = true ∧ encodeWord i = some w)
end

