-- ==== Sys2Proof/Laws/Memory.lean ====
section
/-! SUPPORT. The laws of the canonical cell lists: reading after writing, and the form every memory operation keeps. -/

namespace Sys2Proof.Machine

theorem Cells.sortedFrom_mono {lo hi : Nat} {m : List Host.Cell} (h : lo ≤ hi) (hm : Cells.sortedFrom hi m = true) :
    Cells.sortedFrom lo m = true := by
  cases m with
  | nil => rfl
  | cons c r =>
    simp only [Cells.sortedFrom, Bool.and_eq_true, decide_eq_true_eq] at hm ⊢
    exact ⟨⟨Nat.le_trans h hm.1.1, hm.1.2⟩, hm.2⟩

/-- Below the list's first possible address nothing is listed. -/
theorem Cells.get_below {lo a : Nat} {m : List Host.Cell} (hm : Cells.sortedFrom lo m = true) (h : a < lo) : Cells.get m a = 0 := by
  cases m with
  | nil => rfl
  | cons c r =>
    simp only [Cells.sortedFrom, Bool.and_eq_true, decide_eq_true_eq] at hm
    have h1 : a < c.1 := Nat.lt_of_lt_of_le h hm.1.1
    simp [Cells.get, Nat.ne_of_gt h1, h1]

/-- A write keeps the canonical form. -/
theorem Cells.sortedFrom_put {lo a : Nat} {v : Byte} {m : List Host.Cell} (hm : Cells.sortedFrom lo m = true) (h : lo ≤ a) :
    Cells.sortedFrom lo (Cells.put m a v) = true := by
  induction m generalizing lo with
  | nil => by_cases hv : v = 0#8 <;> simp [Cells.put, Cells.sortedFrom, hv, h]
  | cons c r ih =>
    obtain ⟨k, b⟩ := c
    simp only [Cells.sortedFrom, Bool.and_eq_true, decide_eq_true_eq] at hm
    obtain ⟨⟨h1, h2⟩, h3⟩ := hm
    have h2' : ¬b = 0#8 := by simpa using h2
    simp only [Cells.put]
    by_cases hk : k < a
    · simp [hk, Cells.sortedFrom, h1, h2', ih h3 (Nat.succ_le_of_lt hk)]
    · by_cases he : k = a
      · by_cases hv : v = 0#8
        · simp [he, hv]
          exact Cells.sortedFrom_mono (by omega) h3
        · subst he; simp [hv, Cells.sortedFrom, h1, h3]
      · have hlt : a < k := by omega
        by_cases hv : v = 0#8
        · simp [hk, he, hv, Cells.sortedFrom, h1, h2', h3]
        · simp [hk, he, hv, Cells.sortedFrom, h, h2', h3, hlt]

/-- The byte just written reads back. -/
theorem Cells.get_put_same {lo a : Nat} {v : Byte} {m : List Host.Cell} (hm : Cells.sortedFrom lo m = true) :
    Cells.get (Cells.put m a v) a = v := by
  induction m generalizing lo with
  | nil => by_cases hv : v = 0#8 <;> simp [Cells.put, Cells.get, hv]
  | cons c r ih =>
    obtain ⟨k, b⟩ := c
    simp only [Cells.sortedFrom, Bool.and_eq_true, decide_eq_true_eq] at hm
    simp only [Cells.put]
    by_cases hk : k < a
    · have h1 : k ≠ a := by omega
      have h2 : ¬ a < k := by omega
      simp [hk, Cells.get, h1, h2, ih hm.2]
    · by_cases he : k = a
      · by_cases hv : v = 0#8
        · subst he; simp [hv, Cells.get_below hm.2 (Nat.lt_succ_self k)]
        · simp [he, hv, Cells.get]
      · have hlt : a < k := by omega
        by_cases hv : v = 0#8 <;> simp [hk, he, hv, Cells.get, hlt]

/-- A write leaves every other byte as it was. -/
theorem Cells.get_put_other {lo a x : Nat} {v : Byte} {m : List Host.Cell} (hm : Cells.sortedFrom lo m = true) (hx : x ≠ a) :
    Cells.get (Cells.put m a v) x = Cells.get m x := by
  induction m generalizing lo with
  | nil =>
    by_cases hv : v = 0#8
    · simp [Cells.put, hv]
    · simp [Cells.put, Cells.get, hv, Ne.symm hx]
  | cons c r ih =>
    obtain ⟨k, b⟩ := c
    simp only [Cells.sortedFrom, Bool.and_eq_true, decide_eq_true_eq] at hm
    simp only [Cells.put]
    by_cases hk : k < a
    · simp [hk, Cells.get, ih hm.2]
    · by_cases he : k = a
      · subst he
        by_cases hv : v = 0#8
        · simp only [hv, if_true, if_false, Nat.lt_irrefl, Cells.get, if_neg (Ne.symm hx)]
          by_cases hlt : x < k
          · simp [hlt, Cells.get_below hm.2 (by omega : x < k + 1)]
          · simp [hlt]
        · simp [hv, Cells.get, Ne.symm hx]
      · have hlt : a < k := by omega
        by_cases hv : v = 0#8
        · simp [hk, he, hv]
        · by_cases h1 : x < a
          · have h2 : x < k := by omega
            have h3 : k ≠ x := by omega
            simp [hk, he, hv, Cells.get, Ne.symm hx, h1, h2, h3]
          · simp [hk, he, hv, Cells.get, Ne.symm hx, h1]

theorem Memory.wf_put {a : Nat} {v : Byte} {m : List Host.Cell} (hm : Memory.wf m = true) : Memory.wf (Cells.put m a v) = true :=
  Cells.sortedFrom_put hm (Nat.zero_le a)

theorem Memory.wf_putN {a : Nat} {bs : List Byte} {m : List Host.Cell} (hm : Memory.wf m = true) :
    Memory.wf (Cells.putN m a bs) = true := by
  induction bs generalizing m a with
  | nil => exact hm
  | cons b bs ih => exact ih (Memory.wf_put hm)

theorem Memory.wf_writePhysCells {s : State} {die pa : Nat} {bs : List Byte} {m : List Host.Cell} (hm : Memory.wf m = true) :
    Memory.wf (writePhysCells s die pa bs m) = true := by
  induction bs generalizing m pa with
  | nil => exact hm
  | cons b bs ih => exact ih (Memory.wf_put hm)

/-- Taking cells away keeps the form. -/
theorem Cells.sortedFrom_filter {lo : Nat} {m : List Host.Cell} (p : Host.Cell → Bool) (hm : Cells.sortedFrom lo m = true) :
    Cells.sortedFrom lo (m.filter p) = true := by
  induction m generalizing lo with
  | nil => rfl
  | cons c r ih =>
    simp only [Cells.sortedFrom, Bool.and_eq_true, decide_eq_true_eq] at hm
    by_cases hp : p c = true
    · rw [List.filter_cons_of_pos hp]
      simp only [Cells.sortedFrom, Bool.and_eq_true, decide_eq_true_eq]
      exact ⟨hm.1, ih hm.2⟩
    · rw [List.filter_cons_of_neg hp]
      exact Cells.sortedFrom_mono (Nat.le_succ_of_le hm.1.1) (ih hm.2)

/-- A byte of a store with cells taken away: that of a cell that stays, and zero for one that does not. -/
theorem Cells.get_filter {lo x : Nat} {m : List Host.Cell} (q : Nat → Bool) (hm : Cells.sortedFrom lo m = true) :
    Cells.get (m.filter (fun c => q c.1)) x = if q x then Cells.get m x else 0 := by
  induction m generalizing lo with
  | nil => simp [Cells.get]
  | cons c r ih =>
    simp only [Cells.sortedFrom, Bool.and_eq_true, decide_eq_true_eq] at hm
    have hr := ih hm.2
    by_cases hq : q c.1 = true
    · rw [List.filter_cons_of_pos (p := fun (c : Host.Cell) => q c.1) hq]
      simp only [Cells.get]
      by_cases h1 : c.1 = x
      · subst h1; simp [hq]
      · by_cases h2 : x < c.1
        · simp [h1, h2]
        · simp [h1, h2, hr]
    · rw [List.filter_cons_of_neg (p := fun (c : Host.Cell) => q c.1) hq, hr]
      by_cases h1 : c.1 = x
      · subst h1; simp [hq]
      · simp only [Cells.get, if_neg h1]
        by_cases h2 : x < c.1
        · simp [h2, Cells.get_below hm.2 (by omega : x < c.1 + 1)]
        · simp [h2]

theorem Memory.wf_filter {m : List Host.Cell} (p : Host.Cell → Bool) (hm : Memory.wf m = true) : Memory.wf (m.filter p) = true :=
  Cells.sortedFrom_filter p hm

theorem Memory.wf_zero {a n : Nat} {m : List Host.Cell} (hm : Memory.wf m = true) : Memory.wf (Cells.zero m a n) = true :=
  Memory.wf_filter _ hm

/-- What zeroing leaves: zero inside, and every other byte as it was. -/
theorem Cells.get_zero {a n x : Nat} {m : List Host.Cell} (hm : Memory.wf m = true) :
    Cells.get (Cells.zero m a n) x = if a ≤ x ∧ x < a + n then 0 else Cells.get m x := by
  have h := Cells.get_filter (x := x) (fun k => !(decide (a ≤ k) && decide (k < a + n))) hm
  unfold Cells.zero
  rw [h]
  by_cases hx : a ≤ x ∧ x < a + n <;> simp [hx]

/-- Bytes outside a write read as before. -/
theorem Cells.get_putN_other {a x : Nat} {bs : List Byte} {m : List Host.Cell} (hm : Memory.wf m = true)
    (hx : x < a ∨ a + bs.length ≤ x) : Cells.get (Cells.putN m a bs) x = Cells.get m x := by
  induction bs generalizing m a with
  | nil => rfl
  | cons b bs ih =>
    simp only [List.length_cons] at hx
    simp only [Cells.putN]
    rw [ih (Memory.wf_put hm) (by omega), Cells.get_put_other (lo := 0) hm (by omega)]

/-- Bytes of a write read back. -/
theorem Cells.get_putN_same {a i : Nat} {bs : List Byte} {m : List Host.Cell} (hm : Memory.wf m = true) (hi : i < bs.length) :
    Cells.get (Cells.putN m a bs) (a + i) = bs[i] := by
  induction bs generalizing m a i with
  | nil => simp at hi
  | cons b bs ih =>
    simp only [Cells.putN]
    cases i with
    | zero =>
      rw [Cells.get_putN_other (Memory.wf_put hm) (by omega)]
      exact Cells.get_put_same (lo := 0) hm
    | succ i =>
      have := ih (m := Cells.put m a b) (a := a + 1) (i := i) (Memory.wf_put hm) (by simpa using hi)
      rw [show a + (i + 1) = a + 1 + i by omega, this]
      rfl

/-! Polder lines (R122, R123). -/

/-- All that the first access to a polder line can do: nothing outside a polder region, in a page with a frame or to a line that
is allocated; a breach in a lost page; else the line with zeros where there is room, the late frame, or a breach. -/
theorem State.polderAlloc_cases (s : State) (l : Launch) (va : Nat) :
    (l.polderAt va = none ∧ s.polderAlloc l va = .done s) ∨
    ∃ r, l.polderAt va = some r ∧
      (((∃ d, s.polderPage l.ctx (r.pageOf va) = some (.lost d)) ∧ s.polderAlloc l va = .breach s) ∨
       (((∃ n, s.polderPage l.ctx (r.pageOf va) = some (.backed n)) ∨ s.polderLines.contains (l.ctx, va / 128) = true) ∧
          s.polderAlloc l va = .done s) ∨
       (s.polderLines.contains (l.ctx, va / 128) = false ∧
         (((s.polderHeld l.ctx r + 1) * 128 ≤ s.polderCap l.ctx r ∧ s.polderAlloc l va =
              .done { s with polderLines := s.polderLines ++ [(l.ctx, va / 128)], mem := Cells.zero s.mem (polderKey l.ctx (va / 128 * 128)) 128 }) ∨
          (s.polderCap l.ctx r < (s.polderHeld l.ctx r + 1) * 128 ∧ r.late = true ∧
              s.polderAlloc l va = .done (s.backPage l.ctx r (r.pageOf va))) ∨
          (s.polderCap l.ctx r < (s.polderHeld l.ctx r + 1) * 128 ∧ r.late = false ∧ s.polderAlloc l va = .breach s)))) := by
  cases hr : l.polderAt va with
  | none => exact .inl ⟨rfl, by simp [State.polderAlloc, hr]⟩
  | some r =>
    refine .inr ⟨r, rfl, ?_⟩
    have rest : (∀ d, s.polderPage l.ctx (r.pageOf va) ≠ some (.lost d)) → (∀ n, s.polderPage l.ctx (r.pageOf va) ≠ some (.backed n)) →
        s.polderAlloc l va = if s.polderLines.contains (l.ctx, va / 128) then .done s
          else if (s.polderHeld l.ctx r + 1) * 128 ≤ s.polderCap l.ctx r then
            .done { s with polderLines := s.polderLines ++ [(l.ctx, va / 128)], mem := Cells.zero s.mem (polderKey l.ctx (va / 128 * 128)) 128 }
          else if r.late then .done (s.backPage l.ctx r (r.pageOf va)) else .breach s := by
      intro h1 h2
      unfold State.polderAlloc
      rw [hr]
      cases hp : s.polderPage l.ctx (r.pageOf va) with
      | none => simp [hp]
      | some p =>
        cases p with
        | lost d => exact absurd hp (h1 d)
        | backed n => exact absurd hp (h2 n)
        | moved d => simp [hp]
    by_cases h1 : ∃ d, s.polderPage l.ctx (r.pageOf va) = some (.lost d)
    · obtain ⟨d, h⟩ := h1
      exact .inl ⟨⟨d, h⟩, by simp [State.polderAlloc, hr, h]⟩
    by_cases h2 : ∃ n, s.polderPage l.ctx (r.pageOf va) = some (.backed n)
    · obtain ⟨n, h⟩ := h2
      exact .inr (.inl ⟨.inl ⟨n, h⟩, by simp [State.polderAlloc, hr, h]⟩)
    have h := rest (fun d hd => h1 ⟨d, hd⟩) (fun n hn => h2 ⟨n, hn⟩)
    cases hc : s.polderLines.contains (l.ctx, va / 128) with
    | true => exact .inr (.inl ⟨.inr rfl, by rw [h, hc]; rfl⟩)
    | false =>
      refine .inr (.inr ⟨rfl, ?_⟩)
      rw [h, hc]
      by_cases hk : (s.polderHeld l.ctx r + 1) * 128 ≤ s.polderCap l.ctx r
      · exact .inl ⟨hk, by simp [hk]⟩
      · cases hl : r.late with
        | true => exact .inr (.inl ⟨by omega, rfl, by simp [hk]⟩)
        | false => exact .inr (.inr ⟨by omega, rfl, by simp [hk]⟩)

end Sys2Proof.Machine
end

