-- ==== Sys2Proof/Laws/State.lean ====
section
/-! SUPPORT. What each update of one part of the state leaves, field by field, and how a thread is found after an update. -/

namespace Sys2Proof.Machine

/-! Updates of a thread or a workgroup leave every field but the workgroups. -/

theorem State.modWg_eq (s : State) (c w : Nat) (f : Workgroup → Workgroup) : s.modWg c w f = { s with wgs := (s.modWg c w f).wgs } := rfl
theorem State.modThread_eq (s : State) (c w k : Nat) (f : Thread → Thread) :
    s.modThread c w k f = { s with wgs := (s.modThread c w k f).wgs } := rfl
@[simp] theorem State.modWg_mem (s : State) (c w : Nat) (f : Workgroup → Workgroup) : (s.modWg c w f).mem = s.mem := rfl
@[simp] theorem State.modWg_scratch (s : State) (c w : Nat) (f : Workgroup → Workgroup) : (s.modWg c w f).scratch = s.scratch := rfl
@[simp] theorem State.modWg_launches (s : State) (c w : Nat) (f : Workgroup → Workgroup) : (s.modWg c w f).launches = s.launches := rfl
@[simp] theorem State.modWg_cores (s : State) (c w : Nat) (f : Workgroup → Workgroup) : (s.modWg c w f).cores = s.cores := rfl
@[simp] theorem State.modWg_dies (s : State) (c w : Nat) (f : Workgroup → Workgroup) : (s.modWg c w f).dies = s.dies := rfl
@[simp] theorem State.modWg_flight (s : State) (c w : Nat) (f : Workgroup → Workgroup) : (s.modWg c w f).flight = s.flight := rfl
@[simp] theorem State.modWg_nextId (s : State) (c w : Nat) (f : Workgroup → Workgroup) : (s.modWg c w f).nextId = s.nextId := rfl
@[simp] theorem State.modWg_group (s : State) (c w : Nat) (f : Workgroup → Workgroup) : (s.modWg c w f).group = s.group := rfl
@[simp] theorem State.modWg_now (s : State) (c w : Nat) (f : Workgroup → Workgroup) : (s.modWg c w f).now = s.now := rfl
@[simp] theorem State.modWg_launch (s : State) (c w x : Nat) (f : Workgroup → Workgroup) : (s.modWg c w f).launch x = s.launch x := rfl
@[simp] theorem State.modThread_mem (s : State) (c w k : Nat) (f : Thread → Thread) : (s.modThread c w k f).mem = s.mem := rfl
@[simp] theorem State.modThread_scratch (s : State) (c w k : Nat) (f : Thread → Thread) : (s.modThread c w k f).scratch = s.scratch := rfl
@[simp] theorem State.modThread_launches (s : State) (c w k : Nat) (f : Thread → Thread) : (s.modThread c w k f).launches = s.launches := rfl
@[simp] theorem State.modThread_cores (s : State) (c w k : Nat) (f : Thread → Thread) : (s.modThread c w k f).cores = s.cores := rfl
@[simp] theorem State.modThread_dies (s : State) (c w k : Nat) (f : Thread → Thread) : (s.modThread c w k f).dies = s.dies := rfl
@[simp] theorem State.modThread_flight (s : State) (c w k : Nat) (f : Thread → Thread) : (s.modThread c w k f).flight = s.flight := rfl
@[simp] theorem State.modThread_nextId (s : State) (c w k : Nat) (f : Thread → Thread) : (s.modThread c w k f).nextId = s.nextId := rfl
@[simp] theorem State.modThread_group (s : State) (c w k : Nat) (f : Thread → Thread) : (s.modThread c w k f).group = s.group := rfl
@[simp] theorem State.modThread_now (s : State) (c w k : Nat) (f : Thread → Thread) : (s.modThread c w k f).now = s.now := rfl
@[simp] theorem State.modThread_launch (s : State) (c w k x : Nat) (f : Thread → Thread) : (s.modThread c w k f).launch x = s.launch x := rfl

/-! Updates of the other parts. -/

@[simp] theorem State.modLaunch_mem (s : State) (c : Nat) (f : Launch → Launch) : (s.modLaunch c f).mem = s.mem := rfl
@[simp] theorem State.modLaunch_scratch (s : State) (c : Nat) (f : Launch → Launch) : (s.modLaunch c f).scratch = s.scratch := rfl
@[simp] theorem State.modLaunch_wgs (s : State) (c : Nat) (f : Launch → Launch) : (s.modLaunch c f).wgs = s.wgs := rfl
@[simp] theorem State.modLaunch_cores (s : State) (c : Nat) (f : Launch → Launch) : (s.modLaunch c f).cores = s.cores := rfl
@[simp] theorem State.modDie_mem (s : State) (k : Nat) (f : Die → Die) : (s.modDie k f).mem = s.mem := rfl
@[simp] theorem State.modDie_scratch (s : State) (k : Nat) (f : Die → Die) : (s.modDie k f).scratch = s.scratch := rfl
@[simp] theorem State.modDie_wgs (s : State) (k : Nat) (f : Die → Die) : (s.modDie k f).wgs = s.wgs := rfl
@[simp] theorem State.modDie_launches (s : State) (k : Nat) (f : Die → Die) : (s.modDie k f).launches = s.launches := rfl
@[simp] theorem State.modCluster_mem (s : State) (k : Nat) (f : Cluster → Cluster) : (s.modCluster k f).mem = s.mem := rfl
@[simp] theorem State.modCluster_scratch (s : State) (k : Nat) (f : Cluster → Cluster) : (s.modCluster k f).scratch = s.scratch := rfl
@[simp] theorem State.modCluster_wgs (s : State) (k : Nat) (f : Cluster → Cluster) : (s.modCluster k f).wgs = s.wgs := rfl

theorem State.modCore_eq (s : State) (k : Nat) (f : Core → Core) : s.modCore k f = { s with cores := (s.modCore k f).cores } := by
  unfold State.modCore; split <;> rfl
@[simp] theorem State.modCore_mem (s : State) (k : Nat) (f : Core → Core) : (s.modCore k f).mem = s.mem := by rw [State.modCore_eq]
@[simp] theorem State.modCore_scratch (s : State) (k : Nat) (f : Core → Core) : (s.modCore k f).scratch = s.scratch := by rw [State.modCore_eq]
@[simp] theorem State.modCore_wgs (s : State) (k : Nat) (f : Core → Core) : (s.modCore k f).wgs = s.wgs := by rw [State.modCore_eq]
@[simp] theorem State.modCore_launches (s : State) (k : Nat) (f : Core → Core) : (s.modCore k f).launches = s.launches := by rw [State.modCore_eq]
@[simp] theorem State.modCore_flight (s : State) (k : Nat) (f : Core → Core) : (s.modCore k f).flight = s.flight := by rw [State.modCore_eq]
@[simp] theorem State.modCore_nextId (s : State) (k : Nat) (f : Core → Core) : (s.modCore k f).nextId = s.nextId := by rw [State.modCore_eq]
@[simp] theorem State.modCore_dies (s : State) (k : Nat) (f : Core → Core) : (s.modCore k f).dies = s.dies := by rw [State.modCore_eq]

/-! Updates of an engine site, a tile, a ring and an access in flight. -/

@[simp] theorem State.modTile_mem (s : State) (c n : Nat) (f : Tile → Tile) : (s.modTile c n f).mem = s.mem := rfl
@[simp] theorem State.modTile_scratch (s : State) (c n : Nat) (f : Tile → Tile) : (s.modTile c n f).scratch = s.scratch := rfl
@[simp] theorem State.modTile_wgs (s : State) (c n : Nat) (f : Tile → Tile) : (s.modTile c n f).wgs = s.wgs := rfl
@[simp] theorem State.modTile_sites (s : State) (c n : Nat) (f : Tile → Tile) : (s.modTile c n f).sites = s.sites := rfl
@[simp] theorem State.drop_mem (s : State) (a : Access) : (s.drop a).mem = s.mem := rfl
@[simp] theorem State.drop_scratch (s : State) (a : Access) : (s.drop a).scratch = s.scratch := rfl
@[simp] theorem State.drop_wgs (s : State) (a : Access) : (s.drop a).wgs = s.wgs := rfl
@[simp] theorem State.drop_cores (s : State) (a : Access) : (s.drop a).cores = s.cores := rfl
@[simp] theorem State.drop_flight (s : State) (a : Access) : (s.drop a).flight = s.flight.filter (fun x => x.id != a.id) := rfl
@[simp] theorem State.setPolderPage_mem (s : State) (c p : Nat) (x : PolderPage) : (s.setPolderPage c p x).mem = s.mem := rfl
@[simp] theorem State.setPolderPage_scratch (s : State) (c p : Nat) (x : PolderPage) : (s.setPolderPage c p x).scratch = s.scratch := rfl
@[simp] theorem State.setPolderPage_lines (s : State) (c p : Nat) (x : PolderPage) : (s.setPolderPage c p x).polderLines = s.polderLines := rfl
@[simp] theorem State.backPage_scratch (s : State) (c : Nat) (r : Region) (p : Nat) : (s.backPage c r p).scratch = s.scratch := rfl
@[simp] theorem State.backPage_wgs (s : State) (c : Nat) (r : Region) (p : Nat) : (s.backPage c r p).wgs = s.wgs := rfl
@[simp] theorem State.backPage_flight (s : State) (c : Nat) (r : Region) (p : Nat) : (s.backPage c r p).flight = s.flight := rfl

/-! A thread's results and registers. -/

@[simp] theorem Thread.addResult_regs (t : Thread) (d : List Nat) (v : Option (List (Option Word))) : (t.addResult d v).regs = t.regs := rfl
@[simp] theorem Thread.addResult_pc (t : Thread) (d : List Nat) (v : Option (List (Option Word))) : (t.addResult d v).pc = t.pc := rfl
@[simp] theorem Thread.addResult_tid (t : Thread) (d : List Nat) (v : Option (List (Option Word))) : (t.addResult d v).tid = t.tid := rfl
@[simp] theorem Thread.addResult_status (t : Thread) (d : List Nat) (v : Option (List (Option Word))) : (t.addResult d v).status = t.status := rfl
@[simp] theorem Thread.writeW_tid (t : Thread) (f : Nat) (v : Word) : (t.writeW f v).tid = t.tid := rfl
@[simp] theorem Thread.writeW_pc (t : Thread) (f : Nat) (v : Word) : (t.writeW f v).pc = t.pc := rfl
@[simp] theorem Thread.writeW_status (t : Thread) (f : Nat) (v : Word) : (t.writeW f v).status = t.status := rfl
@[simp] theorem Thread.writeW_base (t : Thread) (f : Nat) (v : Word) : (t.writeW f v).base = t.base := rfl
@[simp] theorem Thread.writeW_runLen (t : Thread) (f : Nat) (v : Word) : (t.writeW f v).runLen = t.runLen := rfl
@[simp] theorem Thread.writePair_tid (t : Thread) (f v : Nat) : (t.writePair f v).tid = t.tid := rfl

theorem setNth_length {α : Type} (l : List α) (n : Nat) (x : α) : (setNth l n x).length = l.length := by
  induction l generalizing n with
  | nil => rfl
  | cons y ys ih => cases n <;> simp [setNth, ih]

theorem nth_setNth_same {α : Type} (d : α) (l : List α) (n : Nat) (x : α) (h : n < l.length) : nth d (setNth l n x) n = x := by
  induction l generalizing n with
  | nil => simp at h
  | cons y ys ih =>
    cases n with
    | zero => rfl
    | succ n => exact ih n (by simpa using h)

theorem nth_setNth_other {α : Type} (d : α) (l : List α) (n m : Nat) (x : α) (h : m ≠ n) : nth d (setNth l n x) m = nth d l m := by
  induction l generalizing n m with
  | nil => rfl
  | cons y ys ih =>
    cases n with
    | zero => cases m with
      | zero => exact absurd rfl h
      | succ m => rfl
    | succ n => cases m with
      | zero => rfl
      | succ m => exact ih n m (fun e => h (by rw [e]))

@[simp] theorem Thread.writeW_alloc (t : Thread) (f : Nat) (v : Word) : (t.writeW f v).regs.length = t.regs.length :=
  setNth_length _ _ _

/-- A field inside the allocation reads back what was written (R71). -/
theorem Thread.readW_writeW_same (t : Thread) (f : Nat) (v : Word) (h : t.phys f < t.regs.length) : (t.writeW f v).readW f = v :=
  nth_setNth_same _ _ _ _ h

/-- Physical words other than the one written are as before. -/
theorem Thread.nth_writeW_other (t : Thread) (f p : Nat) (v : Word) (h : p ≠ t.phys f) : nth 0 (t.writeW f v).regs p = nth 0 t.regs p :=
  nth_setNth_other _ _ _ _ _ h

/-! Finding a thread after an update. -/

theorem find_map_if {α : Type} (l : List α) (p q : α → Bool) (f : α → α) (hf : ∀ x, p (f x) = p x) :
    (l.map (fun x => if q x then f x else x)).find? p = (l.find? p).map (fun x => if q x then f x else x) := by
  induction l with
  | nil => rfl
  | cons y ys ih =>
    have h1 : p (if q y then f y else y) = p y := by split <;> simp [hf]
    simp only [List.map_cons, List.find?_cons, h1]
    cases p y <;> simp [ih]

/-- The workgroup found after one has changed. -/
theorem State.wgOf_modWg (s : State) (c w c' w' : Nat) (f : Workgroup → Workgroup) (hf : ∀ x, (f x).ctx = x.ctx ∧ (f x).wg = x.wg) :
    (s.modWg c w f).wgOf c' w' = (s.wgOf c' w').map (fun x => if x.ctx == c && x.wg == w then f x else x) := by
  unfold State.wgOf State.modWg
  exact find_map_if _ _ _ _ (fun x => by simp [(hf x).1, (hf x).2])

theorem Workgroup.thread_modThread (x : Workgroup) (k k' : Nat) (f : Thread → Thread) (hf : ∀ t, (f t).tid = t.tid) :
    (x.modThread k f).thread k' = (x.thread k').map (fun t => if t.tid == k then f t else t) := by
  unfold Workgroup.thread Workgroup.modThread
  exact find_map_if _ _ _ _ (fun t => by simp [hf t])

theorem Workgroup.thread_tid {x : Workgroup} {k : Nat} {t : Thread} (h : x.thread k = some t) : t.tid = k := by
  unfold Workgroup.thread at h
  have := List.find?_some h
  simpa using this

theorem State.wgOf_key {s : State} {c w : Nat} {x : Workgroup} (h : s.wgOf c w = some x) : x.ctx = c ∧ x.wg = w := by
  unfold State.wgOf at h
  have := List.find?_some h
  simpa using this

theorem State.threadOf_tid {s : State} {c w k : Nat} {t : Thread} (h : s.threadOf c w k = some t) : t.tid = k := by
  unfold State.threadOf at h
  obtain ⟨x, _, h2⟩ := Option.bind_eq_some_iff.mp h
  exact Workgroup.thread_tid h2

/-- The thread that changed. -/
theorem State.threadOf_modThread_same (s : State) (c w k : Nat) (f : Thread → Thread) (hf : ∀ t, (f t).tid = t.tid) :
    (s.modThread c w k f).threadOf c w k = (s.threadOf c w k).map f := by
  unfold State.threadOf State.modThread
  rw [State.wgOf_modWg s c w _ _ (fun x => x.modThread k f) (fun x => ⟨rfl, rfl⟩)]
  cases h : s.wgOf c w with
  | none => rfl
  | some x =>
    obtain ⟨h1, h2⟩ := State.wgOf_key h
    simp only [Option.map_some, Option.bind_some, h1, h2, beq_self_eq_true, Bool.and_self, if_true]
    rw [Workgroup.thread_modThread _ _ _ _ hf]
    cases h3 : x.thread k with
    | none => rfl
    | some t => simp [Workgroup.thread_tid h3]

/-- Every other thread is as before. -/
theorem State.threadOf_modThread_other (s : State) (c w k c' w' k' : Nat) (f : Thread → Thread) (hf : ∀ t, (f t).tid = t.tid)
    (h : ¬(c' = c ∧ w' = w ∧ k' = k)) : (s.modThread c w k f).threadOf c' w' k' = s.threadOf c' w' k' := by
  unfold State.threadOf State.modThread
  rw [State.wgOf_modWg s c w _ _ (fun x => x.modThread k f) (fun x => ⟨rfl, rfl⟩)]
  cases hx : s.wgOf c' w' with
  | none => rfl
  | some x =>
    obtain ⟨h1, h2⟩ := State.wgOf_key hx
    simp only [Option.map_some, Option.bind_some, h1, h2]
    by_cases hcw : c' = c ∧ w' = w
    · obtain ⟨rfl, rfl⟩ := hcw
      have hk : k' ≠ k := fun e => h ⟨rfl, rfl, e⟩
      simp only [beq_self_eq_true, Bool.and_self, if_true]
      rw [Workgroup.thread_modThread _ _ _ _ hf]
      cases h3 : x.thread k' with
      | none => rfl
      | some t => simp [Workgroup.thread_tid h3, hk]
    · have : (c' == c && w' == w) = false := by
        simp only [Bool.and_eq_false_iff, beq_eq_false_iff_ne, ne_eq]
        by_cases hc : c' = c
        · exact Or.inr (fun e => hcw ⟨hc, e⟩)
        · exact Or.inl hc
      simp [this]

/-- Threads are found in the workgroups alone. -/
theorem State.threadOf_congr {s t : State} (h : t.wgs = s.wgs) (c w k : Nat) : t.threadOf c w k = s.threadOf c w k := by
  unfold State.threadOf State.wgOf; rw [h]

@[simp] theorem State.threadOf_modCore (s : State) (i : Nat) (f : Core → Core) (c w k : Nat) :
    (s.modCore i f).threadOf c w k = s.threadOf c w k := State.threadOf_congr (by simp) c w k
@[simp] theorem State.threadOf_modLaunch (s : State) (i : Nat) (f : Launch → Launch) (c w k : Nat) :
    (s.modLaunch i f).threadOf c w k = s.threadOf c w k := rfl
@[simp] theorem State.threadOf_modDie (s : State) (i : Nat) (f : Die → Die) (c w k : Nat) :
    (s.modDie i f).threadOf c w k = s.threadOf c w k := rfl

theorem State.place_eq (s : State) (c w k : Nat) : s.place c w k = { s with cores := (s.place c w k).cores } := by
  unfold State.place
  split
  · rfl
  · split
    · rfl
    · exact State.modCore_eq _ _ _
@[simp] theorem State.place_wgs (s : State) (c w k : Nat) : (s.place c w k).wgs = s.wgs := by rw [State.place_eq]
@[simp] theorem State.threadOf_place (s : State) (a b i c w k : Nat) : (s.place a b i).threadOf c w k = s.threadOf c w k :=
  State.threadOf_congr (by simp) c w k

/-! The lines to be written back (R351), the records not posted yet (R377) and the state of the boot (R361). -/

@[simp] theorem State.modWg_dirty (s : State) (c w : Nat) (f : Workgroup → Workgroup) : (s.modWg c w f).dirty = s.dirty := rfl
@[simp] theorem State.modWg_staged (s : State) (c w : Nat) (f : Workgroup → Workgroup) : (s.modWg c w f).staged = s.staged := rfl
@[simp] theorem State.modWg_account (s : State) (c w : Nat) (f : Workgroup → Workgroup) : (s.modWg c w f).account = s.account := rfl
@[simp] theorem State.modWg_booting (s : State) (c w : Nat) (f : Workgroup → Workgroup) : (s.modWg c w f).booting = s.booting := rfl
@[simp] theorem State.modWg_linkSpares (s : State) (c w : Nat) (f : Workgroup → Workgroup) : (s.modWg c w f).linkSpares = s.linkSpares := rfl
@[simp] theorem State.modLaunch_dirty (s : State) (c : Nat) (f : Launch → Launch) : (s.modLaunch c f).dirty = s.dirty := rfl
@[simp] theorem State.modLaunch_staged (s : State) (c : Nat) (f : Launch → Launch) : (s.modLaunch c f).staged = s.staged := rfl
@[simp] theorem State.modLaunch_account (s : State) (c : Nat) (f : Launch → Launch) : (s.modLaunch c f).account = s.account := rfl
@[simp] theorem State.modLaunch_booting (s : State) (c : Nat) (f : Launch → Launch) : (s.modLaunch c f).booting = s.booting := rfl
@[simp] theorem State.modLaunch_linkSpares (s : State) (c : Nat) (f : Launch → Launch) : (s.modLaunch c f).linkSpares = s.linkSpares := rfl
@[simp] theorem State.modDie_dirty (s : State) (k : Nat) (f : Die → Die) : (s.modDie k f).dirty = s.dirty := rfl
@[simp] theorem State.modDie_staged (s : State) (k : Nat) (f : Die → Die) : (s.modDie k f).staged = s.staged := rfl
@[simp] theorem State.modDie_account (s : State) (k : Nat) (f : Die → Die) : (s.modDie k f).account = s.account := rfl
@[simp] theorem State.modDie_booting (s : State) (k : Nat) (f : Die → Die) : (s.modDie k f).booting = s.booting := rfl
@[simp] theorem State.modDie_linkSpares (s : State) (k : Nat) (f : Die → Die) : (s.modDie k f).linkSpares = s.linkSpares := rfl
@[simp] theorem State.modCluster_dirty (s : State) (k : Nat) (f : Cluster → Cluster) : (s.modCluster k f).dirty = s.dirty := rfl
@[simp] theorem State.modCluster_staged (s : State) (k : Nat) (f : Cluster → Cluster) : (s.modCluster k f).staged = s.staged := rfl
@[simp] theorem State.modCluster_account (s : State) (k : Nat) (f : Cluster → Cluster) : (s.modCluster k f).account = s.account := rfl
@[simp] theorem State.modCluster_booting (s : State) (k : Nat) (f : Cluster → Cluster) : (s.modCluster k f).booting = s.booting := rfl
@[simp] theorem State.modCluster_linkSpares (s : State) (k : Nat) (f : Cluster → Cluster) : (s.modCluster k f).linkSpares = s.linkSpares := rfl
@[simp] theorem State.modCore_dirty (s : State) (k : Nat) (f : Core → Core) : (s.modCore k f).dirty = s.dirty := by rw [State.modCore_eq]
@[simp] theorem State.modCore_staged (s : State) (k : Nat) (f : Core → Core) : (s.modCore k f).staged = s.staged := by rw [State.modCore_eq]
@[simp] theorem State.modCore_account (s : State) (k : Nat) (f : Core → Core) : (s.modCore k f).account = s.account := by rw [State.modCore_eq]
@[simp] theorem State.modCore_booting (s : State) (k : Nat) (f : Core → Core) : (s.modCore k f).booting = s.booting := by rw [State.modCore_eq]
@[simp] theorem State.modCore_linkSpares (s : State) (k : Nat) (f : Core → Core) : (s.modCore k f).linkSpares = s.linkSpares := by rw [State.modCore_eq]
@[simp] theorem State.drop_dirty (s : State) (a : Access) : (s.drop a).dirty = s.dirty := rfl
@[simp] theorem State.drop_staged (s : State) (a : Access) : (s.drop a).staged = s.staged := rfl
@[simp] theorem State.drop_account (s : State) (a : Access) : (s.drop a).account = s.account := rfl
@[simp] theorem State.drop_booting (s : State) (a : Access) : (s.drop a).booting = s.booting := rfl
@[simp] theorem State.drop_linkSpares (s : State) (a : Access) : (s.drop a).linkSpares = s.linkSpares := rfl

/-! A write at a home, or at physical addresses, leaves everything but memory, its watchers, the lines to be written back and the blocks
known bad. -/

theorem State.writePhys_eq (s : State) (d a : Nat) (bs : List Byte) : s.writePhys d a bs =
    { s with mem := (s.writePhys d a bs).mem, wgs := (s.writePhys d a bs).wgs, dirty := (s.writePhys d a bs).dirty, badCheck := (s.writePhys d a bs).badCheck } := rfl
@[simp] theorem State.writePhys_scratch (s : State) (d a : Nat) (bs : List Byte) : (s.writePhys d a bs).scratch = s.scratch := rfl
@[simp] theorem State.writePhys_launches (s : State) (d a : Nat) (bs : List Byte) : (s.writePhys d a bs).launches = s.launches := rfl
@[simp] theorem State.writePhys_dies (s : State) (d a : Nat) (bs : List Byte) : (s.writePhys d a bs).dies = s.dies := rfl
@[simp] theorem State.writePhys_clusters (s : State) (d a : Nat) (bs : List Byte) : (s.writePhys d a bs).clusters = s.clusters := rfl
@[simp] theorem State.writePhys_cores (s : State) (d a : Nat) (bs : List Byte) : (s.writePhys d a bs).cores = s.cores := rfl
@[simp] theorem State.writePhys_sites (s : State) (d a : Nat) (bs : List Byte) : (s.writePhys d a bs).sites = s.sites := rfl
@[simp] theorem State.writePhys_leases (s : State) (d a : Nat) (bs : List Byte) : (s.writePhys d a bs).leases = s.leases := rfl
@[simp] theorem State.writePhys_flight (s : State) (d a : Nat) (bs : List Byte) : (s.writePhys d a bs).flight = s.flight := rfl
@[simp] theorem State.writePhys_staged (s : State) (d a : Nat) (bs : List Byte) : (s.writePhys d a bs).staged = s.staged := rfl
@[simp] theorem State.writePhys_account (s : State) (d a : Nat) (bs : List Byte) : (s.writePhys d a bs).account = s.account := rfl
@[simp] theorem State.writePhys_rings (s : State) (d a : Nat) (bs : List Byte) : (s.writePhys d a bs).rings = s.rings := rfl
@[simp] theorem State.writePhys_tiles (s : State) (d a : Nat) (bs : List Byte) : (s.writePhys d a bs).tiles = s.tiles := rfl
@[simp] theorem State.writePhys_copies (s : State) (d a : Nat) (bs : List Byte) : (s.writePhys d a bs).copies = s.copies := rfl
@[simp] theorem State.writePhys_nextId (s : State) (d a : Nat) (bs : List Byte) : (s.writePhys d a bs).nextId = s.nextId := rfl
@[simp] theorem State.writePhys_now (s : State) (d a : Nat) (bs : List Byte) : (s.writePhys d a bs).now = s.now := rfl
@[simp] theorem State.writePhys_group (s : State) (d a : Nat) (bs : List Byte) : (s.writePhys d a bs).group = s.group := rfl
theorem State.writeHome_eq (s : State) (k : Nat) (bs : List Byte) : s.writeHome k bs =
    { s with mem := (s.writeHome k bs).mem, wgs := (s.writeHome k bs).wgs, dirty := (s.writeHome k bs).dirty, badCheck := (s.writeHome k bs).badCheck } := rfl
@[simp] theorem State.writeHome_scratch (s : State) (k : Nat) (bs : List Byte) : (s.writeHome k bs).scratch = s.scratch := rfl
@[simp] theorem State.writeHome_launches (s : State) (k : Nat) (bs : List Byte) : (s.writeHome k bs).launches = s.launches := rfl
@[simp] theorem State.writeHome_dies (s : State) (k : Nat) (bs : List Byte) : (s.writeHome k bs).dies = s.dies := rfl
@[simp] theorem State.writeHome_clusters (s : State) (k : Nat) (bs : List Byte) : (s.writeHome k bs).clusters = s.clusters := rfl
@[simp] theorem State.writeHome_cores (s : State) (k : Nat) (bs : List Byte) : (s.writeHome k bs).cores = s.cores := rfl
@[simp] theorem State.writeHome_sites (s : State) (k : Nat) (bs : List Byte) : (s.writeHome k bs).sites = s.sites := rfl
@[simp] theorem State.writeHome_leases (s : State) (k : Nat) (bs : List Byte) : (s.writeHome k bs).leases = s.leases := rfl
@[simp] theorem State.writeHome_flight (s : State) (k : Nat) (bs : List Byte) : (s.writeHome k bs).flight = s.flight := rfl
@[simp] theorem State.writeHome_staged (s : State) (k : Nat) (bs : List Byte) : (s.writeHome k bs).staged = s.staged := rfl
@[simp] theorem State.writeHome_account (s : State) (k : Nat) (bs : List Byte) : (s.writeHome k bs).account = s.account := rfl
@[simp] theorem State.writeHome_rings (s : State) (k : Nat) (bs : List Byte) : (s.writeHome k bs).rings = s.rings := rfl
@[simp] theorem State.writeHome_tiles (s : State) (k : Nat) (bs : List Byte) : (s.writeHome k bs).tiles = s.tiles := rfl
@[simp] theorem State.writeHome_copies (s : State) (k : Nat) (bs : List Byte) : (s.writeHome k bs).copies = s.copies := rfl
@[simp] theorem State.writeHome_nextId (s : State) (k : Nat) (bs : List Byte) : (s.writeHome k bs).nextId = s.nextId := rfl
@[simp] theorem State.writeHome_now (s : State) (k : Nat) (bs : List Byte) : (s.writeHome k bs).now = s.now := rfl
@[simp] theorem State.writeHome_group (s : State) (k : Nat) (bs : List Byte) : (s.writeHome k bs).group = s.group := rfl

/-! Breach records. -/

/-- What a breach does (R345, R377): its record joins those of the instant, and the launch counts it; and nothing to a launch that is
gone or under debug. -/
theorem State.breach_none (s : State) (ctx party cause site die : Nat) (lost : Bool) (h : ∀ l, s.launch ctx = some l → l.debug = true) :
    s.breach ctx party cause site die lost = s := by
  unfold State.breach
  cases hl : s.launch ctx with
  | none => rfl
  | some l => simp only [h l hl, if_true]
theorem State.breach_some (s : State) (ctx party cause site die : Nat) (lost : Bool) (l : Launch) (h : s.launch ctx = some l) (hd : l.debug = false) :
    s.breach ctx party cause site die lost =
      ({ s with staged := stageRecord ((breachWords l (s.interval l.firstDie).2 party cause site die
        (breachCredit l (s.interval l.firstDie).2 lost)).map (BitVec.ofNat 32)) s.staged } : State).modLaunch ctx (fun m =>
        { m with
          breach := true, breaches := m.breaches + 1,
          credit := if party = 3 then m.credit else m.credit + breachCredit l (s.interval l.firstDie).2 lost }) := by
  unfold State.breach
  rw [h]
  simp only [hd, Bool.false_eq_true, if_false]

/-- A breach leaves everything but the records of the instant and the launches. -/
theorem State.breach_eq (s : State) (ctx party cause site die : Nat) (lost : Bool) : s.breach ctx party cause site die lost =
    { s with staged := (s.breach ctx party cause site die lost).staged, launches := (s.breach ctx party cause site die lost).launches } := by
  unfold State.breach
  split
  · rfl
  · split <;> rfl
@[simp] theorem State.breach_mem (s : State) (ctx party cause site die : Nat) (lost : Bool) :
    (s.breach ctx party cause site die lost).mem = s.mem := by rw [State.breach_eq]
@[simp] theorem State.breach_wgs (s : State) (ctx party cause site die : Nat) (lost : Bool) :
    (s.breach ctx party cause site die lost).wgs = s.wgs := by rw [State.breach_eq]
@[simp] theorem State.breach_leases (s : State) (ctx party cause site die : Nat) (lost : Bool) :
    (s.breach ctx party cause site die lost).leases = s.leases := by rw [State.breach_eq]
@[simp] theorem State.breach_dies (s : State) (ctx party cause site die : Nat) (lost : Bool) :
    (s.breach ctx party cause site die lost).dies = s.dies := by rw [State.breach_eq]
@[simp] theorem State.breach_account (s : State) (ctx party cause site die : Nat) (lost : Bool) :
    (s.breach ctx party cause site die lost).account = s.account := by rw [State.breach_eq]

/-- A record goes behind the others of its instant, or among them: none is lost. -/
theorem stageRecord_length (r : List Word) (xs : List (List Word)) : (stageRecord r xs).length = xs.length + 1 := by
  induction xs with
  | nil => rfl
  | cons x xs ih => unfold stageRecord; split <;> simp [ih]

/-- Where no record of the instant is one of those asked for, there is nothing to post. -/
theorem State.postThose_none (s : State) (p : List Word → Bool) (h : ∀ r ∈ s.staged, p r = false) : s.postThose p = s := by
  have h1 : s.staged.filter p = [] := List.filter_eq_nil_iff.mpr (fun r hr => by simp [h r hr])
  have h2 : s.staged.filter (fun r => !p r) = s.staged := List.filter_eq_self.mpr (fun r hr => by simp [h r hr])
  simp only [State.postThose, h1, h2, List.foldl_nil]

/-- With no record of the instant left, there is nothing to post. -/
theorem State.postStaged_none (s : State) (h : s.staged = []) : s.postStaged = s := by
  simp only [State.postStaged, State.postThose, h, List.filter_nil, List.foldl_nil]
  rw [← h]

/-! What a thread follows (R263, R264), and lines read anew (R106). -/

/-- Following writes changes one thread, and nothing else. -/
theorem State.follow_eq (s : State) (ctx wg tid : Nat) (xs : List Access) : s.follow ctx wg tid xs = { s with wgs := (s.follow ctx wg tid xs).wgs } := by
  simp only [State.follow]
  split <;> rfl
@[simp] theorem State.follow_mem (s : State) (ctx wg tid : Nat) (xs : List Access) : (s.follow ctx wg tid xs).mem = s.mem := by rw [State.follow_eq]
@[simp] theorem State.follow_flight (s : State) (ctx wg tid : Nat) (xs : List Access) : (s.follow ctx wg tid xs).flight = s.flight := by
  rw [State.follow_eq]
@[simp] theorem State.follow_cores (s : State) (ctx wg tid : Nat) (xs : List Access) : (s.follow ctx wg tid xs).cores = s.cores := by
  rw [State.follow_eq]

/-- A thread that follows no write stays as it is. -/
@[simp] theorem State.follow_nil (s : State) (ctx wg tid : Nat) : s.follow ctx wg tid [] = s := rfl

/-- Lines read anew change the cores, and nothing else. -/
theorem State.l1Refresh_eq (s : State) (core : Nat) (p : L1Line → Bool) : s.l1Refresh core p = { s with cores := (s.l1Refresh core p).cores } := by
  unfold State.l1Refresh
  generalize s.l1Group core = cs
  induction cs generalizing s with
  | nil => rfl
  | cons c cs ih =>
    simp only [List.foldl_cons]
    split
    · rw [ih, State.modCore_eq]
    · rw [ih]
@[simp] theorem State.l1Refresh_mem (s : State) (core : Nat) (p : L1Line → Bool) : (s.l1Refresh core p).mem = s.mem := by rw [State.l1Refresh_eq]
@[simp] theorem State.l1Refresh_wgs (s : State) (core : Nat) (p : L1Line → Bool) : (s.l1Refresh core p).wgs = s.wgs := by rw [State.l1Refresh_eq]
@[simp] theorem State.l1Refresh_flight (s : State) (core : Nat) (p : L1Line → Bool) : (s.l1Refresh core p).flight = s.flight := by
  rw [State.l1Refresh_eq]

end Sys2Proof.Machine
end

