-- ==== Sys2Proof/Laws/Canonical.lean ====
section
/-! SUPPORT. Every operation that writes one of the two byte stores keeps both in canonical form. -/

namespace Sys2Proof.Machine

/-- The two parts of canonical form. -/
theorem State.canonical_iff {s : State} : s.canonical = true ↔ Memory.wf s.mem = true ∧ Memory.wf s.scratch = true := by
  simp [State.canonical]

/-- Canonical form rests on the two stores alone. -/
theorem State.canonical_of_stores {s t : State} (hs : s.canonical = true) (hm : t.mem = s.mem) (hk : t.scratch = s.scratch) :
    t.canonical = true := by
  rw [State.canonical_iff] at *; rwa [hm, hk]

theorem State.canonical_writeHome {s : State} (hs : s.canonical = true) (key : Nat) (bs : List Byte) :
    (s.writeHome key bs).canonical = true :=
  State.canonical_iff.2 ⟨Memory.wf_putN (State.canonical_iff.1 hs).1, (State.canonical_iff.1 hs).2⟩

theorem State.canonical_writeBank {s : State} (hs : s.canonical = true) (core off : Nat) (bs : List Byte) :
    (s.writeBank core off bs).canonical = true :=
  State.canonical_iff.2 ⟨(State.canonical_iff.1 hs).1, Memory.wf_putN (State.canonical_iff.1 hs).2⟩

theorem State.canonical_writePhys {s : State} (hs : s.canonical = true) (die pa : Nat) (bs : List Byte) :
    (s.writePhys die pa bs).canonical = true :=
  State.canonical_iff.2 ⟨Memory.wf_writePhysCells (State.canonical_iff.1 hs).1, (State.canonical_iff.1 hs).2⟩

theorem State.canonical_writeNat {s : State} (hs : s.canonical = true) (die pa n v : Nat) :
    (s.writeNat die pa n v).canonical = true := State.canonical_writePhys hs die pa _

theorem State.canonical_writeWords {s : State} (hs : s.canonical = true) (die pa : Nat) (ws : List Nat) :
    (s.writeWords die pa ws).canonical = true := State.canonical_writePhys hs die pa _

/-- A line's write-back keeps the form of home memory. -/
theorem Memory.wf_writeBackCells {x : L1Line} {is : List Nat} {m : List Host.Cell} (hm : Memory.wf m = true) :
    Memory.wf (writeBackCells x is m) = true := by
  induction is generalizing m with
  | nil => exact hm
  | cons i is ih =>
    refine ih ?_
    split
    · exact Memory.wf_putN hm
    · exact hm

theorem State.canonical_writeBack {s : State} (hs : s.canonical = true) (x : L1Line) : (s.writeBack x).canonical = true :=
  State.canonical_iff.2 ⟨Memory.wf_writeBackCells (State.canonical_iff.1 hs).1, (State.canonical_iff.1 hs).2⟩

theorem State.canonical_modWg {s : State} (hs : s.canonical = true) (c w : Nat) (f : Workgroup → Workgroup) :
    (s.modWg c w f).canonical = true := State.canonical_of_stores hs (State.modWg_mem s c w f) (State.modWg_scratch s c w f)

theorem State.canonical_modThread {s : State} (hs : s.canonical = true) (c w k : Nat) (f : Thread → Thread) :
    (s.modThread c w k f).canonical = true :=
  State.canonical_of_stores hs (State.modThread_mem s c w k f) (State.modThread_scratch s c w k f)

theorem State.canonical_modLaunch {s : State} (hs : s.canonical = true) (c : Nat) (f : Launch → Launch) :
    (s.modLaunch c f).canonical = true := State.canonical_of_stores hs (State.modLaunch_mem s c f) (State.modLaunch_scratch s c f)

theorem State.canonical_modDie {s : State} (hs : s.canonical = true) (k : Nat) (f : Die → Die) :
    (s.modDie k f).canonical = true := State.canonical_of_stores hs (State.modDie_mem s k f) (State.modDie_scratch s k f)

theorem State.canonical_modCluster {s : State} (hs : s.canonical = true) (k : Nat) (f : Cluster → Cluster) :
    (s.modCluster k f).canonical = true := State.canonical_of_stores hs (State.modCluster_mem s k f) (State.modCluster_scratch s k f)

theorem State.canonical_modCore {s : State} (hs : s.canonical = true) (k : Nat) (f : Core → Core) :
    (s.modCore k f).canonical = true := State.canonical_of_stores hs (State.modCore_mem s k f) (State.modCore_scratch s k f)

/-- What keeps the form keeps it along a list. -/
theorem State.canonical_foldl {α : Type} {f : State → α → State} (hf : ∀ s a, s.canonical = true → (f s a).canonical = true)
    {s : State} (hs : s.canonical = true) (l : List α) : (l.foldl f s).canonical = true := by
  induction l generalizing s with
  | nil => exact hs
  | cons a l ih => exact ih (hf s a hs)

theorem State.canonical_drop {s : State} (hs : s.canonical = true) (a : Access) : (s.drop a).canonical = true := hs

/-! Polder lines come, go and take frames (R122, R123, R191, R124). -/

theorem State.canonical_backPage {s : State} (hs : s.canonical = true) (c : Nat) (r : Region) (p : Nat) :
    (s.backPage c r p).canonical = true :=
  State.canonical_iff.2 ⟨Memory.wf_filter _ (State.canonical_iff.1 hs).1, (State.canonical_iff.1 hs).2⟩

/-- The first access to a polder line keeps the form, whatever comes of it. -/
theorem State.canonical_polderAlloc {s t : State} {l : Launch} {va : Nat} (hs : s.canonical = true)
    (ht : s.polderAlloc l va = .done t ∨ s.polderAlloc l va = .breach t) : t.canonical = true := by
  unfold State.polderAlloc at ht
  split at ht
  · rcases ht with h | h <;> cases h
    exact hs
  · split at ht
    · rcases ht with h | h <;> cases h
      exact hs
    · rcases ht with h | h <;> cases h
      exact hs
    all_goals
      split at ht
      · rcases ht with h | h <;> cases h
        exact hs
      · split at ht
        · rcases ht with h | h <;> cases h
          exact State.canonical_iff.2 ⟨Memory.wf_zero (State.canonical_iff.1 hs).1, (State.canonical_iff.1 hs).2⟩
        · split at ht
          · rcases ht with h | h <;> cases h
            exact State.canonical_backPage hs _ _ _
          · rcases ht with h | h <;> cases h
            exact hs

theorem State.canonical_discardLines {s : State} (hs : s.canonical = true) (c va n : Nat) : (s.discardLines c va n).1.canonical = true :=
  State.canonical_foldl (fun _ _ h => State.canonical_writeHome h _ _) hs _

theorem State.canonical_freeLaunch {s : State} (hs : s.canonical = true) (c : Nat) : (s.freeLaunch c).canonical = true :=
  State.canonical_iff.2 ⟨Memory.wf_zero (State.canonical_iff.1 hs).1, (State.canonical_iff.1 hs).2⟩

/-! Transactions, context areas and messages. -/

theorem applyWrites_canonical {s : State} (hs : s.canonical = true) (ws : List (Nat × Byte)) : (applyWrites ws s).canonical = true := by
  induction ws generalizing s with
  | nil => exact hs
  | cons w ws ih => exact ih (State.canonical_writeHome hs _ _)

theorem State.canonical_writeArea {s : State} (hs : s.canonical = true) (w : Workgroup) : (s.writeArea w).canonical = true := by
  unfold State.writeArea
  split
  · exact hs
  · exact State.canonical_writePhys hs _ _ _

theorem State.canonical_message {s : State} (hs : s.canonical = true) (mask : Nat) (up : Bool) : (s.message mask up).canonical = true :=
  State.canonical_foldl (fun _ _ h => State.canonical_modCluster h _ _) hs _

end Sys2Proof.Machine
end

