-- ==== Sys2Proof/Laws/Issue.lean ====
section
/-! SUPPORT. The issue of an instruction: when no check fails and nothing holds, it performs in every member. -/

namespace Sys2Proof.Machine

theorem State.members_mem {s : State} {g : Group} {t : Thread} (h : t ∈ s.members g) :
    ∃ k ∈ g.tids, s.threadOf g.ctx g.wg k = some t := by
  unfold State.members at h
  simpa using h

theorem firstFail_none {ts : List Thread} {chk : Thread → Option TrapInfo} (h : ∀ t ∈ ts, chk t = none) : firstFail ts chk = none := by
  unfold firstFail
  rw [List.findSome?_eq_none_iff]
  intro t ht; simp [h t ht]

/-- What `issuable` says of each member. -/
theorem issuable_member {i : Instr} {s : State} {g : Group} (h : issuable i s g = true) {k : Nat} (hk : k ∈ g.tids) :
    ∃ u, s.threadOf g.ctx g.wg k = some u ∧ u.status = .ready ∧ (u.tx.active = true → txAllowed i = true) ∧
      (isProducer i = true → u.sub = 0) ∧ windowCheck i u = none := by
  simp only [issuable, Bool.and_eq_true, List.all_eq_true] at h
  have := h.2 k hk
  cases hu : s.threadOf g.ctx g.wg k with
  | none => simp [hu] at this
  | some u =>
    simp only [hu, Option.any_some, memberOk, Bool.and_eq_true, beq_iff_eq, Bool.or_eq_true, Bool.not_eq_true',
      Option.isNone_iff_eq_none] at this
    exact ⟨u, rfl, this.1.1.1, fun ha => by simpa [ha] using this.1.1.2, fun hp => by simpa [hp] using this.1.2, this.2⟩

theorem issuable_nodup {i : Instr} {s : State} {g : Group} (h : issuable i s g = true) : g.tids.Nodup := by
  simp only [issuable, Bool.and_eq_true, decide_eq_true_eq] at h
  exact h.1.1.1.1.2

theorem issuable_group {i : Instr} {s : State} {g : Group} (h : issuable i s g = true) : s.group = some g := by
  simp only [issuable, Bool.and_eq_true, beq_iff_eq] at h
  exact h.1.1.1.1.1.1

/-- Checks 1 to 5 of R57 pass. -/
theorem earlyChecks_none {i : Instr} {s : State} {g : Group} (h : issuable i s g = true) :
    earlyChecks i { s with group := none } g = none := by
  have hm : ∀ t ∈ State.members { s with group := none } g, ∃ k ∈ g.tids, s.threadOf g.ctx g.wg k = some t :=
    fun t ht => State.members_mem ht
  have h' := h
  simp only [issuable, Bool.and_eq_true, Bool.or_eq_true, Bool.not_eq_true', beq_iff_eq] at h'
  obtain ⟨⟨⟨⟨⟨⟨_, hwf⟩, _⟩, hpriv⟩, huser⟩, hwait⟩, _⟩ := h'
  have hp : (isPrivileged i && !State.privileged { s with group := none } g) = false := by
    have : State.privileged { s with group := none } g = s.privileged g := rfl
    rw [this]; cases hpriv with
    | inl hq => simp [hq]
    | inr hq => simp [hq]
  have hb : (isWaiting i && (((State.launch { s with group := none } g.ctx).bind (fun l => l.bound g.pc)).isNone)) = false := by
    have : State.launch { s with group := none } g.ctx = s.launch g.ctx := rfl
    rw [this]; cases hwait with
    | inl hq => simp [hq]
    | inr hq => rw [Option.isSome_iff_exists] at hq; obtain ⟨x, hx⟩ := hq; simp [hx]
  have h4 : firstFail (State.members { s with group := none } g)
      (fun t => if (isProducer i && t.sub != 0) = true then trapOf .streamer 0 else none) = none := by
    apply firstFail_none
    intro t ht
    obtain ⟨k, hk, hu⟩ := hm t ht
    obtain ⟨u, hu', _, _, hsub, _⟩ := issuable_member h hk
    have hut : u = t := by rw [hu] at hu'; exact (Option.some.inj hu').symm
    subst hut
    by_cases hpr : isProducer i = true
    · simp [hsub hpr]
    · simp [Bool.not_eq_true _ ▸ hpr]
  have h5 : firstFail (State.members { s with group := none } g) (windowCheck i) = none := by
    apply firstFail_none
    intro t ht
    obtain ⟨k, hk, hu⟩ := hm t ht
    obtain ⟨u, hu', _, _, _, hw⟩ := issuable_member h hk
    have hut : u = t := by rw [hu] at hu'; exact (Option.some.inj hu').symm
    subst hut; exact hw
  simp only [earlyChecks, hwf, hp, huser, hb, h4, h5, Bool.not_true, Bool.or_false, Bool.false_eq_true, if_false, orElse]

/-- With nobody timed out an issue's effect is its own. -/
@[simp] theorem heldEffect_nil (i : Instr) (eff : State → Group → Nat → State) : heldEffect i [] eff = eff := by
  funext s g tid; simp [heldEffect]

/-- A member that need not hold times out at no hold. -/
theorem timesOut_of_no_hold {hold : State → Group → Thread → Option HoldKind} {s0 : State} {g : Group} {t : Thread}
    (h : hold s0 g t = none) : timesOut hold s0 g t = false := by simp [timesOut, h]

/-- THE ISSUE PERFORMS: no check fails and no member must hold. -/
theorem issueHeld_performs {i : Instr} {chk : State → Group → Thread → Option TrapInfo}
    {hold : State → Group → Thread → Option HoldKind} {eff : State → Group → Nat → State} {s : State} {g : Group}
    (h : issuable i s g = true)
    (hc : ∀ k ∈ g.tids, ∀ u, s.threadOf g.ctx g.wg k = some u → chk { s with group := none } g u = none)
    (hh : ∀ k ∈ g.tids, ∀ u, s.threadOf g.ctx g.wg k = some u → hold { s with group := none } g u = none) :
    issueHeld i chk hold eff s = performAll i eff { s with group := none } g g.tids := by
  have hm : ∀ t ∈ State.members { s with group := none } g, ∃ k ∈ g.tids, s.threadOf g.ctx g.wg k = some t :=
    fun t ht => State.members_mem ht
  have hf : issueFault i chk { s with group := none } g = none := by
    unfold issueFault
    rw [earlyChecks_none h]
    simp only [orElse]
    apply firstFail_none
    intro t ht
    obtain ⟨k, hk, hu⟩ := hm t ht
    simp [hc k hk t hu]
  have hx : ∀ t ∈ State.members { s with group := none } g, txFaults i chk { s with group := none } g t = false := by
    intro t ht
    obtain ⟨k, hk, hu⟩ := hm t ht
    obtain ⟨u, hu', _, ha, _, _⟩ := issuable_member h hk
    have hut : u = t := by rw [hu] at hu'; exact (Option.some.inj hu').symm
    subst hut
    unfold txFaults
    by_cases hq : u.tx.active = true
    · simp [hc k hk u hu, ha hq]
    · simp [hq]
  have hmap : (State.members { s with group := none } g).map Thread.tid = g.tids := by
    unfold State.members
    have : ∀ l : List Nat, (∀ k ∈ l, k ∈ g.tids) →
        (l.filterMap (fun t => State.threadOf { s with group := none } g.ctx g.wg t)).map Thread.tid = l := by
      intro l hl
      induction l with
      | nil => rfl
      | cons k ks ih =>
        obtain ⟨u, hu, _⟩ := issuable_member h (hl k (by simp))
        have hu' : State.threadOf { s with group := none } g.ctx g.wg k = some u := hu
        simp only [List.filterMap_cons, hu', List.map_cons]
        rw [ih (fun k hk => hl k (by simp [hk])), State.threadOf_tid hu]
    exact this _ (fun _ hk => hk)
  have hfil : (State.members { s with group := none } g).filter (fun t => !txFaults i chk { s with group := none } g t)
      = State.members { s with group := none } g := by
    apply List.filter_eq_self.mpr; intro t ht; simp [hx t ht]
  have hgone : (State.members { s with group := none } g).filter (txFaults i chk { s with group := none } g) = [] := by
    rw [List.filter_eq_nil_iff]; intro t ht; simp [hx t ht]
  have hnone : ∀ t ∈ State.members { s with group := none } g, hold { s with group := none } g t = none := by
    intro t ht
    obtain ⟨k, hk, hu⟩ := hm t ht
    exact hh k hk t hu
  have hfold : ∀ (ts : List Thread) (x : State), (∀ t ∈ ts, hold { s with group := none } g t = none) →
      ts.foldl (holdOne hold { s with group := none } g) x = x := by
    intro ts
    induction ts with
    | nil => intro x _; rfl
    | cons t ts ih =>
      intro x hts
      simp only [List.foldl_cons, holdOne, hts t (by simp)]
      exact ih x (fun t ht => hts t (by simp [ht]))
  have hfil2 : (State.members { s with group := none } g).filter
      (fun t => (hold { s with group := none } g t).isNone || timesOut hold { s with group := none } g t) = State.members { s with group := none } g := by
    apply List.filter_eq_self.mpr; intro t ht; simp [hnone t ht]
  have hout : (State.members { s with group := none } g).filter (timesOut hold { s with group := none } g) = [] := by
    rw [List.filter_eq_nil_iff]; intro t ht; simp [timesOut_of_no_hold (hnone t ht)]
  unfold issueHeld
  simp only [issuable_group h, hf, hfil, hgone, List.map_nil, List.foldl_nil, hfold _ _ hnone, hfil2, hout, hmap, heldEffect_nil]

/-- The same for an issue that never holds. -/
theorem issue_performs {i : Instr} {chk : State → Group → Thread → Option TrapInfo} {eff : State → Group → Nat → State}
    {s : State} {g : Group} (h : issuable i s g = true)
    (hc : ∀ k ∈ g.tids, ∀ u, s.threadOf g.ctx g.wg k = some u → chk { s with group := none } g u = none) :
    issue i chk eff s = performAll i eff { s with group := none } g g.tids :=
  issueHeld_performs h hc (fun _ _ _ _ => rfl)

end Sys2Proof.Machine
end

