-- ==== Sys2Proof/Laws/Members.lean ====
section
/-! SUPPORT. What an instruction that acts on its members' threads alone leaves: each member's thread, and everything else as
it was. -/

namespace Sys2Proof.Machine

/-- Only some threads of one workgroup, and PC tables, differ. -/
structure Kept (s t : State) (c w : Nat) (tids : List Nat) : Prop where
  rest : t = { s with wgs := t.wgs, cores := t.cores }
  others : ∀ c' w' k, ¬(c' = c ∧ w' = w ∧ k ∈ tids) → t.threadOf c' w' k = s.threadOf c' w' k
  shells : ∀ c' w', (t.wgOf c' w').map Workgroup.shell = (s.wgOf c' w').map Workgroup.shell
  cores : ∀ k, (t.coreOf k).shell = (s.coreOf k).shell

theorem Kept.refl (s : State) (c w : Nat) (tids : List Nat) : Kept s s c w tids := ⟨rfl, fun _ _ _ _ => rfl, fun _ _ => rfl, fun _ => rfl⟩

theorem Kept.trans {s t u : State} {c w : Nat} {tids : List Nat} (h1 : Kept s t c w tids) (h2 : Kept t u c w tids) : Kept s u c w tids where
  rest := by rw [h2.rest, h1.rest]
  others := fun c' w' k hk => (h2.others c' w' k hk).trans (h1.others c' w' k hk)
  shells := fun c' w' => (h2.shells c' w').trans (h1.shells c' w')
  cores := fun k => (h2.cores k).trans (h1.cores k)

theorem shells_modThread (s : State) (c w k : Nat) (f : Thread → Thread) (c' w' : Nat) :
    ((s.modThread c w k f).wgOf c' w').map Workgroup.shell = (s.wgOf c' w').map Workgroup.shell := by
  unfold State.modThread
  rw [State.wgOf_modWg s c w _ _ (fun x => x.modThread k f) (fun x => ⟨rfl, rfl⟩)]
  cases s.wgOf c' w' with
  | none => rfl
  | some x => simp only [Option.map_some]; split <;> rfl

theorem Kept.modThread (s : State) (c w k : Nat) (f : Thread → Thread) (hf : ∀ t, (f t).tid = t.tid) (tids : List Nat) (hk : k ∈ tids) :
    Kept s (s.modThread c w k f) c w tids where
  rest := rfl
  others := fun c' w' k' h => State.threadOf_modThread_other s c w k c' w' k' f hf (fun e => h ⟨e.1, e.2.1, e.2.2 ▸ hk⟩)
  shells := shells_modThread s c w k f
  cores := fun _ => rfl

theorem find_insertBy_core (i : Nat) (x : Core) : ∀ l : List Core, (∀ y ∈ l, y.id ≠ x.id) →
    (insertBy (fun a b : Core => decide (a.id ≤ b.id)) x l).find? (fun y => y.id == i)
      = if x.id == i then some x else l.find? (fun y => y.id == i) := by
  intro l
  induction l with
  | nil => intro _; simp [insertBy, List.find?_cons]; split <;> simp_all
  | cons y ys ih =>
    intro h
    simp only [insertBy]
    split
    · simp only [List.find?_cons]
      rw [ih (fun z hz => h z (by simp [hz]))]
      have hy : y.id ≠ x.id := h y (by simp)
      by_cases hi : y.id = i
      · have : x.id ≠ i := fun e => hy (hi.trans e.symm)
        simp [hi, this]
      · have hi' : (y.id == i) = false := by simpa using hi
        simp only [hi']
    · simp only [List.find?_cons]
      cases x.id == i <;> simp

/-- The core found after one has changed. -/
theorem State.coreOf_modCore (s : State) (k : Nat) (f : Core → Core) (hf : ∀ c, (f c).id = c.id) (j : Nat) :
    (s.modCore k f).coreOf j = if j = k then f (s.coreOf k) else s.coreOf j := by
  unfold State.modCore
  split
  · rename_i h
    unfold State.coreOf
    have hm := find_map_if s.cores (fun x => x.id == j) (fun x => x.id == k) f (fun x => by simp [hf])
    simp only [hm]
    cases hj : s.cores.find? (fun x => x.id == j) with
    | none =>
      by_cases hjk : j = k
      · subst hjk
        rw [List.find?_eq_none] at hj
        rw [List.any_eq_true] at h
        obtain ⟨x, hx, hx2⟩ := h
        exact absurd hx2 (hj x hx)
      · simp [hjk]
    | some x =>
      have hx : x.id = j := by simpa using List.find?_some hj
      by_cases hjk : j = k
      · subst hjk; simp [hx, hj]
      · simp [hx, hjk]
  · rename_i h
    have hno : ∀ y ∈ s.cores, y.id ≠ k := by
      intro y hy e
      exact h (List.any_eq_true.mpr ⟨y, hy, by simp [e]⟩)
    have hid : (f (Core.reset k)).id = k := by rw [hf]; rfl
    unfold State.coreOf
    simp only
    rw [find_insertBy_core j (f (Core.reset k)) s.cores (by rw [hid]; exact hno), hid]
    by_cases hjk : j = k
    · subst hjk
      have hn : s.cores.find? (fun x => x.id == j) = none := by
        rw [List.find?_eq_none]; intro y hy; simpa using hno y hy
      simp [hn]
    · have : k ≠ j := fun e => hjk e.symm
      simp [hjk, this]

@[simp] theorem Core.place_id (c : Core) (a b p k : Nat) : (c.place a b p k).id = c.id := by
  unfold Core.place; split
  · rfl
  · split <;> rfl
@[simp] theorem Core.place_shell (c : Core) (a b p k : Nat) : (c.place a b p k).shell = c.shell := by
  unfold Core.place; split
  · rfl
  · split <;> rfl

theorem Kept.place (s : State) (c w k : Nat) (tids : List Nat) : Kept s (s.place c w k) c w tids where
  rest := by rw [State.place_eq]
  others := fun _ _ _ _ => by simp
  shells := fun c' w' => by unfold State.wgOf; simp
  cores := fun j => by
    unfold State.place
    split
    · rfl
    · split
      · rfl
      · rw [State.coreOf_modCore _ _ _ (fun c => by simp)]
        split
        · rename_i h; subst h; simp
        · rfl

theorem Kept.keepReady (s : State) (c w k : Nat) (tids : List Nat) (hk : k ∈ tids) : Kept s (s.keepReady c w k) c w tids := by
  unfold State.keepReady
  exact (Kept.modThread s c w k (fun t => { t with status := .ready }) (fun _ => rfl) tids hk).trans (Kept.place _ c w k tids)

/-- A member's thread after it goes on (R20, R58). -/
def Thread.goOn (i : Instr) (t : Thread) : Thread :=
  match t.status with
  | .ready => if closesRun i t.runLen then { t with status := .parked, runLen := 64 } else { t with status := .ready, runLen := t.runLen + 1 }
  | .held _ | .asleep _ => { t with runLen := if closesRun i t.runLen then 64 else t.runLen + 1 }
  | .parked | .exited => t

theorem Thread.goOn_tid (i : Instr) (t : Thread) : (t.goOn i).tid = t.tid := by
  unfold Thread.goOn; split <;> first | rfl | (split <;> rfl)

theorem Kept.advance (i : Instr) (g : Group) (s : State) (k : Nat) (tids : List Nat) (hk : k ∈ tids) :
    Kept s (State.advance i g s k) g.ctx g.wg tids := by
  unfold State.advance
  split
  · exact Kept.refl _ _ _ _
  · split
    · split
      · exact Kept.modThread s _ _ k (fun t => { t with status := .parked, runLen := 64 }) (fun _ => rfl) tids hk
      · exact (Kept.modThread s _ _ k (fun t => { t with runLen := t.runLen + 1 }) (fun _ => rfl) tids hk).trans (Kept.keepReady _ _ _ _ _ hk)
    · rename_i t _ _ _
      exact Kept.modThread s _ _ k (fun t => { t with runLen := if closesRun i t.runLen then 64 else t.runLen + 1 }) (fun _ => rfl) tids hk
    · exact Kept.modThread s _ _ k (fun t => { t with runLen := if closesRun i t.runLen then 64 else t.runLen + 1 }) (fun _ => rfl) tids hk
    · exact Kept.refl _ _ _ _
    · exact Kept.refl _ _ _ _

theorem State.threadOf_keepReady (s : State) (c w k : Nat) :
    (s.keepReady c w k).threadOf c w k = (s.threadOf c w k).map (fun t => { t with status := .ready }) := by
  unfold State.keepReady
  rw [State.threadOf_place]
  exact State.threadOf_modThread_same s c w k (fun t => { t with status := .ready }) (fun _ => rfl)

theorem State.threadOf_advance (i : Instr) (g : Group) (s : State) (k : Nat) :
    (State.advance i g s k).threadOf g.ctx g.wg k = (s.threadOf g.ctx g.wg k).map (Thread.goOn i) := by
  unfold State.advance
  cases h : s.threadOf g.ctx g.wg k with
  | none => simp [h]
  | some t =>
    simp only [Option.map_some, Thread.goOn]
    cases ht : t.status with
    | ready =>
      by_cases hc : closesRun i t.runLen = true
      · simp only [hc, if_true]
        rw [State.threadOf_modThread_same s _ _ k (fun t => { t with status := .parked, runLen := 64 }) (fun _ => rfl), h]
        rfl
      · simp only [hc, Bool.false_eq_true, if_false]
        rw [State.threadOf_keepReady, State.threadOf_modThread_same s _ _ k (fun t => { t with runLen := t.runLen + 1 }) (fun _ => rfl), h]
        rfl
    | held x =>
      simp only
      rw [State.threadOf_modThread_same s _ _ k (fun t => { t with runLen := if closesRun i t.runLen then 64 else t.runLen + 1 }) (fun _ => rfl), h]
      simp [ht]
    | asleep x =>
      simp only
      rw [State.threadOf_modThread_same s _ _ k (fun t => { t with runLen := if closesRun i t.runLen then 64 else t.runLen + 1 }) (fun _ => rfl), h]
      simp [ht]
    | parked => simp [h]
    | exited => simp [h]

/-- A fold of member steps: each member's thread is mapped, and all else is kept. -/
theorem fold_members {F : State → Nat → State} {φ : Thread → Thread} {c w : Nat} (tids all : List Nat) (hall : ∀ k ∈ tids, k ∈ all)
    (hnd : tids.Nodup) (s : State)
    (hk : ∀ s k, k ∈ tids → Kept s (F s k) c w [k])
    (ht : ∀ s k, k ∈ tids → (F s k).threadOf c w k = (s.threadOf c w k).map φ) :
    Kept s (tids.foldl F s) c w all ∧ ∀ k ∈ tids, (tids.foldl F s).threadOf c w k = (s.threadOf c w k).map φ := by
  induction tids generalizing s with
  | nil => exact ⟨Kept.refl _ _ _ _, fun k hk => by simp at hk⟩
  | cons k ks ih =>
    simp only [List.nodup_cons] at hnd
    have hsub : ∀ {t : State} {j : Nat}, j ∈ k :: ks → Kept t (F t j) c w all := by
      intro t j hj
      have h1 := hk t j hj
      exact ⟨h1.rest, fun c' w' k' hn => h1.others c' w' k' (fun e => hn ⟨e.1, e.2.1, by
        have : k' = j := by simpa using e.2.2
        rw [this]; exact hall j hj⟩), h1.shells, h1.cores⟩
    obtain ⟨h2, h3⟩ := ih (fun j hj => hall j (by simp [hj])) hnd.2 (F s k) (fun s j hj => hk s j (by simp [hj])) (fun s j hj => ht s j (by simp [hj]))
    refine ⟨(hsub (by simp)).trans h2, ?_⟩
    intro j hj
    simp only [List.foldl_cons]
    rcases List.mem_cons.mp hj with rfl | hj'
    · have hout : ∀ (ts : List Nat) (x : State), (∀ m ∈ ts, m ∈ j :: ks) → j ∉ ts → (ts.foldl F x).threadOf c w j = x.threadOf c w j := by
        intro ts
        induction ts with
        | nil => intro x _ _; rfl
        | cons m ms ihm =>
          intro x hx hn
          simp only [List.foldl_cons]
          rw [ihm (F x m) (fun a ha => hx a (by simp [ha])) (fun e => hn (by simp [e]))]
          exact (hk x m (hx m (by simp))).others c w j (fun e => hn (by
            have : j = m := by simpa using e.2.2
            simp [this]))
      rw [hout ks (F s j) (fun m hm => by simp [hm]) hnd.1, ht s j (by simp)]
    · rw [h3 j hj', (hk s k (by simp)).others c w j (fun e => by
        have : j = k := by simpa using e.2.2
        exact hnd.1 (this ▸ hj'))]

/-- AN INSTRUCTION THAT ACTS ON EACH MEMBER'S THREAD ALONE: its effect is `f` on the thread whose PC has moved, and its run
goes on. -/
theorem performAll_onThread {i : Instr} {g : Group} (f : Thread → Thread) (hf : ∀ t, (f t).tid = t.tid) (tids : List Nat) (hnd : tids.Nodup)
    (s : State) :
    Kept s (performAll i (onThread f) s g tids) g.ctx g.wg tids ∧
      ∀ k ∈ tids, (performAll i (onThread f) s g tids).threadOf g.ctx g.wg k =
        (s.threadOf g.ctx g.wg k).map (fun u => (f { u with pc := g.pc + i.bytes, holdPc := none }).goOn i) := by
  unfold performAll
  have h1 := fold_members (F := stepPc i g) (φ := fun t => { t with pc := g.pc + i.bytes, holdPc := none }) (c := g.ctx) (w := g.wg) tids tids
    (fun _ h => h) hnd s
    (fun s k _ => Kept.modThread s _ _ k (fun t => { t with pc := g.pc + i.bytes, holdPc := none }) (fun _ => rfl) [k] (by simp))
    (fun s k _ => State.threadOf_modThread_same s _ _ k (fun t => { t with pc := g.pc + i.bytes, holdPc := none }) (fun _ => rfl))
  have h2 := fold_members (F := fun s t => onThread f s g t) (φ := f) (c := g.ctx) (w := g.wg) tids tids (fun _ h => h) hnd
    (tids.foldl (stepPc i g) s)
    (fun s k _ => Kept.modThread s _ _ k f hf [k] (by simp))
    (fun s k _ => State.threadOf_modThread_same s _ _ k f hf)
  have h3 := fold_members (F := State.advance i g) (φ := Thread.goOn i) (c := g.ctx) (w := g.wg) tids tids (fun _ h => h) hnd
    (tids.foldl (fun s t => onThread f s g t) (tids.foldl (stepPc i g) s))
    (fun s k _ => Kept.advance i g s k [k] (by simp))
    (fun s k _ => State.threadOf_advance i g s k)
  refine ⟨h1.1.trans (h2.1.trans h3.1), ?_⟩
  intro k hk
  rw [h3.2 k hk, h2.2 k hk, h1.2 k hk]
  cases s.threadOf g.ctx g.wg k <;> rfl

/-- A fold of member steps that look at the rest of the state as well: as long as `P` holds, member `k`'s thread goes from `u`
to `φ k u`. -/
theorem fold_members_of {F : State → Nat → State} {φ : Nat → Thread → Thread} {P : State → Prop} {c w : Nat} (tids all : List Nat)
    (hall : ∀ k ∈ tids, k ∈ all) (hnd : tids.Nodup) (s : State) (h0 : P s)
    (hk : ∀ s k, k ∈ tids → P s → Kept s (F s k) c w [k])
    (hp : ∀ s k, k ∈ tids → P s → P (F s k))
    (ht : ∀ s k, k ∈ tids → P s → (F s k).threadOf c w k = (s.threadOf c w k).map (φ k)) :
    P (tids.foldl F s) ∧ Kept s (tids.foldl F s) c w all ∧
      ∀ k ∈ tids, (tids.foldl F s).threadOf c w k = (s.threadOf c w k).map (φ k) := by
  induction tids generalizing s with
  | nil => exact ⟨h0, Kept.refl _ _ _ _, fun k hk => by simp at hk⟩
  | cons k ks ih =>
    simp only [List.nodup_cons] at hnd
    have h1 := hk s k (by simp) h0
    have h1' : Kept s (F s k) c w all := ⟨h1.rest, fun c' w' k' hn => h1.others c' w' k' (fun e => hn ⟨e.1, e.2.1, by
        have : k' = k := by simpa using e.2.2
        rw [this]; exact hall k (by simp)⟩), h1.shells, h1.cores⟩
    obtain ⟨h2, h3, h4⟩ := ih (fun j hj => hall j (by simp [hj])) hnd.2 (F s k) (hp s k (by simp) h0)
      (fun s j hj => hk s j (by simp [hj])) (fun s j hj => hp s j (by simp [hj])) (fun s j hj => ht s j (by simp [hj]))
    refine ⟨h2, h1'.trans h3, ?_⟩
    intro j hj
    simp only [List.foldl_cons]
    rcases List.mem_cons.mp hj with rfl | hj'
    · have hout : ∀ (ts : List Nat) (x : State), P x → (∀ m ∈ ts, m ∈ j :: ks) → j ∉ ts →
          (ts.foldl F x).threadOf c w j = x.threadOf c w j := by
        intro ts
        induction ts with
        | nil => intro x _ _ _; rfl
        | cons m ms ihm =>
          intro x hx hm hn
          simp only [List.foldl_cons]
          rw [ihm (F x m) (hp x m (hm m (by simp)) hx) (fun a ha => hm a (by simp [ha])) (fun e => hn (by simp [e]))]
          exact (hk x m (hm m (by simp)) hx).others c w j (fun e => hn (by
            have : j = m := by simpa using e.2.2
            simp [this]))
      rw [hout ks (F s j) (hp s j (by simp) h0) (fun m hm => by simp [hm]) hnd.1, ht s j (by simp) h0]
    · rw [h4 j hj', h1.others c w j (fun e => by
        have : j = k := by simpa using e.2.2
        exact hnd.1 (this ▸ hj'))]

/-- AN INSTRUCTION WHOSE MEMBERS' EFFECTS LOOK AT THE REST OF THE STATE: while `P` holds, member `k`'s effect is `φ k` on its
thread, whose PC has moved. -/
theorem performAll_of {i : Instr} {g : Group} {eff : State → Group → Nat → State} {φ : Nat → Thread → Thread} {P : State → Prop}
    (tids : List Nat) (hnd : tids.Nodup) (s : State) (h0 : P (tids.foldl (stepPc i g) s))
    (hk : ∀ s k, k ∈ tids → P s → Kept s (eff s g k) g.ctx g.wg [k])
    (hp : ∀ s k, k ∈ tids → P s → P (eff s g k))
    (ht : ∀ s k, k ∈ tids → P s → (eff s g k).threadOf g.ctx g.wg k = (s.threadOf g.ctx g.wg k).map (φ k)) :
    Kept s (performAll i eff s g tids) g.ctx g.wg tids ∧
      ∀ k ∈ tids, (performAll i eff s g tids).threadOf g.ctx g.wg k =
        (s.threadOf g.ctx g.wg k).map (fun u => (φ k { u with pc := g.pc + i.bytes, holdPc := none }).goOn i) := by
  unfold performAll
  have h1 := fold_members (F := stepPc i g) (φ := fun t => { t with pc := g.pc + i.bytes, holdPc := none }) (c := g.ctx) (w := g.wg) tids tids
    (fun _ h => h) hnd s
    (fun s k _ => Kept.modThread s _ _ k (fun t => { t with pc := g.pc + i.bytes, holdPc := none }) (fun _ => rfl) [k] (by simp))
    (fun s k _ => State.threadOf_modThread_same s _ _ k (fun t => { t with pc := g.pc + i.bytes, holdPc := none }) (fun _ => rfl))
  have h2 := fold_members_of (F := fun s t => eff s g t) (φ := φ) (c := g.ctx) (w := g.wg) tids tids (fun _ h => h) hnd
    (tids.foldl (stepPc i g) s) h0 hk hp ht
  have h3 := fold_members (F := State.advance i g) (φ := Thread.goOn i) (c := g.ctx) (w := g.wg) tids tids (fun _ h => h) hnd
    (tids.foldl (fun s t => eff s g t) (tids.foldl (stepPc i g) s))
    (fun s k _ => Kept.advance i g s k [k] (by simp))
    (fun s k _ => State.threadOf_advance i g s k)
  refine ⟨h1.1.trans (h2.2.1.trans h3.1), ?_⟩
  intro k hk
  rw [h3.2 k hk, h2.2.2 k hk, h1.2 k hk]
  cases s.threadOf g.ctx g.wg k <;> rfl

/-- The members of an issue that acts on threads alone, and all that it leaves. -/
theorem onThread_only {i : Instr} {chk : State → Group → Thread → Option TrapInfo} {f : Thread → Thread} {s : State} {g : Group}
    (h : issuable i s g = true) (hf : ∀ t, (f t).tid = t.tid)
    (hc : ∀ k ∈ g.tids, ∀ u, s.threadOf g.ctx g.wg k = some u → chk { s with group := none } g u = none) :
    OnlyMembers s (issue i chk (onThread f) s) g ∧
      EachMember s (issue i chk (onThread f) s) g
        (fun u v => u.status = .ready ∧ windowCheck i u = none ∧ v = (f { u with pc := g.pc + i.bytes, holdPc := none }).goOn i) := by
  rw [issue_performs h hc]
  obtain ⟨h1, h2⟩ := performAll_onThread (i := i) (g := g) f hf g.tids (issuable_nodup h) { s with group := none }
  refine ⟨⟨?_, ?_, ?_, ?_⟩, ?_⟩
  · rw [h1.rest]
  · exact fun c w k hk => h1.others c w k hk
  · exact h1.shells
  · exact h1.cores
  · intro k hk
    obtain ⟨u, hu, hr, _, _, hw⟩ := issuable_member h hk
    refine ⟨u, _, hu, ?_, hr, hw, rfl⟩
    rw [h2 k hk]
    have : State.threadOf { s with group := none } g.ctx g.wg k = some u := hu
    rw [this]; rfl

end Sys2Proof.Machine
end

