-- ==== Sys2Proof/Laws/Power.lean ====
section
/-! SUPPORT. What the operations on budgets, permits, manifests and records can change: sites alone, clusters alone, launches alone. -/

namespace Sys2Proof.Machine

theorem State.modSite_eq (s : State) (d i : Nat) (f : Site → Site) : s.modSite d i f = { s with sites := (s.modSite d i f).sites } := by
  unfold State.modSite; split <;> rfl

/-- A fold of steps that change the sites alone changes the sites alone. -/
theorem sites_foldl {α : Type} (f : State → α → State) (h : ∀ s x, f s x = { s with sites := (f s x).sites }) (xs : List α) :
    ∀ s : State, xs.foldl f s = { s with sites := (xs.foldl f s).sites } := by
  induction xs with
  | nil => exact fun _ => rfl
  | cons x xs ih =>
    intro s
    rw [List.foldl_cons, ih, h s x]

/-- Where no lease may be evicted, shedding power only turns sites off (R201, R202). -/
theorem State.shedUntil_none (s : State) (die : Nat) (keep : List Nat) (ok : State → Bool) :
    s.shedUntil die keep ok [] = { s with sites := (s.shedUntil die keep ok []).sites } := by
  unfold State.shedUntil
  exact sites_foldl _ (fun s i => by split; exacts [rfl, State.modSite_eq s _ _ _]) _ s

/-- Keeping a die within its budget changes only sites where no lease is left (R355). -/
theorem State.keepBudget_free (s : State) (die : Nat) (h : s.leases = []) : s.keepBudget die = { s with sites := (s.keepBudget die).sites } := by
  have : s.shedOrder die = [] := by unfold State.shedOrder; rw [h]; rfl
  unfold State.keepBudget
  rw [this]
  exact s.shedUntil_none die [] _

/-! The manifest is made anew (R382). -/

@[simp] theorem State.newManifest_mem (s : State) : s.newManifest.mem = s.mem := rfl
@[simp] theorem State.newManifest_wgs (s : State) : s.newManifest.wgs = s.wgs := rfl
@[simp] theorem State.newManifest_leases (s : State) : s.newManifest.leases = s.leases := rfl
@[simp] theorem State.newManifest_clusters (s : State) : s.newManifest.clusters = s.clusters := rfl
@[simp] theorem State.newManifest_gen (s : State) : s.newManifest.manifestGen = (s.manifestGen + 1) % 2 ^ 32 := rfl

/-- A message to the leaf controllers spends permits, and changes nothing but the clusters (R335). -/
theorem State.message_eq (s : State) (mask : Nat) (up : Bool) : s.message mask up = { s with clusters := (s.message mask up).clusters } := by
  unfold State.message
  generalize (rangeFrom 0 16).filter (bitOf mask) = xs
  induction xs generalizing s with
  | nil => rfl
  | cons x xs ih => rw [List.foldl_cons, ih]; rfl
@[simp] theorem State.message_mem (s : State) (mask : Nat) (up : Bool) : (s.message mask up).mem = s.mem := by rw [State.message_eq]
@[simp] theorem State.message_launches (s : State) (mask : Nat) (up : Bool) : (s.message mask up).launches = s.launches := by rw [State.message_eq]
@[simp] theorem State.message_wgs (s : State) (mask : Nat) (up : Bool) : (s.message mask up).wgs = s.wgs := by rw [State.message_eq]

/-- Posting a record leaves the launches, the dies and the records of the instant (R378). -/
theorem State.accountPost_rest (s : State) (ws : List Nat) : (s.accountPost ws).launches = s.launches ∧ (s.accountPost ws).dies = s.dies ∧
    (s.accountPost ws).staged = s.staged := by
  unfold State.accountPost
  split <;> exact ⟨rfl, rfl, rfl⟩

end Sys2Proof.Machine
end

