-- ==== Sys2Proof/Laws/Results.lean ====
section
/-! SUPPORT. One lemma per shared operation of the arithmetic groups: what it leaves in every member. -/

namespace Sys2Proof.Machine

/-- A window check that passes: every named field lies inside the allocation (R63). -/
theorem windowCheck_inside {i : Instr} {u : Thread} (h : windowCheck i u = none) {f : Nat × Nat} (hf : f ∈ namedFields i) {k : Nat}
    (hk : k < f.2) : u.phys (f.1 + k) < u.regs.length := by
  unfold windowCheck at h
  split at h
  · rename_i hn
    have h1 := List.find?_eq_none.mp hn f hf
    simp only [Bool.not_eq_true', Bool.not_eq_false] at h1
    simp only [fieldInside, List.all_eq_true, decide_eq_true_eq] at h1
    apply h1
    have : ∀ a n j, j < n → a + j ∈ rangeFrom a n := by
      intro a n
      induction n generalizing a with
      | zero => intro j hj; omega
      | succ n ih =>
        intro j hj
        cases j with
        | zero => simp [rangeFrom]
        | succ j => simp only [rangeFrom, List.mem_cons]; exact Or.inr (by have := ih (a + 1) j (by omega); rwa [show a + 1 + j = a + (j + 1) by omega] at this)
    exact this f.1 f.2 k hk
  · simp [trapOf] at h

theorem Thread.goOn_ready {i : Instr} {t : Thread} (h : t.status = .ready) :
    t.goOn i = { t with status := (t.goOn i).status, runLen := (t.goOn i).runLen } := by
  unfold Thread.goOn
  simp only [h]
  split <;> rfl

theorem Thread.goOn_run {i : Instr} {t u : Thread} (h : t.status = .ready) (hu : t.runLen = u.runLen) : RunGoesOn i u (t.goOn i) := by
  unfold RunGoesOn Thread.goOn
  simp only [h, hu]
  split <;> simp

@[simp] theorem Thread.goOn_regs (i : Instr) (t : Thread) : (t.goOn i).regs = t.regs := by
  unfold Thread.goOn; split <;> first | rfl | (split <;> rfl)
@[simp] theorem Thread.goOn_base (i : Instr) (t : Thread) : (t.goOn i).base = t.base := by
  unfold Thread.goOn; split <;> first | rfl | (split <;> rfl)
@[simp] theorem Thread.goOn_readW (i : Instr) (t : Thread) (f : Nat) : (t.goOn i).readW f = t.readW f := by
  unfold Thread.readW Thread.phys; simp

theorem Thread.phys_base {u v : Thread} (h : v.base = u.base) (f : Nat) : v.phys f = u.phys f := by unfold Thread.phys; rw [h]

/-- One word written at issue. -/
theorem wrote_word {i : Instr} {pc d : Nat} {r : Word} {u : Thread} (hr : u.status = .ready) (hd : u.phys d < u.regs.length) :
    Wrote i pc d [r] u (({ u with pc := pc, holdPc := none }.writeW d r).goOn i) := by
  refine ⟨?_, ?_, ?_, ?_, ?_⟩
  · intro k hk
    have : k = 0 := by simpa using hk
    subst this
    rw [Thread.goOn_readW]
    exact Thread.readW_writeW_same _ d r hd
  · intro p hp
    rw [Thread.goOn_regs]
    exact Thread.nth_writeW_other _ d p r (hp 0 (by simp))
  · simp
  · rw [Thread.goOn_ready (i := i) (by exact hr)]
    rfl
  · exact Thread.goOn_run hr rfl

/-- Nothing written at issue. -/
theorem wrote_nothing {i : Instr} {pc d : Nat} {u : Thread} (hr : u.status = .ready) :
    Wrote i pc d [] u ({ u with pc := pc, holdPc := none }.goOn i) := by
  refine ⟨fun k hk => by simp at hk, fun p _ => by rw [Thread.goOn_regs], by simp, ?_, Thread.goOn_run hr rfl⟩
  rw [Thread.goOn_ready (i := i) (by exact hr)]

/-- A pair written at issue, its fields on one side of the window. -/
theorem wrote_pair {i : Instr} {pc d r : Nat} {u : Thread} (hr : u.status = .ready) (hd : u.phys d < u.regs.length)
    (hd1 : u.phys (d + 1) < u.regs.length) (he : u.phys (d + 1) ≠ u.phys d) :
    Wrote i pc d (pairWords r) u (({ u with pc := pc, holdPc := none }.writePair d r).goOn i) := by
  refine ⟨?_, ?_, ?_, ?_, ?_⟩
  · intro k hk
    rw [Thread.goOn_readW]
    have : k = 0 ∨ k = 1 := by have : k < 2 := hk; omega
    rcases this with rfl | rfl
    · show nth 0 (Thread.writePair _ d r).regs (Thread.phys u d) = _
      unfold Thread.writePair
      rw [Thread.nth_writeW_other]
      · exact Thread.readW_writeW_same { u with pc := pc, holdPc := none } d _ hd
      · exact fun e => he e.symm
    · exact Thread.readW_writeW_same _ (d + 1) _ (by
        show Thread.phys u (d + 1) < _
        rw [Thread.writeW_alloc]; exact hd1)
  · intro p hp
    rw [Thread.goOn_regs]
    unfold Thread.writePair
    have h1 : p ≠ u.phys (d + 1) := hp 1 (Nat.lt_succ_self 1)
    have h0 : p ≠ u.phys d := hp 0 (Nat.succ_pos 1)
    exact (Thread.nth_writeW_other (Thread.writeW { u with pc := pc, holdPc := none } d _) (d + 1) p _ h1).trans
      (Thread.nth_writeW_other { u with pc := pc, holdPc := none } d p _ h0)
  · rw [Thread.goOn_regs]; unfold Thread.writePair; rw [Thread.writeW_alloc, Thread.writeW_alloc]
  · rw [Thread.goOn_ready (i := i) (by exact hr)]
    rfl
  · exact Thread.goOn_run hr rfl

/-- A word owed until the park. -/
theorem owes_word {i : Instr} {pc d : Nat} {r : Word} {u : Thread} (hr : u.status = .ready) :
    Owes i pc d [r] u (({ u with pc := pc, holdPc := none }.addResult ({ u with pc := pc, holdPc := none }.dests d 1) (some [some r])).goOn i) := by
  refine ⟨?_, Thread.goOn_run hr rfl⟩
  rw [Thread.goOn_ready (i := i) (by exact hr)]
  rfl

theorem EachMember.imp {s t : State} {g : Group} {p q : Thread → Thread → Prop} (h : EachMember s t g p)
    (hpq : ∀ u v, p u v → q u v) : EachMember s t g q :=
  fun k hk => by obtain ⟨u, v, hu, hv, hp⟩ := h k hk; exact ⟨u, v, hu, hv, hpq u v hp⟩

/-- A fixed-latency word operation (R59, R127). -/
theorem opRRR_wrote {i : Instr} {d a b : Reg} {f : Word → Word → Word → Word} {s : State} {g : Group} (h : issuable i s g = true)
    (hd : (d.toNat, 1) ∈ namedFields i) :
    OnlyMembers s (opRRR i d a b f s) g ∧ EachMember s (opRRR i d a b f s) g (fun u v =>
      Wrote i (g.pc + i.bytes) d.toNat [f (u.readW a.toNat) (u.readW b.toNat) (u.readW d.toNat)] u v) := by
  obtain ⟨h1, h2⟩ := onThread_only (chk := noCheck)
    (f := fun t => t.writeW (rn d) (f (t.readW (rn a)) (t.readW (rn b)) (t.readW (rn d)))) h (fun _ => rfl) (fun _ _ _ _ => rfl)
  refine ⟨h1, h2.imp ?_⟩
  rintro u v ⟨hr, hw, rfl⟩
  exact wrote_word hr (windowCheck_inside hw hd (by decide : 0 < 1))

/-- A fixed-latency operation of one source. -/
theorem opRI_wrote {i : Instr} {d a : Reg} {f : Word → Word} {s : State} {g : Group} (h : issuable i s g = true)
    (hd : (d.toNat, 1) ∈ namedFields i) :
    OnlyMembers s (opRI i d a f s) g ∧ EachMember s (opRI i d a f s) g (fun u v =>
      Wrote i (g.pc + i.bytes) d.toNat [f (u.readW a.toNat)] u v) := by
  obtain ⟨h1, h2⟩ := onThread_only (chk := noCheck) (f := fun t => t.writeW (rn d) (f (t.readW (rn a)))) h (fun _ => rfl) (fun _ _ _ _ => rfl)
  refine ⟨h1, h2.imp ?_⟩
  rintro u v ⟨hr, hw, rfl⟩
  exact wrote_word hr (windowCheck_inside hw hd (by decide : 0 < 1))

/-- A conditional move (R128). -/
theorem condMove_wrote {i : Instr} {d a b : Reg} {c : Word → Bool} {s : State} {g : Group} (h : issuable i s g = true)
    (hd : (d.toNat, 1) ∈ namedFields i) :
    OnlyMembers s (condMove i d a b c s) g ∧ EachMember s (condMove i d a b c s) g (fun u v =>
      Wrote i (g.pc + i.bytes) d.toNat (if c (u.readW b.toNat) then [u.readW a.toNat] else []) u v) := by
  obtain ⟨h1, h2⟩ := onThread_only (chk := noCheck)
    (f := fun t => if c (t.readW (rn b)) then t.writeW (rn d) (t.readW (rn a)) else t) h (fun _ => by split <;> rfl)
    (fun _ _ _ _ => rfl)
  refine ⟨h1, h2.imp ?_⟩
  rintro u v ⟨hr, hw, rfl⟩
  by_cases hc : c (u.readW b.toNat) = true
  · have : c (Thread.readW { u with pc := g.pc + i.bytes, holdPc := none } (rn b)) = true := hc
    simp only [this, hc, if_true]
    exact wrote_word hr (windowCheck_inside hw hd (by decide : 0 < 1))
  · have : ¬ c (Thread.readW { u with pc := g.pc + i.bytes, holdPc := none } (rn b)) = true := hc
    simp only [this, hc, if_false, Bool.false_eq_true]
    exact wrote_nothing hr

/-- An operation on pairs (R127), where the destination's two fields stand on one side of the window. -/
theorem opPair_wrote {i : Instr} {d a : Reg} {f : Thread → Nat → Nat} {s : State} {g : Group} (h : issuable i s g = true)
    (hd : (d.toNat, 2) ∈ namedFields i) (he : d.toNat % 2 = 0) (hf : ∀ u pc x, f { u with pc := pc, holdPc := none } x = f u x) :
    OnlyMembers s (opPair i d a f s) g ∧ EachMember s (opPair i d a f s) g (fun u v =>
      Wrote i (g.pc + i.bytes) d.toNat (pairWords (f u (u.readPair a.toNat) % 2 ^ 64)) u v) := by
  obtain ⟨h1, h2⟩ := onThread_only (chk := noCheck) (f := fun t => t.writePair (rn d) (f t (t.readPair (rn a)) % 2 ^ 64)) h (fun _ => rfl)
    (fun _ _ _ _ => rfl)
  refine ⟨h1, h2.imp ?_⟩
  rintro u v ⟨hr, hw, rfl⟩
  have h3 : u.phys (d.toNat + 1) ≠ u.phys d.toNat := by
    unfold Thread.phys
    split <;> split <;> omega
  have := wrote_pair (i := i) (pc := g.pc + i.bytes) (r := f u (u.readPair a.toNat) % 2 ^ 64) hr
    (windowCheck_inside hw hd (by decide : 0 < 2)) (windowCheck_inside hw hd (by decide : 1 < 2)) h3
  rw [hf]
  exact this

/-- A variable-latency instruction whose word depends on the member's thread alone (R59, R60). -/
theorem variableOp_owes {i : Instr} {d : Reg} {f : Thread → Word} {s : State} {g : Group} (h : issuable i s g = true)
    (hf : ∀ u pc, f { u with pc := pc, holdPc := none } = f u) :
    OnlyMembers s (variableOp i d (fun _ _ t => f t) s) g ∧ EachMember s (variableOp i d (fun _ _ t => f t) s) g (fun u v =>
      Owes i (g.pc + i.bytes) d.toNat [f u] u v) := by
  have hv : variableOp i d (fun _ _ t => f t) s = issue i noCheck (fun s g tid =>
      match s.threadOf g.ctx g.wg tid with
      | none => s
      | some t => s.modThread g.ctx g.wg tid (fun u => u.addResult (u.dests d.toNat 1) (some [some (f t)]))) s := rfl
  rw [hv, issue_performs h (fun _ _ _ _ => rfl)]
  have key := performAll_of (i := i) (g := g) (P := fun _ => True)
    (eff := fun s g tid =>
      match s.threadOf g.ctx g.wg tid with
      | none => s
      | some t => s.modThread g.ctx g.wg tid (fun u => u.addResult (u.dests d.toNat 1) (some [some (f t)])))
    (φ := fun _ u => u.addResult (u.dests d.toNat 1) (some [some (f u)])) g.tids (issuable_nodup h) { s with group := none } trivial
    (fun s k _ _ => by
      split
      · exact Kept.refl _ _ _ _
      · rename_i t _
        exact Kept.modThread s _ _ k (fun u => u.addResult (u.dests d.toNat 1) (some [some (f t)])) (fun _ => rfl) [k] (by simp))
    (fun _ _ _ _ => trivial)
    (fun s k _ _ => by
      split
      · rename_i hn; rw [hn]; rfl
      · rename_i t ht
        rw [State.threadOf_modThread_same s _ _ k (fun u => u.addResult (u.dests d.toNat 1) (some [some (f t)])) (fun _ => rfl), ht]
        rfl)
  obtain ⟨h1, h2⟩ := key
  refine ⟨⟨?_, fun c w k hk => h1.others c w k hk, h1.shells, h1.cores⟩, ?_⟩
  · rw [h1.rest]
  · intro k hk
    obtain ⟨u, hu, hr, _, _, hw⟩ := issuable_member h hk
    refine ⟨u, _, hu, ?_, owes_word (i := i) (r := f u) hr⟩
    rw [h2 k hk]
    have : State.threadOf { s with group := none } g.ctx g.wg k = some u := hu
    rw [this, Option.map_some, hf]

end Sys2Proof.Machine
end

