-- ==== Sys2Proof/Machine/TirkelRows.lean ====
section
/-! DEFINITION. Tirkel's statements (R53, R56, R388, R389): the operands of each mnemonic and where their fields lie. -/

namespace Sys2Proof.Tirkel

/-- The kinds of operand (Table 1 of R388). `pos` is the lowest bit of the field in the word. -/
inductive Slot where
  /-- a register, a pair or a quad: `words` of 1, 2 or 4 -/
  | reg (words pos : Nat)
  /-- the bare memory operand of formats A and N, whose field holds half the pair's number (R48) -/
  | pair6
  /-- a bare memory operand -/
  | address
  /-- a load's or store's memory operand with an immediate, a register offset (the indexed form, 16 indices on) or none -/
  | memory
  /-- the memory operand of an indexed form -/
  | indexed
  /-- a signed immediate of the format's width -/
  | simm (width : Nat)
  /-- an unsigned immediate from `lo` to `hi` in steps -/
  | uimm (lo hi step : Nat)
  /-- a label or a signed word offset -/
  | target (width : Nat)
  /-- LOOPE's label or positive count back -/
  | back
  /-- MOVW's literal -/
  | literal
  /-- a special register, by its name; `priv` for MFSR and MTSR -/
  | special (priv : Bool)
  /-- a set of operations, or of paths -/
  | set (path : Bool) (pos : Nat)
  /-- a leaf barrier's number -/
  | barrier
  deriving DecidableEq, Repr

/-- What follows a mnemonic (R389): nothing; a scope and perhaps `.det` (formats A and N); a scope; a level up to `top`. -/
inductive Suffix where
  | none
  | atomic
  | reduction
  | fence
  | level (top : Nat)
  deriving DecidableEq, Repr

/-- A mnemonic, the group and index of its word (group × 64 + index; scope .core in format A), its suffixes and operands. -/
structure Row where
  name : String
  op : Nat
  suffix : Suffix
  slots : List Slot
  deriving DecidableEq, Repr

/-- MOV is ADDI with 0, and NOP is ADDI w8, w8, 0 (R56). -/
def aliases : List Row := [
  { name := "MOV", op := 64, suffix := .none, slots := [.reg 1 14, .reg 1 7] },
  { name := "NOP", op := 64, suffix := .none, slots := [] }]

/-- Statements of group 0x0 (R53). -/
def rows0 : List Row := [
  { name := "ADD", op := 0, suffix := .none, slots := [.reg 1 14, .reg 1 7, .reg 1 0] },
  { name := "SUB", op := 1, suffix := .none, slots := [.reg 1 14, .reg 1 7, .reg 1 0] },
  { name := "MUL", op := 2, suffix := .none, slots := [.reg 1 14, .reg 1 7, .reg 1 0] },
  { name := "MULH", op := 3, suffix := .none, slots := [.reg 1 14, .reg 1 7, .reg 1 0] },
  { name := "MULHU", op := 4, suffix := .none, slots := [.reg 1 14, .reg 1 7, .reg 1 0] },
  { name := "MAD", op := 5, suffix := .none, slots := [.reg 1 14, .reg 1 7, .reg 1 0] },
  { name := "DIVU", op := 6, suffix := .none, slots := [.reg 1 14, .reg 1 7, .reg 1 0] },
  { name := "REMU", op := 7, suffix := .none, slots := [.reg 1 14, .reg 1 7, .reg 1 0] },
  { name := "AND", op := 8, suffix := .none, slots := [.reg 1 14, .reg 1 7, .reg 1 0] },
  { name := "OR", op := 9, suffix := .none, slots := [.reg 1 14, .reg 1 7, .reg 1 0] },
  { name := "XOR", op := 10, suffix := .none, slots := [.reg 1 14, .reg 1 7, .reg 1 0] },
  { name := "ANDN", op := 11, suffix := .none, slots := [.reg 1 14, .reg 1 7, .reg 1 0] },
  { name := "SHL", op := 12, suffix := .none, slots := [.reg 1 14, .reg 1 7, .reg 1 0] },
  { name := "SHR", op := 13, suffix := .none, slots := [.reg 1 14, .reg 1 7, .reg 1 0] },
  { name := "SRA", op := 14, suffix := .none, slots := [.reg 1 14, .reg 1 7, .reg 1 0] },
  { name := "ROT", op := 15, suffix := .none, slots := [.reg 1 14, .reg 1 7, .reg 1 0] },
  { name := "MIN", op := 16, suffix := .none, slots := [.reg 1 14, .reg 1 7, .reg 1 0] },
  { name := "MAX", op := 17, suffix := .none, slots := [.reg 1 14, .reg 1 7, .reg 1 0] },
  { name := "MINU", op := 18, suffix := .none, slots := [.reg 1 14, .reg 1 7, .reg 1 0] },
  { name := "MAXU", op := 19, suffix := .none, slots := [.reg 1 14, .reg 1 7, .reg 1 0] },
  { name := "SEQ", op := 20, suffix := .none, slots := [.reg 1 14, .reg 1 7, .reg 1 0] },
  { name := "SNE", op := 21, suffix := .none, slots := [.reg 1 14, .reg 1 7, .reg 1 0] },
  { name := "SLT", op := 22, suffix := .none, slots := [.reg 1 14, .reg 1 7, .reg 1 0] },
  { name := "SLTU", op := 23, suffix := .none, slots := [.reg 1 14, .reg 1 7, .reg 1 0] }]

/-- Statements of group 0x0, continued (R53). -/
def rows0b : List Row := [
  { name := "SLE", op := 24, suffix := .none, slots := [.reg 1 14, .reg 1 7, .reg 1 0] },
  { name := "SLEU", op := 25, suffix := .none, slots := [.reg 1 14, .reg 1 7, .reg 1 0] },
  { name := "CMOVZ", op := 26, suffix := .none, slots := [.reg 1 14, .reg 1 7, .reg 1 0] },
  { name := "CMOVN", op := 27, suffix := .none, slots := [.reg 1 14, .reg 1 7, .reg 1 0] },
  { name := "ADD64", op := 28, suffix := .none, slots := [.reg 2 14, .reg 2 7, .reg 2 0] },
  { name := "SUB64", op := 29, suffix := .none, slots := [.reg 2 14, .reg 2 7, .reg 2 0] },
  { name := "MUL64", op := 30, suffix := .none, slots := [.reg 2 14, .reg 2 7, .reg 2 0] },
  { name := "ADDX", op := 31, suffix := .none, slots := [.reg 2 14, .reg 2 7, .reg 1 0] },
  { name := "ADDX4", op := 32, suffix := .none, slots := [.reg 2 14, .reg 2 7, .reg 1 0] },
  { name := "BFX", op := 33, suffix := .none, slots := [.reg 1 14, .reg 1 7, .reg 1 0] },
  { name := "BFXS", op := 34, suffix := .none, slots := [.reg 1 14, .reg 1 7, .reg 1 0] },
  { name := "BFI", op := 35, suffix := .none, slots := [.reg 1 14, .reg 1 7, .reg 1 0] }]

/-- Statements of group 0x1 (R53). -/
def rows1 : List Row := [
  { name := "ADDI", op := 64, suffix := .none, slots := [.reg 1 14, .reg 1 7, .simm 7] },
  { name := "ANDI", op := 65, suffix := .none, slots := [.reg 1 14, .reg 1 7, .uimm 0 127 1] },
  { name := "ORI", op := 66, suffix := .none, slots := [.reg 1 14, .reg 1 7, .uimm 0 127 1] },
  { name := "XORI", op := 67, suffix := .none, slots := [.reg 1 14, .reg 1 7, .uimm 0 127 1] },
  { name := "SHLI", op := 68, suffix := .none, slots := [.reg 1 14, .reg 1 7, .uimm 0 31 1] },
  { name := "SHRI", op := 69, suffix := .none, slots := [.reg 1 14, .reg 1 7, .uimm 0 31 1] },
  { name := "SRAI", op := 70, suffix := .none, slots := [.reg 1 14, .reg 1 7, .uimm 0 31 1] },
  { name := "SLTI", op := 71, suffix := .none, slots := [.reg 1 14, .reg 1 7, .simm 7] },
  { name := "SLTUI", op := 72, suffix := .none, slots := [.reg 1 14, .reg 1 7, .simm 7] },
  { name := "SEQI", op := 73, suffix := .none, slots := [.reg 1 14, .reg 1 7, .simm 7] },
  { name := "MULI", op := 74, suffix := .none, slots := [.reg 1 14, .reg 1 7, .simm 7] },
  { name := "ADD64I", op := 75, suffix := .none, slots := [.reg 2 14, .reg 2 7, .simm 7] },
  { name := "CLZ", op := 80, suffix := .none, slots := [.reg 1 14, .reg 1 7] },
  { name := "POPC", op := 81, suffix := .none, slots := [.reg 1 14, .reg 1 7] },
  { name := "BREV", op := 82, suffix := .none, slots := [.reg 1 14, .reg 1 7] },
  { name := "ABS", op := 83, suffix := .none, slots := [.reg 1 14, .reg 1 7] },
  { name := "SEXB", op := 84, suffix := .none, slots := [.reg 1 14, .reg 1 7] },
  { name := "SEXH", op := 85, suffix := .none, slots := [.reg 1 14, .reg 1 7] },
  { name := "MOVI", op := 96, suffix := .none, slots := [.reg 1 14, .simm 14] },
  { name := "MOVW", op := 97, suffix := .none, slots := [.reg 1 14, .literal] }]

/-- Statements of group 0x2 (R53). -/
def rows2 : List Row := [
  { name := "FADD", op := 128, suffix := .none, slots := [.reg 1 14, .reg 1 7, .reg 1 0] },
  { name := "FSUB", op := 129, suffix := .none, slots := [.reg 1 14, .reg 1 7, .reg 1 0] },
  { name := "FMUL", op := 130, suffix := .none, slots := [.reg 1 14, .reg 1 7, .reg 1 0] },
  { name := "FFMA", op := 131, suffix := .none, slots := [.reg 1 14, .reg 1 7, .reg 1 0] },
  { name := "FMIN", op := 132, suffix := .none, slots := [.reg 1 14, .reg 1 7, .reg 1 0] },
  { name := "FMAX", op := 133, suffix := .none, slots := [.reg 1 14, .reg 1 7, .reg 1 0] },
  { name := "FDIV", op := 134, suffix := .none, slots := [.reg 1 14, .reg 1 7, .reg 1 0] },
  { name := "FSEQ", op := 135, suffix := .none, slots := [.reg 1 14, .reg 1 7, .reg 1 0] },
  { name := "FSLT", op := 136, suffix := .none, slots := [.reg 1 14, .reg 1 7, .reg 1 0] },
  { name := "FSLE", op := 137, suffix := .none, slots := [.reg 1 14, .reg 1 7, .reg 1 0] },
  { name := "FSUN", op := 138, suffix := .none, slots := [.reg 1 14, .reg 1 7, .reg 1 0] },
  { name := "FCPYS", op := 139, suffix := .none, slots := [.reg 1 14, .reg 1 7, .reg 1 0] },
  { name := "FSQRT", op := 144, suffix := .none, slots := [.reg 1 14, .reg 1 7] },
  { name := "FRCP", op := 145, suffix := .none, slots := [.reg 1 14, .reg 1 7] },
  { name := "FRSQ", op := 146, suffix := .none, slots := [.reg 1 14, .reg 1 7] },
  { name := "FEXP2", op := 147, suffix := .none, slots := [.reg 1 14, .reg 1 7] },
  { name := "FLOG2", op := 148, suffix := .none, slots := [.reg 1 14, .reg 1 7] },
  { name := "FABS", op := 149, suffix := .none, slots := [.reg 1 14, .reg 1 7] },
  { name := "FNEG", op := 150, suffix := .none, slots := [.reg 1 14, .reg 1 7] }]

/-- Statements of group 0x3 (R53). -/
def rows3 : List Row := [
  { name := "HADD2", op := 192, suffix := .none, slots := [.reg 1 14, .reg 1 7, .reg 1 0] },
  { name := "HMUL2", op := 193, suffix := .none, slots := [.reg 1 14, .reg 1 7, .reg 1 0] },
  { name := "HFMA2", op := 194, suffix := .none, slots := [.reg 1 14, .reg 1 7, .reg 1 0] },
  { name := "HMAX2", op := 195, suffix := .none, slots := [.reg 1 14, .reg 1 7, .reg 1 0] },
  { name := "EADD2", op := 196, suffix := .none, slots := [.reg 1 14, .reg 1 7, .reg 1 0] },
  { name := "EMUL2", op := 197, suffix := .none, slots := [.reg 1 14, .reg 1 7, .reg 1 0] },
  { name := "EFMA2", op := 198, suffix := .none, slots := [.reg 1 14, .reg 1 7, .reg 1 0] },
  { name := "EMAX2", op := 199, suffix := .none, slots := [.reg 1 14, .reg 1 7, .reg 1 0] },
  { name := "CVT.F32.SW", op := 208, suffix := .none, slots := [.reg 1 14, .reg 1 7] },
  { name := "CVT.F32.UW", op := 209, suffix := .none, slots := [.reg 1 14, .reg 1 7] },
  { name := "CVT.SW.F32", op := 210, suffix := .none, slots := [.reg 1 14, .reg 1 7] },
  { name := "CVT.SW.F32.RN", op := 211, suffix := .none, slots := [.reg 1 14, .reg 1 7] },
  { name := "CVT.UW.F32", op := 212, suffix := .none, slots := [.reg 1 14, .reg 1 7] },
  { name := "CVT.BF16.F32", op := 213, suffix := .none, slots := [.reg 1 14, .reg 1 7, .reg 1 0] },
  { name := "CVT.BF16.F32.SR", op := 214, suffix := .none, slots := [.reg 1 14, .reg 1 7, .reg 1 0] },
  { name := "CVT.FP16.F32", op := 215, suffix := .none, slots := [.reg 1 14, .reg 1 7, .reg 1 0] },
  { name := "CVT.F32.BF16", op := 216, suffix := .none, slots := [.reg 1 14, .reg 1 7] },
  { name := "CVT.F32.FP16", op := 217, suffix := .none, slots := [.reg 1 14, .reg 1 7] },
  { name := "CVT.LC8.F32", op := 218, suffix := .none, slots := [.reg 1 14, .reg 1 7] },
  { name := "CVT.F32.LC8", op := 219, suffix := .none, slots := [.reg 1 14, .reg 1 7] },
  { name := "CVT.I8.F32", op := 220, suffix := .none, slots := [.reg 1 14, .reg 1 7] }]

/-- Statements of group 0x4 (R53). -/
def rows4 : List Row := [
  { name := "BR", op := 256, suffix := .none, slots := [.target 21] },
  { name := "CALL", op := 257, suffix := .none, slots := [.target 21] },
  { name := "BEZ", op := 258, suffix := .none, slots := [.reg 1 14, .target 14] },
  { name := "BNZ", op := 259, suffix := .none, slots := [.reg 1 14, .target 14] },
  { name := "CALLR", op := 260, suffix := .none, slots := [.reg 1 7] },
  { name := "JR", op := 261, suffix := .none, slots := [.reg 1 7] },
  { name := "RET", op := 262, suffix := .none, slots := [] },
  { name := "LOOPH", op := 263, suffix := .none, slots := [.reg 1 14, .uimm 1 16383 1] },
  { name := "LOOPE", op := 264, suffix := .none, slots := [.reg 1 14, .back] },
  { name := "WBASE", op := 265, suffix := .none, slots := [.uimm 0 1016 8] },
  { name := "WBADJ", op := 266, suffix := .none, slots := [.simm 14] },
  { name := "EXIT", op := 267, suffix := .none, slots := [] },
  { name := "TRAP", op := 268, suffix := .none, slots := [.uimm 0 2097151 1] },
  { name := "BRK", op := 269, suffix := .none, slots := [.uimm 0 2097151 1] }]

/-- Statements of group 0x5 (R53). -/
def rows5 : List Row := [
  { name := "SHFL", op := 320, suffix := .none, slots := [.reg 1 14, .reg 1 7, .reg 1 0] },
  { name := "SHFLX", op := 321, suffix := .none, slots := [.reg 1 14, .reg 1 7, .reg 1 0] },
  { name := "SHFLU", op := 322, suffix := .none, slots := [.reg 1 14, .reg 1 7, .reg 1 0] },
  { name := "SHFLD", op := 323, suffix := .none, slots := [.reg 1 14, .reg 1 7, .reg 1 0] },
  { name := "VANY", op := 324, suffix := .none, slots := [.reg 1 14, .reg 1 7] },
  { name := "VALL", op := 325, suffix := .none, slots := [.reg 1 14, .reg 1 7] },
  { name := "VBAL", op := 326, suffix := .none, slots := [.reg 1 14, .reg 1 7] },
  { name := "MATCH", op := 327, suffix := .none, slots := [.reg 1 14, .reg 1 7] },
  { name := "GSUM", op := 328, suffix := .none, slots := [.reg 1 14, .reg 1 7] },
  { name := "LANES", op := 329, suffix := .none, slots := [.reg 1 14] },
  { name := "CLKI", op := 330, suffix := .none, slots := [.reg 4 14] },
  { name := "MFS", op := 336, suffix := .none, slots := [.reg 1 14, .special false] },
  { name := "MTS", op := 337, suffix := .none, slots := [.reg 1 14, .special false] }]

/-- Statements of group 0x6 (R53). -/
def rows6 : List Row := [
  { name := "LDB", op := 384, suffix := .none, slots := [.reg 1 14, .memory] },
  { name := "LDBS", op := 385, suffix := .none, slots := [.reg 1 14, .memory] },
  { name := "LDH", op := 386, suffix := .none, slots := [.reg 1 14, .memory] },
  { name := "LDHS", op := 387, suffix := .none, slots := [.reg 1 14, .memory] },
  { name := "LDW", op := 388, suffix := .none, slots := [.reg 1 14, .memory] },
  { name := "LDD", op := 389, suffix := .none, slots := [.reg 2 14, .memory] },
  { name := "LDQ", op := 390, suffix := .none, slots := [.reg 4 14, .memory] },
  { name := "STB", op := 391, suffix := .none, slots := [.reg 1 14, .memory] },
  { name := "STH", op := 392, suffix := .none, slots := [.reg 1 14, .memory] },
  { name := "STW", op := 393, suffix := .none, slots := [.reg 1 14, .memory] },
  { name := "STD", op := 394, suffix := .none, slots := [.reg 2 14, .memory] },
  { name := "STQ", op := 395, suffix := .none, slots := [.reg 4 14, .memory] },
  { name := "LDC", op := 396, suffix := .none, slots := [.reg 1 14, .memory] },
  { name := "LDCD", op := 397, suffix := .none, slots := [.reg 2 14, .memory] },
  { name := "LDBX", op := 400, suffix := .none, slots := [.reg 1 14, .indexed] },
  { name := "LDBSX", op := 401, suffix := .none, slots := [.reg 1 14, .indexed] },
  { name := "LDHX", op := 402, suffix := .none, slots := [.reg 1 14, .indexed] },
  { name := "LDHSX", op := 403, suffix := .none, slots := [.reg 1 14, .indexed] },
  { name := "LDWX", op := 404, suffix := .none, slots := [.reg 1 14, .indexed] },
  { name := "LDDX", op := 405, suffix := .none, slots := [.reg 2 14, .indexed] },
  { name := "LDQX", op := 406, suffix := .none, slots := [.reg 4 14, .indexed] },
  { name := "STBX", op := 407, suffix := .none, slots := [.reg 1 14, .indexed] },
  { name := "STHX", op := 408, suffix := .none, slots := [.reg 1 14, .indexed] },
  { name := "STWX", op := 409, suffix := .none, slots := [.reg 1 14, .indexed] }]

/-- Statements of group 0x6, continued (R53). -/
def rows6b : List Row := [
  { name := "STDX", op := 410, suffix := .none, slots := [.reg 2 14, .indexed] },
  { name := "STQX", op := 411, suffix := .none, slots := [.reg 4 14, .indexed] },
  { name := "LDCX", op := 412, suffix := .none, slots := [.reg 1 14, .indexed] },
  { name := "LDCDX", op := 413, suffix := .none, slots := [.reg 2 14, .indexed] }]

/-- Statements of group 0x7 (R53). -/
def rows7 : List Row := [
  { name := "FENCE", op := 448, suffix := .fence, slots := [.set false 14, .set false 7] },
  { name := "PFENCE", op := 449, suffix := .none, slots := [.set true 14, .set true 7] },
  { name := "SLACQ", op := 450, suffix := .none, slots := [.reg 1 14, .address, .reg 1 0] },
  { name := "SLREL", op := 451, suffix := .none, slots := [.address] },
  { name := "BARA", op := 452, suffix := .level 5, slots := [.barrier, .reg 1 7] },
  { name := "BARW", op := 453, suffix := .level 5, slots := [.barrier] },
  { name := "BAR", op := 454, suffix := .level 5, slots := [.barrier, .reg 1 7] },
  { name := "BARX", op := 455, suffix := .level 2, slots := [.barrier, .reg 2 7] },
  { name := "MON", op := 456, suffix := .none, slots := [.reg 1 14, .address] },
  { name := "MWAIT", op := 457, suffix := .none, slots := [.reg 1 14, .address] }]

/-- Statements of group 0x8 (R53). -/
def rows8 : List Row := [
  { name := "AMO.ADD", op := 512, suffix := .atomic, slots := [.reg 1 14, .pair6, .reg 1 0] },
  { name := "AMO.AND", op := 520, suffix := .atomic, slots := [.reg 1 14, .pair6, .reg 1 0] },
  { name := "AMO.OR", op := 528, suffix := .atomic, slots := [.reg 1 14, .pair6, .reg 1 0] },
  { name := "AMO.XOR", op := 536, suffix := .atomic, slots := [.reg 1 14, .pair6, .reg 1 0] },
  { name := "AMO.MIN", op := 544, suffix := .atomic, slots := [.reg 1 14, .pair6, .reg 1 0] },
  { name := "AMO.MAX", op := 552, suffix := .atomic, slots := [.reg 1 14, .pair6, .reg 1 0] },
  { name := "AMO.XCHG", op := 560, suffix := .atomic, slots := [.reg 1 14, .pair6, .reg 1 0] },
  { name := "AMO.FADD", op := 568, suffix := .atomic, slots := [.reg 1 14, .pair6, .reg 1 0] }]

/-- Statements of group 0x9 (R53). -/
def rows9 : List Row := [
  { name := "AMO.MINU", op := 576, suffix := .atomic, slots := [.reg 1 14, .pair6, .reg 1 0] },
  { name := "AMO.MAXU", op := 584, suffix := .atomic, slots := [.reg 1 14, .pair6, .reg 1 0] },
  { name := "AMO.ADD64", op := 592, suffix := .atomic, slots := [.reg 2 14, .pair6, .reg 2 0] },
  { name := "CAS.W", op := 600, suffix := .atomic, slots := [.reg 1 14, .pair6, .reg 1 0] },
  { name := "CAS.D", op := 608, suffix := .atomic, slots := [.reg 2 14, .pair6, .reg 2 0] },
  { name := "GTS", op := 616, suffix := .atomic, slots := [.reg 2 14, .pair6, .reg 2 0] },
  { name := "VCAS", op := 624, suffix := .atomic, slots := [.reg 2 14, .pair6, .reg 2 0] },
  { name := "TCAS", op := 632, suffix := .atomic, slots := [.reg 2 14, .pair6, .reg 2 0] }]

/-- Statements of group 0xA (R53). -/
def rowsA : List Row := [
  { name := "RED.ADD", op := 640, suffix := .reduction, slots := [.pair6, .reg 1 0] },
  { name := "RED.AND", op := 641, suffix := .reduction, slots := [.pair6, .reg 1 0] },
  { name := "RED.OR", op := 642, suffix := .reduction, slots := [.pair6, .reg 1 0] },
  { name := "RED.XOR", op := 643, suffix := .reduction, slots := [.pair6, .reg 1 0] },
  { name := "RED.MIN", op := 644, suffix := .reduction, slots := [.pair6, .reg 1 0] },
  { name := "RED.MAX", op := 645, suffix := .reduction, slots := [.pair6, .reg 1 0] },
  { name := "RED.MINU", op := 646, suffix := .reduction, slots := [.pair6, .reg 1 0] },
  { name := "RED.MAXU", op := 647, suffix := .reduction, slots := [.pair6, .reg 1 0] },
  { name := "RED.FADD", op := 648, suffix := .reduction, slots := [.pair6, .reg 1 0] },
  { name := "RED.HADD2", op := 649, suffix := .reduction, slots := [.pair6, .reg 1 0] },
  { name := "RED.FMIN", op := 650, suffix := .reduction, slots := [.pair6, .reg 1 0] },
  { name := "RED.FMAX", op := 651, suffix := .reduction, slots := [.pair6, .reg 1 0] },
  { name := "TXB", op := 656, suffix := .none, slots := [.target 14] },
  { name := "TXE", op := 657, suffix := .none, slots := [.reg 1 14] },
  { name := "TXA", op := 658, suffix := .none, slots := [.uimm 0 16383 1] },
  { name := "STST", op := 659, suffix := .none, slots := [.reg 2 14, .address, .reg 1 0] },
  { name := "STSTD", op := 660, suffix := .none, slots := [.reg 2 14, .address, .reg 2 0] },
  { name := "CWAIT", op := 661, suffix := .none, slots := [.reg 1 14, .reg 2 7] },
  { name := "LDAS", op := 662, suffix := .none, slots := [.reg 2 14, .address, .reg 2 0] },
  { name := "PDISC", op := 663, suffix := .none, slots := [.reg 1 14, .address, .reg 1 0] },
  { name := "PMOVE", op := 664, suffix := .none, slots := [.reg 1 14, .address, .reg 2 0] }]

/-- Statements of group 0xB (R53). -/
def rowsB : List Row := [
  { name := "LEASE", op := 704, suffix := .none, slots := [.reg 1 14, .reg 1 7, .reg 1 0] },
  { name := "LWAIT", op := 705, suffix := .none, slots := [.reg 1 14, .reg 1 7] },
  { name := "LREL", op := 706, suffix := .none, slots := [.reg 1 14, .reg 1 7] },
  { name := "LSTAT", op := 707, suffix := .none, slots := [.reg 1 14, .reg 1 7] },
  { name := "TCOPY", op := 708, suffix := .none, slots := [.reg 1 14, .address, .reg 1 0] },
  { name := "TCOPYM", op := 709, suffix := .none, slots := [.reg 1 14, .address, .reg 1 0] },
  { name := "GATH", op := 710, suffix := .none, slots := [.reg 1 14, .address, .reg 1 0] },
  { name := "SCAT", op := 711, suffix := .none, slots := [.reg 1 14, .address, .reg 1 0] },
  { name := "COLL", op := 712, suffix := .none, slots := [.reg 1 14, .address, .reg 1 0] },
  { name := "VDEC", op := 713, suffix := .none, slots := [.reg 1 14, .address, .reg 1 0] },
  { name := "QFENCE", op := 714, suffix := .none, slots := [.reg 1 14, .reg 2 7] },
  { name := "BSEAL", op := 715, suffix := .none, slots := [.reg 1 14] },
  { name := "BWAIT", op := 716, suffix := .none, slots := [.reg 1 14, .reg 1 7] },
  { name := "BSTAT", op := 717, suffix := .none, slots := [.reg 4 14, .reg 1 7] }]

/-- Statements of group 0xC (R53). -/
def rowsC : List Row := [
  { name := "MXMA", op := 768, suffix := .none, slots := [.reg 1 14, .reg 1 7, .reg 1 0] },
  { name := "ACCZ", op := 769, suffix := .none, slots := [.reg 1 14] },
  { name := "ACCOUT", op := 770, suffix := .none, slots := [.reg 1 14, .reg 1 7] },
  { name := "TALLOC", op := 771, suffix := .none, slots := [.reg 1 14] },
  { name := "TFREE", op := 772, suffix := .none, slots := [.reg 1 14, .reg 1 7] },
  { name := "TSTATE", op := 773, suffix := .none, slots := [.reg 1 14, .reg 1 7] },
  { name := "TSET", op := 774, suffix := .none, slots := [.reg 1 14, .reg 1 7] },
  { name := "TWAIT", op := 775, suffix := .none, slots := [.reg 1 14, .reg 1 7, .reg 1 0] },
  { name := "LDT", op := 776, suffix := .none, slots := [.reg 4 14, .reg 1 7, .reg 1 0] },
  { name := "STT", op := 777, suffix := .none, slots := [.reg 4 14, .reg 1 7, .reg 1 0] }]

/-- Statements of group 0xD (R53). -/
def rowsD : List Row := [
  { name := "RGIVE", op := 832, suffix := .none, slots := [.uimm 8 1008 8] },
  { name := "RCLAIM", op := 833, suffix := .none, slots := [.reg 1 14, .uimm 8 1008 8] },
  { name := "RPOOL", op := 834, suffix := .none, slots := [.reg 1 14] },
  { name := "SPAWN", op := 835, suffix := .none, slots := [.reg 1 14, .reg 1 7, .reg 1 0] },
  { name := "TOKW", op := 836, suffix := .none, slots := [.reg 1 14] },
  { name := "TOKP", op := 837, suffix := .none, slots := [.reg 1 14] },
  { name := "RNDB", op := 838, suffix := .none, slots := [.reg 1 14] }]

/-- Statements of group 0xE (R53). -/
def rowsE : List Row := [
  { name := "MFSR", op := 896, suffix := .none, slots := [.reg 1 14, .special true] },
  { name := "MTSR", op := 897, suffix := .none, slots := [.reg 1 14, .special true] },
  { name := "TLBI", op := 898, suffix := .none, slots := [.reg 1 14, .reg 2 7, .reg 1 0] },
  { name := "ERET", op := 899, suffix := .none, slots := [] },
  { name := "HALT", op := 900, suffix := .none, slots := [.reg 1 7] },
  { name := "CTXSAV", op := 901, suffix := .none, slots := [.reg 1 14, .reg 2 7] },
  { name := "CTXRES", op := 902, suffix := .none, slots := [.reg 1 14, .reg 2 7, .reg 1 0] },
  { name := "SYSC", op := 903, suffix := .none, slots := [.uimm 0 2097151 1] }]

/-- Every statement that is an instruction (R53, R56): the rows, and the aliases MOV and NOP. -/
def rows : List Row :=
  rows0 ++ rows0b ++ rows1 ++ rows2 ++ rows3 ++ rows4 ++ rows5 ++ rows6 ++
  rows6b ++ rows7 ++ rows8 ++ rows9 ++ rowsA ++ rowsB ++ rowsC ++ rowsD ++ rowsE ++ aliases

/-- The scope names in the order of their codes (R11). -/
def scopeNames : List String := ["core", "quad", "clu", "die", "pkg", "pod", "sys"]

/-- The operation names of format F and the path names of format P, from bit 0 (Table 2 of R50). -/
def setNames (path : Bool) : List String :=
  if path then ["ord", "con", "tile", "tc", "gx", "cl", "vd"] else ["ld", "st", "at", "tx", "eng", "sst", "spn"]

/-- The engine classes in the order of their codes (R193). -/
def classNames : List String := ["mx", "tc", "gx", "cl", "vd"]

/-- The user view's special registers and their indices (Table 7 of R65). -/
def userSpecials : List (String × Nat) := [("tid", 0), ("lane", 1), ("sub", 2), ("wg", 3), ("nwg", 4), ("core", 5), ("clu", 6),
  ("die", 7), ("rank", 8), ("nrank", 9), ("clkw", 0x10), ("tol", 0x11), ("txs", 0x18), ("tws", 0x19), ("acs", 0x20),
  ("energy", 0x28), ("energyh", 0x29), ("tok", 0x30)]

/-- The exception registers and their indices (Table 3 of R245). -/
def trapSpecials : List (String × Nat) := [("tvec", 0x2100), ("epc", 0x2101), ("ecause", 0x2102), ("eop", 0x2103),
  ("eoph", 0x2104), ("ctx", 0x2108)]

/-- The registers of a die and their places in its block (Table 3 of R245). -/
def dieSpecials : List (String × Nat) := [("pid", 0), ("pilv", 1), ("pbnd", 2), ("pqc", 3), ("pqbusy", 4), ("edie", 5), ("ediehi", 6)]

/-- The directives (Table 2 of R392). -/
def directiveNames : List String := ["kernel", "wg", "role", "regs", "energy", "opclass", "det", "fuse", "tiles", "region", "polder",
  "stamped", "sluice", "wait", "bound", "recur", "spawn", "leases", "data", "word", "half", "byte", "align", "end"]

/-- The statements that must bear `!` (R391). -/
def markNames : List String := ["RGIVE", "TXE", "TXA", "HALT", "ERET"]

end Sys2Proof.Tirkel
end

