-- ==== Sys2Proof/Machine/Tirkel.lean ====
section
/-! DEFINITION. The assembler of Tirkel (R69, R299, R305, R308, R385 to R394): source characters to a kernel image and
diagnostics. It reads the source twice: the first pass places statements and labels, the second encodes them. -/

namespace Sys2Proof.Tirkel

open Sys2Proof.Machine

/-! Diagnostics (R394). -/

/-- What a diagnostic says. -/
inductive Complaint where
  /-- a line of more than 1 024 characters, one that no line feed ends, or a character that no statement or no ASCII text holds
  (R385) -/
  | longLine | lineEnd | character
  /-- a number that is none (R386), one outside `lo` to `hi`, or one that is no multiple of `step` (R388) -/
  | number | range (lo hi : Int) | multiple (step : Nat)
  /-- a name that is none, one that is taken for something else, one defined twice, one not defined (R387) -/
  | name | reserved | duplicate | undefined
  /-- an unknown mnemonic or directive; a suffix missing, wrong or repeated (R389) -/
  | mnemonic | directive | suffixMissing | suffixWrong
  /-- operands of another number or form than the statement's (R388) -/
  | operands | register | oddPair | quad | special | die | set
  /-- an offset that does not fit its field (R390) -/
  | offset
  /-- a word that R45 to R56 call none (R394) -/
  | encoding
  /-- `!` missing, or on a directive (R391) -/
  | markMissing | markOnDirective
  /-- a directive's argument outside its limits, a directive given twice, out of its place, or missing (R392, R393) -/
  | argument | twice | place | missing (directive : String)
  /-- role counts that do not sum to `.wg` (R392) -/
  | roleSum
  /-- a label that names no statement of its directive's kind (R392) -/
  | wrongStatement
  /-- a region that is not global or stamped, or is bound already (R392) -/
  | sluiceRegion
  /-- warnings: a backward branch, a wait without a limit, a fixed write over a pending one, a read of a pending one -/
  | backward | noWait | loadWins | readsPending
  deriving DecidableEq, Repr

/-- Whether a complaint is a warning, which never changes the image (R394). -/
def Complaint.isWarning : Complaint → Bool
  | .backward | .noWait | .loadWins | .readsPending => true
  | _ => false

/-- A diagnostic names the file, the line and the column of its cause (R394); both count from 1. -/
structure Diagnostic where
  file : String
  line : Nat
  col : Nat
  complaint : Complaint
  deriving DecidableEq, Repr

/-- The answer of a part of the assembler: what it reads, or a column and a complaint. -/
abbrev Parse (α : Type) := Except (Nat × Complaint) α

/-! Characters and tokens (R385, R386). -/

/-- A piece of a line: a word or number, or one of the marks. -/
structure Token where
  col : Nat
  text : List Char
  deriving DecidableEq, Repr

def isLetter (c : Char) : Bool := (decide ('a' ≤ c) && decide (c ≤ 'z')) || (decide ('A' ≤ c) && decide (c ≤ 'Z'))
def isDigit (c : Char) : Bool := decide ('0' ≤ c) && decide (c ≤ '9')
/-- The characters that go on a word: mnemonics are joined by dots (R388). -/
def wordChar (c : Char) : Bool := isLetter c || isDigit c || c == '_' || c == '.'
def lower (l : List Char) : List Char := l.map Char.toLower
def upper (l : List Char) : List Char := l.map Char.toUpper

/-- A token's text without regard to case (R385). -/
def Token.is (t : Token) (s : String) : Bool := lower t.text == s.toList

/-- The word that is being read, as a token. -/
def flush (cur : Option Token) : List Token := match cur with
  | some t => [{ t with text := t.text.reverse }]
  | none => []

/-- The first of some characters that is none of ASCII, by its place from 0 on (R385). -/
def notAscii (cs : List Char) : Option Nat := cs.findIdx? (fun c => decide (128 ≤ c.toNat))

/-- The tokens of a line, up to its comment, which is ASCII text too (R385). A `-` and a `%` begin a word. -/
def tokens : Nat → Option Token → List Char → Parse (List Token)
  | _, cur, [] => .ok (flush cur)
  | col, cur, c :: cs =>
    if c == ';' then (match notAscii cs with
      | some k => .error (col + 1 + k, .character)
      | none => .ok (flush cur))
    else if wordChar c then
      match cur with
      | some t => tokens (col + 1) (some { t with text := c :: t.text }) cs
      | none => tokens (col + 1) (some { col := col, text := [c] }) cs
    else if c == '-' || c == '%' then (tokens (col + 1) (some { col := col, text := [c] }) cs).map (flush cur ++ ·)
    else if c == ' ' || c == '\t' then (tokens (col + 1) none cs).map (flush cur ++ ·)
    else if [',', ':', '[', ']', '+', '!'].contains c then
      (tokens (col + 1) none cs).map (fun ts => flush cur ++ { col := col, text := [c] } :: ts)
    else .error (col, .character)

/-- The lines of a source: each ends with a line feed, and a carriage return before it is no part of the line (R385). -/
def linesFrom : List Char → List Char → List (List Char)
  | acc, [] => if acc.isEmpty then [] else [acc.reverse]
  | acc, c :: cs =>
    if c == '\n' then (match acc with | '\r' :: a => a.reverse | a => a.reverse) :: linesFrom [] cs else linesFrom (c :: acc) cs

/-- A digit's value in base 16. -/
def hexDigit (c : Char) : Option Nat :=
  if isDigit c then some (c.toNat - '0'.toNat)
  else if decide ('a' ≤ c.toLower) && decide (c.toLower ≤ 'f') then some (c.toLower.toNat - 'a'.toNat + 10) else none

/-- Hex digits, with an underscore only between two of them (R386); `prev` says whether a digit came before. -/
def hexFrom : Nat → Bool → List Char → Option Nat
  | n, prev, [] => if prev then some n else none
  | n, prev, c :: cs =>
    if c == '_' then (if prev then hexFrom n false cs else none)
    else match hexDigit c with
      | some d => hexFrom (16 * n + d) true cs
      | none => none

/-- Decimal digits (R386). -/
def decFrom : Nat → List Char → Option Nat
  | n, [] => some n
  | n, c :: cs => if isDigit c then decFrom (10 * n + (c.toNat - '0'.toNat)) cs else none

/-- An unsigned number (R386). -/
def natOf : List Char → Option Nat
  | [] => none
  | '0' :: 'x' :: cs => hexFrom 0 false cs
  | cs => decFrom 0 cs

/-- A number, with a minus sign or without (R386). -/
def intOf : List Char → Option Int
  | '-' :: cs => (natOf cs).map (fun n => -(n : Int))
  | cs => (natOf cs).map (fun n => (n : Int))

/-- A token as a number from `lo` to `hi` (R386, R388). -/
def Token.num (t : Token) (lo hi : Int) : Parse Int := match intOf t.text with
  | some n => if lo ≤ n ∧ n ≤ hi then .ok n else .error (t.col, .range lo hi)
  | none => .error (t.col, .number)

/-- The same for an unsigned number, which has no sign, that is a multiple of `step`. -/
def Token.nat (t : Token) (lo hi step : Nat) : Parse Nat := do
  let n ← t.num lo hi
  if t.text.head? = some '-' then .error (t.col, .range lo hi)
  else if n.toNat % step = 0 then .ok n.toNat else .error (t.col, .multiple step)

/-- An argument that is one token. -/
def oneToken (col : Nat) (bad : Complaint) : List Token → Parse Token
  | [t] => .ok t
  | t :: _ => .error (t.col, bad)
  | [] => .error (col, bad)

/-- The register a word names: w0 to w127 (R388). -/
def regOf : List Char → Option Nat
  | c :: d :: ds =>
    if c == 'w' || c == 'W' then
      (if d == '0' && !ds.isEmpty then none else
        match decFrom 0 (d :: ds) with
        | some n => if n < 128 then some n else none
        | none => none)
    else none
  | _ => none

/-! Names (R387). -/

/-- Whether characters are a name: a letter or an underscore, then letters, digits and underscores, at most 63. -/
def isName : List Char → Bool
  | [] => false
  | c :: cs => (isLetter c || c == '_') && cs.all (fun x => isLetter x || isDigit x || x == '_') && decide (cs.length < 63)

/-- The names that a label or a region may not take. -/
def isReserved (n : List Char) : Bool :=
  rows.any (fun r => r.name.toList == upper n) || directiveNames.any (fun d => d.toList == lower n) ||
  (regOf n).isSome || (setNames false ++ setNames true ++ classNames).any (fun d => d.toList == lower n)

/-- A token as a new name of a namespace. -/
def newName (taken : List (List Char)) (t : Token) : Parse (List Char) :=
  if !isName t.text then .error (t.col, .name)
  else if isReserved t.text then .error (t.col, .reserved)
  else if taken.contains t.text then .error (t.col, .duplicate) else .ok t.text

/-! Statements. -/

/-- Tokens cut at commas. -/
def splitCommas : List Token → List Token → List (List Token)
  | acc, [] => [acc.reverse]
  | acc, t :: ts => if t.text == [','] then acc.reverse :: splitCommas [] ts else splitCommas (t :: acc) ts

/-- The operands of a statement. -/
def operandsOf (ts : List Token) : List (List Token) := if ts.isEmpty then [] else splitCommas [] ts

/-- What follows a name in a text where the text goes on with a dot or ends (R389). -/
def afterName : List Char → List Char → Option (List Char)
  | [], [] => some []
  | [], '.' :: cs => some ('.' :: cs)
  | n :: ns, c :: cs => if n == c.toUpper then afterName ns cs else none
  | _, _ => none

/-- Characters cut at dots. -/
def splitDots : List Char → List Char → List (List Char)
  | acc, [] => [acc.reverse]
  | acc, c :: cs => if c == '.' then acc.reverse :: splitDots [] cs else splitDots (c :: acc) cs

/-- The row of the longest mnemonic that a text begins with, and its suffixes (R389). -/
def rowOf (text : List Char) : Option (Row × List (List Char)) :=
  rows.foldl (fun best r => match afterName r.name.toList text with
    | some rest => match best with
      | some b => if b.1.name.length < r.name.length then some (r, (splitDots [] rest).drop 1) else best
      | none => some (r, (splitDots [] rest).drop 1)
    | none => best) none

/-- The place of a name in a list, without regard to case. -/
def indexOf (names : List String) (n : List Char) : Option Nat :=
  let k := (names.takeWhile (fun s => s.toList != lower n)).length
  if k < names.length then some k else none

/-- The fields of a statement's suffixes: what they add to the index and to bits 20:0 (R51, R52, R389). -/
def suffixFields (col : Nat) (r : Row) (sufs : List (List Char)) : Parse (Nat × Nat) :=
  let scopeSuffix (top : Nat) (f : Nat → Bool → Nat × Nat) (det : Bool) : Parse (Nat × Nat) := match sufs with
    | [] => .error (col, .suffixMissing)
    | s :: more => match indexOf scopeNames s with
      | some k =>
        if k ≤ top ∧ more = [] then .ok (f k false)
        else if k ≤ top ∧ det ∧ more.map lower = ["det".toList] then .ok (f k true) else .error (col, .suffixWrong)
      | none => .error (col, .suffixWrong)
  match r.suffix with
  | .none => if sufs.isEmpty then .ok (0, 0) else .error (col, .suffixWrong)
  | .atomic => scopeSuffix 6 (fun k d => (k, if d then 2 ^ 7 else 0)) true
  | .reduction => scopeSuffix 6 (fun k d => (0, k * 2 ^ 18 + if d then 2 ^ 14 else 0)) true
  | .fence => scopeSuffix 6 (fun k _ => (0, k * 2 ^ 4)) false
  | .level top => scopeSuffix top (fun k _ => (0, k * 2 ^ 14)) false

/-- The pair of a memory operand, `[w10:11`, and what stands after it up to `]`. -/
def pairOf (col : Nat) : List Token → Parse (Nat × Option Token)
  | l :: w :: c :: n :: rest =>
    if l.text == ['['] && c.text == [':'] then
      match regOf w.text, natOf n.text with
      | some a, some b =>
        if a % 2 ≠ 0 then .error (w.col, .oddPair)
        else if b ≠ a + 1 then .error (n.col, .oddPair)
        else match rest with
          | [r] => if r.text == [']'] then .ok (a, none) else .error (r.col, .operands)
          | [p, x, r] => if p.text == ['+'] && r.text == [']'] then .ok (a, some x) else .error (p.col, .operands)
          | _ => .error (l.col, .operands)
      | none, _ => .error (w.col, .register)
      | _, none => .error (n.col, .number)
    else .error (l.col, .operands)
  | t :: _ => .error (t.col, .operands)
  | [] => .error (col, .operands)

/-- A register operand of 1, 2 or 4 words (R48, R388). -/
def registerOf (col words : Nat) : List Token → Parse Nat
  | [t] =>
    if words ≠ 1 then .error (t.col, .operands)
    else match regOf t.text with
      | some n => .ok n
      | none => .error (t.col, .register)
  | [t, c, n] =>
    if words = 1 ∨ c.text ≠ [':'] then .error (t.col, .operands)
    else match regOf t.text, natOf n.text with
      | some a, some b =>
        if a % words ≠ 0 ∨ b ≠ a + words - 1 then .error (t.col, if words = 2 then .oddPair else .quad) else .ok a
      | none, _ => .error (t.col, .register)
      | _, none => .error (n.col, .number)
  | t :: _ => .error (t.col, .operands)
  | [] => .error (col, .operands)

/-- The index of a special register (R65, R245, R369); MFSR and MTSR name the user registers by their mirrors (R64). -/
def specialOf (priv : Bool) (t : Token) : Parse Nat := match t.text with
  | '%' :: cs => match splitDots [] (lower cs) with
    | [n] => match userSpecials.find? (fun x => x.1.toList == n), trapSpecials.find? (fun x => x.1.toList == n) with
      | some x, _ => .ok (if priv then x.2 + 0x2000 else x.2)
      | none, some x => .ok x.2
      | none, none => .error (t.col, .special)
    | [n, k] => match dieSpecials.find? (fun x => x.1.toList == n), natOf k with
      | some x, some d => if d < 8 then .ok (0x2200 + 0x10 * d + x.2) else .error (t.col, .die)
      | _, _ => .error (t.col, .special)
    | _ => .error (t.col, .special)
  | _ => .error (t.col, .special)

/-- A set of operations or paths: names joined by `+`, without repeats (R50, R388). -/
def setOf (path : Bool) (col : Nat) : Nat → List Token → Parse Nat
  | _, [] => .error (col, .set)
  | acc, [t] => match indexOf (setNames path) t.text with
    | some k => if bitOf acc k then .error (t.col, .set) else .ok (acc + 2 ^ k)
    | none => .error (t.col, .set)
  | acc, t :: p :: ts => match indexOf (setNames path) t.text with
    | some k => if bitOf acc k || p.text != ['+'] then .error (t.col, .set) else setOf path col (acc + 2 ^ k) ts
    | none => .error (t.col, .set)

/-- The labels of a source and the offsets that they name. -/
abbrev Labels := List (List Char × Nat)

def Labels.at (ls : Labels) (n : List Char) : Option Nat := (ls.find? (fun x => x.1 == n)).map (fun x => x.2)

/-- A label's offset. -/
def labelOf (ls : Labels) (t : Token) : Parse Nat := match ls.at t.text with
  | some n => .ok n
  | none => .error (t.col, .undefined)

/-- A target's word offset: a number as it stands, or a label's distance from the statement, back for LOOPE (R390). -/
def targetOf (ls : Labels) (pc : Nat) (backward : Bool) (lo hi : Int) (t : Token) : Parse Int :=
  match intOf t.text with
  | some n => if lo ≤ n ∧ n ≤ hi then .ok n else .error (t.col, .offset)
  | none => do
    let at' ← labelOf ls t
    let n : Int := (if backward then (pc : Int) - at' else (at' : Int) - pc) / 4
    if lo ≤ n ∧ n ≤ hi then .ok n else .error (t.col, .offset)

/-- What operands give a word: bits 20:0, what they add to the index, and a literal. -/
structure Fields where
  bits : Nat
  index : Nat
  lit : Option Nat
  deriving DecidableEq, Repr

/-- A signed value in a field of `w` bits. -/
def signedField (w : Nat) (n : Int) : Nat := (n % (2 ^ w : Nat)).toNat

/-- One operand's fields (R47, R388). -/
def slotFields (ls : Labels) (pc col : Nat) (s : Slot) (ts : List Token) : Parse Fields :=
  let put (n : Nat) : Fields := { bits := n, index := 0, lit := none }
  match s with
  | .reg words pos => do
    let n ← registerOf col words ts
    pure (put (n * 2 ^ pos))
  | .pair6 => do
    match (← pairOf col ts) with
    | (a, none) => pure (put (a / 2 * 2 ^ 8))
    | (_, some x) => .error (x.col, .operands)
  | .address => do
    match (← pairOf col ts) with
    | (a, none) => pure (put (a * 2 ^ 7))
    | (_, some x) => .error (x.col, .operands)
  | .memory => do
    match (← pairOf col ts) with
    | (a, none) => pure (put (a * 2 ^ 7))
    | (a, some x) => match regOf x.text with
      | some b => pure { bits := a * 2 ^ 7 + b, index := 16, lit := none }
      | none => do
        let n ← x.num (-64) 63
        pure (put (a * 2 ^ 7 + signedField 7 n))
  | .indexed => do
    match (← pairOf col ts) with
    | (a, some x) => match regOf x.text with
      | some b => pure (put (a * 2 ^ 7 + b))
      | none => .error (x.col, .operands)
    | (_, none) => .error (col, .operands)
  | .simm w => do
    let t ← oneToken col .operands ts
    let n ← t.num (-(2 ^ (w - 1) : Nat)) ((2 ^ (w - 1) : Nat) - 1)
    pure (put (signedField w n))
  | .uimm lo hi step => do
    let t ← oneToken col .operands ts
    let n ← t.nat lo hi step
    pure (put n)
  | .target w => do
    let t ← oneToken col .operands ts
    let n ← targetOf ls pc false (-(2 ^ (w - 1) : Nat)) ((2 ^ (w - 1) : Nat) - 1) t
    pure (put (signedField w n))
  | .back => do
    let t ← oneToken col .operands ts
    let n ← targetOf ls pc true 1 16383 t
    pure (put n.toNat)
  | .literal => do
    let t ← oneToken col .operands ts
    let n ← t.num (-(2 ^ 31 : Nat)) 0xFFFFFFFF
    pure { bits := 0, index := 0, lit := some (signedField 32 n) }
  | .special priv => do
    let t ← oneToken col .operands ts
    let n ← specialOf priv t
    pure (put n)
  | .set path pos => do
    let n ← setOf path col 0 ts
    pure (put (n * 2 ^ pos))
  | .barrier => do
    let t ← oneToken col .operands ts
    let n ← t.nat 0 15 1
    pure (put (n * 2 ^ 17))

/-- All operands' fields; their number must be the statement's. -/
def allFields (ls : Labels) (pc col : Nat) : List Slot → List (List Token) → Parse Fields
  | [], [] => .ok { bits := 0, index := 0, lit := none }
  | s :: ss, o :: os => do
    let f ← slotFields ls pc col s o
    let g ← allFields ls pc col ss os
    pure { bits := f.bits + g.bits, index := f.index + g.index, lit := f.lit.or g.lit }
  | _, _ => .error (col, .operands)

/-- The fields that an alias fills itself: NOP's w8 twice (R56). -/
def aliasFields (r : Row) : Nat := if r.name = "NOP" then 8 * 2 ^ 14 + 8 * 2 ^ 7 else 0

/-- An instruction of the source in its place. -/
structure Placed where
  line : Nat
  col : Nat
  pc : Nat
  row : Row
  sufs : List (List Char)
  ops : List (List Token)
  mark : Bool
  deriving DecidableEq, Repr

/-- What the second pass makes of it: the words, and the instruction that they are. -/
structure Coded where
  line : Nat
  col : Nat
  pc : Nat
  word : Nat
  lit : Option Nat
  instr : Instr
  deriving DecidableEq, Repr

/-- The column of the operand whose value alone keeps a word from being an instruction, such as WBADJ's 4 or an odd b of SPAWN; of the
mnemonic, where there is none (R394). -/
def Placed.culprit (ls : Labels) (p : Placed) (word : Nat) (lit : Option Nat) : Nat :=
  ((p.row.slots.zip p.ops).findSome? (fun x => match slotFields ls p.pc p.col x.1 x.2, x.2.head? with
    | .ok f, some t => (match decodeWords (word - f.bits) lit with
        | .ok _ => some t.col
        | .error _ => none)
    | _, _ => none)).getD p.col

/-- The encoding of a statement (R69, R391, R394): S is 1 where `!` is written and where the instruction closes its run by
its kind. -/
def Placed.code (ls : Labels) (p : Placed) : Parse Coded := do
  let (idx, sbits) ← suffixFields p.col p.row p.sufs
  let f ← allFields ls p.pc p.col p.row.slots p.ops
  if !p.mark && markNames.contains p.row.name then .error (p.col, .markMissing)
  else
    let word := (p.row.op + idx + f.index) * 2 ^ 21 + sbits + f.bits + aliasFields p.row
    match decodeWords (2 ^ 31 + word) f.lit with
    | .error _ => .error (p.culprit ls (2 ^ 31 + word) f.lit, .encoding)
    | .ok i =>
      let w := if p.mark || closesByKind i then 2 ^ 31 + word else word
      match decodeWords w f.lit with
      | .error _ => .error (p.culprit ls w f.lit, .encoding)
      | .ok j => pure { line := p.line, col := p.col, pc := p.pc, word := w, lit := f.lit, instr := j }

/-! Directives (R392). -/

/-- A region of the image (R301). -/
structure RegionDecl where
  kind : Nat
  size : Nat
  shared : Bool := false
  readonly : Bool := false
  scope : Nat := 0
  capacity : Nat := 0
  page : Nat := 0
  policy : Nat := 0
  home : Nat := 0
  sluice : Nat := 0
  deriving DecidableEq, Repr

/-- Where in the source the assembler is (R393). -/
inductive Phase where
  | start | code | data | done
  deriving DecidableEq, Repr

/-- What the first pass knows. -/
structure Source where
  phase : Phase := .start
  pc : Nat := 0
  entry : Option Nat := none
  labels : Labels := []
  names : List (List Char × Option Nat) := []
  placed : List Placed := []
  headers : List (Nat × Nat) := []
  /-- the workgroup size, and where it stands -/
  wg : Option (Nat × Nat × Nat) := none
  energy : Option Nat := none
  opclass : Option Nat := none
  det : Bool := false
  fuse : Bool := false
  tiles : Option Nat := none
  roles : List (Nat × Option Nat) := []
  alone : Option Nat := none
  scratch : Option Nat := none
  backing : Option Nat := none
  regions : List RegionDecl := []
  sluices : List (Nat × Nat × Token) := []
  bounds : List (Nat × Token × Nat × Bool) := []
  spawns : List (Nat × Token × Token × Nat × Nat × Nat) := []
  leases : List (Nat × Nat × Nat) := []
  data : List Byte := []
  /-- where a `.recur` stands that no labelled statement has followed yet, and the `.end` -/
  recur : Option (Nat × Nat) := none
  ended : Option (Nat × Nat) := none
  complaints : List (Nat × Nat × Complaint) := []
  deriving DecidableEq, Repr

/-- A region's name, and the region itself where the image has an entry for it. -/
def Source.addName (s : Source) (n : List Char) (r : Option RegionDecl) : Source := match r with
  | some d => { s with names := s.names ++ [(n, some s.regions.length)], regions := s.regions ++ [d] }
  | none => { s with names := s.names ++ [(n, none)] }

/-- The last argument of a declaration that may say `shared`. -/
def sharedOf : List Token → Parse Bool
  | [] => .ok false
  | [t] => if t.is "shared" then .ok true else .error (t.col, .argument)
  | _ :: t :: _ => .error (t.col, .argument)

/-- A field that a directive may fill once. -/
def once {α : Type} (col : Nat) : Option α → Parse Unit
  | none => .ok ()
  | some _ => .error (col, .twice)

/-- The next role, or the registers of the last one (R24, R392). -/
def Source.addRegs (s : Source) (col w : Nat) : Parse Source :=
  match s.roles.reverse with
  | [] => do
    once col s.alone
    pure { s with alone := some w }
  | (n, none) :: before => .ok { s with roles := before.reverse ++ [(n, some w)] }
  | (_, some _) :: _ => .error (col, .place)

/-- Data of `n` bytes (R393): one value, signed or unsigned. -/
def Source.addData (s : Source) (n : Nat) (t : Token) : Parse Source := do
  let v ← t.num (-(2 ^ (8 * n - 1) : Nat)) ((2 ^ (8 * n) : Nat) - 1)
  pure { s with data := s.data ++ leBytes n (signedField (8 * n) v) }

/-- A declaration directive between `.kernel` and `.data` (Table 2 of R392); `col` is its own column, `line` its line. -/
def Source.declare (s : Source) (line col : Nat) (d : Token) (args : List Token) : Parse Source :=
  if d.is ".wg" then match args with
    | [n] => do
      once col s.wg
      pure { s with wg := some (← n.nat 1 512 1, line, n.col) }
    | _ => .error (col, .operands)
  else if d.is ".role" then match args with
    | [k, n] => do
      let i ← k.nat 0 3 1
      if i ≠ s.roles.length ∨ s.alone.isSome ∨ s.roles.any (fun r => r.2.isNone) then .error (k.col, .place)
      else
        let c ← n.nat 32 512 32
        pure { s with roles := s.roles ++ [(c, none)] }
    | _ => .error (col, .operands)
  else if d.is ".regs" then match args with
    | [w] => do s.addRegs col (← w.nat 16 1024 8)
    | _ => .error (col, .operands)
  else if d.is ".energy" then match args with
    | [e] => do
      once col s.energy
      pure { s with energy := some (← e.nat 0 7 1) }
    | _ => .error (col, .operands)
  else if d.is ".opclass" then match args with
    | [c] => do
      once col s.opclass
      pure { s with opclass := some (← c.nat 0 3 1) }
    | _ => .error (col, .operands)
  else if d.is ".det" then (if !args.isEmpty then .error (col, .operands) else if s.det then .error (col, .twice) else .ok { s with det := true })
  else if d.is ".fuse" then (if !args.isEmpty then .error (col, .operands) else if s.fuse then .error (col, .twice) else .ok { s with fuse := true })
  else if d.is ".tiles" then match args with
    | [n] => do
      once col s.tiles
      pure { s with tiles := some (← n.nat 1 1024 1) }
    | _ => .error (col, .operands)
  else if d.is ".region" then match args with
    | n :: k :: b :: more => do
      let nm ← newName (s.names.map (fun x => x.1)) n
      let sh ← sharedOf more
      if k.is "global" then
        pure (s.addName nm (some { kind := 1, size := ← b.nat 0 (2 ^ 64 - 1) 1, shared := sh }))
      else if sh then .error (k.col, .argument)
      else if k.is "scratch" then do
        once k.col s.scratch
        pure { s.addName nm none with scratch := some (← b.nat 0 262144 1) }
      else if k.is "private" then do
        once k.col s.backing
        pure { s.addName nm none with backing := some (← b.nat 0 65536 4) }
      else .error (k.col, .argument)
    | _ => .error (col, .operands)
  else if d.is ".polder" then match args with
    | n :: b :: home :: pol :: pg :: more => do
      let nm ← newName (s.names.map (fun x => x.1)) n
      let h ← home.nat 0 7 1
      if !(pol.is "fault" || pol.is "late") then .error (pol.col, .argument)
      else if !(pg.is "64k" || pg.is "2m") then .error (pg.col, .argument)
      else
        let size ← b.nat 0 (2 ^ 64 - 1) (if pg.is "2m" then 2 ^ 21 else 2 ^ 16)
        let (cap, ccol) ← match more with
          | [] => if size < 128 then .error (b.col, .range 128 (2 ^ 32 - 1)) else pure (size, b.col)
          | [c] => do
            let n ← c.nat 128 size 128
            pure (n, c.col)
          | _ :: c :: _ => .error (c.col, .operands)
        if cap < 2 ^ 32 then
          let r : RegionDecl := { kind := 2, size := size, capacity := cap, home := h, policy := if pol.is "late" then 1 else 0, page := if pg.is "2m" then 1 else 0 }
          pure (s.addName nm (some r))
        else .error (ccol, .range 0 (2 ^ 32 - 1))
    | _ => .error (col, .operands)
  else if d.is ".stamped" then match args with
    | n :: b :: more => do
      let nm ← newName (s.names.map (fun x => x.1)) n
      let sh ← sharedOf more
      pure (s.addName nm (some { kind := 3, size := ← b.nat 0 (2 ^ 64 - 1) 128, shared := sh }))
    | _ => .error (col, .operands)
  else if d.is ".sluice" then match args with
    | n :: sc :: r :: more => do
      let nm ← newName (s.names.map (fun x => x.1)) n
      match indexOf scopeNames sc.text with
      | some k =>
        if 1 ≤ k ∧ k ≤ 5 then
          let s' := s.addName nm (some { kind := 4, size := 64, scope := k })
          pure { s' with sluices := s.sluices ++ (r :: more).map (fun t => (line, s.regions.length, t)) }
        else .error (sc.col, .argument)
      | none => .error (sc.col, .argument)
    | _ => .error (col, .operands)
  else if d.is ".wait" then match args with
    | [l, n] => do pure { s with bounds := s.bounds ++ [(line, l, ← n.nat 0 0xFFFFFFFE 1, false)] }
    | _ => .error (col, .operands)
  else if d.is ".bound" then match args with
    | [l, n] => do pure { s with bounds := s.bounds ++ [(line, l, ← n.nat 1 255 1, true)] }
    | _ => .error (col, .operands)
  else if d.is ".recur" then match args with
    | [dep, fr] => do
      let depth ← dep.nat 1 8191 1
      let frame ← fr.nat 0 262128 16
      pure { s with headers := s.headers ++ [(s.pc, 0x78000000 + depth * 2 ^ 14 + frame / 16)], pc := s.pc + 4, recur := some (line, col) }
    | _ => .error (col, .operands)
  else if d.is ".spawn" then match args with
    | [a, b, mx, rg, en] => do
      let m ← mx.nat 1 65535 1
      let w ← rg.nat 16 1024 8
      pure { s with spawns := s.spawns ++ [(line, a, b, m, w, ← en.nat 0 7 1)] }
    | _ => .error (col, .operands)
  else if d.is ".leases" then match args with
    | c :: n :: more => match indexOf classNames c.text with
      | some k => do
        let cnt ← n.nat 1 4 1
        let dep ← match more with
          | [] => pure 32
          | [t] => t.nat 1 32 1
          | _ :: t :: _ => .error (t.col, .operands)
        pure { s with leases := s.leases ++ [(k, cnt, dep)] }
      | none => .error (c.col, .argument)
    | _ => .error (col, .operands)
  else .error (col, .directive)

/-- A directive in its place (R392, R393). -/
def Source.direct (s : Source) (line : Nat) (d : Token) (ops : List (List Token)) : Parse Source := do
  if !(directiveNames.any (fun n => '.' :: n.toList == lower d.text)) then .error (d.col, .directive)
  let args ← ops.mapM (oneToken d.col .operands)
  let inData := d.is ".word" || d.is ".half" || d.is ".byte" || d.is ".align"
  match s.phase with
  | .start =>
    if d.is ".kernel" then match args with
      | [n] => if isName n.text then pure { s with phase := .code } else .error (n.col, .name)
      | _ => .error (d.col, .operands)
    else .error (d.col, .place)
  | .done => .error (d.col, .place)
  | .code =>
    if d.is ".kernel" || inData then .error (d.col, .place)
    else if d.is ".end" then (if args.isEmpty then pure { s with phase := .done, ended := some (line, d.col) } else .error (d.col, .operands))
    else if d.is ".data" then match args with
      | [n] => do
        let nm ← newName (s.names.map (fun x => x.1)) n
        pure { s.addName nm none with phase := .data }
      | _ => .error (d.col, .operands)
    else s.declare line d.col d args
  | .data =>
    if d.is ".end" then (if args.isEmpty then pure { s with phase := .done, ended := some (line, d.col) } else .error (d.col, .operands))
    else match args with
      | [v] =>
        if d.is ".word" then s.addData 4 v
        else if d.is ".half" then s.addData 2 v
        else if d.is ".byte" then s.addData 1 v
        else if d.is ".align" then do
          let n ← v.nat 1 4096 1
          if 2 ^ n.log2 = n then pure { s with data := padTo 0 (cdiv s.data.length n * n) s.data } else .error (v.col, .argument)
        else .error (d.col, .place)
      | _ => .error (d.col, if inData then .operands else .place)

/-- An instruction in its place: only code holds one (R393). Its words are counted here and encoded in the second pass. -/
def Source.instruct (s : Source) (line : Nat) (t : Token) (ops : List (List Token)) (mark : Bool) : Parse Source :=
  if s.phase ≠ .code then .error (t.col, .place)
  else match rowOf t.text with
    | none => .error (t.col, .mnemonic)
    | some (r, sufs) =>
      let p : Placed := { line := line, col := t.col, pc := s.pc, row := r, sufs := sufs, ops := ops, mark := mark }
      .ok { s with placed := s.placed ++ [p], entry := s.entry.or (some s.pc), pc := s.pc + if r.op = 97 then 8 else 4 }

/-- A statement after its label (R388). -/
def Source.body (s : Source) (line : Nat) : List Token → Parse Source
  | [] => .ok s
  | t :: ts =>
    let mark := ts.getLast?.filter (fun m => m.text == ['!'])
    let ops := operandsOf (if mark.isSome then ts.dropLast else ts)
    match decide (t.text.head? = some '.'), mark with
    | true, some m => .error (m.col, .markOnDirective)
    | true, none => s.direct line t ops
    | false, _ => s.instruct line t ops mark.isSome

/-- A complaint about a line; the source goes on. -/
def Source.complain (s : Source) (line : Nat) (e : Nat × Complaint) : Source :=
  { s with complaints := s.complaints ++ [(line, e.1, e.2)] }

/-- One line of the first pass (R385, R388): an error leaves what was known, so that every line is read. Any statement may bear a label,
which names the offset of the code to come: of data, the end of the code (DESIGN CHOICE, log 114). -/
def Source.readLine (s : Source) (line : Nat) (chars : List Char) : Source :=
  if 1024 < chars.length then s.complain line (1025, .longLine)
  else match tokens 1 none chars with
    | .error e => s.complain line e
    | .ok ts =>
      let (label, rest) : Option Token × List Token := match ts with
        | t :: c :: more => if c.text == [':'] && (regOf t.text).isNone then (some t, more) else (none, ts)
        | _ => (none, ts)
      if ts.isEmpty then s
      else
        let s1 : Source := match label with
          | none => if s.recur.isSome then { s with recur := none }.complain line ((ts.headD { col := 1, text := [] }).col, .place) else s
          | some t =>
            let s' := { s with recur := none }
            if s.phase = .done then s'.complain line (t.col, .place)
            else match newName (s.labels.map (fun x => x.1)) t with
              | .ok n => { s' with labels := s.labels ++ [(n, s.pc)] }
              | .error e => s'.complain line e
        match s1.body line rest with
        | .ok s2 => s2
        | .error e => s1.complain line e

/-- The first pass. -/
def Source.readLines : Source → Nat → List (List Char) → Source
  | s, _, [] => s
  | s, n, l :: ls => (s.readLine n l).readLines (n + 1) ls

/-! The second pass and the image. -/

/-- Answers and complaints of a list of parts, each with its line. -/
def collect {α : Type} : List (Nat × Parse α) → List α × List (Nat × Nat × Complaint)
  | [] => ([], [])
  | (line, r) :: rs =>
    let (as, cs) := collect rs
    match r with
    | .ok a => (a :: as, cs)
    | .error e => (as, (line, e.1, e.2) :: cs)

/-- A bound-table entry (R66, R392): `.bound` names a TXB, `.wait` any other waiting instruction or a tile reader. -/
def boundEntry (ls : Labels) (code : List Coded) (l : Token) (n : Nat) (isBound : Bool) : Parse (Nat × Nat) := do
  let pc ← labelOf ls l
  match code.find? (fun c => c.pc == pc) with
  | none => .error (l.col, .wrongStatement)
  | some c =>
    let isTxb := match c.instr with
      | .txb _ _ => true
      | _ => false
    if (if isBound then isTxb else (isWaiting c.instr && !isTxb) || readsTile c.instr) then pure (pc, n)
    else .error (l.col, .wrongStatement)

/-- A spawn entry (R303). -/
def spawnEntry (ls : Labels) (x : Nat × Token × Token × Nat × Nat × Nat) : Parse (List Nat) := do
  let site ← labelOf ls x.2.1
  let target ← labelOf ls x.2.2.1
  pure [site, target, x.2.2.2.1, x.2.2.2.2.1 + x.2.2.2.2.2 * 2 ^ 16]

/-- Binds the regions of the sluices (R301, R392). -/
def Source.bindSluices (s : Source) : List (Nat × Nat × Token) → List RegionDecl → List RegionDecl × List (Nat × Nat × Complaint)
  | [], rs => (rs, [])
  | (line, k, t) :: more, rs =>
    let bad := (line, t.col, Complaint.sluiceRegion)
    match s.names.find? (fun x => x.1 == t.text) with
    | some (_, some i) => match rs[i]? with
      | some r =>
        if (r.kind = 1 ∨ r.kind = 3) ∧ r.sluice = 0 then s.bindSluices more (setNth rs i { r with sluice := k + 1 })
        else let (a, b) := s.bindSluices more rs; (a, bad :: b)
      | none => let (a, b) := s.bindSluices more rs; (a, bad :: b)
    | _ => let (a, b) := s.bindSluices more rs; (a, bad :: b)

/-- The words of a region entry (Table 2 of R301). -/
def RegionDecl.words (r : RegionDecl) : List Nat :=
  [r.sluice * 2 ^ 16 + r.scope * 2 ^ 8 + (if r.readonly then 2 ^ 5 else 0) + (if r.shared then 2 ^ 4 else 0) + r.kind,
    r.capacity, r.size % 2 ^ 32, r.size / 2 ^ 32, r.page * 2 ^ 4 + r.policy * 2 ^ 3 + r.home, 0, 0, 0]

/-- Little-endian bytes of words. -/
def wordBytes (ws : List Nat) : List Byte := ws.flatMap (leBytes 4)

/-- The code section: headers and instructions lie at the offsets of the first pass (R46, R143). -/
def codeWords (headers : List (Nat × Nat)) (code : List Coded) : List Nat :=
  let ws := headers ++ code.flatMap (fun c => match c.lit with
    | some l => [(c.pc, c.word), (c.pc + 4, l)]
    | none => [(c.pc, c.word)])
  (sortBy (fun x y => decide (x.1 ≤ y.1)) ws).map (fun x => x.2)

/-- Sections one after another from an offset, each at a multiple of 8; an empty one has offset 0 (R299, log 67). -/
def layout : Nat → List (List Byte) → List Nat × List Byte
  | _, [] => ([], [])
  | at', sec :: more =>
    if sec.isEmpty then let (os, bs) := layout at' more; (0 :: os, bs)
    else
      let n := cdiv sec.length 8 * 8
      let (os, bs) := layout (at' + n) more
      (at' :: os, (if bs.isEmpty then sec else padTo 0 n sec) ++ bs)

/-- The image (R299 to R305): the header, then code, bounds, regions, roles, spawns, leases and data. -/
def imageBytes (s : Source) (wg : Nat) (roles : List (Nat × Nat)) (code : List Coded) (bounds : List (Nat × Nat))
    (regions : List RegionDecl) (spawns : List (List Nat)) : List Byte :=
  let codeB := wordBytes (codeWords s.headers code)
  let boundB := wordBytes (bounds.flatMap (fun b => [b.1, b.2]))
  let regionB := wordBytes (regions.flatMap RegionDecl.words)
  let roleB := wordBytes (padTo 0 8 (roles.flatMap (fun r => [r.1, r.2])))
  let spawnB := wordBytes (spawns.flatMap (fun x => x))
  let leaseB := wordBytes (s.leases.flatMap (fun l => [l.1 + (l.2.1 - 1) * 2 ^ 3 + l.2.2 * 2 ^ 5, 0]))
  let (os, bs) := layout 0x80 [codeB, boundB, regionB, roleB, spawnB, leaseB, s.data]
  let off (k : Nat) : Nat := os.getD k 0
  let header := [0x4B483921, 1 * 2 ^ 16 + 3, (if s.fuse then 2 else 0) + (if s.det then 1 else 0),
    s.opclass.getD 0 * 2 ^ 4 + s.energy.getD 0, (roles.length - 1) * 2 ^ 16 + wg, s.backing.getD 0, s.scratch.getD 0, s.tiles.getD 0,
    off 0, codeB.length, s.entry.getD 0, off 1, bounds.length, off 2, regions.length, off 3, off 4, spawns.length, off 5,
    s.leases.length, off 6, s.data.length, 0x80 + bs.length]
  padTo 0 0x80 (wordBytes header) ++ bs

/-! Warnings (R394). -/

/-- Whether an instruction's result has fixed latency (Table 5 of R59), by the group and index of its word. -/
def fixedLatency (word : Nat) : Bool :=
  let g := word / 2 ^ 27 % 16
  let i := word / 2 ^ 21 % 64
  (g == 0 && !(i == 6 || i == 7)) || g == 1 || (g == 2 && !(i == 6 || (decide (16 ≤ i) && decide (i ≤ 20)))) || g == 3 ||
  (g == 4 && (i == 1 || i == 4 || i == 7))

/-- The fields that an instruction reads, the calls' and RET's own among them (R143, R313). -/
def readFields (i : Instr) : List (Nat × Nat) := match i with
  | .nop _ => []
  | .ret _ => [(7, 1)]
  | .call _ _ => [(0, 2)]
  | .callr _ _ => (0, 2) :: namedFields i
  | .jr _ _ => (0, 2) :: namedFields i
  | _ => if onlyReadsFirst i || readsDest i then namedFields i else (namedFields i).drop 1

/-- Whether lists of fields share a register. -/
def fieldsMeet (xs ys : List (Nat × Nat)) : Bool :=
  xs.any (fun x => ys.any (fun y => decide (x.1 < y.1 + y.2) && decide (y.1 < x.1 + x.2)))

/-- The warnings about runs, with the variable-latency writes pending in the run and their age: the 64th instruction closes
a run in any case (R58, R60). -/
def runWarnings : List (Nat × List (Nat × Nat)) → List Coded → List (Nat × Nat × Complaint)
  | _, [] => []
  | pending, c :: cs =>
    let live := (pending.map (fun p => (p.1 + 1, p.2))).filter (fun p => decide (p.1 < 64))
    let pend := live.flatMap (fun p => p.2)
    let fixed := fixedLatency c.word
    let w1 := if fixed && fieldsMeet (writtenFields c.instr) pend then [(c.line, c.col, Complaint.loadWins)] else []
    let w2 := if fieldsMeet (readFields c.instr) pend then [(c.line, c.col, Complaint.readsPending)] else []
    let next := if switchMarker c.instr || closesByKind c.instr then [] else
      if fixed || (writtenFields c.instr).isEmpty then live else (0, writtenFields c.instr) :: live
    w1 ++ w2 ++ runWarnings next cs

/-- The warnings about single statements: a branch backward, and a waiting instruction without its limit. -/
def codeWarnings (bounds : List (Nat × Nat)) (c : Coded) : List (Nat × Nat × Complaint) :=
  (match branchOffset c.instr with
    | some n => if n ≤ 0 then [(c.line, c.col, Complaint.backward)] else []
    | none => []) ++
  (if isWaiting c.instr && !bounds.any (fun b => b.1 == c.pc) then [(c.line, c.col, Complaint.noWait)] else [])

/-! The assembler. -/

/-- An image, where the source has no error, and the diagnostics (R394). -/
structure Assembly where
  image : Option (List Byte)
  diagnostics : List Diagnostic
  deriving DecidableEq, Repr

/-- The declarations that a file must hold (R392, R393), named at its `.end`; a `.recur` that nothing follows; and the sum of its
roles, named at `.wg`. -/
def Source.fileComplaints (s : Source) (last : Nat) : List (Nat × Nat × Complaint) :=
  let place := s.ended.getD (last, 1)
  let miss (b : Bool) (n : String) : List (Nat × Nat × Complaint) := if b then [(place.1, place.2, Complaint.missing n)] else []
  miss (s.phase == .start) "kernel" ++ miss (s.phase != .done) "end" ++ miss s.wg.isNone "wg" ++ miss s.energy.isNone "energy" ++
  miss s.opclass.isNone "opclass" ++ miss (s.roles.isEmpty && s.alone.isNone) "regs" ++ miss (s.roles.any (fun r => r.2.isNone)) "regs" ++
  (match s.recur with
    | some p => [(p.1, p.2, Complaint.place)]
    | none => []) ++
  miss s.entry.isNone "code" ++
  (match s.wg with
    | some (n, line, col) =>
      if s.roles.isEmpty ∨ (s.roles.map (fun r => r.1)).foldl (fun x y => x + y) 0 = n then [] else [(line, col, Complaint.roleSum)]
    | none => [])

/-- The last line ends with a line feed too (R385). -/
def lineEnd (source : List Char) (lines : List (List Char)) : List (Nat × Nat × Complaint) :=
  if source.getLast?.any (fun c => c != '\n') then [(lines.length, (lines.getLastD []).length + 1, Complaint.lineEnd)] else []

/-- The assembler (R385 to R394): a source's characters to an image of R299 with ABI version 1.3. -/
def assemble (file : String) (source : List Char) : Assembly :=
  let lines := linesFrom [] source
  let s := Source.readLines {} 1 lines
  let (code, e1) := collect (s.placed.map (fun p => (p.line, Placed.code s.labels p)))
  let (bounds, e2) := collect (s.bounds.map (fun b => (b.1, boundEntry s.labels code b.2.1 b.2.2.1 b.2.2.2)))
  let (spawns, e3) := collect (s.spawns.map (fun x => (x.1, spawnEntry s.labels x)))
  let (bound, e4) := s.bindSluices s.sluices s.regions
  let errors := s.complaints ++ e1 ++ e2 ++ e3 ++ e4 ++ s.fileComplaints lines.length ++ lineEnd source lines
  let table := sortBy (fun x y => decide (x.1 ≤ y.1)) bounds
  let warnings := runWarnings [] code ++ code.flatMap (codeWarnings table)
  let named (c : Nat × Nat × Complaint) : Diagnostic := { file := file, line := c.1, col := c.2.1, complaint := c.2.2 }
  let wg := (s.wg.map (fun w => w.1)).getD 0
  let roles := if s.roles.isEmpty then [(wg, s.alone.getD 0)] else s.roles.map (fun r => (r.1, r.2.getD 0))
  let regions := if s.data.isEmpty then bound else bound ++ [{ kind := 1, size := s.data.length, readonly := true }]
  { image := if errors.isEmpty then some (imageBytes s wg roles code table regions spawns) else none
    diagnostics := (errors ++ warnings).map named }

end Sys2Proof.Tirkel
end

