-- ==== Sys2Proof/Tests/Slice0.lean ====
section
/-! SUPPORT. Tests: ill-formed terms that the checks refuse, words written out from the tables of the spec, and for every
statement with hypotheses states and operands that meet them. The states are small: one thread, or two, of a loaded kernel. -/

namespace Sys2Proof.Tests

/- One theorem after another: each keeps a thread of its own otherwise. -/
set_option Elab.async false

open Sys2Proof Sys2Proof.Machine

/-! The states of the tests. -/

/-- Thread 0 of workgroup 0 in context 1, on core 0, at offset 0. -/
def g0 : Group := { core := 0, ctx := 1, wg := 0, pc := 0, tids := [0] }

/-- That thread with its lane neighbour. -/
def g2 : Group := { g0 with tids := [0, 1] }

/-- A supervisor kernel of one thread, about to perform. -/
def base : State := { State.reset.install with group := some g0 }

/-- The state with its thread changed. -/
def thr (f : Thread → Thread) (s : State) : State := s.modThread 1 0 0 f

/-- The state with its launch changed. -/
def lch (f : Launch → Launch) (s : State) : State := s.modLaunch 1 f

/-- The state with its image changed. -/
def img (f : Image → Image) (s : State) : State := lch (fun l => { l with img := f l.img }) s

/-- The state with fields of its thread set. -/
def regs (ps : List (Nat × Word)) (s : State) : State := thr (fun u => ps.foldl (fun u p => u.writeW p.1 p.2) u) s

/-- The same kernel in the user view. -/
def user : State := lch (fun l => { l with supervisor := false }) base

/-- Two threads on lanes 0 and 1. -/
def duo : State :=
  { base with group := some g2, wgs := base.wgs.map (fun w => { w with threads := w.threads ++ w.threads.map (fun t => { t with tid := 1 }) }) }

/-- A word of the code section. -/
def code (off w : Nat) (s : State) : State :=
  img (fun x => { x with codeLen := Nat.max x.codeLen (off + 8) }) (s.writeNat 0 (placedBase + off) 4 w)

/-- The state that an instruction answers. -/
def after (i : Instr) (s : State) : State := match exec i s with | .next t => t | _ => s

/-- The launch and the thread of the states above. -/
def launch (s : State) : Launch := (s.launch 1).getD placedLaunch
def thread (s : State) : Thread := (s.threadOf 1 0 0).getD (Thread.fresh 0 0 0 256 placedLaunch 0 [])
def wgroup (s : State) : Workgroup := (s.wgOf 1 0).getD placedWg

/-- A property of the members that computes. -/
theorem members_of {s : State} {g : Group} {p : Thread → Prop} (h : ∀ k ∈ g.tids, ∀ u ∈ s.threadOf g.ctx g.wg k, p u) :
    Members s g p := h

/-- The same of a lone member. -/
theorem members_one {s : State} {g : Group} {k : Nat} {u : Thread} {p : Thread → Prop} (ht : g.tids = [k])
    (hu : s.threadOf g.ctx g.wg k = some u) (hp : p u) : Members s g p := by
  intro j hj v hv
  rw [ht, List.mem_singleton] at hj
  subst hj
  rw [hu] at hv
  cases hv
  exact hp

/-! Witnesses of the hypotheses, statement by statement. -/

theorem witness_IntegerOperations :
    (∀ p ∈ wordTable, issuable (p.1 false 20 21 22) base g0 = true) ∧
    (∀ p ∈ ([.cmovz, .cmovn] : List (Bool → Reg → Reg → Reg → Instr)), issuable (p true 20 21 22) (regs [(22, 1)] base) g0 = true) ∧
    (∀ p ∈ pairTable, issuable (p.1 false 20 24 26) base g0 = true) ∧
    issuable (.divu false 20 21 22) base g0 = true ∧ issuable (.remu false 20 21 22) (regs [(21, 9), (22, 4)] base) g0 = true := by
  decide +kernel

theorem witness_ImmediateAndUnaryOperations :
    (∀ p ∈ immTable, issuable (p.1 false 20 21 5) base g0 = true) ∧ issuable (.add64i false 20 22 0x7F) base g0 = true ∧
    issuable (.movi false 20 0x2000) base g0 = true ∧ issuable (.movw false 20 0xDEADBEEF) base g0 = true ∧
    issuable (.nop false) base g0 = true ∧
    (base.group = some g0 ∧ base.threadOf g0.ctx g0.wg 0 = some (thread base) ∧ 32 ≤ (32 : BitVec 7).toNat ∧ 32 ≤ (127 : BitVec 7).toNat) ∧
    (∀ p ∈ unaryTable, issuable (p.1 true 20 21) base g0 = true) := by
  decide +kernel

/-- A finite result, a tie, and the first magnitude that rounds to the infinity, in BF16. -/
theorem witness_RoundsToNearest :
    bf16.roundMag 3 0 false < bf16.infBits ∧ bf16.roundMag 257 0 false < bf16.infBits ∧ bf16.roundMag 511 120 false < bf16.infBits + 1 ∧
    bf16.roundMag (2 ^ 9 - 1) 119 false = bf16.infBits ∧ (0x4381 : Nat) < bf16.infBits ∧ (0x4381 : Nat) ≠ bf16.roundMag 257 0 false := by
  decide +kernel

theorem witness_FloatOperations :
    (∀ p ∈ floatTable, issuable (p.1 false 20 21 22) base g0 = true) ∧ (∀ p ∈ floatTests, issuable (p.1 false 20 21 22) base g0 = true) ∧
    (∀ p ∈ ([.fmin, .fmax, .fcpys, .fdiv] : List (Bool → Reg → Reg → Reg → Instr)), issuable (p false 20 21 22) base g0 = true) ∧
    (∀ p ∈ ([.fabs, .fneg] : List (Bool → Reg → Reg → Instr)), issuable (p false 20 21) base g0 = true) ∧
    (∀ p ∈ floatLong, p.2.2.all (fun q => issuable (p.1 false 20 21) (regs [(21, q.1)] base) g0 &&
      (thread (regs [(21, q.1)] base)).readW 21 == q.1) = true) ∧
    (∀ p ∈ floatLong, issuable (p.1 false 20 21) (regs [(21, 0xFFC00001)] base) g0 = true) ∧ (f32.decode 0xFFC00001).isNan = true := by
  decide +kernel

/-- Table 6 of R134: the special cases. -/
theorem test_float_special_cases : ∀ p ∈ floatLong, p.2.2.all (fun q => BitVec.ofNat 32 (p.2.1 q.1.toNat) == q.2) = true := by decide +kernel

theorem witness_PairedOperations :
    (∀ p ∈ pairedTable, issuable (p.1 false 20 21 22) base g0 = true) ∧
    (∀ p ∈ ([.hmax2, .emax2, .cvtBf16F32, .cvtFp16F32, .cvtBf16F32Sr] : List (Bool → Reg → Reg → Reg → Instr)),
      issuable (p false 20 21 22) base g0 = true) ∧
    (∀ p ∈ convertTable, issuable (p.1 false 20 21) base g0 = true) ∧
    [0x3FFFFFFF, 0x7F800001, 0xFF800000].all (fun x => issuable (.cvtBf16F32Sr false 20 21 22) (regs [(21, x), (22, 0xFFFF)] base) g0) = true ∧
    f32.decode 0x3FFFFFFF = .fin false 16777215 (-23) ∧ (f32.decode 0x7F800001).isNan = true ∧ f32.decode 0xFF800000 = .inf true := by
  decide +kernel

theorem witness_BranchesAndCalls_branches :
    issuable (.br false 0x1FFFFF) base g0 = true ∧
    (∀ p ∈ ([.bez, .bnz] : List (Bool → Reg → BitVec 14 → Instr)),
      issuable (p false 20 0x3FFF) base g0 = true ∧ issuable (p false 20 0x1FFF) (regs [(20, 1)] base) g0 = true) := by
  decide +kernel

/-- A kernel with a function header of frame limit 16 at offset 32, and a CALL at offset 44. -/
def called : State := code 44 0x20200001 (code 32 0x78004001 (regs [(0, 0), (1, 0), (2, 0)] base))

/-- The frame pointer at the frame limit, and one byte beyond it. -/
def frameAt (n : Nat) : State :=
  regs [(0, BitVec.ofNat 32 (Config.privateBase + n)), (1, BitVec.ofNat 32 ((Config.privateBase + n) / 2 ^ 32)), (20, 36), (7, 48)] called

theorem witness_BranchesAndCalls :
    (∀ i ∈ [Instr.call false 9, .callr false 20, .jr false 20, .ret false], issuable i (frameAt 16) g0 = true) ∧
    ((frameAt 16).codeWord 0 (launch (frameAt 16)) 32 = some 0x78004001 ∧ (thread (frameAt 16)).readPair 0 = Config.privateBase + 16 ∧
      (thread (frameAt 16)).readW 20 = 36) ∧
    ((frameAt 16).codeWord 0 (launch (frameAt 16)) 44 = some 0x20200001 ∧ (thread (frameAt 16)).readW 7 = 48) ∧
    (∀ i ∈ [Instr.callr false 20, .jr false 20],
      issuable i (regs [(20, 38)] called) g0 = true ∧
      issuable i (regs [(20, 0)] called) g0 = true ∧
      issuable i (regs [(20, 48)] called) g0 = true ∧ issuable i (frameAt 17) g0 = true) ∧
    (0x20200001 / 2 ^ 27 % 32 ≠ 15) ∧ (0x78004001 % 2 ^ 14 * 16 < ((thread (frameAt 17)).readPair 0 + 2 ^ 64 - Config.privateBase) % 2 ^ 64) := by
  decide +kernel

theorem witness_BranchesAndCalls_allowed : Members (frameAt 16) g0 (fun u => CallAllowed (frameAt 16) 0 (launch (frameAt 16)) u 36) ∧
    Members (frameAt 16) g0 (fun u => ReturnAllowed (frameAt 16) 0 (launch (frameAt 16)) (u.readW 7).toNat) :=
  ⟨members_one (u := thread (frameAt 16)) rfl (by decide +kernel) ⟨rfl, by decide, 0x78004001, by decide +kernel⟩,
   members_one (u := thread (frameAt 16)) rfl (by decide +kernel) ⟨by decide +kernel, by decide +kernel, 0x20200001, by decide +kernel⟩⟩

theorem witness_Loops :
    issuable (.looph false 20 5) (regs [(20, 5)] base) g0 = true ∧ (thread (regs [(20, 5)] base)).readW 20 = 5 ∧
    issuable (.looph false 20 5) base g0 = true ∧ issuable (.looph false 20 5) (regs [(20, 6)] base) g0 = true ∧
    issuable (.loope false 20 3) (regs [(20, 1)] base) g0 = true ∧ issuable (.loope false 20 3) (regs [(20, 2)] base) g0 = true ∧
    issuable (.loope false 20 3) base g0 = true ∧ (thread base).readW 20 = 0 := by
  decide +kernel

/-- The window base at its limits: allocation 256, so 248 is the last base. -/
theorem witness_WindowsAndExit :
    (∀ m ∈ [(248 : Nat), 256], issuable (.wbase false (BitVec.ofNat 14 m)) base g0 = true) ∧ (thread base).alloc = 256 ∧
    issuable (.wbadj false 8) (thr (fun u => { u with base := 16 }) base) g0 = true ∧
    issuable (.wbadj false 0x3FF8) base g0 = true ∧ ((thread base).base : Int) + (0x3FF8 : BitVec 14).toInt < 0 ∧
    issuable (.exit false) base g0 = true := by
  decide +kernel

theorem witness_TrapEntry_raise :
    issuable (.trap false 0x1FFFFF) base g0 = true ∧ issuable (.brk false 7) base g0 = true ∧ base.launch 1 = some (launch base) ∧
    (launch base).debug = false := by
  decide +kernel

/-- A waiting instruction without a bound-table entry. -/
def unbounded : State := img (fun x => { x with bounds := [] }) base

/-- A thread whose window runs over the end of its allocation. -/
def slid : State := thr (fun u => { u with base := 240 }) base

theorem witness_IssueChecks :
    ((encode (.add64 false 21 20 22)).isSome = true ∧ Instr.wf (.add64 false 21 20 22) = false ∧ isBreak (.add64 false 21 20 22) = false) ∧
    (isPrivileged (.mfsr false 20 0x2100) = true ∧ user.privileged g0 = false ∧ Instr.wf (.mfsr false 20 0x2100) = true) ∧
    (userPrivIndex (.mfs false 20 0x2100) = true ∧ Instr.wf (.mfs false 20 0x2100) = true) ∧
    (Instr.wf (.tokw false 20) = true ∧ isWaiting (.tokw false 20) = true ∧ (launch unbounded).bound 0 = none ∧
      unbounded.threadOf 1 0 0 = some (thread unbounded)) ∧
    (isProducer (.tcopy false 20 22 24) = true ∧ (thread (thr (fun u => { u with sub := 1 }) base)).sub ≠ 0 ∧
      Instr.wf (.tcopy false 20 22 24) = true) ∧
    (isProducer (.add64 false 20 16 14) = false ∧ Instr.wf (.add64 false 20 16 14) = true ∧ slid.group = some g0 ∧
      (namedFields (.add64 false 20 16 14)).head? = some (20, 2) ∧ (thread slid).regs.length ≤ (thread slid).phys (20 + 1)) := by
  decide +kernel

/-- A privileged thread with a handler and a result that its run owes, the group taken. -/
def handled : State :=
  { thr (fun u => { u with tvec := 0x40, results := [.mk 0 [20] (some [some 7])], nextSlot := 1 }) base with group := none }

theorem witness_TrapEntry :
    handled.group = none ∧ handled.privileged g0 = true ∧ (thread handled).tvec ≠ 0 ∧ (thread handled).ecause.toNat < 2 ^ 31 ∧
    (handled.threadOf 1 0 0).isSome = true ∧ Quiet handled g0 ∧
    ((launch user).supervisor = false ∧ (launch user).live = true ∧ user.wgOf 1 0 = some (wgroup user) ∧
      (launch user).traps < (launch user).trapCap ∧ Quiet user g0) := by
  unfold Quiet
  decide +kernel

theorem witness_SubGroups :
    (g2.tids.map (fun k => k % 32)).Nodup ∧
    (∀ p ∈ subGroupTable duo g2 22, issuable (p.1 false 20 22 23) duo g2 = true) ∧
    (∀ p ∈ voteTable duo g2 22, issuable (p.1 false 20 22) duo g2 = true) ∧ issuable (.lanes false 20) duo g2 = true := by
  decide +kernel

theorem witness_SpecialRegisters :
    (∀ m ∈ [(0 : Nat), 9, 0x10, 0x11, 0x18, 0x19, 0x20, 0x30], issuable (.mfs false 20 (BitVec.ofNat 14 m)) base g0 = true) ∧
    (∀ i ∈ [Instr.mfs false 20 0x29, .mfsr false 20 0x2029, .mfs false 20 0x28, .mfsr false 20 0x2028, .mts false 20 0x11,
      .mts false 20 0x20, .mtsr false 20 0x2020, .clki false 20, .rndb false 20], issuable i base g0 = true) ∧
    base.wgOf 1 0 = some (wgroup base) ∧ Quiet base g0 := by
  unfold Quiet
  decide +kernel

/-! Memory: a page table that maps the addresses from 2^30 on, and one range of each kind. -/

/-- A range of 64 KiB. -/
def range (kind base : Nat) : Region :=
  { kind := kind, readonly := false, shared := false, sluice := 1, scope := 3, capacity := 4, size := 0x10000, bigPage := false, late := false,
    home := 0, base := base }

/-- Global, read-only, polder, stamped, sluice and shared ranges. -/
def ranges : List Region :=
  [range 1 0x40000000, { range 1 0x40100000 with readonly := true }, range 2 0x40200000, range 3 0x40300000,
   range 4 0x40400000, { range 1 0x40500000 with shared := true }]

/-- The page table's three levels down to one page of 512 MiB at frame 0x20000000. -/
def paged (s : State) : State :=
  ((s.writeNat 0 0x150000 8 0x151001).writeNat 0 0x151000 8 0x152001).writeNat 0 0x152010 8 0x20000003

/-- The kernel with those ranges, and an address in the pair 20. -/
def mapped (a : Nat) (s : State) : State :=
  regs [(20, BitVec.ofNat 32 a), (21, BitVec.ofNat 32 (a / 2 ^ 32))] (paged (img (fun x => { x with regions := ranges }) s))

/-- A kernel that owns granule 0 of its core's scratchpad, at generation 3. -/
def banked (s : State) : State := s.modCore 0 (fun c => { c with granules := [.mk 0 1 0 true 3] })

/-- An address that no polder region covers is settled. -/
theorem settled_of {s : State} {l : Launch} {addr n : Nat} (h : ∀ i < n, l.polderAt (addr + i) = none) : Settled s l addr n := by
  intro a h1 h2 r hr
  have h3 := h (a - addr) (by omega)
  rw [Nat.add_sub_cancel' h1, hr] at h3
  cases h3

/-- The kernel whose polder region has room for 512 lines, of which those listed are allocated. -/
def poldered (lines : List Nat) (s : State) : State :=
  let t := mapped 0x40200010 s
  { img (fun x => { x with regions := [{ range 2 0x40200000 with capacity := 0x10000 }] }) t with polderLines := lines.map (fun n => (1, n)) }

/-- An access to an allocated line is settled. -/
theorem settled_polder : Settled (poldered [0x40200000 / 128] base) (launch (poldered [0x40200000 / 128] base)) 0x40200010 16 := by
  intro a h1 h2 r hr
  right
  have hm : ∀ i < 16, (1, (0x40200010 + i) / 128) ∈ (poldered [0x40200000 / 128] base).polderLines := by decide +kernel
  have hp : (poldered [0x40200000 / 128] base).polderPages = [] := by decide +kernel
  have h3 := hm (a - 0x40200010) (by omega)
  rw [Nat.add_sub_cancel' h1] at h3
  refine ⟨h3, fun x => ?_⟩
  simp [State.polderPage, hp]

/-- The members of a state reach the address in pair 20 with an access of `n` bytes. -/
def reaches (s : State) (n : Nat) (isStore constant : Bool) : Prop := Reachable s (launch s) 0 none ((thread s).readPair 20) n isStore constant

theorem witness_Loads :
    (∀ p ∈ loadTable, issuableOutside (p.1 false 24 20 0) (mapped 0x40000010 base) g0 = true ∧
      issuableOutside (p.2.1 false 24 20 22) (mapped 0x40000010 base) g0 = true ∧
      addrImm (thread (mapped 0x40000010 base)) 20 0 p.2.2.1 = 0x40000010 ∧ addrIdx (thread (mapped 0x40000010 base)) 20 22 = 0x40000010) ∧
    issuableOutside (.ldq false 24 20 0) (mapped 0x40000010 base) g0 = true ∧ issuableOutside (.ldqx false 24 20 22) (mapped 0x40000010 base) g0 = true := by
  decide +kernel

theorem witness_Loads_settled : ∀ a ∈ [0x40000010, Config.scratchBase + 16, 0x40500010],
    Settled (mapped a base) (launch (mapped a base)) a 16 := by
  have h : ∀ a ∈ [0x40000010, Config.scratchBase + 16, 0x40500010], ∀ i < 16, (launch (mapped a base)).polderAt (a + i) = none := by
    decide +kernel
  exact fun a ha => settled_of (h a ha)

theorem witness_Loads_global : (∀ n ∈ [(1 : Nat), 2, 4, 8, 16], reaches (mapped 0x40000010 base) n false false) ∧
    reaches (mapped 0x40000010 base) 8 false true := by
  unfold reaches Reachable
  decide +kernel

theorem witness_Loads_apertures : reaches (banked (mapped (Config.scratchBase + 1020) base)) 4 false false ∧
    reaches (img (fun x => { x with priv := 64 }) (mapped (Config.privateBase + 60) base)) 4 false false := by
  unfold reaches Reachable
  decide +kernel

theorem witness_Stores :
    (∀ p ∈ storeTable, issuableOutside (p.1 false 24 20 0) (mapped 0x40500010 base) g0 = true ∧
      issuableOutside (p.2.1 false 24 20 22) (mapped 0x40500010 base) g0 = true ∧ reaches (mapped 0x40500010 base) p.2.2 true false ∧
      (launch (mapped 0x40500010 base)).gated 0x40500010 p.2.2 = false) ∧
    issuableOutside (.stq false 24 20 0) (mapped 0x40000010 base) g0 = true ∧ issuableOutside (.stqx false 24 20 22) (mapped 0x40000010 base) g0 = true ∧
    reaches (mapped 0x40000010 base) 16 true false ∧
    ((launch (img (fun x => { x with det := true }) (mapped 0x40500010 base))).gated 0x40500010 16 = true ∧
      (launch (img (fun x => { x with det := true }) (mapped 0x40500010 base))).holdsToken 0 = true) := by
  unfold reaches Reachable
  decide +kernel

theorem witness_AddressChecks :
    (∀ a ∈ [0x40000002, 0x3FFFFFFC, Config.scratchBase + Config.scratchSpan, 0x40100000, 0x40300000, 0x40400000],
      issuableOutside (.ldw false 24 20 0) (mapped a base) g0 = true ∧ issuableOutside (.stw false 24 20 0) (mapped a base) g0 = true ∧
      addrImm (thread (mapped a base)) 20 0 4 = a) ∧
    (classOfRange 0x3FFFFFFC 4 = .global ∧ (launch (mapped 0 base)).inLease 0x3FFFFFFC 4 = false) ∧
    classOfRange (Config.scratchBase + Config.scratchSpan) 4 = .bad ∧
    ((launch (mapped 0 base)).readOnlyAt 0x40100000 4 = true ∧ (launch (mapped 0 base)).stampedAt 0x40300000 4 = true ∧
      (launch (mapped 0 base)).sluiceAt 0x40400000 4 = true) := by
  decide +kernel

/-- The thread inside a transaction that has touched the given numbers of lines. -/
def inTx (r w : Nat) (s : State) : State :=
  thr (fun u => { u with tx := { u.tx with active := true, abortPc := 16, readLines := List.range r, writeLines := List.range w } }) s

theorem witness_TransactionalAccesses :
    (∀ n ∈ [(7 : Nat), 8],
      (issuable (.ldw false 24 20 0) (inTx n 0 (mapped 0x40000010 base)) g0 = true ∧ reaches (inTx n 0 (mapped 0x40000010 base)) 4 false false ∧
        txLine (inTx n 0 (mapped 0x40000010 base)) 0 (launch (mapped 0x40000010 base)) 0x40000010 ∉ List.range n) ∧
      (issuable (.stw false 24 20 0) (inTx 0 n (mapped 0x40000010 base)) g0 = true ∧ reaches (inTx 0 n (mapped 0x40000010 base)) 4 true false)) ∧
    (thread (inTx 7 0 base)).tx.readLines.length < 8 ∧ 8 ≤ (thread (inTx 8 0 base)).tx.readLines.length ∧
    classOfRange 0x40000010 4 = .global := by
  unfold reaches Reachable
  decide +kernel

theorem witness_TransactionalAccesses_fault : ∀ a ∈ [(0x40300000 : Nat), 0x40400000],
    issuable (.ldw false 24 20 0) (inTx 0 0 (mapped a base)) g0 = true ∧ reaches (inTx 0 0 (mapped a base)) 4 false false ∧
    ((launch (mapped a base)).stampedAt a 4 = true ∨ (launch (mapped a base)).sluiceAt a 4 = true) := by
  unfold reaches Reachable
  decide +kernel

theorem witness_PolderTouch :
    (∀ p ∈ loadTable, issuableOutside (p.1 false 24 20 0) (poldered [] base) g0 = true ∧ addrImm (thread (poldered [] base)) 20 0 p.2.2.1 = 0x40200010) ∧
    (∀ p ∈ storeTable, issuableOutside (p.1 false 24 20 0) (poldered [] base) g0 = true) ∧ (launch (poldered [] base)).ctx = 1 ∧
    (launch (poldered [] base)).gated 0x40200010 8 = false ∧
    (launch (poldered [] base)).polderAt 0x40200010 = some { range 2 0x40200000 with capacity := 0x10000 } ∧
    (poldered [] base).polderPage 1 (0x40200010 / 2 ^ 16) = none ∧
    ((poldered [] base).polderHeld 1 { range 2 0x40200000 with capacity := 0x10000 } + 1) * 128 ≤
      (poldered [] base).polderCap 1 { range 2 0x40200000 with capacity := 0x10000 } ∧
    (mapped 0x40200010 base).polderCap 1 (range 2 0x40200000) < ((mapped 0x40200010 base).polderHeld 1 (range 2 0x40200000) + 1) * 128 ∧
    (∀ f ∈ [PolderPage.lost false, .moved 3], (({ poldered [] base with polderPages := [.mk 1 0x4020 f] } : State).polderPage 1 0x4020) = some f) := by
  decide +kernel

theorem witness_PolderTouch_reach : reaches (poldered [] base) 8 true false ∧ reaches (poldered [] base) 8 false true := by
  unfold reaches Reachable
  decide +kernel

theorem witness_Fences :
    issuable (.fence false 127 1 6) base g0 = true ∧ issuable (.pfence false 1 64) base g0 = true ∧
    (issuable (.slacq false 24 20 22) (mapped 0x40400000 base) g0 = true ∧ issuable (.slrel false 20) (mapped 0x40400000 base) g0 = true ∧
      ((launch (mapped 0 base)).sluiceOf 0x40400000).isSome = true) ∧
    (issuable (.slacq false 24 20 22) (mapped 0x40000000 base) g0 = true ∧ issuable (.slrel false 20) (mapped 0x40000000 base) g0 = true ∧
      (launch (mapped 0 base)).sluiceOf 0x40000000 = none) := by
  decide +kernel

/-- An access of the thread, numbered 7, and the state in which it alone is in flight. -/
def flown (op : AccOp) (addr size scope : Nat) (slot : Option Nat) : Access :=
  { id := 7, ctx := 1, wg := 0, tid := 0, core := 0, path := .ord, op := op, addr := addr, size := size, scope := scope, slot := slot,
    gens := [3], gid := 0, pc := 0, taken := 0, tx := none, after := [] }
def fly (op : AccOp) (addr size scope : Nat) (slot : Option Nat) (s : State) : State :=
  thr (fun u => if slot.isSome then { u with results := [.mk 0 [24] none], nextSlot := 1 } else u)
    { s with flight := [flown op addr size scope slot], nextId := 8, group := none }

/-- The thread asleep or parked, no group performing. -/
def rest (st : Status) (s : State) : State := thr (fun u => { u with status := st }) { s with group := none }

theorem witness_Barriers :
    (∀ i ∈ [Instr.bara false 3 0 20, .barw false 3 5, .bar false 3 5 20], issuable i (regs [(20, 1)] base) g0 = true) ∧
    issuable (.barx false 3 2 20) (regs [(21, 0x80000000)] base) g0 = true ∧ (0x80000000 : Word).toNat = 2 ^ 31 ∧
    issuable (.bara false 3 0 20) base g0 = true ∧ issuable (.bara false 3 0 20) (regs [(20, 0x80000001)] base) g0 = true ∧
    (Due (fly (.arrive 0 (levelInst 0 0) 3 1 16) 0 0 0 none base) 7 (flown (.arrive 0 (levelInst 0 0) 3 1 16) 0 0 0 none) ∧
      (base.wgOf 1 0).isSome = true) ∧
    (Due (fly (.arrive 2 (levelInst 2 0) 3 2 0) 0 0 2 none base) 7 (flown (.arrive 2 (levelInst 2 0) 3 2 0) 0 0 2 none) ∧
      (base.launch 1).isSome = true) ∧
    (∀ c ∈ (fly (.arrive 0 (levelInst 0 0) 3 1 16) 0 0 0 none base).flight, c.id = 7) ∧ levelInst 0 0 = 0 := by
  unfold Due
  decide +kernel

/-- A waiter at a leaf barrier whose phase has completed, and one whose phase is open. -/
def waiter (phase : Nat) : State :=
  (thr (fun u => { u with arrived := [.mk 0 0 3 none 0] }) (rest (.asleep (.barrier 0 3)) base)).modWg 1 0 (fun w =>
    { w with leaf := [.mk 0 0 3 phase 0 0 0 0] })

theorem witness_Barriers_release : ∀ n ∈ [(0 : Nat), 1],
    Resident (waiter n) 1 0 0 (wgroup (waiter n)) (thread (waiter n)) ∧ (thread (waiter n)).status = .asleep (.barrier 0 3) ∧
    (thread (waiter n)).arrived.find? (fun r => r.level == 0 && r.id == 3) = some (.mk 0 0 3 none 0) ∧
    ((waiter n).barrierAt 1 0 0 0 3).phase = n ∧ (waiter n).dieTime 0 ≤ (thread (waiter n)).deadline ∧
    (waiter n).limitOf (wgroup (waiter n)) (thread (waiter n)) ≠ 0 ∧
    (thread ({ waiter n with now := 5 } : State)).deadline < ({ waiter n with now := 5 } : State).dieTime 0 ∧
    (img (fun x => { x with bounds := [] }) (waiter n)).limitOf (wgroup (waiter n)) (thread (waiter n)) = 0 := by
  unfold Resident
  decide +kernel

theorem witness_Monitors :
    (∀ a ∈ [0x40000010, Config.scratchBase + 16],
      issuable (.mon false 24 20) (banked (mapped a base)) g0 = true ∧ issuable (.mwait false 24 20) (banked (mapped a base)) g0 = true ∧
      Watchable (banked (mapped a base)) (launch (banked (mapped a base))) 0 none ((thread (mapped a base)).readPair 20)) ∧
    ((banked (mapped 0x40000010 base)).coreOf 0).watched.length < 32 := by
  unfold Watchable
  decide +kernel

/-- The pair 20 for the atomics, which name it by half its number. -/
theorem witness_Atomics :
    (∀ p ∈ atomicTable, issuable (p.1 false 6 24 10 false 26) (mapped 0x40500010 base) g0 = true ∧
      AtomicReachable (mapped 0x40500010 base) (launch (mapped 0x40500010 base)) 0 none 0x40500010 p.2.2.1 6 p.2.2.2 false) ∧
    (thread (mapped 0x40500010 base)).readPair (2 * 10) = 0x40500010 ∧
    AtomicReachable (banked (mapped 0 base)) (launch (banked (mapped 0 base))) 0 none (Config.scratchBase + 8) 8 2 true false := by
  unfold AtomicReachable
  have h : ∀ p ∈ atomicTable, issuable (p.1 false 6 24 10 false 26) (mapped 0x40500010 base) g0 = true := by decide +kernel
  refine ⟨fun p hp => ⟨h p hp, ?_⟩, by decide +kernel, ?_⟩
  · revert p
    simp only [reduceCtorEq, false_implies]
    decide +kernel
  · simp only [reduceCtorEq, false_implies]
    decide +kernel

theorem witness_Reductions :
    (∀ p ∈ reductionTable, issuable (p.1 false 6 true 10 26) (mapped 0x40500010 base) g0 = true ∧
      issuable (p.1 false 6 true 10 26) (img (fun x => { x with det := true }) (mapped 0x40500010 base)) g0 = true) ∧
    (launch (img (fun x => { x with det := true }) (mapped 0x40500010 base))).img.det = true := by
  decide +kernel

/-- A thread that validates what it read at its homes, with one byte to write. -/
def validating (read : Byte) : State :=
  thr (fun u => { u with results := [.mk 0 [24] none], nextSlot := 1, status := .parked, tx := { u.tx with active := true, committing := some (0, 5), reads := [(0x1000, read)], writes := [(0x2000, 9)] } })
    { base with group := none }

/-- A workgroup of one thread that waits for words no one will give. -/
def claiming : State := (rest (.asleep (.rclaim 8)) base).modWg 1 0 (fun w => { w with claims := [0] })

theorem witness_Transactions :
    (issuable (.txb false 0x3FFF) base g0 = true ∧ (launch base).bound 0 = some 1) ∧
    (issuable (.txb false 0x3FFF) (thr (fun u => { u with txs := 0x400, tx := { u.tx with lastTxb := some 0 } }) base) g0 = true) ∧
    issuable (.txe 24) base g0 = true ∧ issuable (.txe 24) (inTx 8 8 base) g0 = true ∧
    (dedup ((thread (inTx 8 8 base)).tx.readLines ++ (thread (inTx 8 8 base)).tx.writeLines)).length ≤ 64 ∧
    issuable (.txa 0x3FFF) (inTx 0 0 base) g0 = true ∧ issuable (.txa 1) base g0 = true ∧
    ((validating 0).txTurn 1 0 (thread (validating 0)) 5 = true ∧ (validating 0).canonical = true ∧ Cells.get (validating 0).mem 0x1000 = 0 ∧
      (thread (validating 0)).tx.committing = some (0, 5)) ∧
    ((validating 1).txTurn 1 0 (thread (validating 1)) 5 = true ∧ Cells.get (validating 1).mem 0x1000 ≠ 1) ∧
    ((validating 0).txBehind 1 0 (thread (validating 0)) = false ∧ (∀ r ∈ (thread (validating 0)).tx.reads, Cells.get (validating 0).mem r.1 = r.2) ∧
      (thread (validating 0)).tx.writes = [(0x2000, 9)] ∧ (thread (inTx 8 8 base)).tx.polderLines (launch (inTx 8 8 base)) = []) ∧
    (claiming.stuck (launch claiming) (wgroup claiming) (thread claiming) = true ∧ (thread claiming).claim.isSome = true ∧
      (wgroup claiming).saved = .running) ∧
    (base.stuck (launch base) (wgroup base) (thread base) = false ∧ (thread base).claim = none) := by
  decide +kernel

/-- A pending store of the line at 0x40300000 with a stamp. -/
def stamp (k stamp : Nat) : Machine.Stamped := .mk k 5 4 stamp 0 0 0 7 0 false

theorem witness_Stamped :
    (∀ i ∈ [Instr.stst false 24 20 26, .ststd false 24 20 26, .ldas false 24 20 26], issuable i (mapped 0x40300000 base) g0 = true) ∧
    base.intervalWidth 0 ≤ (base.die 0).tol.toNat ∧ issuable (.cwait false 24 26) base g0 = true ∧
    ((base.modDie 0 (fun x => { x with tol := 3 })).die 0).tol.toNat < (base.modDie 0 (fun x => { x with tol := 3 })).intervalWidth 0 ∧
    issuable (.cwait false 24 26) (base.modDie 0 (fun x => { x with tol := 3 })) g0 = true := by
  decide +kernel

theorem witness_Stamped_region : StampedAt (launch (mapped 0x40300000 base)) 0x40300000 8 :=
  ⟨rfl, range 3 0x40300000, by decide +kernel, rfl⟩

/-- A stamped store on its way to its home. -/
def stamping : State := fly (.stamped 5 100) 0x40300000 4 4 none (mapped 0x40300000 base)

/-- Where it goes. -/
def stampTarget : Target := { key := stamping.locOf 0 0x20300000, phys := some 0x20300000 }

theorem witness_Stamped_arrival :
    Due stamping 7 (flown (.stamped 5 100) 0x40300000 4 4 none) ∧ stamping.locateVia 0 (launch stamping) 0x40300000 = some stampTarget ∧
    stamping.waterline (stamping.homeOf 0 (launch stamping) stampTarget).1 (stamping.homeOf 0 (launch stamping) stampTarget).2
      (launch stamping).lineId ≤ 100 ∧ stamping.stampLines = [] := by
  unfold Due
  decide +kernel

/-- The same line with four stores pending. -/
def fullLine : StampLine :=
  { line := stampTarget.key / 128, die := (stamping.homeOf 0 (launch stamping) stampTarget).1, slice := (stamping.homeOf 0 (launch stamping) stampTarget).2,
    pending := [stamp stampTarget.key 1, stamp stampTarget.key 2, stamp stampTarget.key 3, stamp stampTarget.key 4], waiting := [], versions := [] }

theorem witness_Stamped_full :
    fullLine.line = stampTarget.key / 128 ∧ 4 ≤ fullLine.pending.length ∧
    (fullLine.pending ++ fullLine.waiting).all (fun y => ({ stamping with stampLines := [fullLine] } : State).waterline fullLine.die fullLine.slice y.firstDie ≤ y.stamp) = true := by
  decide +kernel

/-- Waterlines: one formed too lately, one to form, and one whose delivery commits a pending store. -/
theorem witness_Stamped_lines :
    (∃ f ∈ ({ base with now := 149, formedLines := [(0, 5, 100)] } : State).formedLines, f.1 = 0 ∧ 149 < f.2.2 + 50) ∧
    (({ base with now := 150, formedLines := [(0, 5, 100)] } : State).lineDies 0 ≠ [] ∧ 100 + 50 ≤ 150) ∧
    ((base.partDies 0).contains 0 = true ∧ base.canonical = true ∧ (stamp 0x3000 99).firstDie = 0 ∧ (stamp 0x3000 99).stamp < 100) := by
  decide +kernel

/-- A PMOVE's operands: an aligned page, its length, and the handle of a GX lease. -/
def moving (n : Nat) : State :=
  { regs [(22, BitVec.ofNat 32 n), (23, 0x00040001)] (mapped 0x40200000 base) with
    leases := [.mk 4 1 0 2 1 false false false 0 0 0 [80] none false] }

theorem witness_Polders :
    (∀ n ∈ [(0 : Word), 128, 0x10000].map BitVec.toNat,
      issuable (.pdisc false 24 20 22) (regs [(22, BitVec.ofNat 32 n)] (mapped 0x40200000 base)) g0 = true ∧
      ∀ j < n / 128, ((launch (mapped 0 base)).polderAt (0x40200000 + 128 * j)).isSome = true) ∧
    issuable (.pdisc false 24 20 22) (mapped 0x40200001 base) g0 = true ∧
    (issuable (.pmove false 24 20 22) (moving 0x10000) g0 = true ∧ (launch (moving 0)).polderAt 0x40200000 = some (range 2 0x40200000) ∧
      (thread (moving 0x10000)).readW 22 = 0x10000 ∧ ((thread (moving 0)).readW 23).toNat / 8 % 2 ^ 13 = 0 ∧
      (∃ y ∈ (moving 0).leases, y.ctx = 1 ∧ y.cls = 2 ∧ y.handle / 4 = ((thread (moving 0)).readW 23).toNat / 2 ^ 18 ∧
        ((thread (moving 0)).readW 23).toNat / 2 ^ 16 % 4 < y.count)) ∧
    moveBusy (moving 0x10000) 1 0x40200000 0x10000 = false ∧
    moveBusy { moving 0x10000 with flight := [flown (.move 0x10000 1 4) 0x40200000 0x10000 0 none] } 1 0x40200000 0x10000 = true := by
  decide +kernel

/-- A move to die 1 in flight, and the same with the die's polder store full. -/
def moved : State := { fly (.move 0x10000 1 4) 0x40200000 0x10000 0 (some 0) (moving 0x10000) with polderLines := [(1, 0x40200000 / 128)] }

theorem witness_Polders_events :
    Due moved 7 (flown (.move 0x10000 1 4) 0x40200000 0x10000 0 (some 0)) ∧ (launch moved).polderAt 0x40200000 = some (range 2 0x40200000) ∧
    (∀ y ∈ moved.evicted, ¬(y.ctx = 1 ∧ y.handle / 4 = 4 / 4)) ∧ pagesOf (range 2 0x40200000) 0x40200000 0x10000 ≠ [] ∧
    (∀ pg ∈ rangeFrom (0x40200000 / (range 2 0x40200000).pageBytes) (cdiv 0x10000 (range 2 0x40200000).pageBytes), moved.polderPage 1 pg = none) ∧
    (range 2 0x40200000).home ≠ 1 ∧
    moved.polderRoom (launch moved) 1 < moved.pagesHeld 1 (range 2 0x40200000) (pagesOf (range 2 0x40200000) 0x40200000 0x10000) ∧
    (launch moved).polderAt 0x40000000 = none ∧
    (∀ pg ∈ pagesOf (range 2 0x40200000) 0x40200000 0x10000, moved.polderPage 1 pg = none) := by
  unfold Due
  decide +kernel

/-- The move with room for its line on die 1, and with all of that die's ways reserved; a PMOVE of an evicted lease. -/
theorem witness_Polders_room :
    (let r := { range 2 0x40600000 with home := 1, capacity := 128 }
     let s := img (fun x => { x with regions := x.regions ++ [r] }) moved
     s.pagesHeld 1 (range 2 0x40200000) (pagesOf (range 2 0x40200000) 0x40200000 0x10000) ≤ s.polderRoom (launch s) 1) ∧
    (let r := { range 2 0x40600000 with home := 1, capacity := 64 * 2 ^ 20 }
     let s : State := { moved with launches := moved.launches ++ [{ launch moved with ctx := 2, img := { (launch moved).img with regions := [r] } }], flight := [] }
     s.polderRoom (launch s) 1 + s.polderSpare 1 <
       s.pagesHeld 1 (range 2 0x40200000) (s.pagesToMove 1 (range 2 0x40200000) (pagesOf (range 2 0x40200000) 0x40200000 0x10000) 1)) ∧
    (∃ y ∈ ({ moving 0x10000 with evicted := (moving 0x10000).leases } : State).evicted, y.ctx = 1 ∧
      y.handle / 4 = ((thread (moving 0x10000)).readW 23).toNat / 2 ^ 18) ∧
    (range 2 0x40200000).home ≠ ((thread (moving 0x10000)).readW 23).toNat % 8 := by
  decide +kernel

/-! Engines: leases of a TC, a GX, a CL, a VD and an MX site of die 0, and tiles of cluster 0. -/

/-- No booking lingers. -/
def noneKept (s : State) : Booking → Bool := fun b => bitOf 0 2 && s.bookingLingers 1 0 b

/-- A lease of one site. -/
def leaseOf (handle cls site : Nat) : Lease := .mk handle 1 0 cls 1 false false false 0 0 0 [site] none false

/-- A tile of cluster 0 that the launch holds. -/
def tile (n : Nat) (st : TileState) (readers : Nat) : Tile := .mk 0 n st false 0 64 readers 1 0 false 0 0 []

/-- An awake MX site with a recorded accumulator. -/
def matrixSite (q : List Entry) : Site :=
  { Site.dark 0 0 with power := .awake, lease := some 8, queue := q, acc0 := { Accumulator.fresh with recorded := some 0 } }

/-- Tile 0 ready, tile 1 ready, tile 2 empty, tile 3 filling. -/
def leased (s : State) : State :=
  { img (fun x => { x with tiles := 5 }) (banked s) with
    leases := [leaseOf 4 2 80, leaseOf 8 0 0, leaseOf 12 1 64, leaseOf 16 3 88, leaseOf 20 4 92],
    sites := [matrixSite []], tiles := [tile 0 .ready 0, tile 1 .ready 0, tile 2 .empty 0, tile 3 .filling 0] }

theorem witness_Leases :
    (issuable (.lease false 24 20 22) (regs [(20, 2)] base) g0 = true ∧ (launch base).matchBooking 0 2 1 (noneKept base) = none ∧
      base.dieQueue 0 = [] ∧ 1 ≤ (base.classSites 0 2).length ∧
      base.fitGrant 0 2 1 1 0 (launch base).img.opclass false = some ([80], []) ∧ (base.die 0).pqc.toNat % 2 = 0) ∧
    (launch (lch (fun l => { l with booked := [.mk 0 0 2 [81] none] }) base)).matchBooking 0 2 1 (noneKept base) = some (.mk 0 0 2 [81] none) ∧
    (State.fitsAwake 0 (launch base).img.opclass [81] base = true ∧ base.leases = []) ∧
    (8 ≤ (List.replicate 8 (leaseOf 4 2 80)).length ∧ ((user.modDie 0 (fun x => { x with pqc := 1 })).die 0).pqc.toNat % 2 = 1) ∧
    (∀ i ∈ [Instr.lrel false 24 20, .lstat false 24 20, .lwait false 24 20], issuable i (regs [(20, 4)] (leased base)) g0 = true) ∧
    ((leased base).nameTicket 1 0 4 = none ∧ (leased base).nameWord 1 0 4 = .member (leaseOf 4 2 80) 0 ∧ (leased base).nameWord 1 0 99 = .bad ∧
      ({ base with evicted := [leaseOf 4 2 80] } : State).nameWord 1 0 4 = .evicted (leaseOf 4 2 80)) ∧
    ({ base with requests := [.mk 0 5 1 0 2 1 false 0 2 0] } : State).nameTicket 1 0 (2 ^ 30 + 5) = some (.mk 0 5 1 0 2 1 false 0 2 0) := by
  decide +kernel

/-- Command blocks in granule 0: GATH and SCAT, TCOPY, TCOPYM, COLL and VDEC. -/
def blocks : List (List Nat) :=
  [[0x40000000, 0, 64, 64, 2, 0x40000100, 0, 0x40000200, 0],
   [0x40000000, 0, 512, 512 * 256 + 1, 0, 2],
   [0x40000000, 0, 512, 512 * 256 + 1, 0, 2, 0, 0, 8 * 65536, 1],
   [0x40000000, 0, 0x40000400, 0, 16, 0],
   [0x40000000, 0, 64, 16 * 65536 + 16, 2, 3 * 65536 + 4, 0]]

/-- The kernel with those blocks, block `i` named by pair 20 and a handle in word 22; tiles 4 to 6 empty. -/
def commanding (i : Nat) (h : Word) : State :=
  let s := regs [(22, h)] (mapped (Config.scratchBase + 64 * i) (leased base))
  let t := (rangeFrom 0 5).foldl (fun s k => s.writeBank 0 (64 * k) ((nth [] blocks k).flatMap (leBytes 4))) s
  { t with tiles := t.tiles ++ [tile 4 .empty 0, tile 5 .empty 0, tile 6 .empty 0] }

/-- The command that a stream reads. -/
def commandOf (s : State) (k : Stream) : Option Command := (readCommand s g0 0 ((thread s).readPair 20) k).toOption

/-- Block, handle, stream, lease. -/
def streams : List (Nat × Word × Stream × Lease) :=
  [(1, 12, .tcopy, leaseOf 12 1 64), (0, 4, .gath, leaseOf 4 2 80), (0, 4, .scat, leaseOf 4 2 80), (3, 16, .coll, leaseOf 16 3 88),
   (4, 20, .vdec, leaseOf 20 4 92)]

theorem witness_Commands :
    (streamTable.zip streams).all (fun p => issuable (p.1.1 false 24 20 22) (commanding p.2.1 p.2.2.1) g0 && p.1.2 == p.2.2.2.1 &&
      ((commandOf (commanding p.2.1 p.2.2.1) p.2.2.2.1).map (fun c => c.follow)) == some none) = true ∧
    issuable (.tcopym false 24 20 22) (commanding 2 12) g0 = true ∧
    (commandOf (commanding 2 12) .tcopym).bind (fun c => c.follow) = some (parseMatrix (8 * 65536), 2, 1) ∧
    (leased base).declaredDepth (leaseOf 4 2 80) = 0 := by
  decide +kernel

/-- Steps 3 to 6 of R204 by computation. -/
def passes (s : State) (h : Nat) (c : Command) (le : Lease) : Bool :=
  c.ranges.all (fun r => !rangeOutside (launch s) r && !rangeBad s (launch s) none 0 c.globalOnly r) && (gatedRanges s 0 (launch s) c).isEmpty &&
    s.nameHandle 1 0 h == .member le 0 && le.cls == c.cls && (c.kind.fills).all (fun f => (s.heldTile 1 0 f.1).any (fun t => t.state == .empty)) &&
    !hasRepeat (c.kind.fills.map (fun f => f.1)) && (c.kind.readers).all (fun n => (s.heldTile 1 0 n).any (fun t => t.state == .ready)) &&
    !toMemoryIllegal s 0 c.kind && !tagBusy s 1 c.kind && !needsKey s le 0 c.kind

theorem passes_spec {s : State} {h : Nat} {c : Command} {le : Lease} (p : passes s h c le = true) : CommandPasses s g0 (launch s) none h c le 0 := by
  simp only [passes, Bool.and_eq_true, List.all_eq_true, Bool.not_eq_true', beq_iff_eq] at p
  obtain ⟨⟨⟨⟨⟨⟨⟨⟨⟨hr, he⟩, hn⟩, hc⟩, hf⟩, hd⟩, hrd⟩, ht⟩, hg⟩, hk⟩ := p
  refine ⟨fun r h => (hr r h).1, .inl (List.isEmpty_iff.mp he), ?_, fun r h => (hr r h).2, hf, hd, hrd, ht, hg, hk⟩
  · simp only [handleStep, show g0.ctx = 1 from rfl, show g0.wg = 0 from rfl, hn, hc, if_true]

theorem witness_Commands_pass : streams.all (fun p =>
    (commandOf (commanding p.1 p.2.1) p.2.2.1).any (fun c => passes (commanding p.1 p.2.1) p.2.1.toNat c p.2.2.2)) = true := by
  decide +kernel

theorem witness_Commands_follow :
    (commandOf (commanding 2 12) .tcopym).any (fun c => passes (commanding 2 12) 12 c (leaseOf 12 1 64) &&
      !followIllegal (commanding 2 12) 0 c && (tileWaits c).all (fun x => ((commanding 2 12).heldTile 1 0 x.1).isSome && (commanding 2 12).tileWaitDone 0 x)) = true ∧
    accIllegal (commanding 2 12) (leaseOf 8 0 0) 0 (parseMatrix (8 * 65536)) 2 = false ∧
    (commanding 2 12).nameHandle 1 0 (parseMatrix (8 * 65536)).handle = .member (leaseOf 8 0 0) 0 := by
  decide +kernel

/-- A queue entry. -/
def entry (k : EntryKind) : Entry := .mk 3 1 0 0 0 9 k none false 0 false false false [] 0 none [] 8 0

/-- Batches: 16 unfinished, and one that has finished. -/
def batches : List Batch := List.replicate 16 (.mk 9 1 2 1 0 0 0 0)

theorem witness_FencesAndBatches :
    (∀ i ∈ [Instr.qfence false 24 20, .bwait false 24 20, .bstat false 24 20, .bseal false 24], issuable i (regs [(20, 4)] (leased base)) g0 = true) ∧
    issuable (.qfence false 24 20) (leased base) g0 = true ∧ (thread (leased base)).readPair 20 = 0 ∧
    (leased base).nameHandle 1 0 4 = .member (leaseOf 4 2 80) 0 ∧
    16 ≤ (batches.filter (fun b => decide (b.finished < b.entries))).length ∧
    issuable (.bseal false 24) (thr (fun u => { u with batches := batches }) base) g0 = true ∧
    batches.find? (fun b => b.number == 1) = some (.mk 9 1 2 1 0 0 0 0) := by
  decide +kernel

/-- A matrix control word of accumulator 0 of the site that handle 8 names: type 0, one group. -/
def mx : Word := 8 * 65536

theorem witness_Matrix :
    (issuable (.mxma false 24 20 22) (regs [(24, mx), (22, 1)] (leased base)) g0 = true ∧
      (leased base).nameHandle 1 0 (parseMatrix mx.toNat).handle = .member (leaseOf 8 0 0) 0 ∧
      (((leased base).siteOf 0 0).acc 0).recorded = some (parseMatrix mx.toNat).type ∧ (parseMatrix mx.toNat).keep = false ∧
      (leased base).heldTile 1 0 0 = some (tile 0 .ready 0) ∧ (leased base).heldTile 1 0 1 = some (tile 1 .ready 0) ∧
      (parseMatrix mx.toNat).start + (parseMatrix mx.toNat).groups ≤ Config.typeGroups 0) ∧
    (issuable (.mxma false 24 20 22) base g0 = true ∧ base.nameHandle 1 0 0 = .bad) ∧
    (issuable (.accz false 24) (regs [(24, mx)] (leased base)) g0 = true ∧ mx.toNat % 2 ^ 12 = 0) ∧
    (issuable (.accout false 24 20) (regs [(24, mx), (20, 2)] (leased base)) g0 = true ∧
      (leased base).heldTile 1 0 2 = some (tile 2 .empty 0)) := by
  decide +kernel

theorem witness_Tiles :
    (issuable (.talloc false 24) (leased base) g0 = true ∧
      ((leased base).tiles.filter (fun t => t.cluster == coreCluster 0 && t.ctx == 1)).length < (launch (leased base)).img.tiles ∧
      (∀ t ∈ (leased base).tiles, t.cluster = 0 → t.number ≠ 4) ∧ (∀ j < 4, ∃ t ∈ (leased base).tiles, t.cluster = 0 ∧ t.number = j)) ∧
    (issuable (.talloc false 24) base g0 = true ∧ (launch base).img.tiles ≤ 0) ∧
    (∀ n ∈ [(0 : Nat), 2, 3],
      issuable (.tfree false 24 20) (regs [(20, BitVec.ofNat 32 n)] (leased base)) g0 = true ∧
      issuable (.tstate false 24 20) (regs [(20, BitVec.ofNat 32 n)] (leased base)) g0 = true ∧
      issuable (.tset false 24 20) (regs [(20, BitVec.ofNat 32 n)] (leased base)) g0 = true ∧
      ((leased base).heldTile 1 0 n).isSome = true) ∧
    (leased base).heldTile 1 0 1023 = none ∧
    (∀ st ∈ [(1 : Nat), 3], issuable (.twait false 24 20 22) (regs [(20, 0), (22, BitVec.ofNat 32 st)] (leased base)) g0 = true) := by
  decide +kernel

theorem witness_TileAccesses : ∀ n ∈ [(0 : Nat), 3], ∀ i ∈ [Instr.ldt false 24 20 22, .stt false 24 20 22],
    issuable i (regs [(20, BitVec.ofNat 32 (63 * 2 ^ 16 + n)), (22, 560)] (leased base)) g0 = true ∧
    63 * 2 ^ 16 + n < 2 ^ 22 ∧ (63 * 2 ^ 16 + n) / 2 ^ 10 % 2 ^ 6 = 0 ∧ (63 * 2 ^ 16 + n) % 2 ^ 10 = n ∧ (560 ≤ 575 ∧ 560 % 16 = 0) ∧
    ((leased base).heldTile 1 0 n).isSome = true := by
  decide +kernel

/-- A loan pool of lane 0. -/
def pooled (n : Nat) (s : State) : State := s.modWg 1 0 (fun w => { w with pools := [(0, n)] })

theorem witness_RegisterLoans :
    (issuable (.rgive 240) base g0 = true ∧ (240 : Nat) + 16 ≤ (thread base).regs.length ∧ (thread base).base + 240 + 8 ≤ (thread base).regs.length) ∧
    (issuable (.rgive 248) base g0 = true ∧ (thread base).regs.length < 248 + 16) ∧
    (∀ n ∈ [(8 : Nat), 768, 776], issuable (.rclaim false 24 (BitVec.ofNat 14 n)) (pooled 767 base) g0 = true) ∧
    ((wgroup (pooled 768 base)).poolOf 0 = 768 ∧ (thread base).regs.length + 768 ≤ 1024 ∧ 1024 < (thread base).regs.length + 776 ∧
      (wgroup (pooled 767 base)).claims = [] ∧ (wgroup (pooled 767 base)).poolOf 0 < 768) ∧
    issuable (.rpool false 24) base g0 = true := by
  decide +kernel

/-- A kernel that may spawn twice from offset 0. -/
def spawning (n : Nat) (target : Word) : State :=
  thr (fun u => { u with spawned := [(0, n)] }) (regs [(20, target)] (img (fun x => { x with spawns := [.mk 0 4 2 16 0] }) base))

/-- A `.det` launch whose workgroup 0 holds the token. -/
def det (passing : Bool) (token : Nat) (s : State) : State := lch (fun l => { l with passing := passing, token := token }) (img (fun x => { x with det := true }) s)

/-- A deterministic update at its unit. -/
def update : DetUpdate := .mk 1 0 0 0 .add 5 0x2000 0x40000000 0 0

theorem witness_SpawnAndToken :
    (∀ p ∈ [((1 : Nat), (4 : Nat)), (2, 4), (0, 5), (0, 8), (0, 0)], issuable (.spawn false 24 20 26) (spawning p.1 (BitVec.ofNat 32 p.2)) g0 = true) ∧
    ((∃ e ∈ (launch (spawning 1 4)).img.spawns, e.target = 4) ∧ (4 : Nat) < (launch (spawning 1 4)).img.codeLen ∧
      ((launch (spawning 1 4)).img.spawns.filter (fun e => e.site == 0)).head? = some (.mk 0 4 2 16 0) ∧
      (((thread (spawning 1 4)).spawned.find? (fun p => p.1 == 0)).map (fun p => p.2)).getD 0 < 2 ∧
      2 ≤ (((thread (spawning 2 4)).spawned.find? (fun p => p.1 == 0)).map (fun p => p.2)).getD 0) ∧
    (∀ i ∈ [Instr.tokw false 24, .tokp false 24],
      issuable i base g0 = true ∧ issuable i (det true 0 base) g0 = true ∧ issuable i (det false 0 base) g0 = true ∧
      issuable i (lch (fun l => { l with token := 0 }) (det false 0 base)) g0 = true) ∧
    ((launch base).img.det = false ∧ (launch (det true 0 base)).img.det = true ∧ (launch (det true 0 base)).passing = true) := by
  decide +kernel

/-- A deterministic update in flight to its home's unit, with nothing or 16 updates there. -/
def detRed (full : Bool) : State :=
  let s := fly (.detRed .add 5 0) 0x40500010 4 6 none (mapped 0x40500010 (det false 0 base))
  let h := s.homeOf 0 (launch s) { key := s.locOf 0 0x20500010, phys := some 0x20500010 }
  if full then { s with detUnits := List.replicate 16 { update with die := h.1, slice := h.2 } } else s

theorem witness_SpawnAndToken_events :
    (∀ f ∈ [false, true], Due (detRed f) 7 (flown (.detRed .add 5 0) 0x40500010 4 6 none) ∧
      (launch (detRed f)).polderAt 0x40500010 = none ∧
      (detRed f).locateVia 0 (launch (detRed f)) 0x40500010 = some { key := (detRed f).locOf 0 0x20500010, phys := some 0x20500010 }) ∧
    (det true 0 { base with detUnits := [update] }).canonical = true ∧
    ({ base with detUnits := [update] } : State).detUnits.filter (fun u => u.ctx == 1 && u.wg == 0) = [update] ∧
    (wgroup base).saved = .running ∧ (wgroup base).redQueue = [] ∧ base.flight = [] ∧ base.sites = [] ∧ (launch (det false 3 base)).token ≠ 0 := by
  unfold Due
  decide +kernel

theorem witness_PrivilegedRegisters :
    (∀ m ∈ [(0x2000 : Nat), 0x2100, 0x2101, 0x2102, 0x2103, 0x2104, 0x2108, 0x2200, 0x2201, 0x2202, 0x2203, 0x2210, 0x2273],
      issuable (.mfsr false 24 (BitVec.ofNat 14 m)) base g0 = true) ∧
    (∀ m ∈ [(0x2000 : Nat), 0x2011, 0x2100, 0x2101, 0x2102, 0x2108, 0x2200, 0x2203, 0x2210], issuable (.mtsr false 24 (BitVec.ofNat 14 m)) base g0 = true) ∧
    (base.dies.find? (fun y => y.id == 0)).isSome = true := by
  decide +kernel

/-- A die whose %pqc is as given. -/
def quiesced (pqc : Word) (at_ : Option Nat) (s : State) : State := s.modDie 0 (fun x => { x with pqc := pqc, quiesceAt := at_ })

theorem witness_PartitionRegisters :
    ((quiesced 0x100 none base).dies.find? (fun y => y.id == 0) = some ((quiesced 0x100 none base).die 0) ∧
      bitOf ((quiesced 0x100 none base).die 0).pqc.toNat 8 = true ∧ pidLegal 0x80 = true ∧ pidLegal 0xC0 = false ∧
      bitOf (base.die 0).pqc.toNat 8 = false) ∧
    (∀ r ∈ [(0 : Nat), 1, 2, 3, 4], ∀ v ∈ [(0 : Nat), 1, 2, 0x200],
      Due (fly (.regWrite (0x2200 + 16 * 0 + r) (BitVec.ofNat 32 v)) 0 0 0 none base) 7 (flown (.regWrite (0x2200 + 16 * 0 + r) (BitVec.ofNat 32 v)) 0 0 0 none)) ∧
    (((quiesced 1 (some 10) base).die 0).quiesceAt = some 10 ∧ (quiesced 1 (some 10) { base with wgs := [] }).busyIds 0 = [] ∧
      (quiesced 1 (some 10) user).busyIds 0 ≠ []) ∧
    (∀ r ∈ [(0 : Nat), 1, 2, 3, 5], Due (fly (.regRead (0x2200 + 16 * 0 + r)) 0 0 0 (some 0) base) 7 (flown (.regRead (0x2200 + 16 * 0 + r)) 0 0 0 (some 0))) ∧
    Due (fly (.energy 5 6) 0 0 0 (some 0) base) 7 (flown (.energy 5 6) 0 0 0 (some 0)) := by
  unfold Due
  decide +kernel

/-- Translations of contexts 1 and 2 in cluster 0. -/
def translated : State := { base with tlb := [.mk 0 1 4 16 0x40000 0, .mk 0 2 4 16 0x50000 0] }

theorem witness_ShootdownReturnAndHalt :
    (∀ w ∈ [(1 : Nat), 0x10001, 0x20000, 0x3FFFF, 0x40000],
      issuable (.tlbi false 24 20 22) (regs [(20, 0x40000), (22, BitVec.ofNat 32 w)] translated) g0 = true) ∧
    (issuable .eret (thr (fun u => { u with epc := 4, ecause := 0x80000001 }) base) g0 = true ∧ 2 ^ 31 ≤ (0x80000001 : Word).toNat) ∧
    issuable .eret base g0 = true ∧ (thread base).ecause.toNat < 2 ^ 31 ∧
    issuable .eret (thr (fun u => { u with epc := 2, ecause := 0x80000001 }) base) g0 = true ∧ issuable (.halt 20) base g0 = true := by
  decide +kernel

/-- A second workgroup, 5, in the same launch, saved or not. -/
def second (sv : SaveCause) (s : State) : State := { s with wgs := s.wgs ++ [{ placedWg with wg := 5, saved := sv }] }

/-- The operand pair of CTXSAV and CTXRES. -/
def naming (ctx wg : Nat) (s : State) : State := regs [(20, BitVec.ofNat 32 ctx), (21, BitVec.ofNat 32 wg)] s

theorem witness_Contexts :
    (∀ p ∈ [((1 : Nat), (0 : Nat)), (1, 5), (1, 9), (2, 0)],
      issuable (.ctxsav false 24 20) (naming p.1 p.2 (second .running base)) g0 = true ∧
      issuable (.ctxres false 24 20 22) (regs [(22, 8)] (naming p.1 p.2 (second .ctxsav base))) g0 = true) ∧
    base.partWg 0 1 9 = none ∧ base.partWg 0 2 0 = none ∧
    ((second .running base).partWg 0 1 5 = some { placedWg with wg := 5 } ∧ AtRest (second .running base) { placedWg with wg := 5 }) ∧
    (∀ sv ∈ [SaveCause.device, .operator, .ctxsav, .brk], (second sv base).partWg 0 1 5 = some { placedWg with wg := 5, saved := sv }) ∧
    ((second .ctxsav base).resumeCore (launch base) { placedWg with wg := 5, saved := .ctxsav } [0] = none ∧
      (launch base).reservedCores.all (fun c => ((second .ctxsav base).resumeSlot (launch base) { placedWg with wg := 5, saved := .ctxsav } c).isNone) = true) := by
  unfold AtRest
  decide +kernel

/-- The launch with room for a second workgroup. -/
def roomy (s : State) : State :=
  lch (fun l => { l with quote := { l.quote with perCore := 2 }, areas := [placedBase + 0x30000, placedBase + 0x38000] }) s

theorem witness_Contexts_room :
    (second .ctxsav (roomy base)).resumeCore (launch (roomy base)) { placedWg with wg := 5, saved := .ctxsav } (base.partDies 0) = some 0 ∧
    (launch (roomy base)).img.fuse = false ∧ ((roomy base).coreOf 0).fused = false ∧
    (second .ctxsav (roomy base)).resumeSlot (launch (roomy base)) { placedWg with wg := 5, saved := .ctxsav } 0 = some 1 := by
  decide +kernel

theorem witness_Services :
    issuable (.sysc false 0x1FFFFF) base g0 = true ∧ (launch base).svcEntries ≤ 0 ∧
    (issuable (.sysc false 7) (lch (fun l => { l with svcQueue := 0x180000, svcEntries := 2, svcProduced := 1 }) base) g0 = true ∧
      ((1 : Nat) + 2 ^ 32 - base.readNat 0 0x180004 4) % 2 ^ 32 < 2) ∧
    (AtRest base (wgroup base) ∧ (launch (lch (fun l => { l with debug := true }) base)).debug = true) := by
  unfold AtRest
  decide +kernel

/-! Rows without a word. -/

/-- A parked thread: its results, and what its park does. -/
def parking (rs : List Result) (act : ParkAct) : State := thr (fun u => { u with results := rs, parkAct := act }) (rest .parked base)

theorem witness_ParksAndWaits :
    (∀ act ∈ [ParkAct.none, .window 8, .exit], Resident (parking [.mk 0 [24] (some [some 7])] act) 1 0 0 (wgroup (parking [.mk 0 [24] (some [some 7])] act))
      (thread (parking [.mk 0 [24] (some [some 7])] act)) ∧ (thread (parking [.mk 0 [24] (some [some 7])] act)).status = .parked) ∧
    (∃ r ∈ (thread (parking [.mk 0 [24] none] .none)).results, r.value = none) ∧
    (base.cluster (coreCluster 0)).gate = .active := by
  unfold Resident
  decide +kernel

/-- A thread asleep, with a batch of 2 entries of which 1 has finished. -/
def asleep (w : WaitKind) (deadline now : Nat) (s : State) : State :=
  { thr (fun u => { u with deadline := deadline, waitSlot := 0, results := [.mk 0 [24] none], nextSlot := 1, batches := [.mk 9 1 2 1 0 0 0 0], watches := [.mk 5 .written] })
      (rest (.asleep w) s) with now := now }

/-- Asleep at a barrier whose phase has not advanced, at its deadline. -/
def arriving : State := thr (fun u => { u with arrived := [{ level := 0, inst := 0, id := 3, phase := 0, flight := none }] }) (asleep (.barrier 0 3) 9 9 base)

theorem witness_ParksAndWaits_waits :
    (asleep (.cwait 4) 1 0 { base with waterlines := [.mk 0 64 0 5] }).waterline 0 64 (launch base).lineId = 5 ∧
    (thread (asleep (.bwait 2) 9 0 base)).unfinished ≤ 2 ∧ 0 < (thread (asleep (.bwait 0) 9 0 base)).unfinished ∧
    (asleep (.bwait 0) 9 8 base).dieTime 0 < (thread (asleep (.bwait 0) 9 8 base)).deadline ∧
    (thread (asleep (.bwait 0) 9 9 base)).deadline = (asleep (.bwait 0) 9 9 base).dieTime 0 ∧
    (thread (asleep (.bwait 0) 9 10 base)).deadline < (asleep (.bwait 0) 9 10 base).dieTime 0 ∧ (launch base).spansPod = false ∧
    ((launch (det false 0 base)).img.det = true ∧ (launch (det false 0 base)).token = 0 ∧ (launch (det true 0 base)).passing = true) ∧
    ((leased base).tileOf 0 0).map (fun x => x.state.num) = some 3 ∧
    ((leased base).nameWord 1 0 8 = .member (leaseOf 8 0 0) 0 ∧ (∀ i ∈ (leaseOf 8 0 0).sites, ((leased base).siteOf 0 i).power = .awake)) ∧
    (thread (asleep (.mwait 5) 9 0 base)).watches.find? (fun y => y.line == 5) = some (.mk 5 .written) ∧
    (arriving.barrierDone 1 0 (thread arriving) 0 3 = false ∧ (thread arriving).deadline ≤ arriving.dieTime 0 ∧ (thread arriving).status = .asleep (.barrier 0 3)) ∧
    ((asleep (.bwait 0) 9 9 base).regdlFirst (wgroup arriving) (thread (asleep (.bwait 0) 9 9 base)) = false ∧
      (asleep (.bwait 0) 9 9 base).limitOf (wgroup arriving) (thread (asleep (.bwait 0) 9 9 base)) ≠ 0 ∧
      (img (fun x => { x with bounds := [] }) (asleep (.bwait 0) 9 9 base)).limitOf (wgroup arriving) (thread (asleep (.bwait 0) 9 9 base)) = 0 ∧
      (∀ d ∈ base.partDies (launch base).firstDie, (base.die d).clock.lostAt = none)) ∧
    (∃ x, (launch (mapped 0x40400000 base)).sluiceOf 0x40400000 = some x ∧
      0 ≤ (mapped 0x40400000 base).sluiceCount (probe (wgroup base) (thread base) 0x40400000) (launch (mapped 0x40400000 base)) x.2) := by
  decide +kernel

/-- The launch before its grid's workgroup has been placed. -/
def undispatched : State := { lch (fun l => { l with pending := [(0, 1)], img := { l.img with scratch := 2048 } }) base with wgs := [], group := none }

theorem witness_Workgroups :
    (undispatched.wgOf 1 0 = none ∧ (launch undispatched).pending = [(0, 1)] ∧ (launch undispatched).img.det = false ∧
      (launch undispatched).stage = .running ∧ (launch undispatched).reservedCores.contains 0 = true ∧
      (undispatched.cluster 0).gate = .active ∧ undispatched.takesWork 0 true = true ∧ undispatched.freeSlot (launch undispatched) 0 = some 0 ∧
      undispatched.freeArea (launch undispatched) = some 0 ∧ undispatched.granuleRun 0 (launch undispatched).img.granules = some 0 ∧
      undispatched.admits 0 ((((launch undispatched).gridPlan 0).threads.zip (rangeFrom 0 1)).map (fun x => (x.2 % 32, x.1.2.1))) (fun _ => 0)
        (launch undispatched).img.granules (Config.energyWeight (launch undispatched).img.energy) = true ∧
      undispatched.handoverBlocked 0 (rangeFrom 0 (launch undispatched).img.granules) = false) ∧
    ((∃ u ∈ (wgroup base).threads, u.status ≠ .exited) ∧ (∀ u ∈ (wgroup (rest .exited base)).threads, u.status = .exited) ∧
      (base.coreOf 0).fused = false ∧ base.flight = [] ∧ base.leases = []) ∧
    (AtRest (rest .ready base) (wgroup (rest .ready base)) ∧ (wgroup base).saved = .running) ∧
    ((second .device (roomy base)).takesWork 0 (launch base).supervisor = true ∧ (launch base).img.fuse = false ∧
      (launch (roomy base)).reservedCores.contains 0 = true ∧ (placedWg.savedLeases = []) ∧ (base.partDies (launch base).firstDie).contains 0 = true ∧
      (second .device (roomy base)).resumeSlot (launch (roomy base)) { placedWg with wg := 5, saved := .device } 0 = some 1) := by
  unfold AtRest
  decide +kernel

/-- A continuation record in flight, with a bin of records open. -/
def recording (n : Nat) : State :=
  let s := fly (.record 4 [1, 2, 3, 4, 5, 6] 0) 0 0 0 none base
  if n = 0 then s else s.modCluster 0 (fun c => { c with bins := [.mk 4 1 0 (List.replicate n [0, 0, 0, 0, 0, 0]) (List.replicate n 0)] })

theorem witness_Continuations :
    (∀ n ∈ [(0 : Nat), 30, 31], Due (recording n) 7 (flown (.record 4 [1, 2, 3, 4, 5, 6] 0) 0 0 0 none) ∧
      (recording n).clusters.find? (fun x => x.id == 0) = some ((recording n).cluster 0)) ∧
    ((launch (recording 0)).stopped = false ∧ (launch (det false 0 (recording 0))).img.det = true) ∧
    (((recording 30).cluster 0).bins[0]?).isSome = true ∧
    ((launch (lch (fun l => { l with kept := [.mk 0 0 0 0 4 [1, 2, 3, 4, 5, 6]] }) (det false 0 { base with wgs := [] }))).kept ≠ [] ∧
      (launch base).pending = [] ∧ (launch base).formed = [] ∧ (launch base).kept = [] ∧ base.mayReport (launch base).quote.clusterMask = true) := by
  unfold Due
  decide +kernel

/-- An access in flight to the mapped page or to the bank. -/
def access (op : AccOp) (addr size scope : Nat) (slot : Option Nat) : State := fly op addr size scope slot (banked (mapped addr base))

/-- An earlier access of the same thread to the same place. -/
def earlier (s : State) : State := { s with flight := { flown (.store 1) 0x40000010 4 0 none with id := 6 } :: s.flight }

/-- Where 0x40000010 lies. -/
def home : Target := { key := base.locOf 0 0x20000010, phys := some 0x20000010 }

theorem witness_LoadsAndStoresPerform :
    (∀ p ∈ [(AccOp.load false 1, some 0), (.load true 1, some 0), (.store 9, none)],
      Due (access p.1 0x40000010 4 0 p.2) 7 (flown p.1 0x40000010 4 0 p.2) ∧
      Due (access p.1 (Config.scratchBase + 16) 4 0 p.2) 7 (flown p.1 (Config.scratchBase + 16) 4 0 p.2) ∧
      (access p.1 (Config.scratchBase + 16) 4 0 p.2).granulesFresh 1 0 (Config.scratchBase + 16) 4 [3] = true ∧
      (access p.1 0x40000010 4 0 p.2).locateVia 0 (launch (access p.1 0x40000010 4 0 p.2)) 0x40000010 = some home ∧
      (access p.1 0x40000010 4 0 p.2).canonical = true) ∧
    (earlier (access (.load false 1) 0x40000010 4 0 (some 0))).blocked (flown (.load false 1) 0x40000010 4 0 (some 0)) = true ∧
    (base.coreOf 0).l1 = [] ∧ (base.coreOf 0).fused = false ∧ (∀ b ∈ (access (.load false 1) 0x40000010 4 0 (some 0)).flight, b.taken = 0) ∧ home.key % 128 = 0x10 ∧
    (access (.store 9) 0x40000010 4 0 none).homeBlocked (flown (.store 9) 0x40000010 4 0 none) = false := by
  unfold Due
  decide +kernel

theorem witness_AtomicsPerform :
    (∀ p ∈ [(AccOp.atomic .add 5 0, some 0), (.red .add 5, none)],
      Due (access p.1 0x40000010 4 6 p.2) 7 (flown p.1 0x40000010 4 6 p.2) ∧
      Due (access p.1 (Config.scratchBase + 16) 4 0 p.2) 7 (flown p.1 (Config.scratchBase + 16) 4 0 p.2) ∧
      (access p.1 0x40000010 4 6 p.2).homeBlocked (flown p.1 0x40000010 4 6 p.2) = false ∧
      (access p.1 0x40000010 4 6 p.2).takenMeets (flown p.1 0x40000010 4 6 p.2) = false ∧ isPcie 0x20000010 = false ∧
      (access p.1 0x40000010 4 6 p.2).canonical = true) := by
  unfold Due
  decide +kernel

/-- The site of die 0 with an entry at its head. -/
def headed (e : Entry) (s : State) : State := { leased s with sites := [matrixSite [e]], group := none }

theorem witness_EngineSteps :
    (∀ n ∈ [(0 : Nat), 2, 3], ((leased base).tileOf 0 n).isSome = true) ∧
    (({ leased base with tiles := [{ tile 3 .filling 0 with landed := true }] } : State).tileOf 0 3).map (fun t => t.landed) = some true ∧
    (({ leased base with tiles := [{ tile 3 .draining 1 with finishing := 1 }] } : State).tileOf 0 3).map (fun t => t.finishing) = some 1 ∧
    (∀ k ∈ [EntryKind.accz 0 1, .mxma (parseMatrix mx.toNat) 0 1, .gather (.mk 0x40000000 64 64 2 0x40000100 0x40000200 false 0 0)],
      ((headed (entry k) base).siteOf 0 0).queue.head? = some (entry k) ∧ ((headed (entry k) base).siteOf 0 0).power = .awake ∧
      (headed (entry k) base).tilesReady (entry k) = true ∧ ((headed (entry k) base).launch 1).isSome = true) ∧
    ((parseMatrix mx.toNat).groups = 1 ∧ (leased base).tileOf 0 0 = some (tile 0 .ready 0) ∧ (leased base).tileOf 0 1 = some (tile 1 .ready 0)) ∧
    (thread (thr (fun u => { u with batches := [.mk 9 1 2 1 0 0 0 0] }) base)).batches = [.mk 9 1 2 1 0 0 0 0] := by
  decide +kernel

/-- A queued request at die 0. -/
def requested (count : Nat) : State := { base with requests := [.mk 0 5 1 0 2 count false 0 2 0] }

/-- MX site 0 in a power state. -/
def powered (p : SitePower) (now : Nat) : State := { base with sites := [{ Site.dark 0 0 with power := p }], now := now }

theorem witness_SitesAndLeases :
    ((requested 1).dieQueue 0).head? = some (.mk 0 5 1 0 2 1 false 0 2 0) ∧ (requested 1).fitGrant 0 2 1 1 0 2 false = some ([80], []) ∧
    (requested 9).fitGrant 0 2 9 1 0 2 false = none ∧
    (∀ now ∈ [(9 : Nat), 10], ((powered (.waking 10) now).siteOf 0 0).power = .waking 10 ∧ ((powered (.lingering 10) now).siteOf 0 0).power = .lingering 10) ∧
    base.dies.any (fun x => x.id == 0) = true ∧
    ((leased base).leases.find? (fun l => l.die == 0 && l.sites.contains 80) = some (leaseOf 4 2 80) ∧
      (∀ j ∈ (leaseOf 4 2 80).sites, ((leased base).siteOf 0 j).queue = []) ∧ (launch (leased base)).debug = false) ∧
    ((launch (lch (fun l => { l with nrank := 2 }) base)).rank ≠ 1 ∧ 1 < (launch (lch (fun l => { l with nrank := 2 }) base)).nrank ∧ base.contributions = []) := by
  decide +kernel

/-! Packets: one privileged ring in host-die memory, its head packet in slot `t` of its segment. -/

/-- The ring. -/
def ring (t : Nat) : Ring := .mk (Config.systemBase + 0x1000) 1 1000 true 1 t (Config.systemBase + 0x2000) 0 none false none

/-- The ring with a packet of the given words. -/
def ringed (t : Nat) (ws : List Nat) : State :=
  ({ base with rings := [ring t], booted := true, group := none }.writeNat 0 (Config.systemBase + 0x1000) 8 (t + 1)).writeWords 0 (ring t).slotAddr ws

/-- A header: type, step and flags. -/
def header (type step flags : Nat) : Nat := type * 2 ^ 24 + 2 ^ 20 + step * 2 ^ 18 + flags

/-- The words of the shared layout: a wait for 5 at 0x200000 within 9 ns, two words written at 0x200100, a count at 0x200200. -/
def shared (type step flags : Nat) : List Nat :=
  [header type step flags, 2, 0x200000, 0, 5, 0, 9, 0, 0x200100, 0, 0x200200, 0, 77, 78, 0, 0]

/-- A COPY of 8 bytes. -/
def copying (step : Nat) : List Nat := [header 8 step 0, 0, 0x200000, 0, 0x200100, 0, 8, 0, 0, 0, 0x200200, 0, 0, 0, 0, 0]

theorem witness_PacketSteps :
    (∀ p ∈ [((4 : Nat), (0 : Nat), (2 : Nat)), (5, 0, 4), (6, 0, 1), (7, 0, 6), (7, 1, 6)],
      StepDue (ringed 0 (shared p.1 p.2.1 p.2.2)) 0 p.1 p.2.1 (ring 0) ∧ (ringed 0 (shared p.1 p.2.1 p.2.2)).packetFlags (ring 0) = p.2.2) ∧
    (∀ k ∈ [(0 : Nat), 1], StepDue (ringed 0 (copying k)) 0 8 k (ring 0)) ∧
    (ringed 0 (shared 6 0 1)).readNat 0 0x200000 8 < 5 ∧
    (5 ≤ ((ringed 0 (shared 6 0 1)).writeNat 0 0x200000 8 5).readNat 0 0x200000 8 ∧ StepDue ((ringed 0 (shared 6 0 1)).writeNat 0 0x200000 8 5) 0 6 0 (ring 0)) ∧
    Heads (ringed 62 [header 10 0 0, 0, 0x300000, 0]) 0 10 (ring 62) ∧ (ringed 63 [header 10 0 0, 0, 0x300000, 0]).turn 0 10 = some (ring 63) ∧
    ((ringed 0 []).booted = true ∧ (ringed 0 []).rings.length < 64 ∧ (Config.systemBase + 64) % 64 = 0 ∧ inHost (Config.systemBase + 64) = true ∧ inHost 0x200000 = false) ∧
    (∀ i < 4, (ringed 0 (shared 4 0 2)).pagesAt (0x200100 + 4 * i) = []) := by
  unfold StepDue Heads
  decide +kernel

/-- The wait, blocked until its limit at 9. -/
def waiting (now : Nat) : State := { ringed 0 (shared 6 0 1) with rings := [{ ring 0 with waitUntil := some 9, blocked := true }], now := now }

theorem witness_PacketSteps_wait : StepDue (waiting 9) 0 6 0 { ring 0 with waitUntil := some 9, blocked := true } ∧
    StepDue ((waiting 0).writeNat 0 0x200000 8 5) 0 6 0 { ring 0 with waitUntil := some 9, blocked := true } := by
  unfold StepDue Heads
  decide +kernel

/-- A PARTITION of dies 0 and 1, and of an illegal form. -/
def parting (pid : Nat) : State := ringed 0 [header 9 0 0, 3, pid, 15, 1, 0, 0x200000, 0]

/-- A SURVEY with the flag of a supervisor launch on an ordinary ring. -/
def unprivileged : State := { ringed 0 [header 1 0 4] with rings := [{ ring 0 with privileged := false }] }

theorem witness_Scheduling :
    ((ringed 0 (shared 4 0 4)).packetFault (ring 0) = some 3 ∧ (ringed 0 (shared 4 0 4)).servedRing = some 0 ∧
      (ringed 0 (shared 4 0 2)).packetFault (ring 0) = none) ∧
    ((ringed 0 [0]).packetType (ring 0) = 0 ∧ (ringed 0 [0]).ringPair (ring 0) 0 % 2 ^ 32 ≠ 0 ∧ (ringed 0 (shared 4 0 2)).packetType (ring 0) ≠ 0) ∧
    ({ ringed 0 (shared 4 0 2) with inService := some 0, sliceEnd := 5, now := 5 } : State).packetStep (ring 0) = 0 ∧
    (Heads (parting 0) 0 9 (ring 0) ∧ (parting 0).partitionLegal (ring 0) = true ∧ (parting 0).packetFlags (ring 0) = 0) ∧
    (Heads (parting 1) 0 9 (ring 0) ∧ (parting 1).partitionLegal (ring 0) = false) ∧
    (unprivileged.packetFault { ring 0 with privileged := false } = some 4 ∧ unprivileged.servedRing = some 0 ∧
      unprivileged.packetType { ring 0 with privileged := false } = 1) := by
  unfold Heads
  decide +kernel

/-- The launch under quotation 7, open until 8, that nobody has taken, and a packet. -/
def quoting (st : Stage) (ws : List Nat) : State :=
  lch (fun l => { l with stage := st, quoteId := 7, quote := { l.quote with deadline := 8 } }) (ringed 0 ws)

theorem witness_QuotationPackets :
    Heads (ringed 0 [header 1 0 0]) 0 1 (ring 0) ∧
    (Heads (quoting .quoted [header 2 0 0, 7, 0x210000, 0, 4, 4, 0x220000, 0, 0x230000, 0, 0x240000, 0, 0x150000, 0, 0, 0]) 0 2 (ring 0) ∧
      ((quoting .quoted [header 2 0 0, 7, 0x210000, 0, 4, 4, 0x220000, 0, 0x230000, 0, 0x240000, 0, 0x150000, 0, 0, 0]).openQuote 7).isSome = true ∧
      (quoting .quoted [header 2 0 0, 7, 0x210000, 0, 4, 4, 0x220000, 0, 0x230000, 0, 0x240000, 0, 0x150000, 0, 0, 0]).openQuote 8 = none) ∧
    Heads (quoting .quoted [header 3 0 0, 7]) 0 3 (ring 0) ∧
    (4 : Nat) ∉ ({ base with surveys := [1] } : State).surveys.take 4 := by
  unfold Heads
  decide +kernel

/-- No permit left on the link of cluster 0, in either direction. -/
def spent (s : State) : State := s.modCluster 0 (fun c => { c with sent := 8, reported := 8 })

/-- An ACCEPT of quotation 7. -/
def accepting : State := quoting .quoted [header 2 0 0, 7, 0x210000, 0, 4, 4, 0x220000, 0, 0x230000, 0, 0x240000, 0, 0x150000, 0, 0, 0]

theorem witness_QuotationPackets_accept :
    (match accepting.openQuote 7 with
      | none => false
      | some l => decide (accepting.schedulerTime ≤ l.quote.deadline) && !accepting.noPool l (ring 0) && !l.priority &&
        accepting.maySend l.quote.clusterMask && !(spent accepting).maySend l.quote.clusterMask) = true ∧
    (∀ n ∈ [(4 : Nat), 5], (match ({ accepting with now := n } : State).launches.find? (fun x => x.quoteId == 7 && x.stage == .quoted && x.holds) with
      | none => false
      | some l => l.quote.deadline == 8 && ({ accepting with now := n } : State).schedulerTime == n + 4) = true) := by
  decide +kernel

/-- A launch being surveyed. -/
def surveying : State :=
  { base with surveys := [7], launches := base.launches.map (fun l => { l with stage := .surveying, quoteId := 7, imageAddr := 0x400000, recordAddr := 0x500000 }) }

theorem witness_QuotationPackets_survey :
    (surveying.launches.find? (fun x => x.quoteId == 7 && x.stage == .surveying)).isSome = true ∧ (7 : Nat) ∈ surveying.surveys.take 4 ∧
    (match ({ surveying with surveys := [] } : State).surveyLaunch { placedLaunch with stage := .surveying, quoteId := 7, imageAddr := 0x400000, recordAddr := 0x500000 } with
      | .error e => e.1 == 2
      | .ok _ => false) = true := by
  decide +kernel

/-- A kernel image whose one instruction is EXIT: the header of R299, the code, one role of one thread of 16 registers. -/
def imageWords : List Nat :=
  [0x4B483921, 0x10000, 0, 0x20, 1, 0, 0, 0, 128, 4, 0, 136, 0, 136, 0, 136, 168, 0, 168, 0, 168, 0, 168, 0, 0, 0, 0, 0, 0, 0, 0, 0, 0x21600000, 0, 1, 16]

theorem witness_QuotationPackets_surveyed :
    (match (({ base with wgs := [] } : State).writeWords 0 0x400000 imageWords).surveyLaunch
        { placedLaunch with stage := .surveying, quoteId := 7, imageAddr := 0x400000, recordAddr := 0x500000, grid := 1 } with
      | .error _ => false
      | .ok l => l.quote.cores == 1 && l.quote.status == 0) = true := by
  decide +kernel

/-- The launch in residency, with or without a missing page. -/
def resident (missing : List Nat) : State := lch (fun l => { l with stage := .residency, missing := missing }) { mapped 0 base with wgs := [], group := none }

theorem witness_LaunchLife :
    ((launch (resident [0x4000])).missing = [0x4000] ∧ ((resident [0x4000]).walk 0 (launch (resident [])) (0x4000 * 2 ^ 16)).isSome = true ∧
      (∀ y ∈ (resident [0x4000]).launches, y.ctx = 1 → y.outcome ≠ 5)) ∧
    ((launch (resident [])).stage = .residency ∧ (launch (resident [])).quote.earliest ≤ (resident []).schedulerTime ∧
      (∀ r ∈ (launch (img (fun x => { x with regions := [] }) (resident []))).img.regions, r.kind ≠ 4)) ∧
    (({ base with wgs := [] } : State).launchDone (launch base) = true ∧ base.launchDone (launch base) = false) ∧
    ((resident []).maySend (launch (resident [])).quote.clusterMask = true ∧ (spent (resident [])).maySend (launch (resident [])).quote.clusterMask = false ∧
      base.mayReport (launch base).quote.clusterMask = true ∧ (spent base).mayReport (launch base).quote.clusterMask = false ∧
      (launch (resident [])).outcome ≠ 5 ∧ (∀ x ∈ (resident []).launches, x.quoteId = (launch (resident [])).quoteId → x = launch (resident []))) ∧
    (0x4000 ∈ (launch (lch (fun l => { l with asked := [0x4000] }) (resident [0x4000]))).asked ∧
      (resident [0x4000]).walk 0 (launch (resident [])) 0 = none) ∧
    (({ base with account := [[1]] } : State).accountUsed < base.accountCap ∧
      base.accountCap ≤ ({ base with account := [[1]], accountProduced := 64 } : State).accountUsed) := by
  decide +kernel

/-- Permits of cluster 0's link (R335): a launch that may start, one that may end, one that forms its next generation. -/
theorem witness_SendPermits :
    (base.clusters.any (fun y => y.id == 0) = true ∧ bitOf (launch base).quote.clusterMask 0 = true ∧ bitOf (launch base).quote.clusterMask 1 = false) ∧
    (after (.launchStart 1) (resident [])).launches ≠ (resident []).launches ∧
    (after (.launchComplete 1) { base with wgs := [] }).launches ≠ base.launches ∧
    (after (.detGenerationForm 1) (lch (fun l => { l with kept := [.mk 0 0 0 0 4 [1, 2, 3, 4, 5, 6]] }) (det false 0 { base with wgs := [] }))).launches ≠ base.launches ∧
    ((spent base).clusters.find? (fun y => y.id == 0)).map (fun c => (c.sent, c.reported)) = some (8, 8) ∧
    (∀ w ∈ base.wgs, w.claims = [] ∧ w.stuckAt = none) ∧ 0x83 ∈ (spent base).busyIds 0 ∧ 0x83 ∉ base.busyIds 0 := by
  decide +kernel

/-- Cluster 0 in a gate state. -/
def gated (g : Gate) (now : Nat) : State := { base.modCluster 0 (fun c => { c with gate := g }) with now := now, wgs := [], launches := [] }

theorem witness_PowerStates :
    (∀ g ∈ [Gate.idle 10, .gating 10, .waking 10], ((gated g 0).clusters.find? (fun y => y.id == 0)).map (fun c => c.gate) = some g) ∧
    (gated (.idle 10) 50010).clusterUsed 0 = false ∧ base.clusterUsed 0 = true ∧ (gated (.idle 10) 0).leases = [] ∧
    ((base.die 0).margin = .margining ∧ (base.modDie 0 (fun x => { x with margin := .held })).dies.find? (fun y => y.id == 0) =
      some { base.die 0 with margin := .held }) ∧
    ((base.die 0).marginErrors + 9 < 10 ∧ 10 ≤ (base.die 0).marginErrors + 10 ∧ 10 ^ 13 ≤ (base.die 0).marginReads + 10 ^ 13 ∧ (base.die 0).tripped = false) ∧
    ((launch base).holds = true ∧ bitOf (launch base).quote.clusterMask 0 = true) := by
  decide +kernel

theorem witness_Emergencies :
    ((gated (.idle 0) 0).wgs = [] ∧ (gated (.idle 0) 0).clusters.any (fun c => c.id == 2 * 0 + 1) = true ∧ (base.die 0).tripped = false ∧
      (base.die 0).thermalRow = 0) ∧
    ((wgroup base).threads = [thread base] ∧ (thread base).live = true ∧ (thread base).status = .ready ∧ (thread base).results = [] ∧
      (launch (lch (fun l => { l with cont := true }) base)).cont = true) ∧
    (base.tierOf 0 0x200000).isSome = true ∧ base.tierOf 0 (2 ^ 52) = none ∧ base.badCheck = [] ∧
    (({ base with badCheck := [(base.locOf 0 0x200000 / 128, 5)] } : State).rangeMismatch 0x200000 4).isSome = true := by
  decide +kernel

/-- An image that passes, and one that does not. -/
def firmware (ok : Bool) : FirmwareImage := .mk 1 0 ok true true false

theorem witness_ManagementAndLinks :
    (base.group = some g0 ∧ (base.dies.find? (fun y => y.id == 0)).isSome = true ∧ (base.die 0).clock.lostAt = none) ∧
    ((3 : Nat) ∉ base.retraining ∧ (∃ v ∈ linkVersions 0, v ≤ 255) ∧ (∀ v ∈ linkVersions 0, 0 < v)) ∧
    (imagePasses (firmware true) 0 = true ∧ imagePasses (firmware false) 0 = false ∧ imagePasses (base.nextImage.getD base.firmware) base.fusedMin = true) ∧
    (bitOf ((quiesced 0x100 none base).die 0).pqc.toNat 8 = true ∧ (base.cluster 0).spares = 4 ∧ (5 : Nat) ∉ (base.die 0).deadSites) := by
  decide +kernel

/-- A state that steps: the kernel with ADD in its code section and its core's turn; and the same with that block bad. -/
theorem witness_StepRunsDecoded :
    (let s := State.reset.withFetchWord 32 0x8000C284
     s.agenda = [.issue 0] ∧ (s.noteStuck.pick 0).map (fun e => e.pc) = some 0 ∧ (s.noteStuck.pick 0).map (s.badCode 0) = some none ∧
     s.badCheck = [] ∧ (∀ w ∈ s.wgs, w.claims = [] ∧ w.stuckAt = none) ∧
     (s.launch 1).map (fun l => decode ((List.range 4).map (fun j => Cells.get s.mem (s.locOf l.firstDie (l.imageAddr + l.img.codeOff + 0 + j))))) =
        some (.ok (.add true 3 5 4, []))) ∧
    (let s : State := { State.reset.withFetchWord 32 0x8000C284 with badCheck := [(State.reset.locOf 0 placedBase / 128, 7)] }
     s.agenda = [.issue 0] ∧ (s.noteStuck.pick 0).map (fun e => e.pc) = some 0 ∧
     s.badBlock (s.locOf 0 placedBase) 4 = some (State.reset.locOf 0 placedBase / 128, 7) ∧
     (s.noteStuck.pick 0).map (s.badCode 0) = some (some (placedBase, State.reset.locOf 0 placedBase / 128, 7))) := by
  decide +kernel

theorem witness_StepKeepsCanonical : (State.reset.withFetchWord 32 0x8000C284).canonical = true ∧ (State.reset.withFetchWord 32 0x8000C284).goesOn = true := by
  decide +kernel

theorem witness_EncodeDecode : Instr.wf (.add true 3 5 4) = true ∧ encode (.add true 3 5 4) = some [0x84, 0xC2, 0x00, 0x80] ∧
    decodeWords 0x8000C284 none = .ok (.add true 3 5 4) ∧ encode (.movw false 40 0x12345678) = some [0x00, 0x00, 0x2A, 0x0C, 0x78, 0x56, 0x34, 0x12] := by
  decide +kernel

/-! More of their hypotheses: bounds, traps, and states of several holders. -/

/-- An inexact magnitude between two others, a number with a root, and one below 0. -/
theorem witness_RoundsToNearest_inexact :
    (∃ x : ℝ, 2 ^ bf16.prec ≤ (2 ^ bf16.prec : Nat) ∧ ((2 ^ bf16.prec : Nat) : ℝ) * (2 : ℝ) ^ (0 : Int) < x ∧
      x < (((2 ^ bf16.prec : Nat) : ℝ) + 1) * (2 : ℝ) ^ (0 : Int)) ∧
    f32.decode 0x40000000 = .fin false 8388608 (-22) ∧ f32.decode 0xC0000000 = .fin true 8388608 (-22) := by
  refine ⟨⟨((2 ^ bf16.prec : Nat) : ℝ) + 1 / 2, le_refl _, ?_, ?_⟩, by decide +kernel, by decide +kernel⟩ <;> norm_num

theorem witness_FloatOperations_rounded :
    [Instr.fsqrt false 20 21, .frsq false 20 21, .frcp false 20 21].all (fun i => [(0x40000000 : Word), 0xC0000000].all (fun x =>
      issuable i (regs [(21, x)] base) g0 && (thread (regs [(21, x)] base)).readW 21 == x)) = true := by decide +kernel

/-- CALLs to a place without a header and to one whose frame limit the frame pointer passes, and RETs to no return address. -/
theorem witness_BranchesAndCalls_traps :
    (∀ m ∈ [(0 : Nat), 9, 12, 0x1FFFFF], issuable (.call false (BitVec.ofNat 21 m)) (frameAt 17) g0 = true) ∧
    ((0 : Int) = (0 + (0 : BitVec 21).toInt * 4) % 2 ^ 32 ∧ (36 : Int) = (0 + (9 : BitVec 21).toInt * 4) % 2 ^ 32 ∧
      (48 : Int) = (0 + (12 : BitVec 21).toInt * 4) % 2 ^ 32) ∧
    ((frameAt 17).codeWord 0 (launch (frameAt 17)) 32 = some 0x78004001 ∧ (0x78004001 / 2 ^ 14 % 2 ^ 13 : Nat) ≠ 0) ∧
    (∀ n ∈ [(0 : Nat), 38, 36, 2 ^ 20], issuable (.ret false) (regs [(7, BitVec.ofNat 32 n)] called) g0 = true) ∧
    called.codeWord 0 (launch called) (2 ^ 20 - 4) = none ∧
    (0x78004001 / 2 ^ 21 % 2 ^ 10 : Nat) ≠ 4 * 2 ^ 6 + 1 ∧ (0x78004001 / 2 ^ 21 % 2 ^ 10 : Nat) ≠ 4 * 2 ^ 6 + 4 := by
  decide +kernel

theorem witness_AddressChecks_forms :
    (∀ p ∈ loadTable, ∀ a ∈ [0x40000010, 0x3FFFFFF0, Config.scratchBase + 16], issuableOutside (p.2.1 false 24 20 22) (mapped a base) g0 = true) ∧
    (∀ p ∈ storeTable, issuableOutside (p.2.1 false 24 20 22) (mapped 0x3FFFFFF0 base) g0 = true) ∧
    (∀ i ∈ [Instr.ldq false 24 20 0, .ldqx false 24 20 22, .stq false 24 20 0, .stqx false 24 20 22],
      issuableOutside i (mapped 0x3FFFFFF0 base) g0 = true ∧ issuableOutside i (mapped 0x40000008 base) g0 = true) ∧
    ((launch (mapped 0 base)).readOnlyAt 0x3FFFFFF0 16 = false ∧ (launch (mapped 0 base)).stampedAt 0x3FFFFFF0 16 = false ∧
      (launch (mapped 0 base)).sluiceAt 0x3FFFFFF0 16 = false ∧ (launch (mapped 0 base)).inLease 0x3FFFFFF0 16 = false ∧
      classOfRange (Config.scratchBase + 16) 4 ≠ .global) := by
  decide +kernel

theorem witness_AddressChecks_named : LoadForm (.ldqx false 24 20 22) (fun u => addrIdx u 20 22) 16 false ∧
    StoreForm (.stq false 24 20 0) (fun u => addrImm u 20 0 16) 16 :=
  ⟨.inr ⟨rfl, rfl, 24, .inr ⟨false, 20, 22, rfl, rfl⟩⟩, .inr ⟨rfl, 24, .inl ⟨false, 20, 0, rfl, rfl⟩⟩⟩

/-- A load of a transaction that has written one of its bytes. -/
def txLoad : Access := { flown (.load false 1) 0x40000010 4 0 (some 0) with tx := some [((base.locOf 0 0x20000010) + 1, 9)] }
def txLoading : State := { access (.load false 1) 0x40000010 4 0 (some 0) with flight := [txLoad] }

theorem witness_TransactionalAccesses_perform :
    Due txLoading 7 txLoad ∧ txLoading.locateVia 0 (launch txLoading) 0x40000010 = some home ∧ txLoading.takenMeets txLoad = false ∧
    (launch txLoading).polderAt 0x40000010 = none ∧ (∀ w ∈ [((base.locOf 0 0x20000010) + 1, (9 : Byte))], w.1 ≠ home.key) := by
  unfold Due
  decide +kernel

/-- No move is in flight where none is found. -/
theorem noMoves_of {s : State} (h : s.flight.all (fun b => match b.op with | .move _ _ _ => false | _ => true) = true) : NoMoves s := by
  intro b hb n d k e
  have := List.all_eq_true.mp h b hb
  simp [e] at this

theorem witness_TransactionalAccesses_still : NoMoves txLoading ∧ NoMoves (access (.store 9) 0x40000010 4 0 none) :=
  ⟨noMoves_of (by decide +kernel), noMoves_of (by decide +kernel)⟩

theorem witness_PolderTouch_pages :
    ({ range 2 0x40200000 with capacity := 0x10000 } : Region).pageOf 0x40200010 = 0x4020 ∧
    ({ range 2 0x40200000 with capacity := 0x10000, late := true } : Region).late = true := by decide +kernel

/-- A write set of two bytes. -/
theorem witness_Transactions_writes :
    (let s := thr (fun u => { u with tx := { u.tx with writes := [(0x2000, 9), (0x2001, 8)] } }) (validating 0)
     s.txTurn 1 0 (thread s) 5 = true ∧ s.txBehind 1 0 (thread s) = false ∧ s.canonical = true ∧ ((thread s).tx.writes.map (fun p => p.1)).Nodup) ∧
    (∀ u ∈ (wgroup claiming).threads, u.live = true → claiming.stuck (launch claiming) (wgroup claiming) u = true) ∧ claiming.flight = [] := by
  decide +kernel

theorem witness_Stamped_traps :
    (∀ i ∈ [Instr.stst false 24 20 26, .ststd false 24 20 26, .ldas false 24 20 26], issuable i (mapped 0x40300002 base) g0 = true ∧
      issuable i (mapped 0x40000010 base) g0 = true ∧
      issuable i ((mapped 0x40300000 base).modDie 0 (fun x => { x with tol := 3 })) g0 = true) ∧
    (launch (mapped 0 base)).regionOf 0x40000010 8 = some (range 1 0x40000000) ∧ (range 1 0x40000000).kind ≠ 3 ∧
    (((mapped 0x40300000 base).modDie 0 (fun x => { x with tol := 3 })).die 0).tol.toNat <
      ((mapped 0x40300000 base).modDie 0 (fun x => { x with tol := 3 })).intervalWidth 0 := by
  decide +kernel

theorem witness_Polders_traps :
    (∀ a ∈ [(0x40200080 : Nat), 0x40000000], issuable (.pmove false 24 20 22) (regs [(22, 0x10000)] (mapped a base)) g0 = true) ∧
    issuable (.pmove false 24 20 22) (moving 0x8000) g0 = true ∧ (launch (moving 0)).polderAt 0x40200080 = some (range 2 0x40200000) ∧
    (0x40200080 : Nat) % (range 2 0x40200000).pageBytes ≠ 0 ∧ ((thread (moving 0x8000)).readW 22).toNat % (range 2 0x40200000).pageBytes ≠ 0 ∧
    (launch (moving 0)).polderAt 0x40000000 = none ∧ (∀ y ∈ (moving 0).leases, y.released = false) := by
  decide +kernel

/-- A wait limit of 0 at the access. -/
def limitless (s : State) : State := img (fun x => { x with bounds := x.bounds.map (fun b => (b.1, 0)) }) s

theorem witness_TileAccesses_limit :
    waitLimit (leased base) g0 = 1 ∧ waitLimit (limitless (leased base)) g0 = 0 ∧ (leased base).heldTile 1 0 3 = some (tile 3 .filling 0) ∧
    (∀ i ∈ [Instr.ldt false 24 20 22, .stt false 24 20 22],
      issuable i (regs [(20, BitVec.ofNat 32 (63 * 2 ^ 16 + 3)), (22, 560)] (limitless (leased base))) g0 = true) := by
  decide +kernel

theorem witness_PartitionRegisters_refused :
    ((quiesced 1 (some 10) { user with now := 200010 }).busyIds 0 ≠ [] ∧ (quiesced 1 (some 10) { base with wgs := [], now := 200010 }).busyIds 0 = [] ∧
      10 + 200000 ≤ ({ user with now := 200010 } : State).now) ∧
    (((quiesced 0x100 none base).die 0).pqc.toNat / 2 ^ 8 % 2 = 1 ∧ (base.die 0).pqc.toNat / 2 ^ 8 % 2 = 0) := by
  decide +kernel

/-- A thread that parks at RGIVE, and one that parks at HALT. -/
theorem witness_ParksAndWaits_acts :
    (∀ act ∈ [ParkAct.give 16, .halt 7], Resident (parking [.mk 0 [24] (some [some 7])] act) 1 0 0 (wgroup (parking [.mk 0 [24] (some [some 7])] act))
      (thread (parking [.mk 0 [24] (some [some 7])] act)) ∧ (thread (parking [.mk 0 [24] (some [some 7])] act)).status = .parked ∧
      (wgroup (parking [.mk 0 [24] (some [some 7])] act)).claims = []) ∧
    (launch base).traps < (launch base).trapCap ∧
    ((asleep (.cwait 4) 1 0 { base with waterlines := [.mk 0 64 0 5] }).uncommitted (launch base).lineId 4 = false ∧
      (asleep (.cwait 5) 9 0 { base with waterlines := [.mk 0 64 0 5] }).waterline 0 64 (launch base).lineId ≤ 5 ∧
      (asleep (.cwait 5) 9 0 base).limitOf (wgroup base) (thread (asleep (.cwait 5) 9 0 base)) ≠ 0) := by
  unfold Resident
  decide +kernel

theorem witness_Workgroups_resumed : ((second .device (roomy base)).partDies (coreDie placedWg.core)).contains 0 = true ∧
    (launch undispatched).stopped = false := by decide +kernel

/-- All 16 bins of the leaf controller in use. -/
def binsFull : State :=
  (recording 0).modCluster 0 (fun c => { c with bins := (List.range 16).map (fun k => .mk (8 + 4 * k) 1 0 [[0, 0, 0, 0, 0, 0]] [0]) })

theorem witness_Continuations_bins :
    Due binsFull 7 (flown (.record 4 [1, 2, 3, 4, 5, 6] 0) 0 0 0 none) ∧ 15 ≤ (binsFull.cluster 0).bins.tail.length ∧
    (∀ x ∈ (binsFull.cluster 0).bins.tail, ¬(x.ctx = 1 ∧ x.pc = 8)) ∧ (∀ x ∈ (binsFull.cluster 0).bins, ¬(x.ctx = 1 ∧ x.pc = 4)) ∧
    (binsFull.launch 1).isSome = true := by
  unfold Due
  decide +kernel

/-- A launch whose other rank is a launch of this module (R339). -/
theorem witness_SitesAndLeases_ranks :
    base.siblings (launch base) = [] ∧ (∀ l ∈ (leased base).leases, ¬(l.die = 0 ∧ 7 ∈ l.sites)) ∧
    (launch (lch (fun l => { l with nrank := 2, rank := 1 }) base)).rank = 1 ∧
    (∃ c ∈ ({ base with contributions := [.mk 1 5 1 0 4 []] } : State).contributions, c.ctx = 1 ∧ c.tag = 5 ∧ c.rank = 1) := by
  decide +kernel

/-- A COPY whose source is a block known bad, and the word 1 written to a doorbell. -/
theorem witness_PacketSteps_bad :
    (let s : State := { ringed 0 (copying 0) with badCheck := [(base.locOf 0 0x200000 / 128, 5)] }
     StepDue s 0 8 0 (ring 0) ∧ (s.rangeMismatch 0x200000 8).isSome = true ∧ (ringed 0 (copying 0)).rangeMismatch 0x200000 8 = none) ∧
    State.reset.booted = false ∧ (ringed 0 []).readNat 0 (Config.systemBase + 64 + 24) 4 = 0 := by
  unfold StepDue Heads
  decide +kernel

/-- A die that quiesces, under a quotation of its cluster. -/
theorem witness_QuotationPackets_quiesce :
    (let s := quiesced 1 (some 0) { accepting with launches := accepting.launches.map (fun l => { l with supervisor := false }) }
     match s.openQuote 7 with
      | none => false
      | some l => s.maySend l.quote.clusterMask && decide (s.schedulerTime ≤ l.quote.deadline) && !s.noPool l (ring 0) && !s.takesWork 0 l.supervisor &&
        bitOf l.quote.clusterMask 0 && !s.mayReserve l) = true ∧
    (match accepting.openQuote 7 with
      | none => false
      | some l => accepting.mayReserve l && bitOf l.quote.clusterMask 0) = true ∧
    accepting.leases = [] ∧ (accepting.cluster 0).gate = .active := by
  decide +kernel

/-- A supervised launch of nothing, its account queue with and without room, and a pool page that the driver was asked for. -/
theorem witness_LaunchLife_ends :
    (launch base).retired = 0 ∧ (launch (lch (fun l => { l with retired := 3, endAt := 77 }) base)).endAt = 77 ∧
    base.account = [] ∧ base.accountUsed < base.accountCap ∧ base.accountCap ≤ ({ base with accountProduced := 64 } : State).accountUsed ∧
    base.pageThere (launch base) (poolPage 0) = true ∧ (resident [0]).pageThere (launch (resident [0])) 0 = false ∧
    (resident [0x4000]).pageThere (launch (resident [0x4000])) 0x4000 = true := by
  decide +kernel

/-- A continuation of a `.det` launch about to be dispatched. -/
def continuing : State :=
  lch (fun l => { l with formed := [.mk 2048 1 4 (some 0) (some 0) [[1, 2, 3, 4, 5, 6]] [0]], generation := 1, img := { l.img with spawns := [.mk 0 4 2 16 0] } })
    (det false 1 { base with wgs := [], group := none })

theorem witness_SendPermits_dispatch :
    ((launch continuing).plan 2048).map (fun p => p.generation) = some 1 ∧ (launch continuing).img.det = true ∧
    (after (.workgroupDispatch 1 2048 0) continuing).wgs ≠ continuing.wgs ∧ (after (.workgroupDispatch 1 0 0) undispatched).wgs ≠ undispatched.wgs := by
  decide +kernel

/-- Holds on a die whose targets ration and lower pools. -/
theorem witness_PowerStates_holds :
    (let s := base.modDie 0 (fun x => { x with targetRationing := 5, targetPools := 15, targetShed := 31 })
     (∀ l ∈ s.launches, ∀ j < 2, l.live = true → bitOf l.quote.clusterMask (2 * 0 + j) = true → l.img.opclass ≤ (s.die 0).targetPools / 4 ^ j % 4) ∧
       s.leases = [] ∧ (s.die 0).targetRationing / 4 ^ 0 % 4 ≠ 0 ∧ (launch s).holds = true) ∧
    (base.launches = [launch base] ∧ (launch base).live = true ∧ (launch base).debug = false ∧ base.staged = [] ∧
      bitOf (launch base).quote.clusterMask 0 = true ∧ bitOf (launch base).quote.clusterMask 1 = false ∧
      (base.modDie 0 (fun x => { x with targetPools := 0 })).launches = base.launches ∧ 0 < (launch base).img.opclass) ∧
    ((gated (.waking 10) 8010).covered 0 = false ∧ base.covered 0 = true ∧ (base.die 0).thermalRow = 0) := by
  decide +kernel

/-- A die that holds a workgroup and a reserved lease, at 120 °C or in its third droop. -/
def hot (row emergency : Nat) : State :=
  ({ base with leases := [{ leaseOf 4 2 80 with reserved := true }], sites := [{ Site.dark 0 80 with power := .awake, lease := some 4 }] } : State).modDie 0
    (fun x => { x with temperature := 960, thermalRow := row, emergency := emergency })

theorem witness_Emergencies_trip :
    (hot 2 0).clusters.any (fun c => c.id == 1) = true ∧ ((hot 2 0).siteOf 0 80).queue = [] ∧ ((hot 2 0).siteOf 0 5).queue = [] ∧
    (∀ l ∈ (hot 2 0).launches, ∀ r ∈ l.img.regions, r.kind ≠ 2) ∧ ((hot 2 0).die 0).temperature = 960 ∧ 2 ≤ ((hot 2 0).die 0).thermalRow ∧
    ((hot 1 4).die 0).emergency = 4 ∧ ((gated (.idle 0) 0).wgs = []) ∧ ((base.die 0).temperature < 960) ∧
    (thread base).tx.committing = none ∧ base.staged = [] := by
  decide +kernel

/-- Of the trip itself: the thread has exited, the lease has gone, and there are two breaches. -/
theorem test_trip : (let t := after (.thermalTrip 0) (hot 0 0)
    (t.die 0).tripped && t.leases.isEmpty && decide ((thread t).status = .exited) && (launch t).breaches == 2 && t.staged.length == 2) = true := by
  decide +kernel

/-- A load from a block known bad, its workgroup alive, and ended. -/
def badLoading (st : Status) : State :=
  thr (fun u => { u with status := st }) { access (.load false 1) 0x40000010 4 0 (some 0) with badCheck := [(home.key / 128, 5)] }

theorem witness_Emergencies_bad : ∀ st ∈ [Status.ready, .exited],
    (badLoading st).badRead (flown (.load false 1) 0x40000010 4 0 (some 0)) = some (0x20000010, home.key / 128, 5) ∧
    (badLoading st).flight = [flown (.load false 1) 0x40000010 4 0 (some 0)] ∧ (wgroup (badLoading st)).threads = [thread (badLoading st)] ∧
    (thread (badLoading st)).status = st ∧
    (match (badLoading st).perform (flown (.load false 1) 0x40000010 4 0 (some 0)) with
      | .done _ => true
      | _ => false) = true := by
  decide +kernel

theorem witness_ManagementAndLinks_selftest :
    (base.booting = false ∧ base.booted = false ∧ (quiesced 0x100 none { base with booted := true }).booted = true ∧
      bitOf (base.die 0).pqc.toNat 8 = false ∧ (base.die 0).failedSites = []) ∧
    ((quiesced 0x100 none base).modDie 0 (fun x => { x with failedSites := [5] })).dies.find? (fun x => x.id == 0) =
      some { (quiesced 0x100 none base).die 0 with failedSites := [5] } ∧
    (after .resetModule base).booting = true ∧ (after (.selfTest [] []) (after .resetModule base)).booted = true := by
  decide +kernel

/-- A line known bad that moves with its page: one record, and the line stays bad. -/
theorem test_move_bad : (let r := { range 2 0x40600000 with home := 1, capacity := 128 }
    let t := after (.pmoveComplete 7) { img (fun x => { x with regions := x.regions ++ [r] }) moved with badCheck := [(polderKey 1 0x40200000 / 128, 5)] }
    t.faultQueue.length == 1 && t.badCheck.length == 1 && decide (t.polderPage 1 (0x40200000 / 65536) = some (.moved 1)) &&
    (after (.checkValueMismatch (polderKey 1 0x40200000) 1 5 []) moved).badCheck.length == 1 &&
    (after (.checkValueMismatch (polderKey 1 0x40200080) 1 5 []) moved).badCheck.isEmpty) = true := by
  decide +kernel

/-! Of clauses over several members, several regions and several forms. -/

/-- A number below 0, one from 128 on, powers of two and integers, as operands of FEXP2 and FLOG2, and their results. -/
theorem test_exact_powers :
    (f32.decode 0xC0000000 = .fin true 8388608 (-22) ∧ f32.decode 0x43000000 = .fin false 8388608 (-16) ∧ f32.decode 0x41000000 = .fin false 8388608 (-20)) ∧
    f32Exp2 0x43000000 = 0x7F800000 ∧ f32Exp2 0xC3150000 = 1 ∧ f32Exp2 0x41000000 = 0x43800000 ∧ f32Exp2 0xC0000000 = 0x3E800000 ∧
    f32Log2 0x41000000 = 0x40400000 ∧ f32Log2 0x3E800000 = 0xC0000000 ∧ f32Log2 1 = 0xC3150000 ∧ f32Log2 0xC0000000 = 0x7FC00000 := by
  decide +kernel

theorem witness_FloatOperations_powers :
    (128 : ℚ) ≤ (8388608 : Nat) * 2 ^ (-16 : Int) ∧ signed true 8388608 (-22) = ((-2 : Int) : ℚ) ∧
    ((8388608 : Nat) : ℚ) * 2 ^ (-20 : Int) = (2 : ℚ) ^ (3 : Int) := by
  refine ⟨?_, ?_, ?_⟩ <;> norm_num [signed]

/-- Two members, of which the second has a handler less, a later sub-group or a window that runs over. -/
def later (f : Thread → Thread) : State := duo.modThread 1 0 1 f

theorem witness_IssueChecks_later :
    g2.tids = [0] ++ 1 :: [] ∧
    (let s := later (fun u => { u with base := 240 })
     s.group = some g2 ∧ (∀ m ∈ [0], ∀ v, s.threadOf 1 0 m = some v → ∀ p ∈ namedFields (.add64 false 20 16 14), ∀ x < p.2, v.phys (p.1 + x) < v.regs.length) ∧
     (∃ u, s.threadOf 1 0 1 = some u ∧ namedFields (.add64 false 20 16 14) = [] ++ (20, 2) :: (namedFields (.add64 false 20 16 14)).tail ∧
      u.regs.length ≤ u.phys (20 + 0)) ∧
     (∃ u, s.threadOf 1 0 1 = some u ∧ (namedFields (.tcopy false 4 6 20)).getLast? = some (20, 1) ∧
      (∀ p ∈ (namedFields (.tcopy false 4 6 20)).dropLast, ∀ x < p.2, u.phys (p.1 + x) < u.regs.length) ∧ u.sub = 0 ∧ u.regs.length ≤ u.phys (20 + 0))) ∧
    (let s := later (fun u => { u with sub := 1 })
     (∀ j ∈ [0], ∀ v, s.threadOf 1 0 j = some v → v.sub = 0) ∧ (∃ u, s.threadOf 1 0 1 = some u ∧ u.sub ≠ 0) ∧ isProducer (.tcopy false 4 6 20) = true) := by
  refine ⟨rfl, ⟨rfl, ?_, ?_, ?_⟩, ?_, ?_, rfl⟩
  · decide +kernel
  · exact ⟨_, rfl, by decide +kernel⟩
  · exact ⟨_, rfl, by decide +kernel⟩
  · decide +kernel
  · exact ⟨_, rfl, by decide +kernel⟩

/-- WIDEN of privileged members with a handler, and of the user view. -/
theorem witness_TrapEntry_widen :
    handled.group = none ∧ handled.privileged g0 = true ∧ (thread handled).tvec ≠ 0 ∧ (launch handled).debug = false ∧
    (launch user).debug = false ∧ (launch user).spansPod = false ∧ 8 ≤ (user.die 0).tol.toNat := by
  decide +kernel

/-- Inside a transaction: the forms of a load and a store, and the scratchpad. -/
theorem witness_TransactionalAccesses_forms :
    (∀ i ∈ [Instr.ldq false 24 20 0, .ldqx false 24 20 22, .lddx false 24 20 22, .ldb false 24 20 0],
      issuable i (inTx 7 0 (mapped 0x40000010 base)) g0 = true ∧ issuable i (inTx 8 0 (mapped 0x40000010 base)) g0 = true) ∧
    (∀ i ∈ [Instr.ldq false 24 20 0, .stq false 24 20 0, .stb false 24 20 0],
      issuable i (inTx 0 0 (banked (mapped (Config.scratchBase + 16) base))) g0 = true) ∧
    (∀ i ∈ [Instr.stq false 24 20 0, .stqx false 24 20 22, .std false 24 20 0],
      issuable i (inTx 0 7 (mapped 0x40000010 base)) g0 = true ∧ issuable i (inTx 0 8 (mapped 0x40000010 base)) g0 = true) ∧
    reaches (inTx 0 0 (banked (mapped (Config.scratchBase + 16) base))) 16 true false ∧
    classOfRange (Config.scratchBase + 16) 16 = .scratch ∧ reaches (inTx 7 0 (mapped 0x40000010 base)) 16 true false := by
  unfold reaches Reachable
  decide +kernel

/-- Instructions that a transaction does not allow. -/
theorem witness_TransactionalAccesses_refused : [Instr.ldcdx false 24 20 22, .txb false 4, .barw false 3 5, .lease false 8 9 10, .tcopy false 20 22 24].all (fun i =>
    (encode i).isSome && i.wf && !isBreak i && !userPrivIndex i && !isPrivileged i && (!isProducer i || (thread (inTx 0 0 base)).sub == 0) && !txAllowed i &&
    (thread (inTx 0 0 base)).status == .ready && (windowCheck i (thread (inTx 0 0 base))).isNone && ((launch base).bound 0).isSome) = true := by
  decide +kernel

theorem witness_TransactionalAccesses_named :
    (∃ accs res, LoadSends (.ldqx false 24 20 22) (fun u => addrIdx u 20 22) 16 .ord accs res) ∧
    (∃ data, StoreSends (.stq false 24 20 0) (fun u => addrImm u 20 0 16) 16 data) :=
  ⟨⟨_, _, .inr ⟨rfl, rfl, 24, .inr ⟨false, 20, 22, rfl, rfl⟩, rfl, rfl⟩⟩, ⟨_, .inr ⟨rfl, 24, .inl ⟨false, 20, 0, rfl, rfl⟩, rfl⟩⟩⟩

/-- A barrier of the workgroup whose stores its L1 still holds, a sluice of the core, and a table with room for a line. -/
theorem witness_Fresh_edges :
    (let s : State := { waiter 1 with flight := [{ flown (.store 1) 0x40000010 4 0 none with taken := 4 }] }
     Resident s 1 0 0 (wgroup s) (thread s) ∧ s.dieTime 0 ≤ (thread s).deadline ∧ (s.barrierAt 1 0 0 0 3).phase = 1 ∧
     (∃ a ∈ s.flight, a.ctx = 1 ∧ a.wg = 0 ∧ a.taken ≠ 0)) ∧
    (let s := img (fun x => { x with regions := [{ range 4 0x40400000 with scope := 0 }] }) (asleep (.slacq 0x40400000 0) 9 0 (mapped 0x40400000 base))
     ∃ x, (launch s).sluiceOf 0x40400000 = some x ∧ x.2 = 0 ∧ 0 ≤ s.sluiceCount (probe (wgroup s) (thread s) 0x40400000) (launch s) x.2) ∧
    (banked (mapped 0x40000010 base)).watchTable 0 = [] ∧
    (let s := thr (fun u => { u with watches := [{ line := 9, state := .armed }] }) (base.modCore 0 (fun c => { c with watched := [(9, 1), (8, 2)] }))
     s.watchTable 0 = [(9, 1)]) := by
  unfold Resident
  refine ⟨by decide +kernel, ⟨_, rfl, rfl, Nat.zero_le _⟩, by decide +kernel, by decide +kernel⟩

/-- A validation that fails, in a thread that has ended and in one that has not. -/
theorem witness_Transactions_ended : ∀ st ∈ [Status.parked, .exited],
    (let s := thr (fun u => { u with status := st }) (validating 1)
     s.txTurn 1 0 (thread s) 5 = true ∧ s.txBehind 1 0 (thread s) = false ∧ (thread s).status = st ∧ (∃ r ∈ (thread s).tx.reads, Cells.get s.mem r.1 ≠ r.2)) := by
  decide +kernel

/-- Two adjacent polder regions of two homes, and a range of one page of each. -/
def adjoining : State :=
  img (fun x => { x with regions := [{ range 2 0x40200000 with capacity := 0x10000 }, { range 2 0x40210000 with capacity := 0x10000, home := 1 }] })
    (regs [(20, 0x40200000), (22, 0x20000), (23, 0x00040002)] (moving 0x20000))

/-- The parts of the range, its pages, and a range that ends past the last region. -/
theorem witness_Polders_regions :
    (let l := launch adjoining
     issuable (.pmove false 24 20 22) adjoining g0 = true ∧ l.polderAt 0x40200000 = some { range 2 0x40200000 with capacity := 0x10000 } ∧
     (l.polderParts 0x40200000 0x20000).map (fun p => (p.1.home, p.2)) = [(0, 0x40200000, 0x10000), (1, 0x40210000, 0x10000)] ∧
     MoveRange l { range 2 0x40200000 with capacity := 0x10000 } 0x40200000 0x20000 ∧
     (l.polderParts 0x40200000 0x18000).length = 2 ∧ (∃ p ∈ l.polderParts 0x40200000 0x18000, p.2.2 % p.1.pageBytes ≠ 0) ∧
     l.polderAt (0x40210000 + 0x10000) = none) ∧
    (let s := fly (.move 0x20000 2 4) 0x40200000 0x20000 0 (some 0) adjoining
     (∀ p ∈ (launch s).polderParts 0x40200000 0x20000, p.1.home ≠ 2 ∧ ∀ pg ∈ pagesOf p.1 p.2.1 p.2.2, s.polderPage 1 pg = none) ∧
     (∃ p ∈ (launch s).polderParts 0x40200000 0x20000, pagesOf p.1 p.2.1 p.2.2 ≠ []) ∧
     (((launch s).polderParts 0x40200000 0x20000).map (fun p => s.pagesHeld 1 p.1 (pagesOf p.1 p.2.1 p.2.2))).sum ≤ s.polderRoom (launch s) 2) := by
  refine ⟨⟨by decide +kernel, by decide +kernel, by decide +kernel, .inr ?_, by decide +kernel, by decide +kernel, by decide +kernel⟩, by decide +kernel⟩
  decide +kernel

theorem test_move_regions : (let s := fly (.move 0x20000 2 4) 0x40200000 0x20000 0 (some 0) adjoining
    let t := after (.pmoveComplete 7) s
    decide (t.polderPage 1 0x4020 = some (.moved 2)) && decide (t.polderPage 1 0x4021 = some (.moved 2))) = true := by decide +kernel

theorem witness_SpawnAndToken_marker : (det true 0 { base with detUnits := [update] }).badBlock update.key 4 = none := by decide +kernel

/-- A thread that has ended and still commits. -/
theorem witness_Workgroups_commits : ∃ u ∈ (wgroup (thr (fun u => { u with status := .exited }) (validating 0))).threads,
    u.status ≠ .exited ∨ u.tx.committing.isSome = true := by
  decide +kernel

/-- A bin 2 µs old that a record for its target meets, and 16 younger ones. -/
theorem witness_Continuations_due :
    (∀ now ∈ [(1999 : Nat), 2000], Due ({ recording 31 with now := now } : State) 7 (flown (.record 4 [1, 2, 3, 4, 5, 6] 0) 0 0 0 none) ∧
      (((recording 31).cluster 0).bins.map (fun b => decide (b.since + 2000 ≤ now))) = [decide (now = 2000)]) ∧
    (∀ x ∈ (binsFull.cluster 0).bins, binsFull.now < x.since + 2000) := by
  unfold Due
  decide +kernel

/-- An ACCEPT past its deadline, one without a page-table root, and two that wait: for a permit, and for a die that quiesces. -/
def acceptAt (f : State → State) (p : State → Launch → Bool) : Bool :=
  let s := f accepting
  decide (s.staged = []) && decide (s.rings[0]? = some (ring 0)) && decide (s.packetType (ring 0) = 2) && decide (s.packetFault (ring 0) = none) &&
    (match s.openQuote (s.packet (ring 0) 1) with
      | none => false
      | some l => p s l)

theorem witness_QuotationPackets_lapses :
    acceptAt (fun s => { s with now := 5 }) (fun s l => decide (l.quote.deadline < s.schedulerTime) && !l.debug && s.turn 0 2 == some (ring 0)) = true ∧
    acceptAt (fun s => { s.writeNat 0 ((ring 0).slotAddr + 48) 8 0 with launches := s.launches.map (fun l => { l with ctx := 0 }) }) (fun s l =>
      decide (s.schedulerTime ≤ l.quote.deadline) && s.noPool l (ring 0) && !l.breach && decide (l.ctx = 0) && s.turn 0 2 == some (ring 0)) = true ∧
    acceptAt spent (fun s l => decide (s.schedulerTime ≤ l.quote.deadline) && !s.noPool l (ring 0) && !s.maySend l.quote.clusterMask) = true ∧
    acceptAt (fun s => quiesced 1 (some 0) { s with launches := s.launches.map (fun l => { l with supervisor := false }) }) (fun s l =>
      decide (s.schedulerTime ≤ l.quote.deadline) && !s.noPool l (ring 0) && !s.takesWork 0 l.supervisor && bitOf l.quote.clusterMask 0) = true := by
  decide +kernel

/-- Records staged for the launch's quotation and for another. -/
theorem witness_LaunchLife_staged :
    ({ base with wgs := [], staged := [[BitVec.ofNat 32 (launch base).quoteId, 1], [99, 2]] } : State).launchDone (launch base) = true ∧
    (({ base with wgs := [], staged := [[BitVec.ofNat 32 (launch base).quoteId, 1], [99, 2]] } : State).staged.filter (fun r =>
      !(nth 0 r 0 == BitVec.ofNat 32 (launch base).quoteId))) = [[99, 2]] := by
  decide +kernel

/-- A pool below the launch's class: in an emergency past its second row, before that row, and in none. -/
theorem witness_PowerStates_forced :
    (let s := base.modDie 0 (fun x => { x with thermalRow := 2, emergency := 3, targetPools := 0 })
     s.launches = [launch s] ∧ s.leases = [] ∧ s.staged = [] ∧ bitOf (launch s).quote.clusterMask 0 = true ∧ (s.die 0).targetPools / 4 ^ 0 % 4 < (launch s).img.opclass ∧
       2 ≤ (s.die 0).thermalRow ∧ (s.die 0).emergency = 3) ∧
    (base.modDie 0 (fun x => { x with thermalRow := 1, emergency := 3, targetPools := 0 })).dies.find? (fun y => y.id == 0) =
      some { base.die 0 with thermalRow := 1, emergency := 3, targetPools := 0 } := by
  decide +kernel

/-- The word of a MOVW in the last word of the code section, and what it raises. -/
def cutLiteral : State := { (State.reset.withFetchWord 32 0x0C2A0000).modLaunch 1 (fun l => { l with img := { l.img with codeLen := 4 } }) with agenda := [.issue 0] }

theorem witness_StepRunsDecoded_literal :
    decode [0x00, 0x00, 0x2A, 0x0C, 0, 0, 0, 0] = .ok (.movw false 40 0, []) ∧ (cutLiteral.launch 1).map (fun l => l.img.codeLen) = some 4 ∧
    (cutLiteral.noteStuck.pick 0).map (fun e => e.pc) = some 0 ∧ (cutLiteral.noteStuck.pick 0).map (cutLiteral.badCode 0) = some none := by
  decide +kernel

/-! Terms that no encoding holds, one for each check of WellFormed. -/

/-- Every instruction of the list is refused. -/
def illFormed (is : List Instr) : Bool := is.all (fun i => !i.wf)

/-- R48: a pair at an odd field, and a quad at a field that is no multiple of 4. -/
theorem test_wf_pairs_and_quads : illFormed [.add64 false 9 10 12, .add64 false 8 11 12, .add64 false 8 10 13, .addx false 8 9 10,
    .ldw false 8 9 0, .ldd false 9 10 0, .ldq false 10 12 0, .stq false 10 12 0, .clki false 10, .bstat false 10 8, .ldt false 6 8 9,
    .gts false 0 8 4 false 9, .casD false 0 9 4 false 10, .stst false 9 10 8, .ststd false 8 10 9, .pmove false 8 10 11, .tlbi false 8 9 10] := by
  decide

/-- R54, R56: the word of zeros is no ADD, and NOP's word no ADDI. -/
theorem test_wf_zero_words : illFormed [.add false 0 0 0, .addi false 8 8 0] := by decide

/-- R129, R144, R146: shift counts of 32 or more, an empty loop body, and a window base that is no multiple of 8 or too high. -/
theorem test_wf_immediates : illFormed [.shli false 8 9 32, .shri false 8 9 64, .srai false 8 9 127, .looph false 8 0, .loope false 8 0,
    .wbase false 4, .wbase false 1024, .wbadj false 3] := by decide

/-- R155, R157, R161, R164, R168, R173: fences of an empty set or of scope 7, barrier levels without a barrier, and scope 7 of an atomic and a reduction. -/
theorem test_wf_sets_levels_and_scopes : illFormed [.fence false 0 1 0, .fence false 1 0 0, .fence false 1 1 7, .pfence false 0 1,
    .pfence false 1 0, .bara false 8 6 9, .barw false 8 6, .bar false 8 7 9, .barx false 8 3 10, .amoAdd false 7 8 9 false 10,
    .casW false 7 8 9 false 10, .tcas false 7 8 9 false 10, .redAdd false 7 false 9 10, .redHadd2 false 7 false 9 10] := by decide

/-- R140, R234, R235, R239, R244: an unassigned register index, one below the privileged view, a loan of no words, of words that are no multiple of 8
or of more than 1 008, and the six argument words of SPAWN beyond w127. -/
theorem test_wf_indices_and_counts : illFormed [.mfs false 8 0x0A, .mts false 8 0x12, .mfsr false 8 0x0011, .mtsr false 8 0x2280, .rgive 0, .rgive 12,
    .rgive 1016, .rclaim false 8 4, .spawn false 8 9 124, .spawn false 8 9 11] := by decide

/-! One word of every encoding, its bits written out from R45 to R53 and the opcode table: S, the group, the index, the fields. -/

/-- Each word decodes to its instruction, and is what the encoder writes for it. -/
def readsAs (ws : List (Nat × Instr)) : Bool :=
  ws.all (fun p => decide (decode (leBytes 4 p.1) = .ok (p.2, [])) && decide (encode p.2 = some (leBytes 4 p.1)))

theorem test_words_g0_1 : readsAs [
    (0b1_0000_000000_0001101_0010010_0010100, .add true 13 18 20),
    (0b0_0000_000001_0010010_0011001_0011111, .sub false 18 25 31),
    (0b1_0000_000010_0010111_0100000_0101010, .mul true 23 32 42),
    (0b0_0000_000011_0011100_0100111_0110101, .mulh false 28 39 53),
    (0b1_0000_000100_0100001_0101110_1000000, .mulhu true 33 46 64),
    (0b0_0000_000101_0100110_0110101_0001011, .mad false 38 53 11),
    (0b1_0000_000110_0101011_0111100_0010110, .divu true 43 60 22),
    (0b0_0000_000111_0110000_1000011_0100001, .remu false 48 67 33),
    (0b1_0000_001000_0110101_0001010_0101100, .and true 53 10 44),
    (0b0_0000_001001_0111010_0010001_0110111, .or false 58 17 55),
    (0b1_0000_001010_0111111_0011000_1000010, .xor true 63 24 66),
    (0b0_0000_001011_1000100_0011111_0001101, .andn false 68 31 13),
    (0b1_0000_001100_0001001_0100110_0011000, .shl true 9 38 24),
    (0b0_0000_001101_0001110_0101101_0100011, .shr false 14 45 35),
    (0b1_0000_001110_0010011_0110100_0101110, .sra true 19 52 46),
    (0b0_0000_001111_0011000_0111011_0111001, .rot false 24 59 57),
    (0b1_0000_010000_0011101_1000010_1000100, .min true 29 66 68),
    (0b0_0000_010001_0100010_0001001_0001111, .max false 34 9 15),
    (0b1_0000_010010_0100111_0010000_0011010, .minu true 39 16 26),
    (0b0_0000_010011_0101100_0010111_0100101, .maxu false 44 23 37)] := by decide +kernel

theorem test_words_g0_2 : readsAs [
    (0b1_0000_010100_0110001_0011110_0110000, .seq true 49 30 48),
    (0b0_0000_010101_0110110_0100101_0111011, .sne false 54 37 59),
    (0b1_0000_010110_0111011_0101100_1000110, .slt true 59 44 70),
    (0b0_0000_010111_1000000_0110011_0010001, .sltu false 64 51 17),
    (0b1_0000_011000_1000101_0111010_0011100, .sle true 69 58 28),
    (0b0_0000_011001_0001010_1000001_0100111, .sleu false 10 65 39),
    (0b1_0000_011010_0001111_0001000_0110010, .cmovz true 15 8 50),
    (0b0_0000_011011_0010100_0001111_0111101, .cmovn false 20 15 61),
    (0b1_0000_011100_0011000_0010110_0001000, .add64 true 24 22 8),
    (0b0_0000_011101_0011110_0011100_0010010, .sub64 false 30 28 18),
    (0b1_0000_011110_0100010_0100100_0011110, .mul64 true 34 36 30),
    (0b0_0000_011111_0101000_0101010_0101001, .addx false 40 42 41),
    (0b1_0000_100000_0101100_0110010_0110100, .addx4 true 44 50 52),
    (0b0_0000_100001_0110010_0111001_0111111, .bfx false 50 57 63),
    (0b1_0000_100010_0110111_1000000_0001010, .bfxs true 55 64 10),
    (0b0_0000_100011_0111100_1000111_0010101, .bfi false 60 71 21)] := by decide +kernel

theorem test_words_g1 : readsAs [
    (0b1_0001_000000_1000001_0001110_1110011, .addi true 65 14 0x73),
    (0b0_0001_000000_000100000010000000000, .nop false),
    (0b1_0001_000001_0001011_0011100_0011101, .andi true 11 28 0x1D),
    (0b0_0001_000010_0010000_0100011_1110010, .ori false 16 35 0x72),
    (0b1_0001_000011_0010101_0101010_1000111, .xori true 21 42 0x47),
    (0b0_0001_000100_0011010_0110001_0011100, .shli false 26 49 0x1C),
    (0b1_0001_000101_0011111_0111000_0010001, .shri true 31 56 0x11),
    (0b0_0001_000110_0100100_0111111_0000110, .srai false 36 63 0x6),
    (0b1_0001_000111_0101001_1000110_0011011, .slti true 41 70 0x1B),
    (0b0_0001_001000_0101110_0001101_1110000, .sltui false 46 13 0x70),
    (0b1_0001_001001_0110011_0010100_1000101, .seqi true 51 20 0x45),
    (0b0_0001_001010_0111000_0011011_0011010, .muli false 56 27 0x1A),
    (0b1_0001_001011_0111100_0100010_1101111, .add64i true 60 34 0x6F),
    (0b0_0001_010000_1000010_0101001_0000000, .clz false 66 41),
    (0b1_0001_010001_1000111_0110000_0000000, .popc true 71 48),
    (0b0_0001_010010_0001100_0110111_0000000, .brev false 12 55),
    (0b1_0001_010011_0010001_0111110_0000000, .abs true 17 62),
    (0b0_0001_010100_0010110_1000101_0000000, .sexb false 22 69),
    (0b1_0001_010101_0011011_0001100_0000000, .sexh true 27 12),
    (0b0_0001_100000_0100000_00101011000010, .movi false 32 0xAC2)] := by decide +kernel

theorem test_words_g2 : readsAs [
    (0b0_0010_000000_0101010_0100001_1000111, .fadd false 42 33 71),
    (0b1_0010_000001_0101111_0101000_0010010, .fsub true 47 40 18),
    (0b0_0010_000010_0110100_0101111_0011101, .fmul false 52 47 29),
    (0b1_0010_000011_0111001_0110110_0101000, .ffma true 57 54 40),
    (0b0_0010_000100_0111110_0111101_0110011, .fmin false 62 61 51),
    (0b1_0010_000101_1000011_1000100_0111110, .fmax true 67 68 62),
    (0b0_0010_000110_0001000_0001011_0001001, .fdiv false 8 11 9),
    (0b1_0010_000111_0001101_0010010_0010100, .fseq true 13 18 20),
    (0b0_0010_001000_0010010_0011001_0011111, .fslt false 18 25 31),
    (0b1_0010_001001_0010111_0100000_0101010, .fsle true 23 32 42),
    (0b0_0010_001010_0011100_0100111_0110101, .fsun false 28 39 53),
    (0b1_0010_001011_0100001_0101110_1000000, .fcpys true 33 46 64),
    (0b0_0010_010000_0100110_0110101_0000000, .fsqrt false 38 53),
    (0b1_0010_010001_0101011_0111100_0000000, .frcp true 43 60),
    (0b0_0010_010010_0110000_1000011_0000000, .frsq false 48 67),
    (0b1_0010_010011_0110101_0001010_0000000, .fexp2 true 53 10),
    (0b0_0010_010100_0111010_0010001_0000000, .flog2 false 58 17),
    (0b1_0010_010101_0111111_0011000_0000000, .fabs true 63 24),
    (0b0_0010_010110_1000100_0011111_0000000, .fneg false 68 31)] := by decide +kernel

theorem test_words_g3_1 : readsAs [
    (0b1_0011_000000_0001001_0100110_0011000, .hadd2 true 9 38 24),
    (0b0_0011_000001_0001110_0101101_0100011, .hmul2 false 14 45 35),
    (0b1_0011_000010_0010011_0110100_0101110, .hfma2 true 19 52 46),
    (0b0_0011_000011_0011000_0111011_0111001, .hmax2 false 24 59 57),
    (0b1_0011_000100_0011101_1000010_1000100, .eadd2 true 29 66 68),
    (0b0_0011_000101_0100010_0001001_0001111, .emul2 false 34 9 15),
    (0b1_0011_000110_0100111_0010000_0011010, .efma2 true 39 16 26),
    (0b0_0011_000111_0101100_0010111_0100101, .emax2 false 44 23 37),
    (0b1_0011_010000_0110001_0011110_0000000, .cvtF32Sw true 49 30),
    (0b0_0011_010001_0110110_0100101_0000000, .cvtF32Uw false 54 37),
    (0b1_0011_010010_0111011_0101100_0000000, .cvtSwF32 true 59 44),
    (0b0_0011_010011_1000000_0110011_0000000, .cvtSwF32Rn false 64 51),
    (0b1_0011_010100_1000101_0111010_0000000, .cvtUwF32 true 69 58),
    (0b0_0011_010101_0001010_1000001_0100111, .cvtBf16F32 false 10 65 39),
    (0b1_0011_010110_0001111_0001000_0110010, .cvtBf16F32Sr true 15 8 50),
    (0b0_0011_010111_0010100_0001111_0111101, .cvtFp16F32 false 20 15 61),
    (0b1_0011_011000_0011001_0010110_0000000, .cvtF32Bf16 true 25 22),
    (0b0_0011_011001_0011110_0011101_0000000, .cvtF32Fp16 false 30 29),
    (0b1_0011_011010_0100011_0100100_0000000, .cvtLc8F32 true 35 36),
    (0b0_0011_011011_0101000_0101011_0000000, .cvtF32Lc8 false 40 43)] := by decide +kernel

theorem test_words_g3_2 : readsAs [
    (0b1_0011_011100_0101101_0110010_0000000, .cvtI8F32 true 45 50)] := by decide +kernel

theorem test_words_g4 : readsAs [
    (0b0_0100_000000_000001000001010110100, .br false 0x82B4),
    (0b1_0100_000001_000001000010000001001, .call true 0x8409),
    (0b0_0100_000010_0111100_00010101011110, .bez false 60 0x55E),
    (0b1_0100_000011_1000001_00011010110011, .bnz true 65 0x6B3),
    (0b0_0100_000100_0000000_0010101_0000000, .callr false 21),
    (0b1_0100_000101_0000000_0011100_0000000, .jr true 28),
    (0b0_0100_000110_000000000000000000000, .ret false),
    (0b1_0100_000111_0010101_00110000000111, .looph true 21 0xC07),
    (0b0_0100_001000_0011010_00110101011101, .loope false 26 0xD5D),
    (0b1_0100_001001_0000000_00000101001000, .wbase true 0x148),
    (0b0_0100_001010_0000000_11111111110000, .wbadj false 0x3FF0),
    (0b1_0100_001011_000000000000000000000, .exit true),
    (0b0_0100_001100_000001001001010110000, .trap false 0x92B0),
    (0b1_0100_001101_000001001010000000101, .brk true 0x9405)] := by decide +kernel

theorem test_words_g5 : readsAs [
    (0b0_0101_000000_0111000_0011011_0011001, .shfl false 56 27 25),
    (0b1_0101_000001_0111101_0100010_0100100, .shflx true 61 34 36),
    (0b0_0101_000010_1000010_0101001_0101111, .shflu false 66 41 47),
    (0b1_0101_000011_1000111_0110000_0111010, .shfld true 71 48 58),
    (0b0_0101_000100_0001100_0110111_0000000, .vany false 12 55),
    (0b1_0101_000101_0010001_0111110_0000000, .vall true 17 62),
    (0b0_0101_000110_0010110_1000101_0000000, .vbal false 22 69),
    (0b1_0101_000111_0011011_0001100_0000000, .matchOp true 27 12),
    (0b0_0101_001000_0100000_0010011_0000000, .gsum false 32 19),
    (0b1_0101_001001_0100101_00000000000000, .lanes true 37),
    (0b0_0101_001010_0101000_00000000000000, .clki false 40),
    (0b1_0101_010000_0101111_00000000010001, .mfs true 47 0x11),
    (0b0_0101_010001_0110100_00000000010001, .mts false 52 0x11)] := by decide +kernel

theorem test_words_g6_1 : readsAs [
    (0b1_0110_000000_0111001_0110110_0101011, .ldb true 57 54 0x2B),
    (0b0_0110_000001_0111110_0111100_0000000, .ldbs false 62 60 0x0),
    (0b1_0110_000010_1000011_1000100_1010101, .ldh true 67 68 0x55),
    (0b0_0110_000011_0001000_0001010_0101010, .ldhs false 8 10 0x2A),
    (0b1_0110_000100_0001101_0010010_1111111, .ldw true 13 18 0x7F),
    (0b0_0110_000101_0010010_0011000_1010100, .ldd false 18 24 0x54),
    (0b1_0110_000110_0010100_0100000_0101001, .ldq true 20 32 0x29),
    (0b0_0110_000111_0011100_0100110_1111110, .stb false 28 38 0x7E),
    (0b1_0110_001000_0100001_0101110_1010011, .sth true 33 46 0x53),
    (0b0_0110_001001_0100110_0110100_0101000, .stw false 38 52 0x28),
    (0b1_0110_001010_0101010_0111100_1111101, .std true 42 60 0x7D),
    (0b0_0110_001011_0110000_1000010_1010010, .stq false 48 66 0x52),
    (0b1_0110_001100_0110101_0001010_0100111, .ldc true 53 10 0x27),
    (0b0_0110_001101_0111010_0010000_1111100, .ldcd false 58 16 0x7C),
    (0b1_0110_010000_0111111_0011000_1000010, .ldbx true 63 24 66),
    (0b0_0110_010001_1000100_0011110_0001101, .ldbsx false 68 30 13),
    (0b1_0110_010010_0001001_0100110_0011000, .ldhx true 9 38 24),
    (0b0_0110_010011_0001110_0101100_0100011, .ldhsx false 14 44 35),
    (0b1_0110_010100_0010011_0110100_0101110, .ldwx true 19 52 46),
    (0b0_0110_010101_0011000_0111010_0111001, .lddx false 24 58 57)] := by decide +kernel

theorem test_words_g6_2 : readsAs [
    (0b1_0110_010110_0011100_1000010_1000100, .ldqx true 28 66 68),
    (0b0_0110_010111_0100010_0001000_0001111, .stbx false 34 8 15),
    (0b1_0110_011000_0100111_0010000_0011010, .sthx true 39 16 26),
    (0b0_0110_011001_0101100_0010110_0100101, .stwx false 44 22 37),
    (0b1_0110_011010_0110000_0011110_0110000, .stdx true 48 30 48),
    (0b0_0110_011011_0110100_0100100_0111011, .stqx false 52 36 59),
    (0b1_0110_011100_0111011_0101100_1000110, .ldcx true 59 44 70),
    (0b0_0110_011101_1000000_0110010_0010001, .ldcdx false 64 50 17)] := by decide +kernel

theorem test_words_g7 : readsAs [
    (0b1_0111_000000_1010110_1010110_110_0000, .fence true 86 86 6),
    (0b0_0111_000001_1100011_1100011_0000000, .pfence false 99 99),
    (0b1_0111_000010_0001111_0001000_0110010, .slacq true 15 8 50),
    (0b0_0111_000011_0000000_0001110_0000000, .slrel false 14),
    (0b1_0111_000100_1101_001_0010110_0000000, .bara true 13 1 22),
    (0b0_0111_000101_1110_010_00000000000000, .barw false 14 2),
    (0b1_0111_000110_1111_000_0100100_0000000, .bar true 15 0 36),
    (0b0_0111_000111_0000_001_0101010_0000000, .barx false 0 1 42),
    (0b1_0111_001000_0101101_0110010_0000000, .mon true 45 50),
    (0b0_0111_001001_0110010_0111000_0000000, .mwait false 50 56)] := by decide +kernel

theorem test_words_g8 : readsAs [
    (0b1_1000_000_010_0110111_011100_1_0001010, .amoAdd true 2 55 28 true 10),
    (0b0_1000_001_011_0111100_100011_0_0010101, .amoAnd false 3 60 35 false 21),
    (0b1_1000_010_100_1000001_001010_0_0100000, .amoOr true 4 65 10 false 32),
    (0b0_1000_011_101_1000110_010001_1_0101011, .amoXor false 5 70 17 true 43),
    (0b1_1000_100_110_0001011_011000_1_0110110, .amoMin true 6 11 24 true 54),
    (0b0_1000_101_000_0010000_011111_0_1000001, .amoMax false 0 16 31 false 65),
    (0b1_1000_110_001_0010101_000110_0_0001100, .amoXchg true 1 21 6 false 12),
    (0b0_1000_111_010_0011010_001101_1_0010111, .amoFadd false 2 26 13 true 23)] := by decide +kernel

theorem test_words_g9 : readsAs [
    (0b1_1001_000_011_0011111_010100_1_0100010, .amoMinu true 3 31 20 true 34),
    (0b0_1001_001_100_0100100_011011_0_0101101, .amoMaxu false 4 36 27 false 45),
    (0b1_1001_010_101_0101000_100010_0_0111000, .amoAdd64 true 5 40 34 false 56),
    (0b0_1001_011_110_0101110_001001_1_1000011, .casW false 6 46 9 true 67),
    (0b1_1001_100_000_0110010_010000_1_0001110, .casD true 0 50 16 true 14),
    (0b0_1001_101_001_0111000_010111_0_0011000, .gts false 1 56 23 false 24),
    (0b1_1001_110_010_0111100_011110_0_0100100, .vcas true 2 60 30 false 36),
    (0b0_1001_111_011_1000010_000101_1_0101110, .tcas false 3 66 5 true 46)] := by decide +kernel

theorem test_words_g10_1 : readsAs [
    (0b1_1010_000000_100_000_1_001100_0_0111010, .redAdd true 4 true 12 58),
    (0b0_1010_000001_101_000_0_010011_0_1000101, .redAnd false 5 false 19 69),
    (0b1_1010_000010_110_000_0_011010_0_0010000, .redOr true 6 false 26 16),
    (0b0_1010_000011_000_000_1_100001_0_0011011, .redXor false 0 true 33 27),
    (0b1_1010_000100_001_000_1_001000_0_0100110, .redMin true 1 true 8 38),
    (0b0_1010_000101_010_000_0_001111_0_0110001, .redMax false 2 false 15 49),
    (0b1_1010_000110_011_000_0_010110_0_0111100, .redMinu true 3 false 22 60),
    (0b0_1010_000111_100_000_1_011101_0_1000111, .redMaxu false 4 true 29 71),
    (0b1_1010_001000_101_000_1_000100_0_0010010, .redFadd true 5 true 4 18),
    (0b0_1010_001001_110_000_0_001011_0_0011101, .redHadd2 false 6 false 11 29),
    (0b1_1010_001010_000_000_0_010010_0_0101000, .redFmin true 0 false 18 40),
    (0b0_1010_001011_001_000_1_011001_0_0110011, .redFmax false 1 true 25 51),
    (0b1_1010_010000_0000000_11111010010101, .txb true 0x3E95),
    (0b1_1010_010001_0001000_00000000000000, .txe 8),
    (0b1_1010_010010_0000000_00000100111111, .txa 0x13F),
    (0b0_1010_010011_0010010_0011000_0011111, .stst false 18 24 31),
    (0b1_1010_010100_0010110_0100000_0101010, .ststd true 22 32 42),
    (0b0_1010_010101_0011100_0100110_0000000, .cwait false 28 38),
    (0b1_1010_010110_0100000_0101110_1000000, .ldas true 32 46 64),
    (0b0_1010_010111_0100110_0110100_0001011, .pdisc false 38 52 11)] := by decide +kernel

theorem test_words_g10_2 : readsAs [
    (0b1_1010_011000_0101011_0111100_0010110, .pmove true 43 60 22)] := by decide +kernel

theorem test_words_g11 : readsAs [
    (0b0_1011_000000_0110000_1000011_0100001, .lease false 48 67 33),
    (0b1_1011_000001_0110101_0001010_0000000, .lwait true 53 10),
    (0b0_1011_000010_0111010_0010001_0000000, .lrel false 58 17),
    (0b1_1011_000011_0111111_0011000_0000000, .lstat true 63 24),
    (0b0_1011_000100_1000100_0011110_0001101, .tcopy false 68 30 13),
    (0b1_1011_000101_0001001_0100110_0011000, .tcopym true 9 38 24),
    (0b0_1011_000110_0001110_0101100_0100011, .gath false 14 44 35),
    (0b1_1011_000111_0010011_0110100_0101110, .scat true 19 52 46),
    (0b0_1011_001000_0011000_0111010_0111001, .coll false 24 58 57),
    (0b1_1011_001001_0011101_1000010_1000100, .vdec true 29 66 68),
    (0b0_1011_001010_0100010_0001000_0000000, .qfence false 34 8),
    (0b1_1011_001011_0100111_00000000000000, .bseal true 39),
    (0b0_1011_001100_0101100_0010111_0000000, .bwait false 44 23),
    (0b1_1011_001101_0110000_0011110_0000000, .bstat true 48 30)] := by decide +kernel

theorem test_words_g12 : readsAs [
    (0b0_1100_000000_0110110_0100101_0111011, .mxma false 54 37 59),
    (0b1_1100_000001_0111011_00000000000000, .accz true 59),
    (0b0_1100_000010_1000000_0110011_0000000, .accout false 64 51),
    (0b1_1100_000011_1000101_00000000000000, .talloc true 69),
    (0b0_1100_000100_0001010_1000001_0000000, .tfree false 10 65),
    (0b1_1100_000101_0001111_0001000_0000000, .tstate true 15 8),
    (0b0_1100_000110_0010100_0001111_0000000, .tset false 20 15),
    (0b1_1100_000111_0011001_0010110_0001000, .twait true 25 22 8),
    (0b0_1100_001000_0011100_0011101_0010011, .ldt false 28 29 19),
    (0b1_1100_001001_0100000_0100100_0011110, .stt true 32 36 30)] := by decide +kernel

theorem test_words_g13 : readsAs [
    (0b1_1101_000000_0000000_00000001011000, .rgive 0x58),
    (0b1_1101_000001_0101101_00000001011000, .rclaim true 45 0x58),
    (0b0_1101_000010_0110010_00000000000000, .rpool false 50),
    (0b1_1101_000011_0110111_1000000_0001010, .spawn true 55 64 10),
    (0b0_1101_000100_0111100_00000000000000, .tokw false 60),
    (0b1_1101_000101_1000001_00000000000000, .tokp true 65),
    (0b0_1101_000110_1000110_00000000000000, .rndb false 70)] := by decide +kernel

theorem test_words_g14 : readsAs [
    (0b1_1110_000000_0001011_10000100000100, .mfsr true 11 0x2104),
    (0b0_1110_000001_0010000_10000100000100, .mtsr false 16 0x2104),
    (0b1_1110_000010_0010101_0101010_0001100, .tlbi true 21 42 12),
    (0b1_1110_000011_000000000000000000000, .eret),
    (0b1_1110_000100_0000000_0111000_0000000, .halt 56),
    (0b0_1110_000101_0100100_0111110_0000000, .ctxsav false 36 62),
    (0b1_1110_000110_0101001_1000110_0111000, .ctxres true 41 70 56),
    (0b0_1110_000111_000010011110100110000, .sysc false 0x13D30)] := by decide +kernel

/-- R54: the word of zeros, an unassigned group and an index with no instruction are refused, and so is a word cut short. -/
theorem test_words_refused : [[0, 0, 0, 0], [0, 0, 0, 0x78], [0, 0, 0xE0, 0x07], [0x84, 0xC2, 0]].all (fun b => !(decode b).isOk) = true := by
  decide

/-! Worked examples and results by hand from the tables of the spec. -/

/-- The words of some code. -/
def assembled (is : List Instr) : List Nat := is.flatMap (fun i => match encode i with
  | none => []
  | some bs => (List.range (bs.length / 4)).map (fun k => leNat ((bs.drop (4 * k)).take 4)))

/-- Table 9 of section 13: walk4. -/
def walk4 : Surveyed where
  img := { placedImage with regions := [range 1 0, range 1 65536], bounds := [], opclass := 2, codeLen := 32 }
  code := slotsFrom 0 false (assembled [.ldcd true 10 2 0, .ldw false 9 10 0, .movi true 12 4, .looph false 12 4, .ffma false 9 9 9,
    .loope false 12 1, .stw false 9 10 1, .exit false])
  loops := [(12, 20)]

/-- What the walk spends: issue slots, park cycles, 1/32 pJ. -/
def spends (x : Surveyed) (n issue park energy : Nat) : Bool :=
  match (walkOf x { clusters := [0], cores := 1, first := 0, slots := n, booked := [] } 3 1 [0, 0] false).cost 0 with
  | .ok p => p.issue == issue && p.park == park && p.energy == energy
  | .error _ => false

/-- 14 slots, 1 820 cycles and 3.343 75 nJ. -/
theorem test_walk_of_walk4 : spends walk4 1 14 1820 107000 = true := by decide +kernel

/-- The code of quoted4 (section 14); the words of Table 3 stand beside the instructions that the tests below decode. -/
def quoted4Code : List Instr :=
  [.movi false 30 4, .bnz true 6 20, .ldq false 12 2 0, .ldq false 16 2 1, .ldq false 20 2 2, .ldq true 24 2 3, .stq false 12 4 0, .stq false 16 4 1,
   .stq false 20 4 2, .stq false 24 4 3, .movi false 9 64, .addx false 16 4 9, .stw false 16 4 7, .stw false 17 4 8, .movi false 25 2,
   .lease true 26 25 29, .lwait true 26 26, .gath false 27 4 26, .bseal true 28, .bwait true 28 29, .pfence false 16 1, .bar true 0 0 30,
   .ldcd false 40 2 10, .ldc true 42 2 22, .shli false 9 6 6, .movi false 11 64, .add false 9 9 11, .addx false 16 4 9, .addx4 false 14 40 6,
   .movi false 10 0, .looph false 42 8, .ldw true 9 16 0, .add false 10 10 9, .add64i false 16 16 4, .loope true 42 3, .stst true 12 14 10,
   .cwait true 11 12, .exit true]

/-- R322: I = 70, P = 16 444 cycles, E = 12.377 5 nJ. -/
def quoted4 : Surveyed where
  img := { placedImage with roles := [(4, 48)], wgSize := 4, scratch := 1024, codeLen := 152,
                            bounds := [(64, 400), (76, 2000), (84, 4000), (144, 1000)],
                            regions := [range 1 0, range 1 65536, range 3 131072], leases := [(2, 1, 1)] }
  code := slotsFrom 0 false (assembled quoted4Code)
  loops := [(120, 136)]

theorem test_walk_of_quoted4 : spends quoted4 1 70 16444 396080 = true := by decide +kernel

/-- Words of Table 3 of section 14, by their place in the code. -/
theorem test_words_of_quoted4 : (assembled quoted4Code).length = 38 ∧ [(0, 0x0C078004), (1, 0xA0618014), (5, 0xB0C60103), (11, 0x03E40209), (12, 0x31240207), (14, 0x0C064002),
    (15, 0xD8068C9D), (16, 0xD8268D00), (17, 0x58C6C21A), (18, 0xD9670000), (19, 0xD9870E80), (20, 0x38240080), (21, 0xB8C00F00), (22, 0x31AA010A),
    (23, 0xB18A8116), (28, 0x04039406), (30, 0x20EA8008), (31, 0xB0824800), (32, 0x00028509), (33, 0x09640804), (34, 0xA10A8003), (35, 0xD263070A),
    (36, 0xD2A2C600), (37, 0xA1600000)].all (fun p => nth 0 (assembled quoted4Code) p.1 == p.2) = true := by decide +kernel

/-- Table 7 of section 1: 96 threads in three sub-groups, 24 KiB, energy class 3: five workgroups on an empty core. -/
theorem test_admission_of_roles :
    { placedImage with roles := [(32, 64), (32, 40), (32, 40)], wgSize := 96, scratch := 24576, energy := 3 : Image }.admission = 5 := by decide +kernel

/-- Table 9 of section 3: the LC8 products and the sum 59 983 x 2^29. -/
theorem test_lc8_products : lc8Product 0x4D 0x3A = 6889 * 2 ^ 33 ∧ lc8Product 0xC6 0x3D = -(6889 * 2 ^ 32) ∧ lc8Product 0x39 0x3C = 4871 * 2 ^ 29 ∧
    (accGroup 0 0 [(0x4D, true), (0xC6, true), (0x39, true), (0, false)] [(0x3A, true), (0x3D, true), (0x3C, true), (0x44, true)]).1 = 59983 * 2 ^ 29 := by
  decide +kernel

/-- R93's readouts of it: FP32, BF16 and LC8. -/
theorem test_readouts : (let x := { Accumulator.fresh with type := some 0, elems := [59983 * 2 ^ 29] }
    (readout x 0 4).1 = 0x3FEA4F00 ∧ (readout x 0 2).1 = 0x3FEA ∧ (readout x 0 0).1 = 0x43) := by decide +kernel

/-- Table 3 of R82, and operands for NumberFormats. -/
theorem witness_NumberFormats : ((0 : Nat) < 3 ∧ 1 ≤ (21 : Nat) ∧ (21 : Nat) ≤ 31) ∧ lg6ToLc8 0x15 2 = (0x4D, false) ∧ lg6ToLc8 0x2E 2 = (0xC6, false) ∧
    lg6ToLc8 0x01 2 = (0x39, false) ∧ lg6ToLc8 0x1F 12 = (0x7F, false) ∧ lg6ToLc8 0x01 (-12) = (0x01, false) ∧ lc8Encode (.fin false 3 0) = (0x46, false) := by
  decide

/-- Whether an instruction writes the word at once, or owes it until its park (R60). -/
def gives (i : Instr) (ps : List (Nat × Word)) (d : Nat) (x : Word) : Bool :=
  (thread (after i (regs ps base))).readW d == x || (thread (after i (regs ps base))).results.any (fun r => r.dest[0]? == some d && r.value == some [some x])

/-- R127 to R129 on edges; the last is the BFXS of section 5. -/
theorem test_integer_edges : gives (.add false 9 10 11) [(10, 0xFFFFFFFF), (11, 2)] 9 1 ∧ gives (.mulh false 9 10 11) [(10, 0x80000000), (11, 2)] 9 0xFFFFFFFF ∧
    gives (.sra false 9 10 11) [(10, 0x80000000), (11, 33)] 9 0xC0000000 ∧ gives (.divu false 9 10 11) [(10, 7), (11, 0)] 9 0xFFFFFFFF ∧
    gives (.remu false 9 10 11) [(10, 7), (11, 0)] 9 7 ∧ gives (.slt false 9 10 11) [(10, 0xFFFFFFFF), (11, 0)] 9 1 ∧
    gives (.addx false 8 10 12) [(10, 0), (11, 1), (12, 0xFFFFFFFF)] 8 0xFFFFFFFF ∧ gives (.addx false 8 10 12) [(8, 7), (9, 7), (10, 0), (11, 1), (12, 0xFFFFFFFF)] 9 0 ∧
    gives (.bfxs false 9 10 11) [(10, 0xF00), (11, 0x68)] 9 0xFFFFFFFF := by
  decide +kernel

/-- R71, R132: 2^24 + 1 rounds to the even 2^24, an infinite difference is the quiet NaN 0x7FC0_0000, and a product too large is infinite. -/
theorem test_float_edges : gives (.fadd false 9 10 11) [(10, 0x4B800000), (11, 0x3F800000)] 9 0x4B800000 ∧
    gives (.fsub false 9 10 11) [(10, 0x7F800000), (11, 0x7F800000)] 9 0x7FC00000 ∧
    gives (.fmul false 9 10 11) [(10, 0x7F000000), (11, 0x7F000000)] 9 0x7F800000 := by decide +kernel

/-- R57: the word of zeros raises ILLEGAL; with a handler the thread goes there with its PC in %epc. -/
theorem test_illegal_is_vectored : (let s := State.reset.withFetchWord 32 0
    match step { s with wgs := s.wgs.map (fun w => { w with threads := w.threads.map (fun t => { t with tvec := 4 }) }) } with
    | .next t => (thread t).pc == 4 && (thread t).epc == 0 && (thread t).ecause.toNat % 2 ^ 31 / 2 ^ 0 != 0
    | _ => false) = true := by decide +kernel

/-- One step from reset with ADD w3, w5, w4 placed runs it: the thread's PC is past it. -/
theorem test_step_runs_add : (match step (State.reset.withFetchWord 32 0x8000C284) with
    | .next t => (thread t).pc == 4
    | _ => false) = true := by decide +kernel

/-- The digest of R337 of the three bytes "abc", as FIPS 180-4's example gives it. -/
theorem test_sha384_abc : beNat (sha384 [0x61, 0x62, 0x63]) =
    0xcb00753f45a35e8bb5a03d699ac65007272c32ab0eded1631a8b605a43ff5bed8086072ba1e7cc2358baeca134c825a7 := by decide +kernel

/-! The assembler: Tables 3 of R394 and 8 of R69, and a whole source. -/

/-- The words of one statement, or what the assembler says of it. -/
def statement (s : String) : Except (Nat × Tirkel.Complaint) (Nat × Option Nat) :=
  let x := Tirkel.Source.readLine { phase := .code } 1 s.toList
  match x.complaints, x.placed with
  | [], [p] => (p.code x.labels).map (fun c => (c.word, c.lit))
  | c :: _, _ => .error c.2
  | _, _ => .error (0, .operands)

/-- Whether a statement assembles to a word and a literal. -/
def words (s : String) (w : Nat) (lit : Option Nat) : Bool := match statement s with
  | .ok r => decide (r = (w, lit))
  | .error _ => false

/-- Whether a statement is refused so. -/
def refusal (s : String) (c : Tirkel.Complaint) : Bool := match statement s with
  | .ok _ => false
  | .error e => decide (e.2 = c)

/-- Table 3 of R394: statements and the assembler's response. -/
theorem test_assembler_responses : (words "ADDI w9, w9, -64" 0x080244C0 none && refusal "ADDI w9, w9, 64" (.range (-64) 63) &&
    words "SLTUI w9, w10, -1" 0x0902457F none && refusal "LDD w9:10, [w10:11 + 0]" .oddPair &&
    refusal "SHLI w9, w9, 32" (.range 0 31) && refusal "MOVI w9, 9000" (.range (-8192) 8191) && refusal "RGIVE 56" .markMissing &&
    refusal "AMO.ADD w9, [w10:11], w12" .suffixMissing && words "BNZ w9, -2" 0xA0627FFE none &&
    refusal "MFSR w9, %pqc.8" .die) = true := by decide +kernel

/-- Table 8 of R69, the indexed form of R388, R369's %pqc.1 and the aliases of R56. -/
theorem test_assembled_words : (words "ADD w9, w10, w11 !" 0x8002450B none && words "MOVW w20, 0x1234_5678" 0x0C250000 (some 0x12345678) &&
    words "LDW w12, [w10:11 + 2]" 0x30830502 none && words "FENCE.clu st, ld" 0x380080A0 none &&
    words "AMO.ADD.clu w9, [w10:11], w12" 0x4042450C none && words "BR 6" 0xA0000006 none &&
    words "LDB w9, [w10:11 + w12]" 0x3202450C none && words "mtsr w9, %PQC.1" 0x70226213 none && words "NOP" 0x08020400 none &&
    refusal "ADD w0, w0, w0" .encoding) = true := by decide +kernel

/-- A source of one kernel (the last row of Table 3 of R394 among its statements). -/
def source : List Char := (".kernel k\n.wg 32\n.regs 16\n.energy 1\n.opclass 2\n.region a, global, 128 ; one\n" ++
  "LDW w9, [w10:11 + 0]\nADDI w9, w9, 5\nEXIT\n.end\n").toList

/-- The source assembles (R299, R301), with the warnings of R60. -/
theorem test_assembler_image : (match Tirkel.assemble "k.tkl" source with
    | { image := some b, diagnostics := ds } => leNat (b.take 4) == 0x4B483921 && leNat ((b.drop 0x24).take 4) == 12 &&
      leNat ((b.drop 0x80).take 4) == 0x30824500 && leNat ((b.drop 0x88).take 4) == 0xA1600000 &&
      leNat ((b.drop 0x90).take 4) == 1 && leNat ((b.drop 0x98).take 4) == 128 &&
      ds.map (fun d => (d.line, d.col, d.complaint)) == [(8, 1, .loadWins), (8, 1, .readsPending)]
    | _ => false) = true := by decide +kernel

/-- Whether a source assembles. -/
def assembles (s : String) : Bool := (Tirkel.assemble "k.tkl" s.toList).image.isSome

/-- R385, R388, R392: the last line ends too, comments are ASCII, a directive may bear a label, and a polder without bytes has no capacity. -/
theorem test_assembler_file_rules :
    (let head := ".kernel k\n.wg 32\n.regs 16\n.energy 1\n.opclass 2\n"
     assembles (head ++ "EXIT\n.end\n") && !assembles (head ++ "EXIT\n.end") && !assembles (head ++ "EXIT ; \u00e9\n.end\n") &&
     assembles (head ++ "EXIT\n.data d\nt: .word 5\ne: .end\n") && !assembles (head ++ ".polder p, 0, 0, fault, 64k\nEXIT\n.end\n") &&
     assembles (head ++ ".polder p, 65536, 0, fault, 64k\nEXIT\n.end\n")) = true := by decide +kernel

end Sys2Proof.Tests
end

section
/-! SUPPORT. Statement O55: what holds right after reset. -/

namespace Sys2Proof.Machine

/-- Every die that the module has is as after reset right after reset. -/
theorem State.reset_die {k : Nat} (hk : k < 8) : State.reset.die k = Die.reset k := by
  interval_cases k <;> rfl

/-- No leaf controller holds a continuation record right after reset. -/
theorem State.reset_holdsRecords (k : Nat) : State.reset.holdsRecords k = false := by
  have hbins : ∀ c ∈ State.reset.clusters, c.bins = [] := by decide
  have hlaunches : State.reset.launches = [] := rfl
  simp only [State.holdsRecords, hlaunches, List.any_nil, Bool.or_false, List.any_eq_false]
  intro c hc
  simp [hbins c hc]

/-- No die has anything that keeps it from quiescing right after reset. -/
theorem State.reset_busyBits (k : Nat) : State.reset.busyBits k = 0 := by
  have hsites : State.reset.sites = [] := rfl
  have hlaunches : State.reset.launches = [] := rfl
  have hrequests : State.reset.requests = [] := rfl
  simp [State.busyBits, State.reset_holdsRecords, hsites, hlaunches, hrequests]

/-- Settles O55: the state right after reset, read field by field; a thread that starts likewise. -/
theorem resetValues : Obligations.ResetValues := by
  unfold Obligations.ResetValues
  refine ⟨rfl, rfl, rfl, rfl, rfl, rfl, fun k hk => ?_, fun c => ⟨rfl, rfl, rfl⟩,
    fun tid sub pc n l b args => ⟨rfl, rfl, rfl, rfl, rfl, rfl, rfl, rfl⟩, fun a => ⟨rfl, rfl⟩⟩
  rw [State.reset_die hk]
  exact ⟨rfl, State.reset_busyBits k, rfl, rfl, rfl, rfl⟩
end Sys2Proof.Machine

end

section
/-! SUPPORT. Statement O58: what a step fetches, decodes and performs. -/

namespace Sys2Proof

/-! Words and their literals (R46, R70, R131). -/

/-- In group 0x1 the literal word matters to the index of MOVW alone (R53, R70). -/
theorem decodeGroup1_literal {idx : Nat} (h : idx ≠ 33) (w : Nat) (lit : Option Nat) : decodeGroup1 idx w lit = decodeGroup1 idx w none := by
  unfold decodeGroup1
  split <;> try rfl
  exact absurd rfl h

/-- The literal word matters to a MOVW alone (R70). -/
theorem decodeWords_not_movw {w : Nat} (hw : isMovw w = false) (lit : Option Nat) : decodeWords w lit = decodeWords w none := by
  have hraw : decodeRaw (w % 2 ^ 32) lit = decodeRaw (w % 2 ^ 32) none := by
    simp only [isMovw, beq_eq_false_iff_ne] at hw
    unfold decodeRaw
    split <;> try rfl
    next hgroup => exact decodeGroup1_literal (by omega) _ lit
  simp only [decodeWords, hraw]

/-- The opcode of MOVW: group 0x1, index 33 (R53). -/
theorem decodeRaw_movw {w : Nat} (hw : isMovw w = true) (lit : Option Nat) :
    decodeRaw (w % 2 ^ 32) lit = decodeGroup1 33 (w % 2 ^ 32) lit := by
  simp only [isMovw, beq_iff_eq] at hw
  have hg : w % 2 ^ 32 / 2 ^ 27 % 16 = 1 := by omega
  have hidx : w % 2 ^ 32 / 2 ^ 21 % 64 = 33 := by omega
  simp only [decodeRaw, hg, hidx]

/-- A MOVW without its literal word is no instruction (R70). -/
theorem decodeWords_movw_none {w : Nat} (hw : isMovw w = true) (i : Instr) : decodeWords w none ≠ .ok i := by
  simp only [decodeWords, decodeRaw_movw hw, decodeGroup1, unused]
  split_ifs <;> simp

/-- A MOVW decodes with every literal word or with none of them, and takes 8 bytes (R70, R131). -/
theorem decodeWords_movw_some {w v : Nat} {i : Instr} (hw : isMovw w = true) (h : decodeWords w (some v) = .ok i) (v' : Nat) :
    ∃ j, decodeWords w (some v') = .ok j ∧ j.bytes = 8 := by
  simp only [decodeWords, decodeRaw_movw hw, decodeGroup1, unused] at h ⊢
  split_ifs at h ⊢ with hzero hunused
  · exact ⟨_, rfl, rfl⟩

/-- An instruction takes one word or two (R46). -/
theorem Instr.bytes_eq (i : Instr) : i.bytes = 4 ∨ i.bytes = 8 := by
  unfold Instr.bytes
  split
  · exact .inr rfl
  · exact .inl rfl

/-- A word alone decodes to an instruction with nothing after it: it is no MOVW, and whatever follows does not matter. -/
theorem decodeWords_of_decode_word {b0 b1 b2 b3 : Byte} {i : Instr} (h : decode [b0, b1, b2, b3] = .ok (i, [])) (lit : Option Nat) :
    decodeWords (leNat [b0, b1, b2, b3]) lit = .ok i := by
  cases hw : isMovw (leNat [b0, b1, b2, b3]) <;> cases hd : decodeWords (leNat [b0, b1, b2, b3]) none <;>
    simp only [decode, hw, hd, Except.map, if_true, Bool.false_eq_true, if_false, Except.ok.injEq, Prod.mk.injEq, and_true, reduceCtorEq] at h
  · rw [decodeWords_not_movw hw, hd, h]
  · exact absurd hd (decodeWords_movw_none hw _)

/-- Two words decode to an instruction with nothing after it: a MOVW and its literal. -/
theorem decodeWords_of_decode_pair {b0 b1 b2 b3 c0 c1 c2 c3 : Byte} {i : Instr}
    (h : decode [b0, b1, b2, b3, c0, c1, c2, c3] = .ok (i, [])) :
    isMovw (leNat [b0, b1, b2, b3]) = true ∧ decodeWords (leNat [b0, b1, b2, b3]) (some (leNat [c0, c1, c2, c3])) = .ok i := by
  cases hw : isMovw (leNat [b0, b1, b2, b3])
  · cases hd : decodeWords (leNat [b0, b1, b2, b3]) none <;>
      simp [decode, hw, hd, Except.map] at h
  · cases hd : decodeWords (leNat [b0, b1, b2, b3]) (some (leNat [c0, c1, c2, c3])) <;>
      simp only [decode, hw, hd, Except.map, if_true, Except.ok.injEq, Prod.mk.injEq, and_true, reduceCtorEq] at h
    rw [h]
    exact ⟨rfl, rfl⟩

/-- Words that decode are those that some bytes begin with: the word alone, or with its literal after it. -/
theorem decode_of_decodeWords {b0 b1 b2 b3 c0 c1 c2 c3 : Byte} {i : Instr}
    (h : decodeWords (leNat [b0, b1, b2, b3]) (some (leNat [c0, c1, c2, c3])) = .ok i) :
    ∃ r, decode [b0, b1, b2, b3, c0, c1, c2, c3] = .ok (i, r) := by
  cases hw : isMovw (leNat [b0, b1, b2, b3])
  · rw [decodeWords_not_movw hw] at h
    exact ⟨[c0, c1, c2, c3], by simp only [decode, hw, h, Except.map, Bool.false_eq_true, if_false]⟩
  · exact ⟨[], by simp only [decode, hw, h, Except.map, if_true]⟩

end Sys2Proof

namespace Sys2Proof.Machine

/-! The detectors' note (R238), and what a core's issue reads. -/

/-- The detectors' note changes when workgroups are said to be stuck, and nothing else (R238). -/
theorem State.noteStuck_marks (s : State) :
    ∃ f : Workgroup → Option Nat, s.noteStuck = { s with wgs := s.wgs.map (fun w => { w with stuckAt := f w }) } := by
  unfold State.noteStuck
  split
  · exact ⟨fun w => w.stuckAt, by simp⟩
  · exact ⟨s.stuckSince, rfl⟩

/-- Where nobody claims and nobody is noted, there is nothing to note. -/
theorem State.noteStuck_of_none (s : State) (h : ∀ w ∈ s.wgs, w.claims = [] ∧ w.stuckAt = none) : s.noteStuck = s := by
  have hall : s.wgs.all (fun w => w.claims.isEmpty && w.stuckAt.isNone) = true := by
    rw [List.all_eq_true]
    intro w hw
    simp [h w hw]
  simp only [State.noteStuck, hall, if_true]

theorem State.noteStuck_eq (s : State) : s.noteStuck = { s with wgs := s.noteStuck.wgs } := by
  obtain ⟨f, hf⟩ := s.noteStuck_marks
  rw [hf]
@[simp] theorem State.noteStuck_agenda (s : State) : s.noteStuck.agenda = s.agenda := by rw [State.noteStuck_eq]

/-- The state in which a move of the agenda takes place: the detectors have noted what stands (R238), and the moves `ms` are left. -/
def State.atTurn (s : State) (ms : List Move) : State := { s.noteStuck with agenda := ms }

theorem State.atTurn_eq (s : State) (ms : List Move) : s.atTurn ms = { s with wgs := s.noteStuck.wgs, agenda := ms } := by
  unfold State.atTurn
  rw [State.noteStuck_eq]

/-- Neither what the detectors note nor the moves to come bear on what a core fetches and issues. -/
theorem State.atTurn_fetch (s : State) (ms : List Move) (core ctx pc : Nat) : (s.atTurn ms).fetch core ctx pc = s.fetch core ctx pc := by
  rw [State.atTurn_eq]; rfl
theorem State.atTurn_badCode (s : State) (ms : List Move) (core : Nat) (e : PcEntry) : (s.atTurn ms).badCode core e = s.badCode core e := by
  rw [State.atTurn_eq]; rfl
theorem State.atTurn_pick (s : State) (ms : List Move) (core : Nat) : (s.atTurn ms).pick core = s.noteStuck.pick core := rfl
theorem State.atTurn_coreOf (s : State) (ms : List Move) (c : Nat) : (s.atTurn ms).coreOf c = s.coreOf c := by
  rw [State.atTurn_eq]; rfl

/-- Where the agenda gives a core the turn, the machine does what that core's issue is (R20). -/
theorem State.turnOf_issue {s : State} {core : Nat} {ms : List Move} {x : Turn × State} (hturn : s.agenda = .issue core :: ms)
    (hissue : (s.atTurn ms).issueAt core = some x) : s.turnOf = x := by
  unfold State.turnOf
  simp only [State.noteStuck_agenda, hturn]
  change (match (s.atTurn ms).issueAt core with | some y => y | none => _) = x
  rw [hissue]

section
variable {s : State} {core : Nat} {ms : List Move} {e : PcEntry} (hturn : s.agenda = .issue core :: ms) (hpick : s.noteStuck.pick core = some e)
include hturn hpick

/-- An issue whose turn it is consumes the block known bad that its instruction lies in (R366). -/
theorem step_issue_bad {x : Nat} {b : Nat × Word} (hbad : s.badCode core e = some (x, b)) :
    step s = .next ((s.atTurn ms).consumeBad e.ctx e.wg x b) := by
  have hissue : (s.atTurn ms).issueAt core = some (.quiet, (s.atTurn ms).consumeBad e.ctx e.wg x b) := by
    simp only [State.issueAt, State.atTurn_pick, hpick, State.atTurn_badCode, hbad]
  simp only [step, State.turnOf_issue hturn hissue]

/-- An issue whose turn it is performs the instruction that it fetches (R20, R46). -/
theorem step_issue_ok {i : Instr} (hbad : s.badCode core e = none) (hfetch : s.fetch core e.ctx e.pc = .ok i) :
    step s = exec i ((s.atTurn ms).issueFrom core e) := by
  have hissue : (s.atTurn ms).issueAt core = some (.issue i, (s.atTurn ms).issueFrom core e) := by
    simp only [State.issueAt, State.atTurn_pick, hpick, State.atTurn_badCode, hbad, State.atTurn_fetch, hfetch]
  simp only [step, State.turnOf_issue hturn hissue]

/-- An issue whose turn it is performs ILLEGAL_WORD_ISSUE where it fetches no instruction (R46, R54, R70). -/
theorem step_issue_error {x : Nat} (hbad : s.badCode core e = none) (hfetch : s.fetch core e.ctx e.pc = .error x) :
    step s = exec (.illegalWordIssue (BitVec.ofNat 32 x)) ((s.atTurn ms).issueFrom core e) := by
  have hissue : (s.atTurn ms).issueAt core =
      some (.event (.illegalWordIssue (BitVec.ofNat 32 x)), (s.atTurn ms).issueFrom core e) := by
    simp only [State.issueAt, State.atTurn_pick, hpick, State.atTurn_badCode, hbad, State.atTurn_fetch, hfetch]
  simp only [step, State.turnOf_issue hturn hissue]
  rfl

end

/-! What a core fetches (R46, R54, R70), by the bytes at the PC. -/

/-- A byte of a launch's code section, by its offset from a PC, as an agent of a die fetches it. -/
def codeByte (s : State) (die : Nat) (l : Launch) (pc j : Nat) : Byte := Cells.get s.mem (s.locOf die (l.imageAddr + l.img.codeOff + pc + j))

theorem State.codeWord_bytes (s : State) (die : Nat) (l : Launch) (pc : Nat) (h : pc + 4 ≤ l.img.codeLen) : s.codeWord die l pc =
    some (leNat [codeByte s die l pc 0, codeByte s die l pc 1, codeByte s die l pc 2, codeByte s die l pc 3]) := if_pos h

theorem State.codeWord_next (s : State) (die : Nat) (l : Launch) (pc : Nat) (h : pc + 8 ≤ l.img.codeLen) : s.codeWord die l (pc + 4) =
    some (leNat [codeByte s die l pc 4, codeByte s die l pc 5, codeByte s die l pc 6, codeByte s die l pc 7]) := if_pos (by omega)

theorem State.codeWord_beyond (s : State) (die : Nat) (l : Launch) (pc : Nat) (h : l.img.codeLen < pc + 4) : s.codeWord die l pc = none :=
  if_neg (by omega)

section
variable {s : State} {core ctx pc : Nat} {l : Launch} (hl : s.launch ctx = some l)
include hl

/-- A PC whose word is not all in the code section (R46). -/
theorem State.fetch_beyond (h : l.img.codeLen < pc + 4) : s.fetch core ctx pc = .error pc := by
  simp only [State.fetch, hl, s.codeWord_beyond _ l pc h]

/-- A word that is no instruction, whatever literal follows it (R54). -/
theorem State.fetch_undecoded {w : Nat} (hword : s.codeWord (coreDie core) l pc = some w)
    (h : ∀ i, decodeWords w (some ((s.codeWord (coreDie core) l (pc + 4)).getD 0)) ≠ .ok i) : s.fetch core ctx pc = .error 0 := by
  simp only [State.fetch, hl, hword]
  split
  · next i hi => exact absurd hi (h i)
  · rfl

/-- A word that decodes, and whose literal lies in the code section where it takes one (R46, R70). -/
theorem State.fetch_decoded {w : Nat} {i : Instr} (hword : s.codeWord (coreDie core) l pc = some w)
    (h : decodeWords w (some ((s.codeWord (coreDie core) l (pc + 4)).getD 0)) = .ok i)
    (hlit : i.bytes = 8 → (s.codeWord (coreDie core) l (pc + 4)).isSome = true) : s.fetch core ctx pc = .ok i := by
  have hno : (i.bytes == 8 && (s.codeWord (coreDie core) l (pc + 4)).isNone) = false := by
    rw [Bool.and_eq_false_iff, beq_eq_false_iff_ne, Option.isNone_eq_false_iff]
    exact (Classical.em (i.bytes = 8)).symm.imp_right hlit
  simp only [State.fetch, hl, hword, h, hno, Bool.false_eq_true, if_false]

/-- A MOVW whose literal word lies beyond the code's end (R70). -/
theorem State.fetch_cut {w : Nat} {i : Instr} (hword : s.codeWord (coreDie core) l pc = some w)
    (hnext : s.codeWord (coreDie core) l (pc + 4) = none) (h : decodeWords w (some 0) = .ok i) (hlit : i.bytes = 8) :
    s.fetch core ctx pc = .error (pc + 4) := by
  simp only [State.fetch, hl, hword, hnext, Option.getD_none, h, hlit, beq_self_eq_true, Option.isNone_none, Bool.and_self, if_true]

end

/-! The group that an issue takes (R20). -/

/-- What a fold that keeps what it has or takes the element it is at leaves is an element, or what it had. -/
theorem foldl_pick_mem {α : Type} {f : Option α → α → Option α} (hf : ∀ m x, f m x = some x ∨ f m x = m) {xs : List α} {m : Option α}
    {t : α} (h : xs.foldl f m = some t) : t ∈ xs ∨ m = some t := by
  induction xs generalizing m with
  | nil => exact .inr h
  | cons x xs ih =>
    rcases ih h with hmem | hm
    · exact .inl (List.mem_cons_of_mem _ hmem)
    · rcases hf m x with hx | hkeep
      · rw [hx] at hm
        cases hm
        exact .inl List.mem_cons_self
      · exact .inr (hkeep ▸ hm)

/-- The thread that issues on a lane is one of the entry's. -/
theorem State.oldestOn_mem {s : State} {e : PcEntry} {lane k : Nat} (h : s.oldestOn e lane = some k) : k ∈ e.tids := by
  unfold State.oldestOn at h
  obtain ⟨t, ht, rfl⟩ := Option.map_eq_some_iff.mp h
  have hpick := foldl_pick_mem (fun m x => by
    cases m with
    | none => exact .inl rfl
    | some u => exact (Classical.em (x.stamp < u.stamp)).imp (fun h => if_pos h) (fun h => if_neg h)) ht
  rcases hpick with hmem | hnone
  · obtain ⟨j, hj, hthread⟩ := List.mem_filterMap.mp hmem
    rw [State.threadOf_tid hthread]
    exact (List.mem_filter.mp hj).1
  · cases hnone

theorem Core.fillWay_id (c : Core) (set : Nat) : (c.fillWay set).id = c.id := by
  unfold Core.fillWay
  split
  · split <;> rfl
  · rfl

theorem Core.freeEntries_id (c : Core) : c.freeEntries.id = c.id := by
  have hfold : ∀ (sets : List Nat) (c : Core), (sets.foldl Core.fillWay c).id = c.id := by
    intro sets
    induction sets with
    | nil => exact fun _ => rfl
    | cons x xs ih => exact fun c => (ih _).trans (c.fillWay_id x)
  exact hfold _ _

theorem Core.take_id (c : Core) (age : Nat) (tids : List Nat) : (c.take age tids).id = c.id := Core.freeEntries_id _

/-- An issue takes its group and its core's slot, and nothing else (R20). -/
theorem State.issueFrom_eq (s : State) (core : Nat) (e : PcEntry) :
    s.issueFrom core e = { s with group := some (s.groupOf core e), cores := (s.issueFrom core e).cores } := by
  unfold State.issueFrom
  dsimp only
  rw [State.modCore_eq]

theorem State.issueFrom_coreOf (s : State) (core : Nat) (e : PcEntry) {c : Nat} (h : c ≠ core) :
    (s.issueFrom core e).coreOf c = s.coreOf c := by
  have := s.coreOf_modCore core (fun c => { c.take e.age (s.groupOf core e).tids with slots := c.slots + 1 }) (fun c => c.take_id _ _) c
  rwa [if_neg h] at this

/-! A block known bad at an issue (R365, R366). -/

/-- A block that is found bad is one known bad, whatever locations it was found at (R365). -/
theorem State.badBlock_mem {s : State} {key n : Nat} {b : Nat × Word} (h : s.badBlock key n = some b) : b ∈ s.badCheck :=
  List.mem_of_find?_eq_some h

section
variable {s : State} {core : Nat} {e : PcEntry} {l : Launch}

/-- Where no block is known bad, no code is. -/
theorem State.badCode_sound (h : s.badCheck = []) : s.badCode core e = none := by
  simp [State.badCode, h]

/-- The word at the PC lies in a block known bad. -/
theorem State.badCode_word (hl : s.launch e.ctx = some l) (hlen : e.pc + 4 ≤ l.img.codeLen) {b : Nat × Word}
    (hbad : s.badBlock (s.locOf (coreDie core) (l.imageAddr + l.img.codeOff + e.pc)) 4 = some b) :
    s.badCode core e = some (l.imageAddr + l.img.codeOff + e.pc, b) := by
  have hsome : s.badCheck.isEmpty = false := by
    rw [List.isEmpty_eq_false_iff]
    exact List.ne_nil_of_mem (State.badBlock_mem hbad)
  simp [State.badCode, hsome, withLaunch, hl, hlen, hbad]

/-- A word of the code, looked up among the blocks known bad: the address and the block are the word's. -/
theorem State.badWord_some {die pa x : Nat} {b : Nat × Word} {p : Prop} [Decidable p]
    (h : (if p then (s.badBlock (s.locOf die pa) 4).map (fun c => (pa, c)) else none) = some (x, b)) : b ∈ s.badCheck ∧ x = pa := by
  split at h
  · obtain ⟨c, hc, hxb⟩ := Option.map_eq_some_iff.mp h
    cases hxb
    exact ⟨State.badBlock_mem hc, rfl⟩
  · cases h

/-- What is found bad at an issue is the word at the PC, or the literal after it (R70, R366). -/
theorem State.badCode_some (hl : s.launch e.ctx = some l) {x : Nat} {b : Nat × Word} (h : s.badCode core e = some (x, b)) :
    b ∈ s.badCheck ∧ (x = l.imageAddr + l.img.codeOff + e.pc ∨ x = l.imageAddr + l.img.codeOff + e.pc + 4) := by
  unfold State.badCode withLaunch at h
  rw [hl] at h
  dsimp only at h
  split at h
  · cases h
  · split at h
    · next y hy =>
      rw [h] at hy
      exact (State.badWord_some hy).imp_right .inl
    · split at h
      · exact (State.badWord_some h).imp_right .inr
      · cases h
    · cases h

end

/-! What a step performs of the bytes at the PC. -/

section
variable {s : State} {core : Nat} {e : PcEntry} {l : Launch} {i : Instr} {code : Nat → List Byte} (hl : s.launch e.ctx = some l)
  (hcode : ∀ n, code n = (List.range n).map (codeByte s (coreDie core) l e.pc))
include hl hcode

/-- Bytes of the code section that decode to an instruction, all of them, are fetched as it (R46). -/
theorem State.fetch_of_decode (hlen : e.pc + i.bytes ≤ l.img.codeLen) (h : decode (code i.bytes) = .ok (i, [])) :
    s.fetch core e.ctx e.pc = .ok i := by
  rw [hcode] at h
  rcases i.bytes_eq with hbytes | hbytes <;> rw [hbytes] at h hlen
  · exact State.fetch_decoded hl (s.codeWord_bytes _ l e.pc hlen) (decodeWords_of_decode_word h _) (fun h8 => by omega)
  · obtain ⟨_, hwords⟩ := decodeWords_of_decode_pair h
    have hnext := s.codeWord_next (coreDie core) l e.pc hlen
    refine State.fetch_decoded hl (s.codeWord_bytes _ l e.pc (by omega)) ?_ (fun _ => by rw [hnext]; rfl)
    rw [hnext]
    exact hwords

/-- A word that decodes with no literal after it is no instruction (R54). -/
theorem State.fetch_of_no_decode (hlen : e.pc + 4 ≤ l.img.codeLen) (h : ∀ x i r, decode (code 4 ++ x) ≠ .ok (i, r)) :
    s.fetch core e.ctx e.pc = .error 0 := by
  refine State.fetch_undecoded hl (s.codeWord_bytes _ l e.pc hlen) (fun i hi => ?_)
  rw [hcode] at h
  by_cases hnext : e.pc + 8 ≤ l.img.codeLen
  · rw [s.codeWord_next _ l e.pc hnext] at hi
    obtain ⟨r, hr⟩ := decode_of_decodeWords hi
    exact h _ i r hr
  · rw [s.codeWord_beyond _ l (e.pc + 4) (by omega)] at hi
    obtain ⟨r, hr⟩ := decode_of_decodeWords (c0 := 0) (c1 := 0) (c2 := 0) (c3 := 0) hi
    exact h [0, 0, 0, 0] i r hr

/-- A MOVW in the last word of the code section raises ILLEGAL at its literal (R70). -/
theorem State.fetch_of_cut_literal {x : List Byte} (hlen : e.pc + 4 ≤ l.img.codeLen) (hend : l.img.codeLen < e.pc + 8) (hx : x.length = 4)
    (h : decode (code 4 ++ x) = .ok (i, [])) : s.fetch core e.ctx e.pc = .error (e.pc + 4) := by
  obtain ⟨c0, c1, c2, c3, rfl⟩ : ∃ c0 c1 c2 c3, x = [c0, c1, c2, c3] := by
    match x, hx with
    | [c0, c1, c2, c3], _ => exact ⟨c0, c1, c2, c3, rfl⟩
  rw [hcode] at h
  obtain ⟨hmovw, hwords⟩ := decodeWords_of_decode_pair h
  obtain ⟨j, hj, hbytes⟩ := decodeWords_movw_some hmovw hwords 0
  exact State.fetch_cut hl (s.codeWord_bytes _ l e.pc hlen) (s.codeWord_beyond _ l (e.pc + 4) (by omega)) hj hbytes

end

/-- Settles O58: the turn of an issue, by what the core fetches; the detectors' note and the moves to come do not bear on it. -/
theorem stepRunsDecoded : Obligations.StepRunsDecoded := by
  unfold Obligations.StepRunsDecoded
  refine ⟨fun s => ⟨s.noteStuck_marks, s.noteStuck_of_none⟩, ?_, ?_, ?_, ?_⟩
  · intro s core ms e l pa hturn hpick hl hpa
    subst hpa
    exact ⟨State.badCode_sound, fun hlen b hb => step_issue_bad hturn hpick (State.badCode_word hl hlen hb),
      fun x b hb => ⟨(State.badCode_some hl hb).1, (State.badCode_some hl hb).2, step_issue_bad hturn hpick hb⟩⟩
  · intro s core ms e l code hturn hpick hl hbad hcode
    refine ⟨(s.atTurn ms).issueFrom core e, (s.atTurn ms).groupOf core e, State.issueFrom_eq _ core e, rfl, rfl, rfl, rfl, ?_, ?_, ?_, ?_, ?_, ?_⟩
    · intro k hk
      obtain ⟨lane, _, hlane⟩ := List.mem_filterMap.mp hk
      exact State.oldestOn_mem hlane
    · exact fun c hc => (State.issueFrom_coreOf _ core e hc).trans (s.atTurn_coreOf ms c)
    · exact fun i hlen hi => step_issue_ok hturn hpick hbad (State.fetch_of_decode hl hcode hlen hi)
    · exact fun hlen hno => step_issue_error hturn hpick hbad (State.fetch_of_no_decode hl hcode hlen hno)
    · exact fun x i hlen hend hx hi => step_issue_error hturn hpick hbad (State.fetch_of_cut_literal hl hcode hlen hend hx hi)
    · exact fun hend => step_issue_error hturn hpick hbad (State.fetch_beyond hl hend)
  · intro s t i hturn
    simp only [step, hturn]
  · intro s t e hturn
    simp only [step, hturn]

end Sys2Proof.Machine

end

section
/-! SUPPORT. Statement O42: continuation records, the bins they wait in and the workgroups they form. -/

namespace Sys2Proof

/-! Sorting keeps a list's elements, and ranges run on. -/

theorem insertBy_perm {α : Type} (le : α → α → Bool) (x : α) (l : List α) : (insertBy le x l).Perm (x :: l) := by
  induction l with
  | nil => exact List.Perm.refl _
  | cons y ys ih =>
    unfold insertBy
    split
    · exact (ih.cons y).trans (List.Perm.swap x y ys)
    · exact List.Perm.refl _

theorem sortBy_perm {α : Type} (le : α → α → Bool) (l : List α) : (sortBy le l).Perm l := by
  have hfold : ∀ l acc : List α, (l.foldl (fun acc x => insertBy le x acc) acc).Perm (l ++ acc) := by
    intro l
    induction l with
    | nil => exact fun acc => List.Perm.refl acc
    | cons x xs ih =>
      intro acc
      exact (ih _).trans (((insertBy_perm le x acc).append_left xs).trans List.perm_middle)
  simpa [sortBy] using hfold l []

theorem rangeFrom_add (n a b : Nat) : rangeFrom n (a + b) = rangeFrom n a ++ rangeFrom (n + a) b := by
  induction a generalizing n with
  | zero => simp [rangeFrom]
  | succ a ih =>
    rw [Nat.add_right_comm, rangeFrom, rangeFrom, ih, List.cons_append]
    congr 3
    omega

end Sys2Proof

namespace Sys2Proof.Machine

/-! The live launch of a context, after an update of launches. -/

theorem State.launch_key {s : State} {ctx : Nat} {l : Launch} (h : s.launch ctx = some l) : l.live = true ∧ l.ctx = ctx := by
  have := List.find?_some h
  simpa using this

/-- The launch found after one has changed that stays live and keeps its context. -/
theorem State.launch_modLaunch_same {s : State} {ctx : Nat} {l : Launch} {f : Launch → Launch} (hf : ∀ l, (f l).live = l.live ∧ (f l).ctx = l.ctx)
    (h : s.launch ctx = some l) : (s.modLaunch ctx f).launch ctx = some (f l) := by
  obtain ⟨hlive, hctx⟩ := State.launch_key h
  have hfind := find_map_if s.launches (fun l => l.live && l.ctx == ctx) (fun l => l.live && l.ctx == ctx) f (fun x => by simp [hf x])
  unfold State.launch at h
  simp only [State.launch, State.modLaunch, hfind, h, Option.map_some, hlive, hctx, beq_self_eq_true, Bool.and_self, if_true]

@[simp] theorem State.modCluster_flight (s : State) (k : Nat) (f : Cluster → Cluster) : (s.modCluster k f).flight = s.flight := rfl

/-! A leaf controller's cluster, after an update. -/

/-- The record that a cluster's number finds is `c`. -/
def State.Listed (s : State) (k : Nat) (c : Cluster) : Prop := s.clusters.find? (fun x => x.id == k) = some c

theorem State.Listed.cluster {s : State} {k : Nat} {c : Cluster} (h : s.Listed k c) : s.cluster k = c := by
  simp only [State.Listed] at h
  simp only [State.cluster, h, Option.getD_some]

theorem State.Listed.modCluster {s : State} {k : Nat} {c : Cluster} (h : s.Listed k c) {f : Cluster → Cluster} (hf : ∀ c, (f c).id = c.id) :
    (s.modCluster k f).Listed k (f c) := by
  have hid : c.id = k := by simpa using List.find?_some h
  unfold State.Listed State.modCluster at *
  rw [find_map_if _ _ _ _ (fun x => by simp [hf x]), h, Option.map_some, hid, beq_self_eq_true, if_pos rfl]

/-! Context areas (R347). -/

theorem State.freeArea_congr {s t : State} (h : t.wgs = s.wgs) (l : Launch) : t.freeArea l = s.freeArea l := by
  simp only [State.freeArea, h]

/-- The taking of areas changes launches, and nothing else. -/
theorem State.takeAreas_eq (ctx k : Nat) (s : State) : State.takeAreas ctx k s = { s with launches := (State.takeAreas ctx k s).launches } := by
  induction k generalizing s with
  | zero => rfl
  | succ k ih =>
    unfold State.takeAreas
    split
    · rfl
    · split
      · rw [ih]; rfl
      · rfl

theorem State.areasTaken_eq (s : State) (ctx : Nat) : s.areasTaken ctx = { s with launches := (s.areasTaken ctx).launches } :=
  State.takeAreas_eq _ _ _

/-- Of two launches, the second differs by context areas of its formed workgroups alone. -/
structure AreasOnly (l x : Launch) : Prop where
  rest : x = { l with formed := x.formed }
  formed : x.formed.map Formed.plain = l.formed.map Formed.plain

theorem AreasOnly.refl (l : Launch) : AreasOnly l l := ⟨rfl, rfl⟩
theorem AreasOnly.trans {l x y : Launch} (h : AreasOnly l x) (h' : AreasOnly x y) : AreasOnly l y :=
  ⟨by rw [h'.rest, h.rest], h'.formed.trans h.formed⟩

/-- A launch whose formed workgroup of a number has an area. -/
def Launch.giveArea (l : Launch) (wg n : Nat) : Launch :=
  { l with formed := l.formed.map (fun g => if g.wg == wg then { g with area := some n } else g) }

theorem Launch.giveArea_areasOnly (l : Launch) (wg n : Nat) : AreasOnly l (l.giveArea wg n) := by
  refine ⟨rfl, ?_⟩
  simp only [Launch.giveArea, List.map_map]
  congr 1
  funext g
  simp only [Function.comp_apply]
  split <;> rfl

/-- One more area: the earliest formed workgroup without one takes the first that is free (R347). -/
theorem State.takeAreas_succ {s : State} {ctx k n : Nat} {l : Launch} {f : Formed} (hl : s.launch ctx = some l)
    (hf : l.formed.find? (fun f => f.area.isNone) = some f) (hn : s.freeArea l = some n) :
    State.takeAreas ctx (k + 1) s = State.takeAreas ctx k (s.modLaunch ctx (fun l => l.giveArea f.wg n)) := by
  rw [State.takeAreas]
  simp only [hl, hf, hn]
  rfl

/-- Where every formed workgroup has its area, or no area is free, nothing changes. -/
theorem State.takeAreas_done {s : State} {ctx : Nat} {l : Launch} (hl : s.launch ctx = some l)
    (h : l.formed.find? (fun f => f.area.isNone) = none ∨ s.freeArea l = none) (k : Nat) : State.takeAreas ctx k s = s := by
  cases k with
  | zero => rfl
  | succ k =>
    rw [State.takeAreas]
    simp only [hl]
    split
    · next hf hn => rcases h with h | h <;> simp [h] at hf hn
    · rfl

/-- The launch after the taking of areas. -/
theorem State.takeAreas_launch {s : State} {ctx : Nat} {l : Launch} (hl : s.launch ctx = some l) (k : Nat) :
    ∃ x, (State.takeAreas ctx k s).launch ctx = some x ∧ AreasOnly l x := by
  induction k generalizing s l with
  | zero => exact ⟨l, hl, .refl l⟩
  | succ k ih =>
    cases hf : l.formed.find? (fun f => f.area.isNone) with
    | none => exact ⟨l, by rw [State.takeAreas_done hl (.inl hf), hl], .refl l⟩
    | some f =>
      cases hn : s.freeArea l with
      | none => exact ⟨l, by rw [State.takeAreas_done hl (.inr hn), hl], .refl l⟩
      | some n =>
        rw [State.takeAreas_succ hl hf hn]
        obtain ⟨x, hx, hareas⟩ := ih (State.launch_modLaunch_same (f := fun l => l.giveArea f.wg n) (fun _ => ⟨rfl, rfl⟩) hl)
        exact ⟨x, hx, (l.giveArea_areasOnly f.wg n).trans hareas⟩

/-- The last of the formed workgroups, and the only one without an area, takes the first that is free. -/
theorem State.takeAreas_last {s : State} {ctx k n : Nat} {l : Launch} {fs : List Formed} {f : Formed} (hl : s.launch ctx = some l)
    (hformed : l.formed = fs ++ [f]) (hfs : ∀ y ∈ fs, y.area.isSome = true ∧ y.wg ≠ f.wg) (hf : f.area = none) (hn : s.freeArea l = some n) :
    (State.takeAreas ctx (k + 1) s).launch ctx = some { l with formed := fs ++ [{ f with area := some n }] } := by
  have hfind : l.formed.find? (fun f => f.area.isNone) = some f := by
    rw [hformed, List.find?_append, List.find?_eq_none.mpr (fun y hy => by simp [Option.isSome_iff_ne_none.mp (hfs y hy).1])]
    simp [hf]
  have hkeep : fs.map (fun g => if g.wg == f.wg then { g with area := some n } else g) = fs := by
    rw [List.map_congr_left (g := id) (fun g hg => by simp [(hfs g hg).2]), List.map_id]
  have hgive : (l.giveArea f.wg n).formed = fs ++ [{ f with area := some n }] := by
    simp only [Launch.giveArea, hformed, List.map_append, hkeep, List.map_cons, List.map_nil, beq_self_eq_true, if_true]
  have hl' := State.launch_modLaunch_same (f := fun l => l.giveArea f.wg n) (fun _ => ⟨rfl, rfl⟩) hl
  have hall : (l.giveArea f.wg n).formed.find? (fun f => f.area.isNone) = none := by
    rw [hgive, List.find?_eq_none]
    intro y hy
    rcases List.mem_append.mp hy with hy | hy
    · simp [Option.isSome_iff_ne_none.mp (hfs y hy).1]
    · simp [List.mem_singleton.mp hy]
  rw [State.takeAreas_succ hl hfind hn, State.takeAreas_done hl' (.inl hall), hl']
  exact congrArg (fun fs => some { l with formed := fs }) hgive

/-! A closed bin's records form a workgroup (R28, R29). -/

/-- A launch with one more formed workgroup, whose number is the next. -/
def Launch.formMore (l : Launch) (f : Formed) : Launch := { l with formed := l.formed ++ [f], nextCont := l.nextCont + 1 }

/-- A launch that has formed one more workgroup takes an area for it, if one is free (R347). -/
theorem State.areasTaken_formMore {s0 s : State} {ctx : Nat} {l : Launch} {f : Formed} (hwgs : s.wgs = s0.wgs)
    (hl : s.launch ctx = some (l.formMore f)) (hf : f.area = none) :
    ∃ x, (s.areasTaken ctx).launch ctx = some x ∧ FormedMore s0 l x f := by
  have hcount : s.areasTaken ctx = State.takeAreas ctx (l.formed.length + 1) s := by
    unfold State.areasTaken
    rw [hl]
    simp [Launch.formMore]
  rw [hcount]
  obtain ⟨x, hx, hareas⟩ := State.takeAreas_launch hl (l.formed.length + 1)
  have hplain : f.plain = f := by
    cases f
    cases hf
    rfl
  refine ⟨x, hx, hareas.rest, ?_, fun k hall hfree => ?_⟩
  · rw [hareas.formed, Launch.formMore, List.map_append, List.map_cons, hplain, List.map_nil]
  · have hfree' : s.freeArea (l.formMore f) = some k := by
      rw [← hfree, State.freeArea_congr hwgs]
      simp only [State.freeArea, Launch.formMore, List.any_append, List.any_cons, hf, List.any_nil, Option.none_beq_some, Bool.or_false]
    have hlast := State.takeAreas_last (k := l.formed.length) hl rfl hall hf hfree'
    rw [hx] at hlast
    exact congrArg Launch.formed (Option.some.inj hlast)

/-- The records of a bin, formed: the launch has one more workgroup, and takes an area for it. -/
theorem State.formRecords_forms {s0 s : State} {ctx cluster target : Nat} {records : List (List Word)} {parents : List Nat} {l : Launch}
    (hwgs : s.wgs = s0.wgs) (hl : s.launch ctx = some l) :
    ∃ x, (s.formRecords ctx cluster target records parents).launch ctx = some x ∧
      FormedMore s0 l x (.mk l.nextCont (l.generation + 1) target (some cluster) none records parents) :=
  State.areasTaken_formMore (s := s.modLaunch ctx (fun l =>
    l.formMore (.mk l.nextCont (l.generation + 1) target (some cluster) none records parents))) hwgs
    (State.launch_modLaunch_same (fun _ => ⟨rfl, rfl⟩) hl) rfl

/-- The forming of a workgroup changes launches, and nothing else. -/
theorem State.formRecords_eq (s : State) (ctx cluster target : Nat) (records : List (List Word)) (parents : List Nat) :
    s.formRecords ctx cluster target records parents =
      { s with launches := (s.formRecords ctx cluster target records parents).launches } := by
  unfold State.formRecords
  rw [State.areasTaken_eq]
  rfl

/-- The closing of a bin changes launches and clusters, and nothing else. -/
theorem State.closeBin_eq (s : State) (cluster : Nat) (b : Bin) :
    s.closeBin cluster b = { s with launches := (s.closeBin cluster b).launches, clusters := (s.closeBin cluster b).clusters } := by
  unfold State.closeBin
  rw [State.formRecords_eq]
  rfl
@[simp] theorem State.closeBin_mem (s : State) (k : Nat) (b : Bin) : (s.closeBin k b).mem = s.mem := by rw [State.closeBin_eq]
@[simp] theorem State.closeBin_flight (s : State) (k : Nat) (b : Bin) : (s.closeBin k b).flight = s.flight := by rw [State.closeBin_eq]

/-- A cluster whose bins of a target and context have gone. -/
def Cluster.dropBin (c : Cluster) (b : Bin) : Cluster := { c with bins := c.bins.filter (fun x => !(x.ctx == b.ctx && x.pc == b.pc)) }

theorem State.closeBin_clusters (s : State) (k : Nat) (b : Bin) : (s.closeBin k b).clusters = (s.modCluster k (fun c => c.dropBin b)).clusters := by
  unfold State.closeBin
  rw [State.formRecords_eq]
  rfl

theorem State.Listed.closeBin {s : State} {k : Nat} {c : Cluster} (h : s.Listed k c) (b : Bin) : (s.closeBin k b).Listed k (c.dropBin b) := by
  have := h.modCluster (f := fun c => c.dropBin b) (fun _ => rfl)
  unfold State.Listed at *
  rwa [State.closeBin_clusters]

/-- A bin that closes has its records formed (R28). -/
theorem State.closeBin_forms {s0 s : State} {cluster : Nat} {b : Bin} {l : Launch} (hwgs : s.wgs = s0.wgs) (hl : s.launch b.ctx = some l) :
    ∃ x, (s.closeBin cluster b).launch b.ctx = some x ∧
      FormedMore s0 l x (.mk l.nextCont (l.generation + 1) b.pc (some cluster) none b.records b.parents) :=
  State.formRecords_forms (s := s.modCluster cluster (fun c => c.dropBin b)) hwgs hl

/-! CONTINUATION_RECORD (R28), by what the leaf controller holds when the record comes. -/

/-- An access that is due is the one that its row performs. -/
theorem Due.find {s : State} {n : Nat} {a : Access} (h : Due s n a) {kind : AccOp → Bool} (hkind : kind a.op = true) :
    s.flight.find? (fun x => x.id == n && kind x.op) = some a := by
  obtain ⟨hmem, hid, hone, _, _⟩ := h
  have hsome : (s.flight.find? (fun x => x.id == n && kind x.op)).isSome = true :=
    List.find?_isSome.mpr ⟨a, hmem, by simp [hid, hkind]⟩
  obtain ⟨b, hb⟩ := Option.isSome_iff_exists.mp hsome
  have hbid := List.find?_some hb
  simp only [Bool.and_eq_true, beq_iff_eq] at hbid
  rw [hb, hone b (List.mem_of_find?_eq_some hb) hbid.1]

/-- An access that is due and performs leaves what its performing leaves: it consumes no block known bad (R366). -/
theorem State.performId_done {s t : State} {n : Nat} {a : Access} {kind : AccOp → Bool} (hdue : Due s n a) (hkind : kind a.op = true)
    (h : s.perform a = .done t) : s.performId n kind = t := by
  have hfind := hdue.find hkind
  obtain ⟨_, _, _, _, hread⟩ := hdue
  simp only [State.performId, hfind, h, hread]

/-- A cluster with one more bin. -/
def Cluster.openBin (c : Cluster) (b : Bin) : Cluster := { c with bins := c.bins ++ [b] }

/-- A cluster whose bin of a target and context has become another. -/
def Cluster.setBin (c : Cluster) (b b1 : Bin) : Cluster :=
  { c with bins := c.bins.map (fun x => if x.ctx == b.ctx && x.pc == b.pc then b1 else x) }

theorem State.Listed.openBin {s : State} {k : Nat} {c : Cluster} (h : s.Listed k c) (b : Bin) :
    (s.modCluster k (fun c => c.openBin b)).Listed k (c.openBin b) := h.modCluster (f := fun c => c.openBin b) (fun _ => rfl)

theorem State.Listed.setBin {s : State} {k : Nat} {c : Cluster} (h : s.Listed k c) (b b1 : Bin) :
    (s.modCluster k (fun c => c.setBin b b1)).Listed k (c.setBin b b1) := h.modCluster (f := fun c => c.setBin b b1) (fun _ => rfl)

/-- A bin with one more record. -/
def Bin.add (b : Bin) (args : List Word) (parent : Nat) : Bin := { b with records := b.records ++ [args], parents := b.parents ++ [parent] }

/-- An access that is due leaves the flight as it performs. -/
theorem Due.landed {s t : State} {n : Nat} {a : Access} (h : Due s n a) (ht : t.flight = (s.drop a).flight) : Landed s t n := by
  obtain ⟨_, hid, _⟩ := h
  rw [← hid]
  exact ht

section
variable {s s1 t : State} {n : Nat} {a : Access} {target sequence : Nat} {args : List Word} {l : Launch} {c : Cluster} {b : Bin}

/-- A record that is due performs as `performRecord` says. -/
theorem exec_continuationRecord (hdue : Due s n a) (hop : a.op = .record target args sequence)
    (h : s.performRecord a target args sequence = .done t) : exec (.continuationRecord n) s = .next t := by
  have hfree : s.blocked a = false := by
    obtain ⟨_, _, _, hfree, _⟩ := hdue
    exact hfree
  have hperform : s.perform a = .done t := by
    simp only [State.perform, hfree, Bool.false_eq_true, if_false, hop, h]
  exact congrArg Host.Outcome.next (State.performId_done hdue (by rw [hop]) hperform)

variable (hl : s.launch a.ctx = some l) (hstop : l.stopped = false)
include hl hstop

/-- In `.det` the record is kept, with the leaf controller that holds it (R31). -/
theorem State.performRecord_det (hdet : l.img.det = true) : s.performRecord a target args sequence = .done ((s.drop a).modLaunch a.ctx (fun l =>
    { l with kept := l.kept ++ [.mk (coreCluster a.core) a.wg a.tid sequence target args] })) := by
  simp only [State.performRecord, hl, hstop, hdet, Bool.false_eq_true, if_false, if_true]

variable (hdet : l.img.det = false) (h1 : (s.drop a).closeDue (coreCluster a.core) s.now = s1) (hc : s1.Listed (coreCluster a.core) c)
include hdet h1 hc

/-- A record joins the bin of its target, which is not yet full with it. -/
theorem State.performRecord_joins (hb : c.bins.find? (fun b => b.ctx == a.ctx && b.pc == target) = some b) (hroom : b.records.length + 1 ≠ 32) :
    s.performRecord a target args sequence = .done (s1.modCluster (coreCluster a.core) (fun c => c.setBin b (b.add args a.wg))) := by
  simp only [State.performRecord, hl, hstop, hdet, Bool.false_eq_true, if_false, h1, hc.cluster, hb, List.length_append, List.length_cons,
    List.length_nil, Nat.zero_add, hroom]
  rfl

/-- A record fills the bin of its target, which closes. -/
theorem State.performRecord_fills (hb : c.bins.find? (fun b => b.ctx == a.ctx && b.pc == target) = some b) (hfull : b.records.length + 1 = 32) :
    s.performRecord a target args sequence = .done
      ((s1.modCluster (coreCluster a.core) (fun c => c.setBin b (b.add args a.wg))).closeBin (coreCluster a.core) (b.add args a.wg)) := by
  simp only [State.performRecord, hl, hstop, hdet, Bool.false_eq_true, if_false, h1, hc.cluster, hb, List.length_append, List.length_cons,
    List.length_nil, Nat.zero_add, hfull, if_true]
  rfl

/-- A record opens a bin for its target, where fewer than 16 are in use. -/
theorem State.performRecord_opens (hb : c.bins.find? (fun b => b.ctx == a.ctx && b.pc == target) = none) (hroom : c.bins.length < 16) :
    s.performRecord a target args sequence =
      .done (s1.modCluster (coreCluster a.core) (fun c => c.openBin (.mk target a.ctx s.now [args] [a.wg]))) := by
  simp only [State.performRecord, hl, hstop, hdet, Bool.false_eq_true, if_false, h1, hc.cluster, hb, hroom, if_true]
  rfl

/-- A record opens a bin for its target, for which the oldest of the 16 in use closes. -/
theorem State.performRecord_evicts (hb : c.bins.find? (fun b => b.ctx == a.ctx && b.pc == target) = none) (hfull : ¬ c.bins.length < 16)
    (hhead : c.bins.head? = some b) : s.performRecord a target args sequence = .done
      ((s1.closeBin (coreCluster a.core) b).modCluster (coreCluster a.core) (fun c => c.openBin (.mk target a.ctx s.now [args] [a.wg]))) := by
  simp only [State.performRecord, hl, hstop, hdet, Bool.false_eq_true, if_false, h1, hc.cluster, hb, hfull, hhead]
  rfl

end

/-! Bins that are due as a record comes (R28). -/

/-- Where no bin is 2 µs old, none closes. -/
theorem State.closeDue_none {s : State} {k time : Nat} {c : Cluster} (hc : s.Listed k c) (h : ∀ b ∈ c.bins, time < b.since + 2000) :
    s.closeDue k time = s := by
  have hnone : c.bins.filter (fun b => decide (b.since + 2000 ≤ time)) = [] :=
    List.filter_eq_nil_iff.mpr (fun b hb => by simp [h b hb])
  simp only [State.closeDue, hc.cluster, hnone, List.foldl_nil]

/-- The only bin closes where it is 2 µs old. -/
theorem State.closeDue_only {s : State} {k time : Nat} {c : Cluster} {b : Bin} (hc : s.Listed k c) (hbins : c.bins = [b])
    (h : b.since + 2000 ≤ time) : s.closeDue k time = s.closeBin k b := by
  simp [State.closeDue, hc.cluster, hbins, h]

/-- A bin of another target or context. -/
theorem Bin.other_iff (x : Bin) (ctx pc : Nat) : (!(x.ctx == ctx && x.pc == pc)) = true ↔ ¬(x.ctx = ctx ∧ x.pc = pc) := by
  rw [Bool.not_eq_true', ← Bool.not_eq_true, Bool.and_eq_true, beq_iff_eq, beq_iff_eq]

theorem Cluster.bin_none {c : Cluster} {ctx target : Nat} (h : ∀ b ∈ c.bins, ¬(b.ctx = ctx ∧ b.pc = target)) :
    c.bins.find? (fun b => b.ctx == ctx && b.pc == target) = none :=
  List.find?_eq_none.mpr (fun b hb => by simpa using h b hb)

theorem Cluster.bin_only {c : Cluster} {b : Bin} {ctx target : Nat} (hbins : c.bins = [b]) (hctx : b.ctx = ctx) (hpc : b.pc = target) :
    c.bins.find? (fun b => b.ctx == ctx && b.pc == target) = some b := by
  simp [hbins, hctx, hpc]

theorem Cluster.setBin_only {c : Cluster} {b b1 : Bin} (hbins : c.bins = [b]) : c.setBin b b1 = { c with bins := [b1] } := by
  simp [Cluster.setBin, hbins]

theorem Cluster.dropBin_only {c : Cluster} {b b1 : Bin} (hbins : c.bins = [b1]) (hctx : b1.ctx = b.ctx) (hpc : b1.pc = b.pc) :
    c.dropBin b = { c with bins := [] } := by
  simp [Cluster.dropBin, hbins, hctx, hpc]

theorem Cluster.dropBin_head {c : Cluster} {b : Bin} {bs : List Bin} (hbins : c.bins = b :: bs) (h : ∀ x ∈ bs, ¬(x.ctx = b.ctx ∧ x.pc = b.pc)) :
    c.dropBin b = { c with bins := bs } := by
  have hkeep : bs.filter (fun x => !(x.ctx == b.ctx && x.pc == b.pc)) = bs :=
    List.filter_eq_self.mpr (fun x hx => (x.other_iff b.ctx b.pc).mpr (h x hx))
  simp only [Cluster.dropBin, hbins, List.filter_cons, beq_self_eq_true, Bool.and_self, Bool.not_true, Bool.false_eq_true, if_false, hkeep]

section
variable {s : State} {n : Nat} {a : Access} {target sequence : Nat} {args : List Word} {l : Launch} {c : Cluster} {b : Bin}
  (hdue : Due s n a) (hop : a.op = .record target args sequence) (hl : s.launch a.ctx = some l) (hstop : l.stopped = false)
include hdue hop hl hstop

/-- R31: in `.det` the record is kept. -/
theorem continuationRecord_kept (hdet : l.img.det = true) : ∃ t, exec (.continuationRecord n) s = .next t ∧ Landed s t n ∧ t.mem = s.mem ∧
    t.launch a.ctx = some { l with kept := l.kept ++ [.mk (coreCluster a.core) a.wg a.tid sequence target args] } := by
  exact ⟨_, exec_continuationRecord hdue hop (State.performRecord_det hl hstop hdet), hdue.landed rfl, rfl,
    State.launch_modLaunch_same (s := s.drop a) (fun _ => ⟨rfl, rfl⟩) hl⟩

variable (hc : s.Listed (coreCluster a.core) c) (hdet : l.img.det = false)
include hc hdet

/-- R28: a record opens a bin where there is room and none for its target. -/
theorem continuationRecord_opens (hroom : c.bins.length < 16) (hyoung : ∀ b ∈ c.bins, s.now < b.since + 2000)
    (hnone : ∀ b ∈ c.bins, ¬(b.ctx = a.ctx ∧ b.pc = target)) :
    ∃ t, exec (.continuationRecord n) s = .next t ∧ Landed s t n ∧ t.mem = s.mem ∧
      t.cluster (coreCluster a.core) = { c with bins := c.bins ++ [.mk target a.ctx s.now [args] [a.wg]] } := by
  have hc0 : (s.drop a).Listed (coreCluster a.core) c := hc
  have hopens := State.performRecord_opens (sequence := sequence) (args := args) hl hstop hdet (State.closeDue_none hc0 hyoung) hc0
    (Cluster.bin_none hnone) hroom
  exact ⟨_, exec_continuationRecord hdue hop hopens, hdue.landed rfl, rfl, (hc0.openBin _).cluster⟩

/-- R28: a record that comes to a bin 2 µs old finds it closed, and opens another. -/
theorem continuationRecord_after_due (hbins : c.bins = [b]) (hctx : b.ctx = a.ctx) (hpc : b.pc = target) (hold : b.since + 2000 ≤ s.now) :
    ∃ t x, exec (.continuationRecord n) s = .next t ∧ Landed s t n ∧ t.mem = s.mem ∧
      t.cluster (coreCluster a.core) = { c with bins := [.mk target a.ctx s.now [args] [a.wg]] } ∧ t.launch a.ctx = some x ∧
      FormedMore s l x (.mk l.nextCont (l.generation + 1) target (some (coreCluster a.core)) none b.records b.parents) := by
  have hc0 : (s.drop a).Listed (coreCluster a.core) c := hc
  have hc1 := hc0.closeBin b
  rw [Cluster.dropBin_only hbins rfl rfl] at hc1
  have hopens := State.performRecord_opens (target := target) (sequence := sequence) (args := args) hl hstop hdet
    (State.closeDue_only hc0 hbins hold) hc1 rfl (by simp)
  obtain ⟨x, hx, hformed⟩ := State.closeBin_forms (s0 := s) (s := s.drop a) (cluster := coreCluster a.core) (b := b) rfl (hctx ▸ hl)
  rw [hctx] at hx
  rw [hpc] at hformed
  exact ⟨_, x, exec_continuationRecord hdue hop hopens, hdue.landed (by simp), by simp, (hc1.openBin _).cluster, hx, hformed⟩

/-- R28: a record joins the bin of its target. -/
theorem continuationRecord_joins (hbins : c.bins = [b]) (hctx : b.ctx = a.ctx) (hpc : b.pc = target) (hyoung : s.now < b.since + 2000)
    (hroom : b.records.length < 31) : ∃ t, exec (.continuationRecord n) s = .next t ∧ Landed s t n ∧ t.mem = s.mem ∧
      t.cluster (coreCluster a.core) = { c with bins := [{ b with records := b.records ++ [args], parents := b.parents ++ [a.wg] }] } := by
  have hc0 : (s.drop a).Listed (coreCluster a.core) c := hc
  have hjoins := State.performRecord_joins (sequence := sequence) (args := args) hl hstop hdet
    (State.closeDue_none hc0 (by simpa [hbins] using hyoung)) hc0 (Cluster.bin_only hbins hctx hpc) (by omega)
  exact ⟨_, exec_continuationRecord hdue hop hjoins, hdue.landed rfl, rfl,
    (hc0.setBin _ _).cluster.trans (Cluster.setBin_only hbins)⟩

/-- R28: a record that fills the bin of its target closes it. -/
theorem continuationRecord_fills (hbins : c.bins = [b]) (hctx : b.ctx = a.ctx) (hpc : b.pc = target) (hyoung : s.now < b.since + 2000)
    (hfull : b.records.length = 31) : ∃ t, exec (.continuationRecord n) s = .next t ∧ Landed s t n ∧ t.mem = s.mem ∧
      t.cluster (coreCluster a.core) = { c with bins := [] } ∧ ∃ x, t.launch a.ctx = some x ∧ FormedMore s l x
        (.mk l.nextCont (l.generation + 1) target (some (coreCluster a.core)) none (b.records ++ [args]) (b.parents ++ [a.wg])) := by
  have hc0 : (s.drop a).Listed (coreCluster a.core) c := hc
  have hfills := State.performRecord_fills (sequence := sequence) (args := args) hl hstop hdet
    (State.closeDue_none hc0 (by simpa [hbins] using hyoung)) hc0 (Cluster.bin_only hbins hctx hpc) (by omega)
  have hc1 := (hc0.setBin b (b.add args a.wg)).closeBin (b.add args a.wg)
  rw [Cluster.setBin_only hbins, Cluster.dropBin_only rfl rfl rfl] at hc1
  obtain ⟨x, hx, hformed⟩ := State.closeBin_forms (s0 := s) (cluster := coreCluster a.core) (b := b.add args a.wg)
    (s := (s.drop a).modCluster (coreCluster a.core) (fun c => c.setBin b (b.add args a.wg))) rfl (l := l) (by rw [← hl, ← hctx]; rfl)
  rw [show (b.add args a.wg).ctx = a.ctx from hctx] at hx
  rw [show (b.add args a.wg).pc = target from hpc] at hformed
  exact ⟨_, exec_continuationRecord hdue hop hfills, hdue.landed (by simp), by simp, hc1.cluster, x, hx, hformed⟩

/-- R28: with all bins in use the oldest closes and makes room. -/
theorem continuationRecord_evicts {bs : List Bin} {lb : Launch} (hbins : c.bins = b :: bs) (hfull : 15 ≤ bs.length)
    (hapart : ∀ x ∈ bs, ¬(x.ctx = b.ctx ∧ x.pc = b.pc)) (hnone : ∀ x ∈ c.bins, ¬(x.ctx = a.ctx ∧ x.pc = target) ∧ s.now < x.since + 2000)
    (hlb : s.launch b.ctx = some lb) : ∃ t x, exec (.continuationRecord n) s = .next t ∧ Landed s t n ∧ t.mem = s.mem ∧
      t.cluster (coreCluster a.core) = { c with bins := bs ++ [.mk target a.ctx s.now [args] [a.wg]] } ∧ t.launch b.ctx = some x ∧
      FormedMore s lb x (.mk lb.nextCont (lb.generation + 1) b.pc (some (coreCluster a.core)) none b.records b.parents) := by
  have hc0 : (s.drop a).Listed (coreCluster a.core) c := hc
  have hevicts := State.performRecord_evicts (b := b) (sequence := sequence) (args := args) hl hstop hdet
    (State.closeDue_none hc0 (fun x hx => (hnone x hx).2)) hc0 (Cluster.bin_none (fun x hx => (hnone x hx).1)) (by rw [hbins, List.length_cons]; omega)
    (by rw [hbins]; rfl)
  have hc1 := hc0.closeBin b
  rw [Cluster.dropBin_head hbins hapart] at hc1
  obtain ⟨x, hx, hformed⟩ := State.closeBin_forms (s0 := s) (s := s.drop a) (cluster := coreCluster a.core) (b := b) rfl hlb
  exact ⟨_, x, exec_continuationRecord hdue hop hevicts, hdue.landed (by simp), by simp, (hc1.openBin _).cluster, hx, hformed⟩

end

/-! BIN_CLOSE_TIMEOUT (R28). -/

theorem State.closeBin_bins (s : State) (k : Nat) (b : Bin) :
    ((s.closeBin k b).cluster k).bins = (s.cluster k).bins.filter (fun x => !(x.ctx == b.ctx && x.pc == b.pc)) := by
  cases hc : s.clusters.find? (fun x => x.id == k) with
  | some c =>
    have hlisted : s.Listed k c := hc
    rw [(hlisted.closeBin b).cluster, hlisted.cluster]
    rfl
  | none =>
    have hc1 : (s.closeBin k b).clusters.find? (fun x => x.id == k) = none := by
      have hfind := find_map_if s.clusters (fun x => x.id == k) (fun x => x.id == k) (fun c => c.dropBin b) (fun _ => rfl)
      rw [hc] at hfind
      rw [State.closeBin_clusters]
      exact hfind
    simp only [State.cluster, hc, hc1, Option.getD_none]
    rfl

theorem binCloseTimeout_early {s : State} {c i : Nat} {b : Bin} (hb : (s.cluster c).bins[i]? = some b) (h : s.now < b.since + 2000) :
    exec (.binCloseTimeout c i) s = .next s := by
  have hdue : ¬ b.since + 2000 ≤ s.now := by omega
  change Host.Outcome.next (s.binTimeout c i) = _
  simp only [State.binTimeout, hb, hdue, if_false]

theorem binCloseTimeout_due {s : State} {c i : Nat} {b : Bin} (hb : (s.cluster c).bins[i]? = some b) (h : b.since + 2000 ≤ s.now) :
    exec (.binCloseTimeout c i) s = .next (s.closeBin c b) := by
  change Host.Outcome.next (s.binTimeout c i) = _
  simp only [State.binTimeout, hb, h, if_true]

/-! DET_GENERATION_FORM (R31): the records kept, target by target, in workgroups of at most 32. -/

/-- A formed workgroup of some of the records `rs`: one to 32 of them, all for its target (R28, R31). -/
def FormedOf (rs : List SpawnRecord) (generation : Nat) (f : Formed) : Prop :=
  ∃ part : List SpawnRecord, f.records = part.map SpawnRecord.args ∧ f.parents = part.map SpawnRecord.wg ∧ 1 ≤ part.length ∧ part.length ≤ 32 ∧
    f.generation = generation ∧ ∀ r ∈ part, r ∈ rs ∧ r.target = f.target

theorem FormedOf.mono {rs rs' : List SpawnRecord} {generation : Nat} {f : Formed} (h : FormedOf rs generation f) (hsub : ∀ r ∈ rs, r ∈ rs') :
    FormedOf rs' generation f := by
  obtain ⟨part, hrecords, hparents, hpos, hmax, hgen, hmem⟩ := h
  exact ⟨part, hrecords, hparents, hpos, hmax, hgen, fun r hr => ⟨hsub r (hmem r hr).1, (hmem r hr).2⟩⟩

/-- The context area is no part of what a workgroup is formed of. -/
theorem FormedOf.of_plain {rs : List SpawnRecord} {generation : Nat} {f g : Formed} (h : FormedOf rs generation f) (hplain : g.plain = f.plain) :
    FormedOf rs generation g := by
  cases f
  cases g
  cases hplain
  exact h

theorem cutRecords_formedOf {target generation k n : Nat} {rs : List SpawnRecord} (hrs : ∀ r ∈ rs, r.target = target) :
    ∀ f ∈ cutRecords target generation k n rs, FormedOf rs generation f := by
  induction k generalizing n rs with
  | zero => simp [cutRecords]
  | succ k ih =>
    intro f hf
    unfold cutRecords at hf
    split at hf
    · cases hf
    · next hne =>
      rcases List.mem_cons.mp hf with rfl | hf
      · have hpos : 0 < rs.length := List.length_pos_iff.mpr (by simpa using hne)
        exact ⟨rs.take 32, rfl, rfl, by rw [List.length_take]; omega, by rw [List.length_take]; omega, rfl,
          fun r hr => ⟨List.mem_of_mem_take hr, hrs r (List.mem_of_mem_take hr)⟩⟩
      · exact (ih (fun r hr => hrs r (List.mem_of_mem_drop hr)) f hf).mono (fun r hr => List.mem_of_mem_drop hr)

theorem cutRecords_numbers (target generation k n : Nat) (rs : List SpawnRecord) : (cutRecords target generation k n rs).map Formed.wg =
    rangeFrom n (cutRecords target generation k n rs).length := by
  induction k generalizing n rs with
  | zero => rfl
  | succ k ih =>
    unfold cutRecords
    split
    · rfl
    · simp only [List.map_cons, List.length_cons, rangeFrom, ih]

theorem formTargets_formedOf {records : List SpawnRecord} {generation n : Nat} {targets : List Nat} :
    ∀ f ∈ formTargets records generation targets n, FormedOf records generation f := by
  induction targets generalizing n with
  | nil => simp [formTargets]
  | cons t ts ih =>
    intro f hf
    unfold formTargets at hf
    rcases List.mem_append.mp hf with hf | hf
    · refine (cutRecords_formedOf (fun r hr => ?_) f hf).mono (fun r hr => (List.mem_filter.mp hr).1)
      simpa using (List.mem_filter.mp hr).2
    · exact ih f hf

theorem formTargets_numbers (records : List SpawnRecord) (generation n : Nat) (targets : List Nat) :
    (formTargets records generation targets n).map Formed.wg = rangeFrom n (formTargets records generation targets n).length := by
  induction targets generalizing n with
  | nil => rfl
  | cons t ts ih =>
    unfold formTargets
    simp only [List.map_append, List.length_append, rangeFrom_add, cutRecords_numbers, ih]

/-- The workgroups that a launch's kept records form (R31). -/
def Launch.generationOf (l : Launch) : List Formed :=
  formTargets (sortBy recordLe l.kept) (l.generation + 1)
    (sortBy (fun x y => decide (x ≤ y)) (dedup ((sortBy recordLe l.kept).map (fun r => r.target)))) l.nextCont

/-- A launch whose next generation has been formed (R31). -/
def Launch.nextGeneration (l : Launch) (fs : List Formed) : Launch :=
  { l with formed := fs, kept := [], generation := l.generation + 1, nextCont := l.nextCont + fs.length }

theorem State.message_launch (s : State) (mask : Nat) (up : Bool) (ctx : Nat) : (s.message mask up).launch ctx = s.launch ctx := by
  unfold State.launch
  rw [State.message_launches]

section
variable {s : State} {ctx : Nat} {l : Launch} (hl : s.launch ctx = some l)
include hl

/-- With grid workgroups or formed ones still to be dispatched, or with no record kept, no generation forms (R31). -/
theorem detGenerationForm_not_due (h : l.pending ≠ [] ∨ l.formed ≠ [] ∨ l.kept = []) : exec (.detGenerationForm ctx) s = .next s := by
  have hcond : (l.img.det && !l.kept.isEmpty && l.pending.isEmpty && l.formed.isEmpty && !s.wgs.any (fun w => w.ctx == ctx)
      && s.mayReport l.quote.clusterMask) = false := by
    rcases h with h | h | h <;> simp [h]
  change Host.Outcome.next (s.formGeneration ctx) = _
  simp only [State.formGeneration, hl, hcond, Bool.false_eq_true, if_false]

/-- The next generation forms (R31, R335). -/
theorem detGenerationForm_due (hdet : l.img.det = true) (hkept : l.kept ≠ []) (hpending : l.pending = []) (hformed : l.formed = [])
    (hwgs : ∀ w ∈ s.wgs, w.ctx ≠ ctx) (hreport : s.mayReport l.quote.clusterMask = true) :
    exec (.detGenerationForm ctx) s = .next
      (((s.message l.quote.clusterMask true).modLaunch ctx (fun m => m.nextGeneration l.generationOf)).areasTaken ctx) := by
  have hnone : s.wgs.any (fun w => w.ctx == ctx) = false := by simpa using hwgs
  have hkept' : l.kept.isEmpty = false := by simpa using hkept
  change Host.Outcome.next (s.formGeneration ctx) = _
  simp only [State.formGeneration, hl, hdet, hkept', hpending, hformed, hnone, hreport, List.isEmpty_nil, Bool.not_false, Bool.and_self, if_true]
  rfl

end

/-- What a formed generation is (R31): its workgroups bear the launch's next numbers, and each is of records that were kept. -/
theorem detGenerationForm_forms {s : State} {ctx : Nat} {l : Launch} (hl : s.launch ctx = some l) :
    ∃ x, (((s.message l.quote.clusterMask true).modLaunch ctx (fun m => m.nextGeneration l.generationOf)).areasTaken ctx).launch ctx = some x ∧
      x.kept = [] ∧ x.generation = l.generation + 1 ∧ x.nextCont = l.nextCont + x.formed.length ∧
      x.formed.map Formed.wg = rangeFrom l.nextCont x.formed.length ∧ ∀ f ∈ x.formed, FormedOf l.kept (l.generation + 1) f := by
  obtain ⟨x, hx, hareas⟩ := State.takeAreas_launch (State.launch_modLaunch_same (f := fun m => m.nextGeneration l.generationOf) (fun _ => ⟨rfl, rfl⟩)
    ((s.message_launch l.quote.clusterMask true ctx).trans hl)) _
  have hplain : x.formed.map Formed.plain = l.generationOf.map Formed.plain := hareas.formed
  have hlength : x.formed.length = l.generationOf.length := by simpa using congrArg List.length hplain
  have hnumbers : x.formed.map Formed.wg = l.generationOf.map Formed.wg := by
    simpa [Function.comp_def, Formed.plain] using congrArg (List.map Formed.wg) hplain
  refine ⟨x, hx, by rw [hareas.rest]; rfl, by rw [hareas.rest]; rfl, ?_, ?_, fun f hf => ?_⟩
  · rw [hlength, hareas.rest]; rfl
  · rw [hnumbers, hlength]
    exact formTargets_numbers _ _ _ _
  · have hmem : f.plain ∈ l.generationOf.map Formed.plain := hplain ▸ List.mem_map_of_mem hf
    obtain ⟨g, hg, hgf⟩ := List.mem_map.mp hmem
    exact ((formTargets_formedOf g hg).mono (fun r hr => (sortBy_perm _ _).mem_iff.mp hr)).of_plain hgf.symm

/-- A formed workgroup has a parent for each record, and each record is one that was kept for its target. -/
theorem FormedOf.records_kept {rs : List SpawnRecord} {generation : Nat} {f : Formed} (h : FormedOf rs generation f) :
    1 ≤ f.records.length ∧ f.records.length ≤ 32 ∧ f.generation = generation ∧ f.parents.length = f.records.length ∧
      ∀ p ∈ f.records.zip f.parents, ∃ y ∈ rs, y.target = f.target ∧ y.args = p.1 ∧ y.wg = p.2 := by
  obtain ⟨part, hrecords, hparents, hpos, hmax, hgen, hmem⟩ := h
  rw [hrecords, hparents, List.length_map, List.length_map]
  refine ⟨hpos, hmax, hgen, rfl, fun p hp => ?_⟩
  rw [List.zip_map'] at hp
  obtain ⟨r, hr, rfl⟩ := List.mem_map.mp hp
  exact ⟨r, (hmem r hr).1, (hmem r hr).2, rfl, rfl⟩

/-- Settles O42: a record by the bins that it finds, a bin by its age, and a generation by the records kept for it. -/
theorem continuations : Obligations.Continuations := by
  unfold Obligations.Continuations
  refine ⟨?_, ?_, ?_⟩
  · intro s n a target sequence args l c hdue hop hl hstop hc
    refine ⟨continuationRecord_kept hdue hop hl hstop, continuationRecord_opens hdue hop hl hstop hc, fun b hdet hbins hctx hpc => ⟨?_, ?_, ?_⟩, ?_⟩
    · exact continuationRecord_after_due hdue hop hl hstop hc hdet hbins hctx hpc
    · exact continuationRecord_joins hdue hop hl hstop hc hdet hbins hctx hpc
    · exact continuationRecord_fills hdue hop hl hstop hc hdet hbins hctx hpc
    · exact fun b bs lb hdet => continuationRecord_evicts hdue hop hl hstop hc hdet
  · intro s c i b l hb hl
    refine ⟨binCloseTimeout_early hb, fun hdue => ⟨_, binCloseTimeout_due hb hdue, State.closeBin_mem s c b, ?_, State.closeBin_forms rfl hl⟩⟩
    intro x hx
    rw [State.closeBin_bins] at hx
    exact (x.other_iff b.ctx b.pc).mp (List.mem_filter.mp hx).2
  · intro s ctx l hl
    refine ⟨detGenerationForm_not_due hl, fun hdet hkept hpending hformed hwgs hreport => ?_⟩
    obtain ⟨x, hx, hempty, hgen, hnext, hnumbers, hall⟩ := detGenerationForm_forms hl
    refine ⟨_, x, detGenerationForm_due hl hdet hkept hpending hformed hwgs hreport, ?_, hx, hempty, hgen, hnext, hnumbers,
      fun f hf => (hall f hf).records_kept⟩
    rw [State.areasTaken_eq, State.message_eq]
    rfl

end Sys2Proof.Machine

end

section
/-! SUPPORT. Statement O41: pre-emption of a workgroup that stands at a fence. -/

namespace Sys2Proof.Machine

/-! Where a thread of a workgroup stands at a fence, PREEMPTION has the writes of others that its core has taken perform first (R38, step
1; R155). In the state below such a write is of a page that the driver has unmapped since: it ends the launch as the caller's fault
(R342), whose breach the launch counts beside that of the pre-emption. -/

/-- A declared range that no page table maps. -/
def unmappedRange : Region :=
  { kind := 1, readonly := false, shared := false, sluice := 0, scope := 0, capacity := 0, size := 0x10000, bigPage := false, late := false,
    home := 0, base := 0x40000000 }

/-- A running launch of two workgroups that declares that range. -/
def unmappedLaunch : Launch :=
  { placedLaunch with
    img := { placedImage with regions := [unmappedRange] }, grid := 2, count := 2, quote := { placedQuote with perCore := 2 },
    areas := [placedBase + 0x30000, placedBase + 0x38000] }

/-- Its workgroup 0, whose thread stands at a FENCE of its die over stores, before loads. -/
def fencedWg : Workgroup := { placedWg with threads := placedWg.threads.map (fun t => { t with status := .held (.fence 2 1 3), pc := 4 }) }

/-- Its workgroup 1 on the same core, past the store that is in flight. -/
def storingWg : Workgroup := { placedWg with wg := 1, slot := 1, area := 1, threads := placedWg.threads.map (fun t => { t with pc := 4 }) }

/-- The store of workgroup 1, which the core's L1 has taken. -/
def takenStore : Access :=
  { id := 1, ctx := 1, wg := 1, tid := 0, core := 0, path := .ord, op := .store 7, addr := 0x40000000, size := 4, scope := 0, slot := none,
    gens := [], gid := 0, pc := 0, taken := 2, tx := none, after := [] }

/-- The machine with that launch, its two workgroups and the store. -/
def fencedState : State :=
  { State.reset.install with
    cores := [{ Core.reset 0 with entries := [{ ctx := 1, wg := 1, pc := 4, age := 0, opened := true, born := 0, tids := [0] }], ageCounter := 1 }],
    launches := [unmappedLaunch], wgs := [fencedWg, storingWg], flight := [takenStore], nextId := 3 }

/-- Workgroup 0 is at rest: the store is the other workgroup's. -/
theorem fencedState_atRest : AtRest fencedState fencedWg := by
  unfold AtRest
  decide

/-- The store of the unmapped page performs as the caller's fault, with a breach of its own (R342), and the pre-emption leaves the launch
with two. -/
theorem fencedState_breaches :
    fencedState.perform takenStore = .done (fencedState.callerFault 1) ∧ ((fencedState.callerFault 1).launch 1).map Launch.breaches = some 1 ∧
      ((fencedState.preempt 1 0 1).launch 1).map Launch.breaches = some 2 := by
  decide +kernel

/-- Refutes O41: its clause on PREEMPTION lets a thread of the workgroup stand at a fence, and then a write that is drained may add a breach
of its own. -/
theorem not_workgroups : ¬ Obligations.Workgroups := by
  unfold Obligations.Workgroups
  rintro ⟨_, _, h⟩
  obtain ⟨_, hpreempt, _⟩ := h fencedState 1 0 1 unmappedLaunch fencedWg rfl rfl
  obtain ⟨t, x, hexec, _, _, _, hbreaches⟩ := hpreempt (by decide) rfl fencedState_atRest rfl
  have ht : fencedState.preempt 1 0 1 = t := Host.Outcome.next.inj hexec
  obtain ⟨_, _, htwo⟩ := fencedState_breaches
  rw [← ht, htwo] at hbreaches
  exact absurd hbreaches (by decide)

end Sys2Proof.Machine

end

section
/-! SUPPORT. The words of R45 by opcode, switch marker and operand bits, and the formats of R47 in both directions. -/

namespace Sys2Proof

/-- What the opcode map (R53) reads under group `g` and index `idx`: the branches of `decodeRaw`. -/
def decodeOp (g idx w : Nat) (lit : Option Nat) : Except DecodeError Instr :=
  match g with
  | 0 => decodeGroup0 idx w
  | 1 => decodeGroup1 idx w lit
  | 2 => decodeGroup2 idx w
  | 3 => decodeGroup3 idx w
  | 4 => decodeGroup4 idx w
  | 5 => decodeGroup5 idx w
  | 6 => decodeGroup6 idx w
  | 7 => decodeGroup7 idx w
  | 8 => decodeGroup8 idx w
  | 9 => decodeGroup9 idx w
  | 10 => decodeGroupA idx w
  | 11 => decodeGroupB idx w
  | 12 => decodeGroupC idx w
  | 13 => decodeGroupD idx w
  | 14 => decodeGroupE idx w
  | _ => .error .unassigned

theorem decodeRaw_eq_decodeOp (w : Nat) (lit : Option Nat) : decodeRaw w lit = decodeOp (w / 2 ^ 27 % 16) (w / 2 ^ 21 % 64) w lit := rfl

/-- The 32-bit word `w` has the opcode `base`, the switch marker `s` and the operand bits `n` (R45). -/
structure HasFields (base : Nat) (s : Bool) (n w : Nat) : Prop where
  lt : w < 2 ^ 32
  group : w / 2 ^ 27 % 16 = base / 2 ^ 27
  index : w / 2 ^ 21 % 64 = base / 2 ^ 21 % 64
  marker : fS w = s
  operands : w % 2 ^ 21 = n

/-- A word is the sum of its opcode, its switch marker and its operand bits. -/
theorem hasFields_sum {base n : Nat} (s : Bool) (hzero : base % 2 ^ 21 = 0) (hbase : base < 2 ^ 31) (hn : n < 2 ^ 21) :
    HasFields base s n (base + encS s + n) := by
  cases s <;> simp only [encS, if_true, Bool.false_eq_true, if_false] <;>
    refine ⟨by omega, by omega, by omega, ?_, by omega⟩ <;>
    simp only [fS, bitOf, beq_iff_eq, beq_eq_false_iff_ne] <;> omega

theorem HasFields.encWord {base x y z : Nat} (s : Bool) (hzero : base % 2 ^ 21 = 0) (hbase : base < 2 ^ 31)
    (h : x * 2 ^ 14 + y * 2 ^ 7 + z < 2 ^ 21) : HasFields base s (x * 2 ^ 14 + y * 2 ^ 7 + z) (encWord base s x y z) := by
  simpa only [Sys2Proof.encWord, ← Nat.add_assoc] using hasFields_sum s hzero hbase h

/-! Fields read back. -/

theorem ofNat_of_mod {n m : Nat} {v : BitVec n} (h : m % 2 ^ n = v.toNat) : BitVec.ofNat n m = v :=
  BitVec.eq_of_toNat_eq (by rw [BitVec.toNat_ofNat, h])

theorem unused_pass {w hi lo : Nat} {r : Except DecodeError Instr} (h : w / 2 ^ lo % 2 ^ (hi + 1 - lo) = 0) : unused w hi lo r = r := by
  simp only [unused, bits, h, if_true]

theorem needS_pass {w : Nat} {r : Except DecodeError Instr} (h : fS w = true) : needS w r = r := by
  simp only [needS, h, if_true]

/-- The tables read the instruction `i` from the 32-bit word `w`, with its literal where it has one. -/
def Reads (i : Instr) (w : Nat) : Prop := w < 2 ^ 32 ∧ decodeRaw w (encodeLit i) = .ok i

theorem HasFields.reads {base n w : Nat} {s : Bool} {i : Instr} (h : HasFields base s n w)
    (hop : decodeOp (base / 2 ^ 27) (base / 2 ^ 21 % 64) w (encodeLit i) = .ok i) : Reads i w :=
  ⟨h.lt, by rw [decodeRaw_eq_decodeOp, h.group, h.index, hop]⟩

theorem HasFields.encA {base p d a b : Nat} (s f : Bool) (hzero : base % 2 ^ 24 = 0) (hbase : base < 2 ^ 31) (hp : p < 2 ^ 3)
    (h : d * 2 ^ 14 + a * 2 ^ 8 + encFlag f 7 + b < 2 ^ 21) :
    HasFields (base + p * 2 ^ 21) s (d * 2 ^ 14 + a * 2 ^ 8 + encFlag f 7 + b) (encA base s p d a f b) := by
  have hw := hasFields_sum (base := base + p * 2 ^ 21) s (by omega) (by omega) h
  rwa [show base + p * 2 ^ 21 + encS s + (d * 2 ^ 14 + a * 2 ^ 8 + encFlag f 7 + b) = Sys2Proof.encA base s p d a f b by
    unfold Sys2Proof.encA; omega] at hw

theorem HasFields.encN {base p a b : Nat} (s f : Bool) (hzero : base % 2 ^ 21 = 0) (hbase : base < 2 ^ 31)
    (h : p * 2 ^ 18 + encFlag f 14 + a * 2 ^ 8 + b < 2 ^ 21) :
    HasFields base s (p * 2 ^ 18 + encFlag f 14 + a * 2 ^ 8 + b) (encN base s p f a b) := by
  simpa only [Sys2Proof.encN, ← Nat.add_assoc] using hasFields_sum s hzero hbase h

theorem HasFields.encB {base n l a : Nat} (s : Bool) (hzero : base % 2 ^ 21 = 0) (hbase : base < 2 ^ 31)
    (h : n * 2 ^ 17 + l * 2 ^ 14 + a * 2 ^ 7 < 2 ^ 21) : HasFields base s (n * 2 ^ 17 + l * 2 ^ 14 + a * 2 ^ 7) (encB base s n l a) := by
  simpa only [Sys2Proof.encB, ← Nat.add_assoc] using hasFields_sum s hzero hbase h

/-! The formats of R47: where the opcode map reads an instruction from a word's fields, it reads back what the encoder wrote there. -/

section
variable {base : Nat} {s : Bool} (hzero : base % 2 ^ 21 = 0) (hbase : base < 2 ^ 31)
include hzero hbase

theorem reads_dab {C : Bool → Reg → Reg → Reg → Instr} {d a b : Reg}
    (h : ∀ w, decodeOp (base / 2 ^ 27) (base / 2 ^ 21 % 64) w (encodeLit (C s d a b)) = .ok (C (fS w) (fD w) (fA w) (fB w))) :
    Reads (C s d a b) (encWord base s d.toNat a.toNat b.toNat) := by
  have hf := HasFields.encWord (x := d.toNat) (y := a.toNat) (z := b.toNat) s hzero hbase (by omega)
  have ho := hf.operands
  refine hf.reads ?_
  rw [h, hf.marker, fD, fA, fB, ofNat_of_mod (v := d) (by omega), ofNat_of_mod (v := a) (by omega), ofNat_of_mod (v := b) (by omega)]

theorem reads_da {C : Bool → Reg → Reg → Instr} {d a : Reg}
    (h : ∀ w, decodeOp (base / 2 ^ 27) (base / 2 ^ 21 % 64) w (encodeLit (C s d a)) = unused w 6 0 (.ok (C (fS w) (fD w) (fA w)))) :
    Reads (C s d a) (encWord base s d.toNat a.toNat 0) := by
  have hf := HasFields.encWord (x := d.toNat) (y := a.toNat) (z := 0) s hzero hbase (by omega)
  have ho := hf.operands
  refine hf.reads ?_
  rw [h, unused_pass (by omega), hf.marker, fD, fA, ofNat_of_mod (v := d) (by omega), ofNat_of_mod (v := a) (by omega)]

theorem reads_d {C : Bool → Reg → Instr} {d : Reg}
    (h : ∀ w, fS w = s → decodeOp (base / 2 ^ 27) (base / 2 ^ 21 % 64) w (encodeLit (C s d)) = unused w 13 0 (.ok (C (fS w) (fD w)))) :
    Reads (C s d) (encWord base s d.toNat 0 0) := by
  have hf := HasFields.encWord (x := d.toNat) (y := 0) (z := 0) s hzero hbase (by omega)
  have ho := hf.operands
  refine hf.reads ?_
  rw [h _ hf.marker, unused_pass (by omega), hf.marker, fD, ofNat_of_mod (v := d) (by omega)]

theorem reads_a {C : Bool → Reg → Instr} {a : Reg}
    (h : ∀ w, fS w = s → decodeOp (base / 2 ^ 27) (base / 2 ^ 21 % 64) w (encodeLit (C s a)) =
      unused w 20 14 (unused w 6 0 (.ok (C (fS w) (fA w))))) :
    Reads (C s a) (encWord base s 0 a.toNat 0) := by
  have hf := HasFields.encWord (x := 0) (y := a.toNat) (z := 0) s hzero hbase (by omega)
  have ho := hf.operands
  refine hf.reads ?_
  rw [h _ hf.marker, unused_pass (by omega), unused_pass (by omega), hf.marker, fA, ofNat_of_mod (v := a) (by omega)]

theorem reads_none {C : Bool → Instr}
    (h : ∀ w, fS w = s → decodeOp (base / 2 ^ 27) (base / 2 ^ 21 % 64) w (encodeLit (C s)) = unused w 20 0 (.ok (C (fS w)))) :
    Reads (C s) (encWord base s 0 0 0) := by
  have hf := HasFields.encWord (x := 0) (y := 0) (z := 0) s hzero hbase (by decide)
  have ho := hf.operands
  refine hf.reads ?_
  rw [h _ hf.marker, unused_pass (by omega), hf.marker]

theorem reads_dm {C : Bool → Reg → BitVec 14 → Instr} {d : Reg} {m : BitVec 14}
    (h : ∀ w, decodeOp (base / 2 ^ 27) (base / 2 ^ 21 % 64) w (encodeLit (C s d m)) = .ok (C (fS w) (fD w) (BitVec.ofNat 14 w))) :
    Reads (C s d m) (encWord base s d.toNat 0 m.toNat) := by
  have hf := HasFields.encWord (x := d.toNat) (y := 0) (z := m.toNat) s hzero hbase (by omega)
  have ho := hf.operands
  refine hf.reads ?_
  rw [h, hf.marker, fD, ofNat_of_mod (v := d) (by omega), ofNat_of_mod (v := m) (by omega)]

theorem reads_m14 {C : Bool → BitVec 14 → Instr} {m : BitVec 14}
    (h : ∀ w, fS w = s → decodeOp (base / 2 ^ 27) (base / 2 ^ 21 % 64) w (encodeLit (C s m)) =
      unused w 20 14 (.ok (C (fS w) (BitVec.ofNat 14 w)))) :
    Reads (C s m) (encWord base s 0 0 m.toNat) := by
  have hf := HasFields.encWord (x := 0) (y := 0) (z := m.toNat) s hzero hbase (by omega)
  have ho := hf.operands
  refine hf.reads ?_
  rw [h _ hf.marker, unused_pass (by omega), hf.marker, ofNat_of_mod (v := m) (by omega)]

theorem reads_m21 {C : Bool → BitVec 21 → Instr} {m : BitVec 21}
    (h : ∀ w, decodeOp (base / 2 ^ 27) (base / 2 ^ 21 % 64) w (encodeLit (C s m)) = .ok (C (fS w) (BitVec.ofNat 21 w))) :
    Reads (C s m) (encWord base s 0 0 m.toNat) := by
  have hf := HasFields.encWord (x := 0) (y := 0) (z := m.toNat) s hzero hbase (by omega)
  have ho := hf.operands
  refine hf.reads ?_
  rw [h, hf.marker, ofNat_of_mod (v := m) (by omega)]

theorem reads_sets {C : Bool → BitVec 7 → BitVec 7 → BitVec 3 → Instr} {u v : BitVec 7} {c : BitVec 3}
    (h : ∀ w, decodeOp (base / 2 ^ 27) (base / 2 ^ 21 % 64) w (encodeLit (C s u v c)) =
      unused w 3 0 (.ok (C (fS w) (fD w) (fA w) (BitVec.ofNat 3 (w / 2 ^ 4))))) :
    Reads (C s u v c) (encWord base s u.toNat v.toNat (c.toNat * 2 ^ 4)) := by
  have hf := HasFields.encWord (x := u.toNat) (y := v.toNat) (z := c.toNat * 2 ^ 4) s hzero hbase (by omega)
  have ho := hf.operands
  refine hf.reads ?_
  rw [h, unused_pass (by omega), hf.marker, fD, fA, ofNat_of_mod (v := u) (by omega), ofNat_of_mod (v := v) (by omega),
    ofNat_of_mod (v := c) (by omega)]

theorem reads_barrier_a {C : Bool → BitVec 4 → BitVec 3 → Reg → Instr} {n : BitVec 4} {l : BitVec 3} {a : Reg}
    (h : ∀ w, decodeOp (base / 2 ^ 27) (base / 2 ^ 21 % 64) w (encodeLit (C s n l a)) =
      unused w 6 0 (.ok (C (fS w) (BitVec.ofNat 4 (w / 2 ^ 17)) (BitVec.ofNat 3 (w / 2 ^ 14)) (fA w)))) :
    Reads (C s n l a) (encB base s n.toNat l.toNat a.toNat) := by
  have hf := HasFields.encB (n := n.toNat) (l := l.toNat) (a := a.toNat) s hzero hbase (by omega)
  have ho := hf.operands
  refine hf.reads ?_
  rw [h, unused_pass (by omega), hf.marker, fA, ofNat_of_mod (v := n) (by omega), ofNat_of_mod (v := l) (by omega),
    ofNat_of_mod (v := a) (by omega)]

theorem reads_barrier {C : Bool → BitVec 4 → BitVec 3 → Instr} {n : BitVec 4} {l : BitVec 3}
    (h : ∀ w, decodeOp (base / 2 ^ 27) (base / 2 ^ 21 % 64) w (encodeLit (C s n l)) =
      unused w 13 0 (.ok (C (fS w) (BitVec.ofNat 4 (w / 2 ^ 17)) (BitVec.ofNat 3 (w / 2 ^ 14))))) :
    Reads (C s n l) (encB base s n.toNat l.toNat 0) := by
  have hf := HasFields.encB (n := n.toNat) (l := l.toNat) (a := 0) s hzero hbase (by omega)
  have ho := hf.operands
  refine hf.reads ?_
  rw [h, unused_pass (by omega), hf.marker, ofNat_of_mod (v := n) (by omega), ofNat_of_mod (v := l) (by omega)]

theorem reads_reduction {C : Bool → BitVec 3 → Bool → BitVec 6 → Reg → Instr} {p : BitVec 3} {f : Bool} {a : BitVec 6} {b : Reg}
    (h : ∀ w, decodeOp (base / 2 ^ 27) (base / 2 ^ 21 % 64) w (encodeLit (C s p f a b)) =
      unused w 17 15 (unused w 7 7 (.ok (C (fS w) (BitVec.ofNat 3 (w / 2 ^ 18)) (bitOf w 14) (fA6 w) (fB w))))) :
    Reads (C s p f a b) (encN base s p.toNat f a.toNat b.toNat) := by
  have hflag : encFlag f 14 = 0 ∧ f = false ∨ encFlag f 14 = 2 ^ 14 ∧ f = true := by cases f <;> simp [encFlag]
  have hf := HasFields.encN (p := p.toNat) (a := a.toNat) (b := b.toNat) s f hzero hbase (by omega)
  have ho := hf.operands
  have hbit : bitOf (encN base s p.toNat f a.toNat b.toNat) 14 = f := by
    rcases hflag with ⟨hflag, rfl⟩ | ⟨hflag, rfl⟩ <;> simp only [bitOf, beq_iff_eq, beq_eq_false_iff_ne] <;> omega
  refine hf.reads ?_
  rw [h, unused_pass (by omega), unused_pass (by omega), hf.marker, hbit, fA6, fB, ofNat_of_mod (v := p) (by omega),
    ofNat_of_mod (v := a) (by omega), ofNat_of_mod (v := b) (by omega)]

end

theorem reads_atomic {C : Bool → BitVec 3 → Reg → BitVec 6 → Bool → Reg → Instr} {base : Nat} {s : Bool} {p : BitVec 3}
    {d : Reg} {a : BitVec 6} {f : Bool} {b : Reg} (hzero : base % 2 ^ 24 = 0) (hbase : base < 2 ^ 31) (hp : p ≠ 7)
    (h : ∀ w, ∀ k < 7, decodeOp ((base + k * 2 ^ 21) / 2 ^ 27) ((base + k * 2 ^ 21) / 2 ^ 21 % 64) w (encodeLit (C s p d a f b)) =
      .ok (C (fS w) (BitVec.ofNat 3 (w / 2 ^ 21)) (fD w) (fA6 w) (bitOf w 7) (fB w))) :
    Reads (C s p d a f b) (encA base s p.toNat d.toNat a.toNat f b.toNat) := by
  have hp7 : p.toNat < 7 := by bv_omega
  have hflag : encFlag f 7 = 0 ∧ f = false ∨ encFlag f 7 = 2 ^ 7 ∧ f = true := by cases f <;> simp [encFlag]
  have hf := HasFields.encA (p := p.toNat) (d := d.toNat) (a := a.toNat) (b := b.toNat) s f hzero hbase (by omega) (by omega)
  have ho := hf.operands
  have hindex := hf.index
  have hbit : bitOf (encA base s p.toNat d.toNat a.toNat f b.toNat) 7 = f := by
    rcases hflag with ⟨hflag, rfl⟩ | ⟨hflag, rfl⟩ <;> simp only [bitOf, beq_iff_eq, beq_eq_false_iff_ne] <;> omega
  refine hf.reads ?_
  rw [h _ _ hp7, hf.marker, hbit, fD, fA6, fB, ofNat_of_mod (v := p) (by omega), ofNat_of_mod (v := d) (by omega),
    ofNat_of_mod (v := a) (by omega), ofNat_of_mod (v := b) (by omega)]

/-! Every instruction is in one of the formats. -/

theorem reads_movw {s : Bool} {d : Reg} {v : Word} : Reads (.movw s d v) (encWord 0xC200000 s d.toNat 0 0) := by
  have hf := HasFields.encWord (x := d.toNat) (y := 0) (z := 0) (base := 0xC200000) s (by decide) (by decide) (by omega)
  have ho := hf.operands
  refine hf.reads ?_
  change unused _ 13 0 (.ok (.movw (fS _) (fD _) (BitVec.ofNat 32 v.toNat))) = _
  rw [unused_pass (by omega), hf.marker, fD, ofNat_of_mod (v := d) (by omega), BitVec.ofNat_toNat, BitVec.setWidth_eq]

theorem reads_nop {s : Bool} : Reads (.nop s) (encWord 0x8020400 s 0 0 0) := by
  have hf : HasFields 0x8000000 s 0x20400 (encWord 0x8020400 s 0 0 0) := by
    cases s <;> exact ⟨by decide, by decide, by decide, by decide, by decide⟩
  refine hf.reads ?_
  have hnop : encWord 0x8020400 s 0 0 0 % 2 ^ 31 = 0x8020400 := by cases s <;> rfl
  change (if encWord 0x8020400 s 0 0 0 % 2 ^ 31 = 0x8020400 then _ else _) = _
  rw [if_pos hnop, hf.marker]

/-- ADDI, but for the word that is NOP's (R56). -/
theorem reads_addi {s : Bool} {d a : Reg} {m : BitVec 7} (h : (Instr.addi s d a m).wf = true) :
    Reads (.addi s d a m) (encWord 0x8000000 s d.toNat a.toNat m.toNat) := by
  have hf := HasFields.encWord (base := 0x8000000) (x := d.toNat) (y := a.toNat) (z := m.toNat) s (by decide) (by decide) (by omega)
  have ho := hf.operands
  have hnop : encWord 0x8000000 s d.toNat a.toNat m.toNat % 2 ^ 31 ≠ 0x8020400 := by
    intro he
    have hd : d = 8 := BitVec.eq_of_toNat_eq (by simp; omega)
    have ha : a = 8 := BitVec.eq_of_toNat_eq (by simp; omega)
    have hm : m = 0 := BitVec.eq_of_toNat_eq (by simp; omega)
    simp [Instr.wf, hd, ha, hm] at h
  refine hf.reads ?_
  change (if encWord 0x8000000 s d.toNat a.toNat m.toNat % 2 ^ 31 = 0x8020400 then _ else _) = _
  rw [if_neg hnop, hf.marker, fD, fA, ofNat_of_mod (v := d) (by omega), ofNat_of_mod (v := a) (by omega), ofNat_of_mod (v := m) (by omega)]

theorem reads_of_encodeWord {i : Instr} {w : Nat} (hwf : i.wf = true) (h : encodeWord i = some w) : Reads i w := by
  cases i <;> cases h
  case nop.refl => exact reads_nop
  case addi.refl => exact reads_addi hwf
  case movw.refl => exact reads_movw
  case add.refl | sub.refl | mul.refl | mulh.refl | mulhu.refl | mad.refl | divu.refl | remu.refl | and.refl | or.refl | xor.refl |
      andn.refl | shl.refl | shr.refl | sra.refl | rot.refl | min.refl | max.refl | minu.refl | maxu.refl | seq.refl | sne.refl |
      slt.refl | sltu.refl | sle.refl | sleu.refl | cmovz.refl | cmovn.refl | add64.refl | sub64.refl | mul64.refl | addx.refl |
      addx4.refl | bfx.refl | bfxs.refl | bfi.refl | fadd.refl | fsub.refl | fmul.refl | ffma.refl | fmin.refl | fmax.refl | fdiv.refl |
      fseq.refl | fslt.refl | fsle.refl | fsun.refl | fcpys.refl | hadd2.refl | hmul2.refl | hfma2.refl | hmax2.refl | eadd2.refl |
      emul2.refl | efma2.refl | emax2.refl | cvtBf16F32.refl | cvtBf16F32Sr.refl | cvtFp16F32.refl | shfl.refl | shflx.refl |
      shflu.refl | shfld.refl | ldbx.refl | ldbsx.refl | ldhx.refl | ldhsx.refl | ldwx.refl | lddx.refl | ldqx.refl | stbx.refl |
      sthx.refl | stwx.refl | stdx.refl | stqx.refl | ldcx.refl | ldcdx.refl | slacq.refl | stst.refl | ststd.refl | ldas.refl |
      pdisc.refl | pmove.refl | lease.refl | tcopy.refl | tcopym.refl | gath.refl | scat.refl | coll.refl | vdec.refl | mxma.refl |
      twait.refl | ldt.refl | stt.refl | spawn.refl | tlbi.refl | ctxres.refl | andi.refl | ori.refl | xori.refl | shli.refl |
      shri.refl | srai.refl | slti.refl | sltui.refl | seqi.refl | muli.refl | add64i.refl | ldb.refl | ldbs.refl | ldh.refl |
      ldhs.refl | ldw.refl | ldd.refl | ldq.refl | stb.refl | sth.refl | stw.refl | std.refl | stq.refl | ldc.refl | ldcd.refl =>
    exact reads_dab (by decide) (by decide) (fun _ => rfl)
  case clz.refl | popc.refl | brev.refl | abs.refl | sexb.refl | sexh.refl | fsqrt.refl | frcp.refl | frsq.refl | fexp2.refl |
      flog2.refl | fabs.refl | fneg.refl | cvtF32Sw.refl | cvtF32Uw.refl | cvtSwF32.refl | cvtSwF32Rn.refl | cvtUwF32.refl |
      cvtF32Bf16.refl | cvtF32Fp16.refl | cvtLc8F32.refl | cvtF32Lc8.refl | cvtI8F32.refl | vany.refl | vall.refl | vbal.refl |
      matchOp.refl | gsum.refl | mon.refl | mwait.refl | cwait.refl | lwait.refl | lrel.refl | lstat.refl | qfence.refl | bwait.refl |
      bstat.refl | accout.refl | tfree.refl | tstate.refl | tset.refl | ctxsav.refl | pfence.refl =>
    exact reads_da (by decide) (by decide) (fun _ => rfl)
  case movi.refl | bez.refl | bnz.refl | looph.refl | loope.refl | mfs.refl | mts.refl | rclaim.refl | mfsr.refl | mtsr.refl =>
    exact reads_dm (by decide) (by decide) (fun _ => rfl)
  case br.refl | call.refl | trap.refl | brk.refl | sysc.refl =>
    exact reads_m21 (by decide) (by decide) (fun _ => rfl)
  case wbase.refl | wbadj.refl | txb.refl =>
    exact reads_m14 (by decide) (by decide) (fun _ _ => rfl)
  case callr.refl | jr.refl | slrel.refl =>
    exact reads_a (by decide) (by decide) (fun _ _ => rfl)
  case ret.refl | exit.refl =>
    exact reads_none (by decide) (by decide) (fun _ _ => rfl)
  case lanes.refl | clki.refl | bseal.refl | accz.refl | talloc.refl | rpool.refl | tokw.refl | tokp.refl | rndb.refl =>
    exact reads_d (by decide) (by decide) (fun _ _ => rfl)
  case fence.refl =>
    exact reads_sets (by decide) (by decide) (fun _ => rfl)
  case bara.refl | bar.refl | barx.refl =>
    exact reads_barrier_a (by decide) (by decide) (fun _ => rfl)
  case barw.refl =>
    exact reads_barrier (by decide) (by decide) (fun _ => rfl)
  case amoAdd.refl | amoAnd.refl | amoOr.refl | amoXor.refl | amoMin.refl | amoMax.refl | amoXchg.refl | amoFadd.refl | amoMinu.refl |
      amoMaxu.refl | casW.refl =>
    refine reads_atomic (by decide) (by decide) (of_decide_eq_true hwf) (fun w k hk => ?_)
    interval_cases k <;> rfl
  case amoAdd64.refl | casD.refl | gts.refl | vcas.refl | tcas.refl =>
    refine reads_atomic (by decide) (by decide) (of_decide_eq_true (Bool.and_eq_true_iff.mp hwf).2) (fun w k hk => ?_)
    interval_cases k <;> rfl
  case redAdd.refl | redAnd.refl | redOr.refl | redXor.refl | redMin.refl | redMax.refl | redMinu.refl | redMaxu.refl | redFadd.refl |
      redHadd2.refl | redFmin.refl | redFmax.refl =>
    exact reads_reduction (by decide) (by decide) (fun _ => rfl)
  case txe.refl =>
    exact reads_d (C := fun _ d => .txe d) (by decide) (by decide) (fun _ => needS_pass)
  case txa.refl =>
    exact reads_m14 (C := fun _ m => .txa m) (by decide) (by decide) (fun _ => needS_pass)
  case rgive.refl =>
    exact reads_m14 (C := fun _ m => .rgive m) (by decide) (by decide) (fun _ => needS_pass)
  case eret.refl =>
    exact reads_none (C := fun _ => .eret) (by decide) (by decide) (fun _ => needS_pass)
  case halt.refl =>
    exact reads_a (C := fun _ a => .halt a) (by decide) (by decide) (fun _ => needS_pass)

/-! The other way: a word that decodes is the first word of its instruction. -/

/-- Every instruction that the answer holds has the first word `w`. -/
def Encodes (w : Nat) (r : Except DecodeError Instr) : Prop := ∀ i, r = .ok i → encodeWord i = some w

theorem encodes_error {w : Nat} {e : DecodeError} : Encodes w (.error e) ↔ True := by
  simp [Encodes]

theorem encodes_ok {w : Nat} {i : Instr} : Encodes w (.ok i) ↔ encodeWord i = some w := by
  simp [Encodes]

theorem encodes_ite {w : Nat} {p : Prop} [Decidable p] {r r' : Except DecodeError Instr} :
    Encodes w (if p then r else r') ↔ (p → Encodes w r) ∧ (¬ p → Encodes w r') := by
  split <;> simp [*]

theorem encodes_unused {w hi lo : Nat} {r : Except DecodeError Instr} :
    Encodes w (unused w hi lo r) ↔ (w / 2 ^ lo % 2 ^ (hi + 1 - lo) = 0 → Encodes w r) := by
  unfold unused bits
  split <;> simp [*, encodes_error]

theorem encodes_needS {w : Nat} {r : Except DecodeError Instr} : Encodes w (needS w r) ↔ (fS w = true → Encodes w r) := by
  unfold needS
  split <;> simp [*, encodes_error]

theorem encS_fS {w : Nat} (h : w < 2 ^ 32) : encS (fS w) = w / 2 ^ 31 * 2 ^ 31 := by
  simp only [encS, fS, bitOf, beq_iff_eq]
  split <;> omega

theorem encFlag_bitOf (w k : Nat) : encFlag (bitOf w k) k = w / 2 ^ k % 2 * 2 ^ k := by
  simp only [encFlag, bitOf, beq_iff_eq]
  split <;> simp_all

section
variable {g idx base w : Nat} (hw : w < 2 ^ 32) (hg : w / 2 ^ 27 % 16 = g) (hidx : w / 2 ^ 21 % 64 = idx)
include hw hg hidx

/-- The words of `encWord`, by their operand bits. -/
theorem encWord_fields {s : Bool} {x y z : Nat} (hbase : base = g * 2 ^ 27 + idx * 2 ^ 21) (hs : fS w = s)
    (hxyz : x * 2 ^ 14 + y * 2 ^ 7 + z = w % 2 ^ 21) : some (encWord base s x y z) = some w := by
  rw [encWord, ← hs, encS_fS hw]
  exact congrArg some (by omega)

theorem word_dab (hbase : base = g * 2 ^ 27 + idx * 2 ^ 21) : some (encWord base (fS w) (fD w).toNat (fA w).toNat (fB w).toNat) = some w :=
  encWord_fields hw hg hidx hbase rfl (by simp only [fD, fA, fB, BitVec.toNat_ofNat]; omega)

theorem word_da (hbase : base = g * 2 ^ 27 + idx * 2 ^ 21) (hb : w / 2 ^ 0 % 2 ^ (6 + 1 - 0) = 0) :
    some (encWord base (fS w) (fD w).toNat (fA w).toNat 0) = some w :=
  encWord_fields hw hg hidx hbase rfl (by simp only [fD, fA, BitVec.toNat_ofNat]; omega)

theorem word_d {s : Bool} (hbase : base = g * 2 ^ 27 + idx * 2 ^ 21) (hs : fS w = s) (hab : w / 2 ^ 0 % 2 ^ (13 + 1 - 0) = 0) :
    some (encWord base s (fD w).toNat 0 0) = some w :=
  encWord_fields hw hg hidx hbase hs (by simp only [fD, BitVec.toNat_ofNat]; omega)

theorem word_a {s : Bool} (hbase : base = g * 2 ^ 27 + idx * 2 ^ 21) (hs : fS w = s) (hd : w / 2 ^ 14 % 2 ^ (20 + 1 - 14) = 0)
    (hb : w / 2 ^ 0 % 2 ^ (6 + 1 - 0) = 0) : some (encWord base s 0 (fA w).toNat 0) = some w :=
  encWord_fields hw hg hidx hbase hs (by simp only [fA, BitVec.toNat_ofNat]; omega)

theorem word_none {s : Bool} (hbase : base = g * 2 ^ 27 + idx * 2 ^ 21) (hs : fS w = s) (hdab : w / 2 ^ 0 % 2 ^ (20 + 1 - 0) = 0) :
    some (encWord base s 0 0 0) = some w :=
  encWord_fields hw hg hidx hbase hs (by rw [Nat.zero_mul, Nat.zero_mul]; omega)

theorem word_dm (hbase : base = g * 2 ^ 27 + idx * 2 ^ 21) : some (encWord base (fS w) (fD w).toNat 0 (BitVec.ofNat 14 w).toNat) = some w :=
  encWord_fields hw hg hidx hbase rfl (by simp only [fD, BitVec.toNat_ofNat]; omega)

theorem word_m14 {s : Bool} (hbase : base = g * 2 ^ 27 + idx * 2 ^ 21) (hs : fS w = s) (hd : w / 2 ^ 14 % 2 ^ (20 + 1 - 14) = 0) :
    some (encWord base s 0 0 (BitVec.ofNat 14 w).toNat) = some w :=
  encWord_fields hw hg hidx hbase hs (by simp only [BitVec.toNat_ofNat]; omega)

theorem word_m21 (hbase : base = g * 2 ^ 27 + idx * 2 ^ 21) : some (encWord base (fS w) 0 0 (BitVec.ofNat 21 w).toNat) = some w :=
  encWord_fields hw hg hidx hbase rfl (by simp only [BitVec.toNat_ofNat]; omega)

theorem word_sets (hbase : base = g * 2 ^ 27 + idx * 2 ^ 21) (hlow : w / 2 ^ 0 % 2 ^ (3 + 1 - 0) = 0) :
    some (encWord base (fS w) (fD w).toNat (fA w).toNat ((BitVec.ofNat 3 (w / 2 ^ 4)).toNat * 2 ^ 4)) = some w :=
  encWord_fields hw hg hidx hbase rfl (by simp only [fD, fA, BitVec.toNat_ofNat]; omega)

theorem word_barrier {a : Nat} (hbase : base = g * 2 ^ 27 + idx * 2 ^ 21) (ha : a * 2 ^ 7 = w % 2 ^ 14) :
    some (encB base (fS w) (BitVec.ofNat 4 (w / 2 ^ 17)).toNat (BitVec.ofNat 3 (w / 2 ^ 14)).toNat a) = some w := by
  rw [encB, encS_fS hw, BitVec.toNat_ofNat, BitVec.toNat_ofNat]
  exact congrArg some (by omega)

theorem word_barrier_a (hbase : base = g * 2 ^ 27 + idx * 2 ^ 21) (hb : w / 2 ^ 0 % 2 ^ (6 + 1 - 0) = 0) :
    some (encB base (fS w) (BitVec.ofNat 4 (w / 2 ^ 17)).toNat (BitVec.ofNat 3 (w / 2 ^ 14)).toNat (fA w).toNat) = some w :=
  word_barrier hw hg hidx hbase (by simp only [fA, BitVec.toNat_ofNat]; omega)

theorem word_reduction (hbase : base = g * 2 ^ 27 + idx * 2 ^ 21) (h17 : w / 2 ^ 15 % 2 ^ (17 + 1 - 15) = 0)
    (h7 : w / 2 ^ 7 % 2 ^ (7 + 1 - 7) = 0) :
    some (encN base (fS w) (BitVec.ofNat 3 (w / 2 ^ 18)).toNat (bitOf w 14) (fA6 w).toNat (fB w).toNat) = some w := by
  simp only [encN, encS_fS hw, encFlag_bitOf, fA6, fB, BitVec.toNat_ofNat]
  exact congrArg some (by omega)

theorem word_atomic (hbase : base = g * 2 ^ 27 + idx / 8 * 2 ^ 24) :
    some (encA base (fS w) (BitVec.ofNat 3 (w / 2 ^ 21)).toNat (fD w).toNat (fA6 w).toNat (bitOf w 7) (fB w).toNat) = some w := by
  simp only [encA, encS_fS hw, encFlag_bitOf, fD, fA6, fB, BitVec.toNat_ofNat]
  exact congrArg some (by omega)

end

/-! Group by group (R53). -/

section
variable {idx w : Nat} (hw : w < 2 ^ 32) (hidx : w / 2 ^ 21 % 64 = idx)
include hw hidx

theorem encodes_decodeGroup0 (hg : w / 2 ^ 27 % 16 = 0) : Encodes w (decodeGroup0 idx w) := by
  unfold decodeGroup0
  split <;> simp only [encodes_error, encodes_ok]
  all_goals exact word_dab hw hg hidx rfl

theorem encodes_decodeGroup1 (hg : w / 2 ^ 27 % 16 = 1) (lit : Option Nat) : Encodes w (decodeGroup1 idx w lit) := by
  unfold decodeGroup1
  split <;> simp only [encodes_error, encodes_ok, encodes_ite, encodes_unused]
  case h_1 =>
    exact ⟨fun hnop => congrArg some (by rw [encWord, encS_fS hw]; omega), fun _ => word_dab hw hg hidx rfl⟩
  case h_2 | h_3 | h_4 | h_5 | h_6 | h_7 | h_8 | h_9 | h_10 | h_11 | h_12 => exact word_dab hw hg hidx rfl
  case h_13 | h_14 | h_15 | h_16 | h_17 | h_18 => exact word_da hw hg hidx rfl
  case h_19 => exact word_dm hw hg hidx rfl
  case h_20 =>
    intro hlow
    cases lit <;> simp only [encodes_error, encodes_ok]
    exact word_d hw hg hidx rfl rfl hlow

theorem encodes_decodeGroup2 (hg : w / 2 ^ 27 % 16 = 2) : Encodes w (decodeGroup2 idx w) := by
  unfold decodeGroup2
  split <;> simp only [encodes_error, encodes_ok, encodes_unused]
  case h_1 | h_2 | h_3 | h_4 | h_5 | h_6 | h_7 | h_8 | h_9 | h_10 | h_11 | h_12 => exact word_dab hw hg hidx rfl
  case h_13 | h_14 | h_15 | h_16 | h_17 | h_18 | h_19 => exact word_da hw hg hidx rfl

theorem encodes_decodeGroup3 (hg : w / 2 ^ 27 % 16 = 3) : Encodes w (decodeGroup3 idx w) := by
  unfold decodeGroup3
  split <;> simp only [encodes_error, encodes_ok, encodes_unused]
  case h_1 | h_2 | h_3 | h_4 | h_5 | h_6 | h_7 | h_8 | h_14 | h_15 | h_16 => exact word_dab hw hg hidx rfl
  case h_9 | h_10 | h_11 | h_12 | h_13 | h_17 | h_18 | h_19 | h_20 | h_21 => exact word_da hw hg hidx rfl

theorem encodes_decodeGroup4 (hg : w / 2 ^ 27 % 16 = 4) : Encodes w (decodeGroup4 idx w) := by
  unfold decodeGroup4
  split <;> simp only [encodes_error, encodes_ok, encodes_unused]
  case h_1 | h_2 | h_13 | h_14 => exact word_m21 hw hg hidx rfl
  case h_3 | h_4 | h_8 | h_9 => exact word_dm hw hg hidx rfl
  case h_5 | h_6 => exact word_a hw hg hidx rfl rfl
  case h_7 | h_12 => exact word_none hw hg hidx rfl rfl
  case h_10 | h_11 => exact word_m14 hw hg hidx rfl rfl

theorem encodes_decodeGroup5 (hg : w / 2 ^ 27 % 16 = 5) : Encodes w (decodeGroup5 idx w) := by
  unfold decodeGroup5
  split <;> simp only [encodes_error, encodes_ok, encodes_unused]
  case h_1 | h_2 | h_3 | h_4 => exact word_dab hw hg hidx rfl
  case h_5 | h_6 | h_7 | h_8 | h_9 => exact word_da hw hg hidx rfl
  case h_10 | h_11 => exact word_d hw hg hidx rfl rfl
  case h_12 | h_13 => exact word_dm hw hg hidx rfl

theorem encodes_decodeGroup6 (hg : w / 2 ^ 27 % 16 = 6) : Encodes w (decodeGroup6 idx w) := by
  unfold decodeGroup6
  split <;> simp only [encodes_error, encodes_ok]
  all_goals exact word_dab hw hg hidx rfl

theorem encodes_decodeGroup7 (hg : w / 2 ^ 27 % 16 = 7) : Encodes w (decodeGroup7 idx w) := by
  unfold decodeGroup7
  split <;> simp only [encodes_error, encodes_ok, encodes_unused]
  case h_1 => exact word_sets hw hg hidx rfl
  case h_2 | h_9 | h_10 => exact word_da hw hg hidx rfl
  case h_3 => exact word_dab hw hg hidx rfl
  case h_4 => exact word_a hw hg hidx rfl rfl
  case h_5 | h_7 | h_8 => exact word_barrier_a hw hg hidx rfl
  case h_6 =>
    exact fun hlow => word_barrier hw hg hidx rfl (by omega)

theorem encodes_decodeGroup8 (hg : w / 2 ^ 27 % 16 = 8) : Encodes w (decodeGroup8 idx w) := by
  unfold decodeGroup8
  split <;> simp only [encodes_error, encodes_ok]
  all_goals exact word_atomic hw hg hidx rfl

theorem encodes_decodeGroup9 (hg : w / 2 ^ 27 % 16 = 9) : Encodes w (decodeGroup9 idx w) := by
  unfold decodeGroup9
  split <;> simp only [encodes_error, encodes_ok]
  all_goals exact word_atomic hw hg hidx rfl

theorem encodes_decodeGroupA (hg : w / 2 ^ 27 % 16 = 10) : Encodes w (decodeGroupA idx w) := by
  unfold decodeGroupA
  split <;> simp only [encodes_error, encodes_ok, encodes_unused, encodes_needS]
  case h_1 | h_2 | h_3 | h_4 | h_5 | h_6 | h_7 | h_8 | h_9 | h_10 | h_11 | h_12 => exact word_reduction hw hg hidx rfl
  case h_13 => exact word_m14 hw hg hidx rfl rfl
  case h_14 => exact word_d hw hg hidx rfl
  case h_15 => exact word_m14 hw hg hidx rfl
  case h_16 | h_17 | h_19 | h_20 | h_21 => exact word_dab hw hg hidx rfl
  case h_18 => exact word_da hw hg hidx rfl

theorem encodes_decodeGroupB (hg : w / 2 ^ 27 % 16 = 11) : Encodes w (decodeGroupB idx w) := by
  unfold decodeGroupB
  split <;> simp only [encodes_error, encodes_ok, encodes_unused]
  case h_1 | h_5 | h_6 | h_7 | h_8 | h_9 | h_10 => exact word_dab hw hg hidx rfl
  case h_2 | h_3 | h_4 | h_11 | h_13 | h_14 => exact word_da hw hg hidx rfl
  case h_12 => exact word_d hw hg hidx rfl rfl

theorem encodes_decodeGroupC (hg : w / 2 ^ 27 % 16 = 12) : Encodes w (decodeGroupC idx w) := by
  unfold decodeGroupC
  split <;> simp only [encodes_error, encodes_ok, encodes_unused]
  case h_1 | h_8 | h_9 | h_10 => exact word_dab hw hg hidx rfl
  case h_2 | h_4 => exact word_d hw hg hidx rfl rfl
  case h_3 | h_5 | h_6 | h_7 => exact word_da hw hg hidx rfl

theorem encodes_decodeGroupD (hg : w / 2 ^ 27 % 16 = 13) : Encodes w (decodeGroupD idx w) := by
  unfold decodeGroupD
  split <;> simp only [encodes_error, encodes_ok, encodes_unused, encodes_needS]
  case h_1 => exact word_m14 hw hg hidx rfl
  case h_2 => exact word_dm hw hg hidx rfl
  case h_3 | h_5 | h_6 | h_7 => exact word_d hw hg hidx rfl rfl
  case h_4 => exact word_dab hw hg hidx rfl

theorem encodes_decodeGroupE (hg : w / 2 ^ 27 % 16 = 14) : Encodes w (decodeGroupE idx w) := by
  unfold decodeGroupE
  split <;> simp only [encodes_error, encodes_ok, encodes_unused, encodes_needS]
  case h_1 | h_2 => exact word_dm hw hg hidx rfl
  case h_3 | h_7 => exact word_dab hw hg hidx rfl
  case h_4 => exact word_none hw hg hidx rfl
  case h_5 => exact word_a hw hg hidx rfl
  case h_6 => exact word_da hw hg hidx rfl
  case h_8 => exact word_m21 hw hg hidx rfl

end

/-- Every word that the tables read is its instruction's. -/
theorem encodes_decodeRaw {w : Nat} (hw : w < 2 ^ 32) (lit : Option Nat) : Encodes w (decodeRaw w lit) := by
  unfold decodeRaw
  split
  case h_1 hg => exact encodes_decodeGroup0 hw rfl hg
  case h_2 hg => exact encodes_decodeGroup1 hw rfl hg lit
  case h_3 hg => exact encodes_decodeGroup2 hw rfl hg
  case h_4 hg => exact encodes_decodeGroup3 hw rfl hg
  case h_5 hg => exact encodes_decodeGroup4 hw rfl hg
  case h_6 hg => exact encodes_decodeGroup5 hw rfl hg
  case h_7 hg => exact encodes_decodeGroup6 hw rfl hg
  case h_8 hg => exact encodes_decodeGroup7 hw rfl hg
  case h_9 hg => exact encodes_decodeGroup8 hw rfl hg
  case h_10 hg => exact encodes_decodeGroup9 hw rfl hg
  case h_11 hg => exact encodes_decodeGroupA hw rfl hg
  case h_12 hg => exact encodes_decodeGroupB hw rfl hg
  case h_13 hg => exact encodes_decodeGroupC hw rfl hg
  case h_14 hg => exact encodes_decodeGroupD hw rfl hg
  case h_15 hg => exact encodes_decodeGroupE hw rfl hg
  case h_16 => exact encodes_error.mpr trivial

/-! Bytes (R46). -/

theorem decodeWords_of_reads {i : Instr} {w : Nat} (hwf : i.wf = true) (h : Reads i w) : decodeWords w (encodeLit i) = .ok i := by
  obtain ⟨hlt, hraw⟩ := h
  have hzero : w ≠ 0 := by
    rintro rfl
    have hadd : i = .add false 0 0 0 := (Except.ok.inj hraw).symm
    rw [hadd] at hwf
    exact absurd hwf (by decide)
  simp only [decodeWords, Nat.mod_eq_of_lt hlt, hzero, if_false, hraw, encodingOk, hwf, if_true]

theorem isMovw_encWord (s : Bool) (d : Reg) : isMovw (encWord 0xC200000 s d.toNat 0 0) = true := by
  cases s <;> simp only [isMovw, encWord, encS, if_true, Bool.false_eq_true, if_false, beq_iff_eq] <;> omega

/-- The instructions that come with a literal are the MOVWs, whose word says so (R70, R131). -/
theorem encodeLit_of_reads {i : Instr} {w : Nat} (h : Reads i w) : (encodeLit i).isSome = isMovw w := by
  obtain ⟨hlt, hraw⟩ := h
  cases hw : isMovw w with
  | true =>
    have hread := decodeRaw_movw hw (encodeLit i)
    rw [Nat.mod_eq_of_lt hlt, hraw] at hread
    cases hlit : encodeLit i with
    | some v => rfl
    | none =>
      simp only [hlit, decodeGroup1, unused] at hread
      split_ifs at hread
  | false =>
    rw [Option.isSome_eq_false_iff, Option.isNone_iff_eq_none]
    unfold encodeLit
    split
    next s d v =>
      have henc := encodes_decodeRaw hlt (encodeLit (.movw s d v)) _ hraw
      rw [← Option.some.inj henc, isMovw_encWord] at hw
      exact absurd hw (by decide)
    · rfl

theorem encodeLit_lt {i : Instr} {v : Nat} (h : encodeLit i = some v) : v < 2 ^ 32 := by
  unfold encodeLit at h
  split at h
  next s d x => exact Option.some.inj h ▸ x.isLt
  · cases h

theorem leNat_leBytes_word {w : Nat} (h : w < 2 ^ 32) :
    leNat [BitVec.ofNat 8 w, BitVec.ofNat 8 (w / 256), BitVec.ofNat 8 (w / 256 / 256), BitVec.ofNat 8 (w / 256 / 256 / 256)] = w := by
  simp only [leNat, BitVec.toNat_ofNat]
  omega

/-- A word that decodes holds to the limits of its instruction and is the first word of its encoding. -/
theorem encodeWord_of_decodeWords {w : Nat} {lit : Option Nat} {i : Instr} (hw : w < 2 ^ 32) (h : decodeWords w lit = .ok i) :
    i.wf = true ∧ encodeWord i = some w := by
  unfold decodeWords at h
  rw [Nat.mod_eq_of_lt hw] at h
  split at h
  case isTrue => cases h
  case isFalse =>
    cases hraw : decodeRaw w lit with
    | error e => simp [hraw] at h
    | ok j =>
      simp only [hraw] at h
      split at h
      case isTrue hok =>
        cases h
        exact ⟨hok, encodes_decodeRaw hw lit i hraw⟩
      case isFalse => cases h

end Sys2Proof

namespace Sys2Proof.Words

/-- Settles O60: the formats of R47 read back what they write, and what they read is what they write. -/
theorem encodeDecode : Obligations.EncodeDecode := by
  unfold Obligations.EncodeDecode
  refine ⟨fun i bs rest hwf henc => ?_, fun w lit i hw hdec => ?_⟩
  · obtain ⟨w, hword, rfl⟩ := Option.map_eq_some_iff.mp henc
    have hreads := reads_of_encodeWord hwf hword
    have hdecode := decodeWords_of_reads hwf hreads
    have hmovw := encodeLit_of_reads hreads
    cases hlit : encodeLit i with
    | none =>
      simp only [hlit, Option.isSome_none] at hmovw hdecode
      simp only [leBytes, List.append_nil, List.cons_append, List.nil_append, decode, leNat_leBytes_word hreads.1, ← hmovw, hdecode,
        Except.map, Bool.false_eq_true, if_false]
    | some v =>
      simp only [hlit, Option.isSome_some] at hmovw hdecode
      simp only [leBytes, List.cons_append, List.nil_append, decode, leNat_leBytes_word hreads.1, leNat_leBytes_word (encodeLit_lt hlit),
        ← hmovw, hdecode, Except.map, if_true]
  · exact encodeWord_of_decodeWords hw hdec

/-- Settles O59: the decoder run on each word. -/
theorem decodeWords : Obligations.DecodeWords := by
  unfold Obligations.DecodeWords
  exact ⟨rfl, rfl, rfl, rfl, rfl, rfl, rfl, rfl, rfl, rfl, rfl⟩

end Sys2Proof.Words

end

section
/-! SUPPORT. The traps of an issue: which member's check fails first (R57). -/

namespace Sys2Proof.Machine

/-- The first member that there is, of those that a check fails. -/
theorem firstFail_cons {t : Thread} {ts : List Thread} {chk : Thread → Option TrapInfo} {x : TrapInfo} (h : chk t = some x) :
    firstFail (t :: ts) chk = some (x, t.tid) := by
  simp [firstFail, h]

/-- The members of a group whose first thread there is. -/
theorem State.members_cons {s : State} {g : Group} {k : Nat} {ks : List Nat} {u : Thread} (htids : g.tids = k :: ks)
    (hu : s.threadOf g.ctx g.wg k = some u) :
    s.members g = u :: ks.filterMap (fun t => s.threadOf g.ctx g.wg t) := by
  simp only [State.members, htids, List.filterMap_cons, hu]

/-- An issue one of whose checks fails raises its trap. -/
theorem issueHeld_traps {i : Instr} {chk : State → Group → Thread → Option TrapInfo} {hold : State → Group → Thread → Option HoldKind}
    {eff : State → Group → Nat → State} {s : State} {g : Group} {x : TrapInfo} {k : Nat} (hg : s.group = some g)
    (hf : issueFault i chk { s with group := none } g = some (x, k)) :
    issueHeld i chk hold eff s = State.trap { s with group := none } g x k := by
  simp only [issueHeld, hg, hf]

/-- Where the checks before them pass, the operands of the lowest member that there is are judged first (R57); a trap of its own is not
one that aborts a transaction instead (R179). -/
theorem issueFault_operand {i : Instr} {chk : State → Group → Thread → Option TrapInfo} {s : State} {g : Group} {k : Nat} {ks : List Nat}
    {u : Thread} {x : TrapInfo} (h : issuable i s g = true) (htids : g.tids = k :: ks) (hu : s.threadOf g.ctx g.wg k = some u)
    (hchk : chk { s with group := none } g u = some x) (hx : abortsInstead x.code = false) :
    issueFault i chk { s with group := none } g = some (x, k) := by
  obtain ⟨v, hv, -, htx, -, -⟩ := issuable_member h (k := k) (by simp [htids])
  obtain rfl : u = v := Option.some.inj (hu.symm.trans hv)
  have hallowed : (u.tx.active && !txAllowed i) = false := by
    cases ha : u.tx.active
    · rfl
    · simp [htx ha]
  rw [issueFault, earlyChecks_none h, State.members_cons (s := { s with group := none }) htids hu, orElse,
    firstFail_cons (by simp only [hallowed, hchk, hx, Bool.and_false, Bool.false_eq_true, if_false]; rfl), State.threadOf_tid hu]

end Sys2Proof.Machine

end

section
/-! SUPPORT. Statement O9: window moves and EXIT. -/

namespace Sys2Proof.Machine

/-- An instruction that sets what the member's thread does at its park. -/
theorem went_onThread {i : Instr} {pc : Nat} {u : Thread} {f : Thread → Thread} (hr : u.status = .ready)
    (hstatus : (f { u with pc := pc, holdPc := none }).status = u.status) (hrun : (f { u with pc := pc, holdPc := none }).runLen = u.runLen)
    (hf : f { u with pc := pc, holdPc := none } = { f u with pc := pc, holdPc := none }) :
    Went i pc (f u) u ((f { u with pc := pc, holdPc := none }).goOn i) := by
  refine ⟨?_, Thread.goOn_run (hstatus.trans hr) hrun⟩
  rw [Thread.goOn_ready (hstatus.trans hr), hf]

/-- The check of a window move that asks for the base `f` (R62, R146). -/
def baseCheck (f : Thread → Int) (_ : State) (_ : Group) (t : Thread) : Option TrapInfo :=
  if f t < 0 ∨ (t.alloc : Int) - 8 < f t then trapOf .window (f t % (2 ^ 64 : Nat)).toNat else none

theorem windowOp_eq (i : Instr) (f : Thread → Int) (s : State) :
    windowOp i f s = issue i (baseCheck f) (onThread (fun t => { t with parkAct := .window (f t).toNat })) s := rfl

section
variable {i : Instr} {s : State} {g : Group} {f : Thread → Int} (h : issuable i s g = true)
include h

theorem windowOp_performs (hf : ∀ u pc, f { u with pc := pc, holdPc := none } = f u)
    (hin : Members s g (fun u => 0 ≤ f u ∧ f u + 8 ≤ u.alloc)) :
    OnlyMembers s (windowOp i f s) g ∧ EachMember s (windowOp i f s) g (fun u v =>
      ∃ b : Nat, (b : Int) = f u ∧ Went i (g.pc + i.bytes) { u with parkAct := .window b } u v) := by
  have hchk : ∀ k ∈ g.tids, ∀ u, s.threadOf g.ctx g.wg k = some u → baseCheck f { s with group := none } g u = none := by
    intro k hk u hu
    obtain ⟨hlow, hhigh⟩ := hin k hk u hu
    exact if_neg (by omega)
  rw [windowOp_eq]
  obtain ⟨honly, heach⟩ := onThread_only (f := fun t => { t with parkAct := .window (f t).toNat }) h (fun _ => rfl) hchk
  refine ⟨honly, fun k hk => ?_⟩
  obtain ⟨u, v, hu, hv, hr, -, rfl⟩ := heach k hk
  refine ⟨u, _, hu, hv, (f u).toNat, Int.toNat_of_nonneg (hin k hk u hu).1, ?_⟩
  exact went_onThread (f := fun t => { t with parkAct := .window (f t).toNat }) hr rfl rfl (by simp only [hf])

theorem windowOp_traps {k : Nat} {ks : List Nat} {u : Thread} (htids : g.tids = k :: ks) (hu : s.threadOf g.ctx g.wg k = some u)
    (hout : f u < 0 ∨ (u.alloc : Int) < f u + 8) :
    windowOp i f s = State.trap { s with group := none } g { code := .window, operand := (f u % (2 ^ 64 : Nat)).toNat } k :=
  issueHeld_traps (chk := baseCheck f) (issuable_group h) (issueFault_operand h htids hu (if_pos (by omega)) rfl)

end

/-- Both window moves, by the base that they ask for (R146). -/
theorem windowMove (p : (Bool → BitVec 14 → Instr) × (Thread → BitVec 14 → Int)) (sw : Bool) (m : BitVec 14) (s : State) (g : Group)
    (hexec : exec (p.1 sw m) s = .next (windowOp (p.1 sw m) (fun u => p.2 u m) s)) (hbytes : (p.1 sw m).bytes = 4)
    (hf : ∀ u pc, p.2 { u with pc := pc, holdPc := none } m = p.2 u m) (h : issuable (p.1 sw m) s g = true) :
    (Members s g (fun u => 0 ≤ p.2 u m ∧ p.2 u m + 8 ≤ u.alloc) →
      Performs (p.1 sw m) s g (fun u v => ∃ b : Nat, (b : Int) = p.2 u m ∧
        Went (p.1 sw m) (g.pc + 4) { u with parkAct := .window b } u v)) ∧
    (∀ k ks u, g.tids = k :: ks → s.threadOf g.ctx g.wg k = some u → (p.2 u m < 0 ∨ (u.alloc : Int) < p.2 u m + 8) →
      ∃ operand : Nat, (operand : Int) = p.2 u m % 2 ^ 64 ∧ Traps (p.1 sw m) s g .window operand k) := by
  refine ⟨fun hin => ⟨_, hexec, ?_⟩, fun k ks u htids hu hout => ⟨_, ?_, hexec.trans (congrArg _ (windowOp_traps h htids hu hout))⟩⟩
  · rw [← hbytes]
    exact windowOp_performs h hf hin
  · exact Int.toNat_of_nonneg (Int.emod_nonneg _ (by decide))

/-- Settles O9: the two window moves are one operation; EXIT sets the park's act in each member. -/
theorem windowsAndExit : Obligations.WindowsAndExit := by
  unfold Obligations.WindowsAndExit
  refine ⟨fun p hp sw m s g h => ?_, fun sw s g h => ⟨_, rfl, ?_⟩⟩
  · rcases List.mem_pair.mp hp with rfl | rfl
    · exact windowMove (.wbase, fun _ m => (m.toNat : Int)) sw m s g rfl rfl (fun _ _ => rfl) h
    · exact windowMove (.wbadj, fun u m => (u.base : Int) + m.toInt) sw m s g rfl rfl (fun _ _ => rfl) h
  · obtain ⟨honly, heach⟩ := onThread_only (chk := noCheck) (f := fun t => { t with parkAct := .exit }) h (fun _ => rfl) (fun _ _ _ _ => rfl)
    refine ⟨honly, heach.imp ?_⟩
    rintro u v ⟨hr, -, rfl⟩
    exact went_onThread (f := fun t => { t with parkAct := .exit }) hr rfl rfl rfl

end Sys2Proof.Machine

end

section
/-! SUPPORT. Effects on members that look at the rest of the state: what stays the same while an issue performs. -/

namespace Sys2Proof.Machine

section
variable {s t : State} {c w : Nat} {tids : List Nat} (h : Kept s t c w tids)
include h

theorem Kept.mono {all : List Nat} (hsub : ∀ k ∈ tids, k ∈ all) : Kept s t c w all :=
  ⟨h.rest, fun c' w' k hk => h.others c' w' k (fun e => hk ⟨e.1, e.2.1, hsub k e.2.2⟩), h.shells, h.cores⟩

theorem Kept.launch (x : Nat) : t.launch x = s.launch x := by rw [h.rest]; rfl
theorem Kept.die (x : Nat) : t.die x = s.die x := by rw [h.rest]; rfl
theorem Kept.interval (x : Nat) : t.interval x = s.interval x := by rw [h.rest]; rfl
theorem Kept.flight : t.flight = s.flight := by rw [h.rest]
theorem Kept.acs : (t.wgOf c w).map Workgroup.acs = (s.wgOf c w).map Workgroup.acs := by
  have hshell := congrArg (Option.map Workgroup.acs) (h.shells c w)
  rw [Option.map_map, Option.map_map] at hshell
  exact hshell

end

/-- An issue each of whose effects changes its member's thread alone, by `φ`, as long as nothing but members' threads has changed. -/
theorem issue_members {i : Instr} {eff : State → Group → Nat → State} {φ : Nat → Thread → Thread} {s : State} {g : Group}
    (h : issuable i s g = true)
    (heff : ∀ t k, k ∈ g.tids → Kept { s with group := none } t g.ctx g.wg g.tids →
      Kept t (eff t g k) g.ctx g.wg [k] ∧ (eff t g k).threadOf g.ctx g.wg k = (t.threadOf g.ctx g.wg k).map (φ k)) :
    OnlyMembers s (issue i noCheck eff s) g ∧ ∀ k ∈ g.tids, ∃ u, s.threadOf g.ctx g.wg k = some u ∧ u.status = .ready ∧
      (issue i noCheck eff s).threadOf g.ctx g.wg k = some ((φ k { u with pc := g.pc + i.bytes, holdPc := none }).goOn i) := by
  rw [issue_performs h (fun _ _ _ _ => rfl)]
  have hsteps := (fold_members (F := stepPc i g) (φ := fun t => { t with pc := g.pc + i.bytes, holdPc := none }) (c := g.ctx) (w := g.wg)
    g.tids g.tids (fun _ hk => hk) (issuable_nodup h) { s with group := none }
    (fun s k _ => Kept.modThread s _ _ k (fun t => { t with pc := g.pc + i.bytes, holdPc := none }) (fun _ => rfl) [k] (by simp))
    (fun s k _ => State.threadOf_modThread_same s _ _ k (fun t => { t with pc := g.pc + i.bytes, holdPc := none }) (fun _ => rfl))).1
  obtain ⟨hkept, hthreads⟩ := performAll_of (i := i) (g := g) (eff := eff) (φ := φ)
    (P := fun t => Kept { s with group := none } t g.ctx g.wg g.tids) g.tids (issuable_nodup h) { s with group := none } hsteps
    (fun t k hk ht => (heff t k hk ht).1)
    (fun t k hk ht => ht.trans ((heff t k hk ht).1.mono (fun j hj => by rw [List.mem_singleton] at hj; exact hj ▸ hk)))
    (fun t k hk ht => (heff t k hk ht).2)
  refine ⟨⟨by rw [hkept.rest], hkept.others, hkept.shells, hkept.cores⟩, fun k hk => ?_⟩
  obtain ⟨u, hu, hready, -, -, -⟩ := issuable_member h hk
  have hu' : State.threadOf { s with group := none } g.ctx g.wg k = some u := hu
  exact ⟨u, hu, hready, by rw [hthreads k hk, hu', Option.map_some]⟩

theorem giveWord_members (g : Group) (k d : Nat) (x : Word) (t : State) : Kept t (giveWord g k d x t) g.ctx g.wg [k] ∧
    (giveWord g k d x t).threadOf g.ctx g.wg k = (t.threadOf g.ctx g.wg k).map (fun u => u.addResult (u.dests d 1) (some [some x])) :=
  ⟨Kept.modThread t g.ctx g.wg k (fun u => u.addResult (u.dests d 1) (some [some x])) (fun _ => rfl) [k] (by simp),
    State.threadOf_modThread_same t g.ctx g.wg k (fun u => u.addResult (u.dests d 1) (some [some x])) (fun _ => rfl)⟩

/-- A word that each member is given, of what its thread and the rest of the state hold at issue (R59, R60). -/
theorem issue_owes {i : Instr} {d : Nat} {eff : State → Group → Nat → State} {val : State → Thread → Word} {s : State} {g : Group}
    (h : issuable i s g = true)
    (heff : ∀ t k, eff t g k = (t.threadOf g.ctx g.wg k).elim t (fun u => giveWord g k d (val t u) t))
    (hkeep : ∀ t k u, k ∈ g.tids → Kept { s with group := none } t g.ctx g.wg g.tids → u.tid = k → val t u = val s u)
    (hpc : ∀ u pc, val s { u with pc := pc, holdPc := none } = val s u) :
    OnlyMembers s (issue i noCheck eff s) g ∧ EachMember s (issue i noCheck eff s) g (fun u v => Owes i (g.pc + i.bytes) d [val s u] u v) := by
  obtain ⟨honly, heach⟩ := issue_members (eff := eff) (φ := fun _ u => u.addResult (u.dests d 1) (some [some (val s u)])) h (fun t k hk ht => by
    rw [heff]
    cases hu : t.threadOf g.ctx g.wg k with
    | none => exact ⟨Kept.refl _ _ _ _, hu⟩
    | some u =>
      obtain ⟨hkept, hthread⟩ := giveWord_members g k d (val t u) t
      rw [Option.elim_some]
      refine ⟨hkept, ?_⟩
      rw [hthread, hu, Option.map_some, Option.map_some, hkeep t k u hk ht (State.threadOf_tid hu)])
  refine ⟨honly, fun k hk => ?_⟩
  obtain ⟨u, hu, hready, hv⟩ := heach k hk
  refine ⟨u, _, hu, hv, ?_⟩
  simp only [hpc]
  exact owes_word hready

/-! Other workgroups. -/

theorem State.wgOf_modWg_other {s : State} {c w c' w' : Nat} {f : Workgroup → Workgroup} (hf : ∀ x, (f x).ctx = x.ctx ∧ (f x).wg = x.wg)
    (h : ¬(c' = c ∧ w' = w)) : (s.modWg c w f).wgOf c' w' = s.wgOf c' w' := by
  rw [State.wgOf_modWg s c w c' w' f hf]
  cases hx : s.wgOf c' w' with
  | none => rfl
  | some x =>
    obtain ⟨rfl, rfl⟩ := State.wgOf_key hx
    rw [Option.map_some, if_neg (by simpa using h)]

theorem State.wgOf_modThread_other {s : State} {c w k c' w' : Nat} {f : Thread → Thread} (h : ¬(c' = c ∧ w' = w)) :
    (s.modThread c w k f).wgOf c' w' = s.wgOf c' w' := State.wgOf_modWg_other (fun _ => ⟨rfl, rfl⟩) h

theorem State.wgOf_advance_other {i : Instr} {g : Group} {s : State} {k c' w' : Nat} (h : ¬(c' = g.ctx ∧ w' = g.wg)) :
    (State.advance i g s k).wgOf c' w' = s.wgOf c' w' := by
  unfold State.advance
  cases s.threadOf g.ctx g.wg k with
  | none => rfl
  | some t =>
    cases hs : t.status with
    | ready =>
      by_cases hc : closesRun i t.runLen = true
      · simp only [hs, hc, if_true]
        exact State.wgOf_modThread_other h
      · simp only [hs, hc, if_false, Bool.false_eq_true, State.keepReady, State.wgOf, State.place_wgs]
        exact (State.wgOf_modThread_other h).trans (State.wgOf_modThread_other h)
    | held x => simp only [hs]; exact State.wgOf_modThread_other h
    | asleep x => simp only [hs]; exact State.wgOf_modThread_other h
    | parked => simp only [hs]
    | exited => simp only [hs]

theorem foldl_wgOf {F : State → Nat → State} {c w : Nat} (hF : ∀ s k, (F s k).wgOf c w = s.wgOf c w) (tids : List Nat) (s : State) :
    (tids.foldl F s).wgOf c w = s.wgOf c w := by
  induction tids generalizing s with
  | nil => rfl
  | cons k ks ih => exact (ih _).trans (hF s k)

/-! Accesses that members send: they join the flight in ascending lane, and are numbered in that order. -/

/-- Accesses have joined the flight; besides them only some threads of one workgroup, and PC tables, differ. -/
structure SentBy (s t : State) (c w : Nat) (tids : List Nat) (accs : List Access) : Prop where
  rest : t = { s with wgs := t.wgs, cores := t.cores, flight := s.flight ++ accs, nextId := s.nextId + accs.length }
  others : ∀ c' w' k, ¬(c' = c ∧ w' = w ∧ k ∈ tids) → t.threadOf c' w' k = s.threadOf c' w' k
  shells : ∀ c' w', (t.wgOf c' w').map Workgroup.shell = (s.wgOf c' w').map Workgroup.shell
  cores : ∀ k, (t.coreOf k).shell = (s.coreOf k).shell

section
variable {s t u : State} {c w : Nat} {tids : List Nat}

theorem SentBy.nil_of_kept (h : Kept s t c w tids) : SentBy s t c w tids [] :=
  ⟨by rw [h.rest]; simp, h.others, h.shells, h.cores⟩

theorem SentBy.trans {as bs : List Access} (h1 : SentBy s t c w tids as) (h2 : SentBy t u c w tids bs) : SentBy s u c w tids (as ++ bs) where
  rest := by rw [h2.rest, h1.rest]; simp [Nat.add_assoc]
  others := fun c' w' k hk => (h2.others c' w' k hk).trans (h1.others c' w' k hk)
  shells := fun c' w' => (h2.shells c' w').trans (h1.shells c' w')
  cores := fun k => (h2.cores k).trans (h1.cores k)

theorem SentBy.mono {all : List Nat} {as : List Access} (h : SentBy s t c w tids as) (hsub : ∀ k ∈ tids, k ∈ all) : SentBy s t c w all as :=
  ⟨h.rest, fun c' w' k hk => h.others c' w' k (fun e => hk ⟨e.1, e.2.1, hsub k e.2.2⟩), h.shells, h.cores⟩

end

/-- The accesses of members by ascending lane, `n` of each: as `perMember`, from any first number on. -/
def laneAccesses (s : State) (c w n : Nat) (mk : Nat → Thread → List Access) (first : Nat) (tids : List Nat) : List Access :=
  tids.zipIdx.flatMap (fun p => ((s.threadOf c w p.1).map (mk (first + n * p.2))).getD [])

theorem laneAccesses_cons (s : State) (c w n : Nat) (mk : Nat → Thread → List Access) (first k : Nat) (ks : List Nat) :
    laneAccesses s c w n mk first (k :: ks) = ((s.threadOf c w k).map (mk first)).getD [] ++ laneAccesses s c w n mk (first + n) ks := by
  unfold laneAccesses
  rw [List.zipIdx_cons', List.flatMap_cons, List.flatMap_map]
  simp [Nat.mul_add, Nat.add_assoc, Nat.add_comm n]

/-- The lanes' accesses hang on the lanes' threads alone. -/
theorem laneAccesses_congr {s t : State} {c w n : Nat} {mk mk' : Nat → Thread → List Access} {tids : List Nat}
    (h : ∀ k ∈ tids, ∀ id, (t.threadOf c w k).map (mk id) = (s.threadOf c w k).map (mk' id)) (first : Nat) :
    laneAccesses t c w n mk first tids = laneAccesses s c w n mk' first tids := by
  unfold laneAccesses
  refine List.flatMap_congr (fun p hp => ?_)
  rw [h p.1 (List.fst_mem_of_mem_zipIdx hp)]

/-- A fold of sending steps: while `P` holds, each lane's accesses leave, numbered on from the last, and its thread is mapped. -/
theorem fold_sends {F : State → Nat → State} {φ : Thread → Thread} {mk : Nat → Thread → List Access} {P : State → Prop} {c w n : Nat}
    (hlen : ∀ id u, (mk id u).length = n)
    (hF : ∀ t k u, P t → t.threadOf c w k = some u → SentBy t (F t k) c w [k] (mk t.nextId u) ∧ (F t k).threadOf c w k = some (φ u) ∧ P (F t k))
    (tids : List Nat) (hnd : tids.Nodup) (s : State) (hP : P s) (hall : ∀ k ∈ tids, ∃ u, s.threadOf c w k = some u) :
    SentBy s (tids.foldl F s) c w tids (laneAccesses s c w n mk s.nextId tids) ∧
      ∀ k ∈ tids, (tids.foldl F s).threadOf c w k = (s.threadOf c w k).map φ := by
  induction tids generalizing s with
  | nil => exact ⟨.nil_of_kept (Kept.refl _ _ _ _), fun k hk => by simp at hk⟩
  | cons k ks ih =>
    obtain ⟨hk, hnd⟩ := List.nodup_cons.mp hnd
    obtain ⟨u, hu⟩ := hall k (by simp)
    obtain ⟨hsent, hthread, hP'⟩ := hF s k u hP hu
    have hsame : ∀ j ∈ ks, (F s k).threadOf c w j = s.threadOf c w j := fun j hj =>
      hsent.others c w j (fun e => hk (List.mem_singleton.mp e.2.2 ▸ hj))
    obtain ⟨hrest, hthreads⟩ := ih hnd (F s k) hP' (fun j hj => (hall j (by simp [hj])).imp (fun _ h => (hsame j hj).trans h))
    have hnext : (F s k).nextId = s.nextId + n := by rw [hsent.rest, hlen]
    have hcons : laneAccesses s c w n mk s.nextId (k :: ks) = mk s.nextId u ++ laneAccesses (F s k) c w n mk (F s k).nextId ks := by
      rw [laneAccesses_cons, hu, hnext, laneAccesses_congr (fun j hj id => by rw [hsame j hj])]
      rfl
    refine ⟨?_, fun j hj => ?_⟩
    · rw [List.foldl_cons, hcons]
      exact (hsent.mono (by simp)).trans (hrest.mono (by simp +contextual))
    · rw [List.foldl_cons]
      rcases List.mem_cons.mp hj with rfl | hj
      · rw [hrest.others c w j (fun e => hk e.2.2), hthread, hu, Option.map_some]
      · rw [hthreads j hj, hsame j hj]

/-- An issue each of whose effects sends the accesses `mk` of its member, whose thread goes from `u` to `φ u`. -/
theorem issue_sends {i : Instr} {chk : State → Group → Thread → Option TrapInfo} {eff : State → Group → Nat → State} {φ : Thread → Thread}
    {mk : Nat → Thread → List Access} {P : State → Prop} {n : Nat} {s : State} {g : Group} (h : issuable i s g = true)
    (hc : ∀ k ∈ g.tids, ∀ u, s.threadOf g.ctx g.wg k = some u → chk { s with group := none } g u = none)
    (hlen : ∀ id u, (mk id u).length = n) (hpc : ∀ id u pc, mk id { u with pc := pc, holdPc := none } = mk id u)
    (hP : ∀ t, Kept { s with group := none } t g.ctx g.wg g.tids → P t)
    (heff : ∀ t k u, P t → t.threadOf g.ctx g.wg k = some u →
      SentBy t (eff t g k) g.ctx g.wg [k] (mk t.nextId u) ∧ (eff t g k).threadOf g.ctx g.wg k = some (φ u) ∧ P (eff t g k)) :
    Sent s (issue i chk eff s) g (perMember s g n mk) ∧ ∀ k ∈ g.tids, ∃ u, s.threadOf g.ctx g.wg k = some u ∧ u.status = .ready ∧
      (issue i chk eff s).threadOf g.ctx g.wg k = some ((φ { u with pc := g.pc + i.bytes, holdPc := none }).goOn i) := by
  rw [issue_performs h hc]
  unfold performAll
  obtain ⟨hsteps, hstepped⟩ := fold_members (F := stepPc i g) (φ := fun t => { t with pc := g.pc + i.bytes, holdPc := none }) (c := g.ctx)
    (w := g.wg) g.tids g.tids (fun _ hk => hk) (issuable_nodup h) { s with group := none }
    (fun s k _ => Kept.modThread s _ _ k (fun t => { t with pc := g.pc + i.bytes, holdPc := none }) (fun _ => rfl) [k] (by simp))
    (fun s k _ => State.threadOf_modThread_same s _ _ k (fun t => { t with pc := g.pc + i.bytes, holdPc := none }) (fun _ => rfl))
  have hstepped' : ∀ k ∈ g.tids, (g.tids.foldl (stepPc i g) { s with group := none }).threadOf g.ctx g.wg k =
      (s.threadOf g.ctx g.wg k).map (fun t => { t with pc := g.pc + i.bytes, holdPc := none }) := hstepped
  obtain ⟨hsent, hthreads⟩ := fold_sends (F := fun s t => eff s g t) hlen heff g.tids (issuable_nodup h) _ (hP _ hsteps) (fun k hk => by
    obtain ⟨u, hu, -⟩ := issuable_member h hk
    exact ⟨_, by rw [hstepped' k hk, hu, Option.map_some]⟩)
  obtain ⟨hadvance, hgone⟩ := fold_members (F := State.advance i g) (φ := Thread.goOn i) (c := g.ctx) (w := g.wg) g.tids g.tids
    (fun _ hk => hk) (issuable_nodup h) (g.tids.foldl (fun s t => eff s g t) (g.tids.foldl (stepPc i g) { s with group := none }))
    (fun s k _ => Kept.advance i g s k [k] (by simp)) (fun s k _ => State.threadOf_advance i g s k)
  have haccs : laneAccesses (g.tids.foldl (stepPc i g) { s with group := none }) g.ctx g.wg n mk
      (g.tids.foldl (stepPc i g) { s with group := none }).nextId g.tids = perMember s g n mk := by
    rw [laneAccesses_congr (s := s) (mk' := mk) (fun k hk id => by
      rw [hstepped' k hk, Option.map_map]
      exact congrArg (fun f => (s.threadOf g.ctx g.wg k).map f) (funext (fun u => hpc id u _))), hsteps.rest]
    rfl
  rw [haccs] at hsent
  have hall := ((SentBy.nil_of_kept hsteps).trans hsent).trans (.nil_of_kept hadvance)
  rw [List.nil_append, List.append_nil] at hall
  refine ⟨⟨by rw [hall.rest], hall.others, hall.shells, hall.cores⟩, fun k hk => ?_⟩
  obtain ⟨u, hu, hready, -⟩ := issuable_member h hk
  exact ⟨u, hu, hready, by rw [hgone k hk, hthreads k hk, hstepped' k hk, hu]; rfl⟩

/-- A member sends an access that touches no polder line and owes `n` words for it. -/
theorem State.send_sentBy {t : State} {g : Group} {k : Nat} {u : Thread} {path : Path} {op : AccOp} {addr size scope d n gid : Nat}
    {tx : Option (List (Nat × Byte))} (hu : t.threadOf g.ctx g.wg k = some u) (htouch : op.touches = false) (hn : n ≠ 0) :
    SentBy t (t.send g k path op addr size scope d n tx gid) g.ctx g.wg [k]
      [{ id := t.nextId, ctx := g.ctx, wg := g.wg, tid := k, core := g.core, path := path, op := op, addr := addr, size := size, scope := scope,
         slot := some u.nextSlot, gens := if classOf addr == .scratch then t.granuleGens (coreCluster g.core) addr size else [], gid := gid,
         pc := g.pc, taken := 0, tx := tx, after := u.seen }] ∧
    (t.send g k path op addr size scope d n tx gid).threadOf g.ctx g.wg k = some (u.addResult (u.dests d n) none) := by
  simp only [State.send, hu, htouch, hn, if_false, Bool.false_eq_true]
  refine ⟨⟨rfl, fun c' w' j hj => ?_, fun c' w' => shells_modThread _ _ _ _ _ _ _, fun _ => rfl⟩, ?_⟩
  · exact State.threadOf_modThread_other _ _ _ _ _ _ _ (fun u => u.addResult (u.dests d n) none) (fun _ => rfl) (by simpa using hj)
  · rw [State.threadOf_modThread_same _ _ _ _ (fun u => u.addResult (u.dests d n) none) (fun _ => rfl)]
    exact congrArg (Option.map _) hu

end Sys2Proof.Machine

end

section
/-! SUPPORT. Statement O13: the special registers, the clock and the random words. -/

namespace Sys2Proof.Machine

/-- What a thread's registers of the user view hang on, besides the thread: nothing that a member's own effects change (R17, R65). -/
theorem userRegister_kept {s t : State} {g : Group} {tids : List Nat} (h : Kept { s with group := none } t g.ctx g.wg tids) (u : Thread) (m : Nat) :
    userRegister t g u m = userRegister s g u m := by
  have hlaunch : ∀ x, t.launch x = s.launch x := h.launch
  have hdie : ∀ x, t.die x = s.die x := h.die
  have hflight : t.flight = s.flight := h.flight
  have hacs : (t.wgOf g.ctx g.wg).map Workgroup.acs = (s.wgOf g.ctx g.wg).map Workgroup.acs := h.acs
  have hacs' : (t.wgOf g.ctx g.wg).map (fun w => w.acs) = (s.wgOf g.ctx g.wg).map (fun w => w.acs) := hacs
  simp only [userRegister, withLaunch, energyLatch, hlaunch, hdie, hflight, hacs']

/-- A read of a user-view register other than %energy gives its word (R140). -/
theorem readSpecial_gives {m : Nat} (hm : m ≠ 0x28) (s : State) (g : Group) (k d : Nat) :
    readSpecial s g k d m = (s.threadOf g.ctx g.wg k).elim s (fun u => giveWord g k d (userRegister s g u m) s) := by
  unfold readSpecial
  cases s.threadOf g.ctx g.wg k with
  | none => rfl
  | some u => simp only [hm, if_false, Option.elim_some]

/-- Every assigned index of the user view but %energy and %energyh stands in the statement's table, with the register's word (R65). -/
theorem userRegister_mem {s : State} {l : Launch} {w : Workgroup} {g : Group} (hl : s.launch g.ctx = some l) (hw : s.wgOf g.ctx g.wg = some w)
    {m : Nat} (hm : m ∈ userIndices) (hlow : m ≠ 0x28) (hhigh : m ≠ 0x29) (u : Thread) :
    ∃ x, (m, x) ∈ userView s l w g u ∧ userRegister s g u m = BitVec.ofNat 32 x := by
  simp only [userIndices, List.mem_cons, List.not_mem_nil, or_false] at hm
  rcases hm with rfl | rfl | rfl | rfl | rfl | rfl | rfl | rfl | rfl | rfl | rfl | rfl | rfl | rfl | rfl | rfl | rfl | rfl <;>
    simp [userView, userRegister, withLaunch, hl, hw, coreCluster, coreDie, Launch.holdsToken, flagWord, and_assoc,
      apply_ite (BitVec.ofNat 32)] at hlow hhigh ⊢

/-- MFS in every member (R140), of any register but %energy. -/
theorem readSpecial_owes {i : Instr} {eff : State → Group → Nat → State} {d m : Nat} {s : State} {g : Group} (h : issuable i s g = true)
    (heff : ∀ t k, eff t g k = readSpecial t g k d m) (hm : m ≠ 0x28) :
    OnlyMembers s (issue i noCheck eff s) g ∧
      EachMember s (issue i noCheck eff s) g (fun u v => Owes i (g.pc + i.bytes) d [userRegister s g u m] u v) := by
  refine issue_owes (val := fun t u => userRegister t g u m) h (fun t k => (heff t k).trans (readSpecial_gives hm t g k d))
    (fun t k u _ ht _ => userRegister_kept ht u m) (fun u pc => ?_)
  simp only [userRegister, energyLatch]

/-- Where no read of %energy is on its way, %energyh is what the last one latched (R140, R247). -/
theorem userRegister_energyh {s : State} {g : Group} {u : Thread} (hq : Quiet s g) (hu : u.tid ∈ g.tids) : userRegister s g u 0x29 = u.energyHi := by
  have hnone : s.flight.filter (fun a => a.ctx == g.ctx && a.wg == g.wg && a.tid == u.tid) = [] := by
    rw [List.filter_eq_nil_iff]
    intro a ha hmine
    simp only [Bool.and_eq_true, beq_iff_eq] at hmine
    exact hq a ha ⟨hmine.1.1, hmine.1.2, hmine.2 ▸ hu⟩
  simp only [userRegister, energyLatch, hnone, List.foldl_nil]

/-- The access of a read of %energy (R140, R247). -/
def energyAccess (s : State) (g : Group) (l : Launch) (id : Nat) (u : Thread) : Access :=
  { sentAccess s g .ord (.energy (BitVec.ofNat 32 (l.energyPj / 1000000))
      (BitVec.ofNat 32 (l.energyPj / 1000000 / 2 ^ 32 % 2 ^ 31 + if l.energySat then 2 ^ 31 else 0))) 0 0 0 (some u.nextSlot) id u with gid := id }

/-- A read of %energy leaves (R140). -/
theorem readEnergy_sends {i : Instr} {eff : State → Group → Nat → State} {d : Nat} {s : State} {g : Group} {l : Launch}
    (h : issuable i s g = true) (hl : s.launch g.ctx = some l) (heff : ∀ t k, eff t g k = readSpecial t g k d 0x28) :
    Sent s (issue i noCheck eff s) g (perMember s g 1 (fun id u => [energyAccess s g l id u])) ∧
      EachMember s (issue i noCheck eff s) g
        (fun u v => Went i (g.pc + i.bytes) { u with results := u.results ++ [owing u 0 d 1], nextSlot := u.nextSlot + 1 } u v) := by
  obtain ⟨hsent, heach⟩ := issue_sends (chk := noCheck) (eff := eff) (φ := fun u => u.addResult (u.dests d 1) none)
    (mk := fun id u => [energyAccess s g l id u]) (P := fun t => t.launch g.ctx = some l) (n := 1) h (fun _ _ _ _ => rfl) (fun _ _ => rfl)
    (fun _ _ _ => rfl) (fun t ht => (ht.launch _).trans hl) (fun t k u hlaunch hu => by
      obtain ⟨hby, hthread⟩ := State.send_sentBy (path := .ord) (op := .energy (BitVec.ofNat 32 (microJoules l.energyPj)) (energyHigh l.energyPj l.energySat))
        (addr := 0) (size := 0) (scope := 0) (d := d) (n := 1) (gid := t.nextId) (tx := none) hu rfl (by decide)
      have hsend : eff t g k = t.send g k .ord (.energy (BitVec.ofNat 32 (microJoules l.energyPj)) (energyHigh l.energyPj l.energySat)) 0 0 0 d 1 none
          t.nextId := by
        simp only [heff, readSpecial, hu, if_true, withLaunch, hlaunch]
      rw [hsend]
      have htid := State.threadOf_tid hu
      refine ⟨?_, hthread, by rw [State.launch, hby.rest]; exact hlaunch⟩
      subst htid
      exact hby)
  refine ⟨hsent, fun k hk => ?_⟩
  obtain ⟨u, hu, hready, hv⟩ := heach k hk
  exact ⟨u, _, hu, hv, went_onThread (f := fun u => u.addResult (u.dests d 1) none) hready rfl rfl rfl⟩

/-! Writes of %acs (R64, R225). -/

theorem getLsbD_acsWrite (a v : Word) {j : Nat} (hj : j < 32) : (acsWrite a v).getLsbD j = (a.getLsbD j && !(decide (j < 4) && v.getLsbD j)) := by
  have hmask : (0xF : Word).getLsbD j = decide (j < 4) := by interval_cases j <;> rfl
  simp only [acsWrite, BitVec.getLsbD_and, BitVec.getLsbD_not, hj, decide_true, Bool.true_and, hmask]
  rw [Bool.and_comm (v.getLsbD j)]

theorem getLsbD_foldl_acsWrite (vs : List Word) (a : Word) {j : Nat} (hj : j < 32) :
    (vs.foldl acsWrite a).getLsbD j = (a.getLsbD j && !(decide (j < 4) && vs.any (fun v => v.getLsbD j))) := by
  induction vs generalizing a with
  | nil => simp
  | cons v vs ih =>
    rw [List.foldl_cons, ih, getLsbD_acsWrite a v hj, List.any_cons]
    cases decide (j < 4) <;> simp [Bool.and_assoc]

/-- A workgroup's %acs changed. -/
def State.setAcs (s : State) (g : Group) (f : Word → Word) : State := s.modWg g.ctx g.wg (fun w => { w with acs := f w.acs })

theorem State.threadOf_setAcs (s : State) (g : Group) (f : Word → Word) (c w k : Nat) : (s.setAcs g f).threadOf c w k = s.threadOf c w k := by
  unfold State.threadOf State.setAcs
  rw [State.wgOf_modWg s _ _ c w (fun w => { w with acs := f w.acs }) (fun _ => ⟨rfl, rfl⟩)]
  cases s.wgOf c w with
  | none => rfl
  | some x =>
    simp only [Option.map_some, Option.bind_some]
    split <;> rfl

theorem State.setAcs_setAcs (s : State) (g : Group) (f h : Word → Word) : (s.setAcs g f).setAcs g h = s.setAcs g (fun a => h (f a)) := by
  simp only [State.setAcs, State.modWg, List.map_map]
  congr 1
  refine List.map_congr_left (fun x _ => ?_)
  cases hx : (x.ctx == g.ctx && x.wg == g.wg) <;> simp only [Function.comp_apply, hx, if_true, if_false, Bool.false_eq_true]

/-- The members' writes of %acs follow each other (R64). -/
theorem foldl_writeAcs {F : State → Nat → State} {g : Group} {d : Nat}
    (hF : ∀ s k, F s k = (s.threadOf g.ctx g.wg k).elim s (fun u => s.setAcs g (fun a => acsWrite a (u.readW d)))) (tids : List Nat) (s : State) :
    tids.foldl F s = s.setAcs g ((tids.filterMap (fun k => (s.threadOf g.ctx g.wg k).map (fun u => u.readW d))).foldl acsWrite) := by
  induction tids generalizing s with
  | nil => simp [State.setAcs, State.modWg]
  | cons k ks ih =>
    rw [List.foldl_cons, hF, List.filterMap_cons]
    cases s.threadOf g.ctx g.wg k with
    | none => exact ih s
    | some u =>
      simp only [Option.elim_some, Option.map_some, List.foldl_cons]
      rw [ih, State.setAcs_setAcs]
      simp only [State.threadOf_setAcs]

theorem writeSpecial_acs (s : State) (g : Group) (k d : Nat) (b : Bool) :
    writeSpecial s g k d 0x20 b = (s.threadOf g.ctx g.wg k).elim s (fun u => s.setAcs g (fun a => acsWrite a (u.readW d))) := by
  unfold writeSpecial
  cases s.threadOf g.ctx g.wg k with
  | none => rfl
  | some u => rfl

/-- A write of %acs (R64, R225): each bit that some member writes as 1 clears, of the four there are; besides, the members go on. -/
theorem writeAcs_clears {i : Instr} {eff : State → Group → Nat → State} {d : Nat} {s : State} {g : Group} {w : Workgroup}
    (h : issuable i s g = true) (hw : s.wgOf g.ctx g.wg = some w)
    (heff : ∀ t k, eff t g k = (t.threadOf g.ctx g.wg k).elim t (fun u => t.setAcs g (fun a => acsWrite a (u.readW d)))) :
    ∃ w', issue i noCheck eff s = { s with group := none, wgs := (issue i noCheck eff s).wgs, cores := (issue i noCheck eff s).cores } ∧
      (issue i noCheck eff s).wgOf g.ctx g.wg = some w' ∧ w'.shell = { w.shell with acs := w'.acs } ∧
      (∀ c x, ¬(c = g.ctx ∧ x = g.wg) → (issue i noCheck eff s).wgOf c x = s.wgOf c x) ∧
      (∀ k, ((issue i noCheck eff s).coreOf k).shell = (s.coreOf k).shell) ∧
      (∀ j < 32, w'.acs.getLsbD j = (w.acs.getLsbD j &&
        !(decide (j < 4) && g.tids.any (fun k => (s.threadOf g.ctx g.wg k).any (fun u => (u.readW d).getLsbD j))))) ∧
      EachMember s (issue i noCheck eff s) g (fun u v => Went i (g.pc + i.bytes) u u v) := by
  rw [issue_performs h (fun _ _ _ _ => rfl)]
  unfold performAll
  obtain ⟨hsteps, hstepped⟩ := fold_members (F := stepPc i g) (φ := fun t => { t with pc := g.pc + i.bytes, holdPc := none }) (c := g.ctx)
    (w := g.wg) g.tids g.tids (fun _ hk => hk) (issuable_nodup h) { s with group := none }
    (fun s k _ => Kept.modThread s _ _ k (fun t => { t with pc := g.pc + i.bytes, holdPc := none }) (fun _ => rfl) [k] (by simp))
    (fun s k _ => State.threadOf_modThread_same s _ _ k (fun t => { t with pc := g.pc + i.bytes, holdPc := none }) (fun _ => rfl))
  rw [foldl_writeAcs heff]
  have hothers : ∀ c x, ¬(c = g.ctx ∧ x = g.wg) → (g.tids.foldl (stepPc i g) { s with group := none }).wgOf c x = s.wgOf c x :=
    fun c x hcx => foldl_wgOf (fun _ _ => State.wgOf_modThread_other hcx) _ _
  generalize g.tids.foldl (stepPc i g) { s with group := none } = s1 at hsteps hstepped hothers
  have hvals : g.tids.filterMap (fun k => (s1.threadOf g.ctx g.wg k).map (fun u => u.readW d)) =
      g.tids.filterMap (fun k => (s.threadOf g.ctx g.wg k).map (fun u => u.readW d)) :=
    List.filterMap_congr (fun k hk => by
      rw [hstepped k hk, Option.map_map]
      rfl)
  rw [hvals]
  have hany : ∀ j, (g.tids.filterMap (fun k => (s.threadOf g.ctx g.wg k).map (fun u => u.readW d))).any (fun v => v.getLsbD j) =
      g.tids.any (fun k => (s.threadOf g.ctx g.wg k).any (fun u => (u.readW d).getLsbD j)) := by
    intro j
    rw [List.any_filterMap]
    refine congrArg (List.any g.tids) (funext (fun k => ?_))
    cases s.threadOf g.ctx g.wg k <;> rfl
  generalize g.tids.filterMap (fun k => (s.threadOf g.ctx g.wg k).map (fun u => u.readW d)) = vals at hany
  obtain ⟨hadvance, hgone⟩ := fold_members (F := State.advance i g) (φ := Thread.goOn i) (c := g.ctx) (w := g.wg) g.tids g.tids
    (fun _ hk => hk) (issuable_nodup h) (s1.setAcs g (fun a => vals.foldl acsWrite a))
    (fun s k _ => Kept.advance i g s k [k] (by simp)) (fun s k _ => State.threadOf_advance i g s k)
  have hothers' : ∀ c x, ¬(c = g.ctx ∧ x = g.wg) →
      (g.tids.foldl (State.advance i g) (s1.setAcs g (fun a => vals.foldl acsWrite a))).wgOf c x = s.wgOf c x := fun c x hcx =>
    (foldl_wgOf (fun _ _ => State.wgOf_advance_other hcx) _ _).trans
      ((State.wgOf_modWg_other (f := fun w => { w with acs := vals.foldl acsWrite w.acs }) (fun _ => ⟨rfl, rfl⟩) hcx).trans (hothers c x hcx))
  generalize g.tids.foldl (State.advance i g) (s1.setAcs g (fun a => vals.foldl acsWrite a)) = t at hadvance hgone hothers'
  obtain ⟨x1, hx1, hshell1⟩ : ∃ x1, s1.wgOf g.ctx g.wg = some x1 ∧ x1.shell = w.shell := by
    have hw0 : State.wgOf { s with group := none } g.ctx g.wg = some w := hw
    have hshell := hsteps.shells g.ctx g.wg
    rw [hw0] at hshell
    exact Option.map_eq_some_iff.mp hshell
  obtain ⟨w', hw', hshell'⟩ : ∃ w', t.wgOf g.ctx g.wg = some w' ∧ w'.shell = { x1 with acs := vals.foldl acsWrite x1.acs }.shell := by
    have hshell := hadvance.shells g.ctx g.wg
    rw [State.setAcs, State.wgOf_modWg s1 _ _ _ _ (fun w => { w with acs := vals.foldl acsWrite w.acs }) (fun _ => ⟨rfl, rfl⟩), hx1,
      Option.map_some, if_pos (by simpa using State.wgOf_key hx1)] at hshell
    exact Option.map_eq_some_iff.mp hshell
  have hacs' : w'.acs = vals.foldl acsWrite x1.acs := congrArg Workgroup.acs hshell'
  have hacs1 : x1.shell.acs = w.shell.acs := congrArg Workgroup.acs hshell1
  refine ⟨w', ?_, hw', ?_, hothers', fun k => (hadvance.cores k).trans (hsteps.cores k), fun j hj => ?_, fun k hk => ?_⟩
  · rw [hadvance.rest, State.setAcs, State.modWg, hsteps.rest]
  · rw [hacs', ← hshell1]
    exact hshell'
  · rw [hacs', show x1.acs = w.acs from hacs1, getLsbD_foldl_acsWrite vals w.acs hj, hany]
  · obtain ⟨u, hu, hready, -⟩ := issuable_member h hk
    have hu0 : State.threadOf { s with group := none } g.ctx g.wg k = some u := hu
    exact ⟨u, _, hu, by rw [hgone k hk, State.threadOf_setAcs, hstepped k hk, hu0]; rfl, went_onThread (f := id) hready rfl rfl rfl⟩

/-! The clock and the random words (R141, R137). -/

theorem wordsOf_two (n : Nat) (e : DWord) (he : e = BitVec.ofNat 64 n) :
    wordsOf 2 n = [some (e.setWidth 32), some ((e >>> 32).setWidth 32)] := by
  have hlow : BitVec.ofNat 32 (n / 2 ^ (32 * 0)) = e.setWidth 32 := BitVec.eq_of_toNat_eq (by simp [he])
  have hhigh : BitVec.ofNat 32 (n / 2 ^ (32 * 1)) = (e >>> 32).setWidth 32 := BitVec.eq_of_toNat_eq (by
    simp [he, Nat.shiftRight_eq_div_pow]; omega)
  simp only [wordsOf, rangeFrom, List.map_cons, List.map_nil, hlow, hhigh]

theorem sat32_eq_min (n : Nat) : sat32 n = min n (2 ^ 32 - 1) := by
  unfold sat32
  split <;> omega

/-- A thread that has read the clock (R141). -/
def Thread.readClock (d : Nat) (iv : Nat × Nat) (u : Thread) : Thread :=
  { u.addResult (u.dests d 4) (some (wordsOf 2 iv.1 ++ wordsOf 2 iv.2)) with clkwNext := some (BitVec.ofNat 32 (sat32 (iv.2 - iv.1))) }

theorem Thread.readClock_eq {d : Nat} {iv : Nat × Nat} {u : Thread} {e l : DWord} (he : e = BitVec.ofNat 64 iv.1) (hl : l = BitVec.ofNat 64 iv.2) :
    u.readClock d iv = { u with
      results := u.results ++ [.mk u.nextSlot ((rangeFrom d 4).map u.phys)
        (some [some (e.setWidth 32), some ((e >>> 32).setWidth 32), some (l.setWidth 32), some ((l >>> 32).setWidth 32)])],
      nextSlot := u.nextSlot + 1, clkwNext := some (BitVec.ofNat 32 (min (iv.2 - iv.1) (2 ^ 32 - 1))) } := by
  rw [Thread.readClock, wordsOf_two _ e he, wordsOf_two _ l hl, sat32_eq_min]
  rfl

theorem clki_performs {sw : Bool} {d : Reg} {s : State} {g : Group} (h : issuable (.clki sw d) s g = true) :
    Performs (.clki sw d) s g (fun u v => Went (.clki sw d) (g.pc + 4) (u.readClock d.toNat (s.interval (coreDie g.core))) u v) := by
  obtain ⟨honly, heach⟩ := issue_members (eff := clockEffect d) (φ := fun _ => Thread.readClock d.toNat (s.interval (coreDie g.core))) h
    (fun t k _ ht => by
      have hiv : t.interval (coreDie g.core) = s.interval (coreDie g.core) := ht.interval _
      have heff : clockEffect d t g k = t.modThread g.ctx g.wg k (Thread.readClock d.toNat (s.interval (coreDie g.core))) := by
        simp only [clockEffect, hiv, rn]
        rfl
      rw [heff]
      exact ⟨Kept.modThread t g.ctx g.wg k (Thread.readClock d.toNat (s.interval (coreDie g.core))) (fun _ => rfl) [k] (by simp),
        State.threadOf_modThread_same t g.ctx g.wg k (Thread.readClock d.toNat (s.interval (coreDie g.core))) (fun _ => rfl)⟩)
  refine ⟨_, rfl, honly, fun k hk => ?_⟩
  obtain ⟨u, hu, hready, hv⟩ := heach k hk
  exact ⟨u, _, hu, hv, went_onThread (f := Thread.readClock d.toNat (s.interval (coreDie g.core))) hready rfl rfl rfl⟩

/-- A thread that has drawn a random word (R137). -/
def Thread.drawWord (seed gid d : Nat) (u : Thread) : Thread :=
  { u.addResult (u.dests d 1) (some [some (BitVec.ofNat 32 (rndWord seed gid u.rng.toNat))]) with rng := u.rng + 1 }

theorem rndb_owes {sw : Bool} {d : Reg} {s : State} {g : Group} {l : Launch} (h : issuable (.rndb sw d) s g = true)
    (hl : s.launch g.ctx = some l) :
    Performs (.rndb sw d) s g (fun u v => Went (.rndb sw d) (g.pc + 4) { u with
      results := u.results ++ [.mk u.nextSlot [u.phys d.toNat]
        (some [some (BitVec.ofNat 32 (rndWord l.seed (g.wg * 512 + u.tid) u.rng.toNat))])],
      nextSlot := u.nextSlot + 1, rng := u.rng + 1 } u v) := by
  obtain ⟨honly, heach⟩ := issue_members (φ := fun k => Thread.drawWord l.seed (g.wg * 512 + k) d.toNat)
    (eff := fun s g tid => withLaunch s g.ctx s (fun l => s.modThread g.ctx g.wg tid (Thread.drawWord l.seed (g.wg * 512 + tid) d.toNat)))
    h (fun t k _ ht => by
      have hlaunch : t.launch g.ctx = some l := (ht.launch _).trans hl
      simp only [withLaunch, hlaunch]
      exact ⟨Kept.modThread t g.ctx g.wg k (Thread.drawWord l.seed (g.wg * 512 + k) d.toNat) (fun _ => rfl) [k] (by simp),
        State.threadOf_modThread_same t g.ctx g.wg k (Thread.drawWord l.seed (g.wg * 512 + k) d.toNat) (fun _ => rfl)⟩)
  refine ⟨_, rfl, honly, fun k hk => ?_⟩
  obtain ⟨u, hu, hready, hv⟩ := heach k hk
  obtain rfl := State.threadOf_tid hu
  exact ⟨u, _, hu, hv, went_onThread (f := Thread.drawWord l.seed (g.wg * 512 + u.tid) d.toNat) hready rfl rfl rfl⟩

/-- MTS of a register other than %acs changes nothing (R64, R140). -/
theorem mts_goesOn {sw : Bool} {d : Reg} {m : BitVec 14} {s : State} {g : Group} (hm : m.toNat ≠ 0x20) (h : issuable (.mts sw d m) s g = true) :
    Performs (.mts sw d m) s g (fun u v => Went (.mts sw d m) (g.pc + 4) u u v) := by
  have hnothing : ∀ t k, writeSpecial t g k (rn d) m.toNat false = t := by
    intro t k
    unfold writeSpecial
    cases t.threadOf g.ctx g.wg k with
    | none => rfl
    | some u => simp [hm]
  obtain ⟨honly, heach⟩ := issue_members (eff := fun s g tid => writeSpecial s g tid (rn d) m.toNat false) (φ := fun _ u => u) h
    (fun t k _ _ => by simp only [hnothing]; exact ⟨Kept.refl _ _ _ _, by simp⟩)
  refine ⟨_, rfl, honly, fun k hk => ?_⟩
  obtain ⟨u, hu, hready, hv⟩ := heach k hk
  exact ⟨u, _, hu, hv, went_onThread (f := id) hready rfl rfl rfl⟩

/-- The user view's registers and their mirrors are read and written in one way (R140, R244). -/
theorem readPrivileged_mirror {m : Nat} (hm : m < 0x100) (s : State) (g : Group) (k d : Nat) :
    readPrivileged s g k d (0x2000 + m) = readSpecial s g k d m := by
  unfold readPrivileged
  cases h : s.threadOf g.ctx g.wg k with
  | none => simp only [readSpecial, h]
  | some u => simp only [if_pos (show 0x2000 + m < 0x2100 by omega), Nat.add_sub_cancel_left]

theorem writePrivileged_mirror {m : Nat} (hm : m < 0x100) (s : State) (g : Group) (k d : Nat) :
    writePrivileged s g k d (0x2000 + m) = writeSpecial s g k d m true := by
  unfold writePrivileged
  cases h : s.threadOf g.ctx g.wg k with
  | none => simp only [writeSpecial, h]
  | some u => simp only [if_pos (show 0x2000 + m < 0x2100 by omega), Nat.add_sub_cancel_left]

/-- An assigned index of the user view, by MFS (R64). -/
theorem userIndex_of_issuable {sw : Bool} {d : Reg} {m : BitVec 14} {s : State} {g : Group} (h : issuable (.mfs sw d m) s g = true) :
    m.toNat ∈ userIndices := by
  simp only [issuable, userPrivIndex, Instr.wf, userIndexOk, Bool.and_eq_true, Bool.or_eq_true, Bool.not_eq_true', decide_eq_true_eq,
    decide_eq_false_iff_not, List.contains_iff_mem] at h
  tauto

/-- Settles O13: each instruction by what its effect is in a member. -/
theorem specialRegisters : Obligations.SpecialRegisters := by
  unfold Obligations.SpecialRegisters
  refine ⟨fun sw d m s g l w hl hw hlow hhigh h => ?_, fun i sw d s g hi h hq => ?_, fun i sw d s g l hi hl h => ?_, fun sw d m s g hm h => ?_,
    fun i sw d s g w hi hw h => ?_, fun sw d s g h => ?_, fun sw d s g l hl h => rndb_owes h hl⟩
  · have hlow' : m.toNat ≠ 0x28 := fun e => hlow (BitVec.eq_of_toNat_eq e)
    have hhigh' : m.toNat ≠ 0x29 := fun e => hhigh (BitVec.eq_of_toNat_eq e)
    obtain ⟨honly, heach⟩ := readSpecial_owes (eff := fun s g tid => readSpecial s g tid (rn d) m.toNat) h (fun _ _ => rfl) hlow'
    refine ⟨_, rfl, honly, heach.imp (fun u v hv => ?_)⟩
    obtain ⟨x, hx, hreg⟩ := userRegister_mem hl hw (userIndex_of_issuable h) hlow' hhigh' u
    exact ⟨x, hx, hreg ▸ hv⟩
  · have key : ∀ (eff : State → Group → Nat → State) (heff : ∀ t k, eff t g k = readSpecial t g k d.toNat 0x29)
        (hexec : exec i s = .next (issue i noCheck eff s)) (hbytes : i.bytes = 4),
        Performs i s g (fun u v => Owes i (g.pc + 4) d.toNat [u.energyHi] u v) := by
      intro eff heff hexec hbytes
      obtain ⟨honly, heach⟩ := readSpecial_owes h heff (by decide)
      refine ⟨_, hexec, honly, fun k hk => ?_⟩
      obtain ⟨u, v, hu, hv, howes⟩ := heach k hk
      rw [userRegister_energyh hq (State.threadOf_tid hu ▸ hk), hbytes] at howes
      exact ⟨u, v, hu, hv, howes⟩
    rcases hi with rfl | rfl
    · exact key _ (fun _ _ => rfl) rfl rfl
    · exact key _ (fun t k => readPrivileged_mirror (m := 0x29) (by decide) t g k d.toNat) rfl rfl
  · have key : ∀ (eff : State → Group → Nat → State) (heff : ∀ t k, eff t g k = readSpecial t g k d.toNat 0x28)
        (hexec : exec i s = .next (issue i noCheck eff s)) (hbytes : i.bytes = 4),
        Sends i s g (perMember s g 1 (fun id u => [energyAccess s g l id u]))
          (fun u v => Went i (g.pc + 4) { u with results := u.results ++ [owing u 0 d.toNat 1], nextSlot := u.nextSlot + 1 } u v) := by
      intro eff heff hexec hbytes
      rw [← hbytes]
      exact ⟨_, hexec, readEnergy_sends h hl heff⟩
    rcases hi with rfl | rfl
    · exact key _ (fun _ _ => rfl) rfl rfl
    · exact key _ (fun t k => readPrivileged_mirror (m := 0x28) (by decide) t g k d.toNat) rfl rfl
  · exact mts_goesOn (fun e => hm (BitVec.eq_of_toNat_eq e)) h
  · rcases hi with rfl | rfl
    · obtain ⟨w', hkept⟩ := writeAcs_clears (eff := fun s g tid => writeSpecial s g tid (rn d) 0x20 false) h hw
        (fun t k => writeSpecial_acs t g k d.toNat false)
      exact ⟨_, w', rfl, hkept⟩
    · obtain ⟨w', hkept⟩ := writeAcs_clears (eff := fun s g tid => writePrivileged s g tid (rn d) 0x2020) h hw
        (fun t k => (writePrivileged_mirror (m := 0x20) (by decide) t g k d.toNat).trans (writeSpecial_acs t g k d.toNat true))
      exact ⟨_, w', rfl, hkept⟩
  · obtain ⟨t, hexec, honly, heach⟩ := clki_performs h
    refine ⟨t, hexec, honly, heach.imp (fun u v hv => ⟨_, _, rfl, rfl, ?_⟩)⟩
    rw [Thread.readClock_eq rfl rfl] at hv
    exact hv

end Sys2Proof.Machine

end

section
/-! SUPPORT. Statement O40, parks: what a commit writes (R60), what each park leaves (R58, R146, R147, R234, R250). -/

namespace Sys2Proof.Machine

/-! The words that a result writes. -/

theorem putWords_eq (ps : List Nat) (vs : List (Option Word)) (t : Thread) : putWords ps vs t = { t with regs := (putWords ps vs t).regs } := by
  induction ps generalizing vs t with
  | nil => rfl
  | cons p ps ih =>
    cases vs with
    | nil => rfl
    | cons v vs =>
      cases v with
      | none => exact ih vs t
      | some x => simp only [putWords]; rw [ih]; rfl

theorem putWords_length (ps : List Nat) (vs : List (Option Word)) (t : Thread) : (putWords ps vs t).regs.length = t.regs.length := by
  induction ps generalizing vs t with
  | nil => rfl
  | cons p ps ih =>
    cases vs with
    | nil => rfl
    | cons v vs =>
      cases v with
      | none => exact ih vs t
      | some x => exact (ih vs _).trans (setNth_length _ _ _)

theorem putWords_frame {ps : List Nat} {p : Nat} (h : p ∉ ps) (vs : List (Option Word)) (t : Thread) :
    nth 0 (putWords ps vs t).regs p = nth 0 t.regs p := by
  induction ps generalizing vs t with
  | nil => rfl
  | cons q ps ih =>
    have hq : p ≠ q := fun e => h (e ▸ List.mem_cons_self)
    have hps : p ∉ ps := fun hp => h (List.mem_cons_of_mem _ hp)
    cases vs with
    | nil => rfl
    | cons v vs =>
      cases v with
      | none => exact ih hps vs t
      | some x => exact (ih hps vs _).trans (nth_setNth_other _ _ _ _ _ hq)

theorem putWords_written {ps : List Nat} {i : Nat} {x : Word} (hps : ps.Nodup) (hi : i < ps.length) {vs : List (Option Word)} {t : Thread}
    (hx : vs[i]? = some (some x)) (ht : nth 0 ps i < t.regs.length) : nth 0 (putWords ps vs t).regs (nth 0 ps i) = x := by
  induction ps generalizing vs t i with
  | nil => simp at hi
  | cons p ps ih =>
    obtain ⟨hp, hnodup⟩ := List.nodup_cons.mp hps
    cases vs with
    | nil => simp at hx
    | cons v vs =>
      cases i with
      | zero =>
        obtain rfl : v = some x := by simpa using hx
        exact (putWords_frame hp vs _).trans (nth_setNth_same _ _ _ _ ht)
      | succ i =>
        have hrest : ∀ u : Thread, u.regs.length = t.regs.length → nth 0 (putWords ps vs u).regs (nth 0 ps i) = x := fun u hu =>
          ih hnodup (by simpa using hi) (by simpa using hx) (hu ▸ ht)
        cases v with
        | none => exact hrest t rfl
        | some y => exact hrest _ (setNth_length _ _ _)

/-! The commit of a run (R60). -/

/-- One result committed. -/
def Thread.commitResult (u : Thread) (r : Result) : Thread := match r.value with
  | some v => putWords r.dest v u
  | none => u

theorem Thread.commit_results (t : Thread) : t.commit = { t.results.foldl Thread.commitResult t with results := [], nextSlot := 0 } := rfl

theorem Thread.commitResult_eq (u : Thread) (r : Result) : u.commitResult r = { u with regs := (u.commitResult r).regs } := by
  unfold Thread.commitResult
  cases r.value with
  | none => rfl
  | some v => exact putWords_eq _ _ _

theorem Thread.commitResult_length (u : Thread) (r : Result) : (u.commitResult r).regs.length = u.regs.length := by
  unfold Thread.commitResult
  cases r.value with
  | none => rfl
  | some v => exact putWords_length _ _ _

theorem Thread.commitResult_frame {r : Result} {p : Nat} (h : p ∉ r.dest) (u : Thread) : nth 0 (u.commitResult r).regs p = nth 0 u.regs p := by
  unfold Thread.commitResult
  cases r.value with
  | none => rfl
  | some v => exact putWords_frame h _ _

theorem foldl_commitResult_eq (rs : List Result) (u : Thread) :
    rs.foldl Thread.commitResult u = { u with regs := (rs.foldl Thread.commitResult u).regs } := by
  induction rs generalizing u with
  | nil => rfl
  | cons r rs ih => simp only [List.foldl_cons]; rw [ih, Thread.commitResult_eq]

theorem foldl_commitResult_length (rs : List Result) (u : Thread) : (rs.foldl Thread.commitResult u).regs.length = u.regs.length := by
  induction rs generalizing u with
  | nil => rfl
  | cons r rs ih => exact (ih _).trans (Thread.commitResult_length u r)

theorem foldl_commitResult_frame {rs : List Result} {p : Nat} (h : ∀ r ∈ rs, p ∉ r.dest) (u : Thread) :
    nth 0 (rs.foldl Thread.commitResult u).regs p = nth 0 u.regs p := by
  induction rs generalizing u with
  | nil => rfl
  | cons r rs ih =>
    obtain ⟨hr, hrs⟩ := List.forall_mem_cons.mp h
    exact (ih hrs _).trans (Thread.commitResult_frame hr u)

/-- A commit changes a thread's registers, and takes its results away. -/
theorem Thread.commit_eq (t : Thread) : t.commit = { t with regs := t.commit.regs, results := [], nextSlot := 0 } := by
  rw [Thread.commit_results, foldl_commitResult_eq]

theorem Thread.commit_length (t : Thread) : t.commit.regs.length = t.regs.length := foldl_commitResult_length t.results t

@[simp] theorem Thread.commit_parkAct (t : Thread) : t.commit.parkAct = t.parkAct := by rw [Thread.commit_eq]
@[simp] theorem Thread.commit_tid (t : Thread) : t.commit.tid = t.tid := by rw [Thread.commit_eq]
@[simp] theorem Thread.commit_pc (t : Thread) : t.commit.pc = t.pc := by rw [Thread.commit_eq]
@[simp] theorem Thread.commit_base (t : Thread) : t.commit.base = t.base := by rw [Thread.commit_eq]
@[simp] theorem Thread.commit_no_results (t : Thread) : t.commit.results = [] := rfl

theorem Committed.of_regs {u v : Thread} (hnone : v.results = []) (hrun : v.runLen = 0) (hpc : v.pc = u.pc)
    (hclock : v.clkw = u.clkwNext.getD u.clkw) (hregs : v.regs = u.commit.regs) : Committed u v where
  none := hnone
  run := hrun
  pc := hpc
  clock := hclock
  size := by rw [hregs, Thread.commit_length]
  frame := fun p hp => hregs ▸ foldl_commitResult_frame hp u
  last := fun rs r vs i x hrs hvs hnodup hi hx hlt => by
    have hlast : v.regs = (putWords r.dest vs (rs.foldl Thread.commitResult u)).regs := by
      rw [hregs, Thread.commit_results, hrs, List.foldl_append]
      simp only [List.foldl_cons, List.foldl_nil, Thread.commitResult, hvs]
    rw [hlast]
    exact putWords_written hnodup hi hx (by rwa [foldl_commitResult_length])

/-! A park's end (R58). -/

/-- A thread whose run has been committed. -/
def Thread.parked (t : Thread) : Thread :=
  { t.commit with runLen := 0, parkAct := .none, clkw := t.clkwNext.getD t.clkw, clkwNext := none }

@[simp] theorem Thread.parked_tid (t : Thread) : t.parked.tid = t.tid := t.commit_tid

theorem Thread.parked_committed (u : Thread) : Committed u u.parked := .of_regs rfl rfl u.commit_pc rfl rfl

/-- What of a thread a commit speaks about. -/
theorem Committed.congr {u v w : Thread} (h : Committed u v) (hresults : w.results = v.results) (hrun : w.runLen = v.runLen) (hpc : w.pc = v.pc)
    (hclock : w.clkw = v.clkw) (hregs : w.regs = v.regs) : Committed u w where
  none := hresults.trans h.none
  run := hrun.trans h.run
  pc := hpc.trans h.pc
  clock := hclock.trans h.clock
  size := hregs ▸ h.size
  frame := fun p hp => hregs ▸ h.frame p hp
  last := fun rs r vs i x hrs hvs hnodup hi hx hlt => hregs ▸ h.last rs r vs i x hrs hvs hnodup hi hx hlt

/-- A thread that becomes ready takes a place at its PC (R19). -/
theorem Core.place_holds (c : Core) (ctx wg pc tid : Nat) :
    (∃ e ∈ (c.place ctx wg pc tid).entries, e.ctx = ctx ∧ e.wg = wg ∧ e.pc = pc ∧ tid ∈ e.tids) ∨
      (∃ h ∈ (c.place ctx wg pc tid).held, h.ctx = ctx ∧ h.wg = wg ∧ h.pc = pc ∧ h.tid = tid) := by
  unfold Core.place
  split
  · rename_i hany
    obtain ⟨e, he, hkey⟩ := List.any_eq_true.mp hany
    refine .inl ⟨{ e with tids := e.tids ++ [tid] }, List.mem_map.mpr ⟨e, he, if_pos hkey⟩, ?_⟩
    simp only [Bool.and_eq_true, beq_iff_eq] at hkey
    obtain ⟨⟨⟨_, hctx⟩, hwg⟩, hpc⟩ := hkey
    exact ⟨hctx, hwg, hpc, by simp⟩
  · split
    · exact .inl ⟨_, List.mem_append_right _ (List.mem_singleton.mpr rfl), rfl, rfl, rfl, by simp⟩
    · exact .inr ⟨_, List.mem_append_right _ (List.mem_singleton.mpr rfl), rfl, rfl, rfl, rfl⟩

section
variable {s : State} {ctx wg k : Nat} {w : Workgroup} {u : Thread}

theorem State.threadOf_of_wgOf (hw : s.wgOf ctx wg = some w) (hu : w.thread k = some u) : s.threadOf ctx wg k = some u := by
  rw [State.threadOf, hw, Option.bind_some, hu]

theorem State.makeReady_eq (s : State) (ctx wg k : Nat) : s.makeReady ctx wg k =
    { s with wgs := (s.makeReady ctx wg k).wgs, cores := (s.makeReady ctx wg k).cores, nextId := s.nextId + 1 } := by
  unfold State.makeReady
  rw [State.place_eq]
  rfl

/-- A thread made ready (R19, R20). -/
def Thread.readied (n : Nat) (t : Thread) : Thread := { t with status := .ready, stamp := n }

theorem State.makeReady_wgs (s : State) (ctx wg k : Nat) :
    (s.makeReady ctx wg k).wgs = (s.modThread ctx wg k (Thread.readied s.nextId)).wgs := by
  unfold State.makeReady
  rw [State.place_wgs]
  rfl

theorem State.threadOf_makeReady (hu : s.threadOf ctx wg k = some u) : (s.makeReady ctx wg k).threadOf ctx wg k = some (u.readied s.nextId) := by
  rw [State.threadOf_congr (State.makeReady_wgs s ctx wg k), State.threadOf_modThread_same s ctx wg k (Thread.readied s.nextId) (fun _ => rfl), hu]
  rfl

/-- The workgroup of a thread that became ready is the old one, but for that thread. -/
theorem State.wgOf_makeReady (hw : s.wgOf ctx wg = some w) :
    (s.makeReady ctx wg k).wgOf ctx wg = some (w.modThread k (Thread.readied s.nextId)) := by
  obtain ⟨hctx, hwg⟩ := State.wgOf_key hw
  have hfind := State.wgOf_modWg s ctx wg ctx wg (fun w => w.modThread k (Thread.readied s.nextId)) (fun _ => ⟨rfl, rfl⟩)
  rw [State.wgOf, State.makeReady_wgs]
  exact hfind.trans (by simp [hw, hctx, hwg])

theorem State.makeReady_placed (hw : s.wgOf ctx wg = some w) (hu : w.thread k = some u) :
    (∃ e ∈ ((s.makeReady ctx wg k).coreOf w.core).entries, e.ctx = ctx ∧ e.wg = wg ∧ e.pc = u.pc ∧ k ∈ e.tids) ∨
      (∃ h ∈ ((s.makeReady ctx wg k).coreOf w.core).held, h.ctx = ctx ∧ h.wg = wg ∧ h.pc = u.pc ∧ h.tid = k) := by
  obtain ⟨hctx, hwg⟩ := State.wgOf_key hw
  have hfind : (s.modThread ctx wg k (Thread.readied s.nextId)).wgOf ctx wg = some (w.modThread k (Thread.readied s.nextId)) := by
    rw [State.modThread, State.wgOf_modWg _ _ _ _ _ (fun w => w.modThread k (Thread.readied s.nextId)) (fun _ => ⟨rfl, rfl⟩)]
    simp [hw, hctx, hwg]
  have hthread : (w.modThread k (Thread.readied s.nextId)).thread k = some (u.readied s.nextId) := by
    rw [Workgroup.thread_modThread w k k (Thread.readied s.nextId) (fun _ => rfl), hu]
    simp [Workgroup.thread_tid hu]
  have hplace : (s.makeReady ctx wg k).coreOf w.core = (s.coreOf w.core).place ctx wg u.pc k := by
    unfold State.makeReady State.place
    have hfind' : ({ s.modThread ctx wg k (fun t => { t with status := .ready, stamp := s.nextId }) with nextId := s.nextId + 1 } : State).wgOf ctx wg =
        some (w.modThread k (Thread.readied s.nextId)) := hfind
    simp only [hfind', hthread]
    exact (State.coreOf_modCore _ _ _ (fun c => Core.place_id c _ _ _ _) _).trans (if_pos rfl)
  rw [hplace]
  exact Core.place_holds _ _ _ _ _

end

/-! What RUN_PARK_COMPLETE of one thread is. -/

section
variable {s : State} {ctx wg k : Nat} {w : Workgroup} {u : Thread}

theorem Resident.runs (h : Resident s ctx wg k w u) : s.runs ctx wg = true := by
  obtain ⟨hw, hsaved, _⟩ := h
  simp [State.runs, hw, Workgroup.resident, hsaved]

theorem Resident.threadOf (h : Resident s ctx wg k w u) : s.threadOf ctx wg k = some u := State.threadOf_of_wgOf h.1 h.2.2

theorem exec_runParkComplete (h : Resident s ctx wg k w u) (hparked : u.status = .parked) :
    exec (.runParkComplete ctx wg [k]) s = .next (if u.returned then s.finishPark ctx wg k else s) := by
  have hone : laneOrder [k] = [k] := rfl
  simp only [exec, execRunParkComplete, h.runs, if_true, hone, List.foldl_cons, List.foldl_nil, State.parkOne, h.threadOf, hparked, beq_self_eq_true,
    Bool.true_and]

/-- The state in which a parked thread's run has been committed. -/
theorem threadOf_parked (h : Resident s ctx wg k w u) : (s.modThread ctx wg k Thread.parked).threadOf ctx wg k = some u.parked := by
  rw [State.threadOf_modThread_same s ctx wg k Thread.parked Thread.parked_tid, h.threadOf]
  rfl

theorem wgOf_modThread_of (hw : s.wgOf ctx wg = some w) (f : Thread → Thread) :
    (s.modThread ctx wg k f).wgOf ctx wg = some (w.modThread k f) := by
  obtain ⟨hctx, hwg⟩ := State.wgOf_key hw
  rw [State.modThread, State.wgOf_modWg s ctx wg ctx wg (fun w => w.modThread k f) (fun _ => ⟨rfl, rfl⟩), hw]
  simp [hctx, hwg]

theorem Workgroup.thread_modThread_same (hu : w.thread k = some u) {f : Thread → Thread} (hf : ∀ t, (f t).tid = t.tid) :
    (w.modThread k f).thread k = some (f u) := by
  rw [Workgroup.thread_modThread w k k f hf, hu]
  simp [Workgroup.thread_tid hu]

/-- A park that does nothing, and one that moves the window (R58, R146). -/
theorem finishPark_ready (h : Resident s ctx wg k w u) {b : Nat} (hact : (u.parkAct = .none ∧ b = u.base) ∨ u.parkAct = .window b) :
    ∃ f : Thread → Thread, (∀ t, (f t).tid = t.tid) ∧ s.finishPark ctx wg k = (s.modThread ctx wg k f).makeReady ctx wg k ∧
      f u = { u.parked with base := b } := by
  obtain ⟨hw, _, hu⟩ := h
  rcases hact with ⟨hact, rfl⟩ | hact
  · refine ⟨Thread.parked, Thread.parked_tid, ?_, ?_⟩
    · simp only [State.finishPark, hw, hu, Thread.commit_parkAct, hact]
      rfl
    · rw [← u.commit_base]
      rfl
  · refine ⟨fun t => { t.parked with base := b }, fun t => t.commit_tid, ?_, rfl⟩
    simp only [State.finishPark, hw, hu, Thread.commit_parkAct, hact]
    rfl

theorem park_ready (h : Resident s ctx wg k w u) {b : Nat} (hact : (u.parkAct = .none ∧ b = u.base) ∨ u.parkAct = .window b) :
    ∃ v, (s.finishPark ctx wg k).threadOf ctx wg k = some v ∧ (s.finishPark ctx wg k).mem = s.mem ∧
      (s.finishPark ctx wg k).flight = s.flight ∧ Committed u v ∧ v.status = .ready ∧ v.stamp = s.nextId ∧ v.base = b ∧
      ((∃ e ∈ ((s.finishPark ctx wg k).coreOf w.core).entries, e.ctx = ctx ∧ e.wg = wg ∧ e.pc = u.pc ∧ k ∈ e.tids) ∨
        (∃ h ∈ ((s.finishPark ctx wg k).coreOf w.core).held, h.ctx = ctx ∧ h.wg = wg ∧ h.pc = u.pc ∧ h.tid = k)) := by
  obtain ⟨f, hf, hpark, hfu⟩ := finishPark_ready h hact
  have hthread : (s.modThread ctx wg k f).threadOf ctx wg k = some { u.parked with base := b } := by
    rw [State.threadOf_modThread_same s ctx wg k f hf, h.threadOf, Option.map_some, hfu]
  have hplaced := State.makeReady_placed (wgOf_modThread_of h.1 f) (Workgroup.thread_modThread_same h.2.2 hf)
  have hpc : (f u).pc = u.pc := hfu ▸ u.commit_pc
  rw [hpc] at hplaced
  rw [hpark]
  exact ⟨_, State.threadOf_makeReady hthread, by rw [State.makeReady_eq]; rfl, by rw [State.makeReady_eq]; rfl,
    u.parked_committed.congr rfl rfl rfl rfl rfl, rfl, rfl, rfl, hplaced⟩

/-- The cores' lines that an exit cleans change the cores, and nothing else. -/
theorem foldl_modCore_eq (p : State → Nat → Bool) (f : State → Core → Core) (cs : List Nat) (s : State) :
    cs.foldl (fun s c => if p s c then s else s.modCore c (f s)) s =
      { s with cores := (cs.foldl (fun s c => if p s c then s else s.modCore c (f s)) s).cores } := by
  induction cs generalizing s with
  | nil => rfl
  | cons c cs ih =>
    simp only [List.foldl_cons]
    split
    · rw [ih]
    · rw [ih, State.modCore_eq]

theorem park_exit (h : Resident s ctx wg k w u) (hact : u.parkAct = .exit) :
    ∃ v, (s.finishPark ctx wg k).threadOf ctx wg k = some v ∧ (s.finishPark ctx wg k).mem = s.mem ∧
      (s.finishPark ctx wg k).flight = s.flight ∧ Committed u v ∧ v.status = .exited ∧ v.watches = [] := by
  obtain ⟨hw, _, hu⟩ := id h
  have hpark : s.finishPark ctx wg k = { s.modThread ctx wg k (fun t => { t.parked with status := .exited, watches := [] }) with
      cores := (s.finishPark ctx wg k).cores } := by
    simp only [State.finishPark, hw, hu, Thread.commit_parkAct, hact]
    rw [foldl_modCore_eq (fun s c => (s.coreOf c).l1.isEmpty)
      (fun s c => { c with l1 := c.l1.map (cleanGranules (s.privRuns w) ctx w.threads.length k) })]
    rfl
  rw [hpark]
  refine ⟨{ u.parked with status := .exited, watches := [] }, ?_, rfl, rfl, u.parked_committed.congr rfl rfl rfl rfl rfl, rfl, rfl⟩
  have hthread := State.threadOf_modThread_same s ctx wg k (fun t => { t.parked with status := .exited, watches := [] }) (fun t => t.commit_tid)
  rw [h.threadOf] at hthread
  exact hthread

/-! Words given back (R234). -/

theorem Workgroup.serveLane_key (lane n : Nat) (w : Workgroup) : (Workgroup.serveLane lane n w).ctx = w.ctx ∧ (Workgroup.serveLane lane n w).wg = w.wg := by
  induction n generalizing w with
  | zero => exact ⟨rfl, rfl⟩
  | succ n ih =>
    unfold Workgroup.serveLane
    split
    · exact ⟨rfl, rfl⟩
    · split
      · exact ⟨rfl, rfl⟩
      · split
        · exact ih _
        · exact ⟨rfl, rfl⟩

theorem Workgroup.give_key (w : Workgroup) (k n : Nat) : (w.give k n).ctx = w.ctx ∧ (w.give k n).wg = w.wg := by
  unfold Workgroup.give
  split
  · exact ⟨rfl, rfl⟩
  · exact Workgroup.serveLane_key _ _ _

/-- Nobody on the lane waits for words: none is served. -/
theorem Workgroup.serveLane_unclaimed {lane : Nat} {w : Workgroup} (h : ∀ j ∈ w.claims, j % 32 ≠ lane) (n : Nat) :
    Workgroup.serveLane lane n w = w := by
  cases n with
  | zero => rfl
  | succ n =>
    have hnone : w.claims.find? (fun t => t % 32 == lane) = none := List.find?_eq_none.mpr (fun j hj => by simpa using h j hj)
    simp only [Workgroup.serveLane, hnone]

theorem find_insertBy {α : Type} {le : α → α → Bool} {p : α → Bool} {x : α} {l : List α} (hx : p x = true) (hl : ∀ y ∈ l, p y = false) :
    (insertBy le x l).find? p = some x := by
  induction l with
  | nil => simp [insertBy, hx]
  | cons y ys ih =>
    obtain ⟨hy, hys⟩ := List.forall_mem_cons.mp hl
    unfold insertBy
    split
    · rw [List.find?_cons_of_neg (by simp [hy]), ih hys]
    · rw [List.find?_cons_of_pos hx]

theorem Workgroup.poolOf_setPool (w : Workgroup) (lane n : Nat) : (w.setPool lane n).poolOf lane = n := by
  have hother : ∀ y ∈ w.pools.filter (fun p => p.1 != lane), (y.1 == lane) = false := fun y hy => by simpa using (List.mem_filter.mp hy).2
  unfold Workgroup.poolOf Workgroup.setPool
  by_cases hn : n = 0
  · have hnone : (w.pools.filter (fun p => p.1 != lane)).find? (fun p => p.1 == lane) = none :=
      List.find?_eq_none.mpr (fun y hy => by simp [hother y hy])
    simp only [if_pos hn, hnone]
    exact hn.symm
  · have hfound : (insertBy (fun x y => decide (x.1 ≤ y.1)) (lane, n) (w.pools.filter (fun p => p.1 != lane))).find? (fun p => p.1 == lane) =
        some (lane, n) := find_insertBy (by simp) hother
    simp only [if_neg hn, hfound]
    rfl

/-- A thread that has given words of its allocation. -/
def Thread.shrunk (n : Nat) (t : Thread) : Thread := { t with regs := t.regs.take (t.alloc - n) }

theorem Workgroup.give_unclaimed (hu : w.thread k = some u) (h : ∀ j ∈ w.claims, j % 32 ≠ k % 32) (n : Nat) :
    w.give k n = (w.modThread k (Thread.shrunk n)).setPool (k % 32) (w.poolOf (k % 32) + n) := by
  have htid := Workgroup.thread_tid hu
  simp only [Workgroup.give, hu, Thread.lane, htid]
  exact Workgroup.serveLane_unclaimed (w := (w.modThread k (Thread.shrunk n)).setPool (k % 32) (w.poolOf (k % 32) + n)) h _

theorem park_give (h : Resident s ctx wg k w u) {n : Nat} (hact : u.parkAct = .give n) (hclaims : ∀ j ∈ w.claims, j % 32 ≠ k % 32) :
    ∃ v x, (s.finishPark ctx wg k).threadOf ctx wg k = some v ∧ (s.finishPark ctx wg k).wgOf ctx wg = some x ∧
      (s.finishPark ctx wg k).mem = s.mem ∧ (s.finishPark ctx wg k).flight = s.flight ∧ v.status = .ready ∧ v.results = [] ∧
      v.regs = u.commit.regs.take (u.regs.length - n) ∧ x.poolOf (k % 32) = w.poolOf (k % 32) + n ∧ x.claims = w.claims := by
  obtain ⟨hw, _, hu⟩ := id h
  obtain ⟨hctx, hwg⟩ := State.wgOf_key hw
  have hpark : s.finishPark ctx wg k = (s.modWg ctx wg (fun w => (w.modThread k Thread.parked).give k n)).makeReady ctx wg k := by
    simp only [State.finishPark, hw, hu, Thread.commit_parkAct, hact]
    rfl
  have hthread : (w.modThread k Thread.parked).thread k = some u.parked := Workgroup.thread_modThread_same hu Thread.parked_tid
  have hgive := Workgroup.give_unclaimed (w := w.modThread k Thread.parked) hthread hclaims n
  have hfind : (s.modWg ctx wg (fun w => (w.modThread k Thread.parked).give k n)).wgOf ctx wg = some ((w.modThread k Thread.parked).give k n) := by
    rw [State.wgOf_modWg s ctx wg ctx wg (fun w => (w.modThread k Thread.parked).give k n) (fun x => Workgroup.give_key _ _ _), hw]
    simp [hctx, hwg]
  have hshrunk : ((w.modThread k Thread.parked).give k n).thread k = some (u.parked.shrunk n) := by
    rw [hgive]
    exact Workgroup.thread_modThread_same (f := Thread.shrunk n) hthread (fun _ => rfl)
  rw [hpark]
  refine ⟨_, _, State.threadOf_makeReady (State.threadOf_of_wgOf hfind hshrunk), State.wgOf_makeReady hfind,
    by rw [State.makeReady_eq]; rfl, by rw [State.makeReady_eq]; rfl, rfl, rfl, ?_, ?_, ?_⟩
  · change u.commit.regs.take (u.commit.regs.length - n) = _
    rw [Thread.commit_length]
  · rw [hgive]
    exact Workgroup.poolOf_setPool _ _ _
  · rw [hgive]
    rfl

/-! HALT's end of the workgroup (R250). -/

theorem State.stopWg_eq (s : State) (ctx wg : Nat) : s.stopWg ctx wg = { s with wgs := (s.stopWg ctx wg).wgs, cores := (s.stopWg ctx wg).cores } := by
  unfold State.stopWg
  split
  · rfl
  · rw [State.modCore_eq]
    rfl

/-- A workgroup whose threads have stopped (R23). -/
def Workgroup.stopped (w : Workgroup) : Workgroup :=
  { w with threads := w.threads.map (fun t => { t with status := .exited, results := [], watches := [] }), claims := [] }

theorem State.stopWg_wgs (s : State) (ctx wg : Nat) : (s.stopWg ctx wg).wgs = (s.modWg ctx wg Workgroup.stopped).wgs := by
  cases hw : s.wgOf ctx wg with
  | none =>
    have hno : ∀ w ∈ s.wgs, ¬(w.ctx == ctx && w.wg == wg) = true := List.find?_eq_none.mp hw
    simp only [State.stopWg, hw, State.modWg]
    exact ((List.map_congr_left (fun w hmem => if_neg (hno w hmem))).trans (List.map_id' s.wgs)).symm
  | some w =>
    simp only [State.stopWg, hw, State.modCore_wgs]
    rfl

theorem State.stopWg_exited {j : Nat} {v : Thread} (h : (s.stopWg ctx wg).threadOf ctx wg j = some v) : v.status = .exited := by
  rw [State.threadOf_congr (State.stopWg_wgs s ctx wg), State.threadOf,
    State.wgOf_modWg s ctx wg ctx wg Workgroup.stopped (fun _ => ⟨rfl, rfl⟩)] at h
  obtain ⟨x, hx, hthread⟩ := Option.bind_eq_some_iff.mp h
  obtain ⟨w, hw, rfl⟩ := Option.map_eq_some_iff.mp hx
  obtain ⟨hctx, hwg⟩ := State.wgOf_key hw
  rw [if_pos (by simp [hctx, hwg])] at hthread
  obtain ⟨t, _, rfl⟩ := List.mem_map.mp (List.mem_of_find?_eq_some hthread)
  rfl

theorem State.writeWords_launch (s : State) (d a c : Nat) (ws : List Nat) : (s.writeWords d a ws).launch c = s.launch c := rfl
theorem State.writeWords_flight (s : State) (d a : Nat) (ws : List Nat) : (s.writeWords d a ws).flight = s.flight := rfl

theorem State.writeTrapRecord_room {l : Launch} (hl : s.launch ctx = some l) (hw : s.wgOf ctx wg = some w) (hroom : l.traps < l.trapCap)
    (code op pc : Nat) : s.writeTrapRecord ctx wg k code op pc =
      (s.writeWords l.firstDie (l.trapArea + 32 * l.traps) (trapWords (k % 32) code pc op wg ctx k w.core)).modLaunch ctx
        (fun l => { l with traps := l.traps + 1 }) := by
  simp only [State.writeTrapRecord, hl, hw, if_pos hroom]

/-- The record of a HALT is no fault's: the launch's other workgroups go on. -/
theorem State.endByRecord_halt {l : Launch} (hl : s.launch ctx = some l) (op pc : Nat) :
    s.endByRecord ctx wg k 0 op pc = ((s.writeTrapRecord ctx wg k 0 op pc).stopWg ctx wg).modLaunch ctx id := by
  simp only [State.endByRecord, hl, beq_self_eq_true, Bool.or_true, if_true, bne_self_eq_false, Bool.false_and, Bool.false_eq_true, if_false]
  rfl

/-- What the end of a workgroup by HALT leaves (R250). -/
theorem State.endByRecord_halt_leaves {l : Launch} (hl : s.launch ctx = some l) (hw : s.wgOf ctx wg = some w) (hroom : l.traps < l.trapCap)
    (op pc : Nat) : (s.endByRecord ctx wg k 0 op pc).flight = s.flight ∧
      ((s.endByRecord ctx wg k 0 op pc).launch ctx).map Launch.traps = some (l.traps + 1) ∧
      (s.endByRecord ctx wg k 0 op pc).mem =
        (s.writeWords l.firstDie (l.trapArea + 32 * l.traps) (trapWords (k % 32) 0 pc op wg ctx k w.core)).mem ∧
      ∀ j v, (s.endByRecord ctx wg k 0 op pc).threadOf ctx wg j = some v → v.status = .exited := by
  rw [State.endByRecord_halt hl, State.writeTrapRecord_room hl hw hroom]
  generalize hs1 : s.writeWords l.firstDie (l.trapArea + 32 * l.traps) (trapWords (k % 32) 0 pc op wg ctx k w.core) = s1
  have hlaunch : s1.launch ctx = some l := by rw [← hs1, State.writeWords_launch, hl]
  have hflight : s1.flight = s.flight := by rw [← hs1, State.writeWords_flight]
  have hcount := State.launch_modLaunch_same (f := fun l => { l with traps := l.traps + 1 }) (fun _ => ⟨rfl, rfl⟩) hlaunch
  generalize hs2 : s1.modLaunch ctx (fun l => { l with traps := l.traps + 1 }) = s2 at hcount
  have hstop : (s2.stopWg ctx wg).launch ctx = some { l with traps := l.traps + 1 } := by rw [State.stopWg_eq]; exact hcount
  refine ⟨?_, ?_, ?_, fun j v hv => State.stopWg_exited hv⟩
  · change (s2.stopWg ctx wg).flight = _
    rw [State.stopWg_eq, ← hflight, ← hs2]
    rfl
  · rw [State.launch_modLaunch_same (f := id) (fun _ => ⟨rfl, rfl⟩) hstop]
    rfl
  · change (s2.stopWg ctx wg).mem = _
    rw [State.stopWg_eq, ← hs2]
    rfl

theorem park_halt (h : Resident s ctx wg k w u) (hparked : u.status = .parked) {op : Nat} {l : Launch} (hact : u.parkAct = .halt op)
    (hl : s.launch ctx = some l) (hroom : l.traps < l.trapCap) :
    (s.finishPark ctx wg k).flight = s.flight ∧ ((s.finishPark ctx wg k).launch ctx).map Launch.traps = some (l.traps + 1) ∧
      (s.finishPark ctx wg k).mem = (s.writeWords l.firstDie (l.trapArea + 32 * l.traps)
        [k % 32 * 2 ^ 16, u.pc - 4, op % 2 ^ 32, op / 2 ^ 32 % 2 ^ 32, wg, k + ctx * 2 ^ 16,
         w.core / 256 + w.core / 128 * 2 ^ 3 + w.core % 128 * 2 ^ 7, 0]).mem ∧
      ∀ j v, (s.finishPark ctx wg k).threadOf ctx wg j = some v → v.status = .exited := by
  obtain ⟨hw, _, hu⟩ := id h
  have hwg := wgOf_modThread_of (k := k) hw Thread.parked
  have hl' : (s.modThread ctx wg k Thread.parked).launch ctx = some l := hl
  have hpark : s.finishPark ctx wg k = (s.modThread ctx wg k Thread.parked).endByRecord ctx wg k 0 op (u.pc - 4) := by
    rw [← u.commit_pc]
    simp only [State.finishPark, hw, hu, Thread.commit_parkAct, hact, Thread.live, hparked, if_true]
    rfl
  have hends := State.endByRecord_halt_leaves (k := k) hl' hwg hroom op (u.pc - 4)
  rw [trapWords, Nat.zero_add] at hends
  rw [hpark]
  exact hends

end

end Sys2Proof.Machine

end

section
/-! SUPPORT. Statement O40, waits: what ends one, by its condition or by its limit (R66, R67), and the window of the throttle (R22). -/

namespace Sys2Proof.Machine

/-! Changes of one thread. -/

theorem OnlyThread.modThread (s : State) (ctx wg k : Nat) {f : Thread → Thread} (hf : ∀ t, (f t).tid = t.tid) :
    OnlyThread s (s.modThread ctx wg k f) ctx wg k where
  rest := rfl
  others := fun _ _ _ h => State.threadOf_modThread_other s ctx wg k _ _ _ f hf h
  shells := shells_modThread s ctx wg k f

theorem OnlyThread.trans {s t r : State} {ctx wg k : Nat} (h : OnlyThread s t ctx wg k) (h' : OnlyThread t r ctx wg k) : OnlyThread s r ctx wg k where
  rest := by rw [h'.rest, h.rest]
  others := fun c w j hj => (h'.others c w j hj).trans (h.others c w j hj)
  shells := fun c w => (h'.shells c w).trans (h.shells c w)

theorem Thread.wake_tid (v : Option Word) (t : Thread) : (Thread.wake v t).tid = t.tid := by
  cases v <;> rfl

theorem Thread.wake_woken (u : Thread) (r : Word) : Woken u (Thread.wake (some r) u) r := rfl

theorem State.threadOf_wake {s : State} {ctx wg k : Nat} {u : Thread} (h : s.threadOf ctx wg k = some u) (v : Option Word) :
    (s.modThread ctx wg k (Thread.wake v)).threadOf ctx wg k = some (Thread.wake v u) := by
  rw [State.threadOf_modThread_same s ctx wg k (Thread.wake v) (Thread.wake_tid v), h, Option.map_some]

/-! Lines of the L1s read anew (R264). -/

/-- Nothing changed but the lines that L1s hold. -/
structure LinesOnly (s t : State) : Prop where
  rest : t = { s with cores := t.cores }
  lines : ∀ i, t.coreOf i = { s.coreOf i with l1 := (t.coreOf i).l1 }

theorem LinesOnly.refl (s : State) : LinesOnly s s := ⟨rfl, fun _ => rfl⟩

theorem LinesOnly.trans {s t r : State} (h : LinesOnly s t) (h' : LinesOnly t r) : LinesOnly s r where
  rest := by rw [h'.rest, h.rest]
  lines := fun i => by rw [h'.lines i, h.lines i]

theorem LinesOnly.modCore (s : State) (c : Nat) (f : Core → List L1Line) : LinesOnly s (s.modCore c (fun k => { k with l1 := f k })) where
  rest := State.modCore_eq s c _
  lines := fun i => by
    rw [State.coreOf_modCore s c (fun k => { k with l1 := f k }) (fun _ => rfl)]
    split
    · rename_i hi
      rw [hi]
    · rfl

theorem LinesOnly.foldl {α : Type} {f : State → α → State} (hf : ∀ s a, LinesOnly s (f s a)) (xs : List α) (s : State) : LinesOnly s (xs.foldl f s) := by
  induction xs generalizing s with
  | nil => exact .refl s
  | cons x xs ih => exact (hf s x).trans (ih _)

theorem State.l1Refresh_lines (s : State) (core : Nat) (p : L1Line → Bool) : LinesOnly s (s.l1Refresh core p) := by
  refine LinesOnly.foldl (fun s c => ?_) _ s
  split
  · exact LinesOnly.modCore s c _
  · exact .refl s

theorem State.stampEdge_lines (s : State) (line : Nat) : LinesOnly s (s.stampEdge line) :=
  LinesOnly.foldl (fun s (c : Core) => s.l1Refresh_lines c.id _) s.cores s

theorem State.edgeRefresh_lines (s : State) (w : Workgroup) (p : Region → Bool) : LinesOnly s (s.edgeRefresh w p) := by
  unfold State.edgeRefresh withLaunch
  split
  · exact .refl s
  · exact s.l1Refresh_lines _ _

theorem LinesOnly.threadOf {s t : State} (h : LinesOnly s t) (c w k : Nat) : t.threadOf c w k = s.threadOf c w k :=
  State.threadOf_congr (by rw [h.rest]) c w k

/-! Lines dropped from an L1 (R160). -/

/-- Lines that leave an L1 change no thread and no access. -/
theorem State.l1Drop_keeps (s : State) (core : Nat) (p : L1Line → Bool) : (s.l1Drop core p).wgs = s.wgs ∧ (s.l1Drop core p).flight = s.flight := by
  have hback : ∀ (xs : List L1Line) (s : State), (xs.foldl State.writeBack s).wgs = s.wgs ∧ (xs.foldl State.writeBack s).flight = s.flight := by
    intro xs
    induction xs with
    | nil => exact fun s => ⟨rfl, rfl⟩
    | cons x xs ih => exact fun s => ih (s.writeBack x)
  unfold State.l1Drop
  generalize s.l1Group core = cs
  induction cs generalizing s with
  | nil => exact ⟨rfl, rfl⟩
  | cons c cs ih =>
    simp only [List.foldl_cons]
    split
    · exact ih s
    · obtain ⟨hwgs, hflight⟩ := hback ((s.coreOf c).l1.filter p) s
      refine ⟨(ih _).1.trans ?_, (ih _).2.trans ?_⟩
      · rw [State.modCore_wgs, hwgs]
      · rw [State.modCore_flight, hflight]

/-! What a thread follows (R263). -/

section
variable {s : State} {ctx wg k : Nat} {w : Workgroup} {u : Thread}

/-- A thread that has come to follow writes. -/
def Thread.following (flight : List Access) (ids : List Nat) (t : Thread) : Thread :=
  { t with seen := ids ++ t.seen.filter (fun k => !ids.contains k && flight.any (fun b => b.id == k)) }

theorem State.follow_sees (h : s.threadOf ctx wg k = some u) (xs : List Access) :
    ∃ seen, (s.follow ctx wg k xs).threadOf ctx wg k = some { u with seen := seen } ∧ ∀ a ∈ xs, a.id ∈ seen := by
  simp only [State.follow]
  split
  · rename_i hempty
    refine ⟨u.seen, h, fun a ha => ?_⟩
    rw [List.isEmpty_iff, List.map_eq_nil_iff] at hempty
    exact absurd ha (hempty ▸ List.not_mem_nil)
  · have hthread := State.threadOf_modThread_same s ctx wg k (Thread.following s.flight (xs.map (fun b => b.id))) (fun _ => rfl)
    rw [h, Option.map_some] at hthread
    exact ⟨_, hthread, fun a ha => List.mem_append_left _ (List.mem_map_of_mem (f := fun b : Access => b.id) ha)⟩

/-- A wait on a sluice of the core's scope has its thread follow what the L1 holds of the bound regions; at a wider scope nothing changes. -/
theorem State.sluiceEdge_sees (h : Resident s ctx wg k w u) {l : Launch} (hl : s.launch ctx = some l) (i scope : Nat) :
    (s.sluiceEdge w k i scope).flight = s.flight ∧
    ∃ seen, (s.sluiceEdge w k i scope).threadOf ctx wg k = some { u with seen := seen } ∧ (scope ≠ 0 → seen = u.seen) ∧
      (scope = 0 → ∀ a ∈ s.flight, a.ctx = ctx → a.taken ≠ 0 → s.sameL1 w.core a.core = true →
        (∃ r, l.regionOf a.addr a.size = some r ∧ r.sluice = i) → a.id ∈ seen) := by
  obtain ⟨rfl, rfl⟩ := State.wgOf_key h.1
  unfold State.sluiceEdge
  split
  · rename_i hscope
    simp only [withLaunch, hl]
    obtain ⟨seen, hthread, hseen⟩ := State.follow_sees h.threadOf (s.flight.filter (fun a => a.taken != 0 && a.ctx == w.ctx &&
      s.sameL1 w.core a.core && (l.regionOf a.addr a.size).any (fun r => r.sluice == i)))
    refine ⟨State.follow_flight _ _ _ _ _, seen, hthread, fun hne => absurd hscope hne, fun _ a ha hactx htaken hsame ⟨r, hr, hsluice⟩ => hseen a ?_⟩
    simp [ha, hactx, htaken, hsame, hr, hsluice]
  · rename_i hscope
    exact ⟨rfl, u.seen, h.threadOf, fun _ => rfl, fun hzero => absurd hzero hscope⟩

/-! WAIT_WAKE of one sleeping thread. -/

theorem exec_waitWake (h : Resident s ctx wg k w u) {x : WaitKind} (hasleep : u.status = .asleep x) :
    exec (.waitWake ctx wg [k]) s = .next (if x.isBarrier then s else s.testWait w u x) := by
  have hone : laneOrder [k] = [k] := rfl
  simp only [exec, execWaitWake, h.runs, if_true, hone, List.foldl_cons, List.foldl_nil, State.wakeOne, h.1, h.threadOf, hasleep]

theorem State.expired_false {s : State} {w : Workgroup} {u : Thread} (h : s.dieTime (coreDie w.core) ≤ u.deadline) : s.expired w u = false := by
  simpa [State.expired] using h

theorem State.expired_true {s : State} {w : Workgroup} {u : Thread} (h : u.deadline < s.dieTime (coreDie w.core)) : s.expired w u = true := by
  simpa [State.expired] using h

/-- A wait whose condition holds within its limit wakes its thread (R66). -/
theorem waitWake_met (h : Resident s ctx wg k w u) {x : WaitKind} (hasleep : u.status = .asleep x) (hkind : x.isBarrier = false)
    (htime : s.dieTime (coreDie w.core) ≤ u.deadline) {s1 : State} {v : Option Word} (hmet : s.waitMet w u x = .met s1 v) :
    exec (.waitWake ctx wg [k]) s = .next (s1.modThread ctx wg k (Thread.wake v)) := by
  obtain ⟨hctx, hwg⟩ := State.wgOf_key h.1
  rw [exec_waitWake h hasleep]
  simp only [hkind, State.testWait, State.expired_false htime, hmet, hctx, hwg, Workgroup.thread_tid h.2.2, Bool.false_eq_true, if_false]

/-- One that is unmet goes on where it has a limit, and times out at once where that is 0 (R67). -/
theorem waitWake_unmet (h : Resident s ctx wg k w u) {x : WaitKind} (hasleep : u.status = .asleep x) (hkind : x.isBarrier = false)
    (htime : s.dieTime (coreDie w.core) ≤ u.deadline) (hunmet : s.waitMet w u x = .unmet) :
    exec (.waitWake ctx wg [k]) s = .next (if s.limitOf w u = 0 then s.expireWait w u x else s) := by
  rw [exec_waitWake h hasleep]
  simp only [hkind, State.testWait, State.expired_false htime, hunmet, Bool.false_eq_true, if_false]

theorem waitWake_expired (h : Resident s ctx wg k w u) {x : WaitKind} (hasleep : u.status = .asleep x)
    (htime : u.deadline < s.dieTime (coreDie w.core)) : exec (.waitWake ctx wg [k]) s = .next s := by
  rw [exec_waitWake h hasleep]
  simp only [State.testWait, State.expired_true htime, if_true, ite_self]

theorem wakes_of_met (h : Resident s ctx wg k w u) {x : WaitKind} (hasleep : u.status = .asleep x) (hkind : x.isBarrier = false)
    (htime : s.dieTime (coreDie w.core) ≤ u.deadline) {r : Word} (hmet : s.waitMet w u x = .met s (some r)) : Wakes s ctx wg k u r :=
  ⟨_, _, waitWake_met h hasleep hkind htime hmet, .modThread s ctx wg k (Thread.wake_tid _), State.threadOf_wake h.threadOf _, u.wake_woken r⟩

theorem wakesFresh_of_met (h : Resident s ctx wg k w u) {x : WaitKind} (hasleep : u.status = .asleep x) (hkind : x.isBarrier = false)
    (htime : s.dieTime (coreDie w.core) ≤ u.deadline) {r : Word} {s1 : State} (hlines : LinesOnly s s1)
    (hmet : s.waitMet w u x = .met s1 (some r)) : WakesFresh s ctx wg k u r := by
  refine ⟨_, _, waitWake_met h hasleep hkind htime hmet, ?_, fun c x j hj => ?_, hlines.lines, State.threadOf_wake (?_ : _ = some u) _, u.wake_woken r⟩
  · rw [hlines.rest]
    rfl
  · rw [State.threadOf_modThread_other s1 ctx wg k c x j _ (Thread.wake_tid _) hj, hlines.threadOf]
  · rw [hlines.threadOf, h.threadOf]

/-! The waits' conditions. -/

theorem waitMet_cwait (h : Resident s ctx wg k w u) {l : Launch} (hl : s.launch ctx = some l) {n : Nat}
    (hline : n < s.waterline (coreDie w.core) 64 l.lineId) (hcommitted : s.uncommitted l.lineId n = false) :
    s.waitMet w u (.cwait n) = .met (s.stampEdge l.lineId) (some 0) := by
  obtain ⟨rfl, rfl⟩ := State.wgOf_key h.1
  simp [State.waitMet, withLaunch, hl, hline, hcommitted]

theorem waitMet_cwait_unmet (h : Resident s ctx wg k w u) {l : Launch} (hl : s.launch ctx = some l) {n : Nat}
    (hline : s.waterline (coreDie w.core) 64 l.lineId ≤ n) : s.waitMet w u (.cwait n) = .unmet := by
  obtain ⟨rfl, rfl⟩ := State.wgOf_key h.1
  simp [State.waitMet, withLaunch, hl, Nat.not_lt.mpr hline]

theorem waitMet_bwait {n : Nat} (hn : u.unfinished ≤ n) : s.waitMet w u (.bwait n) = .met s (some (BitVec.ofNat 32 u.unfinished)) := if_pos hn

theorem waitMet_bwait_unmet {n : Nat} (hn : n < u.unfinished) : s.waitMet w u (.bwait n) = .unmet := if_neg (Nat.not_le.mpr hn)

theorem waitMet_tokw_held (h : Resident s ctx wg k w u) {l : Launch} (hl : s.launch ctx = some l) (hdet : l.img.det = true)
    (htoken : wg = l.token) (hpassing : l.passing = false) : s.waitMet w u .tokw = .met (s.edgeRefresh w (fun r => r.shared)) (some 0) := by
  obtain ⟨rfl, rfl⟩ := State.wgOf_key h.1
  simp [State.waitMet, withLaunch, hl, Launch.holdsToken, hdet, htoken, hpassing]

theorem waitMet_tokw_passed (h : Resident s ctx wg k w u) {l : Launch} (hl : s.launch ctx = some l)
    (hpassed : wg < l.token ∨ wg = l.token ∧ l.passing = true) : s.waitMet w u .tokw = .met s (some 2) := by
  obtain ⟨rfl, rfl⟩ := State.wgOf_key h.1
  have hnot : l.holdsToken w.wg = false := by
    rcases hpassed with hlt | ⟨_, hpassing⟩
    · simp [Launch.holdsToken, Nat.ne_of_lt hlt]
    · simp [Launch.holdsToken, hpassing]
  have hyes : l.tokenPassed w.wg = true := by simpa [Launch.tokenPassed] using hpassed
  simp [State.waitMet, withLaunch, hl, hnot, hyes]

theorem waitMet_twait {n st : Nat} {x : Tile} (hx : s.tileOf (coreCluster w.core) n = some x) (hst : x.state.num = st) :
    s.waitMet w u (.twait n st) = .met s (some (tileWord x)) := by
  simp [State.waitMet, hx, hst]

theorem waitMet_lwait (h : Resident s ctx wg k w u) {n m : Nat} {le : Lease} (hticket : s.nameTicket ctx wg n = none)
    (hname : s.nameWord ctx wg n = .member le m) (hawake : ∀ i ∈ le.sites, (s.siteOf le.die i).power = .awake) :
    s.waitMet w u (.lwait n) = .met s (some (BitVec.ofNat 32 le.handle)) := by
  obtain ⟨rfl, rfl⟩ := State.wgOf_key h.1
  have hall : le.sites.all (fun i => (s.siteOf le.die i).power == .awake) = true := List.all_eq_true.mpr (fun i hi => by simp [hawake i hi])
  simp only [State.waitMet, State.leaseMet, hticket, hname, hall, if_true]

theorem waitMet_slacq (h : Resident s ctx wg k w u) {l : Launch} (hl : s.launch ctx = some l) {addr need : Nat} {x : Nat × Nat}
    (hx : l.sluiceOf addr = some x) (hneed : need ≤ s.sluiceCount (probe w u addr) l x.2) :
    s.waitMet w u (.slacq addr need) =
      .met ((s.sluiceEdge w k x.1 x.2).acquireBound w.core ctx x.1) (some (BitVec.ofNat 32 (s.sluiceCount (probe w u addr) l x.2))) := by
  obtain ⟨rfl, rfl⟩ := State.wgOf_key h.1
  obtain rfl := Workgroup.thread_tid h.2.2
  simp [State.waitMet, hl, hx, hneed]

theorem waitMet_mwait (h : Resident s ctx wg k w u) {n : Nat} {x : Watch} (hx : u.watches.find? (fun y => y.line == n) = some x)
    (hstate : x.state ≠ .armed) :
    s.waitMet w u (.mwait n) = .met (s.clearWatch w k n) (some (if x.state = .written then 0 else 2)) := by
  obtain rfl := Workgroup.thread_tid h.2.2
  simp only [State.waitMet, hx]
  cases hs : x.state with
  | armed => exact absurd hs hstate
  | written => rfl
  | lost => rfl

/-- A watch that has gone (R166): the thread has none on the line any more, and nothing of the memory changes. -/
theorem clearWatch_leaves (h : Resident s ctx wg k w u) (n : Nat) :
    (s.clearWatch w k n).mem = s.mem ∧
      (s.clearWatch w k n).threadOf ctx wg k = some { u with watches := u.watches.filter (fun x => x.line != n) } := by
  obtain ⟨rfl, rfl⟩ := State.wgOf_key h.1
  have hthread := State.threadOf_modThread_same s w.ctx w.wg k (fun t => { t with watches := t.watches.filter (fun x => x.line != n) }) (fun _ => rfl)
  rw [h.threadOf, Option.map_some] at hthread
  simp only [State.clearWatch]
  split
  · exact ⟨rfl, hthread⟩
  · exact ⟨State.modCore_mem _ _ _, by rw [State.threadOf_modCore, hthread]⟩

theorem slacq_wakes (h : Resident s ctx wg k w u) {l : Launch} (hl : s.launch ctx = some l) (htime : s.dieTime (coreDie w.core) ≤ u.deadline)
    {addr need : Nat} {x : Nat × Nat} (hasleep : u.status = .asleep (.slacq addr need)) (hx : l.sluiceOf addr = some x)
    (hneed : need ≤ s.sluiceCount (probe w u addr) l x.2) :
    ∃ t v, exec (.waitWake ctx wg [k]) s = .next t ∧ t.threadOf ctx wg k = some v ∧ t.flight = s.flight ∧
      Woken { u with seen := v.seen } v (BitVec.ofNat 32 (s.sluiceCount (probe w u addr) l x.2)) ∧ (x.2 ≠ 0 → v.seen = u.seen) ∧
      (x.2 = 0 → ∀ a ∈ s.flight, a.ctx = ctx → a.taken ≠ 0 → s.sameL1 w.core a.core = true →
        (∃ r, l.regionOf a.addr a.size = some r ∧ r.sluice = x.1) → a.id ∈ v.seen) := by
  obtain ⟨hflight, seen, hthread, hwider, hcore⟩ := State.sluiceEdge_sees h hl x.1 x.2
  obtain ⟨hdropWgs, hdropFlight⟩ := State.l1Drop_keeps (s.sluiceEdge w k x.1 x.2) w.core (fun y => !y.priv && y.ctx == ctx &&
    match (s.sluiceEdge w k x.1 x.2).launch ctx with
    | some l => l.lineIn y.vline (fun r => r.sluice == x.1)
    | none => false)
  have hdropped : ((s.sluiceEdge w k x.1 x.2).acquireBound w.core ctx x.1).threadOf ctx wg k = some { u with seen := seen } :=
    (State.threadOf_congr hdropWgs ctx wg k).trans hthread
  exact ⟨_, _, waitWake_met h hasleep rfl htime (waitMet_slacq h hl hx hneed), State.threadOf_wake hdropped _, hdropFlight.trans hflight, rfl,
    hwider, hcore⟩

theorem mwait_wakes (h : Resident s ctx wg k w u) (htime : s.dieTime (coreDie w.core) ≤ u.deadline) {n : Nat} {x : Watch}
    (hasleep : u.status = .asleep (.mwait n)) (hx : u.watches.find? (fun y => y.line == n) = some x) (hstate : x.state ≠ .armed) :
    ∃ t v, exec (.waitWake ctx wg [k]) s = .next t ∧ t.threadOf ctx wg k = some v ∧ t.mem = s.mem ∧ v.regs = u.regs ∧
      (∀ y ∈ v.watches, y.line ≠ n) ∧ Woken { u with watches := v.watches } v (if x.state = .written then 0 else 2) := by
  obtain ⟨hmem, hthread⟩ := clearWatch_leaves h n
  refine ⟨_, _, waitWake_met h hasleep rfl htime (waitMet_mwait h hx hstate), State.threadOf_wake hthread _, hmem, rfl, fun y hy => ?_, rfl⟩
  simpa using (List.mem_filter.mp hy).2

/-! Waits whose limits expire (R67). -/

/-- A BWAIT that expires (R216) breaks nothing where its limit is 0, or no reference is lost and no link of its launch can retrain. -/
theorem expireWait_bwait (h : Resident s ctx wg k w u) {l : Launch} (hl : s.launch ctx = some l) (n : Nat)
    (hquiet : s.limitOf w u = 0 ∨ l.spansPod = false ∧ ∀ d ∈ s.partDies l.firstDie, (s.die d).clock.lostAt = none) :
    s.expireWait w u (.bwait n) = s.modThread ctx wg k (Thread.wake (some Config.timeout)) := by
  obtain ⟨rfl, rfl⟩ := State.wgOf_key h.1
  obtain rfl := Workgroup.thread_tid h.2.2
  have hbreach : (if s.limitOf w u = 0 then s else s.expiryBreach w.ctx (.bwait n)) = s := by
    split
    · rfl
    · rename_i hlimit
      obtain ⟨hpod, hclocks⟩ := hquiet.resolve_left hlimit
      have hkept : ((s.partDies l.firstDie).any (fun d => (s.die d).clock.lostAt.isSome)) = false :=
        List.any_eq_false.mpr (fun d hd => by simp [hclocks d hd])
      simp [State.expiryBreach, hl, hkept, hpod]
  simp only [State.expireWait, hbreach]
  rfl

theorem bwait_timesOut (h : Resident s ctx wg k w u) {l : Launch} (hl : s.launch ctx = some l) {n : Nat}
    (hquiet : s.limitOf w u = 0 ∨ l.spansPod = false ∧ ∀ d ∈ s.partDies l.firstDie, (s.die d).clock.lostAt = none) :
    ∃ v, OnlyThread s (s.expireWait w u (.bwait n)) ctx wg k ∧ (s.expireWait w u (.bwait n)).threadOf ctx wg k = some v ∧ Woken u v 0xFFFFFFFF := by
  rw [expireWait_bwait h hl n hquiet]
  exact ⟨_, .modThread s ctx wg k (Thread.wake_tid _), State.threadOf_wake h.threadOf _, u.wake_woken _⟩

theorem barrier_timesOut (h : Resident s ctx wg k w u) {l : Launch} (hl : s.launch ctx = some l) (level id : Nat) :
    ∃ v, OnlyThread s (s.expireWait w u (.barrier level id)) ctx wg k ∧ (s.expireWait w u (.barrier level id)).threadOf ctx wg k = some v ∧
      v = { u with status := .parked, tws := 0xFFFFFFFF } := by
  obtain ⟨rfl, rfl⟩ := State.wgOf_key h.1
  obtain rfl := Workgroup.thread_tid h.2.2
  have hbreach : s.expiryBreach w.ctx (.barrier level id) = s := by simp [State.expiryBreach, hl]
  have hends : s.expireWait w u (.barrier level id) =
      (s.modThread w.ctx w.wg u.tid (fun t => { t with tws := Config.timeout })).modThread w.ctx w.wg u.tid (Thread.wake none) := by
    simp only [State.expireWait, hbreach, ite_self]
    rfl
  have hthread := State.threadOf_modThread_same s w.ctx w.wg u.tid (fun t => { t with tws := Config.timeout }) (fun _ => rfl)
  rw [h.threadOf, Option.map_some] at hthread
  rw [hends]
  exact ⟨_, (OnlyThread.modThread s w.ctx w.wg u.tid (f := fun t => { t with tws := Config.timeout }) (fun _ => rfl)).trans
    (.modThread _ _ _ _ (Thread.wake_tid _)), State.threadOf_wake hthread none, rfl⟩

theorem exec_waitTimeout_early (h : Resident s ctx wg k w u) (htime : s.dieTime (coreDie w.core) < u.deadline) :
    exec (.waitTimeout ctx wg k) s = .next s := by
  simp only [exec, execWaitTimeout, h.runs, if_true, State.timeoutOne, h.1, h.threadOf, htime]

/-- WAIT_TIMEOUT of a sleeping thread whose limit has passed with its wait unmet (R67). -/
theorem exec_waitTimeout_due (h : Resident s ctx wg k w u) (htime : u.deadline ≤ s.dieTime (coreDie w.core)) (hregdl : s.regdlFirst w u = false)
    {x : WaitKind} (hasleep : u.status = .asleep x) (hunmet : s.waitMet w u x = .unmet) :
    exec (.waitTimeout ctx wg k) s = .next (s.expireWait w u x) := by
  simp only [exec, execWaitTimeout, h.runs, if_true, State.timeoutOne, h.1, h.threadOf, Nat.not_lt.mpr htime, if_false, hasleep, hregdl,
    Bool.false_eq_true, hunmet, ite_self]

theorem waitMet_barrier_unmet (h : Resident s ctx wg k w u) {level id : Nat} (hdone : s.barrierDone ctx wg u level id = false) :
    s.waitMet w u (.barrier level id) = .unmet := by
  obtain ⟨rfl, rfl⟩ := State.wgOf_key h.1
  simp [State.waitMet, hdone]

end

/-! The window of the throttle (R22). -/

/-- The load limit that a window's victim hits set. -/
def nextLoadLimit (hits limit : Nat) : Nat := if 64 < hits then Nat.max 4 (limit / 2) else if hits ≤ 32 then Nat.min 32 (limit * 2) else limit

theorem nextLoadLimit_many {hits limit : Nat} (h : 64 < hits) : nextLoadLimit hits limit = max 4 (limit / 2) := if_pos h

theorem nextLoadLimit_few {hits limit : Nat} (h : hits ≤ 32) : nextLoadLimit hits limit = min 32 (limit * 2) :=
  (if_neg (by omega)).trans (if_pos h)

theorem nextLoadLimit_between {hits limit : Nat} (hlow : 32 < hits) (hhigh : hits ≤ 64) : nextLoadLimit hits limit = limit :=
  (if_neg (by omega)).trans (if_neg (by omega))

theorem exec_localityWindowEnd {s : State} {c : Nat} (h : (s.cluster (coreCluster c)).gate = .active) :
    exec (.localityWindowEnd c) s =
      .next (s.modCore c (fun x => { x with victimHits := 0, loadLimit := nextLoadLimit x.victimHits x.loadLimit })) := by
  simp only [exec, execLocalityWindowEnd, Cluster.powered, h, if_true]
  rfl

theorem localityWindowEnd_limits {s : State} {c : Nat} (h : (s.cluster (coreCluster c)).gate = .active) :
    ∃ t n, exec (.localityWindowEnd c) s = .next t ∧ t = { s with cores := t.cores } ∧ (∀ j, j ≠ c → t.coreOf j = s.coreOf j) ∧
      t.coreOf c = { s.coreOf c with victimHits := 0, loadLimit := n } ∧
      (64 < (s.coreOf c).victimHits → n = max 4 ((s.coreOf c).loadLimit / 2)) ∧
      ((s.coreOf c).victimHits ≤ 32 → n = min 32 ((s.coreOf c).loadLimit * 2)) ∧
      (32 < (s.coreOf c).victimHits → (s.coreOf c).victimHits ≤ 64 → n = (s.coreOf c).loadLimit) := by
  have hcores := State.coreOf_modCore s c (fun x => { x with victimHits := 0, loadLimit := nextLoadLimit x.victimHits x.loadLimit }) (fun _ => rfl)
  exact ⟨_, _, exec_localityWindowEnd h, State.modCore_eq s c _, fun j hj => (hcores j).trans (if_neg hj), (hcores c).trans (if_pos rfl),
    nextLoadLimit_many, nextLoadLimit_few, nextLoadLimit_between⟩

/-- Settles O40: parks by what each leaves, waits by their conditions and their limits. -/
theorem parksAndWaits : Obligations.ParksAndWaits := by
  unfold Obligations.ParksAndWaits
  refine ⟨fun s ctx wg k w u h hparked => ⟨fun hmissing => ?_, fun hall => ?_⟩, fun s ctx wg k w u l h hl htime => ?_,
    fun s ctx wg k w u l h hl => ?_, fun s c h => localityWindowEnd_limits h⟩
  · obtain ⟨r, hr, hnone⟩ := hmissing
    have hwaits : u.returned = false := List.all_eq_false.mpr ⟨r, hr, by simp [hnone]⟩
    rw [exec_runParkComplete h hparked, hwaits]
    rfl
  · have hreturned : u.returned = true := List.all_eq_true.mpr hall
    have hends : exec (.runParkComplete ctx wg [k]) s = .next (s.finishPark ctx wg k) := by
      rw [exec_runParkComplete h hparked, if_pos hreturned]
    refine ⟨fun b hact => ?_, fun hact => ?_, fun n hact hclaims => ?_, fun op l hact hl hroom => ?_⟩
    · obtain ⟨v, hv⟩ := park_ready h hact
      exact ⟨_, v, hends, hv⟩
    · obtain ⟨v, hthread, hmem, hflight, hrest⟩ := park_exit h hact
      exact ⟨_, v, hends, hthread, hmem, hflight, hrest⟩
    · obtain ⟨v, x, hrest⟩ := park_give h hact hclaims
      exact ⟨_, v, x, hends, hrest⟩
    · exact ⟨_, hends, (park_halt h hparked hact hl hroom)⟩
  · refine ⟨fun n hasleep hline hcommitted => ?_, fun n hasleep hline hlimit => ?_, fun n hasleep hn => ?_, fun hasleep hdet => ⟨fun htoken hpassing => ?_,
      fun hpassed => ?_⟩, fun n st x hasleep hx hst => ?_, fun n le m hasleep hticket hname hawake => ?_, fun addr need x n hasleep hx hn hneed => ?_,
      fun n x hasleep hx hstate => mwait_wakes h htime hasleep hx hstate, fun n hasleep hn => ⟨fun hlimit => ?_, fun hlimit => ?_⟩⟩
    · exact wakesFresh_of_met h hasleep rfl htime (s.stampEdge_lines _) (waitMet_cwait h hl hline hcommitted)
    · rw [waitWake_unmet h hasleep rfl htime (waitMet_cwait_unmet h hl hline), if_neg hlimit]
    · exact wakes_of_met h hasleep rfl htime (waitMet_bwait hn)
    · exact wakesFresh_of_met h hasleep rfl htime (s.edgeRefresh_lines _ _) (waitMet_tokw_held h hl hdet htoken hpassing)
    · exact wakes_of_met h hasleep rfl htime (waitMet_tokw_passed h hl hpassed)
    · exact wakes_of_met h hasleep rfl htime (waitMet_twait hx hst)
    · exact wakes_of_met h hasleep rfl htime (waitMet_lwait h hticket hname hawake)
    · subst hn
      exact slacq_wakes h hl htime hasleep hx hneed
    · rw [waitWake_unmet h hasleep rfl htime (waitMet_bwait_unmet hn), if_neg hlimit]
    · obtain ⟨v, hrest⟩ := bwait_timesOut (n := n) h hl (.inl hlimit)
      exact ⟨_, v, (waitWake_unmet h hasleep rfl htime (waitMet_bwait_unmet hn)).trans (by rw [if_pos hlimit]), hrest⟩
  · refine ⟨fun x hasleep htime => waitWake_expired h hasleep htime, fun htime => exec_waitTimeout_early h htime, fun htime hregdl =>
      ⟨fun n hasleep hn hquiet => ?_, fun level id hasleep hdone => ?_⟩⟩
    · obtain ⟨v, hrest⟩ := bwait_timesOut (n := n) h hl hquiet
      exact ⟨_, v, exec_waitTimeout_due h htime hregdl hasleep (waitMet_bwait_unmet hn), hrest⟩
    · obtain ⟨v, hrest⟩ := barrier_timesOut h hl level id
      exact ⟨_, v, exec_waitTimeout_due h htime hregdl hasleep (waitMet_barrier_unmet h hdone), hrest⟩

end Sys2Proof.Machine

end

section
/-! SUPPORT. Statement O54: clocks, links, boot, self-test and the management port. -/

namespace Sys2Proof.Machine

/-! A die's record, after an update. -/

/-- The record that a die's number finds. -/
def State.HasDie (s : State) (k : Nat) (x : Die) : Prop := s.dies.find? (fun y => y.id == k) = some x

theorem State.HasDie.die {s : State} {k : Nat} {x : Die} (h : s.HasDie k x) : s.die k = x := by
  simp only [State.HasDie] at h
  simp only [State.die, h, Option.getD_some]

theorem State.HasDie.modDie {s : State} {k : Nat} {x : Die} (h : s.HasDie k x) {f : Die → Die} (hf : ∀ x, (f x).id = x.id) :
    (s.modDie k f).HasDie k (f x) := by
  have hid : x.id = k := by simpa using List.find?_some h
  unfold State.HasDie State.modDie at *
  rw [find_map_if _ _ _ _ (fun x => by simp [hf x]), h, Option.map_some, hid, beq_self_eq_true, if_pos rfl]

/-! The clock (R190). -/

theorem Clock.counted_now (c : Clock) (n : Nat) : c.counted n n = 0 := by simp [Clock.counted]

/-- A die at the loss of its reference. -/
def Die.onOscillator (now ppm : Nat) (d : Die) : Die := { d with clock := { d.clock with lostAt := some now, drift := ((ppm : Nat) : Int) - 50 } }

theorem exec_clockReferenceLoss {s : State} {d : Nat} {x : Die} (hx : s.HasDie d x) (h : x.clock.lostAt = none) :
    exec (.clockReferenceLoss d) s =
      .next { s.modDie d (Die.onOscillator s.now (Config.oscillator s.free % 101)) with free := s.free + 1 } := by
  have hlost : (s.die d).clock.lostAt.isSome = false := by rw [hx.die, h, Option.isSome_none]
  simp only [exec, execClockReferenceLoss, State.loseClock, hlost, Bool.false_eq_true, if_false]
  rfl

theorem clockReferenceLoss_again {s : State} {d n : Nat} {x : Die} (hx : s.HasDie d x) (h : x.clock.lostAt = some n) :
    exec (.clockReferenceLoss d) s = .next s := by
  have hlost : (s.die d).clock.lostAt.isSome = true := by rw [hx.die, h, Option.isSome_some]
  simp only [exec, execClockReferenceLoss, State.loseClock, hlost, if_true]

/-- At the loss the interval is what it was. -/
theorem Die.onOscillator_interval {x : Die} (h : x.clock.lostAt = none) (now ppm : Nat) :
    (x.onOscillator now ppm).clock.earliest now = x.clock.earliest now ∧ (x.onOscillator now ppm).clock.latest now = x.clock.latest now := by
  simp only [Clock.earliest, Clock.latest, Die.onOscillator, Clock.counted_now, h, cdiv]
  exact ⟨rfl, rfl⟩

theorem clockReferenceLoss_runs {s : State} {d : Nat} {x : Die} (hx : s.HasDie d x) (h : x.clock.lostAt = none) :
    ∃ t, exec (.clockReferenceLoss d) s = .next t ∧ t.mem = s.mem ∧ (t.die d).clock.lostAt = some s.now ∧
      -50 ≤ (t.die d).clock.drift ∧ (t.die d).clock.drift ≤ 50 ∧ t.interval d = s.interval d := by
  have hdie := (hx.modDie (f := Die.onOscillator s.now (Config.oscillator s.free % 101)) (fun _ => rfl)).die
  have hppm : Config.oscillator s.free % 101 < 101 := Nat.mod_lt _ (by decide)
  refine ⟨_, exec_clockReferenceLoss hx h, rfl, ?_⟩
  generalize Config.oscillator s.free % 101 = ppm at hdie hppm ⊢
  have hnow : ({ s.modDie d (Die.onOscillator s.now ppm) with free := s.free + 1 } : State).die d = x.onOscillator s.now ppm := hdie
  obtain ⟨hlow, hhigh⟩ := Die.onOscillator_interval h s.now ppm
  rw [hnow]
  refine ⟨rfl, ?_, ?_, ?_⟩
  · simp only [Die.onOscillator]
    omega
  · simp only [Die.onOscillator]
    omega
  · simp only [State.interval, hnow, hx.die]
    exact Prod.ext hlow hhigh

/-! Links (R368). -/

/-- The versions of a link stand in falling order: the first that the far side runs is the highest. -/
theorem linkVersions_falling (lk : Nat) : (linkVersions lk).Pairwise (fun v z => z ≤ v) := by
  unfold linkVersions
  split_ifs <;> decide

theorem find_falling {vs : List Nat} (h : vs.Pairwise (fun v z => z ≤ v)) {peer v : Nat} (hv : vs.find? (fun v => decide (v ≤ peer)) = some v) :
    v ∈ vs ∧ v ≤ peer ∧ ∀ z ∈ vs, z ≤ peer → z ≤ v := by
  refine ⟨List.mem_of_find?_eq_some hv, by simpa using List.find?_some hv, ?_⟩
  induction vs with
  | nil => simp at hv
  | cons y ys ih =>
    obtain ⟨hy, hys⟩ := List.pairwise_cons.mp h
    by_cases hpeer : y ≤ peer
    · obtain rfl : y = v := by simpa [List.find?_cons, hpeer] using hv
      exact fun z hz _ => (List.mem_cons.mp hz).elim (fun e => e ▸ le_rfl) (hy z)
    · have hrest : ys.find? (fun v => decide (v ≤ peer)) = some v := by simpa [List.find?_cons, hpeer] using hv
      exact fun z hz hzp => (List.mem_cons.mp hz).elim (fun e => absurd (e ▸ hzp) hpeer) (fun hz => ih hys hrest z hz hzp)

theorem linkTraining_none {s : State} {lk peer : Nat} (h : ∀ v ∈ linkVersions lk, peer < v) : exec (.linkTraining lk peer) s = .next s := by
  have hnone : (linkVersions lk).find? (fun v => decide (v ≤ peer)) = none :=
    List.find?_eq_none.mpr (fun v hv => by simpa using h v hv)
  simp only [exec, execLinkTraining, State.trainLink, hnone]

/-- What training leaves: the versions, the modules that retrain and what they contribute. -/
theorem State.trainLink_eq (s : State) (lk peer : Nat) : s.trainLink lk peer = { s with
    links := (s.trainLink lk peer).links, retraining := (s.trainLink lk peer).retraining,
    podContribution := (s.trainLink lk peer).podContribution } := by
  unfold State.trainLink
  split
  · rfl
  · split <;> rfl

theorem State.trainLink_trained {s : State} {lk peer v : Nat} (hv : (linkVersions lk).find? (fun v => decide (v ≤ peer)) = some v) :
    (s.trainLink lk peer).links.find? (fun z => z.1 == lk) = some (lk, v) ∧ (256 ≤ lk → lk % 256 ∉ (s.trainLink lk peer).retraining) := by
  simp only [State.trainLink, hv]
  split
  · exact ⟨by simp, fun _ hmem => by simp at hmem⟩
  · rename_i hpod
    exact ⟨by simp, fun h => absurd h hpod⟩

theorem linkTraining_trains {s : State} {lk peer : Nat} (h : ∃ v ∈ linkVersions lk, v ≤ peer) :
    ∃ t v, exec (.linkTraining lk peer) s = .next t ∧ t.mem = s.mem ∧ v ∈ linkVersions lk ∧ v ≤ peer ∧
      (∀ z ∈ linkVersions lk, z ≤ peer → z ≤ v) ∧ t.links.find? (fun z => z.1 == lk) = some (lk, v) ∧ (256 ≤ lk → lk % 256 ∉ t.retraining) := by
  obtain ⟨y, hy, hpeer⟩ := h
  have hsome : ((linkVersions lk).find? (fun v => decide (v ≤ peer))).isSome = true := List.find?_isSome.mpr ⟨y, hy, by simpa using hpeer⟩
  obtain ⟨v, hv⟩ := Option.isSome_iff_exists.mp hsome
  obtain ⟨hmem, hle, hhighest⟩ := find_falling (linkVersions_falling lk) hv
  exact ⟨s.trainLink lk peer, v, rfl, by rw [State.trainLink_eq], hmem, hle, hhighest, State.trainLink_trained hv⟩

/-! Self-test (R367). -/

/-- A unit retired changes the dies, the clusters and the spares, and nothing else. -/
theorem State.retireUnit_eq (s : State) (f : Finding) : s.retireUnit f = { s with
    dies := (s.retireUnit f).dies, clusters := (s.retireUnit f).clusters, stackSpares := (s.retireUnit f).stackSpares,
    linkSpares := (s.retireUnit f).linkSpares } := by
  cases f with
  | core c => rfl
  | way d i => rfl
  | site d i => rfl
  | stack k => rfl
  | link b back =>
    simp only [State.retireUnit]
    split <;> rfl

/-- A state but for what a self-test repairs. -/
def State.repaired (s t : State) : Prop :=
  t = { s with dies := t.dies, clusters := t.clusters, stackSpares := t.stackSpares, linkSpares := t.linkSpares }

theorem State.repaired.trans {s t r : State} (h : s.repaired t) (h' : t.repaired r) : s.repaired r := by
  unfold State.repaired at *
  rw [h', h]

theorem State.repaired_foldl {α : Type} {f : State → α → State} (hf : ∀ (s : State) a, s.repaired (f s a)) (xs : List α) (s : State) :
    s.repaired (xs.foldl f s) := by
  induction xs generalizing s with
  | nil => exact rfl
  | cons x xs ih => exact (hf s x).trans (ih _)

/-- What a self-test does before it makes the manifest anew. -/
def State.repairs (s : State) (dies : List Nat) (findings : List Finding) : State :=
  dies.foldl (fun s d => s.modDie d (fun x => { x with failedSites := [] }))
    (((s.failed dies ++ findings).filter (Finding.onDies dies)).foldl State.retireUnit s)

theorem State.testDies_repairs (s : State) (dies : List Nat) (findings : List Finding) :
    s.testDies dies findings = (s.repairs dies findings).newManifest := rfl

theorem State.repairs_repaired (s : State) (dies : List Nat) (findings : List Finding) : s.repaired (s.repairs dies findings) :=
  (State.repaired_foldl State.retireUnit_eq _ s).trans (State.repaired_foldl (f := fun s d => s.modDie d (fun x => { x with failedSites := [] })) (fun _ _ => rfl) dies _)

theorem exec_selfTest_booting {s : State} (h : s.booting = true) (dies : List Nat) (fs : List Finding) :
    exec (.selfTest dies fs) s = .next (s.testDies (rangeFrom 0 8) fs).bootDone := by
  simp only [exec, execSelfTest, State.selfTest, h, if_true]

section
variable {s : State} {d c : Nat} {y : Cluster} {z : Die}

theorem selfTest_refused (hz : s.HasDie d z) (hboot : s.booting = false) (h : s.booted = false ∨ bitOf z.pqc.toNat 8 = false)
    (fs : List Finding) : exec (.selfTest [d] fs) s = .next s := by
  have hno : (s.booted && [d].all (fun d => bitOf (s.die d).pqc.toNat 8)) = false := by
    rw [List.all_cons, hz.die]
    rcases h with h | h <;> simp [h]
  simp only [exec, execSelfTest, State.selfTest, hboot, hno, Bool.false_eq_true, if_false]

theorem selfTest_tests (hz : s.HasDie d z) (hboot : s.booting = false) (hbooted : s.booted = true) (hquiet : bitOf z.pqc.toNat 8 = true)
    (fs : List Finding) : exec (.selfTest [d] fs) s = .next (s.repairs [d] fs).newManifest := by
  have hyes : (s.booted && [d].all (fun d => bitOf (s.die d).pqc.toNat 8)) = true := by
    rw [List.all_cons, hz.die, hbooted, hquiet]
    rfl
  simp only [exec, execSelfTest, State.selfTest, hboot, hyes, Bool.false_eq_true, if_false, if_true]
  rfl

/-- A die with one more site retired (R367). -/
def Die.retireSite (i : Nat) (x : Die) : Die := { x with deadSites := if x.deadSites.contains i then x.deadSites else x.deadSites ++ [i] }
/-- A cluster with one core replaced, or withdrawn (R367). -/
def Cluster.retireCore (x : Cluster) : Cluster := if x.spares = 0 then { x with withdrawn := true } else { x with spares := x.spares - 1 }
/-- A die whose failed sites have been retired. -/
def Die.tested (x : Die) : Die := { x with failedSites := [] }

theorem Cluster.retireCore_id (x : Cluster) : x.retireCore.id = x.id := by
  unfold Cluster.retireCore
  split <;> rfl

/-- The repairs of one die: the sites that have failed there, then what the test finds there. -/
theorem State.repairs_one (hz : s.HasDie d z) {fs : List Finding} (hfs : ∀ f ∈ fs, Finding.onDies [d] f = true) :
    s.repairs [d] fs = (fs.foldl State.retireUnit ((z.failedSites).foldl (fun s i => s.modDie d (Die.retireSite i)) s)).modDie d Die.tested := by
  have hfailed : s.failed [d] = z.failedSites.map (Finding.site d) := by
    simp only [State.failed, List.flatMap_cons, List.flatMap_nil, List.append_nil, hz.die]
  have hall : (s.failed [d] ++ fs).filter (Finding.onDies [d]) = z.failedSites.map (Finding.site d) ++ fs := by
    rw [hfailed, List.filter_eq_self]
    intro f hf
    rcases List.mem_append.mp hf with hf | hf
    · obtain ⟨i, _, rfl⟩ := List.mem_map.mp hf
      simp [Finding.onDies]
    · exact hfs f hf
  simp only [State.repairs, hall, List.foldl_append, List.foldl_map, List.foldl_cons, List.foldl_nil]
  rfl

theorem State.Listed.modDie (h : s.Listed c y) (k : Nat) (f : Die → Die) : (s.modDie k f).Listed c y := h

theorem State.Listed.foldl_modDie {α : Type} (h : s.Listed c y) (k : Nat) (f : α → Die → Die) (xs : List α) :
    (xs.foldl (fun s x => s.modDie k (f x)) s).Listed c y := by
  induction xs generalizing s with
  | nil => exact h
  | cons x xs ih => exact ih (h.modDie k (f x))

/-- A faulty core on a tested die (R367): a spare takes its place, or the cluster is withdrawn. -/
theorem State.repairs_core (hy : s.Listed c y) (hz : s.HasDie d z) (hc : c / 2 = d) : (s.repairs [d] [.core c]).cluster c = y.retireCore := by
  have hcore : Finding.onDies [d] (.core c) = true := by simp [Finding.onDies, hc]
  rw [State.repairs_one hz (by simpa using hcore)]
  have hfailed := hy.foldl_modDie d (fun i => Die.retireSite i) z.failedSites
  exact ((hfailed.modCluster (f := Cluster.retireCore) Cluster.retireCore_id).modDie d Die.tested).cluster

/-- A faulty site on a tested die where none had failed before. -/
theorem State.repairs_site (hz : s.HasDie d z) {i : Nat} (hi : i ∉ z.deadSites) (hfailed : z.failedSites = []) :
    (s.repairs [d] [.site d i]).die d = { z with deadSites := z.deadSites ++ [i] } := by
  have hsite : Finding.onDies [d] (.site d i) = true := by simp [Finding.onDies]
  rw [State.repairs_one hz (by simpa using hsite), hfailed]
  have hdie := ((hz.modDie (f := Die.retireSite i) (fun _ => rfl)).modDie (f := Die.tested) (fun _ => rfl)).die
  refine Eq.trans hdie ?_
  simp only [Die.tested, Die.retireSite, List.contains_iff_mem, hi, if_false, ← hfailed]

/-- The site that had failed is retired by the next self-test, which need not find it (R345, R367). -/
theorem State.repairs_failed (hz : s.HasDie d z) {i : Nat} (hi : i ∉ z.deadSites) (hfailed : z.failedSites = [i]) :
    (s.repairs [d] []).die d = { z with deadSites := z.deadSites ++ [i], failedSites := [] } := by
  rw [State.repairs_one hz (by simp), hfailed]
  have hdie := ((hz.modDie (f := Die.retireSite i) (fun _ => rfl)).modDie (f := Die.tested) (fun _ => rfl)).die
  refine Eq.trans hdie ?_
  simp only [Die.tested, Die.retireSite, List.contains_iff_mem, hi, if_false]

theorem State.newManifest_cluster (t : State) (k : Nat) : t.newManifest.cluster k = t.cluster k := rfl
theorem State.newManifest_die (t : State) (k : Nat) : t.newManifest.die k = t.die k := rfl

end

/-! Boot (R361, R362). -/

/-- What of the state a boot's later steps keep: the launches, the firmware and the fused minimum. -/
def State.bootRecord (s : State) : List Launch × FirmwareImage × Nat := (s.launches, s.firmware, s.fusedMin)

theorem State.bootRecord_foldl {α : Type} {f : State → α → State} (hf : ∀ s a, (f s a).bootRecord = s.bootRecord) (xs : List α) (s : State) :
    (xs.foldl f s).bootRecord = s.bootRecord := by
  induction xs generalizing s with
  | nil => rfl
  | cons x xs ih => exact (ih _).trans (hf s x)

theorem State.bootRecord_trainLinks (s : State) : s.trainLinks.bootRecord = s.bootRecord := by
  have htrain : ∀ (s : State) (x : Nat × Nat), (s.trainLink x.1 x.2).bootRecord = s.bootRecord := fun s x => by rw [State.trainLink_eq]; rfl
  have hpeers : ∀ (s : State) (x : Nat), (s.trainLink x (Config.linkPeer x)).bootRecord = s.bootRecord := fun s x => htrain s (x, Config.linkPeer x)
  exact (State.bootRecord_foldl hpeers _ _).trans (State.bootRecord_foldl htrain _ _)

theorem State.bootRecord_writeWords (s : State) (d a : Nat) (ws : List Nat) : (s.writeWords d a ws).bootRecord = s.bootRecord := rfl
theorem State.bootRecord_writeNat (s : State) (d a n v : Nat) : (s.writeNat d a n v).bootRecord = s.bootRecord := rfl

theorem State.bootRecord_rings (s : State) (rs : List Ring) : ({ s with rings := rs } : State).bootRecord = s.bootRecord := rfl
theorem State.bootRecord_clearSlots (s : State) (segment : Nat) : (s.clearSlots segment).bootRecord = s.bootRecord :=
  State.bootRecord_foldl (fun s k => s.bootRecord_writeNat 0 (segment + 64 * k) 4 0) _ s

theorem State.bootRecord_firstRing (s : State) : s.firstRing.bootRecord = s.bootRecord := by
  unfold State.firstRing
  rw [State.bootRecord_rings, State.bootRecord_clearSlots, State.bootRecord_writeNat, State.bootRecord_writeWords]

theorem State.firstRing_rings (s : State) : ∃ r, s.firstRing.rings = [r] ∧ r.privileged = true ∧ r.priority = 3 ∧ r.version = 1 :=
  ⟨_, rfl, rfl, rfl, rfl⟩

/-- The end of a boot: the first privileged ring stands, no launch has come, and the fused minimum rises where the image asks for it. -/
theorem State.bootDone_ends (s : State) : s.bootDone.booting = false ∧ s.bootDone.booted = true ∧
    (∃ r, s.bootDone.rings = [r] ∧ r.privileged = true ∧ r.priority = 3 ∧ r.version = 1) ∧ s.bootDone.launches = s.launches ∧
    s.bootDone.fusedMin = if s.firmware.raiseMinimum then max s.fusedMin s.firmware.securityVersion else s.fusedMin := by
  have hrecord : s.trainLinks.registerAccount.firstRing.bootRecord = s.bootRecord := by
    rw [State.bootRecord_firstRing, State.registerAccount, State.bootRecord_writeWords, State.bootRecord_trainLinks]
  have hrings := s.trainLinks.registerAccount.firstRing_rings
  unfold State.bootDone
  generalize s.trainLinks.registerAccount.firstRing = s1 at hrecord hrings
  exact ⟨rfl, rfl, hrings, congrArg Prod.fst hrecord, rfl⟩

theorem State.accountPost_fusedMin (s : State) (ws : List Nat) : (s.accountPost ws).fusedMin = s.fusedMin := by
  unfold State.accountPost
  split <;> rfl

theorem State.postStaged_fusedMin (s : State) : s.postStaged.fusedMin = s.fusedMin := by
  have hposts : ∀ (rs : List (List Word)) (s : State), (rs.foldl (fun s ws => s.accountPost (ws.map BitVec.toNat)) s).fusedMin = s.fusedMin := by
    intro rs
    induction rs with
    | nil => exact fun _ => rfl
    | cons r rs ih => exact fun s => (ih _).trans (s.accountPost_fusedMin _)
  exact hposts _ _

/-- A module whose firmware has started (R361). -/
def State.started (s : State) (x : FirmwareImage) : State := { s with firmware := x, nextImage := none, booting := true }

theorem exec_resetModule_passes {s : State} {x : FirmwareImage} (hx : x = s.nextImage.getD s.firmware) (h : imagePasses x s.fusedMin = true) :
    exec .resetModule s = .next (s.postStaged.cold.started x) := by
  subst hx
  simp only [exec, execResetModule, State.boot, h, if_true]
  rfl

theorem exec_resetModule_fails {s : State} {x : FirmwareImage} (hx : x = s.nextImage.getD s.firmware) (h : imagePasses x s.fusedMin = false) :
    exec .resetModule s = .next { s.postStaged.cold with recovery := true } := by
  subst hx
  simp only [exec, execResetModule, State.boot, h, Bool.false_eq_true, if_false]

/-- The boot that the self-test ends, of firmware that has started with no launch. -/
theorem selfTest_boots {t : State} (hbooting : t.booting = true) (hlaunches : t.launches = []) (fs : List Finding) :
    ∃ t2 r, exec (.selfTest [] fs) t = .next t2 ∧ t2.booting = false ∧ t2.booted = true ∧ t2.rings = [r] ∧
      r.privileged = true ∧ r.priority = 3 ∧ r.version = 1 ∧ t2.launches = [] ∧
      t2.fusedMin = (if t.firmware.raiseMinimum then max t.fusedMin t.firmware.securityVersion else t.fusedMin) := by
  obtain ⟨hoff, hbooted, ⟨r, hring⟩, hkept, hfused⟩ := State.bootDone_ends (t.repairs (rangeFrom 0 8) fs).newManifest
  have hrepaired := State.repairs_repaired t (rangeFrom 0 8) fs
  obtain ⟨hrings, hprivileged, hpriority, hversion⟩ := hring
  refine ⟨_, r, exec_selfTest_booting hbooting [] fs, hoff, hbooted, hrings, hprivileged, hpriority, hversion, ?_, ?_⟩
  · refine hkept.trans ?_
    rw [hrepaired]
    simp only [State.newManifest, hlaunches, List.map_nil]
  · refine hfused.trans ?_
    rw [hrepaired]
    rfl

theorem State.cold_fusedMin (s : State) : s.postStaged.cold.fusedMin = s.fusedMin := s.postStaged_fusedMin

theorem reset_boots {s : State} {x : FirmwareImage} (hx : x = s.nextImage.getD s.firmware) (h : imagePasses x s.fusedMin = true) :
    ∃ t, exec .resetModule s = .next t ∧ t.booting = true ∧ t.booted = false ∧ t.firmware = x ∧
      t.launches = [] ∧ t.wgs = [] ∧ t.flight = [] ∧ t.rings = [] ∧ (s.staged = [] → t.account = s.account ∧ t.mem = s.mem) ∧
      ∀ fs, ∃ t2 r, exec (.selfTest [] fs) t = .next t2 ∧ t2.booting = false ∧ t2.booted = true ∧ t2.rings = [r] ∧
        r.privileged = true ∧ r.priority = 3 ∧ r.version = 1 ∧ t2.launches = [] ∧
        t2.fusedMin = (if x.raiseMinimum then max s.fusedMin x.securityVersion else s.fusedMin) := by
  refine ⟨_, exec_resetModule_passes hx h, rfl, rfl, rfl, rfl, rfl, rfl, rfl, fun hstaged => ?_, fun fs => ?_⟩
  · rw [State.postStaged_none s hstaged]
    exact ⟨rfl, rfl⟩
  · rw [← s.cold_fusedMin]
    exact selfTest_boots (t := s.postStaged.cold.started x) rfl rfl fs

theorem reset_recovers {s : State} {x : FirmwareImage} (hx : x = s.nextImage.getD s.firmware) (h : imagePasses x s.fusedMin = false) :
    ∃ t, exec .resetModule s = .next t ∧ t.booting = false ∧ t.booted = false ∧ t.recovery = true ∧ t.rings = [] ∧
      (s.staged = [] → t.mem = s.mem) := by
  refine ⟨_, exec_resetModule_fails hx h, rfl, rfl, rfl, rfl, fun hstaged => ?_⟩
  rw [State.postStaged_none s hstaged]
  rfl

/-! The management port (R363, R364, R368, R380). -/

theorem getVersion_answers (s : State) (offered : List Nat) :
    (13 ∈ offered → exec (.getVersion offered) s = .next { s with spdm := 13, port := s.port ++ [.version 13] }) ∧
    (13 ∉ offered → 12 ∈ offered → exec (.getVersion offered) s = .next { s with spdm := 12, port := s.port ++ [.version 12] }) ∧
    (13 ∉ offered → 12 ∉ offered → exec (.getVersion offered) s = .next s) := by
  simp only [exec, execGetVersion]
  refine ⟨fun h13 => ?_, fun h13 h12 => ?_, fun h13 h12 => ?_⟩
  · have hfind : [13, 12].find? (fun v => offered.contains v) = some 13 := by simp [h13]
    rw [hfind]
  · have hfind : [13, 12].find? (fun v => offered.contains v) = some 12 := by simp [h13, h12]
    rw [hfind]
  · have hfind : [13, 12].find? (fun v => offered.contains v) = none := by simp [h13, h12]
    rw [hfind]

theorem spdmMeasurements_answers (s : State) (i : Nat) :
    (i ∈ [1, 2, 3, 4, 5, 16] → exec (.spdmMeasurements i) s = .next { s with
      port := s.port ++ [.measurement i (s.measurement i) (Config.signEd25519 (s.measurement i))] }) ∧
    (i ∉ [1, 2, 3, 4, 5, 16] → exec (.spdmMeasurements i) s = .next s) := by
  simp only [exec, execSpdmMeasurements, List.contains_iff_mem]
  exact ⟨fun h => by rw [if_pos h], fun h => by rw [if_neg h]⟩

theorem telemetryBlock_length (s : State) (k : Nat) : (s.telemetryBlock k).length = 16 := rfl

theorem telemetry_answers (s : State) : ∃ t bs sigs, exec .telemetry s = .next t ∧ t = { s with port := t.port } ∧
    t.port = s.port ++ [.telemetry bs sigs] ∧ bs.length = 8 ∧ (∀ b ∈ bs, b.length = 16) ∧
    (∀ k, k < 8 → (nth [] bs k)[4]? = some (s.die k).temperature ∧ (nth [] bs k)[8]? = some (min (s.die k).uncorrected (2 ^ 32 - 1))) := by
  refine ⟨_, (rangeFrom 0 8).map s.telemetryBlock, _, rfl, rfl, rfl, rfl, fun b hb => ?_, fun k hk => ?_⟩
  · obtain ⟨k, _, rfl⟩ := List.mem_map.mp hb
    exact telemetryBlock_length s k
  · have hblock : nth [] ((rangeFrom 0 8).map s.telemetryBlock) k = s.telemetryBlock k := by
      interval_cases k <;> rfl
    rw [hblock, ← sat32_eq_min]
    exact ⟨rfl, rfl⟩

/-- Settles O54: each row by what it leaves. -/
theorem managementAndLinks : Obligations.ManagementAndLinks := by
  unfold Obligations.ManagementAndLinks
  refine ⟨fun s g k ks x hg htids => ?_, fun s d n x hx => ⟨clockReferenceLoss_again hx, clockReferenceLoss_runs hx⟩,
    fun s m => ⟨fun hm => ?_, fun hm => ?_⟩, fun s lk peer => ⟨linkTraining_none, linkTraining_trains⟩,
    fun s x hx => ⟨reset_boots hx, reset_recovers hx⟩, fun s x => ⟨fun hrec hpass => ?_, fun hpass => ?_, fun hbooted => ?_, fun hbooted => ?_⟩,
    fun s d c i y z hy hz hboot => ⟨selfTest_refused hz hboot, fun hbooted hquiet => ?_⟩, getVersion_answers,
    fun s i => ⟨(spdmMeasurements_answers s i).1, (spdmMeasurements_answers s i).2, rfl⟩, telemetry_answers⟩
  · simp only [exec, execIllegalWordIssue, State.illegalWord, hg, htids]
    rfl
  · simp only [exec, execLinkRetrain, State.retrain, List.contains_iff_mem, hm, if_true]
  · simp only [exec, execLinkRetrain, State.retrain, List.contains_iff_mem, hm, if_false]
  · simp only [exec, execRecoveryImage, hrec, hpass, Bool.and_self, if_true]
  · simp only [exec, execRecoveryImage, hpass, Bool.and_false, Bool.false_eq_true, if_false]
  · simp only [exec, execFirmwareUpdate, hbooted, if_true]
  · simp only [exec, execFirmwareUpdate, hbooted, Bool.false_eq_true, if_false]
  · have htests := selfTest_tests hz hboot hbooted hquiet
    refine ⟨fun hc hspares => ⟨_, htests _, ?_, ?_, ?_⟩, fun hc hspares => ⟨_, htests _, ?_⟩, fun hi hfailed => ⟨_, htests _, ?_⟩,
      fun hi hfailed => ⟨_, htests _, ?_⟩⟩
    · rw [State.newManifest_mem, s.repairs_repaired]
    · rw [State.newManifest_cluster, State.repairs_core hy hz hc, Cluster.retireCore, if_neg (by omega)]
    · rw [State.newManifest_gen, s.repairs_repaired]
    · rw [State.newManifest_cluster, State.repairs_core hy hz hc, Cluster.retireCore, if_pos hspares]
    · rw [State.newManifest_die, State.repairs_site hz hi hfailed]
    · rw [State.newManifest_die, State.repairs_failed hz hi hfailed]

end Sys2Proof.Machine

end

section
/-! SUPPORT. Statement O3: rounding to the nearest number of a format, and the quotients and roots that are so rounded. -/

namespace Sys2Proof.Machine

/-! The numbers of a format in their order (R77): the pattern j × 2^(prec − 1) + n stands for n units of the exponent low + j. -/

/-- The exponent of a format's least unit. -/
def Fmt.low (f : Fmt) : Int := f.emin - ((f.prec : Int) - 1)

/-- The patterns in one exponent's units: of fewer than 2^(prec − 1) units in the lowest exponent alone. -/
def Fmt.Normal (f : Fmt) (j n : Nat) : Prop := n ≤ 2 * 2 ^ (f.prec - 1) ∧ (j = 0 ∨ 2 ^ (f.prec - 1) ≤ n)

theorem magnitude_pattern {f : Fmt} {j n : Nat} (h : f.Normal j n) :
    ((magnitude f (j * 2 ^ (f.prec - 1) + n) : ℚ) : ℝ) = n * (2 : ℝ) ^ (f.low + j) := by
  obtain ⟨hle, hj⟩ := h
  have hpos : 0 < 2 ^ (f.prec - 1) := Nat.two_pow_pos _
  unfold magnitude Fmt.low
  generalize 2 ^ (f.prec - 1) = p at *
  rcases Nat.lt_or_ge n p with hsub | hnorm
  · obtain rfl : j = 0 := hj.resolve_right (by omega)
    have hdiv : (0 * p + n) / p = 0 := by rw [Nat.zero_mul, Nat.zero_add, Nat.div_eq_of_lt hsub]
    have hmod : (0 * p + n) % p = n := by rw [Nat.zero_mul, Nat.zero_add, Nat.mod_eq_of_lt hsub]
    simp only [hdiv, hmod, if_true]
    push_cast
    rw [add_zero]
  · rcases Nat.lt_or_ge n (2 * p) with hlt | hge
    · have hdecomp : j * p + n = (n - p) + p * (j + 1) := by rw [Nat.mul_add, Nat.mul_comm p j]; omega
      have hdiv : (j * p + n) / p = j + 1 := by rw [hdecomp, Nat.add_mul_div_left _ _ hpos, Nat.div_eq_of_lt (by omega), Nat.zero_add]
      have hmod : (j * p + n) % p = n - p := by rw [hdecomp, Nat.add_mul_mod_self_left, Nat.mod_eq_of_lt (by omega)]
      simp only [hdiv, hmod, Nat.succ_ne_zero, if_false, Nat.add_sub_cancel' hnorm]
      push_cast
      congr 2
      ring
    · obtain rfl : n = 2 * p := Nat.le_antisymm hle hge
      have hdecomp : j * p + 2 * p = p * (j + 2) := by ring
      have hdiv : (j * p + 2 * p) / p = j + 2 := by rw [hdecomp, Nat.mul_div_cancel_left _ hpos]
      have hmod : (j * p + 2 * p) % p = 0 := by rw [hdecomp, Nat.mul_mod_right]
      simp only [hdiv, hmod, Nat.succ_ne_zero, if_false, Nat.add_zero]
      have hexp : f.emin - ((f.prec : Int) - 1) + (((j + 2 : Nat) : Int) - 1) = f.emin - ((f.prec : Int) - 1) + j + 1 := by push_cast; ring
      rw [hexp]
      push_cast
      rw [zpow_add_one₀ (by norm_num : (2 : ℝ) ≠ 0)]
      ring

/-- Every pattern is one of an exponent's units, and so is the next. -/
theorem Fmt.pattern_of (f : Fmt) (z : Nat) : ∃ j n, z = j * 2 ^ (f.prec - 1) + n ∧ f.Normal j n ∧ f.Normal j (n + 1) := by
  have hpos : 0 < 2 ^ (f.prec - 1) := Nat.two_pow_pos _
  unfold Fmt.Normal
  generalize 2 ^ (f.prec - 1) = p at *
  have hmod := Nat.mod_lt z hpos
  have hz := Nat.div_add_mod z p
  rcases Nat.eq_zero_or_pos (z / p) with he | he
  · rw [he, Nat.mul_zero, Nat.zero_add] at hz
    exact ⟨0, z, by simp, ⟨by omega, .inl rfl⟩, ⟨by omega, .inl rfl⟩⟩
  · refine ⟨z / p - 1, p + z % p, ?_, ⟨by omega, .inr (by omega)⟩, ⟨by omega, .inr (by omega)⟩⟩
    obtain ⟨e, he⟩ : ∃ e, z / p = e + 1 := ⟨z / p - 1, by omega⟩
    rw [he] at hz ⊢
    rw [Nat.add_sub_cancel, ← Nat.add_assoc, ← Nat.succ_mul, Nat.mul_comm]
    exact hz.symm

theorem magnitude_lt_succ (f : Fmt) (z : Nat) : ((magnitude f z : ℚ) : ℝ) < ((magnitude f (z + 1) : ℚ) : ℝ) := by
  obtain ⟨j, n, rfl, hn, hsucc⟩ := f.pattern_of z
  rw [Nat.add_assoc, magnitude_pattern hn, magnitude_pattern hsucc]
  have hunit : (0 : ℝ) < (2 : ℝ) ^ (f.low + j) := zpow_pos (by norm_num) _
  push_cast
  linarith

theorem magnitude_strictMono (f : Fmt) : StrictMono (fun z => ((magnitude f z : ℚ) : ℝ)) := strictMono_nat_of_lt_succ (magnitude_lt_succ f)

/-! Rounding between two neighbours. -/

/-- The pattern, or the infinity where it lies beyond. -/
def Fmt.capped (f : Fmt) (b : Nat) : Nat := if f.infBits ≤ b then f.infBits else b

/-- `r` is the nearer of the pattern `b` and the next, and of two equally near ones the even. -/
def Fmt.Picks (f : Fmt) (x : ℝ) (b r : Nat) : Prop :=
  (r = b ∧ (x < ((magnitude f b : ℝ) + magnitude f (b + 1)) / 2 ∨ x = ((magnitude f b : ℝ) + magnitude f (b + 1)) / 2 ∧ b % 2 = 0)) ∨
  (r = b + 1 ∧ (((magnitude f b : ℝ) + magnitude f (b + 1)) / 2 < x ∨ x = ((magnitude f b : ℝ) + magnitude f (b + 1)) / 2 ∧ b % 2 = 1))

section
variable {f : Fmt} {x : ℝ} {b r : Nat}

theorem magnitude_mono {y z : Nat} (h : y ≤ z) : (magnitude f y : ℝ) ≤ magnitude f z := (magnitude_strictMono f).monotone h

/-- What is picked is no farther than any other number, and even where another is as near. -/
theorem Fmt.Picks.nearest (hr : f.Picks x b r) (hlow : (magnitude f b : ℝ) ≤ x) (hhigh : x < magnitude f (b + 1)) (z : Nat) :
    |(magnitude f r : ℝ) - x| ≤ |(magnitude f z : ℝ) - x| ∧ (|(magnitude f r : ℝ) - x| = |(magnitude f z : ℝ) - x| → z ≠ r → r % 2 = 0) := by
  have hbelow : |(magnitude f b : ℝ) - x| = x - magnitude f b := by rw [abs_sub_comm, abs_of_nonneg (by linarith)]
  have habove : |(magnitude f (b + 1) : ℝ) - x| = magnitude f (b + 1) - x := abs_of_nonneg (by linarith)
  rcases Nat.lt_or_ge b z with hz | hz
  · have hfar : (magnitude f (b + 1) : ℝ) ≤ magnitude f z := magnitude_mono hz
    have hdist : |(magnitude f z : ℝ) - x| = magnitude f z - x := abs_of_nonneg (by linarith)
    rcases hr with ⟨rfl, hlt | ⟨hmid, heven⟩⟩ | ⟨rfl, hnear⟩
    · rw [hbelow, hdist]
      exact ⟨by linarith, fun heq _ => absurd heq (by linarith)⟩
    · rw [hbelow, hdist]
      exact ⟨by linarith, fun _ _ => heven⟩
    · rw [habove, hdist]
      refine ⟨by linarith, fun heq hne => absurd ((magnitude_strictMono f).injective ?_) hne⟩
      show (magnitude f z : ℝ) = magnitude f _
      linarith
  · have hfar : (magnitude f z : ℝ) ≤ magnitude f b := magnitude_mono hz
    have hdist : |(magnitude f z : ℝ) - x| = x - magnitude f z := by rw [abs_sub_comm, abs_of_nonneg (by linarith)]
    rcases hr with ⟨rfl, hnear⟩ | ⟨rfl, hgt | ⟨hmid, hodd⟩⟩
    · rw [hbelow, hdist]
      refine ⟨by linarith, fun heq hne => absurd ((magnitude_strictMono f).injective ?_) hne⟩
      show (magnitude f z : ℝ) = magnitude f _
      linarith
    · rw [habove, hdist]
      exact ⟨by linarith, fun heq _ => absurd heq (by linarith)⟩
    · rw [habove, hdist]
      exact ⟨by linarith, fun _ _ => by omega⟩

/-- Of two neighbours below the infinity or at it, the infinity is picked from half a unit past the largest number on. -/
theorem Fmt.Picks.infinite_iff (heven : f.infBits % 2 = 0) (hb : b < f.infBits) (hr : f.Picks x b r) (hhigh : x < magnitude f (b + 1)) :
    r = f.infBits ↔ ((magnitude f f.infBits + magnitude f (f.infBits - 1)) / 2 : ℝ) ≤ x := by
  constructor
  · intro hinf
    rcases hr with ⟨rfl, _⟩ | ⟨rfl, hnear⟩
    · exact absurd hinf (Nat.ne_of_lt hb)
    · rw [← hinf, Nat.add_sub_cancel]
      rcases hnear with hgt | ⟨hmid, _⟩ <;> linarith
  · intro hx
    rcases Nat.lt_or_ge (b + 1) f.infBits with hfin | hlast
    · have hbelow : (magnitude f (b + 1) : ℝ) ≤ magnitude f (f.infBits - 1) := magnitude_mono (by omega)
      have hpast : (magnitude f (f.infBits - 1) : ℝ) ≤ magnitude f f.infBits := magnitude_mono (by omega)
      linarith
    · have hinf : b + 1 = f.infBits := by omega
      rw [← hinf, Nat.add_sub_cancel] at hx
      rcases hr with ⟨_, hlt | ⟨_, hparity⟩⟩ | ⟨rfl, _⟩
      · linarith
      · omega
      · exact hinf

theorem nearest_of_picks (heven : f.infBits % 2 = 0) (hinf : 0 < f.infBits) (hlow : (magnitude f b : ℝ) ≤ x)
    (hhigh : x < magnitude f (b + 1)) (hr : f.Picks x b r) : Nearest f x (f.capped r) := by
  have hrange : r = b ∨ r = b + 1 := hr.imp And.left And.left
  rcases Nat.lt_or_ge b f.infBits with hb | hb
  · have hcap : f.capped r = r := by
      unfold Fmt.capped
      split <;> omega
    rw [hcap]
    exact ⟨by omega, fun _ z _ => hr.nearest hlow hhigh z, hr.infinite_iff heven hb hhigh⟩
  · have hcap : f.capped r = f.infBits := if_pos (by omega)
    have hpast : (magnitude f (f.infBits - 1) : ℝ) ≤ magnitude f f.infBits := magnitude_mono (by omega)
    have hbeyond : (magnitude f f.infBits : ℝ) ≤ magnitude f b := magnitude_mono hb
    rw [hcap]
    exact ⟨le_rfl, fun h => absurd h (lt_irrefl _), fun _ => by linarith, fun _ => rfl⟩

end

/-! The rounding of the model (R71). -/

/-- The exponent of the units that a number of mantissa `m` is rounded to. -/
def Fmt.unitExp (f : Fmt) (m : Nat) (e : Int) : Int :=
  if (m.log2 : Int) + e - ((f.prec - 1 : Nat) : Int) < f.emin - ((f.prec - 1 : Nat) : Int) then f.emin - ((f.prec - 1 : Nat) : Int)
  else (m.log2 : Int) + e - ((f.prec - 1 : Nat) : Int)

/-- The pattern of `n` units. -/
def Fmt.pattern (f : Fmt) (m : Nat) (e : Int) (n : Nat) : Nat := (f.unitExp m e - f.low).toNat * 2 ^ (f.prec - 1) + n

/-- A format's shape: more than one bit of significand, and an infinity of an even pattern. -/
structure Fmt.Regular (f : Fmt) : Prop where
  prec : 2 ≤ f.prec
  even : f.infBits % 2 = 0
  pos : 0 < f.infBits

section
variable {f : Fmt} {m : Nat} {e : Int}

theorem Fmt.low_eq (hf : f.Regular) : f.emin - ((f.prec - 1 : Nat) : Int) = f.low := by
  have := hf.prec
  unfold Fmt.low
  omega

theorem Fmt.unitExp_low (hf : f.Regular) : f.low ≤ f.unitExp m e := by
  rw [← Fmt.low_eq hf]
  unfold Fmt.unitExp
  split <;> omega

/-- A mantissa has log2 + 1 bits: in its units it has at most `prec`, and exactly so many but in the lowest. -/
theorem Fmt.unitExp_bits (hf : f.Regular) : (m.log2 : Int) + e + 1 ≤ f.unitExp m e + f.prec ∧
    (f.unitExp m e = f.low ∨ (m.log2 : Int) + e + 1 = f.unitExp m e + f.prec) := by
  have := hf.prec
  have hlow := Fmt.low_eq hf
  unfold Fmt.unitExp
  rw [hlow]
  unfold Fmt.low
  split <;> omega

theorem roundMag_exact (hf : f.Regular) (hm : m ≠ 0) (h : f.unitExp m e ≤ e) (sticky : Bool) :
    f.roundMag m e sticky = f.capped (f.pattern m e (m * 2 ^ (e - f.unitExp m e).toNat)) := by
  unfold Fmt.unitExp at h
  simp only [Fmt.roundMag, hm, if_false, h, if_true, Fmt.capped, Fmt.pattern, Fmt.unitExp, ← Fmt.low_eq hf]

theorem roundMag_cut (hf : f.Regular) (hm : m ≠ 0) (h : ¬ f.unitExp m e ≤ e) (sticky : Bool) {k : Nat} (hk : k = (f.unitExp m e - e).toNat) :
    f.roundMag m e sticky = f.capped (f.pattern m e (if 2 ^ (k - 1) < m % 2 ^ k ∨ m % 2 ^ k = 2 ^ (k - 1) ∧ (sticky = true ∨ m / 2 ^ k % 2 = 1)
      then m / 2 ^ k + 1 else m / 2 ^ k)) := by
  subst hk
  unfold Fmt.unitExp at h
  simp only [Fmt.roundMag, hm, if_false, h, Fmt.capped, Fmt.pattern, Fmt.unitExp, ← Fmt.low_eq hf]
  rfl

theorem magnitude_unit (hf : f.Regular) {n : Nat} (h : f.Normal (f.unitExp m e - f.low).toNat n) :
    (magnitude f (f.pattern m e n) : ℝ) = n * (2 : ℝ) ^ f.unitExp m e := by
  have hlow : f.low ≤ f.unitExp m e := Fmt.unitExp_low hf
  have hexp : f.low + ((f.unitExp m e - f.low).toNat : Int) = f.unitExp m e := by omega
  rw [Fmt.pattern, magnitude_pattern h, hexp]

theorem log2_bounds (hm : m ≠ 0) : 2 ^ m.log2 ≤ m ∧ m < 2 ^ (m.log2 + 1) := ⟨Nat.log2_self_le hm, Nat.lt_log2_self⟩

/-- Two powers of one exponent make up the range of a significand. -/
theorem two_mul_pow_prec (hf : f.Regular) : 2 * 2 ^ (f.prec - 1) = 2 ^ f.prec := by
  have := hf.prec
  rw [← Nat.pow_succ', Nat.succ_eq_add_one, Nat.sub_add_cancel (by omega)]

/-- A number of no bits below its units is one of the format's. -/
theorem normal_exact (hf : f.Regular) (hm : m ≠ 0) (h : f.unitExp m e ≤ e) :
    m * 2 ^ (e - f.unitExp m e).toNat < 2 * 2 ^ (f.prec - 1) ∧ ((f.unitExp m e - f.low).toNat = 0 ∨ 2 ^ (f.prec - 1) ≤ m * 2 ^ (e - f.unitExp m e).toNat) := by
  obtain ⟨hlow, hhigh⟩ := log2_bounds hm
  obtain ⟨hbits, hfull⟩ := Fmt.unitExp_bits (m := m) (e := e) hf
  have := hf.prec
  generalize hd : (e - f.unitExp m e).toNat = d
  refine ⟨?_, hfull.imp (fun h => by omega) (fun h => ?_)⟩
  · calc m * 2 ^ d < 2 ^ (m.log2 + 1) * 2 ^ d := Nat.mul_lt_mul_of_pos_right hhigh (Nat.two_pow_pos _)
      _ = 2 ^ (m.log2 + 1 + d) := (Nat.pow_add ..).symm
      _ ≤ 2 ^ f.prec := Nat.pow_le_pow_right (by decide) (by omega)
      _ = 2 * 2 ^ (f.prec - 1) := (two_mul_pow_prec hf).symm
  · calc 2 ^ (f.prec - 1) = 2 ^ (m.log2 + d) := by congr 1; omega
      _ = 2 ^ m.log2 * 2 ^ d := Nat.pow_add ..
      _ ≤ m * 2 ^ d := Nat.mul_le_mul_right _ hlow

/-- So is what is left of one whose last `k` bits are cut. -/
theorem normal_cut (hf : f.Regular) (hm : m ≠ 0) {k : Nat} (hk : (k : Int) = f.unitExp m e - e) :
    m / 2 ^ k < 2 * 2 ^ (f.prec - 1) ∧ ((f.unitExp m e - f.low).toNat = 0 ∨ 2 ^ (f.prec - 1) ≤ m / 2 ^ k) := by
  obtain ⟨hlow, hhigh⟩ := log2_bounds hm
  obtain ⟨hbits, hfull⟩ := Fmt.unitExp_bits (m := m) (e := e) hf
  have := hf.prec
  refine ⟨?_, hfull.imp (fun h => by omega) (fun h => ?_)⟩
  · rw [two_mul_pow_prec hf, Nat.div_lt_iff_lt_mul (Nat.two_pow_pos _), ← Nat.pow_add]
    exact hhigh.trans_le (Nat.pow_le_pow_right (by decide) (by omega))
  · rw [Nat.le_div_iff_mul_le (Nat.two_pow_pos _), ← Nat.pow_add]
    exact (Nat.pow_le_pow_right (by decide) (by omega)).trans hlow

/-- The numbers that `roundMag` is given by a mantissa, an exponent and a sticky part. -/
def Fmt.Given (f : Fmt) (m : Nat) (e : Int) (sticky : Bool) (x : ℝ) : Prop :=
  (sticky = false ∧ x = m * (2 : ℝ) ^ e) ∨ (sticky = true ∧ 2 ^ f.prec ≤ m ∧ m * (2 : ℝ) ^ e < x ∧ x < (m + 1) * (2 : ℝ) ^ e)

theorem Fmt.Given.bounds {sticky : Bool} {x : ℝ} (h : f.Given m e sticky x) : m * (2 : ℝ) ^ e ≤ x ∧ x < (m + 1) * (2 : ℝ) ^ e := by
  have hunit : (0 : ℝ) < (2 : ℝ) ^ e := zpow_pos (by norm_num) _
  rcases h with ⟨_, rfl⟩ | ⟨_, _, hlow, hhigh⟩
  · exact ⟨le_rfl, by linarith⟩
  · exact ⟨hlow.le, hhigh⟩

/-- A number in its format's units rounds to itself. -/
theorem nearest_exact (hf : f.Regular) (hm : m ≠ 0) (h : f.unitExp m e ≤ e) : Nearest f (m * (2 : ℝ) ^ e) (f.roundMag m e false) := by
  obtain ⟨hlt, hj⟩ := normal_exact hf hm h
  rw [roundMag_exact hf hm h]
  have hvalue : (m : ℝ) * 2 ^ e = magnitude f (f.pattern m e (m * 2 ^ (e - f.unitExp m e).toNat)) := by
    rw [magnitude_unit hf ⟨hlt.le, hj⟩]
    push_cast
    rw [mul_assoc, ← zpow_natCast, ← zpow_add₀ (by norm_num : (2 : ℝ) ≠ 0)]
    congr 2
    omega
  have hnext := magnitude_lt_succ f (f.pattern m e (m * 2 ^ (e - f.unitExp m e).toNat))
  exact nearest_of_picks hf.even hf.pos hvalue.ge (hvalue ▸ hnext) (.inl ⟨rfl, .inl (by linarith)⟩)

/-- The parity of a pattern is that of its last bit. -/
theorem pattern_mod (hf : f.Regular) (n : Nat) : f.pattern m e n % 2 = n % 2 := by
  have heven : 2 ^ (f.prec - 1) % 2 = 0 := by
    have := hf.prec
    obtain ⟨p, hp⟩ : ∃ p, f.prec - 1 = p + 1 := ⟨f.prec - 2, by omega⟩
    rw [hp, Nat.pow_succ, Nat.mul_mod_left]
  rw [Fmt.pattern, Nat.add_mod, Nat.mul_mod, heven, Nat.mul_zero, Nat.zero_mod, Nat.zero_add, Nat.mod_mod]

/-- What the last `k + 1` bits of a mantissa, and a sticky part, pick: by half a unit. -/
theorem picks_cut (hf : f.Regular) {k : Nat} {sticky : Bool} {x : ℝ} (hx : f.Given m e sticky x)
    (hmid : ((magnitude f (f.pattern m e (m / 2 ^ (k + 1))) : ℝ) + magnitude f (f.pattern m e (m / 2 ^ (k + 1)) + 1)) / 2 =
      (m - (m % 2 ^ (k + 1) : Nat) + 2 ^ k) * (2 : ℝ) ^ e) :
    f.Picks x (f.pattern m e (m / 2 ^ (k + 1))) (f.pattern m e (if 2 ^ k < m % 2 ^ (k + 1) ∨ m % 2 ^ (k + 1) = 2 ^ k ∧
      (sticky = true ∨ m / 2 ^ (k + 1) % 2 = 1) then m / 2 ^ (k + 1) + 1 else m / 2 ^ (k + 1))) := by
  have hparity := pattern_mod (m := m) (e := e) hf (m / 2 ^ (k + 1))
  have hunit : (0 : ℝ) < (2 : ℝ) ^ e := zpow_pos (by norm_num) _
  obtain ⟨hlow, hhigh⟩ := hx.bounds
  unfold Fmt.Picks
  rw [hmid, hparity]
  rcases Nat.lt_trichotomy (2 ^ k) (m % 2 ^ (k + 1)) with hgt | heq | hlt
  · rw [if_pos (.inl hgt)]
    have hcast : ((2 ^ k : Nat) : ℝ) < (m % 2 ^ (k + 1) : Nat) := Nat.cast_lt.mpr hgt
    push_cast at hcast ⊢
    exact .inr ⟨rfl, .inl (lt_of_lt_of_le (mul_lt_mul_of_pos_right (by linarith) hunit) hlow)⟩
  · have hhalf : ((m : ℝ) - (m % 2 ^ (k + 1) : Nat) + 2 ^ k) * (2 : ℝ) ^ e = m * (2 : ℝ) ^ e := by
      rw [← heq]
      push_cast
      ring
    rw [hhalf]
    rcases hx with ⟨rfl, hval⟩ | ⟨rfl, _, hmore, _⟩
    · by_cases hodd : m / 2 ^ (k + 1) % 2 = 1
      · rw [if_pos (.inr ⟨heq.symm, .inr hodd⟩)]
        exact .inr ⟨rfl, .inr ⟨hval, hodd⟩⟩
      · rw [if_neg (by simp [← heq, hodd])]
        exact .inl ⟨rfl, .inr ⟨hval, by omega⟩⟩
    · rw [if_pos (.inr ⟨heq.symm, .inl rfl⟩)]
      exact .inr ⟨rfl, .inl hmore⟩
  · rw [if_neg (by omega)]
    have hcast : ((m % 2 ^ (k + 1) + 1 : Nat) : ℝ) ≤ (2 ^ k : Nat) := Nat.cast_le.mpr hlt
    push_cast at hcast ⊢
    exact .inl ⟨rfl, .inl (lt_of_lt_of_le hhigh (mul_le_mul_of_nonneg_right (by linarith) hunit.le))⟩

/-- A number whose last bits are cut rounds by what they, and the sticky part, amount to. -/
theorem nearest_cut (hf : f.Regular) (hm : m ≠ 0) (h : ¬ f.unitExp m e ≤ e) {sticky : Bool} {x : ℝ} (hx : f.Given m e sticky x) :
    Nearest f x (f.roundMag m e sticky) := by
  obtain ⟨k, hk⟩ : ∃ k : Nat, f.unitExp m e - e = (k + 1 : Nat) := ⟨(f.unitExp m e - e - 1).toNat, by omega⟩
  obtain ⟨hlt, hj⟩ := normal_cut hf hm hk.symm
  obtain ⟨hlow, hhigh⟩ := hx.bounds
  rw [roundMag_cut hf hm h sticky (k := k + 1) (by omega), Nat.add_sub_cancel]
  have hunit : (0 : ℝ) < (2 : ℝ) ^ e := zpow_pos (by norm_num) _
  have hscale : (2 : ℝ) ^ f.unitExp m e = 2 * 2 ^ k * (2 : ℝ) ^ e := by
    have hexp : f.unitExp m e = 1 + k + e := by omega
    rw [hexp, zpow_add₀ (by norm_num : (2 : ℝ) ≠ 0), zpow_add₀ (by norm_num : (2 : ℝ) ≠ 0), zpow_one, zpow_natCast]
  have hbelow := magnitude_unit hf (n := m / 2 ^ (k + 1)) ⟨hlt.le, hj⟩
  have habove : (magnitude f (f.pattern m e (m / 2 ^ (k + 1)) + 1) : ℝ) = ((m / 2 ^ (k + 1) + 1 : Nat) : ℝ) * (2 : ℝ) ^ f.unitExp m e :=
    magnitude_unit hf (n := m / 2 ^ (k + 1) + 1) ⟨hlt, hj.imp_right (fun h => by omega)⟩
  have hdecomp : (m : ℝ) = 2 * 2 ^ k * (m / 2 ^ (k + 1) : Nat) + (m % 2 ^ (k + 1) : Nat) := by
    rw [← pow_succ']
    exact_mod_cast (Nat.div_add_mod m (2 ^ (k + 1))).symm
  have hrest : ((m % 2 ^ (k + 1) : Nat) : ℝ) + 1 ≤ 2 * 2 ^ k := by
    rw [← pow_succ']
    exact_mod_cast Nat.mod_lt m (Nat.two_pow_pos (k + 1))
  rw [hscale] at hbelow habove
  refine nearest_of_picks hf.even hf.pos (b := f.pattern m e (m / 2 ^ (k + 1))) ?_ ?_ (picks_cut hf hx ?_)
  · rw [hbelow]
    refine le_trans ?_ hlow
    rw [hdecomp, ← mul_assoc]
    exact mul_le_mul_of_nonneg_right (by nlinarith [Nat.cast_nonneg (α := ℝ) (m % 2 ^ (k + 1))]) hunit.le
  · rw [habove]
    refine lt_of_lt_of_le hhigh ?_
    rw [hdecomp, ← mul_assoc]
    push_cast
    exact mul_le_mul_of_nonneg_right (by linarith) hunit.le
  · rw [hbelow, habove, hdecomp]
    push_cast
    ring

/-- R71: what a mantissa, an exponent and a sticky part give is rounded to the nearest. -/
theorem roundMag_nearest (hf : f.Regular) (hm : m ≠ 0) {sticky : Bool} {x : ℝ} (hx : f.Given m e sticky x) :
    Nearest f x (f.roundMag m e sticky) := by
  by_cases h : f.unitExp m e ≤ e
  · rcases hx with ⟨rfl, rfl⟩ | ⟨_, hbits, _, _⟩
    · exact nearest_exact hf hm h
    · have hlong : f.prec ≤ m.log2 := (Nat.le_log2 hm).mpr hbits
      have hunits := (Fmt.unitExp_bits (m := m) (e := e) hf).1
      omega
  · exact nearest_cut hf hm h hx

/-- Zero rounds to zero. -/
theorem zero_nearest (hf : f.Regular) : Nearest f 0 0 := by
  have hzero : (magnitude f 0 : ℝ) = 0 := by simp [magnitude]
  have hpos : (0 : ℝ) < magnitude f f.infBits := hzero ▸ magnitude_strictMono f hf.pos
  have hlast : (0 : ℝ) ≤ magnitude f (f.infBits - 1) := hzero ▸ magnitude_mono (Nat.zero_le _)
  refine ⟨Nat.zero_le _, fun _ z _ => ⟨?_, fun _ _ => rfl⟩, fun h => absurd h (Nat.ne_of_lt hf.pos), fun h => by linarith⟩
  rw [hzero, sub_zero, abs_zero]
  exact abs_nonneg _

theorem roundMag_zero (f : Fmt) (e : Int) (sticky : Bool) : f.roundMag 0 e sticky = 0 := if_pos rfl

theorem Fmt.capped_le (f : Fmt) (b : Nat) : f.capped b ≤ f.infBits := by
  unfold Fmt.capped
  split <;> omega

theorem roundMag_le (hf : f.Regular) (sticky : Bool) : f.roundMag m e sticky ≤ f.infBits := by
  by_cases hm : m = 0
  · rw [hm, roundMag_zero]
    exact Nat.zero_le _
  · by_cases h : f.unitExp m e ≤ e
    · exact roundMag_exact hf hm h sticky ▸ f.capped_le _
    · exact roundMag_cut hf hm h sticky rfl ▸ f.capped_le _

end

theorem regular_of_mem {f : Fmt} (h : f ∈ [f32, bf16, fp16]) : f.Regular := by
  simp only [List.mem_cons, List.not_mem_nil, or_false] at h
  rcases h with rfl | rfl | rfl <;> exact ⟨by decide, by decide, by decide⟩

theorem f32_regular : f32.Regular := regular_of_mem (by decide)

/-! Quotients (R133). -/

/-- The mantissas that a pattern of FP32 decodes to have at most 24 bits. -/
theorem f32_decode_mant {x : Nat} {neg : Bool} {m : Nat} {e : Int} (h : f32.decode x = .fin neg m e) : m < 2 ^ 24 := by
  simp only [Fmt.decode] at h
  have hfrac : x % 2 ^ (f32.width - 1) % 2 ^ (f32.prec - 1) < 2 ^ 23 := Nat.mod_lt _ (by decide)
  generalize x % 2 ^ (f32.width - 1) % 2 ^ (f32.prec - 1) = frac at h hfrac
  split_ifs at h
  · injection h with _ hm _
    omega
  · injection h with _ hm _
    have : 2 ^ (f32.prec - 1) = 2 ^ 23 := rfl
    omega

/-- A whole quotient and whether it leaves a rest are what a ratio gives to be rounded. -/
theorem ratio_given {f : Fmt} {n d : Nat} (hd : d ≠ 0) (e : Int) (hbits : 2 ^ f.prec ≤ n / d) :
    f.Given (n / d) e (n % d != 0) ((n : ℝ) / d * (2 : ℝ) ^ e) := by
  have hpos : (0 : ℝ) < d := by exact_mod_cast Nat.pos_of_ne_zero hd
  have hunit : (0 : ℝ) < (2 : ℝ) ^ e := zpow_pos (by norm_num) _
  have hdecomp : (n : ℝ) = (n / d : Nat) * d + (n % d : Nat) := by exact_mod_cast (Nat.div_add_mod' n d).symm
  have hrest : ((n % d : Nat) : ℝ) < d := by exact_mod_cast Nat.mod_lt _ (Nat.pos_of_ne_zero hd)
  by_cases hexact : n % d = 0
  · refine .inl ⟨by simp [hexact], ?_⟩
    rw [hdecomp, hexact, Nat.cast_zero, add_zero, mul_div_cancel_right₀ _ hpos.ne']
  · have hmore : (0 : ℝ) < (n % d : Nat) := by exact_mod_cast Nat.pos_of_ne_zero hexact
    refine .inr ⟨by simp [hexact], hbits, mul_lt_mul_of_pos_right ?_ hunit, mul_lt_mul_of_pos_right ?_ hunit⟩
    · rw [lt_div_iff₀ hpos]
      linarith
    · rw [div_lt_iff₀ hpos]
      linarith

/-- The quotient of two numbers of FP32, as the divider gives it to be rounded. -/
theorem quotient_given {ma mb : Nat} {ea eb : Int} (ha : ma ≠ 0) (hb : mb ≠ 0) (hsize : mb < 2 ^ 24) :
    f32.Given (ma * 2 ^ 64 / mb) (ea - eb - 64) (ma * 2 ^ 64 % mb != 0) (ma * (2 : ℝ) ^ ea / (mb * (2 : ℝ) ^ eb)) := by
  have hpos : (0 : ℝ) < mb := by exact_mod_cast Nat.pos_of_ne_zero hb
  have hvalue : ma * (2 : ℝ) ^ ea / (mb * (2 : ℝ) ^ eb) = ((ma * 2 ^ 64 : Nat) : ℝ) / mb * (2 : ℝ) ^ (ea - eb - 64) := by
    have h64 : (2 : ℝ) ^ (64 : Int) = ((2 ^ 64 : Nat) : ℝ) := by norm_num
    have hpower : ((2 ^ 64 : Nat) : ℝ) ≠ 0 := by norm_num
    rw [zpow_sub₀ (by norm_num : (2 : ℝ) ≠ 0), zpow_sub₀ (by norm_num : (2 : ℝ) ≠ 0), h64, Nat.cast_mul]
    generalize ((2 ^ 64 : Nat) : ℝ) = c at hpower
    field_simp
  have hbits : 2 ^ f32.prec ≤ ma * 2 ^ 64 / mb := by
    rw [Nat.le_div_iff_mul_le (Nat.pos_of_ne_zero hb)]
    calc 2 ^ f32.prec * mb ≤ 2 ^ 24 * 2 ^ 24 := Nat.mul_le_mul_left _ hsize.le
      _ ≤ 1 * 2 ^ 64 := by decide
      _ ≤ ma * 2 ^ 64 := Nat.mul_le_mul_right _ (Nat.pos_of_ne_zero ha)
  rw [hvalue]
  exact ratio_given hb _ hbits

theorem signBit_f32 (neg : Bool) : f32.signBit neg = if neg then 2 ^ 31 else 0 := rfl

/-- A rounded magnitude under its sign. -/
theorem sign_split {r : Nat} (hr : r ≤ f32.infBits) (a b : Bool) :
    (f32.signBit (a != b) + r) % 2 ^ 31 = r ∧ (f32.signBit (a != b) + r) / 2 ^ 31 = (if a = b then 0 else 1) := by
  have hinf : f32.infBits = 0x7F800000 := rfl
  rw [signBit_f32]
  cases a <;> cases b <;> simp <;> omega

theorem sign_inf (a b : Bool) : f32.round (.inf (a != b)) = 0x7F800000 + (if a = b then 0 else 2 ^ 31) := by
  cases a <;> cases b <;> rfl

theorem sign_zero (a b : Bool) : f32.round (.fin (a != b) 0 0) = if a = b then 0 else 2 ^ 31 := by
  cases a <;> cases b <;> rfl

section
variable {x y : Nat} {a b : Bool} {ma mb : Nat} {ea eb : Int}

theorem f32Div_finite (hx : f32.decode x = .fin a ma ea) (hy : f32.decode y = .fin b mb eb) (hb : mb ≠ 0) :
    f32Div x y = f32.signBit (a != b) + f32.roundMag (ma * 2 ^ 64 / mb) (ea - eb - 64) (ma * 2 ^ 64 % mb != 0) := by
  simp only [f32Div, hx, hy, hb, if_false]
  rfl

theorem f32Div_nearest (hx : f32.decode x = .fin a ma ea) (hy : f32.decode y = .fin b mb eb) (hb : mb ≠ 0) :
    Nearest f32 (ma * (2 : ℝ) ^ ea / (mb * (2 : ℝ) ^ eb)) (f32.roundMag (ma * 2 ^ 64 / mb) (ea - eb - 64) (ma * 2 ^ 64 % mb != 0)) := by
  by_cases ha : ma = 0
  · subst ha
    rw [Nat.zero_mul, Nat.zero_div, roundMag_zero, Nat.cast_zero, zero_mul, zero_div]
    exact zero_nearest f32_regular
  · have hgiven := quotient_given (ea := ea) (eb := eb) ha hb (f32_decode_mant hy)
    have hquot : ma * 2 ^ 64 / mb ≠ 0 := by
      have hsize := f32_decode_mant hy
      have hmb := Nat.pos_of_ne_zero hb
      exact (Nat.div_pos (hsize.le.trans (by omega)) hmb).ne'
    exact roundMag_nearest f32_regular hquot hgiven

theorem isNan_iff (n : Num) : n.isNan = true ↔ n = .nan := by
  cases n <;> simp [Num.isNan]

theorem f32Div_nan (h : (f32.decode x).isNan = true ∨ (f32.decode y).isNan = true) : f32Div x y = 0x7FC00000 := by
  rw [isNan_iff, isNan_iff] at h
  unfold f32Div
  rcases h with h | h
  · rw [h]
    rfl
  · rw [h]
    cases f32.decode x <;> rfl

end

/-- FDIV is Table 5 of R133's quotient. -/
theorem f32Div_quotient (x y : Nat) : Quotient x y (f32Div x y) := by
  refine ⟨fun nx mx ex ny my ey hx hy => ⟨fun hmy => ?_, fun hmy hmx => ?_, fun hmy hmx => ?_⟩, f32Div_nan, fun nx ny hx hy => ?_,
    fun nx ny my ey hx hy => ?_, fun nx mx ex ny hx hy => ?_⟩
  · obtain ⟨hmag, hsign⟩ := sign_split (roundMag_le f32_regular _) nx ny
    rw [f32Div_finite hx hy hmy, hmag]
    exact ⟨f32Div_nearest hx hy hmy, hsign⟩
  · simp only [f32Div, hx, hy, hmy, hmx, if_true]
    rfl
  · simp only [f32Div, hx, hy, hmy, hmx, if_true, if_false, sign_inf]
  · simp only [f32Div, hx, hy]
    rfl
  · simp only [f32Div, hx, hy, sign_inf]
  · simp only [f32Div, hx, hy, sign_zero]

/-! Roots (R134). -/

/-- The root by bits is the integer square root. -/
theorem isqrtFrom_bounds {n k r : Nat} (hlow : r * r ≤ n) (hhigh : n < (r + 2 ^ k) * (r + 2 ^ k)) :
    isqrtFrom n k r * isqrtFrom n k r ≤ n ∧ n < (isqrtFrom n k r + 1) * (isqrtFrom n k r + 1) := by
  induction k generalizing r with
  | zero => exact ⟨hlow, hhigh⟩
  | succ k ih =>
    unfold isqrtFrom
    split
    · rename_i hbit
      refine ih hbit ?_
      rw [Nat.add_assoc, ← Nat.two_mul, ← Nat.pow_succ']
      exact hhigh
    · exact ih hlow (by omega)

theorem isqrt_bounds (n : Nat) : isqrt n * isqrt n ≤ n ∧ n < (isqrt n + 1) * (isqrt n + 1) := by
  refine isqrtFrom_bounds (Nat.zero_le n) ?_
  rw [Nat.zero_add, ← Nat.pow_add]
  exact Nat.lt_log2_self.trans_le (Nat.pow_le_pow_right (by decide) (by omega))

/-- A number whose square is not above `n` is not above its root. -/
theorem le_isqrt {c n : Nat} (h : c * c ≤ n) : c ≤ isqrt n := by
  by_contra hlt
  have hsq : (isqrt n + 1) * (isqrt n + 1) ≤ c * c := Nat.mul_le_mul (Nat.not_le.mp hlt) (Nat.not_le.mp hlt)
  exact absurd ((isqrt_bounds n).2.trans_le (hsq.trans h)) (Nat.lt_irrefl n)

/-- A whole root and whether its square falls short are what the root of a number gives to be rounded. -/
theorem root_given {f : Fmt} {r : Nat} {y : ℝ} {sticky : Bool} (e : Int) (hbits : 2 ^ f.prec ≤ r) (hlow : (r : ℝ) * r ≤ y)
    (hhigh : y < ((r : ℝ) + 1) * (r + 1)) (hsticky : sticky = false ↔ (r : ℝ) * r = y) : f.Given r e sticky (Real.sqrt y * (2 : ℝ) ^ e) := by
  have hr : (0 : ℝ) ≤ r := Nat.cast_nonneg r
  have hunit : (0 : ℝ) < (2 : ℝ) ^ e := zpow_pos (by norm_num) _
  cases hs : sticky with
  | false =>
    refine .inl ⟨rfl, ?_⟩
    rw [← hsticky.mp hs, Real.sqrt_mul_self hr]
  | true =>
    have hless : (r : ℝ) * r < y := lt_of_le_of_ne hlow (fun heq => by rw [hsticky.mpr heq] at hs; exact absurd hs (by decide))
    refine .inr ⟨rfl, hbits, mul_lt_mul_of_pos_right ?_ hunit, mul_lt_mul_of_pos_right ?_ hunit⟩
    · exact Real.lt_sqrt_of_sq_lt (by rw [sq]; exact hless)
    · rw [Real.sqrt_lt' (by linarith), sq]
      exact hhigh

theorem sqrt_scale (y : ℝ) (k : Int) : Real.sqrt (y * (2 : ℝ) ^ (2 * k)) = Real.sqrt y * (2 : ℝ) ^ k := by
  have hunit : (0 : ℝ) ≤ (2 : ℝ) ^ k := zpow_nonneg (by norm_num) _
  rw [two_mul, zpow_add₀ (by norm_num : (2 : ℝ) ≠ 0), Real.sqrt_mul' _ (mul_nonneg hunit hunit), Real.sqrt_mul_self hunit]

/-- An exponent is twice its half, and its last bit. -/
theorem exponent_split (e : Int) : ∃ (h : Int) (odd : Nat), odd = (e % 2).toNat ∧ odd ≤ 1 ∧ e = 2 * h + odd :=
  ⟨e / 2, (e % 2).toNat, rfl, by omega, by omega⟩

section
variable {x m : Nat} {e : Int}

theorem f32Sqrt_finite (hx : f32.decode x = .fin false m e) (hm : m ≠ 0) :
    f32Sqrt x = f32.roundMag (isqrt (m * 2 ^ (64 + (e % 2).toNat))) ((e - (e % 2).toNat - 64) / 2)
      (isqrt (m * 2 ^ (64 + (e % 2).toNat)) * isqrt (m * 2 ^ (64 + (e % 2).toNat)) != m * 2 ^ (64 + (e % 2).toNat)) := by
  simp only [f32Sqrt, hx, hm, if_false, Bool.false_eq_true, Fmt.roundSticky, signBit_f32, Nat.zero_add]

theorem f32Rsq_finite (hx : f32.decode x = .fin false m e) (hm : m ≠ 0) :
    f32Rsq x = f32.roundMag (isqrt (2 ^ 160 / (m * 2 ^ (e % 2).toNat))) (-80 - (e - (e % 2).toNat) / 2)
      (isqrt (2 ^ 160 / (m * 2 ^ (e % 2).toNat)) * isqrt (2 ^ 160 / (m * 2 ^ (e % 2).toNat)) * (m * 2 ^ (e % 2).toNat) != 2 ^ 160) := by
  simp only [f32Rsq, hx, hm, if_false, Bool.false_eq_true, Fmt.roundSticky, signBit_f32, Nat.zero_add]

theorem f32Sqrt_nearest (hx : f32.decode x = .fin false m e) (hm : m ≠ 0) : Nearest f32 (Real.sqrt (m * (2 : ℝ) ^ e)) (f32Sqrt x) := by
  obtain ⟨h, odd, hodd, hle, he⟩ := exponent_split e
  rw [f32Sqrt_finite hx hm, ← hodd]
  have hexp : (e - odd - 64) / 2 = h - 32 := by omega
  have hvalue : (m : ℝ) * (2 : ℝ) ^ e = ((m * 2 ^ (64 + odd) : Nat) : ℝ) * (2 : ℝ) ^ (2 * (h - 32)) := by
    push_cast
    rw [mul_assoc, ← zpow_natCast, ← zpow_add₀ (by norm_num : (2 : ℝ) ≠ 0), he]
    congr 2
    push_cast
    ring
  rw [hexp, hvalue, sqrt_scale]
  have hbig : 2 ^ 24 * 2 ^ 24 ≤ m * 2 ^ (64 + odd) := by
    calc 2 ^ 24 * 2 ^ 24 ≤ 1 * 2 ^ 64 := by decide
      _ ≤ m * 2 ^ (64 + odd) := Nat.mul_le_mul (Nat.pos_of_ne_zero hm) (Nat.pow_le_pow_right (by decide) (Nat.le_add_right _ _))
  generalize m * 2 ^ (64 + odd) = n at hbig ⊢
  obtain ⟨hlow, hhigh⟩ := isqrt_bounds n
  have hbits : 2 ^ 24 ≤ isqrt n := le_isqrt hbig
  have hgiven := root_given (f := f32) (sticky := isqrt n * isqrt n != n) (y := (n : ℝ)) (h - 32) hbits (by exact_mod_cast hlow) (by exact_mod_cast hhigh)
    (by rw [bne_eq_false_iff_eq]; exact_mod_cast Iff.rfl)
  exact roundMag_nearest f32_regular (by omega) hgiven

theorem f32Rsq_nearest (hx : f32.decode x = .fin false m e) (hm : m ≠ 0) : Nearest f32 (1 / Real.sqrt (m * (2 : ℝ) ^ e)) (f32Rsq x) := by
  obtain ⟨h, odd, hodd, hle, he⟩ := exponent_split e
  rw [f32Rsq_finite hx hm, ← hodd]
  have hexp : -80 - (e - odd) / 2 = -80 - h := by omega
  have hsize := f32_decode_mant hx
  have hd : 0 < m * 2 ^ odd := Nat.mul_pos (Nat.pos_of_ne_zero hm) (Nat.two_pow_pos _)
  have hsmall : m * 2 ^ odd ≤ 2 ^ 24 * 2 ^ 1 := Nat.mul_le_mul hsize.le (Nat.pow_le_pow_right (by decide) hle)
  have hvalue : 1 / Real.sqrt (m * (2 : ℝ) ^ e) = Real.sqrt ((2 : ℝ) ^ 160 / (m * 2 ^ odd : Nat)) * (2 : ℝ) ^ (-80 - h) := by
    rw [← sqrt_scale, ← Real.sqrt_one, ← Real.sqrt_div zero_le_one]
    congr 1
    have hexp2 : 2 * (-80 - h) = -(160 : Nat) - 2 * h := by push_cast; ring
    rw [hexp2, zpow_sub₀ (by norm_num : (2 : ℝ) ≠ 0), zpow_neg, zpow_natCast, he, zpow_add₀ (by norm_num : (2 : ℝ) ≠ 0), zpow_natCast]
    push_cast
    field_simp
  rw [hexp, hvalue]
  generalize m * 2 ^ odd = d at hd hsmall ⊢
  obtain ⟨hlow, hhigh⟩ := isqrt_bounds (2 ^ 160 / d)
  have hbits : 2 ^ 24 ≤ isqrt (2 ^ 160 / d) := le_isqrt ((Nat.le_div_iff_mul_le hd).mpr (by omega))
  rw [Nat.le_div_iff_mul_le hd] at hlow
  rw [Nat.div_lt_iff_lt_mul hd] at hhigh
  generalize isqrt (2 ^ 160 / d) = r at hlow hhigh hbits ⊢
  have hdpos : (0 : ℝ) < d := by exact_mod_cast hd
  have hgiven := root_given (f := f32) (sticky := r * r * d != 2 ^ 160) (y := (2 : ℝ) ^ 160 / d) (-80 - h) hbits
    (by rw [le_div_iff₀ hdpos]; exact_mod_cast hlow) (by rw [div_lt_iff₀ hdpos]; exact_mod_cast hhigh)
    (by rw [bne_eq_false_iff_eq, eq_div_iff hdpos.ne']; exact_mod_cast Iff.rfl)
  exact roundMag_nearest f32_regular (by omega) hgiven

end

/-- Settles O3: the rounding picks the nearer of two neighbours; quotients and roots give it a whole part and a sticky one. -/
theorem roundsToNearest : Obligations.RoundsToNearest := by
  unfold Obligations.RoundsToNearest
  refine ⟨fun f hf mant exp => ⟨?_, fun x hbits hlow hhigh => ?_⟩, fun x y => f32Div_quotient _ _,
    fun x m e hx hm => ⟨f32Sqrt_nearest hx hm, f32Rsq_nearest hx hm⟩, fun x m e hx hm => ⟨?_, ?_⟩⟩
  · by_cases hm : mant = 0
    · subst hm
      rw [roundMag_zero, Nat.cast_zero, zero_mul]
      exact zero_nearest (regular_of_mem hf)
    · exact roundMag_nearest (regular_of_mem hf) hm (.inl ⟨rfl, rfl⟩)
  · have hpos : mant ≠ 0 := by
      have := Nat.two_pow_pos f.prec
      omega
    exact roundMag_nearest (regular_of_mem hf) hpos (.inr ⟨rfl, hbits, hlow, hhigh⟩)
  · simp only [f32Sqrt, hx, hm, if_false, if_true]
    rfl
  · simp only [f32Rsq, hx, hm, if_false, if_true]
    rfl

end Sys2Proof.Machine

end

section
/-! SUPPORT. Statement O10: what a trap does to the instruction that a thread is held at. Only the issue that holds a thread says at which
one (R115, R175); every access that performs, and every trap, leaves it as it was or takes it away. -/

namespace Sys2Proof.Machine

/-- Every thread of `t` was there in `s`, and is held at the instruction that it was held at, or at none. -/
def HoldsKept (s t : State) : Prop :=
  ∀ c w k v, t.threadOf c w k = some v → ∃ u, s.threadOf c w k = some u ∧ (v.holdPc = u.holdPc ∨ v.holdPc = none)

/-- A change of a thread that keeps its index and what it is held at, or takes the latter away. -/
def KeepsHold (f : Thread → Thread) : Prop := ∀ t, (f t).tid = t.tid ∧ ((f t).holdPc = t.holdPc ∨ (f t).holdPc = none)

/-- A change of a workgroup that keeps its number and its threads so. -/
def WgKeepsHold (f : Workgroup → Workgroup) : Prop :=
  ∀ w, (f w).ctx = w.ctx ∧ (f w).wg = w.wg ∧ ∀ k v, (f w).thread k = some v → ∃ u, w.thread k = some u ∧ (v.holdPc = u.holdPc ∨ v.holdPc = none)

theorem WgKeepsHold.same {f : Workgroup → Workgroup} (h : ∀ w, (f w).ctx = w.ctx ∧ (f w).wg = w.wg ∧ (f w).threads = w.threads) : WgKeepsHold f := by
  intro w
  obtain ⟨hctx, hwg, hthreads⟩ := h w
  refine ⟨hctx, hwg, fun k v hv => ⟨v, ?_, .inl rfl⟩⟩
  rwa [Workgroup.thread, hthreads] at hv

theorem find_map_tid {ts : List Thread} {f : Thread → Thread} (hf : KeepsHold f) (k : Nat) {v : Thread}
    (hv : (ts.map f).find? (fun t => t.tid == k) = some v) :
    ∃ u, ts.find? (fun t => t.tid == k) = some u ∧ (v.holdPc = u.holdPc ∨ v.holdPc = none) := by
  have hfind := find_map_if ts (fun t => t.tid == k) (fun _ => true) f (fun t => by rw [(hf t).1])
  simp only [if_true] at hfind
  rw [hfind] at hv
  obtain ⟨u, hu, rfl⟩ := Option.map_eq_some_iff.mp hv
  exact ⟨u, hu, (hf u).2⟩

/-- A change of every thread of a workgroup. -/
theorem WgKeepsHold.threads {f : Workgroup → Workgroup} {h : Workgroup → Thread → Thread} (hh : ∀ w, KeepsHold (h w))
    (hf : ∀ w, (f w).ctx = w.ctx ∧ (f w).wg = w.wg ∧ (f w).threads = w.threads.map (h w)) : WgKeepsHold f := by
  intro w
  obtain ⟨hctx, hwg, hthreads⟩ := hf w
  refine ⟨hctx, hwg, fun k v hv => ?_⟩
  rw [Workgroup.thread, hthreads] at hv
  exact find_map_tid (hh w) k hv

theorem WgKeepsHold.modThread (k : Nat) {f : Thread → Thread} (hf : KeepsHold f) : WgKeepsHold (fun w => w.modThread k f) :=
  WgKeepsHold.threads (h := fun _ t => if t.tid == k then f t else t)
    (fun _ t => by simp only; split; exacts [hf t, ⟨rfl, .inl rfl⟩]) (fun _ => ⟨rfl, rfl, rfl⟩)

theorem WgKeepsHold.noteWrite (lo hi : Nat) : WgKeepsHold (Workgroup.noteWrite lo hi) := by
  refine WgKeepsHold.threads (h := fun w t => if w.threads.any (fun t => !t.watches.isEmpty) then t.noteWrite lo hi else t) (fun w t => ?_) (fun w => ?_)
  · simp only
    split
    · unfold Thread.noteWrite
      split <;> exact ⟨rfl, .inl rfl⟩
    · exact ⟨rfl, .inl rfl⟩
  · unfold Workgroup.noteWrite
    split
    · exact ⟨rfl, rfl, rfl⟩
    · exact ⟨rfl, rfl, (List.map_id _).symm⟩

theorem WgKeepsHold.stopped : WgKeepsHold Workgroup.stopped :=
  WgKeepsHold.threads (h := fun _ t => { t with status := .exited, results := [], watches := [] }) (fun _ _ => ⟨rfl, .inl rfl⟩)
    (fun _ => ⟨rfl, rfl, rfl⟩)

namespace HoldsKept

theorem refl (s : State) : HoldsKept s s := fun _ _ _ v hv => ⟨v, hv, .inl rfl⟩

theorem trans {s t r : State} (h : HoldsKept s t) (h' : HoldsKept t r) : HoldsKept s r := by
  intro c w k x hx
  obtain ⟨v, hv, hxv⟩ := h' c w k x hx
  obtain ⟨u, hu, hvu⟩ := h c w k v hv
  refine ⟨u, hu, ?_⟩
  rcases hxv with hxv | hxv
  · rwa [hxv]
  · exact .inr hxv

variable {s t : State}

theorem congr (h : HoldsKept s t) {r : State} (hr : r.wgs = t.wgs) : HoldsKept s r :=
  h.trans (fun c w k v hv => ⟨v, by rwa [← State.threadOf_congr hr c w k], .inl rfl⟩)

theorem mapWgs (h : HoldsKept s t) {r : State} {f : Workgroup → Workgroup} (hf : WgKeepsHold f) (hr : r.wgs = t.wgs.map f) : HoldsKept s r := by
  refine h.trans (fun c w k v hv => ?_)
  have hfind := find_map_if t.wgs (fun x => x.ctx == c && x.wg == w) (fun _ => true) f (fun x => by rw [(hf x).1, (hf x).2.1])
  simp only [if_true] at hfind
  rw [State.threadOf, State.wgOf, hr, hfind] at hv
  obtain ⟨y, hy, hyv⟩ := Option.bind_eq_some_iff.mp hv
  obtain ⟨x, hx, rfl⟩ := Option.map_eq_some_iff.mp hy
  obtain ⟨u, hu, hkept⟩ := (hf x).2.2 k v hyv
  exact ⟨u, by rw [State.threadOf, State.wgOf, hx, Option.bind_some, hu], hkept⟩

theorem modWg (h : HoldsKept s t) (c w : Nat) {f : Workgroup → Workgroup} (hf : WgKeepsHold f) : HoldsKept s (t.modWg c w f) := by
  refine h.mapWgs (f := fun x => if x.ctx == c && x.wg == w then f x else x) (fun x => ?_) rfl
  simp only
  split
  · exact hf x
  · exact ⟨rfl, rfl, fun _ v hv => ⟨v, hv, .inl rfl⟩⟩

theorem modThread (h : HoldsKept s t) (c w k : Nat) {f : Thread → Thread} (hf : KeepsHold f) : HoldsKept s (t.modThread c w k f) :=
  h.modWg c w (.modThread k hf)

theorem foldl {α : Type} {f : State → α → State} (hf : ∀ t a, HoldsKept t (f t a)) (xs : List α) (h : HoldsKept s t) :
    HoldsKept s (xs.foldl f t) := by
  induction xs generalizing t with
  | nil => exact h
  | cons x xs ih => exact ih (h.trans (hf t x))

/-! Writes of bytes, which watches note (R166). -/

theorem writeHome (h : HoldsKept s t) (key : Nat) (bs : List Byte) : HoldsKept s (t.writeHome key bs) := h.mapWgs (.noteWrite _ _) rfl
theorem writeBank (h : HoldsKept s t) (core off : Nat) (bs : List Byte) : HoldsKept s (t.writeBank core off bs) := h.mapWgs (.noteWrite _ _) rfl

theorem writePhys (h : HoldsKept s t) (die pa : Nat) (bs : List Byte) : HoldsKept s (t.writePhys die pa bs) := by
  have hruns : ∀ (rs : List (Nat × Nat)) (t : State), HoldsKept t { t with wgs := rs.foldl (fun ws r => ws.map (Workgroup.noteWrite r.1 (r.1 + (r.2 - 1)))) t.wgs } := by
    intro rs
    induction rs with
    | nil => exact fun t => refl t
    | cons r rs ih =>
      exact fun t => ((refl t).mapWgs (r := { t with wgs := t.wgs.map (Workgroup.noteWrite r.1 (r.1 + (r.2 - 1))) }) (.noteWrite _ _) rfl).trans (ih _)
  exact (h.trans (hruns (t.physRuns die (bs.length / 4096 + 2) pa bs.length) t)).congr rfl

/-! What a thread's own access leaves in it. -/

theorem drop (h : HoldsKept s t) (a : Access) : HoldsKept s (t.drop a) := h.congr rfl

theorem answer (h : HoldsKept s t) (a : Access) (v : List (Option Word)) : HoldsKept s (t.answer a v) := by
  unfold State.answer
  split
  · exact h
  · exact h.modThread _ _ _ (fun _ => ⟨rfl, .inl rfl⟩)

theorem loaded (h : HoldsKept s t) (a : Access) (signed : Bool) (words : Nat) (bs : List Byte) : HoldsKept s (t.loaded a signed words bs) :=
  (h.drop a).answer a _

theorem stale (h : HoldsKept s t) (a : Access) (zeros : Nat) : HoldsKept s (t.stale a zeros) := by
  unfold State.stale
  simp only
  split
  · exact (h.drop a).answer a _
  · exact ((h.drop a).answer a _).modThread _ _ _ (fun _ => ⟨rfl, .inl rfl⟩)

theorem follow (h : HoldsKept s t) (ctx wg tid : Nat) (xs : List Access) : HoldsKept s (t.follow ctx wg tid xs) := by
  simp only [State.follow]
  split
  · exact h
  · exact h.modThread _ _ _ (fun _ => ⟨rfl, .inl rfl⟩)

theorem sawNear (h : HoldsKept s t) (a : Access) : HoldsKept s (t.sawNear a) := h.follow _ _ _ _

/-! The end of a launch, and of a workgroup. -/

theorem stopWg (h : HoldsKept s t) (ctx wg : Nat) : HoldsKept s (t.stopWg ctx wg) :=
  (h.modWg ctx wg .stopped).congr (State.stopWg_wgs t ctx wg)

theorem stopWgs (h : HoldsKept s t) (ctx : Nat) (ws : List Nat) : HoldsKept s (ws.foldl (fun s w => s.stopWg ctx w) t) :=
  foldl (fun t w => (refl t).stopWg ctx w) ws h

theorem modLaunch (h : HoldsKept s t) (ctx : Nat) (f : Launch → Launch) : HoldsKept s (t.modLaunch ctx f) :=
  h.congr (State.modLaunch_wgs t ctx f)

theorem breach (h : HoldsKept s t) (ctx party cause site die : Nat) (lost : Bool) : HoldsKept s (t.breach ctx party cause site die lost) :=
  h.congr (State.breach_wgs t ctx party cause site die lost)

theorem stopLaunch (h : HoldsKept s t) (ctx : Nat) : HoldsKept s (t.stopLaunch ctx) := by
  rw [State.stopLaunch]
  exact modLaunch (congr h (by rfl)) ctx _

theorem stopOthers (h : HoldsKept s t) (ctx wg : Nat) : HoldsKept s (t.stopOthers ctx wg) := (h.stopWgs ctx _).stopLaunch ctx

theorem callerEnds (h : HoldsKept s t) (ctx cause : Nat) : HoldsKept s (t.callerEnds ctx cause) := by
  rw [State.callerEnds]
  split
  · exact h
  · refine HoldsKept.breach ?_ _ _ _ _ _ _
    refine HoldsKept.modLaunch ?_ _ _
    refine HoldsKept.stopLaunch ?_ _
    refine HoldsKept.stopWgs h _ _

theorem callerFault (h : HoldsKept s t) (ctx : Nat) : HoldsKept s (t.callerFault ctx) := by
  rw [State.callerFault]
  exact h.callerEnds ctx 32

theorem writeWords (h : HoldsKept s t) (die pa : Nat) (ws : List Nat) : HoldsKept s (t.writeWords die pa ws) := by
  rw [State.writeWords]
  exact h.writePhys _ _ _

theorem writeTrapRecord (h : HoldsKept s t) (ctx wg tid code operand pc : Nat) : HoldsKept s (t.writeTrapRecord ctx wg tid code operand pc) := by
  rw [State.writeTrapRecord]
  split
  · split
    · exact (h.writeWords _ _ _).modLaunch ctx _
    · exact h.modLaunch ctx _
  · exact h

theorem endByRecord (h : HoldsKept s t) (ctx wg tid code operand pc : Nat) : HoldsKept s (t.endByRecord ctx wg tid code operand pc) := by
  have hstopped := fun f => ((h.writeTrapRecord ctx wg tid code operand pc).stopWg ctx wg).modLaunch ctx f
  unfold State.endByRecord
  simp only
  split
  · exact hstopped _
  · split
    · exact hstopped _
    · exact (hstopped _).stopOthers ctx wg

end HoldsKept

/-! What of an access that performs leaves the workgroups as they are: lines, copies and pages. -/

theorem State.foldl_wgs {α : Type} {f : State → α → State} (hf : ∀ s a, (f s a).wgs = s.wgs) (xs : List α) (s : State) :
    (xs.foldl f s).wgs = s.wgs := by
  induction xs generalizing s with
  | nil => rfl
  | cons x xs ih => exact (ih _).trans (hf s x)

theorem State.l1Insert_wgs (s : State) (core : Nat) (x : L1Line) : (s.l1Insert core x).wgs = s.wgs := by
  simp only [State.l1Insert]
  split
  · exact State.modCore_wgs _ _ _
  · split
    · exact State.modCore_wgs _ _ _
    · rw [State.modCore_wgs]
      rfl

theorem State.victimHit_wgs (s : State) (core ctx vline : Nat) : (s.victimHit core ctx vline).wgs = s.wgs := by
  unfold State.victimHit
  split
  · exact State.modCore_wgs _ _ _
  · rfl

theorem State.l1Put_wgs (s : State) (core key : Nat) (bs : List Byte) : (s.l1Put core key bs).wgs = s.wgs := by
  unfold State.l1Put
  split
  · rfl
  · exact State.modCore_wgs _ _ _

theorem State.l1Follow_wgs (s : State) (core key : Nat) (bs : List Byte) : (s.l1Follow core key bs).wgs = s.wgs := State.l1Put_wgs _ _ _ _

theorem State.l1Line_wgs {s : State} {core : Nat} {l : Launch} {va : Nat} {r : State × L1Line} (h : s.l1Line core l va = some r) :
    r.1.wgs = s.wgs := by
  simp only [State.l1Line] at h
  split at h
  · obtain rfl := Option.some.inj h
    exact State.modCore_wgs _ _ _
  · split at h
    · exact absurd h (by simp)
    · split at h
      · obtain rfl := Option.some.inj h
        exact (State.l1Insert_wgs _ _ _).trans ((State.modCore_wgs _ _ _).trans (State.victimHit_wgs _ _ _ _))
      · split at h
        · exact absurd h (by simp)
        · obtain rfl := Option.some.inj h
          exact (State.l1Insert_wgs _ _ _).trans (State.victimHit_wgs _ _ _ _)

theorem State.privLine_wgs (s : State) (core : Nat) (l : Launch) (backing : Nat) : (s.privLine core l backing).1.wgs = s.wgs := by
  simp only [State.privLine]
  split
  · exact State.modCore_wgs _ _ _
  · exact (State.l1Insert_wgs _ _ _).trans (State.victimHit_wgs _ _ _ _)

theorem State.privRead_wgs (s : State) (core : Nat) (l : Launch) (base size tid n x : Nat) :
    (s.privRead core l base size tid n x).2.wgs = s.wgs := by
  induction n generalizing s x with
  | zero => rfl
  | succ n ih => exact (ih _ _).trans (State.privLine_wgs _ _ _ _)

theorem State.privWrite_wgs (s : State) (core : Nat) (l : Launch) (base size tid x : Nat) (vs : List Byte) :
    (s.privWrite core l base size tid x vs).wgs = s.wgs := by
  induction vs generalizing s x with
  | nil => rfl
  | cons v vs ih => exact (ih _ _).trans ((State.modCore_wgs _ _ _).trans (State.privLine_wgs _ _ _ _))

theorem State.readSector_wgs (s : State) (path : Path) (owner sector : Nat) (source : Nat → List Byte) :
    (s.readSector path owner sector source).2.wgs = s.wgs := by
  simp only [State.readSector]
  split
  · rfl
  · split
    · rfl
    · split <;> rfl

theorem State.readCopies_wgs (s : State) (path : Path) (owner : Nat) (fresh : State → Nat → List Byte) (k key n : Nat) :
    (s.readCopies path owner fresh k key n).2.wgs = s.wgs := by
  induction k generalizing s key n with
  | zero => rfl
  | succ k ih =>
    simp only [State.readCopies]
    split
    · rfl
    · exact (ih _ _ _).trans (State.readSector_wgs _ _ _ _ _)

theorem State.readPath_wgs {s : State} {path : Path} {owner : Nat} {l : Launch} {va n : Nat} {r : List Byte × State}
    (h : s.readPath path owner l va n = some r) : r.2.wgs = s.wgs := by
  unfold State.readPath at h
  split at h
  · exact absurd h (by simp)
  · obtain rfl := Option.some.inj h
    exact State.readCopies_wgs _ _ _ _ _ _ _

theorem State.polderTouch_wgs {s t : State} {l : Launch} {va : Nat} (h : s.polderTouch l va = .done t) : t.wgs = s.wgs := by
  simp only [State.polderTouch] at h
  split at h
  · exact absurd h (by simp)
  · rcases s.polderAlloc_cases l va with ⟨_, hcase⟩ | ⟨r, _, ⟨_, hcase⟩ | ⟨_, hcase⟩ | ⟨_, ⟨_, hcase⟩ | ⟨_, _, hcase⟩ | ⟨_, _, hcase⟩⟩⟩
    all_goals
      rw [hcase] at h
      cases h
    all_goals rfl

theorem State.movePages_wgs (s : State) (ctx : Nat) (r : Region) (pages : List Nat) (target : Nat) : (s.movePages ctx r pages target).wgs = s.wgs := by
  rw [State.movePages, State.foldl_wgs (f := fun s pg => s.setPolderPage ctx pg (.moved target)) (fun _ _ => rfl)]
  rfl

theorem State.moveRange_wgs (s : State) (l : Launch) (addr n target : Nat) : (s.moveRange l addr n target).wgs = s.wgs := by
  rw [State.moveRange, State.foldl_wgs (fun _ _ => State.movePages_wgs _ _ _ _ _)]

theorem State.closeBin_wgs (s : State) (k : Nat) (b : Bin) : (s.closeBin k b).wgs = s.wgs := by rw [State.closeBin_eq]

theorem State.closeDue_wgs (s : State) (k time : Nat) : (s.closeDue k time).wgs = s.wgs :=
  State.foldl_wgs (fun _ _ => State.closeBin_wgs _ _ _) _ s

theorem State.writeDieRegister_wgs (s : State) (index : Nat) (v : Word) : (s.writeDieRegister index v).wgs = s.wgs := by
  simp only [State.writeDieRegister]
  split
  · split <;> rfl
  · split <;> rfl
  · split <;> rfl
  · rfl
  · rfl

end Sys2Proof.Machine

end

section
/-! SUPPORT. Statement O10: every access that performs (R150-R244), and so every drain of a thread's run (R61), leaves each thread held where
it was. -/

namespace Sys2Proof.Machine

/-- What an access leaves as it performs keeps what threads are held at. -/
def PerformKeeps (s : State) (p : Performed) : Prop := ∀ t, p = .done t → HoldsKept s t

namespace PerformKeeps

variable {s t : State}

theorem wait : PerformKeeps s .wait := fun _ h => by cases h
theorem breach (t : State) : PerformKeeps s (.breach t) := fun _ h => by cases h
theorem done (h : HoldsKept s t) : PerformKeeps s (.done t) := fun _ ht => by cases ht; exact h

end PerformKeeps

variable (s : State) (a : Access)

theorem HoldsKept.ofWgs {s t : State} (h : t.wgs = s.wgs) : HoldsKept s t := (HoldsKept.refl s).congr h

theorem HoldsKept.free {s t : State} (h : HoldsKept s t) (n : Nat) : HoldsKept s { t with free := n } := h.congr rfl

theorem dropKeeps : PerformKeeps s (.done (s.drop a)) := .done ((HoldsKept.refl s).drop a)

theorem State.performLoad_keeps (signed : Bool) (words : Nat) : PerformKeeps s (s.performLoad a signed words) := by
  simp only [State.performLoad]
  split
  · exact dropKeeps s a
  · split
    · exact dropKeeps s a
    · split
      · exact .done ((HoldsKept.refl s).loaded a signed words _)
      · exact .done ((HoldsKept.refl s).stale a words)
    · split
      · exact dropKeeps s a
      · exact .done ((HoldsKept.ofWgs (State.privRead_wgs _ _ _ _ _ _ _ _)).loaded a signed words _)
    · split
      · exact .wait
      · exact .breach _
      · rename_i htouch
        have htouched := HoldsKept.ofWgs (State.polderTouch_wgs htouch)
        split
        · split
          · exact .wait
          · split
            · exact .done (htouched.callerFault a.ctx)
            · refine .done (HoldsKept.loaded (HoldsKept.free (HoldsKept.modThread ?_ _ _ _ ?_) _) a signed words _)
              · exact htouched.congr (State.l1Follow_wgs _ _ _ _)
              · exact fun _ => ⟨rfl, .inl rfl⟩
        · split
          · exact .done (htouched.callerFault a.ctx)
          · rename_i hread
            exact .done ((htouched.congr (State.readPath_wgs hread)).loaded a signed words _)
        · split
          · rename_i hline
            exact .done (((htouched.congr (State.l1Line_wgs hline)).sawNear a).loaded a signed words _)
          · split
            · exact .done (htouched.callerFault a.ctx)
            · exact .wait

theorem State.performMon_keeps : PerformKeeps s (s.performMon a) := by
  simp only [State.performMon]
  split
  · exact dropKeeps s a
  · split
    · split
      · exact .done ((HoldsKept.refl s).loaded a false 1 _)
      · exact .done ((HoldsKept.refl s).stale a 1)
    · exact dropKeeps s a
    · exact dropKeeps s a
    · split
      · exact .wait
      · exact .breach _
      · rename_i htouch
        have htouched := HoldsKept.ofWgs (State.polderTouch_wgs htouch)
        split
        · exact .wait
        · split
          · exact .done (htouched.callerFault a.ctx)
          · refine .done (HoldsKept.loaded (HoldsKept.congr ?_ (State.l1Follow_wgs _ _ _ _)) a false 1 _)
            exact htouched.free _

theorem HoldsKept.l1Put {s t : State} (h : HoldsKept s t) (core key : Nat) (bs : List Byte) : HoldsKept s (t.l1Put core key bs) :=
  h.congr (State.l1Put_wgs t core key bs)

theorem HoldsKept.l1Follow {s t : State} (h : HoldsKept s t) (core key : Nat) (bs : List Byte) : HoldsKept s (t.l1Follow core key bs) :=
  h.congr (State.l1Follow_wgs t core key bs)

theorem HoldsKept.take {s t : State} (h : HoldsKept s t) : HoldsKept s (t.take a) := h.congr rfl

theorem HoldsKept.goThrough {s t : State} (h : HoldsKept s t) (n : Nat) (release : Bool) : HoldsKept s (t.goThrough a n release) := h.congr rfl

theorem State.performStore_keeps (v : Nat) : PerformKeeps s (s.performStore a v) := by
  simp only [State.performStore]
  split
  · exact dropKeeps s a
  · split
    · exact dropKeeps s a
    · split
      · exact .done (((HoldsKept.refl s).writeBank _ _ _).drop a)
      · exact .done ((HoldsKept.refl s).stale a 0)
    · split
      · exact dropKeeps s a
      · exact .done ((HoldsKept.ofWgs (State.privWrite_wgs _ _ _ _ _ _ _ _)).drop a)
    · split
      · exact .wait
      · exact .breach _
      · rename_i htouch
        have htouched := HoldsKept.ofWgs (State.polderTouch_wgs htouch)
        split
        · exact .done (htouched.callerFault a.ctx)
        · split
          · split
            · exact .wait
            · rename_i hline
              exact .done (((htouched.congr (State.l1Line_wgs hline)).l1Put _ _ _).take a)
          · split
            · exact .wait
            · refine .done (HoldsKept.drop (HoldsKept.writeHome (HoldsKept.free ?_ _) _ _) a)
              split
              · exact htouched.congr (State.victimHit_wgs _ _ _ _)
              · exact htouched

theorem State.performThrough_keeps (v : Nat) : PerformKeeps s (s.performThrough a v) := by
  simp only [State.performThrough]
  split
  · exact dropKeeps s a
  · split
    · exact .wait
    · split
      · exact .wait
      · exact .breach _
      · rename_i htouch
        have htouched := HoldsKept.ofWgs (State.polderTouch_wgs htouch)
        split
        · exact .done (htouched.callerFault a.ctx)
        · exact .done (((htouched.free _).writeHome _ _).drop a)

/-- An atomic at its L1, at its cluster's unit or at its home (R170), once its line has been touched and found. -/
theorem State.performAtomic_keeps (op : AmoOp) (v e : Nat) : PerformKeeps s (s.performAtomic a op v e) := by
  simp only [State.performAtomic]
  split
  · exact dropKeeps s a
  · split
    · exact dropKeeps s a
    · exact dropKeeps s a
    · split
      · refine .done (HoldsKept.answer (HoldsKept.drop ?_ a) a _)
        split
        · exact (HoldsKept.refl s).writeBank _ _ _
        · exact HoldsKept.refl s
      · exact .done ((HoldsKept.refl s).stale a _)
    · split
      · exact .wait
      · exact .breach _
      · rename_i htouch
        have htouched := HoldsKept.ofWgs (State.polderTouch_wgs htouch)
        split
        · exact .done (htouched.callerFault a.ctx)
        · split
          · split
            · exact .wait
            · rename_i hline
              have hseen := (HoldsKept.congr (htouched.free _) (State.l1Line_wgs hline)).sawNear a
              split
              · exact .done (((hseen.l1Put _ _ _).answer a _).goThrough a _ false)
              · exact .done ((hseen.drop a).answer a _)
          · split
            · split
              · exact .wait
              · refine .done ?_
                split
                · exact HoldsKept.goThrough a (HoldsKept.answer (HoldsKept.l1Put (HoldsKept.sawNear (htouched.free _) a) _ _ _) a _) _ false
                · exact HoldsKept.drop (HoldsKept.answer (HoldsKept.l1Put (HoldsKept.sawNear (htouched.free _) a) _ _ _) a _) a
            · split
              · exact .wait
              · split
                · refine .done (HoldsKept.answer ?_ a _)
                  exact htouched.congr rfl
                · refine .done (HoldsKept.answer (HoldsKept.drop (HoldsKept.l1Follow ?_ _ _ _) a) a _)
                  split
                  · exact (htouched.free _).writeHome _ _
                  · exact htouched.free _

theorem State.performDetRed_keeps (op : AmoOp) (v sequence : Nat) : PerformKeeps s (s.performDetRed a op v sequence) := by
  simp only [State.performDetRed]
  split
  · exact dropKeeps s a
  · split
    · exact .wait
    · exact .breach _
    · rename_i htouch
      have htouched := HoldsKept.ofWgs (State.polderTouch_wgs htouch)
      split
      · exact .done (htouched.callerFault a.ctx)
      · split
        · exact .done (htouched.congr rfl)
        · exact .done (HoldsKept.modWg ((htouched.drop a).free _) _ _ (.same (fun _ => ⟨rfl, rfl, rfl⟩)))

/-! Stamped stores commit as writes at their homes (R187). -/

theorem HoldsKept.commitStamps {s t : State} (h : HoldsKept s t) (versions : List (Nat × List Byte)) (xs : List Stamped) :
    HoldsKept s (commitStamps t versions xs).1 := by
  induction xs generalizing t versions with
  | nil => exact h
  | cons x xs ih => exact ih (h.writeHome _ _) _

theorem HoldsKept.commitLine {s t : State} (h : HoldsKept s t) (k : StampLine) : HoldsKept s (t.commitLine k) := by
  simp only [State.commitLine]
  split
  · exact h
  · exact (h.commitStamps _ _).congr rfl

theorem HoldsKept.commitSlice {s t : State} (h : HoldsKept s t) (die slice : Nat) : HoldsKept s (t.commitSlice die slice) :=
  HoldsKept.foldl (fun t k => (HoldsKept.refl t).commitLine k) _ h

theorem State.performStamped_keeps (v stamp : Nat) : PerformKeeps s (s.performStamped a v stamp) := by
  simp only [State.performStamped]
  split
  · exact dropKeeps s a
  · split
    · exact .done ((HoldsKept.refl s).callerFault a.ctx)
    · refine .done (HoldsKept.commitSlice ?_ _ _)
      split <;> exact (HoldsKept.refl s).congr rfl

theorem State.performAsOf_keeps (stamp : Nat) : PerformKeeps s (s.performAsOf a stamp) := by
  simp only [State.performAsOf]
  split
  · exact dropKeeps s a
  · split
    · exact .done ((HoldsKept.refl s).callerFault a.ctx)
    · split
      · exact .done (HoldsKept.answer (HoldsKept.l1Follow (((HoldsKept.refl s).drop a).free _) _ _ _) a _)
      · split
        · exact .done (HoldsKept.answer (HoldsKept.l1Follow (((HoldsKept.refl s).drop a).free _) _ _ _) a _)
        · exact .done (HoldsKept.answer (HoldsKept.l1Follow (((HoldsKept.refl s).drop a).free _) _ _ _) a _)

theorem State.performRelease_keeps : PerformKeeps s (s.performRelease a) := by
  simp only [State.performRelease]
  split
  · exact dropKeeps s a
  · split
    · exact dropKeeps s a
    · split
      · exact .wait
      · split
        · exact .done ((HoldsKept.refl s).callerFault a.ctx)
        · split
          · exact .done (HoldsKept.goThrough _ (HoldsKept.l1Put ((HoldsKept.refl s).free _) _ _ _) _ true)
          · exact .done (((((HoldsKept.refl s).free _).writeHome _ _).l1Follow _ _ _).drop a)

theorem HoldsKept.tileDone {s t : State} (h : HoldsKept s t) (cluster n : Nat) : HoldsKept s (t.tileDone cluster n) := h.congr rfl

theorem State.performTileLoad_keeps (n row off : Nat) : PerformKeeps s (s.performTileLoad a n row off) := by
  simp only [State.performTileLoad]
  split
  · exact .done (((HoldsKept.refl s).drop a).answer a _)
  · refine .done (HoldsKept.tileDone (HoldsKept.answer (HoldsKept.drop ?_ a) a _) _ _)
    exact HoldsKept.ofWgs (State.readCopies_wgs _ _ _ _ _ _ _)

theorem State.performTileStore_keeps (n row off v : Nat) : PerformKeeps s (s.performTileStore a n row off v) := by
  simp only [State.performTileStore]
  refine .done (HoldsKept.tileDone ?_ _ _)
  split <;> exact (HoldsKept.refl s).congr rfl

theorem HoldsKept.discardLines (ctx va n : Nat) : HoldsKept s (s.discardLines ctx va n).1 := by
  simp only [State.discardLines]
  refine HoldsKept.congr (HoldsKept.foldl (fun t (p : Nat × Nat) => ?_) _ (HoldsKept.refl s)) rfl
  exact (HoldsKept.refl t).writeHome (polderKey ctx (p.2 * 128)) (List.replicate 128 0)

theorem State.performDiscard_keeps (n : Nat) : PerformKeeps s (s.performDiscard a n) := by
  simp only [State.performDiscard]
  split
  · exact .wait
  · refine .done (HoldsKept.answer (HoldsKept.drop (HoldsKept.congr ?_ (State.l1Refresh_wgs _ _ _)) a) a _)
    exact HoldsKept.discardLines s _ _ _

theorem State.performMove_keeps (n target handle : Nat) : PerformKeeps s (s.performMove a n target handle) := by
  simp only [State.performMove]
  split
  · exact dropKeeps s a
  · refine .done (HoldsKept.answer (HoldsKept.free (HoldsKept.drop ?_ a) _) a _)
    split
    · exact HoldsKept.ofWgs (State.moveRange_wgs _ _ _ _ _)
    · exact HoldsKept.refl s

theorem HoldsKept.readDieRegister (ctx wg tid index : Nat) : HoldsKept s (s.readDieRegister ctx wg tid index).2 := by
  simp only [State.readDieRegister]
  split
  · exact (HoldsKept.refl s).modThread _ _ _ (fun _ => ⟨rfl, .inl rfl⟩)
  · exact HoldsKept.refl s

theorem HoldsKept.putBarrier {s t : State} (h : HoldsKept s t) (ctx wg : Nat) (x : Barrier) : HoldsKept s (t.putBarrier ctx wg x) := by
  rw [State.putBarrier]
  split
  · exact h.modWg _ _ (.same (fun _ => ⟨rfl, rfl, rfl⟩))
  · exact h.modLaunch _ _

theorem State.performArrive_keeps (level inst id count expected : Nat) : PerformKeeps s (s.performArrive a level inst id count expected) := by
  simp only [State.performArrive]
  split
  · exact .wait
  · refine .done (HoldsKept.putBarrier (HoldsKept.modThread ((HoldsKept.refl s).drop a) _ _ _ ?_) _ _ _)
    exact fun _ => ⟨rfl, .inl rfl⟩

theorem HoldsKept.modCluster {s t : State} (h : HoldsKept s t) (k : Nat) (f : Cluster → Cluster) : HoldsKept s (t.modCluster k f) :=
  h.congr (State.modCluster_wgs t k f)

theorem HoldsKept.closeBin {s t : State} (h : HoldsKept s t) (k : Nat) (b : Bin) : HoldsKept s (t.closeBin k b) :=
  h.congr (State.closeBin_wgs t k b)

theorem State.performRecord_keeps (target : Nat) (args : List Word) (sequence : Nat) : PerformKeeps s (s.performRecord a target args sequence) := by
  have hdue := fun cl => HoldsKept.congr ((HoldsKept.refl s).drop a) (State.closeDue_wgs (s.drop a) cl s.now)
  simp only [State.performRecord]
  split
  · exact dropKeeps s a
  · split
    · exact dropKeeps s a
    · split
      · exact .done (((HoldsKept.refl s).drop a).modLaunch _ _)
      · split
        · refine .done ?_
          split
          · exact HoldsKept.closeBin (HoldsKept.modCluster (hdue _) _ _) _ _
          · exact HoldsKept.modCluster (hdue _) _ _
        · refine .done (HoldsKept.modCluster ?_ _ _)
          split
          · exact hdue _
          · split
            · exact (hdue _).closeBin _ _
            · exact hdue _

/-- Every access that performs, whatever it is. -/
theorem State.perform_keeps : PerformKeeps s (s.perform a) := by
  simp only [State.perform]
  split
  · exact .wait
  · cases a.op with
    | load sg w => exact s.performLoad_keeps a sg w
    | mon => exact s.performMon_keeps a
    | store v => exact s.performStore_keeps a v
    | through v r => exact s.performThrough_keeps a v
    | atomic op v e => exact s.performAtomic_keeps a op v e
    | red op v => exact s.performAtomic_keeps a op v 0
    | detRed op v n => exact s.performDetRed_keeps a op v n
    | stamped v n => exact s.performStamped_keeps a v n
    | asOf n => exact s.performAsOf_keeps a n
    | release => exact s.performRelease_keeps a
    | tileLoad t r o => exact s.performTileLoad_keeps a t r o
    | tileStore t r o v => exact s.performTileStore_keeps a t r o v
    | discard n => exact s.performDiscard_keeps a n
    | move n d h => exact s.performMove_keeps a n d h
    | regRead i => exact .done (((HoldsKept.readDieRegister s _ _ _ _).drop a).answer a _)
    | regWrite i v => exact .done (HoldsKept.drop (HoldsKept.ofWgs (State.writeDieRegister_wgs s i v)) a)
    | energy lo hi => exact .done (HoldsKept.modThread (((HoldsKept.refl s).drop a).answer a _) _ _ _ (fun _ => ⟨rfl, .inl rfl⟩))
    | arrive lv inst id n x => exact s.performArrive_keeps a lv inst id n x
    | record t args n => exact s.performRecord_keeps a t args n

end Sys2Proof.Machine

end

section
/-! SUPPORT. Statement O10: a trap keeps what threads are held at, so that none of its members counts as one that has just been held; every
instruction that has a word raises the trap of the first check that fails. -/

namespace Sys2Proof.Machine

theorem HoldsKept.drainBy (p : Access → Bool) (as : List Access) {s t : State} (h : HoldsKept s t) : HoldsKept s (drainBy p as t) := by
  induction as generalizing t with
  | nil => exact h
  | cons a as ih =>
    rw [Sys2Proof.Machine.drainBy]
    split
    · exact ih h
    · split
      · rename_i hdone
        refine ih ?_
        split
        · exact h
        · exact h.trans (State.perform_keeps t _ _ hdone)
      · exact ih h
      · exact ih h

theorem HoldsKept.drainRounds (p ahead : Access → Bool) (n : Nat) {s t : State} (h : HoldsKept s t) :
    HoldsKept s (drainRounds p ahead n t) := by
  induction n generalizing t with
  | zero => exact h
  | succ n ih =>
    simp only [Sys2Proof.Machine.drainRounds]
    split
    · exact ih (((h.drainBy p _).drainBy p _).drainBy ahead _)
    · exact (h.drainBy p _).drainBy p _

theorem HoldsKept.drainRun {s t : State} (h : HoldsKept s t) (ctx wg tid : Nat) : HoldsKept s (t.drainRun ctx wg tid) := by
  rw [State.drainRun, State.drain]
  exact h.drainRounds _ _ _

theorem HoldsKept.widenBreach {s t : State} (h : HoldsKept s t) (g : Group) (x : TrapInfo) : HoldsKept s (t.widenBreach g x) := by
  rw [State.widenBreach]
  split
  · exact h
  · split
    · exact h
    · split
      · exact h.breach _ _ _ _ _ _
      · exact h.breach _ _ _ _ _ _

theorem HoldsKept.sparing {s t : State} (h : HoldsKept s t) (old : State) (ctx va : Nat) : HoldsKept s (t.sparing old ctx va) := by
  rw [State.sparing]
  split
  · exact h.modLaunch _ _
  · exact h

theorem HoldsKept.makeReady {s t : State} (h : HoldsKept s t) (ctx wg tid : Nat) : HoldsKept s (t.makeReady ctx wg tid) :=
  HoldsKept.congr (h.modThread ctx wg tid (f := Thread.readied t.nextId) (fun _ => ⟨rfl, .inl rfl⟩)) (State.makeReady_wgs t ctx wg tid)

theorem commit_keepsHold : KeepsHold Thread.commit := fun t => ⟨t.commit_tid, .inl (by rw [Thread.commit_eq])⟩

theorem vector_keepsHold (pc : Nat) (x : TrapInfo) : KeepsHold (fun t => t.vector pc x) := fun t => ⟨t.commit_tid, .inr rfl⟩

theorem State.trap_keeps (s : State) (g : Group) (x : TrapInfo) (tid : Nat) : HoldsKept s (s.trap g x tid) := by
  have hdrained : HoldsKept s ((g.tids.foldl (fun s t => s.drainRun g.ctx g.wg t) s).widenBreach g x) :=
    HoldsKept.widenBreach (HoldsKept.foldl (fun t k => (HoldsKept.refl t).drainRun g.ctx g.wg k) g.tids (HoldsKept.refl s)) g x
  simp only [State.trap]
  split
  · refine HoldsKept.foldl (fun t k => ?_) g.tids hdrained
    exact ((HoldsKept.refl t).modThread g.ctx g.wg k (vector_keepsHold g.pc x)).makeReady g.ctx g.wg k
  · have hended := (HoldsKept.foldl (fun t k => (HoldsKept.refl t).modThread g.ctx g.wg k commit_keepsHold) g.tids hdrained).endByRecord
      g.ctx g.wg tid x.code.num x.operand g.pc
    split
    · exact hended.sparing s g.ctx x.operand
    · exact hended

/-- A member that nothing has held since keeps no blocks (R204, step 1). -/
theorem keepBlocks_of_kept {s t : State} {g : Group} {u : Thread} (k : Stream) (a : Reg) (h : HoldsKept s t)
    (hu : s.threadOf g.ctx g.wg u.tid = some u) : keepBlocks k a s g t u = t := by
  rw [keepBlocks]
  split
  · rfl
  · refine if_neg ?_
    cases hv : t.threadOf g.ctx g.wg u.tid with
    | none => exact Bool.false_ne_true
    | some v =>
      obtain ⟨u', hu', hhold⟩ := h g.ctx g.wg u.tid v hv
      obtain rfl : u = u' := Option.some.inj (hu.symm.trans hu')
      rcases hhold with hhold | hhold <;> simp [hhold]

theorem State.member_threadOf {s : State} {g : Group} {t : Thread} (h : t ∈ s.members g) : s.threadOf g.ctx g.wg t.tid = some t := by
  obtain ⟨k, -, hk⟩ := State.members_mem h
  rwa [State.threadOf_tid hk]

theorem foldl_keepBlocks_of_kept {s t : State} {g : Group} (k : Stream) (a : Reg) (h : HoldsKept s t) :
    (s.members g).foldl (keepBlocks k a s g) t = t :=
  List.foldlRecOn (motive := fun r => r = t) (s.members g) (keepBlocks k a s g) rfl
    (fun r hr u hu => by rw [hr, keepBlocks_of_kept k a h (State.member_threadOf hu)])

/-! The checks of Table 4 before the operands' (R57), whatever the instruction. -/

theorem issueFault_early {i : Instr} {chk : State → Group → Thread → Option TrapInfo} {s : State} {g : Group} {f : TrapInfo × Nat}
    (h : earlyChecks i s g = some f) : issueFault i chk s g = some f := by
  rw [issueFault, h, orElse]

/-- A streaming command that traps is held at nothing, and keeps no blocks. -/
theorem streamOp_traps {i : Instr} {k : Stream} {d a b : Reg} {s : State} {g : Group} {x : TrapInfo} {j : Nat} (hg : s.group = some g)
    (h : earlyChecks i { s with group := none } g = some (x, j)) :
    streamOp i k d a b s = State.trap { s with group := none } g x j := by
  simp only [streamOp, commandOp, issueHeld_traps hg (issueFault_early h), hg]
  exact foldl_keepBlocks_of_kept k a ((HoldsKept.ofWgs rfl).trans (State.trap_keeps { s with group := none } g x j))

/-- Every instruction that has a word issues (but for BRK, which a debug launch takes otherwise, R257): a streaming command as `streamOp`
does, any other by the checks, holds and effects of its own. -/
theorem exec_issues {i : Instr} (s : State) (hword : (encode i).isSome = true) (hbrk : isBreak i = false) :
    (∃ chk hold eff, exec i s = .next (issueHeld i chk hold eff s)) ∨ ∃ k d a b, exec i s = .next (streamOp i k d a b s) := by
  cases i with
  | brk => cases hbrk
  | tcopy sw d a b => exact .inr ⟨.tcopy, d, a, b, rfl⟩
  | tcopym sw d a b => exact .inr ⟨.tcopym, d, a, b, rfl⟩
  | gath sw d a b => exact .inr ⟨.gath, d, a, b, rfl⟩
  | scat sw d a b => exact .inr ⟨.scat, d, a, b, rfl⟩
  | coll sw d a b => exact .inr ⟨.coll, d, a, b, rfl⟩
  | vdec sw d a b => exact .inr ⟨.vdec, d, a, b, rfl⟩
  | runParkComplete | localityWindowEnd | workgroupDispatch | workgroupEnd | continuationRecord | binCloseTimeout | detGenerationForm | preemption |
  resumption | waitWake | waitTimeout | tileFillComplete | tileReaderFinish | entryStart | macroStep | entryComplete | collContribution | leaseGrant |
  siteWakeComplete | lingerExpiry | loadPerform | storePerform | atomicPerform | reductionPerform | detReductionArrival | detEndMarker | tokenPass |
  txHomeValidation | regdlDetect | stampArrival | waterlineForm | waterlineDelivery | barrierArrival | barrierRelease | pmoveComplete | ringRegister |
  survey | accept | decline | writePkt | signalPkt | waitPkt | writeSignal | copyPkt | partition | link | packetRefused | slotUnwrittenTimeout |
  sliceExpiry | waitStepResume | surveyComplete | quoteDeadlineExpiry | pageFaultDoorbell | launchStart | launchComplete | accountBacklogDrain |
  idleTimerExpiry | gatingComplete | clusterWakeComplete | powerLoop | targetApply | thermalTrip | supplyDroop | mchk | checkValueMismatch |
  quiesceRequest | quiesceRelease | clearRefused | quiesceComplete | quiesceRefuse | pidWrite | pilvWrite | pbndWrite | energyRead | edieRead |
  registerWrite | clockReferenceLoss | linkRetrain | linkTraining | resetModule | recoveryImage | selfTest | getVersion | spdmMeasurements |
  determinismManifestRequest | telemetry | pcieInboundWrite | pcieInboundRead | illegalWordIssue | siteFailure | polderMigrationOrder | firmwareUpdate
  | marginingRestartRequest => exact absurd hword Bool.false_ne_true
  | _ => exact .inl ⟨_, _, _, rfl⟩

theorem exec_traps {i : Instr} {s : State} {g : Group} {code : TrapCode} {operand j : Nat} (hword : (encode i).isSome = true) (hbrk : isBreak i = false)
    (hg : s.group = some g) (h : earlyChecks i { s with group := none } g = some ({ code := code, operand := operand }, j)) :
    Traps i s g code operand j := by
  rcases exec_issues s hword hbrk with ⟨chk, hold, eff, hexec⟩ | ⟨k, d, a, b, hexec⟩
  · exact hexec.trans (congrArg _ (issueHeld_traps hg (issueFault_early h)))
  · exact hexec.trans (congrArg _ (streamOp_traps hg h))

end Sys2Proof.Machine

end

section
/-! SUPPORT. Statement O10: which check fails first, and in which member (R57, R63). -/

namespace Sys2Proof.Machine

theorem mem_rangeFrom {x a n : Nat} : x ∈ rangeFrom a n ↔ a ≤ x ∧ x < a + n := by
  induction n generalizing a with
  | zero => simp only [rangeFrom, List.not_mem_nil, false_iff]; omega
  | succ n ih => rw [rangeFrom, List.mem_cons, ih]; omega

theorem fieldInside_iff {t : Thread} {f n : Nat} : fieldInside t (f, n) = true ↔ ∀ x < n, t.phys (f + x) < t.regs.length := by
  simp only [fieldInside, List.all_eq_true, mem_rangeFrom, Thread.alloc]
  refine ⟨fun h x hx => of_decide_eq_true (h (f + x) ⟨by omega, by omega⟩), fun h y hy => decide_eq_true ?_⟩
  have hinside := h (y - f) (by omega)
  rwa [Nat.add_sub_cancel' hy.1] at hinside

/-- WINDOW passes a thread all of whose named fields lie inside (R63). -/
theorem windowCheck_passes {i : Instr} {t : Thread} (h : ∀ p ∈ namedFields i, ∀ x < p.2, t.phys (p.1 + x) < t.regs.length) :
    windowCheck i t = none := by
  have hnone : (namedFields i).find? (fun f => !fieldInside t f) = none :=
    List.find?_eq_none.mpr (fun p hp => by simp only [fieldInside_iff.mpr (h p hp), Bool.not_true, Bool.false_eq_true, not_false_iff])
  rw [windowCheck, hnone]

/-- WINDOW names the first field that lies outside (R63). -/
theorem windowCheck_first {i : Instr} {t : Thread} {fs gs : List (Nat × Nat)} {f n j : Nat} (hfields : namedFields i = fs ++ (f, n) :: gs)
    (hfs : ∀ p ∈ fs, ∀ x < p.2, t.phys (p.1 + x) < t.regs.length) (hj : j < n) (hout : t.regs.length ≤ t.phys (f + j)) :
    windowCheck i t = trapOf .window f := by
  have hnone : fs.find? (fun f => !fieldInside t f) = none :=
    List.find?_eq_none.mpr (fun p hp => by simp only [fieldInside_iff.mpr (hfs p hp), Bool.not_true, Bool.false_eq_true, not_false_iff])
  have hthis : fieldInside t (f, n) = false :=
    Bool.eq_false_iff.mpr (fun hinside => absurd (fieldInside_iff.mp hinside j hj) (by omega))
  have hfind : (namedFields i).find? (fun f => !fieldInside t f) = some (f, n) := by
    rw [hfields, List.find?_append, hnone, Option.none_or, List.find?_cons_of_pos (by rw [hthis]; rfl)]
  rw [windowCheck, hfind]

/-! The checks are made on the state that the issue has left the group of. -/

theorem State.privileged_ungrouped (s : State) (g : Group) : ({ s with group := none } : State).privileged g = s.privileged g := rfl
theorem State.launch_ungrouped (s : State) (ctx : Nat) : ({ s with group := none } : State).launch ctx = s.launch ctx := rfl

section
variable {i : Instr} {s : State} {g : Group} {lower ks : List Nat} {k : Nat} {u : Thread} (htids : g.tids = lower ++ k :: ks)
  (hu : s.threadOf g.ctx g.wg k = some u)
include htids hu

/-- The lowest member that a check fails: those below it pass. -/
theorem firstFail_lowest {chk : Thread → Option TrapInfo} {x : TrapInfo} (hlower : ∀ j ∈ lower, ∀ v, s.threadOf g.ctx g.wg j = some v → chk v = none)
    (h : chk u = some x) : firstFail (s.members g) chk = some (x, k) := by
  have hpass : firstFail (lower.filterMap (fun t => s.threadOf g.ctx g.wg t)) chk = none := by
    refine firstFail_none (fun v hv => ?_)
    obtain ⟨j, hj, hjv⟩ := List.mem_filterMap.mp hv
    exact hlower j hj v hjv
  rw [firstFail] at hpass
  rw [State.members, htids, List.filterMap_append, List.filterMap_cons_some hu, firstFail, List.findSome?_append, hpass, Option.none_or]
  exact (firstFail_cons h).trans (by rw [State.threadOf_tid hu])

/-- A check that no member passes. -/
theorem firstFail_all (hlower : lower = []) (code : TrapCode) :
    firstFail (s.members g) (fun _ => trapOf code 0) = some ({ code := code, operand := 0 }, k) :=
  firstFail_lowest htids hu (by simp [hlower]) rfl

theorem earlyChecks_illegal (hlower : lower = []) (hwf : i.wf = false) :
    earlyChecks i s g = some ({ code := .illegal, operand := 0 }, k) := by
  simp only [earlyChecks, hwf, Bool.not_false, if_true, firstFail_all htids hu hlower, orElse]

theorem earlyChecks_priv (hlower : lower = []) (hwf : i.wf = true) (hpriv : ((isPrivileged i && !s.privileged g) || userPrivIndex i) = true) :
    earlyChecks i s g = some ({ code := .priv, operand := 0 }, k) := by
  simp only [earlyChecks, hwf, Bool.not_true, Bool.false_eq_true, hpriv, if_true, if_false, firstFail_all htids hu hlower, orElse]

section
variable (hwf : i.wf = true) (hpriv : ((isPrivileged i && !s.privileged g) || userPrivIndex i) = false)
include hwf hpriv

theorem earlyChecks_bound (hlower : lower = []) (hbound : (isWaiting i && ((s.launch g.ctx).bind (fun l => l.bound g.pc)).isNone) = true) :
    earlyChecks i s g = some ({ code := .bound, operand := 0 }, k) := by
  simp only [earlyChecks, hwf, Bool.not_true, Bool.false_eq_true, hpriv, hbound, if_true, if_false, firstFail_all htids hu hlower, orElse]

variable (hbound : (isWaiting i && ((s.launch g.ctx).bind (fun l => l.bound g.pc)).isNone) = false)
include hbound

theorem earlyChecks_streamer (hproducer : isProducer i = true) (hlower : ∀ j ∈ lower, ∀ v, s.threadOf g.ctx g.wg j = some v → v.sub = 0)
    (hsub : u.sub ≠ 0) : earlyChecks i s g = some ({ code := .streamer, operand := 0 }, k) := by
  have hfail : firstFail (s.members g) (fun t => if isProducer i && t.sub != 0 then trapOf .streamer 0 else none) =
      some ({ code := .streamer, operand := 0 }, k) := by
    refine firstFail_lowest htids hu (fun j hj v hv => ?_) ?_
    · simp only [hlower j hj v hv, bne_self_eq_false, Bool.and_false, Bool.false_eq_true, if_false]
    · simp only [hproducer, bne_iff_ne.mpr hsub, Bool.and_self, if_true, trapOf]
  simp only [earlyChecks, hwf, Bool.not_true, Bool.false_eq_true, hpriv, hbound, if_false, hfail, orElse]

theorem earlyChecks_window {x : TrapInfo} (hstream : isProducer i = true → Members s g (fun v => v.sub = 0))
    (hlower : ∀ j ∈ lower, ∀ v, s.threadOf g.ctx g.wg j = some v → windowCheck i v = none) (h : windowCheck i u = some x) :
    earlyChecks i s g = some (x, k) := by
  have hpass : firstFail (s.members g) (fun t => if isProducer i && t.sub != 0 then trapOf .streamer 0 else none) = none := by
    refine firstFail_none (fun v hv => if_neg ?_)
    obtain ⟨j, hj, hjv⟩ := State.members_mem hv
    simp only [Bool.and_eq_true, bne_iff_ne, not_and, not_not]
    exact fun hproducer => hstream hproducer j hj v hjv
  simp only [earlyChecks, hwf, Bool.not_true, Bool.false_eq_true, hpriv, hbound, if_false, hpass, firstFail_lowest htids hu hlower h, orElse]

end

end

/-- Settles O10: each check in turn, those before it having passed. A trap is the same whatever the instruction, as none of its members
has just been held. -/
theorem issueChecks : Obligations.IssueChecks := by
  unfold Obligations.IssueChecks
  intro i s g lower k ks u hword hbrk hg htids hu
  have hraise : ∀ {code : TrapCode} {operand : Nat}, earlyChecks i { s with group := none } g = some ({ code := code, operand := operand }, k) →
      Traps i s g code operand k := exec_traps hword hbrk hg
  have hmember : ({ s with group := none } : State).threadOf g.ctx g.wg k = some u := hu
  refine ⟨fun hwf hlower => hraise (earlyChecks_illegal htids hmember hlower hwf), fun hwf hlower hpriv => ?_, fun hwf hview huser => ?_⟩
  · refine hraise (earlyChecks_priv htids hmember hlower hwf ?_)
    rcases hpriv with ⟨hprivileged, hview⟩ | huser
    · rw [hprivileged, State.privileged_ungrouped, hview]
      rfl
    · rw [huser, Bool.or_true]
  · have hpriv : ((isPrivileged i && !({ s with group := none } : State).privileged g) || userPrivIndex i) = false := by
      rw [huser, Bool.or_false, State.privileged_ungrouped]
      cases hprivileged : isPrivileged i
      · rfl
      · rw [hview hprivileged]
        rfl
    refine ⟨fun hwaiting hlower hnone => hraise (earlyChecks_bound htids hmember hwf hpriv hlower ?_), fun hbounded => ?_⟩
    · rw [hwaiting, State.launch_ungrouped, hnone]
      rfl
    · have hbound : (isWaiting i && ((({ s with group := none } : State).launch g.ctx).bind (fun l => l.bound g.pc)).isNone) = false := by
        rw [State.launch_ungrouped]
        cases hwaiting : isWaiting i
        · rfl
        · obtain ⟨b, hb⟩ := Option.ne_none_iff_exists'.mp (hbounded hwaiting)
          rw [hb]
          rfl
      refine ⟨fun hproducer hlower hsub => hraise (earlyChecks_streamer htids hmember hwf hpriv hbound hproducer hlower hsub), ?_⟩
      intro fs gs f n j hstream hfields hlower hfs hj hout
      refine hraise (earlyChecks_window htids hmember hwf hpriv hbound hstream (fun m hm v hv => ?_) (windowCheck_first hfields hfs hj hout))
      exact windowCheck_passes (hlower m hm v hv)

end Sys2Proof.Machine

end

section
/-! SUPPORT. Statement O6: the LC8 encoding and the LG6 expansion cut one code to the same range; the encoding's code is the logarithm of a
magnitude's eighth power, halved (R76, R82). -/

namespace Sys2Proof.Machine

/-- R76: a code cut to the seven bits of an LC8 byte, with its sign, and whether it saturated. -/
def lc8Cut (neg : Bool) (c : Int) : Nat × Bool :=
  if 127 < c then (127 + (if neg then 128 else 0), true)
  else if c < 1 then (0, true)
  else (c.toNat + (if neg then 128 else 0), false)

theorem lc8Cut_above {neg : Bool} {c : Int} (h : 127 < c) : lc8Cut neg c = (127 + (if neg then 128 else 0), true) := if_pos h

theorem lc8Cut_below {neg : Bool} {c : Int} (h : c < 1) : lc8Cut neg c = (0, true) := by
  rw [lc8Cut, if_neg (by omega), if_pos h]

theorem lc8Cut_within {neg : Bool} {c : Int} (hlow : 1 ≤ c) (hhigh : c ≤ 127) :
    lc8Cut neg c = (c.toNat + (if neg then 128 else 0), false) := by
  rw [lc8Cut, if_neg (by omega), if_neg (by omega)]

/-- R76: the integer nearest to 4 × log2 of `m × 2^e`. -/
def lc8Log (m : Nat) (e : Int) : Int := 4 * e + (((m ^ 8).log2 + 1) / 2 : Nat)

theorem lc8Encode_fin {neg : Bool} {m : Nat} {e : Int} (hm : 0 < m) : lc8Encode (.fin neg m e) = lc8Cut neg (lc8Log m e + 64) :=
  if_neg hm.ne'

theorem lg6ToLc8_signed {neg : Bool} {l : Nat} {s : Int} (hlow : 1 ≤ l) (hhigh : l ≤ 31) :
    lg6ToLc8 (l + (if neg then 32 else 0)) s = lc8Cut neg (l + 48 + 4 * s) := by
  have hmag : (l + (if neg then 32 else 0)) % 32 = l := by split <;> omega
  have hsign : (32 ≤ l + (if neg then 32 else 0)) ↔ neg = true := by
    cases neg
    · simpa using Nat.lt_succ_of_le hhigh
    · simp
  simp only [lg6ToLc8, lc8Cut, hmag, hsign, if_neg (show l ≠ 0 by omega)]

theorem eighth_power_scaled (m : Nat) (e : Int) : ((m : ℚ) * 2 ^ e) ^ 8 = ((m ^ 8 : Nat) : ℚ) * 2 ^ (8 * e) := by
  rw [mul_pow, Nat.cast_pow, ← zpow_natCast (2 ^ e), ← zpow_mul, mul_comm e]
  rfl

theorem log2_bounds_rat {p : Nat} (hp : p ≠ 0) : (2 : ℚ) ^ (p.log2 : Int) ≤ p ∧ (p : ℚ) ≤ 2 ^ (p.log2 + 1 : Int) := by
  obtain ⟨hlow, hhigh⟩ := log2_bounds hp
  exact ⟨by exact_mod_cast hlow, by exact_mod_cast hhigh.le⟩

/-- R76: the ratio of a magnitude to 2^(n/4) lies within 2^(1/8) of 1, said of eighth powers. -/
theorem lc8Log_nearest {m : Nat} (e : Int) (hm : 0 < m) :
    (2 : ℚ) ^ (2 * lc8Log m e - 1) ≤ ((m : ℚ) * 2 ^ e) ^ 8 ∧ ((m : ℚ) * 2 ^ e) ^ 8 ≤ (2 : ℚ) ^ (2 * lc8Log m e + 1) := by
  obtain ⟨hlow, hhigh⟩ := log2_bounds_rat (pow_pos hm 8).ne'
  have htwo : (2 : ℚ) ≠ 0 := two_ne_zero
  rw [eighth_power_scaled]
  constructor
  · calc (2 : ℚ) ^ (2 * lc8Log m e - 1) ≤ 2 ^ ((m ^ 8).log2 + 8 * e : Int) :=
          zpow_le_zpow_right₀ one_le_two (by rw [lc8Log]; omega)
      _ = 2 ^ ((m ^ 8).log2 : Int) * 2 ^ (8 * e) := zpow_add₀ htwo _ _
      _ ≤ ((m ^ 8 : Nat) : ℚ) * 2 ^ (8 * e) := by gcongr
  · calc ((m ^ 8 : Nat) : ℚ) * 2 ^ (8 * e) ≤ 2 ^ ((m ^ 8).log2 + 1 : Int) * 2 ^ (8 * e) := by gcongr
      _ = 2 ^ ((m ^ 8).log2 + 1 + 8 * e : Int) := (zpow_add₀ htwo _ _).symm
      _ ≤ (2 : ℚ) ^ (2 * lc8Log m e + 1) := zpow_le_zpow_right₀ one_le_two (by rw [lc8Log]; omega)

/-- Settles O6: the encoding and the expansion are cuts of a code; halving the logarithm of the eighth power gives the nearest one. -/
theorem numberFormats : Obligations.NumberFormats := by
  unfold Obligations.NumberFormats
  refine ⟨rfl, fun _ _ => rfl, fun _ => rfl, fun neg m e hm => ?_, fun _ => ⟨rfl, rfl⟩, fun neg l s hlow hhigh => ?_⟩
  · obtain ⟨hleast, hmost⟩ := lc8Log_nearest e hm
    rw [lc8Encode_fin hm]
    exact ⟨lc8Log m e, hleast, hmost, lc8Cut_above, lc8Cut_below, lc8Cut_within⟩
  · rw [lg6ToLc8_signed hlow hhigh]
    exact ⟨lc8Cut_above, lc8Cut_below, lc8Cut_within⟩

end Sys2Proof.Machine

end

section
/-! SUPPORT. Statement O45: an entry that has done its steps, while a tile that names it as its filling command has still to become ready. -/

namespace Sys2Proof.Machine

/-- R280: an entry does not complete before the tiles that it fills are ready. -/
theorem State.entryComplete_filling {s : State} {d i : Nat} {e : Entry} (hhead : (s.siteOf d i).queue.head? = some e)
    (hfailed : e.failed = false) (hfill : s.fillingFor e = true) : s.entryComplete d i = s := by
  simp [State.entryComplete, hhead, hfailed, hfill]

/-- A GATH of one row that has done its one step, in batch 9 of thread 0. -/
def gathered : GatherBlock :=
  { base := 0x40000000, pitch := 64, rowBytes := 64, count := 1, index := 0x40000100, packed := 0x40000200, bar := false, barLevel := 0, barId := 0 }
def gatheredEntry : Entry :=
  { id := 5, ctx := 1, wg := 0, tid := 0, core := 0, batch := 9, kind := .gather gathered, after := none, follow := false, step := 1,
    started := true, failed := false, stale := false, gens := [], pc := 0, decoded := none, partials := [], handle := 0, lineage := 0 }

/-- That batch, sealed, with the one entry not finished. -/
def gatheredBatch : Batch := { Batch.fresh 9 with number := 1, entries := 1 }

/-- A tile that names the entry as its filling command; its last byte has landed, and TILE_FILL_COMPLETE is to come. -/
def landedTile : Tile :=
  { cluster := 0, number := 0, state := .filling, fault := false, type := 0, rows := 64, readers := 0, ctx := 1, fills := 1, landed := true,
    filler := 5, finishing := 0, data := [] }

/-- The entry at the head of a GX site's queue, beside that tile. -/
def gatheredState : State :=
  { State.reset.install with
    sites := [{ Site.dark 0 80 with power := .awake, queue := [gatheredEntry] }], tiles := [landedTile],
    wgs := [{ placedWg with threads := placedWg.threads.map (fun t => { t with batches := [gatheredBatch] }) }] }

theorem gatheredState_head : (gatheredState.siteOf 0 80).queue = [gatheredEntry] := rfl

theorem gatheredState_thread : ∃ u, gatheredState.threadOf 1 0 0 = some u ∧ u.openBatch = none ∧ u.batches = [gatheredBatch] := ⟨_, rfl, rfl, rfl⟩

/-- Refutes O45: its clause on ENTRY_COMPLETE of a GATH does not ask that no tile waits on the entry. ENTRY_COMPLETE holds every kind of entry
until the tiles that name it as their filling command are ready (R280), and the statement's states are not only those that a run reaches, where
no GATH fills a tile. -/
theorem not_engineSteps : ¬ Obligations.EngineSteps := by
  unfold Obligations.EngineSteps
  rintro ⟨_, hentries, _⟩
  obtain ⟨u, hu, hopen, hbatches⟩ := gatheredState_thread
  have hhead : (gatheredState.siteOf 0 80).queue.head? = some gatheredEntry := rfl
  obtain ⟨_, _, _, _, _, hgather⟩ := hentries gatheredState 0 80 gatheredEntry hhead
  obtain ⟨_, hdone, _⟩ := hgather gathered u gatheredBatch rfl (by simp [gatheredState_head]) hu hopen hbatches rfl
  obtain ⟨t, _, hexec, _, hpopped, _⟩ := hdone rfl rfl (Nat.le_refl 1)
  have hstays : gatheredState.entryComplete 0 80 = gatheredState := State.entryComplete_filling hhead rfl rfl
  obtain rfl : gatheredState = t := hstays.symm.trans (Host.Outcome.next.inj hexec)
  simp [gatheredState_head] at hpopped

end Sys2Proof.Machine

end

section
/-! SUPPORT. The issue of a lone member: one step of the PC, one effect, and the run that goes on or closes (R20, R58). -/

namespace Sys2Proof.Machine

theorem Kept.tiles {s t : State} {c w : Nat} {tids : List Nat} (h : Kept s t c w tids) : t.tiles = s.tiles := by rw [h.rest]

/-- The check of an issue does not bear on its effects where it passes. -/
theorem issue_passes {i : Instr} {chk : State → Group → Thread → Option TrapInfo} {eff : State → Group → Nat → State} {s : State} {g : Group}
    (h : issuable i s g = true) (hchk : Members s g (fun u => chk { s with group := none } g u = none)) :
    issue i chk eff s = issue i noCheck eff s :=
  (issue_performs h hchk).trans (issue_performs h (fun _ _ _ _ => rfl)).symm

/-- The operands of the lowest member are judged first (R57); outside a transaction what they raise is a trap (R179). -/
theorem issueFault_outside {i : Instr} {chk : State → Group → Thread → Option TrapInfo} {s : State} {g : Group} {k : Nat} {ks : List Nat}
    {u : Thread} {x : TrapInfo} (h : issuable i s g = true) (htids : g.tids = k :: ks) (hu : s.threadOf g.ctx g.wg k = some u)
    (hout : u.tx.active = false) (hchk : chk { s with group := none } g u = some x) :
    issueFault i chk { s with group := none } g = some (x, k) := by
  rw [issueFault, earlyChecks_none h, State.members_cons (s := { s with group := none }) htids hu, orElse,
    firstFail_cons (by simp only [hout, hchk, Bool.false_and, Bool.false_eq_true, if_false]; rfl), State.threadOf_tid hu]

/-- An instruction that no transaction allows performs outside of one (R179). -/
theorem tx_inactive_of_issuable {i : Instr} {s : State} {g : Group} {k : Nat} {u : Thread} (h : issuable i s g = true) (hallowed : txAllowed i = false)
    (hk : k ∈ g.tids) (hu : s.threadOf g.ctx g.wg k = some u) : u.tx.active = false := by
  obtain ⟨v, hv, -, htx, -, -⟩ := issuable_member h hk
  obtain rfl : u = v := Option.some.inj (hu.symm.trans hv)
  by_contra hactive
  exact absurd (htx (by simpa using hactive)) (by simp [hallowed])

/-- The state of an issue's lone member about to have its effect: the PC has moved on, and nothing else has changed. -/
structure Stepped (i : Instr) (s : State) (g : Group) (k : Nat) (u : Thread) (p : State) : Prop where
  rest : p = { s with group := none, wgs := p.wgs }
  kept : Kept { s with group := none } p g.ctx g.wg [k]
  thread : p.threadOf g.ctx g.wg k = some { u with pc := g.pc + i.bytes, holdPc := none }

section
variable {i : Instr} {chk : State → Group → Thread → Option TrapInfo} {hold : State → Group → Thread → Option HoldKind}
  {eff : State → Group → Nat → State} {s : State} {g : Group} {k : Nat} {u : Thread}
  (h : issuable i s g = true) (htids : g.tids = [k]) (hu : s.threadOf g.ctx g.wg k = some u)
include h htids hu

theorem issueHeld_lone (hchk : chk { s with group := none } g u = none) (hhold : hold { s with group := none } g u = none) :
    ∃ p, Stepped i s g k u p ∧ issueHeld i chk hold eff s = State.advance i g (eff p g k) k := by
  have hall : ∀ {α : Type} (f : State → Group → Thread → Option α), f { s with group := none } g u = none →
      ∀ j ∈ g.tids, ∀ v, s.threadOf g.ctx g.wg j = some v → f { s with group := none } g v = none := by
    intro α f hf j hj v hv
    rw [htids, List.mem_singleton] at hj
    obtain rfl : u = v := Option.some.inj (hu.symm.trans (hj ▸ hv))
    exact hf
  refine ⟨stepPc i g { s with group := none } k, ⟨rfl, ?_, ?_⟩, ?_⟩
  · exact Kept.modThread { s with group := none } g.ctx g.wg k (fun t => { t with pc := g.pc + i.bytes, holdPc := none }) (fun _ => rfl) [k] (by simp)
  · refine (State.threadOf_modThread_same { s with group := none } g.ctx g.wg k (fun t => { t with pc := g.pc + i.bytes, holdPc := none }) (fun _ => rfl)).trans ?_
    exact congrArg (Option.map _) hu
  · rw [issueHeld_performs h (hall chk hchk) (hall hold hhold), htids]
    rfl

theorem issuable_ready : u.status = .ready := by
  obtain ⟨v, hv, hready, -⟩ := issuable_member h (k := k) (by simp [htids])
  obtain rfl : u = v := Option.some.inj (hu.symm.trans hv)
  exact hready

end

end Sys2Proof.Machine

end

section
/-! SUPPORT. Statement O31: the tile instructions of a lone member (R226, R227, R229). -/

namespace Sys2Proof.Machine

/-! An instruction that may change the tile table and answers with a word. -/

/-- The same tile table in place of two states' own. -/
theorem Kept.withTiles {s t : State} {c w : Nat} {tids : List Nat} (h : Kept s t c w tids) (tl : List Tile) :
    Kept { s with tiles := tl } { t with tiles := tl } c w tids :=
  ⟨by rw [h.rest], h.others, h.shells, h.cores⟩

section
variable {i : Instr} {chk : State → Group → Thread → Option TrapInfo} {d : Reg} {f : State → Group → Thread → State × Word}
  {s : State} {g : Group} {k : Nat} {u : Thread} {tl : List Tile} {r : Word}
  (h : issuable i s g = true) (htids : g.tids = [k]) (hu : s.threadOf g.ctx g.wg k = some u) (hchk : chk { s with group := none } g u = none)
  (hf : ∀ p, Stepped i s g k u p → f p g { u with pc := g.pc + i.bytes, holdPc := none } = ({ p with tiles := tl }, r))
include h htids hu hchk hf

/-- A lone member's instruction of R203's kind leaves the tile table `tl`, and owes the word `r`. -/
theorem statusOp_lone : Kept { s with group := none, tiles := tl } (statusOp i chk d f s) g.ctx g.wg [k] ∧
    ∃ v, (statusOp i chk d f s).threadOf g.ctx g.wg k = some v ∧ Owes i (g.pc + i.bytes) d.toNat [r] u v := by
  obtain ⟨p, hp, hissue⟩ := issueHeld_lone (hold := fun _ _ _ => none) (eff := fun s g tid => match s.threadOf g.ctx g.wg tid with
    | none => s
    | some t => let r := f s g t; giveWord g tid (rn d) r.2 r.1) h htids hu hchk rfl
  obtain ⟨hgiven, hthread⟩ := giveWord_members g k (rn d) r { p with tiles := tl }
  have hstatus : statusOp i chk d f s = State.advance i g (giveWord g k (rn d) r { p with tiles := tl }) k := by
    refine hissue.trans ?_
    simp only [hp.thread, hf p hp]
  have hp' : State.threadOf { p with tiles := tl } g.ctx g.wg k = some { u with pc := g.pc + i.bytes, holdPc := none } := hp.thread
  rw [hstatus]
  refine ⟨((hp.kept.withTiles tl).trans hgiven).trans (Kept.advance i g _ k [k] (by simp)), _, ?_, owes_word (issuable_ready h htids hu)⟩
  rw [State.threadOf_advance, hthread, hp']
  rfl

theorem statusOp_answers (hexec : exec i s = .next (statusOp i chk d f s)) {post : State → Thread → Prop}
    (hpost : ∀ t v, t.tiles = tl → post t v) : Answers i s g k d r post := by
  obtain ⟨hkept, v, hv, howes⟩ := statusOp_lone h htids hu hchk hf (d := d)
  have hrest := hkept.rest
  refine ⟨_, u, v, hexec, hu, hv, ?_, ?_, ?_, howes.run, ?_, ?_, ?_, fun c w j hj => hkept.others c w j (by simpa using hj), hpost _ _ hkept.tiles⟩
  · rw [howes.rest]; rfl
  · rw [howes.rest]
  · rw [howes.rest]
  all_goals rw [hrest]

end

/-- A lone member's instruction of R203's kind that leaves the tile table as it was. -/
theorem statusOp_owes {i : Instr} {chk : State → Group → Thread → Option TrapInfo} {d : Reg} {f : State → Group → Thread → State × Word}
    {s : State} {g : Group} {k : Nat} {u : Thread} {r : Word} (h : issuable i s g = true) (htids : g.tids = [k])
    (hu : s.threadOf g.ctx g.wg k = some u) (hchk : chk { s with group := none } g u = none)
    (hf : ∀ p, Stepped i s g k u p → f p g { u with pc := g.pc + i.bytes, holdPc := none } = (p, r))
    (hexec : exec i s = .next (statusOp i chk d f s)) : Performs i s g (fun u v => Owes i (g.pc + i.bytes) d.toNat [r] u v) := by
  have hsame : ∀ p, Stepped i s g k u p → f p g { u with pc := g.pc + i.bytes, holdPc := none } = ({ p with tiles := s.tiles }, r) := fun p hp => by
    rw [hf p hp, ← show p.tiles = s.tiles from hp.kept.tiles]
  obtain ⟨hkept, v, hv, howes⟩ := statusOp_lone (d := d) h htids hu hchk hsame
  refine ⟨_, hexec, ⟨by rw [hkept.rest], fun c w j hj => hkept.others c w j (by rwa [← htids]), hkept.shells, hkept.cores⟩, fun j hj => ?_⟩
  rw [htids, List.mem_singleton] at hj
  subst hj
  exact ⟨u, v, hu, hv, howes⟩

/-! TALLOC (R226). -/

theorem mem_tiles_here {s : State} {cl n : Nat} :
    (s.tiles.filter (fun t => t.cluster == cl)).any (fun t => t.number == n) = true ↔ ∃ t ∈ s.tiles, t.cluster = cl ∧ t.number = n := by
  simp

theorem tiles_filter_held (s : State) (cl ctx : Nat) :
    (s.tiles.filter (fun t => t.cluster == cl)).filter (fun t => t.ctx == ctx) = s.tiles.filter (fun t => t.cluster == cl && t.ctx == ctx) := by
  rw [List.filter_filter]
  exact List.filter_congr (fun t _ => Bool.and_comm _ _)

theorem find_rangeFrom {p : Nat → Bool} {a n k : Nat} (hk : k < n) (hp : p (a + k) = true) (hless : ∀ j < k, p (a + j) = false) :
    (rangeFrom a n).find? p = some (a + k) := by
  induction n generalizing a k with
  | zero => omega
  | succ n ih =>
    cases k with
    | zero => exact List.find?_cons_of_pos hp
    | succ k =>
      rw [rangeFrom, List.find?_cons_of_neg (by simpa using hless 0 (by omega)), ih (a := a + 1) (k := k) (by omega)]
      · rw [Nat.add_assoc, Nat.add_comm 1]
      · rwa [Nat.add_assoc, Nat.add_comm 1]
      · intro j hj
        rw [Nat.add_assoc, Nat.add_comm 1]
        exact hless (j + 1) (by omega)

/-- The tile that TALLOC adds. -/
def emptyTile (cl n ctx : Nat) : Tile :=
  { cluster := cl, number := n, state := .empty, fault := false, type := 0, rows := 0, readers := 0, ctx := ctx, fills := 0, landed := false,
    filler := 0, finishing := 0, data := [] }

section
variable {s : State} {g : Group} {l : Launch} (hl : s.launch g.ctx = some l)
include hl

theorem allocTile_full (hfull : l.img.tiles ≤ (s.tiles.filter (fun t => t.cluster == coreCluster g.core && t.ctx == g.ctx)).length) :
    allocTile s g = (s, stNoTile) := by
  simp only [allocTile, withLaunch, hl, tiles_filter_held, if_pos hfull]

theorem allocTile_lowest {n : Nat} (hroom : (s.tiles.filter (fun t => t.cluster == coreCluster g.core && t.ctx == g.ctx)).length < l.img.tiles)
    (hn : n < 1024) (hfree : ∀ t ∈ s.tiles, t.cluster = coreCluster g.core → t.number ≠ n)
    (hless : ∀ j < n, ∃ t ∈ s.tiles, t.cluster = coreCluster g.core ∧ t.number = j) :
    allocTile s g = ({ s with tiles := s.tiles ++ [emptyTile (coreCluster g.core) n g.ctx] }, BitVec.ofNat 32 n) := by
  have hfind : (rangeFrom 0 1024).find? (fun k => !(s.tiles.filter (fun t => t.cluster == coreCluster g.core)).any (fun t => t.number == k)) =
      some (0 + n) := by
    refine find_rangeFrom hn ?_ (fun j hj => ?_)
    · rw [Nat.zero_add, Bool.not_eq_true', Bool.eq_false_iff, ne_eq, mem_tiles_here]
      rintro ⟨t, ht, hcluster, hnumber⟩
      exact hfree t ht hcluster hnumber
    · rw [Nat.zero_add, Bool.not_eq_false', mem_tiles_here]
      exact hless j hj
  rw [Nat.zero_add] at hfind
  simp only [allocTile, withLaunch, hl, tiles_filter_held, if_neg (Nat.not_le.mpr hroom), hfind]
  rfl

end

/-! TFREE, TSTATE and TSET (R227). -/

theorem tileFieldBad_of_lt {n : Nat} (hn : n < 1024) : tileFieldBad n = false := by
  simp [tileFieldBad, bits, Nat.div_eq_of_lt hn]

theorem tileCheck_held {s : State} {g : Group} {n : Nat} (hn : n < 1024) (hheld : (s.heldTile g.ctx (coreCluster g.core) n).isSome = true) :
    tileCheck s g n = none := by
  rw [tileCheck, tileFieldBad_of_lt hn, if_neg Bool.false_ne_true, if_neg (by simp [Option.isSome_iff_ne_none.mp hheld])]

theorem tileCheck_notHeld {s : State} {g : Group} {n : Nat} (hn : n < 1024) (hheld : s.heldTile g.ctx (coreCluster g.core) n = none) :
    tileCheck s g n = trapOf .access 0 := by
  rw [tileCheck, tileFieldBad_of_lt hn, if_neg Bool.false_ne_true, hheld]
  rfl

theorem State.tileOf_of_held {s : State} {ctx cl n : Nat} {x : Tile} (h : s.heldTile ctx cl n = some x) : s.tileOf cl n = some x := by
  unfold State.heldTile at h
  split at h
  · rename_i t ht
    split at h
    · exact ht.trans h
    · exact absurd h (by simp)
  · exact absurd h (by simp)

/-- A tile that a cluster's table finds is not free. -/
theorem State.tileOf_live {s : State} {cl n : Nat} {x : Tile} (h : s.tileOf cl n = some x) : x.cluster = cl ∧ x.number = n ∧ x.state ≠ .free := by
  have := List.find?_some h
  simpa [and_assoc] using this

theorem State.tileOf_freeTile (s : State) (cl n : Nat) : (s.freeTile cl n).tileOf cl n = none := by
  refine List.find?_eq_none.mpr (fun t ht => ?_)
  have hother : ¬(t.cluster = cl ∧ t.number = n) := by
    simpa only [Bool.not_eq_true', Bool.and_eq_false_iff, beq_eq_false_iff_ne, ← not_and_or] using (List.mem_filter.mp ht).2
  simp only [Bool.and_eq_true, beq_iff_eq]
  exact fun h => hother h.1

/-- The tile found after one has changed. -/
theorem State.tileOf_modTile {s : State} {cl n : Nat} {f : Tile → Tile} {x : Tile} (h : s.tileOf cl n = some x)
    (hf : ∀ t, (f t).cluster = t.cluster ∧ (f t).number = t.number ∧ ((f t).state = .free ↔ t.state = .free)) :
    (s.modTile cl n f).tileOf cl n = some (f x) := by
  obtain ⟨hcluster, hnumber, -⟩ := State.tileOf_live h
  refine (find_map_if s.tiles _ _ f (fun t => ?_)).trans ?_
  · obtain ⟨hc, hm, hfree⟩ := hf t
    simp only [hc, hm, bne, beq_eq_decide, hfree]
  · rw [show s.tiles.find? _ = some x from h]
    simp [hcluster, hnumber]

theorem Tile.release_keeps (t : Tile) : t.release.cluster = t.cluster ∧ t.release.number = t.number ∧ (t.release.state = .free ↔ t.state = .free) := by
  unfold Tile.release
  cases hs : t.state <;> simp [hs]
  all_goals split <;> simp

section
variable {s : State} {g : Group} {n : Nat} {x : Tile} (hx : s.tileOf (coreCluster g.core) n = some x)
include hx

theorem freeOp_accepted (h : (x.state = .empty ∨ x.state = .ready) ∧ x.readers = 0) :
    freeOp s g n = (s.freeTile (coreCluster g.core) n, stAccepted) := by
  simp [freeOp, hx, h]

theorem freeOp_busy (h : ¬((x.state = .empty ∨ x.state = .ready) ∧ x.readers = 0)) : freeOp s g n = (s, stBusy) := by
  simp only [freeOp, hx]
  exact if_neg (by simpa using h)

theorem setOp_accepted (h : x.state = .ready ∨ x.state = .draining) : setOp s g n = (s.modTile (coreCluster g.core) n Tile.release, stAccepted) := by
  simp only [setOp, hx]
  rcases h with h | h <;> rw [h]

theorem setOp_wrongState (h : x.state = .empty ∨ x.state = .filling) : setOp s g n = (s, stWrongState) := by
  simp only [setOp, hx]
  rcases h with h | h <;> rw [h]

end

theorem Tile.release_state {x : Tile} (h : x.state = .ready ∨ x.state = .draining) :
    x.release.state = if x.readers = 0 then .empty else .draining := by
  unfold Tile.release
  rcases h with h | h <;> rw [h]

theorem tileWord_toNat (x : Tile) : (tileWord x).toNat =
    (x.readers * 2 ^ 16 + x.rows * 2 ^ 7 + x.type * 2 ^ 4 + (if x.fault = true then 8 else 0) + x.state.num) % 2 ^ 32 := BitVec.toNat_ofNat _ _

theorem Stepped.tileOf {i : Instr} {s : State} {g : Group} {k : Nat} {u : Thread} {p : State} (hp : Stepped i s g k u p) (cl n : Nat) :
    p.tileOf cl n = s.tileOf cl n := by
  unfold State.tileOf
  rw [hp.kept.tiles]

theorem Stepped.freeTile {i : Instr} {s : State} {g : Group} {k : Nat} {u : Thread} {p : State} (hp : Stepped i s g k u p) (cl n : Nat) :
    p.freeTile cl n = { p with tiles := (s.freeTile cl n).tiles } := by
  simp only [State.freeTile, hp.kept.tiles]

theorem Stepped.modTile {i : Instr} {s : State} {g : Group} {k : Nat} {u : Thread} {p : State} (hp : Stepped i s g k u p) (cl n : Nat)
    (f : Tile → Tile) : p.modTile cl n f = { p with tiles := (s.modTile cl n f).tiles } := by
  simp only [State.modTile, hp.kept.tiles]

/-! TWAIT (R229), and sleep as such (R66). -/

/-- A member as a waiting instruction puts it to sleep. -/
def Thread.sleep (w : WaitKind) (d deadline : Nat) (u : Thread) : Thread :=
  { u with status := .asleep w, deadline := deadline, waitSlot := u.nextSlot }.addResult (u.dests d 1) none

theorem sleepOn_members (g : Group) (k d : Nat) (w : WaitKind) (t : State) :
    Kept t (sleepOn w (some d) g k t) g.ctx g.wg [k] ∧ (sleepOn w (some d) g k t).threadOf g.ctx g.wg k =
      (t.threadOf g.ctx g.wg k).map (Thread.sleep w d (t.dieTime (coreDie g.core) + waitLimit t g)) :=
  ⟨Kept.modThread t g.ctx g.wg k (Thread.sleep w d (t.dieTime (coreDie g.core) + waitLimit t g)) (fun _ => rfl) [k] (by simp),
    State.threadOf_modThread_same t g.ctx g.wg k (Thread.sleep w d (t.dieTime (coreDie g.core) + waitLimit t g)) (fun _ => rfl)⟩

theorem Kept.waitLimit {s t : State} {c w : Nat} {tids : List Nat} (h : Kept s t c w tids) (g : Group) :
    Machine.waitLimit t g = Machine.waitLimit s g := by
  simp only [Machine.waitLimit, h.launch]

theorem Kept.dieTime {s t : State} {c w : Nat} {tids : List Nat} (h : Kept s t c w tids) (d : Nat) : t.dieTime d = s.dieTime d := by
  rw [h.rest]; rfl

theorem sleeps_of_sleep (i : Instr) (w : WaitKind) (limit now pc d : Nat) (u : Thread) :
    Sleeps i w limit now pc (some d) u (({ u with pc := pc, holdPc := none }.sleep w d (now + limit)).goOn i) := rfl

/-- A waiting instruction whose wait hangs on its member's thread (R66). -/
theorem issue_sleeps {i : Instr} {chk : State → Group → Thread → Option TrapInfo} {d : Nat} {w : Thread → WaitKind} {s : State} {g : Group}
    (h : issuable i s g = true) (hchk : Members s g (fun u => chk { s with group := none } g u = none))
    (hw : ∀ u pc, w { u with pc := pc, holdPc := none } = w u)
    (hexec : exec i s = .next (issue i chk (fun s g tid => match s.threadOf g.ctx g.wg tid with
      | none => s
      | some t => sleepOn (w t) (some d) g tid s) s)) :
    Performs i s g (fun u v => Sleeps i (w u) (waitLimit s g) (s.dieTime (coreDie g.core)) (g.pc + i.bytes) (some d) u v) := by
  rw [issue_passes h hchk] at hexec
  obtain ⟨honly, heach⟩ := issue_members (eff := fun s g tid => match s.threadOf g.ctx g.wg tid with
      | none => s
      | some t => sleepOn (w t) (some d) g tid s)
    (φ := fun _ u => u.sleep (w u) d (s.dieTime (coreDie g.core) + waitLimit s g)) h (fun t k hk ht => by
    cases hu : t.threadOf g.ctx g.wg k with
    | none => exact ⟨Kept.refl _ _ _ _, hu⟩
    | some u =>
      obtain ⟨hkept, hthread⟩ := sleepOn_members g k d (w u) t
      refine ⟨hkept, ?_⟩
      rw [hthread, hu, Option.map_some, Option.map_some, ht.dieTime, ht.waitLimit]
      rfl)
  refine ⟨_, hexec, honly, fun k hk => ?_⟩
  obtain ⟨u, hu, -, hv⟩ := heach k hk
  refine ⟨u, _, hu, hv, ?_⟩
  show Sleeps i (w u) _ _ _ _ u _
  rw [hw u (g.pc + i.bytes)]
  exact sleeps_of_sleep i _ _ _ _ d u

theorem twaitCheck_passes {x n : Word} {s : State} {g : Group} (hstate : n = 1 ∨ n = 3) (hx : x.toNat < 1024)
    (hheld : (s.heldTile g.ctx (coreCluster g.core) x.toNat).isSome = true) :
    (if n.toNat != 1 && n.toNat != 3 then trapOf .illegal 0 else tileCheck s g x.toNat) = none := by
  rcases hstate with rfl | rfl <;> exact tileCheck_held hx hheld

/-! The five instructions. -/

theorem talloc_lone (sw : Bool) (d : Reg) (s : State) (g : Group) (l : Launch) (k : Nat) (hl : s.launch g.ctx = some l)
    (h : issuable (.talloc sw d) s g = true) (htids : g.tids = [k]) :
    (l.img.tiles ≤ (s.tiles.filter (fun t => t.cluster == coreCluster g.core && t.ctx == g.ctx)).length →
      Performs (.talloc sw d) s g (fun u v => Owes (.talloc sw d) (g.pc + 4) d.toNat [0xFFFFFFF8] u v)) ∧
    (∀ n, (s.tiles.filter (fun t => t.cluster == coreCluster g.core && t.ctx == g.ctx)).length < l.img.tiles → n < 1024 →
      (∀ t ∈ s.tiles, t.cluster = coreCluster g.core → t.number ≠ n) →
      (∀ j < n, ∃ t ∈ s.tiles, t.cluster = coreCluster g.core ∧ t.number = j) →
      Answers (.talloc sw d) s g k d (BitVec.ofNat 32 n) (fun t _ => ∃ x : Tile, t.tiles = s.tiles ++ [x] ∧ x.cluster = coreCluster g.core ∧
        x.number = n ∧ x.state = .empty ∧ x.fault = false ∧ x.readers = 0 ∧ x.ctx = g.ctx)) := by
  obtain ⟨u, hu, -⟩ := issuable_member h (k := k) (by simp [htids])
  refine ⟨fun hfull => ?_, fun n hroom hn hfree hless => ?_⟩
  · refine statusOp_owes (chk := noCheck) (f := fun s g _ => allocTile s g) h htids hu rfl (fun p hp => ?_) rfl
    exact allocTile_full ((hp.kept.launch _).trans hl) (by rwa [hp.kept.tiles])
  · refine statusOp_answers (chk := noCheck) (f := fun s g _ => allocTile s g) (tl := s.tiles ++ [emptyTile (coreCluster g.core) n g.ctx]) h htids hu
      rfl (fun p hp => ?_) rfl (fun t _ ht => ⟨_, ht, rfl, rfl, rfl, rfl, rfl, rfl⟩)
    have htiles : p.tiles = s.tiles := hp.kept.tiles
    have halloc := allocTile_lowest (s := p) (n := n) ((hp.kept.launch _).trans hl) (by rwa [htiles]) hn (by rwa [htiles]) (by rwa [htiles])
    rwa [htiles] at halloc

section
variable {s : State} {g : Group} {k : Nat} {u : Thread} {sw : Bool} {d a : Reg} {x : Tile} (htids : g.tids = [k])
  (hu : s.threadOf g.ctx g.wg k = some u) (hn : (u.readW a.toNat).toNat < 1024)
  (hheld : s.heldTile g.ctx (coreCluster g.core) (u.readW a.toNat).toNat = some x)
include hn hheld in
theorem tileCheck_passes : tileCheck { s with group := none } g (u.readW a.toNat).toNat = none :=
  tileCheck_held (s := { s with group := none }) hn (by rw [show State.heldTile { s with group := none } _ _ _ = some x from hheld]; rfl)

include htids hu hn hheld

theorem tfree_lone (h : issuable (.tfree sw d a) s g = true) :
    ((x.state = .empty ∨ x.state = .ready) ∧ x.readers = 0 →
      Answers (.tfree sw d a) s g k d 0 (fun t _ => t.tileOf (coreCluster g.core) (u.readW a.toNat).toNat = none)) ∧
    (¬((x.state = .empty ∨ x.state = .ready) ∧ x.readers = 0) →
      Performs (.tfree sw d a) s g (fun u v => Owes (.tfree sw d a) (g.pc + 4) d.toNat [0xFFFFFFF7] u v)) := by
  have hpass := tileCheck_passes hn hheld
  have hx := State.tileOf_of_held hheld
  refine ⟨fun hfree => ?_, fun hbusy => ?_⟩
  · refine statusOp_answers (f := fun s g t => freeOp s g (t.readW (rn a)).toNat)
      (tl := (s.freeTile (coreCluster g.core) (u.readW a.toNat).toNat).tiles) h htids hu hpass (fun p hp => ?_) rfl (fun t _ ht => ?_)
    · rw [← hp.freeTile]
      exact freeOp_accepted (s := p) ((hp.tileOf _ _).trans hx) hfree
    · rw [State.tileOf, ht]
      exact State.tileOf_freeTile s _ _
  · exact statusOp_owes (f := fun s g t => freeOp s g (t.readW (rn a)).toNat) h htids hu hpass
      (fun p hp => freeOp_busy (s := p) ((hp.tileOf _ _).trans hx) hbusy) rfl

theorem tstate_lone (h : issuable (.tstate sw d a) s g = true) :
    Performs (.tstate sw d a) s g (fun u v => Owes (.tstate sw d a) (g.pc + 4) d.toNat [tileWord x] u v) := by
  have hx := State.tileOf_of_held hheld
  refine statusOp_owes (f := fun s g t => (s, ((s.tileOf (coreCluster g.core) (t.readW (rn a)).toNat).map tileWord).getD 0)) h htids hu
    (tileCheck_passes hn hheld) (fun p hp => ?_) rfl
  exact congrArg (fun y => (p, (Option.map tileWord y).getD 0)) ((hp.tileOf _ _).trans hx)

theorem tset_lone (h : issuable (.tset sw d a) s g = true) :
    (x.state = .ready ∨ x.state = .draining →
      Answers (.tset sw d a) s g k d 0 (fun t _ =>
        (t.tileOf (coreCluster g.core) (u.readW a.toNat).toNat).map Tile.state = some (if x.readers = 0 then .empty else .draining))) ∧
    (x.state = .empty ∨ x.state = .filling →
      Performs (.tset sw d a) s g (fun u v => Owes (.tset sw d a) (g.pc + 4) d.toNat [0xFFFFFFFA] u v)) := by
  have hpass := tileCheck_passes hn hheld
  have hx := State.tileOf_of_held hheld
  refine ⟨fun hready => ?_, fun hwrong => ?_⟩
  · refine statusOp_answers (f := fun s g t => setOp s g (t.readW (rn a)).toNat)
      (tl := (s.modTile (coreCluster g.core) (u.readW a.toNat).toNat Tile.release).tiles) h htids hu hpass (fun p hp => ?_) rfl (fun t _ ht => ?_)
    · rw [← hp.modTile]
      exact setOp_accepted (s := p) ((hp.tileOf _ _).trans hx) hready
    · have hreleased := State.tileOf_modTile hx Tile.release_keeps
      rw [State.tileOf, ht, ← Tile.release_state hready]
      exact congrArg (Option.map Tile.state) hreleased
  · exact statusOp_owes (f := fun s g t => setOp s g (t.readW (rn a)).toNat) h htids hu hpass
      (fun p hp => setOp_wrongState (s := p) ((hp.tileOf _ _).trans hx) hwrong) rfl

end

/-- An instruction of R227 on a tile that the launch does not hold. -/
theorem tileCheck_traps {i : Instr} {a d : Reg} {f : State → Group → Thread → State × Word} {s : State} {g : Group} {k : Nat} {u : Thread}
    (h : issuable i s g = true) (hallowed : txAllowed i = false) (htids : g.tids = [k]) (hu : s.threadOf g.ctx g.wg k = some u)
    (hn : (u.readW a.toNat).toNat < 1024) (hnot : s.heldTile g.ctx (coreCluster g.core) (u.readW a.toNat).toNat = none)
    (hexec : exec i s = .next (statusOp i (fun s g t => tileCheck s g (t.readW (rn a)).toNat) d f s)) : Traps i s g .access 0 k := by
  have hout := tx_inactive_of_issuable h hallowed (by simp [htids]) hu
  have hcheck : tileCheck { s with group := none } g (u.readW a.toNat).toNat = trapOf .access 0 := tileCheck_notHeld (s := { s with group := none }) hn hnot
  exact hexec.trans (congrArg _ (issueHeld_traps (issuable_group h)
    (issueFault_outside (chk := fun s g t => tileCheck s g (t.readW (rn a)).toNat) h htids hu hout hcheck)))

/-- Settles O31: each instruction by what it leaves of the tile table and the word that it owes; TWAIT by the sleep of its members. -/
theorem tiles : Obligations.Tiles := by
  unfold Obligations.Tiles
  refine ⟨talloc_lone, ?_, ?_, fun sw d a b s g h hall => ?_⟩
  · rintro sw d a s g k u n x htids hu rfl hn hheld
    refine ⟨tfree_lone htids hu hn hheld, fun h => ?_, tset_lone htids hu hn hheld⟩
    obtain ⟨t, hexec, honly, heach⟩ := tstate_lone htids hu hn hheld h
    exact ⟨t, hexec, honly, heach.imp (fun _ _ howes => ⟨_, tileWord_toNat x, howes⟩)⟩
  · rintro i sw d a s g k u hi h htids hu hn hnot
    rcases hi with rfl | rfl | rfl <;> exact tileCheck_traps (d := d) h rfl htids hu hn hnot rfl
  · refine issue_sleeps (w := fun u => .twait (u.readW a.toNat).toNat (u.readW b.toNat).toNat) h (fun k hk u hu => ?_) (fun _ _ => rfl) rfl
    obtain ⟨hn, hstate, hheld⟩ := hall k hk u hu
    exact twaitCheck_passes (s := { s with group := none }) hstate hn hheld

end Sys2Proof.Machine

end

section
/-! SUPPORT. Statement O18: the first touch of a polder line by a load or store of a lone member (R122, R123), and an access to a lost page. -/

namespace Sys2Proof.Machine

/-! The checks of a load or store outside any transaction. -/

/-- R150: the conditions of `Reachable` are those of the check. -/
theorem accessCheck_reachable {s : State} {l : Launch} {core addr n : Nat} {parent : Option Nat} {isStore constant : Bool}
    (h : Reachable s l core parent addr n isStore constant) : accessCheck s l core parent addr n isStore constant = none := by
  obtain ⟨halign, hbad, hpriv, hscratch, hstore, hconstant, hlease⟩ := h
  cases hc : classOfRange addr n with
  | bad => exact absurd hc hbad
  | priv =>
    have hnot : constant = false := by simpa [hc] using hconstant
    simp [accessCheck, halign, hc, hnot, hpriv hc]
  | scratch =>
    have hnot : constant = false := by simpa [hc] using hconstant
    simp [accessCheck, halign, hc, hnot, hscratch hc]
  | global =>
    have hallowed : (isStore && (l.readOnlyAt addr n || l.stampedAt addr n || l.sluiceAt addr n)) = false := by
      cases hs : isStore
      · rfl
      · obtain ⟨hreadOnly, hstamped, hsluice⟩ := hstore hs hc
        simp [hreadOnly, hstamped, hsluice]
    simp [accessCheck, halign, hc, hallowed, hlease hc]

/-- R175: a workgroup that holds the token has not passed it. -/
theorem gateCheck_of_token {l : Launch} {wg addr n : Nat} (h : l.gated addr n = true → l.holdsToken wg = true) : gateCheck l wg addr n = none := by
  unfold gateCheck
  by_cases hg : l.gated addr n = true
  · have htoken : (l.img.det = true ∧ wg = l.token) ∧ l.passing = false := by simpa [Launch.holdsToken] using h hg
    obtain ⟨⟨-, rfl⟩, hpassing⟩ := htoken
    simp [Launch.tokenPassed, hpassing]
  · simp [hg]

theorem gateHold_of_token {l : Launch} {wg addr n : Nat} (h : l.gated addr n = true → l.holdsToken wg = true) : gateHold l wg addr n = none := by
  unfold gateHold
  by_cases hg : l.gated addr n = true
  · simp [h hg]
  · simp [hg]

/-- A lone member has no lower ones. -/
theorem polderCheck_lone {s : State} {g : Group} {l : Launch} {k : Nat} {u : Thread} {addr : Thread → Nat} (hl : s.launch g.ctx = some l)
    (htids : g.tids = [k]) (hu : s.threadOf g.ctx g.wg k = some u) : polderCheck addr s g u = breachCheck s l [] (addr u) := by
  simp [polderCheck, withLaunch, hl, State.lowerMembers, State.members_cons htids hu]

theorem memCheck_lone {s : State} {g : Group} {l : Launch} {k n : Nat} {u : Thread} {addr : Thread → Nat} {isStore constant : Bool}
    (hl : s.launch g.ctx = some l) (htids : g.tids = [k]) (hu : s.threadOf g.ctx g.wg k = some u) (hout : u.tx.active = false)
    (hreach : Reachable s l g.core u.parent (addr u) n isStore constant)
    (htoken : isStore = true → l.gated (addr u) n = true → l.holdsToken g.wg = true) :
    memCheck addr n isStore constant s g u = breachCheck s l [] (addr u) := by
  have hgate : (if isStore then gateCheck l g.wg (addr u) n else none) = none := by
    cases isStore
    · rfl
    · exact gateCheck_of_token (htoken rfl)
  simp only [memCheck, withLaunch, hl, accessCheck_reachable hreach, hout, hgate, orTrap, Bool.false_and, Bool.false_eq_true, if_false]
  exact polderCheck_lone hl htids hu

/-- What `issuableOutside` says of the group, and of each member. -/
theorem issuableOutside_members {i : Instr} {s : State} {g : Group} (h : issuableOutside i s g = true) :
    issuable i s g = true ∧ Members s g (fun u => u.tx.active = false) := by
  simp only [issuableOutside, Bool.and_eq_true, List.all_eq_true] at h
  obtain ⟨hissue, hout⟩ := h
  exact ⟨hissue, fun k hk u hu => by simpa [hu] using hout k hk⟩

/-! The line that an access touches (R122, R123). -/

section
variable {s : State} {l : Launch} {va : Nat} {r : Region} (hr : l.polderAt va = some r)
include hr

theorem breachCheck_lost {x : Bool} (hpage : s.polderPage l.ctx (r.pageOf va) = some (.lost x)) (lower : List Nat) :
    breachCheck s l lower va = trapOf .polderBreach va := by
  simp [breachCheck, hr, hpage]

variable (hpage : s.polderPage l.ctx (r.pageOf va) = none ∨ ∃ x, s.polderPage l.ctx (r.pageOf va) = some (.moved x))
  (hline : (l.ctx, va / 128) ∉ s.polderLines)
include hpage hline

theorem breachCheck_fresh : breachCheck s l [] va =
    if r.late then none else if (s.polderHeld l.ctx r + 1) * 128 ≤ s.polderCap l.ctx r then none else trapOf .polderBreach va := by
  have hnew : newLines s l r [] = [] := rfl
  rcases hpage with hpage | ⟨x, hpage⟩ <;> simp [breachCheck, hr, hpage, hline, hnew]

theorem polderAlloc_fresh : s.polderAlloc l va =
    if (s.polderHeld l.ctx r + 1) * 128 ≤ s.polderCap l.ctx r then
      .done { s with polderLines := s.polderLines ++ [(l.ctx, va / 128)], mem := Cells.zero s.mem (polderKey l.ctx (va / 128 * 128)) 128 }
    else if r.late then .done (s.backPage l.ctx r (r.pageOf va)) else .breach s := by
  rcases hpage with hpage | ⟨x, hpage⟩ <;> simp [State.polderAlloc, hr, hpage, hline]

theorem touchAtIssue_room (hl : s.launch l.ctx = some l) (hroom : (s.polderHeld l.ctx r + 1) * 128 ≤ s.polderCap l.ctx r) :
    s.touchAtIssue l.ctx va =
      { s with polderLines := s.polderLines ++ [(l.ctx, va / 128)], mem := Cells.zero s.mem (polderKey l.ctx (va / 128 * 128)) 128 } := by
  simp only [State.touchAtIssue, hl, polderAlloc_fresh hr hpage hline, if_pos hroom]

theorem touchAtIssue_late (hl : s.launch l.ctx = some l) (hfull : s.polderCap l.ctx r < (s.polderHeld l.ctx r + 1) * 128) (hlate : r.late = true) :
    s.touchAtIssue l.ctx va = s.backPage l.ctx r (r.pageOf va) := by
  simp only [State.touchAtIssue, hl, polderAlloc_fresh hr hpage hline, if_neg (Nat.not_le.mpr hfull), if_pos hlate]

end

/-- Touching a line at issue sends nothing, and numbers nothing. -/
theorem State.touchAtIssue_rest (s : State) (ctx va : Nat) : (s.touchAtIssue ctx va).flight = s.flight ∧ (s.touchAtIssue ctx va).nextId = s.nextId := by
  unfold State.touchAtIssue
  split
  · exact ⟨rfl, rfl⟩
  · rename_i l _
    rcases s.polderAlloc_cases l va with ⟨_, hcase⟩ | ⟨r, _, ⟨_, hcase⟩ | ⟨_, hcase⟩ | ⟨_, ⟨_, hcase⟩ | ⟨_, _, hcase⟩ | ⟨_, _, hcase⟩⟩⟩
    all_goals
      rw [hcase]
      exact ⟨rfl, rfl⟩

theorem State.polderPage_backPage (s : State) (ctx page : Nat) (r : Region) : (s.backPage ctx r page).polderPage ctx page =
    some (.backed ((s.polderLines.filter (fun p => p.1 == ctx && r.pageOf (p.2 * 128) == page)).length * 128)) := by
  simp [State.polderPage, State.backPage, State.setPolderPage]

/-- Memory with a polder line's bytes filled with zeros (R122). -/
theorem stored_zero {m : List Host.Cell} (hm : Memory.wf m = true) (key n : Nat) : Stored m (Cells.zero m key n) key (List.replicate n 0) := by
  refine ⟨fun i hi => ?_, fun x hx => ?_⟩
  · have hi : i < n := by simpa using hi
    rw [Cells.get_zero hm, if_pos ⟨Nat.le_add_right key i, Nat.add_lt_add_left hi key⟩]
    simp [nth, hi]
  · rw [List.length_replicate] at hx
    rw [Cells.get_zero hm, if_neg (by omega)]

/-! The access that a lone member sends. -/

/-- What a load and a store of a lone member have in common: a breach that their check finds is raised, and where it finds none the polder
line is touched and the access `a` leaves, from a state that has moved the member's PC on. -/
structure SendsTouching (i : Instr) (s : State) (g : Group) (k : Nat) (u : Thread) (l : Launch) (addr : Nat) (a : Access) : Prop where
  breach : breachCheck s l [] addr = trapOf .polderBreach addr → Traps i s g .polderBreach addr k
  sent : breachCheck s l [] addr = none → ∃ p t, Stepped i s g k u p ∧ exec i s = .next t ∧
    Kept { p.touchAtIssue g.ctx addr with flight := s.flight ++ [a], nextId := s.nextId + 1 } t g.ctx g.wg [k]

/-- The access as it leaves the state that has moved the member's PC on. -/
theorem sentAccess_stepped {i : Instr} {s p : State} {g : Group} {k : Nat} {u : Thread} (hu : s.threadOf g.ctx g.wg k = some u)
    (hp : Stepped i s g k u p) (path : Path) (op : AccOp) (addr n : Nat) (slot : Option Nat) :
    sentAccess s g path op addr n 0 slot s.nextId u =
      { id := p.nextId, ctx := g.ctx, wg := g.wg, tid := k, core := g.core, path := path, op := op, addr := addr, size := n, scope := 0, slot := slot,
        gens := if classOf addr == .scratch then p.granuleGens (coreCluster g.core) addr n else [], gid := groupId p g, pc := g.pc, taken := 0,
        tx := none, after := u.seen } := by
  rw [hp.rest, sentAccess, State.threadOf_tid hu]
  simp only [beq_iff_eq]
  rfl

/-- An access that touches its polder line, sent by the lone member of an issue. -/
theorem send_touching {i : Instr} {s p : State} {g : Group} {k : Nat} {u : Thread} {path : Path} {op : AccOp} {addr n d w : Nat}
    (hu : s.threadOf g.ctx g.wg k = some u) (hp : Stepped i s g k u p) (htouch : op.touches = true) :
    Kept { p.touchAtIssue g.ctx addr with
        flight := s.flight ++ [sentAccess s g path op addr n 0 (if w = 0 then none else some u.nextSlot) s.nextId u], nextId := s.nextId + 1 }
      (p.send g k path op addr n 0 d w none (groupId p g)) g.ctx g.wg [k] := by
  obtain ⟨hflight, hnext⟩ := p.touchAtIssue_rest g.ctx addr
  have hflight' : p.flight = s.flight := by rw [hp.rest]
  have hnext' : p.nextId = s.nextId := by rw [hp.rest]
  simp only [State.send, hp.thread, htouch, if_true, hflight, hnext, ← sentAccess_stepped hu hp path op addr n]
  rw [hflight', hnext']
  split
  · exact Kept.refl _ _ _ _
  · exact Kept.modThread _ _ _ k (fun t => t.addResult (t.dests d w) none) (fun _ => rfl) [k] (by simp)

/-! Loads and stores. -/

section
variable {s : State} {g : Group} {l : Launch} {k n : Nat} {u : Thread} {i : Instr} {addr : Thread → Nat} (hl : s.launch g.ctx = some l)
  (h : issuableOutside i s g = true) (htids : g.tids = [k]) (hu : s.threadOf g.ctx g.wg k = some u)
include hl h htids hu

/-- An issue whose check is that of a load or store, which holds at nothing and sends one access that touches its polder line. -/
theorem sendsTouching_of {isStore constant : Bool} {hold : State → Group → Thread → Option HoldKind} {eff : State → Group → Nat → State}
    {path : Path} {op : AccOp} {d w : Nat} (hreach : Reachable s l g.core u.parent (addr u) n isStore constant)
    (htoken : isStore = true → l.gated (addr u) n = true → l.holdsToken g.wg = true) (hhold : hold { s with group := none } g u = none)
    (htouch : op.touches = true)
    (heff : ∀ p, Stepped i s g k u p → eff p g k = p.send g k path op (addr u) n 0 d w none (groupId p g))
    (hexec : exec i s = .next (issueHeld i (memCheck addr n isStore constant) hold eff s)) :
    SendsTouching i s g k u l (addr u) (sentAccess s g path op (addr u) n 0 (if w = 0 then none else some u.nextSlot) s.nextId u) := by
  obtain ⟨hissue, hout⟩ := issuableOutside_members h
  have hcheck : memCheck addr n isStore constant { s with group := none } g u = breachCheck s l [] (addr u) :=
    memCheck_lone (s := { s with group := none }) hl htids hu (hout k (by simp [htids]) u hu) hreach htoken
  refine ⟨fun hbreach => ?_, fun hpass => ?_⟩
  · exact hexec.trans (congrArg _ (issueHeld_traps (issuable_group hissue) (issueFault_operand hissue htids hu (hcheck.trans hbreach) rfl)))
  · obtain ⟨p, hp, hlone⟩ := issueHeld_lone (eff := eff) hissue htids hu (hcheck.trans hpass) hhold
    refine ⟨p, _, hp, hexec, ?_⟩
    rw [hlone, heff p hp]
    exact (send_touching hu hp htouch).trans (Kept.advance i g _ k [k] (by simp))

theorem loadOp_sends {d : Reg} {words : Nat} {signed : Bool} {path : Path} (hn : n ≠ 16) (hwords : words ≠ 0)
    (haddr : ∀ pc, addr { u with pc := pc, holdPc := none } = addr u)
    (hreach : Reachable s l g.core u.parent (addr u) n false (path == .con)) (hexec : exec i s = .next (loadOp i d n words signed path addr s)) :
    SendsTouching i s g k u l (addr u) (sentAccess s g path (.load signed words) (addr u) n 0 (some u.nextSlot) s.nextId u) := by
  have hout := (issuableOutside_members h).2 k (by simp [htids]) u hu
  have hsends := sendsTouching_of hl h htids hu (path := path) (op := .load signed words) (d := rn d) (w := words) hreach (by simp) (by rfl) (by rfl)
    (fun p hp => by simp [hp.thread, hout, haddr, sendLoad, hn]) hexec
  rwa [if_neg hwords] at hsends

theorem storeOp_sends {d : Reg} (hn : n ≠ 16) (haddr : ∀ pc, addr { u with pc := pc, holdPc := none } = addr u)
    (hreach : Reachable s l g.core u.parent (addr u) n true false) (htoken : l.gated (addr u) n = true → l.holdsToken g.wg = true)
    (hexec : exec i s = .next (storeOp i d n addr s)) :
    SendsTouching i s g k u l (addr u) (sentAccess s g .ord (.store (if n = 8 then u.readPair d.toNat else (u.readW d.toNat).toNat)) (addr u) n 0
      none s.nextId u) := by
  have hout := (issuableOutside_members h).2 k (by simp [htids]) u hu
  have hdata : storeData { u with pc := g.pc + i.bytes, holdPc := none } (rn d) n = if n = 8 then u.readPair d.toNat else (u.readW d.toNat).toNat := by
    rw [storeData, if_neg hn]
    rfl
  have hhold : storeHold addr n { s with group := none } g u = none := by
    simp only [storeHold, withLaunch, show State.launch { s with group := none } g.ctx = some l from hl, gateHold_of_token htoken]
  exact sendsTouching_of hl h htids hu (d := 0) (w := 0) hreach (fun _ => htoken) hhold (by rfl)
    (fun p hp => by simp [hp.thread, hout, haddr, sendStore, hn, hdata]) hexec

end

/-- The immediate loads by one operation (R149). -/
theorem exec_load : ∀ p ∈ loadTable, ∀ (sw : Bool) (d a : Reg) (m : BitVec 7) (s : State), exec (p.1 sw d a m) s =
    .next (loadOp (p.1 sw d a m) d p.2.2.1 p.2.2.2.1 p.2.2.2.2.1 p.2.2.2.2.2 (fun u => addrImm u a m p.2.2.1) s) := by
  simp only [loadTable, List.forall_mem_cons, List.not_mem_nil, false_imp_iff, implies_true, and_true]
  refine ⟨?_, ?_, ?_, ?_, ?_, ?_, ?_, ?_⟩ <;> exact fun _ _ _ _ _ => rfl

/-- The immediate stores by one operation (R149). -/
theorem exec_store : ∀ p ∈ storeTable, ∀ (sw : Bool) (d a : Reg) (m : BitVec 7) (s : State), exec (p.1 sw d a m) s =
    .next (storeOp (p.1 sw d a m) d p.2.2 (fun u => addrImm u a m p.2.2) s) := by
  simp only [storeTable, List.forall_mem_cons, List.not_mem_nil, false_imp_iff, implies_true, and_true]
  refine ⟨?_, ?_, ?_, ?_⟩ <;> exact fun _ _ _ _ _ => rfl

theorem loadTable_sizes : ∀ p ∈ loadTable, p.2.2.1 ≠ 16 ∧ p.2.2.2.1 ≠ 0 := by decide

theorem storeTable_sizes : ∀ p ∈ storeTable, p.2.2 ≠ 16 := by decide

/-! What comes of the polder line (R122, R123). -/

section
variable {s : State} {g : Group} {l : Launch} {k addr : Nat} {u : Thread} {i : Instr} {r : Region} {a : Access}
  (hsends : SendsTouching i s g k u l addr a) (hr : l.polderAt addr = some r)
include hsends hr

theorem SendsTouching.lost {x : Bool} (hpage : s.polderPage l.ctx (r.pageOf addr) = some (.lost x)) : Traps i s g .polderBreach addr k :=
  hsends.breach (breachCheck_lost hr hpage [])

variable (hpage : s.polderPage l.ctx (r.pageOf addr) = none ∨ ∃ x, s.polderPage l.ctx (r.pageOf addr) = some (.moved x))
  (hline : (l.ctx, addr / 128) ∉ s.polderLines)
include hpage hline

theorem SendsTouching.full (hfull : s.polderCap l.ctx r < (s.polderHeld l.ctx r + 1) * 128) (hlate : r.late = false) :
    Traps i s g .polderBreach addr k := by
  refine hsends.breach ?_
  rw [breachCheck_fresh hr hpage hline, hlate, if_neg Bool.false_ne_true, if_neg (Nat.not_le.mpr hfull)]

variable (hl : s.launch l.ctx = some l) (hctx : l.ctx = g.ctx)
include hl hctx

theorem SendsTouching.room (hroom : (s.polderHeld l.ctx r + 1) * 128 ≤ s.polderCap l.ctx r) :
    ∃ t, exec i s = .next t ∧ t.polderLines = s.polderLines ++ [(l.ctx, addr / 128)] ∧ t.polderPages = s.polderPages ∧
      t.flight = s.flight ++ [a] ∧ t.scratch = s.scratch ∧
      (s.canonical = true → Stored s.mem t.mem (polderKey g.ctx (addr / 128 * 128)) (List.replicate 128 0)) := by
  have hpass : breachCheck s l [] addr = none := by rw [breachCheck_fresh hr hpage hline, if_pos hroom, ite_self]
  obtain ⟨p, t, hp, hexec, hkept⟩ := hsends.sent hpass
  have htouched : p.touchAtIssue l.ctx addr =
      { p with polderLines := s.polderLines ++ [(l.ctx, addr / 128)], mem := Cells.zero s.mem (polderKey l.ctx (addr / 128 * 128)) 128 } := by
    rw [hp.rest]
    exact touchAtIssue_room (s := { s with group := none, wgs := p.wgs }) hr hpage hline hl hroom
  rw [← hctx, htouched, hp.rest] at hkept
  refine ⟨t, hexec, ?_, ?_, ?_, ?_, fun hs => ?_⟩
  all_goals rw [hkept.rest]
  rw [← hctx]
  exact stored_zero (State.canonical_iff.mp hs).1 _ _

theorem SendsTouching.late (hfull : s.polderCap l.ctx r < (s.polderHeld l.ctx r + 1) * 128) (hlate : r.late = true) :
    ∃ t, exec i s = .next t ∧ t.polderPage l.ctx (r.pageOf addr) =
      some (.backed ((s.polderLines.filter (fun p => p.1 == l.ctx && r.pageOf (p.2 * 128) == r.pageOf addr)).length * 128)) ∧
    t.flight = s.flight ++ [a] ∧ t.scratch = s.scratch := by
  have hpass : breachCheck s l [] addr = none := by rw [breachCheck_fresh hr hpage hline, if_pos hlate]
  obtain ⟨p, t, hp, hexec, hkept⟩ := hsends.sent hpass
  have htouched : p.touchAtIssue l.ctx addr = p.backPage l.ctx r (r.pageOf addr) := by
    rw [hp.rest]
    exact touchAtIssue_late (s := { s with group := none, wgs := p.wgs }) hr hpage hline hl hfull hlate
  have hlines : p.polderLines = s.polderLines := by rw [hp.rest]
  rw [← hctx, htouched] at hkept
  refine ⟨t, hexec, ?_, ?_, ?_⟩
  · rw [← hlines, ← State.polderPage_backPage, hkept.rest]
    rfl
  · rw [hkept.rest]
  · rw [hkept.rest, State.backPage_scratch, hp.rest]

end

/-- Settles O18: loads and stores touch the line in one way, by their check and by what they send. -/
theorem polderTouch : Obligations.PolderTouch := by
  unfold Obligations.PolderTouch
  intro i acc addr n s g l k u r hform hl hctx h htids hu hr
  have hsends : SendsTouching i s g k u l addr (sentAccess s g (acc u).2.1 (acc u).1 addr n 0 (acc u).2.2 s.nextId u) := by
    rcases hform with ⟨p, hp, sw, d, a, m, rfl, rfl, rfl, hreach, rfl⟩ | ⟨p, hp, sw, d, a, m, rfl, rfl, rfl, hreach, htoken, rfl⟩
    · obtain ⟨hn, hwords⟩ := loadTable_sizes p hp
      exact loadOp_sends (addr := fun u => addrImm u a m p.2.2.1) hl h htids hu hn hwords (fun _ => rfl) hreach (exec_load p hp sw d a m s)
    · exact storeOp_sends (addr := fun u => addrImm u a m p.2.2) hl h htids hu (storeTable_sizes p hp) (fun _ => rfl) hreach htoken
        (exec_store p hp sw d a m s)
  rw [← hctx] at hl
  refine ⟨fun ⟨_, hlost⟩ => hsends.lost hr hlost, fun hpage hline => ⟨hsends.room hr hpage hline hl hctx, fun hfull => ⟨?_, ?_⟩⟩⟩
  · exact hsends.full hr hpage hline hfull
  · exact hsends.late hr hpage hline hl hctx hfull

end Sys2Proof.Machine

end

section
/-! SUPPORT. Instructions that write words of their members' registers, or owe them, by the operation that each is. -/

namespace Sys2Proof.Machine

theorem Performs.imp {i : Instr} {s : State} {g : Group} {p q : Thread → Thread → Prop} (h : Performs i s g p) (hpq : ∀ u v, p u v → q u v) :
    Performs i s g q := by
  obtain ⟨t, hexec, honly, heach⟩ := h
  exact ⟨t, hexec, honly, heach.imp hpq⟩

/-- The instructions of a constructor write a word of the registers a, b and d to d as they issue (R59). -/
def WordOp (C : Bool → Reg → Reg → Reg → Instr) (f : Word → Word → Word → Word) : Prop :=
  ∀ sw d a b s, exec (C sw d a b) s = .next (opRRR (C sw d a b) d a b f s) ∧
    namedFields (C sw d a b) = [(d.toNat, 1), (a.toNat, 1), (b.toNat, 1)] ∧ (C sw d a b).bytes = 4

/-- The instructions of a constructor write a word of the register a to d as they issue (R59). -/
def UnaryOp (C : Bool → Reg → Reg → Instr) (f : Word → Word) : Prop :=
  ∀ sw d a s, exec (C sw d a) s = .next (opRI (C sw d a) d a f s) ∧ namedFields (C sw d a) = [(d.toNat, 1), (a.toNat, 1)] ∧ (C sw d a).bytes = 4

section
variable {sw : Bool} {d a b : Reg} {s : State} {g : Group}

theorem WordOp.performs {C : Bool → Reg → Reg → Reg → Instr} {f : Word → Word → Word → Word} (hop : WordOp C f)
    (h : issuable (C sw d a b) s g = true) :
    Performs (C sw d a b) s g (fun u v =>
      Wrote (C sw d a b) (g.pc + 4) d.toNat [f (u.readW a.toNat) (u.readW b.toNat) (u.readW d.toNat)] u v) := by
  obtain ⟨hexec, hnames, hbytes⟩ := hop sw d a b s
  refine ⟨_, hexec, ?_⟩
  rw [← hbytes]
  exact opRRR_wrote h (by simp [hnames])

theorem UnaryOp.performs {C : Bool → Reg → Reg → Instr} {f : Word → Word} (hop : UnaryOp C f) (h : issuable (C sw d a) s g = true) :
    Performs (C sw d a) s g (fun u v => Wrote (C sw d a) (g.pc + 4) d.toNat [f (u.readW a.toNat)] u v) := by
  obtain ⟨hexec, hnames, hbytes⟩ := hop sw d a s
  refine ⟨_, hexec, ?_⟩
  rw [← hbytes]
  exact opRI_wrote h (by simp [hnames])

/-- The word written is the one that stands for a number modulo 2^32. -/
theorem WordOp.computes {C : Bool → Reg → Reg → Reg → Instr} {f : Word → Word → Word → Word} {z : Word → Word → Word → Int}
    (hop : WordOp C f) (hf : ∀ x y w, ((f x y w).toNat : Int) = z x y w % 2 ^ 32) (h : issuable (C sw d a b) s g = true) :
    Performs (C sw d a b) s g (fun u v =>
      ∃ r : Word, (r.toNat : Int) = z (u.readW a.toNat) (u.readW b.toNat) (u.readW d.toNat) % 2 ^ 32 ∧
        Wrote (C sw d a b) (g.pc + 4) d.toNat [r] u v) :=
  (hop.performs h).imp (fun _ _ hw => ⟨_, hf _ _ _, hw⟩)

theorem UnaryOp.computes {C : Bool → Reg → Reg → Instr} {f : Word → Word} {z : Word → Int} (hop : UnaryOp C f)
    (hf : ∀ x, ((f x).toNat : Int) = z x % 2 ^ 32) (h : issuable (C sw d a) s g = true) :
    Performs (C sw d a) s g (fun u v => ∃ r : Word, (r.toNat : Int) = z (u.readW a.toNat) % 2 ^ 32 ∧ Wrote (C sw d a) (g.pc + 4) d.toNat [r] u v) :=
  (hop.performs h).imp (fun _ _ hw => ⟨_, hf _, hw⟩)

/-- An instruction that owes a word of a and b until the park (R59, R60). -/
theorem longOp_performs {i : Instr} {f : Word → Word → Word} (hexec : exec i s = .next (longOp i d a b f s)) (hbytes : i.bytes = 4)
    (h : issuable i s g = true) :
    Performs i s g (fun u v => Owes i (g.pc + 4) d.toNat [f (u.readW a.toNat) (u.readW b.toNat)] u v) := by
  refine ⟨_, hexec, ?_⟩
  rw [← hbytes]
  exact variableOp_owes (f := fun u => f (u.readW a.toNat) (u.readW b.toNat)) h (fun _ _ => rfl)

theorem longOp1_performs {i : Instr} {f : Word → Word} (hexec : exec i s = .next (longOp1 i d a f s)) (hbytes : i.bytes = 4)
    (h : issuable i s g = true) : Performs i s g (fun u v => Owes i (g.pc + 4) d.toNat [f (u.readW a.toNat)] u v) := by
  refine ⟨_, hexec, ?_⟩
  rw [← hbytes]
  exact variableOp_owes (f := fun u => f (u.readW a.toNat)) h (fun _ _ => rfl)

end

/-! Words that stand for numbers modulo 2^32. -/

theorem toNat_emod (x : Word) : (x.toNat : Int) % 2 ^ 32 = x.toNat := by
  have := x.isLt
  omega

theorem toInt_emod (x : Word) : x.toInt % 2 ^ 32 = x.toNat := by
  have := x.isLt
  rw [BitVec.toInt_eq_toNat_cond]
  split <;> omega

theorem toNat_ofInt_word (z : Int) : ((BitVec.ofInt 32 z).toNat : Int) = z % 2 ^ 32 := by
  rw [BitVec.toNat_ofInt]
  exact Int.toNat_of_nonneg (Int.emod_nonneg _ (by decide))

theorem toNat_ofNat_word (n : Nat) : ((BitVec.ofNat 32 n).toNat : Int) = (n : Int) % 2 ^ 32 := by
  rw [BitVec.toNat_ofNat]
  rfl

/-- A choice between words by a test stands for the choice between their numbers. -/
theorem toNat_ite {p : Prop} [Decidable p] {x y : Word} {m n : Int} (hx : (x.toNat : Int) = m % 2 ^ 32) (hy : (y.toNat : Int) = n % 2 ^ 32) :
    (((if p then x else y).toNat : Nat) : Int) = (if p then m else n) % 2 ^ 32 := by
  split
  · exact hx
  · exact hy

theorem flagWord_value (p : Prop) [Decidable p] : ((flagWord (decide p)).toNat : Int) = (if p then 1 else 0) % 2 ^ 32 := by
  by_cases hp : p <;> simp [flagWord, hp]

theorem not_flagWord_value (p : Prop) [Decidable p] : ((flagWord (decide ¬p)).toNat : Int) = (if p then 0 else 1) % 2 ^ 32 := by
  by_cases hp : p <;> simp [flagWord, hp]

section
variable (x y z : Word)

theorem add_value : ((x + y).toNat : Int) = (x.toNat + y.toNat) % 2 ^ 32 := by
  rw [BitVec.toNat_add]
  rfl

theorem sub_value : ((x - y).toNat : Int) = ((x.toNat : Int) - y.toNat) % 2 ^ 32 := by
  rw [BitVec.toNat_sub]
  have := y.isLt
  omega

theorem mul_value : ((x * y).toNat : Int) = (x.toNat * y.toNat) % 2 ^ 32 := by
  rw [BitVec.toNat_mul]
  rfl

theorem mad_value : ((x * y + z).toNat : Int) = (x.toNat * y.toNat + z.toNat) % 2 ^ 32 := by
  rw [add_value, mul_value]
  exact Int.emod_add_emod _ _ _

theorem and_value : ((x &&& y).toNat : Int) = ((x.toNat &&& y.toNat : Nat) : Int) % 2 ^ 32 := by
  rw [← BitVec.toNat_and, toNat_emod]

theorem or_value : ((x ||| y).toNat : Int) = ((x.toNat ||| y.toNat : Nat) : Int) % 2 ^ 32 := by
  rw [← BitVec.toNat_or, toNat_emod]

theorem xor_value : ((x ^^^ y).toNat : Int) = ((x.toNat ^^^ y.toNat : Nat) : Int) % 2 ^ 32 := by
  rw [← BitVec.toNat_xor, toNat_emod]

/-- The bits of x that y does not have are what x loses with those that it shares with y. -/
theorem andn_value : ((x &&& ~~~y).toNat : Int) = ((x.toNat : Int) - (x.toNat &&& y.toNat : Nat)) % 2 ^ 32 := by
  have hdisjoint : (x &&& ~~~y) &&& (x &&& y) = 0#32 := by
    ext j
    cases hy : y[j] <;> simp [hy]
  have hall : (x &&& ~~~y) ||| (x &&& y) = x := by
    ext j
    cases hy : y[j] <;> simp [hy]
  have hsub : x &&& ~~~y = x - (x &&& y) := by
    rw [BitVec.eq_sub_iff_add_eq, BitVec.add_eq_or_of_and_eq_zero _ _ hdisjoint, hall]
  rw [hsub, sub_value, BitVec.toNat_and]

theorem shl_value (k : Nat) : ((x <<< k).toNat : Int) = (x.toNat * 2 ^ k) % 2 ^ 32 := by
  rw [BitVec.toNat_shiftLeft, Nat.shiftLeft_eq]
  push_cast
  rfl

theorem shr_value (k : Nat) : ((x >>> k).toNat : Int) = (x.toNat / 2 ^ k) % 2 ^ 32 := by
  rw [← toNat_emod, BitVec.toNat_ushiftRight, Nat.shiftRight_eq_div_pow]
  push_cast
  rfl

theorem sra_value (k : Nat) : ((x.sshiftRight k).toNat : Int) = (x.toInt / 2 ^ k) % 2 ^ 32 := by
  rw [BitVec.sshiftRight, toNat_ofInt_word, Int.shiftRight_eq_div_pow]
  push_cast
  rfl

/-- The bits that go out above come in below. -/
theorem rot_value {k : Nat} (hk : k < 32) : ((x.rotateLeft k).toNat : Int) = (x.toNat * 2 ^ k + x.toNat / 2 ^ (32 - k)) % 2 ^ 32 := by
  have hlow : x.toNat / 2 ^ (32 - k) < 2 ^ k := by
    rw [Nat.div_lt_iff_lt_mul (Nat.two_pow_pos _), ← Nat.pow_add, Nat.add_sub_cancel' hk.le]
    exact x.isLt
  have hhigh : x.toNat * 2 ^ k % 2 ^ 32 = (x.toNat % 2 ^ (32 - k)) <<< k := by
    rw [Nat.shiftLeft_eq, ← Nat.mul_mod_mul_right, ← Nat.pow_add, Nat.sub_add_cancel hk.le]
  have hsum : (x.rotateLeft k).toNat = x.toNat * 2 ^ k % 2 ^ 32 + x.toNat / 2 ^ (32 - k) := by
    rw [BitVec.rotateLeft_def, Nat.mod_eq_of_lt hk, BitVec.toNat_or, BitVec.toNat_shiftLeft, BitVec.toNat_ushiftRight, Nat.shiftLeft_eq,
      Nat.shiftRight_eq_div_pow, hhigh, ← Nat.shiftLeft_add_eq_or_of_lt hlow]
  rw [← toNat_emod, hsum]
  push_cast
  exact Int.emod_add_emod _ _ _

theorem min_value : (((if x.toInt ≤ y.toInt then x else y).toNat : Nat) : Int) = min x.toInt y.toInt % 2 ^ 32 := by
  rw [min_def]
  exact toNat_ite (toInt_emod x).symm (toInt_emod y).symm

theorem max_value : (((if x.toInt ≤ y.toInt then y else x).toNat : Nat) : Int) = max x.toInt y.toInt % 2 ^ 32 := by
  rw [max_def]
  exact toNat_ite (toInt_emod y).symm (toInt_emod x).symm

theorem minu_value : (((if x.toNat ≤ y.toNat then x else y).toNat : Nat) : Int) = min (x.toNat : Int) y.toNat % 2 ^ 32 := by
  rw [min_def]
  simp only [Nat.cast_le]
  exact toNat_ite (toNat_emod x).symm (toNat_emod y).symm

theorem maxu_value : (((if x.toNat ≤ y.toNat then y else x).toNat : Nat) : Int) = max (x.toNat : Int) y.toNat % 2 ^ 32 := by
  rw [max_def]
  simp only [Nat.cast_le]
  exact toNat_ite (toNat_emod y).symm (toNat_emod x).symm

end

/-! Bit fields (R128). -/

theorem fieldPos_eq (y : Word) : fieldPos y = specPos y := by simp [fieldPos, specPos, bits]

theorem fieldLen_eq (y : Word) : fieldLen y = specLen y := by
  have hlen : bits y.toNat 9 5 = y.toNat / 32 % 32 := rfl
  simp only [fieldLen, specLen, fieldPos_eq, specPos, hlen]
  split <;> omega

theorem fieldValue_eq (x y : Word) : fieldValue x y = x.toNat / 2 ^ specPos y % 2 ^ specLen y := by
  rw [fieldValue, fieldPos_eq, fieldLen_eq]

theorem sextNat_mod (x n : Nat) : sextNat (x % 2 ^ n) n = sextNat x n := by
  rw [sextNat, sextNat, Nat.mod_mod]

theorem bfx_value (x y : Word) : ((BitVec.ofNat 32 (fieldValue x y)).toNat : Int) = (x.toNat / 2 ^ specPos y % 2 ^ specLen y) % 2 ^ 32 := by
  rw [fieldValue_eq, toNat_ofNat_word]
  push_cast
  rfl

theorem bfxs_value (x y : Word) : ((BitVec.ofInt 32 (sextNat (fieldValue x y) (fieldLen y))).toNat : Int) =
    sextNat (x.toNat / 2 ^ specPos y) (specLen y) % 2 ^ 32 := by
  rw [toNat_ofInt_word, fieldValue_eq, fieldLen_eq, sextNat_mod]

theorem fieldInsert_value (x y z : Word) : ((fieldInsert x y z).toNat : Int) =
    ((z.toNat % 2 ^ specPos y + x.toNat % 2 ^ specLen y * 2 ^ specPos y
      + z.toNat / 2 ^ (specPos y + specLen y) * 2 ^ (specPos y + specLen y) : Nat) : Int) % 2 ^ 32 := by
  rw [fieldInsert, fieldPos_eq, fieldLen_eq, toNat_ofNat_word]

/-- Table 2's word operations are operations of the model, with the table's results (R127). -/
theorem wordTable_ops : ∀ p ∈ wordTable, ∃ f, WordOp p.1 f ∧ ∀ x y z, ((f x y z).toNat : Int) = p.2 x y z % 2 ^ 32 := by
  simp only [wordTable, List.forall_mem_cons, List.not_mem_nil, false_imp_iff, implies_true, and_true]
  refine ⟨⟨_, fun _ _ _ _ _ => ⟨rfl, rfl, rfl⟩, fun x y _ => add_value x y⟩,
    ⟨_, fun _ _ _ _ _ => ⟨rfl, rfl, rfl⟩, fun x y _ => sub_value x y⟩,
    ⟨_, fun _ _ _ _ _ => ⟨rfl, rfl, rfl⟩, fun x y _ => mul_value x y⟩,
    ⟨_, fun _ _ _ _ _ => ⟨rfl, rfl, rfl⟩, fun x y _ => toNat_ofInt_word _⟩,
    ⟨_, fun _ _ _ _ _ => ⟨rfl, rfl, rfl⟩, fun x y _ => toNat_ofNat_word _⟩,
    ⟨_, fun _ _ _ _ _ => ⟨rfl, rfl, rfl⟩, fun x y z => mad_value x y z⟩,
    ⟨_, fun _ _ _ _ _ => ⟨rfl, rfl, rfl⟩, fun x y _ => and_value x y⟩,
    ⟨_, fun _ _ _ _ _ => ⟨rfl, rfl, rfl⟩, fun x y _ => or_value x y⟩,
    ⟨_, fun _ _ _ _ _ => ⟨rfl, rfl, rfl⟩, fun x y _ => xor_value x y⟩,
    ⟨_, fun _ _ _ _ _ => ⟨rfl, rfl, rfl⟩, fun x y _ => andn_value x y⟩,
    ⟨_, fun _ _ _ _ _ => ⟨rfl, rfl, rfl⟩, fun x y _ => shl_value x _⟩,
    ⟨_, fun _ _ _ _ _ => ⟨rfl, rfl, rfl⟩, fun x y _ => shr_value x _⟩,
    ⟨_, fun _ _ _ _ _ => ⟨rfl, rfl, rfl⟩, fun x y _ => sra_value x _⟩,
    ⟨_, fun _ _ _ _ _ => ⟨rfl, rfl, rfl⟩, fun x y _ => rot_value x (Nat.mod_lt _ (by decide))⟩,
    ⟨_, fun _ _ _ _ _ => ⟨rfl, rfl, rfl⟩, fun x y _ => min_value x y⟩,
    ⟨_, fun _ _ _ _ _ => ⟨rfl, rfl, rfl⟩, fun x y _ => max_value x y⟩,
    ⟨_, fun _ _ _ _ _ => ⟨rfl, rfl, rfl⟩, fun x y _ => minu_value x y⟩,
    ⟨_, fun _ _ _ _ _ => ⟨rfl, rfl, rfl⟩, fun x y _ => maxu_value x y⟩,
    ⟨_, fun _ _ _ _ _ => ⟨rfl, rfl, rfl⟩, fun x y _ => flagWord_value _⟩,
    ⟨_, fun _ _ _ _ _ => ⟨rfl, rfl, rfl⟩, fun x y _ => not_flagWord_value _⟩,
    ⟨_, fun _ _ _ _ _ => ⟨rfl, rfl, rfl⟩, fun x y _ => flagWord_value _⟩,
    ⟨_, fun _ _ _ _ _ => ⟨rfl, rfl, rfl⟩, fun x y _ => flagWord_value _⟩,
    ⟨_, fun _ _ _ _ _ => ⟨rfl, rfl, rfl⟩, fun x y _ => flagWord_value _⟩,
    ⟨_, fun _ _ _ _ _ => ⟨rfl, rfl, rfl⟩, fun x y _ => flagWord_value _⟩,
    ⟨_, fun _ _ _ _ _ => ⟨rfl, rfl, rfl⟩, fun x y _ => bfx_value x y⟩,
    ⟨_, fun _ _ _ _ _ => ⟨rfl, rfl, rfl⟩, fun x y _ => bfxs_value x y⟩,
    ⟨_, fun _ _ _ _ _ => ⟨rfl, rfl, rfl⟩, fun x y z => fieldInsert_value x y z⟩⟩

theorem issuable_wf {i : Instr} {s : State} {g : Group} (h : issuable i s g = true) : i.wf = true := by
  simp only [issuable, Bool.and_eq_true] at h
  exact h.1.1.1.1.1.2

theorem readPair_lt (u : Thread) (f : Nat) : u.readPair f < 2 ^ 64 := by
  have := (u.readW f).isLt
  have := (u.readW (f + 1)).isLt
  unfold Thread.readPair
  omega

theorem addMod64_value (x : Nat) (i : Int) : (addMod64 x i : Int) % 2 ^ 64 = (x + i) % 2 ^ 64 := by
  rw [addMod64, Int.toNat_of_nonneg (Int.emod_nonneg _ (by decide))]
  exact Int.emod_emod_of_dvd _ (dvd_refl _)

theorem sub64_value (x : Nat) {y : Nat} (hy : y < 2 ^ 64) : ((x + 2 ^ 64 - y : Nat) : Int) % 2 ^ 64 = ((x : Int) - y) % 2 ^ 64 := by
  omega

/-- An operation on pairs (R127), with its result modulo 2^64. -/
theorem opPair_performs {i : Instr} {d a : Reg} {f : Thread → Nat → Nat} {z : Thread → Nat → Int} {s : State} {g : Group}
    (hexec : exec i s = .next (opPair i d a f s) ∧ i.bytes = 4) (hnames : (d.toNat, 2) ∈ namedFields i) (hwf : i.wf = true → pairOk d = true)
    (hpc : ∀ u pc x, f { u with pc := pc, holdPc := none } x = f u x) (hz : ∀ u x, (f u x : Int) % 2 ^ 64 = z u x % 2 ^ 64)
    (h : issuable i s g = true) : Performs i s g (fun u v =>
      ∃ r : Nat, (r : Int) = z u (u.readPair a.toNat) % 2 ^ 64 ∧ Wrote i (g.pc + 4) d.toNat (pairWords r) u v) := by
  have heven : d.toNat % 2 = 0 := by simpa [pairOk] using hwf (issuable_wf h)
  obtain ⟨honly, heach⟩ := opPair_wrote h hnames heven hpc
  rw [hexec.2] at heach
  exact ⟨_, hexec.1, honly, heach.imp (fun u v hw => ⟨_, (hz u _).symm ▸ (Int.natCast_mod _ _), hw⟩)⟩

theorem pairOk_first {p q r : Bool} (h : (p && q && r) = true) : p = true := by simp_all

/-- Table 2's operations on pairs, with the table's results (R127). -/
theorem pairTable_performs : ∀ p ∈ pairTable, ∀ (sw : Bool) (d a b : Reg) (s : State) (g : Group), issuable (p.1 sw d a b) s g = true →
    Performs (p.1 sw d a b) s g (fun u v =>
      ∃ r : Nat, (r : Int) = p.2 (u.readPair a.toNat) (u.readW b.toNat) (u.readPair b.toNat) % 2 ^ 64 ∧
        Wrote (p.1 sw d a b) (g.pc + 4) d.toNat (pairWords r) u v) := by
  simp only [pairTable, List.forall_mem_cons, List.not_mem_nil, false_imp_iff, implies_true, and_true]
  refine ⟨fun sw d a b s g h => ?_, fun sw d a b s g h => ?_, fun sw d a b s g h => ?_, fun sw d a b s g h => ?_, fun sw d a b s g h => ?_⟩
  · exact opPair_performs (z := fun u x => x + u.readPair b.toNat) ⟨rfl, rfl⟩ List.mem_cons_self (fun h => pairOk_first h) (fun _ _ _ => rfl)
      (fun _ _ => by push_cast; rfl) h
  · exact opPair_performs (z := fun u x => (x : Int) - u.readPair b.toNat) ⟨rfl, rfl⟩ List.mem_cons_self (fun h => pairOk_first h) (fun _ _ _ => rfl)
      (fun u x => sub64_value x (readPair_lt u _)) h
  · exact opPair_performs (z := fun u x => x * u.readPair b.toNat) ⟨rfl, rfl⟩ List.mem_cons_self (fun h => pairOk_first h) (fun _ _ _ => rfl)
      (fun _ _ => by push_cast; rfl) h
  · exact opPair_performs (z := fun u x => x + (u.readW b.toNat).toInt) ⟨rfl, rfl⟩ List.mem_cons_self (fun h => (Bool.and_eq_true_iff.mp h).1)
      (fun _ _ _ => rfl) (fun u x => addMod64_value x _) h
  · exact opPair_performs (z := fun u x => x + (u.readW b.toNat).toInt * 4) ⟨rfl, rfl⟩ List.mem_cons_self (fun h => (Bool.and_eq_true_iff.mp h).1)
      (fun _ _ _ => rfl) (fun u x => addMod64_value x _) h

theorem cmov_performs {C : Bool → Reg → Reg → Reg → Instr} {c : Word → Prop} [DecidablePred c] {sw : Bool} {d a b : Reg} {s : State} {g : Group}
    (hexec : exec (C sw d a b) s = .next (condMove (C sw d a b) d a b (fun y => decide (c y)) s) ∧ (C sw d a b).bytes = 4)
    (hnames : (d.toNat, 1) ∈ namedFields (C sw d a b)) (h : issuable (C sw d a b) s g = true) :
    Performs (C sw d a b) s g (fun u v =>
      (c (u.readW b.toNat) → Wrote (C sw d a b) (g.pc + 4) d.toNat [u.readW a.toNat] u v) ∧
      (¬ c (u.readW b.toNat) → Wrote (C sw d a b) (g.pc + 4) d.toNat [] u v)) := by
  obtain ⟨honly, heach⟩ := condMove_wrote (c := fun y => decide (c y)) (a := a) (b := b) h hnames
  rw [hexec.2] at heach
  refine ⟨_, hexec.1, honly, heach.imp (fun u v hw => ⟨fun hc => ?_, fun hc => ?_⟩)⟩ <;> simpa [hc] using hw

theorem divu_value (x y : Word) : (if y = 0 then 0xFFFFFFFF else BitVec.ofNat 32 (x.toNat / y.toNat) : Word).toNat =
    if y = 0 then 0xFFFFFFFF else x.toNat / y.toNat := by
  split
  · rfl
  · rw [BitVec.toNat_ofNat, Nat.mod_eq_of_lt ((Nat.div_le_self _ _).trans_lt x.isLt)]

/-- A division by 0 leaves all of the dividend (R95). -/
theorem remu_value (x y : Word) : (if y = 0 then x else BitVec.ofNat 32 (x.toNat % y.toNat) : Word).toNat = x.toNat % y.toNat := by
  split
  · next hy => rw [hy]; exact (Nat.mod_zero _).symm
  · rw [BitVec.toNat_ofNat, Nat.mod_eq_of_lt ((Nat.mod_le _ _).trans_lt x.isLt)]

/-- Settles O1: each table's rows by the operation of the model that each is, and by the number that its word stands for. -/
theorem integerOperations : Obligations.IntegerOperations := by
  unfold Obligations.IntegerOperations
  refine ⟨fun p hp sw d a b s g h => ?_, fun p hp sw d a b s g h => ?_, pairTable_performs, fun sw d a b s g h => ?_, fun sw d a b s g h => ?_⟩
  · obtain ⟨f, hop, hvalue⟩ := wordTable_ops p hp
    exact hop.computes hvalue h
  · rcases List.mem_pair.mp hp with rfl | rfl
    · exact cmov_performs (C := .cmovz) (c := fun y => y = 0) ⟨rfl, rfl⟩ List.mem_cons_self h
    · exact cmov_performs (C := .cmovn) (c := fun y => y ≠ 0) ⟨rfl, rfl⟩ List.mem_cons_self h
  · exact (longOp_performs rfl rfl h).imp (fun u v howes => ⟨_, divu_value _ _, howes⟩)
  · exact (longOp_performs rfl rfl h).imp (fun u v howes => ⟨_, remu_value _ _, howes⟩)

end Sys2Proof.Machine

end

section
/-! SUPPORT. Statement O2: immediates, constants and the unary integer operations. -/

namespace Sys2Proof.Machine

/-! Immediates (R129). -/

theorem signExtend_value {n : Nat} (m : BitVec n) (hn : n ≤ 32) : ((m.signExtend 32).toNat : Int) = m.toInt % 2 ^ 32 := by
  rw [← toInt_emod, BitVec.toInt_signExtend_of_le hn]

theorem zeroExtend_toNat {n : Nat} (m : BitVec n) (hn : n ≤ 32) : (m.zeroExtend 32).toNat = m.toNat :=
  BitVec.toNat_setWidth_of_le hn

theorem addi_value (x : Word) (m : BitVec 7) : ((x + m.signExtend 32).toNat : Int) = (x.toNat + m.toInt) % 2 ^ 32 := by
  rw [add_value, signExtend_value m (by decide), Int.add_emod_emod]

theorem muli_value (x : Word) (m : BitVec 7) : ((x * m.signExtend 32).toNat : Int) = (x.toNat * m.toInt) % 2 ^ 32 := by
  rw [mul_value, signExtend_value m (by decide), Int.mul_emod, Int.emod_emod, ← Int.mul_emod]

theorem sltui_value (x : Word) (m : BitVec 7) : ((flagWord (decide (x.toNat < (m.signExtend 32).toNat))).toNat : Int) =
    (if (x.toNat : Int) < m.toInt % 2 ^ 32 then 1 else 0) % 2 ^ 32 := by
  rw [flagWord_value, ← signExtend_value m (by decide)]
  simp only [Nat.cast_lt]

theorem seqi_value (x : Word) (m : BitVec 7) : ((flagWord (decide (x = m.signExtend 32))).toNat : Int) =
    (if (x.toNat : Int) = m.toInt % 2 ^ 32 then 1 else 0) % 2 ^ 32 := by
  rw [flagWord_value, ← signExtend_value m (by decide)]
  simp only [Nat.cast_inj, BitVec.toNat_inj]

/-- Table 3's word operations are operations of the model, with the table's results (R129). -/
theorem immTable_ops : ∀ p ∈ immTable, ∀ m, ∃ f, UnaryOp (fun sw d a => p.1 sw d a m) f ∧ ∀ x, ((f x).toNat : Int) = p.2 x m % 2 ^ 32 := by
  simp only [immTable, List.forall_mem_cons, List.not_mem_nil, false_imp_iff, implies_true, and_true]
  refine ⟨fun m => ⟨_, fun _ _ _ _ => ⟨rfl, rfl, rfl⟩, fun x => addi_value x m⟩,
    fun m => ⟨_, fun _ _ _ _ => ⟨rfl, rfl, rfl⟩, fun x => zeroExtend_toNat m (by decide) ▸ and_value x (m.zeroExtend 32)⟩,
    fun m => ⟨_, fun _ _ _ _ => ⟨rfl, rfl, rfl⟩, fun x => zeroExtend_toNat m (by decide) ▸ or_value x (m.zeroExtend 32)⟩,
    fun m => ⟨_, fun _ _ _ _ => ⟨rfl, rfl, rfl⟩, fun x => zeroExtend_toNat m (by decide) ▸ xor_value x (m.zeroExtend 32)⟩,
    fun m => ⟨_, fun _ _ _ _ => ⟨rfl, rfl, rfl⟩, fun x => shl_value x m.toNat⟩,
    fun m => ⟨_, fun _ _ _ _ => ⟨rfl, rfl, rfl⟩, fun x => shr_value x m.toNat⟩,
    fun m => ⟨_, fun _ _ _ _ => ⟨rfl, rfl, rfl⟩, fun x => sra_value x m.toNat⟩,
    fun m => ⟨_, fun _ _ _ _ => ⟨rfl, rfl, rfl⟩, fun x => flagWord_value _⟩,
    fun m => ⟨_, fun _ _ _ _ => ⟨rfl, rfl, rfl⟩, fun x => sltui_value x m⟩,
    fun m => ⟨_, fun _ _ _ _ => ⟨rfl, rfl, rfl⟩, fun x => seqi_value x m⟩,
    fun m => ⟨_, fun _ _ _ _ => ⟨rfl, rfl, rfl⟩, fun x => muli_value x m⟩⟩

/-! Unary operations (R130). -/

theorem rangeFrom_eq_range' (a n : Nat) : rangeFrom a n = List.range' a n := by
  induction n generalizing a with
  | zero => rfl
  | succ n ih => rw [rangeFrom, ih, List.range'_succ]

theorem bitOf_eq_testBit (x i : Nat) : bitOf x i = x.testBit i := by
  rw [bitOf, Nat.testBit_eq_decide_div_mod_eq]
  rfl

/-- The bits of a number below a power of two add up to it. -/
theorem sum_bits (n k : Nat) : ((List.range k).map (fun j => if n.testBit j then (2 : Int) ^ j else 0)).sum = (n % 2 ^ k : Nat) := by
  induction k with
  | zero => simp [Nat.mod_one]
  | succ k ih =>
    rw [List.range_succ, List.map_append, List.sum_append, ih, Nat.mod_pow_succ, ← Nat.toNat_testBit]
    cases hbit : n.testBit k <;> simp [hbit]

theorem clz_value (x : Word) : ((BitVec.ofNat 32 (if x = 0 then 32 else 31 - x.toNat.log2)).toNat : Int) =
    (if x = 0 then 32 else 31 - (Nat.log2 x.toNat : Int)) % 2 ^ 32 := by
  rw [toNat_ofNat_word]
  split
  · rfl
  · next hx =>
    have hlog : x.toNat.log2 < 32 := (Nat.log2_lt (by simpa [BitVec.toNat_eq] using hx)).mpr x.isLt
    omega

theorem popc_value (x : Word) : ((BitVec.ofNat 32 ((rangeFrom 0 32).countP (fun i => bitOf x.toNat i))).toNat : Int) =
    (((List.range 32).filter (fun j => x.getLsbD j)).length : Int) % 2 ^ 32 := by
  have hbits : (fun i => bitOf x.toNat i) = fun j => x.getLsbD j := funext (fun i => bitOf_eq_testBit _ i)
  rw [toNat_ofNat_word, hbits, rangeFrom_eq_range', ← List.range_eq_range', List.countP_eq_length_filter]

theorem brev_value (x : Word) : (x.reverse.toNat : Int) =
    ((List.range 32).map (fun j => if x.getLsbD (31 - j) then (2 : Int) ^ j else 0)).sum % 2 ^ 32 := by
  have hbits : ∀ j ∈ List.range 32, (if x.getLsbD (31 - j) then (2 : Int) ^ j else 0) = if x.reverse.toNat.testBit j then 2 ^ j else 0 := by
    intro j hj
    rw [← BitVec.getLsbD, BitVec.getLsbD_reverse, BitVec.getMsbD, decide_eq_true (List.mem_range.mp hj), Bool.true_and]
  rw [List.map_congr_left hbits, sum_bits, Nat.mod_eq_of_lt x.reverse.isLt, toNat_emod]

theorem abs_value (x : Word) : (((if x.toInt < 0 then -x else x).toNat : Nat) : Int) = |x.toInt| % 2 ^ 32 := by
  split
  · next hneg => rw [abs_of_neg hneg, ← toNat_ofInt_word, BitVec.ofInt_neg, BitVec.ofInt_toInt]
  · next hpos => rw [abs_of_nonneg (not_lt.mp hpos), toInt_emod]

theorem sext_value (x : Word) {n : Nat} (hpos : 0 < n) (hn : n ≤ 32) : (((x.setWidth n).signExtend 32).toNat : Int) = sextNat x.toNat n % 2 ^ 32 := by
  have hhalf : 2 ^ n = 2 * 2 ^ (n - 1) := by rw [← Nat.pow_succ', Nat.succ_eq_add_one, Nat.sub_add_cancel hpos]
  rw [signExtend_value _ hn, BitVec.toInt_eq_toNat_cond, BitVec.toNat_setWidth, sextNat, hhalf]
  simp only [Nat.mul_lt_mul_left Nat.two_pos]

/-- Table 4's operations are operations of the model, with the table's results (R130). -/
theorem unaryTable_ops : ∀ p ∈ unaryTable, ∃ f, UnaryOp p.1 f ∧ ∀ x, ((f x).toNat : Int) = p.2 x % 2 ^ 32 := by
  simp only [unaryTable, List.forall_mem_cons, List.not_mem_nil, false_imp_iff, implies_true, and_true]
  exact ⟨⟨_, fun _ _ _ _ => ⟨rfl, rfl, rfl⟩, clz_value⟩, ⟨_, fun _ _ _ _ => ⟨rfl, rfl, rfl⟩, popc_value⟩,
    ⟨_, fun _ _ _ _ => ⟨rfl, rfl, rfl⟩, brev_value⟩, ⟨_, fun _ _ _ _ => ⟨rfl, rfl, rfl⟩, abs_value⟩,
    ⟨_, fun _ _ _ _ => ⟨rfl, rfl, rfl⟩, fun x => sext_value x (by decide) (by decide)⟩,
    ⟨_, fun _ _ _ _ => ⟨rfl, rfl, rfl⟩, fun x => sext_value x (by decide) (by decide)⟩⟩

/-! Constants, NOP, and shifts that are no instruction. -/

/-- An instruction that writes one constant word (R131). -/
theorem constant_performs {i : Instr} {d : Reg} {r : Word} {s : State} {g : Group} (hexec : exec i s = .next (fixedOp i (fun t => t.writeW (rn d) r) s))
    (hnames : (d.toNat, 1) ∈ namedFields i) (h : issuable i s g = true) :
    Performs i s g (fun u v => Wrote i (g.pc + i.bytes) d.toNat [r] u v) := by
  obtain ⟨honly, heach⟩ := onThread_only (chk := noCheck) (f := fun t => t.writeW (rn d) r) h (fun _ => rfl) (fun _ _ _ _ => rfl)
  refine ⟨_, hexec, honly, heach.imp ?_⟩
  rintro u v ⟨hready, hwindow, rfl⟩
  exact wrote_word hready (windowCheck_inside hwindow hnames Nat.one_pos)

theorem nop_performs {sw : Bool} {s : State} {g : Group} (h : issuable (.nop sw) s g = true) :
    Performs (.nop sw) s g (fun u v => Wrote (.nop sw) (g.pc + 4) 0 [] u v) := by
  obtain ⟨honly, heach⟩ := onThread_only (chk := noCheck) (f := fun t => t) h (fun _ => rfl) (fun _ _ _ _ => rfl)
  refine ⟨_, rfl, honly, heach.imp ?_⟩
  rintro u v ⟨hready, -, rfl⟩
  exact wrote_nothing hready

/-- A shift immediate of 32 or more is no instruction (R49, R129). -/
theorem shift_traps {i : Instr} {s : State} {g : Group} {k : Nat} {ks : List Nat} {u : Thread} (hword : (encode i).isSome = true)
    (hbrk : isBreak i = false) (hwf : i.wf = false) (hg : s.group = some g) (htids : g.tids = k :: ks)
    (hu : s.threadOf g.ctx g.wg k = some u) : Traps i s g .illegal 0 k :=
  (issueChecks i s g [] k ks u hword hbrk hg htids hu).1 hwf rfl

/-- Settles O2: the tables' rows by the operation of the model that each is; constants, NOP and the shifts that are no instruction. -/
theorem immediateAndUnaryOperations : Obligations.ImmediateAndUnaryOperations := by
  unfold Obligations.ImmediateAndUnaryOperations
  refine ⟨fun p hp sw d a m s g h => ?_, fun sw d a m s g h => ?_, fun sw d m s g h => ?_, fun sw d lit s g h => ?_, fun sw s g h => nop_performs h,
    fun p hp sw d a m s g k ks u hg htids hu hm => ?_, fun p hp sw d a s g h => ?_⟩
  · obtain ⟨f, hop, hvalue⟩ := immTable_ops p hp m
    exact UnaryOp.computes (C := fun sw d a => p.1 sw d a m) hop hvalue h
  · exact opPair_performs (z := fun _ x => x + m.toInt) ⟨rfl, rfl⟩ List.mem_cons_self (fun h => (Bool.and_eq_true_iff.mp h).1) (fun _ _ _ => rfl)
      (fun u x => addMod64_value x _) h
  · exact (constant_performs rfl List.mem_cons_self h).imp (fun u v hw => ⟨_, BitVec.toInt_signExtend_of_le (by decide), hw⟩)
  · exact constant_performs rfl List.mem_cons_self h
  · have hwide : decide (m.toNat < 32) = false := decide_eq_false (Nat.not_lt.mpr hm)
    simp only [List.mem_cons, List.not_mem_nil, or_false] at hp
    rcases hp with rfl | rfl | rfl
    · exact shift_traps rfl rfl hwide hg htids hu
    · exact shift_traps rfl rfl hwide hg htids hu
    · exact shift_traps rfl rfl hwide hg htids hu
  · obtain ⟨f, hop, hvalue⟩ := unaryTable_ops p hp
    exact hop.computes hvalue h

end Sys2Proof.Machine

end

section
/-! SUPPORT. Statements O7 and O8: branches, calls and counted loops (R142-R144). -/

namespace Sys2Proof.Machine

/-! Control transfers: an effect on each member's thread, which sets its PC. -/

section
variable {i : Instr} {chk : State → Group → Thread → Option TrapInfo} {s : State} {g : Group} (h : issuable i s g = true)
include h

/-- An effect on each member's thread that hangs on the group besides. -/
theorem issue_onGroup {f : Group → Thread → Thread} (hf : ∀ t, (f g t).tid = t.tid)
    (hchk : Members s g (fun u => chk { s with group := none } g u = none)) :
    OnlyMembers s (issue i chk (fun s g tid => s.modThread g.ctx g.wg tid (f g)) s) g ∧
      EachMember s (issue i chk (fun s g tid => s.modThread g.ctx g.wg tid (f g)) s) g
        (fun u v => u.status = .ready ∧ windowCheck i u = none ∧ v = (f g { u with pc := g.pc + i.bytes, holdPc := none }).goOn i) := by
  have hsame : issue i chk (fun s g tid => s.modThread g.ctx g.wg tid (f g)) s = issue i chk (onThread (f g)) s := by
    rw [issue_performs h hchk, issue_performs h hchk]
    rfl
  rw [hsame]
  exact onThread_only h hf hchk

/-- An instruction that turns each member's thread from `u` into `after u` and sends it to `target u`. -/
theorem transfer_performs {f : Group → Thread → Thread} {after : Thread → Thread} {target : Thread → Nat}
    (hexec : exec i s = .next (issue i chk (fun s g tid => s.modThread g.ctx g.wg tid (f g)) s))
    (hchk : Members s g (fun u => chk { s with group := none } g u = none)) (htid : ∀ t, (f g t).tid = t.tid)
    (hafter : ∀ u, (after u).status = u.status ∧ (after u).runLen = u.runLen)
    (hf : ∀ u pc, f g { u with pc := pc, holdPc := none } = { after u with pc := target u, holdPc := none }) :
    Performs i s g (fun u v => Went i (target u) (after u) u v) := by
  obtain ⟨honly, heach⟩ := issue_onGroup h htid hchk
  refine ⟨_, hexec, honly, heach.imp ?_⟩
  rintro u v ⟨hready, -, rfl⟩
  obtain ⟨hstatus, hrun⟩ := hafter u
  rw [hf]
  exact ⟨Thread.goOn_ready (hstatus.trans hready), Thread.goOn_run (hstatus.trans hready) hrun⟩

/-- A check of operands that the first member fails, where a transaction would not be aborted instead (R57, R179). -/
theorem issue_traps {eff : State → Group → Nat → State} {code : TrapCode} {operand k : Nat} {ks : List Nat} {u : Thread}
    (hexec : exec i s = .next (issue i chk eff s)) (htids : g.tids = k :: ks) (hu : s.threadOf g.ctx g.wg k = some u)
    (hchk : chk { s with group := none } g u = trapOf code operand) (hstay : abortsInstead code = false ∨ txAllowed i = false) :
    Traps i s g code operand k := by
  have hfault : issueFault i chk { s with group := none } g = some ({ code := code, operand := operand }, k) := by
    rcases hstay with hcode | hallowed
    · exact issueFault_operand h htids hu hchk hcode
    · exact issueFault_outside h htids hu (tx_inactive_of_issuable h hallowed (by simp [htids]) hu) hchk
  exact hexec.trans (congrArg _ (issueHeld_traps (issuable_group h) hfault))

end

theorem branchTo_value (g : Group) (words : Int) : (branchTo g words : Int) = (g.pc + words * 4) % 2 ^ 32 :=
  Int.toNat_of_nonneg (Int.emod_nonneg _ (by decide))

/-! Branches (R142). -/

theorem br_performs {sw : Bool} {m : BitVec 21} {s : State} {g : Group} (h : issuable (.br sw m) s g = true) :
    Performs (.br sw m) s g (fun u v => Went (.br sw m) (branchTo g m.toInt) u u v) :=
  transfer_performs (chk := noCheck) (f := fun g t => { t with pc := branchTo g m.toInt }) (after := id) h rfl (fun _ _ _ _ => rfl)
    (fun _ => rfl) (fun _ => ⟨rfl, rfl⟩) (fun _ _ => rfl)

/-- A conditional branch goes to its target where its condition holds, and else on. -/
theorem branch_performs {i : Instr} {d : Reg} {m : BitVec 14} {c : Word → Prop} [DecidablePred c] {s : State} {g : Group}
    (hexec : exec i s = .next (jumpOp i noCheck (fun g t => if c (t.readW (rn d)) then branchTo g m.toInt else g.pc + 4) s))
    (h : issuable i s g = true) :
    Performs i s g (fun u v => ∃ pc : Nat, (c (u.readW d.toNat) → (pc : Int) = (g.pc + m.toInt * 4) % 2 ^ 32) ∧
      (¬ c (u.readW d.toNat) → pc = g.pc + 4) ∧ Went i pc u u v) := by
  refine (transfer_performs (f := fun g t => { t with pc := if c (t.readW (rn d)) then branchTo g m.toInt else g.pc + 4 }) (after := id)
    (target := fun u => if c (u.readW d.toNat) then branchTo g m.toInt else g.pc + 4) h hexec (fun _ _ _ _ => rfl) (fun _ => rfl)
    (fun _ => ⟨rfl, rfl⟩) (fun _ _ => rfl)).imp (fun u v hwent => ⟨_, fun hc => ?_, fun hc => if_neg hc, hwent⟩)
  rw [if_pos hc]
  exact branchTo_value g _

/-! Counted loops (R144). -/

/-- The check of LOOPH: its count lies within 1 and the limit. -/
def loopCheck (d : Reg) (limit : Nat) (_ : State) (_ : Group) (t : Thread) : Option TrapInfo :=
  if (t.readW d.toNat).toNat = 0 ∨ limit < (t.readW d.toNat).toNat then trapOf .bound (t.readW d.toNat).toNat else none

theorem word_eq_zero_iff (x : Word) : x.toNat = 0 ↔ x = 0 := by
  rw [BitVec.toNat_eq]
  rfl

section
variable {sw : Bool} {d : Reg} {m : BitVec 14} {s : State} {g : Group}

theorem exec_looph (s : State) : exec (.looph sw d m) s =
    .next (issue (.looph sw d m) (loopCheck d m.toNat) (onThread (fun t => t.writeW d.toNat (t.readW d.toNat))) s) := rfl

theorem looph_performs (h : issuable (.looph sw d m) s g = true)
    (hin : Members s g (fun u => u.readW d.toNat ≠ 0 ∧ (u.readW d.toNat).toNat ≤ m.toNat)) :
    Performs (.looph sw d m) s g (fun u v => Wrote (.looph sw d m) (g.pc + 4) d.toNat [u.readW d.toNat] u v) := by
  have hchk : Members s g (fun u => loopCheck d m.toNat { s with group := none } g u = none) := by
    intro k hk u hu
    obtain ⟨hzero, hlimit⟩ := hin k hk u hu
    exact if_neg (not_or.mpr ⟨fun h => hzero ((word_eq_zero_iff _).mp h), Nat.not_lt.mpr hlimit⟩)
  obtain ⟨honly, heach⟩ := onThread_only (f := fun t => t.writeW d.toNat (t.readW d.toNat)) h (fun _ => rfl) hchk
  refine ⟨_, exec_looph s, honly, heach.imp ?_⟩
  rintro u v ⟨hready, hwindow, rfl⟩
  exact wrote_word hready (windowCheck_inside hwindow List.mem_cons_self Nat.one_pos)

theorem looph_traps (h : issuable (.looph sw d m) s g = true) {k : Nat} {ks : List Nat} {u : Thread} (htids : g.tids = k :: ks)
    (hu : s.threadOf g.ctx g.wg k = some u) (hout : u.readW d.toNat = 0 ∨ m.toNat < (u.readW d.toNat).toNat) :
    Traps (.looph sw d m) s g .bound (u.readW d.toNat).toNat k :=
  issue_traps h (exec_looph s) htids hu (if_pos (hout.imp_left (word_eq_zero_iff _).mpr)) (.inl rfl)

/-- LOOPE owes the count less 1, and goes back or on by it. -/
theorem loope_performs (h : issuable (.loope sw d m) s g = true) (hin : Members s g (fun u => u.readW d.toNat ≠ 0)) :
    Performs (.loope sw d m) s g (fun u v =>
      Owes (.loope sw d m) (if u.readW d.toNat - 1 ≠ 0 then branchTo g (-(m.toNat : Int)) else g.pc + 4) d.toNat [u.readW d.toNat - 1] u v) := by
  refine (transfer_performs (f := fun g t => { t.addResult (t.dests (rn d) 1) (some [some (t.readW (rn d) - 1)]) with
      pc := if t.readW (rn d) - 1 ≠ 0 then branchTo g (-(m.toNat : Int)) else g.pc + 4 })
    (after := fun u => u.addResult (u.dests d.toNat 1) (some [some (u.readW d.toNat - 1)]))
    (target := fun u => if u.readW d.toNat - 1 ≠ 0 then branchTo g (-(m.toNat : Int)) else g.pc + 4)
    h rfl (fun k hk u hu => if_neg (hin k hk u hu)) (fun _ => rfl) (fun _ => ⟨rfl, rfl⟩) (fun _ _ => rfl)).imp ?_
  rintro u v ⟨hrest, hrun⟩
  exact ⟨hrest, hrun⟩

theorem loope_traps (h : issuable (.loope sw d m) s g = true) {k : Nat} {ks : List Nat} {u : Thread} (htids : g.tids = k :: ks)
    (hu : s.threadOf g.ctx g.wg k = some u) (hzero : u.readW d.toNat = 0) : Traps (.loope sw d m) s g .bound 0 k :=
  issue_traps h rfl htids hu (if_pos hzero) (.inl rfl)

end

/-- Settles O8: LOOPH writes its count back, LOOPE owes it less 1; the checks of both by the first member. -/
theorem loops : Obligations.Loops := by
  unfold Obligations.Loops
  refine ⟨fun sw d m s g h => ⟨looph_performs h, fun k ks u htids hu hout => looph_traps h htids hu hout⟩,
    fun sw d m s g h => ⟨fun hin => (loope_performs h hin).imp (fun u v howes => ⟨_, fun hmore => ?_, fun hlast => ?_, howes⟩),
      fun k ks u htids hu hzero => loope_traps h htids hu hzero⟩⟩
  · rw [if_pos (sub_ne_zero.mpr hmore), branchTo_value, neg_mul, ← sub_eq_add_neg]
  · rw [if_neg (not_not.mpr (sub_eq_zero.mpr hlast))]

/-! The checks of calls and returns, by the word before the target (R143). -/

theorem isHeader_iff (w : Nat) : isHeader w = true ↔ w / 2 ^ 27 % 32 = 15 ∧ 1 ≤ w / 2 ^ 14 % 2 ^ 13 := by
  have hgroup : bits w 31 27 = w / 2 ^ 27 % 32 := rfl
  have hdepth : bits w 26 14 = w / 2 ^ 14 % 2 ^ 13 := rfl
  simp only [isHeader, hgroup, hdepth, Bool.and_eq_true, beq_iff_eq, decide_eq_true_eq]

section
variable {s : State} {g : Group} {target : Nat}

theorem callCheck_unaligned (t : Thread) (h : target % 4 ≠ 0) : callCheck s g t target = trapOf .align target :=
  if_pos (bne_iff_ne.mpr h)

theorem retCheck_unaligned (h : target % 4 ≠ 0) : retCheck s g target = trapOf .align target := if_pos (bne_iff_ne.mpr h)

section
variable {l : Launch} (hl : s.launch g.ctx = some l) (h : target % 4 = 0)
include hl h

section
variable (hnone : target < 4 ∨ s.codeWord (coreDie g.core) l (target - 4) = none)
include hnone

theorem callCheck_noWord (t : Thread) : callCheck s g t target = trapOf .illegal target := by
  have hword : (if target < 4 then none else s.codeWord (coreDie g.core) l (target - 4)) = none :=
    hnone.elim (fun hlow => if_pos hlow) (fun hnone => by rw [hnone, ite_self])
  simp only [callCheck, h, bne_self_eq_false, Bool.false_eq_true, if_false, withLaunch, hl, hword]

theorem retCheck_noWord : retCheck s g target = trapOf .illegal target := by
  have hword : (if target < 4 then none else s.codeWord (coreDie g.core) l (target - 4)) = none :=
    hnone.elim (fun hlow => if_pos hlow) (fun hnone => by rw [hnone, ite_self])
  simp only [retCheck, h, bne_self_eq_false, Bool.false_eq_true, if_false, withLaunch, hl, hword]

end

variable (hlow : 4 ≤ target) {w : Nat} (hw : s.codeWord (coreDie g.core) l (target - 4) = some w)
include hlow hw

theorem callCheck_word (t : Thread) : callCheck s g t target =
    if ¬ isHeader w = true then trapOf .illegal target
    else if w % 2 ^ 14 * 16 < (t.readPair 0 + 2 ^ 64 - Config.privateBase) % 2 ^ 64 then trapOf .bound target else none := by
  have hbits : bits w 13 0 = w % 2 ^ 14 := by simp [bits]
  simp only [callCheck, h, bne_self_eq_false, Bool.false_eq_true, if_false, withLaunch, hl, if_neg (Nat.not_lt.mpr hlow), hw, hbits,
    Bool.not_eq_true', Bool.not_eq_true]

theorem retCheck_word : retCheck s g target =
    if w / 2 ^ 21 % 2 ^ 10 = 4 * 2 ^ 6 + 1 ∨ w / 2 ^ 21 % 2 ^ 10 = 4 * 2 ^ 6 + 4 then none else trapOf .illegal target := by
  have hbits : bits w 30 21 = w / 2 ^ 21 % 2 ^ 10 := rfl
  simp only [retCheck, h, bne_self_eq_false, Bool.false_eq_true, if_false, withLaunch, hl, if_neg (Nat.not_lt.mpr hlow), hw, hbits,
    Bool.or_eq_true, beq_iff_eq]
  rfl

end

theorem CallAllowed.passes {l : Launch} {u : Thread} (hl : s.launch g.ctx = some l) (h : CallAllowed s g.core l u target) :
    callCheck { s with group := none } g u target = none := by
  obtain ⟨haligned, hlow, w, hw, hgroup, hdepth, hframe⟩ := h
  rw [callCheck_word (s := { s with group := none }) hl haligned hlow hw, if_neg (not_not.mpr ((isHeader_iff w).mpr ⟨hgroup, hdepth⟩)), if_neg (Nat.not_lt.mpr hframe)]

theorem ReturnAllowed.passes {l : Launch} (hl : s.launch g.ctx = some l) (h : ReturnAllowed s g.core l target) :
    retCheck { s with group := none } g target = none := by
  obtain ⟨haligned, hlow, w, hw, hcall⟩ := h
  rw [retCheck_word (s := { s with group := none }) hl haligned hlow hw, if_pos hcall]

end

/-! Calls and returns (R143). -/

/-- A call, where its checks pass. -/
theorem link_performs {i : Instr} {target : Group → Thread → Nat} {s : State} {g : Group} {l : Launch} (hl : s.launch g.ctx = some l)
    (hexec : exec i s = .next (linkOp i target s))
    (hpc : ∀ u pc, target g { u with pc := pc, holdPc := none } = target g u) (h : issuable i s g = true)
    (hin : Members s g (fun u => CallAllowed s g.core l u (target g u))) :
    Performs i s g (fun u v => Went i (target g u) (u.writeW 7 (BitVec.ofNat 32 (g.pc + 4))) u v) :=
  transfer_performs (f := fun g t => { t.writeW 7 (BitVec.ofNat 32 (g.pc + 4)) with pc := target g t })
    (after := fun u => u.writeW 7 (BitVec.ofNat 32 (g.pc + 4))) h hexec (fun k hk u hu => (hin k hk u hu).passes hl) (fun _ => rfl)
    (fun _ => ⟨rfl, rfl⟩) (fun u pc => by rw [hpc]; rfl)

/-- JR and RET, where their checks pass. -/
theorem jump_performs {i : Instr} {chk : State → Group → Thread → Option TrapInfo} {target : Thread → Nat} {s : State} {g : Group}
    (hexec : exec i s = .next (jumpOp i chk (fun _ t => target t) s)) (hpc : ∀ u pc, target { u with pc := pc, holdPc := none } = target u)
    (h : issuable i s g = true) (hin : Members s g (fun u => chk { s with group := none } g u = none)) :
    Performs i s g (fun u v => Went i (target u) u u v) :=
  transfer_performs (f := fun _ t => { t with pc := target t }) (after := id) h hexec hin (fun _ => rfl) (fun _ => ⟨rfl, rfl⟩)
    (fun u pc => by simp only [hpc, id])

/-- The instructions that check their target as a call does: what each takes for its target in a member. -/
def CallForm (i : Instr) (s : State) (g : Group) (u : Thread) (target : Nat) : Prop :=
  ∃ (f : Group → Thread → Nat) (eff : State → Group → Nat → State),
    exec i s = .next (issue i (fun s g t => callCheck s g t (f g t)) eff s) ∧ f g u = target ∧ txAllowed i = false

theorem callForm_of {i : Instr} {s : State} {g : Group} {u : Thread} {target : Nat} {sw : Bool} {a : Reg}
    (h : (i = .callr sw a ∨ i = .jr sw a) ∧ target = (u.readW a.toNat).toNat ∨
      ∃ m : BitVec 21, i = .call sw m ∧ (target : Int) = (g.pc + m.toInt * 4) % 2 ^ 32) : CallForm i s g u target := by
  rcases h with ⟨rfl | rfl, rfl⟩ | ⟨m, rfl, htarget⟩
  · exact ⟨fun _ t => (t.readW (rn a)).toNat, _, rfl, rfl, rfl⟩
  · exact ⟨fun _ t => (t.readW (rn a)).toNat, _, rfl, rfl, rfl⟩
  · refine ⟨fun g _ => branchTo g m.toInt, _, rfl, ?_, rfl⟩
    have hvalue := branchTo_value g m.toInt
    show branchTo g m.toInt = target
    omega

/-- Settles O7: a transfer by the thread that it leaves and the PC that it sets; the checks of a call and of a return by the word before
their target. -/
theorem branchesAndCalls : Obligations.BranchesAndCalls := by
  unfold Obligations.BranchesAndCalls
  refine ⟨fun sw m s g h => ?_, fun p hp sw d m s g h => ?_, fun sw m s g l pc hl h hpc hin => ?_, fun sw a s g l hl h hin => ?_,
    fun sw a s g l hl h hin => ?_, fun sw s g l hl h hin => ?_, fun sw a i s g l k ks u target hform hl h htids hu => ?_,
    fun sw s g l k ks u target hl h htids hu htarget => ?_⟩
  · exact (br_performs h).imp (fun u v hwent => ⟨_, branchTo_value g _, hwent⟩)
  · rcases List.mem_pair.mp hp with rfl | rfl
    · exact branch_performs (c := fun x => x = 0) rfl h
    · exact branch_performs (c := fun x => x ≠ 0) rfl h
  · have htarget : branchTo g m.toInt = pc := by
      have := branchTo_value g m.toInt
      omega
    subst htarget
    exact link_performs (target := fun g _ => branchTo g m.toInt) hl rfl (fun _ _ => rfl) h hin
  · exact link_performs (target := fun _ t => (t.readW (rn a)).toNat) hl rfl (fun _ _ => rfl) h hin
  · exact jump_performs (target := fun t => (t.readW (rn a)).toNat) rfl (fun _ _ => rfl) h (fun k hk u hu => (hin k hk u hu).passes hl)
  · exact jump_performs (target := fun t => (t.readW 7).toNat) rfl (fun _ _ => rfl) h (fun k hk u hu => (hin k hk u hu).passes hl)
  · obtain ⟨f, eff, hexec, hf, hallowed⟩ := callForm_of (s := s) hform
    have hraise : ∀ {code : TrapCode}, callCheck { s with group := none } g u target = trapOf code target → Traps i s g code target k :=
      fun hchk => issue_traps h hexec htids hu (by rw [hf]; exact hchk) (.inr hallowed)
    refine ⟨fun hodd => hraise (callCheck_unaligned u hodd), fun haligned hnone => hraise (callCheck_noWord hl haligned hnone u),
      fun w haligned hlow hw => ⟨fun hheader => hraise ?_, fun hgroup hdepth hframe => hraise ?_⟩⟩
    · rw [callCheck_word (s := { s with group := none }) hl haligned hlow hw, if_pos (by rw [isHeader_iff]; omega)]
    · rw [callCheck_word (s := { s with group := none }) hl haligned hlow hw, if_neg (by rw [isHeader_iff]; omega), if_pos hframe]
  · subst htarget
    have hraise : ∀ {code : TrapCode}, retCheck { s with group := none } g (u.readW 7).toNat = trapOf code (u.readW 7).toNat →
        Traps (.ret sw) s g code (u.readW 7).toNat k := fun hchk => issue_traps h rfl htids hu hchk (.inr rfl)
    refine ⟨fun hodd => hraise (retCheck_unaligned hodd), fun haligned hnone => hraise (retCheck_noWord hl haligned hnone),
      fun w haligned hlow hw hcall hcallr => hraise ?_⟩
    rw [retCheck_word (s := { s with group := none }) hl haligned hlow hw, if_neg (not_or.mpr ⟨hcall, hcallr⟩)]

end Sys2Proof.Machine

end

section
/-! SUPPORT. Statement O5: paired arithmetic, half by half, and the conversions (R135, R136). -/

namespace Sys2Proof.Machine

/-! Patterns of a format fit its width (R72). -/

/-- A format whose infinity lies below its sign bit, and whose NaN fits its width. -/
structure Fmt.Fits (f : Fmt) : Prop where
  regular : f.Regular
  inf : f.infBits < 2 ^ (f.width - 1)
  nan : f.nan < 2 ^ f.width
  wide : 2 ^ f.width = 2 * 2 ^ (f.width - 1)

theorem fits_of_mem {f : Fmt} (h : f ∈ [f32, bf16, fp16]) : f.Fits := by
  refine ⟨regular_of_mem h, ?_, ?_, ?_⟩ <;> revert f <;> decide

section
variable {f : Fmt} (hf : f.Fits)
include hf

theorem Fmt.signed_lt (neg : Bool) {r : Nat} (hr : r ≤ f.infBits) : f.signBit neg + r < 2 ^ f.width := by
  have := hf.inf
  have := hf.wide
  unfold Fmt.signBit
  split <;> omega

theorem Fmt.round_lt (x : Num) : f.round x < 2 ^ f.width := by
  cases x with
  | nan => exact hf.nan
  | inf neg => exact Fmt.signed_lt hf neg le_rfl
  | fin neg m e => exact Fmt.signed_lt hf neg (roundMag_le hf.regular false)

end

/-! minimumNumber and maximumNumber (R133). -/

theorem Num.lt_asymm {x y : Num} (h : x.lt y = true) : y.lt x = false := by
  cases x with
  | nan => cases h
  | inf a =>
    cases y with
    | nan => cases h
    | inf b => cases a <;> cases b <;> simp_all [Num.lt]
    | fin b m e => simp_all [Num.lt]
  | fin a m e =>
    cases y with
    | nan => cases h
    | inf b => simp_all [Num.lt]
    | fin b n k =>
      have hmin : (if e ≤ k then e else k) = (if k ≤ e then k else e) := by split <;> split <;> omega
      simp only [Num.lt, hmin, decide_eq_true_eq, decide_eq_false_iff_not] at h ⊢
      exact not_lt_of_gt h

section
variable (f : Fmt) (x y : Nat)

theorem Fmt.minNum_extreme : Extreme f false x y (f.minNum x y) := by
  refine ⟨fun hx hy => ?_, fun hx hy => ?_, fun hx hy => ?_, fun hx hy => ⟨fun hlt => ?_, fun hgt => ?_, fun hlt hgt => ?_⟩⟩
  · simp [Fmt.minNum, hx, hy]
  · simp [Fmt.minNum, hx, hy]
  · simp [Fmt.minNum, hx, hy]
  · simp [Fmt.minNum, hx, hy, hlt]
  · simp [Fmt.minNum, hx, hy, hgt, Num.lt_asymm hgt]
  · have hpick : f.minNum x y = if (f.decode x).sign then x else y := by simp [Fmt.minNum, hx, hy, hlt, hgt]
    rw [hpick]
    cases hs : (f.decode x).sign with
    | true => exact ⟨.inl rfl, fun _ => hs⟩
    | false => exact ⟨.inr rfl, fun hne => by simpa using Ne.symm hne⟩

theorem Fmt.maxNum_extreme : Extreme f true x y (f.maxNum x y) := by
  refine ⟨fun hx hy => ?_, fun hx hy => ?_, fun hx hy => ?_, fun hx hy => ⟨fun hlt => ?_, fun hgt => ?_, fun hlt hgt => ?_⟩⟩
  · simp [Fmt.maxNum, hx, hy]
  · simp [Fmt.maxNum, hx, hy]
  · simp [Fmt.maxNum, hx, hy]
  · simp [Fmt.maxNum, hx, hy, hlt, Num.lt_asymm hlt]
  · simp [Fmt.maxNum, hx, hy, hgt]
  · have hpick : f.maxNum x y = if (f.decode x).sign then y else x := by simp [Fmt.maxNum, hx, hy, hlt, hgt]
    rw [hpick]
    cases hs : (f.decode x).sign with
    | true => exact ⟨.inr rfl, fun hne => by simpa using Ne.symm hne⟩
    | false => exact ⟨.inl rfl, fun _ => hs⟩

/-- What either gives is an operand, or the NaN. -/
theorem Extreme.choice {f : Fmt} {max : Bool} {x y r : Nat} (h : Extreme f max x y r) : r = x ∨ r = y ∨ r = f.nan := by
  obtain ⟨hboth, hleft, hright, hnumbers⟩ := h
  cases hx : (f.decode x).isNan <;> cases hy : (f.decode y).isNan
  · obtain ⟨hlt, hgt, hsame⟩ := hnumbers hx hy
    cases hxy : (f.decode x).lt (f.decode y) with
    | true => cases max <;> simp [hlt hxy]
    | false =>
      cases hyx : (f.decode y).lt (f.decode x) with
      | true => cases max <;> simp [hgt hyx]
      | false => exact (hsame hxy hyx).1.imp_right .inl
  · exact .inl (hright hx hy)
  · exact .inr (.inl (hleft hx hy))
  · exact .inr (.inr (hboth hx hy))

end

/-! Halves (R135). -/

theorem lowHalf_lt (x : Word) : lowHalf x < 2 ^ 16 := Nat.mod_lt _ (by decide)

theorem highHalf_lt (x : Word) : highHalf x < 2 ^ 16 := by
  have := x.isLt
  unfold highHalf
  omega

/-- A word of two halves. -/
theorem halves_of_word {p q : Nat} (hp : p < 2 ^ 16) (hq : q < 2 ^ 16) : lowHalf (fw (p + q * 2 ^ 16)) = p ∧ highHalf (fw (p + q * 2 ^ 16)) = q := by
  have hword : (fw (p + q * 2 ^ 16)).toNat = p + q * 2 ^ 16 := by
    rw [fw, BitVec.toNat_ofNat, Nat.mod_eq_of_lt (by omega)]
  unfold lowHalf highHalf
  rw [hword]
  omega

/-- A paired operation works on each half alone. -/
theorem halves_each {f : Nat → Nat → Nat → Nat} (hf : ∀ a b c, a < 2 ^ 16 → b < 2 ^ 16 → c < 2 ^ 16 → f a b c < 2 ^ 16) (x y z : Word) :
    ∀ h ∈ [lowHalf, highHalf], h (halves f x y z) = f (h x) (h y) (h z) := by
  obtain ⟨hlow, hhigh⟩ := halves_of_word (hf _ _ _ (lowHalf_lt x) (lowHalf_lt y) (lowHalf_lt z)) (hf _ _ _ (highHalf_lt x) (highHalf_lt y) (highHalf_lt z))
  simp only [List.forall_mem_cons, List.not_mem_nil, false_imp_iff, implies_true, and_true]
  exact ⟨hlow, hhigh⟩

/-- Table 6's paired operations are operations of the model, each half rounded once (R135). -/
theorem pairedTable_ops : ∀ p ∈ pairedTable, ∃ f, WordOp p.1 (halves f) ∧ p.2.1 ∈ [bf16, fp16] ∧
    ∀ a b c, f a b c = p.2.1.round (p.2.2 (p.2.1.decode a) (p.2.1.decode b) (p.2.1.decode c)) := by
  simp only [pairedTable, List.forall_mem_cons, List.not_mem_nil, false_imp_iff, implies_true, and_true]
  exact ⟨⟨_, fun _ _ _ _ _ => ⟨rfl, rfl, rfl⟩, by decide, fun _ _ _ => rfl⟩, ⟨_, fun _ _ _ _ _ => ⟨rfl, rfl, rfl⟩, by decide, fun _ _ _ => rfl⟩,
    ⟨_, fun _ _ _ _ _ => ⟨rfl, rfl, rfl⟩, by decide, fun _ _ _ => rfl⟩, ⟨_, fun _ _ _ _ _ => ⟨rfl, rfl, rfl⟩, by decide, fun _ _ _ => rfl⟩,
    ⟨_, fun _ _ _ _ _ => ⟨rfl, rfl, rfl⟩, by decide, fun _ _ _ => rfl⟩, ⟨_, fun _ _ _ _ _ => ⟨rfl, rfl, rfl⟩, by decide, fun _ _ _ => rfl⟩⟩

theorem half_round_lt {f : Fmt} (hf : f ∈ [bf16, fp16]) (x : Num) : f.round x < 2 ^ 16 := by
  have hwidth : f.width = 16 := by revert f; decide
  exact hwidth ▸ Fmt.round_lt (fits_of_mem (List.mem_cons_of_mem _ hf)) x

/-- Table 7's conversions of one source, to the number or the integer of the table (R136). -/
theorem convertTable_ops : ∀ p ∈ convertTable, ∃ f, UnaryOp p.1 f ∧ ∀ x, ((f x).toNat : Int) = p.2 x % 2 ^ 32 := by
  simp only [convertTable, List.forall_mem_cons, List.not_mem_nil, false_imp_iff, implies_true, and_true]
  exact ⟨⟨_, fun _ _ _ _ => ⟨rfl, rfl, rfl⟩, fun _ => toNat_ofNat_word _⟩, ⟨_, fun _ _ _ _ => ⟨rfl, rfl, rfl⟩, fun _ => toNat_ofNat_word _⟩,
    ⟨_, fun _ _ _ _ => ⟨rfl, rfl, rfl⟩, fun _ => toNat_ofInt_word _⟩, ⟨_, fun _ _ _ _ => ⟨rfl, rfl, rfl⟩, fun _ => toNat_ofInt_word _⟩,
    ⟨_, fun _ _ _ _ => ⟨rfl, rfl, rfl⟩, fun _ => toNat_ofInt_word _⟩, ⟨_, fun _ _ _ _ => ⟨rfl, rfl, rfl⟩, fun _ => toNat_ofNat_word _⟩,
    ⟨_, fun _ _ _ _ => ⟨rfl, rfl, rfl⟩, fun _ => toNat_ofNat_word _⟩, ⟨_, fun _ _ _ _ => ⟨rfl, rfl, rfl⟩, fun _ => toNat_ofNat_word _⟩,
    ⟨_, fun _ _ _ _ => ⟨rfl, rfl, rfl⟩, fun _ => toNat_ofNat_word _⟩, ⟨_, fun _ _ _ _ => ⟨rfl, rfl, rfl⟩, fun _ => toNat_ofInt_word _⟩⟩

theorem half_maxNum_lt {f : Fmt} (hf : f ∈ [bf16, fp16]) {x y : Nat} (hx : x < 2 ^ 16) (hy : y < 2 ^ 16) : f.maxNum x y < 2 ^ 16 := by
  have hnan : f.nan < 2 ^ 16 := by revert f; decide
  rcases (f.maxNum_extreme x y).choice with h | h | h <;> omega

/-- Two conversions to a 16-bit format, packed (R136). -/
theorem packed_performs {C : Bool → Reg → Reg → Reg → Instr} {f : Fmt} (hf : f ∈ [bf16, fp16])
    (hop : WordOp C (fun x y _ => fw (convert f32 f y.toNat * 2 ^ 16 + convert f32 f x.toNat))) {sw : Bool} {d a b : Reg} {s : State} {g : Group}
    (h : issuable (C sw d a b) s g = true) :
    Performs (C sw d a b) s g (fun u v => ∃ r : Word,
      lowHalf r = f.round (f32.decode (u.readW a.toNat).toNat) ∧ highHalf r = f.round (f32.decode (u.readW b.toNat).toNat) ∧
      Wrote (C sw d a b) (g.pc + 4) d.toNat [r] u v) := by
  refine (hop.performs h).imp (fun u v hw => ?_)
  obtain ⟨hlow, hhigh⟩ := halves_of_word (half_round_lt hf (f32.decode (u.readW a.toNat).toNat)) (half_round_lt hf (f32.decode (u.readW b.toNat).toNat))
  rw [Nat.add_comm] at hlow hhigh
  exact ⟨_, hlow, hhigh, hw⟩

/-! Stochastic rounding (R98). -/

/-- A pattern of a finite number lies below the infinity of its sign. -/
theorem f32_finite_lt {x : Nat} {n : Bool} {m : Nat} {e : Int} (h : f32.decode x = .fin n m e) : x % 2 ^ 31 < 0x7F800000 := by
  by_contra hge
  have hmag : f32.infBits ≤ x % 2 ^ (f32.width - 1) := Nat.not_lt.mp hge
  rcases hmag.lt_or_eq with hnan | hinf
  · simp [Fmt.decode, hnan] at h
  · simp [Fmt.decode, ← hinf] at h

/-- A finite number's significand gains the random half word below what is kept. -/
theorem stochastic_finite {x y : Word} {n : Bool} {m : Nat} {e : Int} (h : f32.decode x.toNat = .fin n m e) :
    (fw (stochastic x.toNat (y.toNat % 2 ^ 16))).toNat = (x.toNat + lowHalf y) / 2 ^ 16 := by
  have hfinite := f32_finite_lt h
  have hx := x.isLt
  have hy := lowHalf_lt y
  have hsum : stochastic x.toNat (y.toNat % 2 ^ 16) = (x.toNat + lowHalf y) / 2 ^ 16 % 2 ^ 16 := by simp only [stochastic, h]; rfl
  rw [fw, BitVec.toNat_ofNat, hsum]
  omega

theorem stochastic_nan {x : Word} (y : Nat) (h : (f32.decode x.toNat).isNan = true) : fw (stochastic x.toNat y) = 0x7FC0 := by
  simp only [stochastic, (isNan_iff _).mp h]
  rfl

theorem stochastic_inf {x : Word} {n : Bool} (y : Nat) (h : f32.decode x.toNat = .inf n) : (fw (stochastic x.toNat y)).toNat = highHalf x := by
  have hx := highHalf_lt x
  have hhigh : stochastic x.toNat y = highHalf x % 2 ^ 16 := by simp only [stochastic, h]; rfl
  rw [fw, BitVec.toNat_ofNat, hhigh]
  omega

/-- Settles O5: the tables' rows by the operation of the model that each is, and each half's result in its own width. -/
theorem pairedOperations : Obligations.PairedOperations := by
  unfold Obligations.PairedOperations
  refine ⟨fun p hp sw d a b s g h => ?_, fun p hp sw d a b s g h => ?_, fun p hp sw d a s g h => ?_, fun p hp sw d a b s g h => ?_,
    fun sw d a b s g h => ?_⟩
  · obtain ⟨f, hop, hformat, hf⟩ := pairedTable_ops p hp
    refine (hop.performs h).imp (fun u v hw => ⟨_, fun half hhalf => ?_, hw⟩)
    rw [halves_each (fun a b c _ _ _ => hf a b c ▸ half_round_lt hformat _) _ _ _ half hhalf, hf]
  · have key : ∀ {C : Bool → Reg → Reg → Reg → Instr} {f : Fmt}, f ∈ [bf16, fp16] → WordOp C (halves (fun p q _ => f.maxNum p q)) →
        issuable (C sw d a b) s g = true → Performs (C sw d a b) s g (fun u v => ∃ r : Word,
          (∀ h ∈ [lowHalf, highHalf], Extreme f true (h (u.readW a.toNat)) (h (u.readW b.toNat)) (h r)) ∧
          Wrote (C sw d a b) (g.pc + 4) d.toNat [r] u v) := by
      intro C f hformat hop h
      refine (hop.performs h).imp (fun u v hw => ⟨_, fun half hhalf => ?_, hw⟩)
      rw [halves_each (fun a b c ha hb _ => half_maxNum_lt hformat ha hb) _ _ _ half hhalf]
      exact f.maxNum_extreme _ _
    rcases List.mem_pair.mp hp with rfl | rfl
    · exact key (C := .hmax2) (by decide) (fun _ _ _ _ _ => ⟨rfl, rfl, rfl⟩) h
    · exact key (C := .emax2) (by decide) (fun _ _ _ _ _ => ⟨rfl, rfl, rfl⟩) h
  · obtain ⟨f, hop, hvalue⟩ := convertTable_ops p hp
    exact hop.computes hvalue h
  · rcases List.mem_pair.mp hp with rfl | rfl
    · exact packed_performs (C := .cvtBf16F32) (by decide) (fun _ _ _ _ _ => ⟨rfl, rfl, rfl⟩) h
    · exact packed_performs (C := .cvtFp16F32) (by decide) (fun _ _ _ _ _ => ⟨rfl, rfl, rfl⟩) h
  · refine (WordOp.performs (C := .cvtBf16F32Sr) (fun _ _ _ _ _ => ⟨rfl, rfl, rfl⟩) h).imp (fun u v hw => ⟨_, ?_, ?_, ?_, hw⟩)
    · exact fun ⟨_, _, _, hfinite⟩ => stochastic_finite hfinite
    · exact stochastic_nan _
    · exact fun ⟨_, hinf⟩ => stochastic_inf _ hinf

end Sys2Proof.Machine

end

section
/-! SUPPORT. Statement O12: sub-group operations, by the values of the members, which no member's result changes (R138, R139). -/

namespace Sys2Proof.Machine

/-- The members' values of operand a by lane, as a sub-group operation reads them (R138). -/
def memberVals (s : State) (g : Group) (a : Nat) (tids : List Nat) : List (Nat × Word) :=
  tids.filterMap (fun k => (s.threadOf g.ctx g.wg k).map (fun u => (u.lane, u.readW a)))

theorem members_vals (s : State) (g : Group) (a : Nat) : (s.members g).map (fun u => (u.lane, u.readW a)) = memberVals s g a g.tids := by
  rw [State.members, memberVals, List.map_filterMap]

/-- An update that moves no thread to another lane and leaves its registers keeps every member's value. -/
theorem memberVals_modThread {s : State} {g : Group} {a k : Nat} {f : Thread → Thread} (htid : ∀ u, (f u).tid = u.tid)
    (hread : ∀ u, (f u).readW a = u.readW a) (tids : List Nat) : memberVals (s.modThread g.ctx g.wg k f) g a tids = memberVals s g a tids := by
  refine List.filterMap_congr (fun j _ => ?_)
  by_cases hj : j = k
  · subst hj
    rw [State.threadOf_modThread_same s _ _ _ f htid, Option.map_map]
    refine congrArg (fun φ => Option.map φ _) (funext fun u => ?_)
    simp only [Function.comp_apply, Thread.lane, htid, hread]
  · rw [State.threadOf_modThread_other s _ _ _ _ _ _ f htid (fun e => hj e.2.2)]

theorem memberVals_stepPc (i : Instr) (g : Group) (a : Nat) (tids ks : List Nat) (s : State) :
    memberVals (ks.foldl (stepPc i g) s) g a tids = memberVals s g a tids := by
  induction ks generalizing s with
  | nil => rfl
  | cons k ks ih =>
    exact (ih _).trans (memberVals_modThread (f := fun t => { t with pc := g.pc + i.bytes, holdPc := none }) (fun _ => rfl) (fun _ => rfl) tids)

section
variable {i : Instr} {d : Reg} {f : LaneVals → Nat → Thread → Word} {a : Nat} {s : State} {g : Group}

/-- An effect that gives each member a word of all members' values gives it of those that stood at issue. -/
theorem issue_owes_values {eff : State → Group → Nat → State} (h : issuable i s g = true)
    (hf : ∀ v L u pc, f v L { u with pc := pc, holdPc := none } = f v L u)
    (heff : ∀ t k, eff t g k = (t.threadOf g.ctx g.wg k).elim t (fun u => giveWord g k d.toNat (f ⟨memberVals t g a g.tids⟩ u.lane u) t)) :
    OnlyMembers s (issue i noCheck eff s) g ∧ EachMember s (issue i noCheck eff s) g (fun u v =>
      Owes i (g.pc + i.bytes) d.toNat [f ⟨memberVals s g a g.tids⟩ u.lane u] u v) := by
  rw [issue_performs h (fun _ _ _ _ => rfl)]
  obtain ⟨hkept, hthreads⟩ := performAll_of (i := i) (g := g) (eff := eff) (P := fun t => memberVals t g a g.tids = memberVals s g a g.tids)
    (φ := fun _ u => u.addResult (u.dests d.toNat 1) (some [some (f ⟨memberVals s g a g.tids⟩ u.lane u)]))
    g.tids (issuable_nodup h) { s with group := none } (memberVals_stepPc i g a g.tids g.tids { s with group := none })
    (fun t k _ _ => by
      rw [heff]
      cases t.threadOf g.ctx g.wg k with
      | none => exact Kept.refl _ _ _ _
      | some u => exact (giveWord_members g k _ _ t).1)
    (fun t k _ ht => by
      rw [heff]
      cases t.threadOf g.ctx g.wg k with
      | none => exact ht
      | some u => exact (memberVals_modThread (f := fun u => u.addResult _ _) (fun _ => rfl) (fun _ => rfl) _).trans ht)
    (fun t k _ ht => by
      rw [heff]
      cases hu : t.threadOf g.ctx g.wg k with
      | none => exact hu
      | some u => rw [Option.elim_some, (giveWord_members g k _ _ t).2, hu, ht]; rfl)
  refine ⟨⟨hkept.rest, hkept.others, hkept.shells, hkept.cores⟩, fun k hk => ?_⟩
  obtain ⟨u, hu, hready, -⟩ := issuable_member h hk
  have hu' : State.threadOf { s with group := none } g.ctx g.wg k = some u := hu
  refine ⟨u, _, hu, (hthreads k hk).trans (by rw [hu', Option.map_some]), ?_⟩
  rw [hf]
  exact owes_word hready

theorem subGroup_owes (h : issuable i s g = true) (hf : ∀ v L u pc, f v L { u with pc := pc, holdPc := none } = f v L u) :
    OnlyMembers s (subGroup i d f a s) g ∧ EachMember s (subGroup i d f a s) g (fun u v =>
      Owes i (g.pc + i.bytes) d.toNat [f ⟨memberVals s g a g.tids⟩ u.lane u] u v) := by
  refine issue_owes_values h hf (fun t k => ?_)
  rw [← members_vals]
  cases t.threadOf g.ctx g.wg k <;> rfl

end

/-! The values by lane, where the members stand on different ones (R14). -/

/-- The value of operand a in thread `k`. -/
def memberWord (s : State) (g : Group) (a k : Nat) : Word := ((s.threadOf g.ctx g.wg k).map (fun u => u.readW a)).getD 0

section
variable {s : State} {g : Group} {a : Nat} {tids : List Nat} (hall : ∀ k ∈ tids, ∃ u, s.threadOf g.ctx g.wg k = some u)
include hall

theorem memberVals_eq : memberVals s g a tids = tids.map (fun k => (k % 32, memberWord s g a k)) := by
  rw [← List.filterMap_eq_map]
  refine List.filterMap_congr (fun k hk => ?_)
  obtain ⟨u, hu⟩ := hall k hk
  simp only [hu, Option.map_some, Thread.lane, State.threadOf_tid hu, memberWord, Option.getD_some, Function.comp_apply]

/-- The first value on a lane is that of the member who stands there. -/
theorem vals_find (j : Nat) : ((memberVals s g a tids).find? (fun p => p.1 == j)).map (fun p => p.2) =
    ((tids.find? (fun k => k % 32 == j)).bind (fun k => s.threadOf g.ctx g.wg k)).map (fun u => u.readW a) := by
  rw [memberVals_eq hall, List.find?_map]
  cases hfind : tids.find? (fun k => k % 32 == j) with
  | none => simp only [Function.comp_def, hfind]; rfl
  | some k =>
    obtain ⟨u, hu⟩ := hall k (List.mem_of_find?_eq_some hfind)
    simp only [Function.comp_def, hfind, Option.map_some, Option.bind_some, hu, memberWord, Option.getD_some]

theorem vals_filter (p : Word → Bool) : (memberVals s g a tids).filter (fun x => p x.2) =
    (tids.filter (fun k => (s.threadOf g.ctx g.wg k).any (fun u => p (u.readW a)))).map (fun k => (k % 32, memberWord s g a k)) := by
  rw [memberVals_eq hall, List.filter_map]
  refine congrArg _ (List.filter_congr (fun k hk => ?_))
  obtain ⟨u, hu⟩ := hall k hk
  simp only [Function.comp_apply, hu, memberWord, Option.map_some, Option.getD_some, Option.any_some]

end

/-- Different lanes' bits make a word. -/
theorem sum_lanes_lt {tids : List Nat} (h : (tids.map (fun k => k % 32)).Nodup) : (tids.map (fun k => 2 ^ (k % 32))).sum < 2 ^ 32 := by
  have hsum := List.sum_toFinset (fun j => 2 ^ j) h
  rw [List.map_map] at hsum
  have hlt : ∑ j ∈ (tids.map (fun k => k % 32)).toFinset, 2 ^ j < 2 ^ 32 := Nat.geomSum_lt le_rfl (fun j hj => by
    obtain ⟨k, _, rfl⟩ := List.mem_map.mp (List.mem_toFinset.mp hj)
    exact Nat.mod_lt _ (by decide))
  exact hsum ▸ hlt

theorem laneMask_lt (s : State) {g : Group} (a : Nat) (hlanes : (g.tids.map (fun k => k % 32)).Nodup) (p : Word → Bool) :
    laneMask s g a p < 2 ^ 32 :=
  sum_lanes_lt (hlanes.sublist (List.filter_sublist.map _))

section
variable {s : State} {g : Group} {a : Nat} (hall : ∀ k ∈ g.tids, ∃ u, s.threadOf g.ctx g.wg k = some u)
  (hlanes : (g.tids.map (fun k => k % 32)).Nodup)
include hall

theorem source_eq (L j : Nat) :
    LaneVals.source ⟨memberVals s g a g.tids⟩ L j = (laneValue s g a j).getD (LaneVals.own ⟨memberVals s g a g.tids⟩ L) := by
  rw [LaneVals.source, vals_find hall]
  rfl

include hlanes

theorem own_eq {k : Nat} {u : Thread} (hk : k ∈ g.tids) (hu : s.threadOf g.ctx g.wg k = some u) :
    LaneVals.own ⟨memberVals s g a g.tids⟩ u.lane = u.readW a := by
  have hfind : g.tids.find? (fun j => j % 32 == u.lane) = some k := by
    obtain ⟨j, hj⟩ := Option.isSome_iff_exists.mp (List.find?_isSome.mpr ⟨k, hk, by simp [Thread.lane, State.threadOf_tid hu]⟩ :
      (g.tids.find? (fun j => j % 32 == u.lane)).isSome = true)
    have hsame : j % 32 = k % 32 := by simpa [Thread.lane, State.threadOf_tid hu] using List.find?_some hj
    rw [hj, List.inj_on_of_nodup_map hlanes (List.mem_of_find?_eq_some hj) hk hsame]
  rw [LaneVals.own, vals_find hall, hfind, Option.bind_some, hu]
  rfl

theorem mask_toNat (p : Word → Bool) : (LaneVals.mask ⟨memberVals s g a g.tids⟩ p).toNat = laneMask s g a p := by
  have hfold : ((memberVals s g a g.tids).filter (fun x => p x.2)).foldl (fun n x => n + 2 ^ x.1) 0 = laneMask s g a p := by
    rw [vals_filter hall, List.foldl_map, laneMask, List.sum_eq_foldl, List.foldl_map]
  rw [LaneVals.mask, hfold, BitVec.toNat_ofNat, Nat.mod_eq_of_lt (laneMask_lt s a hlanes p)]

end

/-- No member's value satisfies the test where the mask is 0. -/
theorem laneMask_eq_zero {s : State} {g : Group} {a : Nat} (hall : ∀ k ∈ g.tids, ∃ u, s.threadOf g.ctx g.wg k = some u) (p : Word → Bool) :
    laneMask s g a p = 0 ↔ ∀ x ∈ memberVals s g a g.tids, p x.2 ≠ true := by
  have hempty : (g.tids.filter (fun k => (s.threadOf g.ctx g.wg k).any (fun u => p (u.readW a)))) = [] ↔
      (memberVals s g a g.tids).filter (fun x => p x.2) = [] := by
    rw [vals_filter hall, List.map_eq_nil_iff]
  rw [laneMask, List.sum_eq_zero_iff, ← List.filter_eq_nil_iff, ← hempty, List.eq_nil_iff_forall_not_mem]
  constructor
  · exact fun hz k hk => absurd (hz _ (List.mem_map_of_mem hk)) (by positivity)
  · intro hnone n hn
    obtain ⟨k, hk, -⟩ := List.mem_map.mp hn
    exact absurd hk (hnone k)

/-- Words added one after the other are the sum of their numbers modulo 2^32. -/
theorem foldl_add_toNat {α : Type} (f : α → Word) (l : List α) (w : Word) :
    (l.foldl (fun n x => n + f x) w).toNat = (w.toNat + (l.map (fun x => (f x).toNat)).sum) % 2 ^ 32 := by
  induction l generalizing w with
  | nil => simp [Nat.mod_eq_of_lt w.isLt]
  | cons x l ih =>
    rw [List.foldl_cons, ih, BitVec.toNat_add, List.map_cons, List.sum_cons, Nat.mod_add_mod, Nat.add_assoc]

/-- Every member's lane is in the mask of all. -/
theorem laneMask_true {s : State} {g : Group} {a : Nat} (hall : ∀ k ∈ g.tids, ∃ u, s.threadOf g.ctx g.wg k = some u) :
    laneMask s g a (fun _ => true) = (g.tids.map (fun k => 2 ^ (k % 32))).sum := by
  rw [laneMask, List.filter_eq_self.mpr (fun k hk => by obtain ⟨u, hu⟩ := hall k hk; rw [hu]; rfl)]

theorem bits_lane (y : Nat) : bits y 4 0 = y % 32 := by simp [bits]

theorem issuable_threads {i : Instr} {s : State} {g : Group} (h : issuable i s g = true) :
    ∀ k ∈ g.tids, ∃ u, s.threadOf g.ctx g.wg k = some u :=
  fun _ hk => (issuable_member h hk).imp (fun _ hu => hu.1)

section
variable {i : Instr} {d : Reg} {f : LaneVals → Nat → Thread → Word} {a : Nat} {s : State} {g : Group}

theorem subGroup_performs {post : Thread → Thread → Prop} (hexec : exec i s = .next (subGroup i d f a s)) (hbytes : i.bytes = 4)
    (h : issuable i s g = true) (hf : ∀ v L u pc, f v L { u with pc := pc, holdPc := none } = f v L u)
    (hpost : ∀ k ∈ g.tids, ∀ u v, s.threadOf g.ctx g.wg k = some u →
      Owes i (g.pc + 4) d.toNat [f ⟨memberVals s g a g.tids⟩ u.lane u] u v → post u v) : Performs i s g post := by
  obtain ⟨honly, heach⟩ := subGroup_owes (i := i) (d := d) (a := a) h hf
  rw [hbytes] at heach
  refine ⟨_, hexec, honly, fun k hk => ?_⟩
  obtain ⟨u, v, hu, hv, howes⟩ := heach k hk
  exact ⟨u, v, hu, hv, hpost k hk u v hu howes⟩

/-- A shuffle owes the value of the lane it names, and the member's own where none stands there. -/
theorem shuffle_performs {r : Nat → Nat → Option Word} {b : Reg}
    (hlanes : (g.tids.map (fun k => k % 32)).Nodup) (hexec : exec i s = .next (subGroup i d f a s)) (hbytes : i.bytes = 4)
    (h : issuable i s g = true) (hf : ∀ v L u pc, f v L { u with pc := pc, holdPc := none } = f v L u)
    (hr : ∀ u, f ⟨memberVals s g a g.tids⟩ u.lane u =
      (r u.tid (u.readW b.toNat).toNat).getD (LaneVals.own ⟨memberVals s g a g.tids⟩ u.lane)) :
    Performs i s g (fun u v => Owes i (g.pc + 4) d.toNat [(r u.tid (u.readW b.toNat).toNat).getD (u.readW a)] u v) :=
  subGroup_performs hexec hbytes h hf (fun k hk u v hu howes => by
    rw [hr, own_eq (issuable_threads h) hlanes hk hu] at howes
    exact howes)

/-- A vote owes a word for the number that it makes of all. -/
theorem vote_performs {n : Word → Nat} (hexec : exec i s = .next (subGroup i d f a s)) (hbytes : i.bytes = 4)
    (h : issuable i s g = true) (hf : ∀ v L u pc, f v L { u with pc := pc, holdPc := none } = f v L u)
    (hn : ∀ k ∈ g.tids, ∀ u, s.threadOf g.ctx g.wg k = some u → (f ⟨memberVals s g a g.tids⟩ u.lane u).toNat = n (u.readW a)) :
    Performs i s g (fun u v => ∃ r : Word, r.toNat = n (u.readW a) ∧ Owes i (g.pc + 4) d.toNat [r] u v) :=
  subGroup_performs hexec hbytes h hf (fun k hk u _ hu howes => ⟨_, hn k hk u hu, howes⟩)

end

section
variable {s : State} {g : Group} {a : Nat}

theorem gsum_value : ((memberVals s g a g.tids).foldl (fun n p => n + p.2) (0 : Word)).toNat =
    ((g.tids.filterMap (fun k => s.threadOf g.ctx g.wg k)).map (fun u => (u.readW a).toNat)).sum % 2 ^ 32 := by
  rw [foldl_add_toNat (fun p : Nat × Word => p.2), ← members_vals, List.map_map]
  exact congrArg (· % 2 ^ 32) (Nat.zero_add _)

variable (hall : ∀ k ∈ g.tids, ∃ u, s.threadOf g.ctx g.wg k = some u)
include hall

theorem vany_value : (flagWord ((memberVals s g a g.tids).any (fun p => p.2 != 0))).toNat =
    if laneMask s g a (fun x => x != 0) = 0 then 0 else 1 := by
  have hany : (memberVals s g a g.tids).any (fun p => p.2 != 0) = true ↔ laneMask s g a (fun x => x != 0) ≠ 0 := by
    rw [Ne, laneMask_eq_zero hall]
    simp
  by_cases hz : laneMask s g a (fun x => x != 0) = 0
  · rw [if_pos hz, Bool.eq_false_iff.mpr (fun ht => hany.mp ht hz)]
    rfl
  · rw [if_neg hz, hany.mpr hz]
    rfl

theorem vall_value : (flagWord ((memberVals s g a g.tids).all (fun p => p.2 != 0))).toNat =
    if laneMask s g a (fun x => x == 0) = 0 then 1 else 0 := by
  have hevery : (memberVals s g a g.tids).all (fun p => p.2 != 0) = true ↔ laneMask s g a (fun x => x == 0) = 0 := by
    rw [laneMask_eq_zero hall]
    simp
  by_cases hz : laneMask s g a (fun x => x == 0) = 0
  · rw [if_pos hz, hevery.mpr hz]
    rfl
  · rw [if_neg hz, Bool.eq_false_iff.mpr (fun ht => hz (hevery.mp ht))]
    rfl

end

theorem shuffles_perform (s : State) (g : Group) (a : Reg) (hlanes : (g.tids.map (fun k => k % 32)).Nodup) :
    ∀ p ∈ subGroupTable s g a.toNat, ∀ (sw : Bool) (d b : Reg), issuable (p.1 sw d a b) s g = true →
    Performs (p.1 sw d a b) s g (fun u v =>
      Owes (p.1 sw d a b) (g.pc + 4) d.toNat [(p.2 u.tid (u.readW b.toNat).toNat).getD (u.readW a.toNat)] u v) := by
  refine List.forall_mem_cons.mpr ⟨fun sw d b h => shuffle_performs hlanes rfl rfl h (fun _ _ _ _ => rfl) (fun u => ?_),
    List.forall_mem_cons.mpr ⟨fun sw d b h => shuffle_performs hlanes rfl rfl h (fun _ _ _ _ => rfl) (fun u => ?_),
    List.forall_mem_cons.mpr ⟨fun sw d b h => shuffle_performs hlanes rfl rfl h (fun _ _ _ _ => rfl) (fun u => ?_),
    List.forall_mem_singleton.mpr fun sw d b h => shuffle_performs hlanes rfl rfl h (fun _ _ _ _ => rfl) (fun u => ?_)⟩⟩⟩
  case refine_1 => rw [source_eq (issuable_threads h), bits_lane]
  case refine_2 =>
    rw [source_eq (issuable_threads h), bits_lane]
    rfl
  case refine_3 =>
    simp only [source_eq (issuable_threads h), Thread.lane]
    split <;> rfl
  case refine_4 =>
    simp only [source_eq (issuable_threads h), Thread.lane]
    split <;> rfl

theorem votes_perform (s : State) (g : Group) (a : Reg) (hlanes : (g.tids.map (fun k => k % 32)).Nodup) :
    ∀ p ∈ voteTable s g a.toNat, ∀ (sw : Bool) (d : Reg), issuable (p.1 sw d a) s g = true →
    Performs (p.1 sw d a) s g (fun u v => ∃ r : Word, r.toNat = p.2 (u.readW a.toNat) ∧ Owes (p.1 sw d a) (g.pc + 4) d.toNat [r] u v) := by
  refine List.forall_mem_cons.mpr ⟨fun sw d h => vote_performs rfl rfl h (fun _ _ _ _ => rfl) (fun k hk u hu => vany_value (issuable_threads h)),
    List.forall_mem_cons.mpr ⟨fun sw d h => vote_performs rfl rfl h (fun _ _ _ _ => rfl) (fun k hk u hu => vall_value (issuable_threads h)),
    List.forall_mem_cons.mpr ⟨fun sw d h => vote_performs rfl rfl h (fun _ _ _ _ => rfl) (fun _ _ _ _ => mask_toNat (issuable_threads h) hlanes _),
    List.forall_mem_cons.mpr ⟨fun sw d h => vote_performs rfl rfl h (fun _ _ _ _ => rfl) (fun k hk u hu => ?_),
    List.forall_mem_singleton.mpr fun sw d h => vote_performs rfl rfl h (fun _ _ _ _ => rfl) (fun k hk u hu => gsum_value)⟩⟩⟩⟩
  rw [mask_toNat (issuable_threads h) hlanes, own_eq (issuable_threads h) hlanes hk hu]

/-- Settles O12: what each operation makes of the values of the members, which none of its results changes. -/
theorem subGroups : Obligations.SubGroups :=
  ⟨shuffles_perform, votes_perform,
    fun _ g _ _ hlanes h => vote_performs (a := 0) (n := fun _ => (g.tids.map (fun k => 2 ^ (k % 32))).sum) rfl rfl h (fun _ _ _ _ => rfl)
      (fun _ _ _ _ => (mask_toNat (issuable_threads h) hlanes _).trans (laneMask_true (issuable_threads h)))⟩

end Sys2Proof.Machine

end

section
/-! SUPPORT. Statement O4: exact sums and products rounded once, and the functions of R134 at the points that it names. -/

namespace Sys2Proof.Machine

/-! Exact arithmetic (R133). -/

/-- The signed mantissa at a lower exponent stands for the same number. -/
theorem alignTo_value {e lo : Int} (h : lo ≤ e) (neg : Bool) (m : Nat) : (alignTo neg m e lo : ℚ) * 2 ^ lo = signed neg m e := by
  have hexp : e = ((e - lo).toNat : Int) + lo := by omega
  have hscale : ((m * 2 ^ (e - lo).toNat : Nat) : ℚ) * 2 ^ lo = m * 2 ^ e := by
    conv_rhs => rw [hexp, zpow_add₀ (by norm_num : (2 : ℚ) ≠ 0), zpow_natCast]
    push_cast
    ring
  unfold alignTo signed
  cases neg with
  | false => simpa using hscale
  | true =>
    simp only [if_true]
    rw [Int.cast_neg, Int.cast_natCast, neg_mul, hscale]
    ring

theorem signed_zero (neg : Bool) (e : Int) : signed neg 0 e = 0 := by simp [signed]

/-- A term of a sum, which an exact zero leaves out. -/
theorem term_value {m : Nat} {e lo : Int} (h : m ≠ 0 → lo ≤ e) (neg : Bool) :
    (((if m = 0 then (0 : Int) else alignTo neg m e lo) : Int) : ℚ) * 2 ^ lo = signed neg m e := by
  by_cases hm : m = 0
  · simp [hm, signed_zero]
  · rw [if_neg hm, alignTo_value (h hm)]

theorem ofInt_value (z lo : Int) (zeroNeg : Bool) : ∃ n m, Num.ofInt z lo zeroNeg = .fin n m (if z = 0 then 0 else lo) ∧
    signed n m (if z = 0 then 0 else lo) = (z : ℚ) * 2 ^ lo ∧ (m = 0 ↔ z = 0) ∧ (z = 0 → n = zeroNeg) := by
  by_cases hz : z = 0
  · exact ⟨zeroNeg, 0, by simp [Num.ofInt, hz], by simp [hz, signed_zero], by simp [hz], fun _ => rfl⟩
  · refine ⟨decide (z < 0), z.natAbs, by simp [Num.ofInt, hz], ?_, Int.natAbs_eq_zero, fun h => absurd h hz⟩
    rw [if_neg hz, signed]
    rcases lt_or_ge z 0 with hneg | hpos
    · simp [hneg, abs_of_neg hneg, Nat.cast_natAbs]
    · simp [not_lt.mpr hpos, abs_of_nonneg hpos, Nat.cast_natAbs]

theorem add_exact (x y : Num) : ExactSum x y (x.add y) := by
  refine ⟨fun h => ?_, fun a b hx hy => ?_, fun a n m e h => ?_, fun nx mx ex ny my ey hx hy => ?_⟩
  · rcases h with rfl | rfl
    · rfl
    · cases x <;> rfl
  · subst hx hy
    rfl
  · rcases h with ⟨rfl, rfl⟩ | ⟨rfl, rfl⟩ <;> rfl
  · subst hx hy
    obtain ⟨n, m, hsum, hvalue, hzero, hsign⟩ := ofInt_value
      ((if mx = 0 then (0 : Int) else alignTo nx mx ex (if mx = 0 then ey else if my = 0 then ex else if ex ≤ ey then ex else ey)) +
        if my = 0 then (0 : Int) else alignTo ny my ey (if mx = 0 then ey else if my = 0 then ex else if ex ≤ ey then ex else ey))
      (if mx = 0 then ey else if my = 0 then ex else if ex ≤ ey then ex else ey) (mx = 0 && my = 0 && nx && ny)
    refine ⟨n, m, _, hsum, ?_, fun hm => ?_⟩
    · rw [hvalue, Int.cast_add, add_mul, term_value (fun h => ?_), term_value (fun h => ?_)]
      · rw [if_neg h]
        split_ifs <;> omega
      · split_ifs <;> omega
    · rw [hsign (hzero.mp hm)]
      simp [and_assoc]

theorem mul_exact (x y : Num) : ExactProduct x y (x.mul y) := by
  refine ⟨fun h => ?_, fun a b hx hy => ?_, fun a n m e h => ?_, fun nx mx ex ny my ey hx hy => ?_⟩
  · rcases h with rfl | rfl
    · rfl
    · cases x <;> rfl
  · subst hx hy
    rfl
  · rcases h with ⟨rfl, rfl⟩ | ⟨rfl, rfl⟩
    · rfl
    · rw [bne_comm]
      rfl
  · subst hx hy
    refine ⟨mx * my, ex + ey, rfl, ?_⟩
    rw [zpow_add₀ (by norm_num : (2 : ℚ) ≠ 0)]
    push_cast
    ring

theorem round_rounded (x : Num) : Rounded x (f32.round x) := by
  refine ⟨fun h => h ▸ rfl, fun n h => ?_, fun n m e h => ⟨f32.roundMag m e false, ?_, ?_⟩⟩
  · subst h
    exact Nat.add_comm _ _
  · subst h
    exact Nat.add_comm _ _
  · by_cases hm : m = 0
    · subst hm
      rw [roundMag_zero, Nat.cast_zero, zero_mul]
      exact zero_nearest f32_regular
    · exact roundMag_nearest f32_regular hm (.inl ⟨rfl, rfl⟩)

/-! Operations on bit 31 (R133, R134). -/

theorem copySign_value (x y : Word) : ((x &&& 0x7FFFFFFF) ||| (y &&& 0x80000000)).toNat = x.toNat % 2 ^ 31 + y.toNat / 2 ^ 31 * 2 ^ 31 := by
  have hy := y.isLt
  rw [BitVec.toNat_or, BitVec.toNat_and, BitVec.toNat_and]
  have hmod : (x.toNat &&& 0x7FFFFFFF ||| y.toNat &&& 0x80000000) % 2 ^ 31 = x.toNat % 2 ^ 31 := by
    rw [Nat.or_mod_two_pow, Nat.and_mod_two_pow, Nat.and_mod_two_pow]
    simp only [Nat.reduceMod, Nat.reducePow, Nat.and_zero, Nat.or_zero]
    rw [show 2147483647 = 2 ^ 31 - 1 from rfl, Nat.and_two_pow_sub_one_eq_mod, Nat.mod_mod]
  have hdiv : (x.toNat &&& 0x7FFFFFFF ||| y.toNat &&& 0x80000000) / 2 ^ 31 = y.toNat / 2 ^ 31 := by
    rw [Nat.or_div_two_pow, Nat.and_div_two_pow, Nat.and_div_two_pow]
    simp only [Nat.reduceDiv, Nat.reducePow, Nat.and_zero, Nat.zero_or, Nat.and_one_is_mod]
    omega
  have hsplit := Nat.div_add_mod (x.toNat &&& 0x7FFFFFFF ||| y.toNat &&& 0x80000000) (2 ^ 31)
  rw [hmod, hdiv] at hsplit
  rw [Nat.add_comm, Nat.mul_comm]
  exact hsplit.symm

theorem clearSign_value (x : Word) : (x &&& 0x7FFFFFFF).toNat = x.toNat % 2 ^ 31 :=
  (BitVec.toNat_and ..).trans (Nat.and_two_pow_sub_one_eq_mod x.toNat 31)

theorem flipSign_value (x : Word) : (x ^^^ 0x80000000).toNat = (x.toNat + 2 ^ 31) % 2 ^ 32 := by
  have hx := x.isLt
  rw [BitVec.toNat_xor]
  have hmod : (x.toNat ^^^ 0x80000000) % 2 ^ 31 = x.toNat % 2 ^ 31 := by
    rw [Nat.xor_mod_two_pow]
    exact Nat.xor_zero _
  have hdiv : (x.toNat ^^^ 0x80000000) / 2 ^ 31 = (x.toNat / 2 ^ 31) ^^^ 1 := by
    rw [Nat.xor_div_two_pow]
  have hbit : x.toNat / 2 ^ 31 = 0 ∨ x.toNat / 2 ^ 31 = 1 := by omega
  have hsplit := Nat.div_add_mod (x.toNat ^^^ 0x80000000) (2 ^ 31)
  rw [hmod, hdiv] at hsplit
  change (x.toNat ^^^ 0x80000000) = _
  rcases hbit with h | h <;> rw [h] at hsplit <;> simp only [Nat.reduceXor] at hsplit <;> omega

/-! Powers of two and integers, which FP32 holds exactly. -/

/-- A number of no bits below its units, and none past the format's range, rounds to itself. -/
theorem f32_exact {m : Nat} {e : Int} (hm : m ≠ 0) (hlow : f32.unitExp m e ≤ e) (htop : f32.unitExp m e ≤ 104) (sticky : Bool) :
    f32.roundMag m e sticky < f32.infBits ∧ magnitude f32 (f32.roundMag m e sticky) = m * (2 : ℚ) ^ e := by
  obtain ⟨hlt, hnormal⟩ := normal_exact f32_regular hm hlow
  have hunits : f32.pattern m e (m * 2 ^ (e - f32.unitExp m e).toNat) < f32.infBits := by
    have hpow : 2 ^ (f32.prec - 1) = 2 ^ 23 := rfl
    have hinf : f32.infBits = 255 * 2 ^ 23 := rfl
    have hbase : f32.low = -149 := rfl
    rw [hpow] at hlt
    rw [Fmt.pattern, hpow, hinf, hbase]
    omega
  have hround : f32.roundMag m e sticky = f32.pattern m e (m * 2 ^ (e - f32.unitExp m e).toNat) := by
    rw [roundMag_exact f32_regular hm hlow, Fmt.capped, if_neg (by omega)]
  have hvalue : (magnitude f32 (f32.pattern m e (m * 2 ^ (e - f32.unitExp m e).toNat)) : ℝ) = m * (2 : ℝ) ^ e := by
    rw [magnitude_unit f32_regular ⟨hlt.le, hnormal⟩]
    push_cast
    rw [mul_assoc, ← zpow_natCast, ← zpow_add₀ (by norm_num : (2 : ℝ) ≠ 0)]
    congr 2
    omega
  rw [hround]
  exact ⟨hunits, Rat.cast_injective (α := ℝ) (by push_cast; exact hvalue)⟩

theorem unitExp_f32 (m : Nat) (e : Int) : f32.unitExp m e = max ((m.log2 : Int) + e - 23) (-149) := by
  have hprec : ((f32.prec - 1 : Nat) : Int) = 23 := rfl
  have hmin : f32.emin = -126 := rfl
  rw [Fmt.unitExp, hprec, hmin]
  omega

/-- The powers of two of FP32's range, the least subnormal number's included. -/
theorem power_exact {k : Int} (hlow : -149 ≤ k) (hhigh : k ≤ 127) :
    f32.roundMag 1 k false < f32.infBits ∧ magnitude f32 (f32.roundMag 1 k false) = (2 : ℚ) ^ k := by
  have hunit : f32.unitExp 1 k = max (k - 23) (-149) := by
    rw [unitExp_f32, show Nat.log2 1 = 0 from rfl, Nat.cast_zero, Int.zero_add]
  obtain ⟨hfinite, hvalue⟩ := f32_exact (e := k) Nat.one_ne_zero (by omega) (by omega) false
  exact ⟨hfinite, by rw [hvalue, Nat.cast_one, one_mul]⟩

/-- A finite pattern decodes to its sign and its magnitude. -/
theorem decode_signed {z : Nat} (hz : z < f32.infBits) (neg : Bool) :
    ∃ m e, f32.decode (f32.signBit neg + z) = .fin neg m e ∧ (m : ℚ) * 2 ^ e = magnitude f32 z := by
  have hinf : f32.infBits = 0x7F800000 := rfl
  have hmag : (f32.signBit neg + z) % 2 ^ (f32.width - 1) = z := by
    rw [signBit_f32, show f32.width - 1 = 31 from rfl]
    split <;> omega
  have hsign : bitOf (f32.signBit neg + z) (f32.width - 1) = neg := by
    rw [signBit_f32, show f32.width - 1 = 31 from rfl, bitOf]
    cases neg <;> simp <;> omega
  simp only [Fmt.decode, hmag, hsign, Nat.not_lt_of_lt hz, Nat.ne_of_lt hz, if_false, magnitude]
  split
  · exact ⟨_, _, rfl, rfl⟩
  · exact ⟨_, _, rfl, by
      congr 2
      have : 1 ≤ z / 2 ^ (f32.prec - 1) := Nat.one_le_iff_ne_zero.mpr ‹_›
      push_cast [this]
      rfl⟩

/-- An integer of at most 24 bits is one of FP32's numbers. -/
theorem integer_exact {z : Int} (hz : z.natAbs < 2 ^ 24) :
    ∃ n m e, f32.decode (f32.round (Num.ofInt z 0 false)) = .fin n m e ∧ signed n m e = (z : ℚ) := by
  obtain ⟨n, m, hnum, hvalue, hzero, -⟩ := ofInt_value z 0 false
  simp only [ite_self, zpow_zero, mul_one] at hnum hvalue
  have hm : m = z.natAbs := by
    rw [Num.ofInt] at hnum
    split at hnum <;> injection hnum <;> omega
  have hfinite : f32.roundMag m 0 false < f32.infBits ∧ magnitude f32 (f32.roundMag m 0 false) = m * (2 : ℚ) ^ (0 : Int) := by
    by_cases hm0 : m = 0
    · rw [hm0, roundMag_zero]
      exact ⟨by decide, by simp [magnitude]⟩
    · have hlog : m.log2 < 24 := (Nat.log2_lt hm0).mpr (hm ▸ hz)
      exact f32_exact hm0 (by rw [unitExp_f32]; omega) (by rw [unitExp_f32]; omega) false
  obtain ⟨m', e', hdecode, hmag⟩ := decode_signed hfinite.1 n
  refine ⟨n, m', e', by rw [hnum]; exact hdecode, ?_⟩
  rw [← hvalue, signed, signed, mul_assoc, mul_assoc, hmag, hfinite.2]

/-! FEXP2 and FLOG2 where they are exact (R134). -/

section
variable {x m : Nat} {e : Int} {neg : Bool}

theorem f32_decode_exp (h : f32.decode x = .fin neg m e) : -149 ≤ e ∧ e ≤ 104 := by
  have hwidth : f32.width - 1 = 31 := rfl
  have hprec : f32.prec - 1 = 23 := rfl
  have hmin : f32.emin = -126 := rfl
  have hinf : f32.infBits = 0x7F800000 := rfl
  simp only [Fmt.decode, hwidth, hprec, hmin, hinf] at h
  split_ifs at h <;> injection h <;> omega

theorem scaled_whole (he : 0 ≤ e) (m : Nat) : (m : ℚ) * 2 ^ e = (m * 2 ^ e.toNat : Nat) := by
  push_cast
  rw [← zpow_natCast, Int.toNat_of_nonneg he]

theorem scaled_part (he : e < 0) (m : Nat) : (m : ℚ) * 2 ^ e = m / (2 ^ (-e).toNat : Nat) := by
  push_cast
  rw [← zpow_natCast, Int.toNat_of_nonneg (by omega), zpow_neg, div_inv_eq_mul]

/-- The integer that a number of FP32 is, where it is one: by the exponent's sign. -/
theorem integer_magnitude {k : Int} (h : signed neg m e = (k : ℚ)) :
    (0 ≤ e → m * 2 ^ e.toNat = k.natAbs) ∧ (e < 0 → m = k.natAbs * 2 ^ (-e).toNat) ∧ k = if neg then -(k.natAbs : Int) else k.natAbs := by
  have hpos : (0 : ℚ) ≤ m * 2 ^ e := by positivity
  have hvalue : (m : ℚ) * 2 ^ e = (k.natAbs : ℚ) := by
    rw [Nat.cast_natAbs, Int.cast_abs, ← h, signed, mul_assoc, abs_mul, abs_of_nonneg hpos]
    cases neg <;> simp
  refine ⟨fun he => ?_, fun he => ?_, ?_⟩
  · rw [scaled_whole he] at hvalue
    exact_mod_cast hvalue
  · rw [scaled_part he, div_eq_iff (by positivity)] at hvalue
    exact_mod_cast hvalue
  · rw [signed, mul_assoc, hvalue] at h
    cases neg with
    | false =>
      rw [if_neg (by decide), one_mul] at h
      exact Int.cast_injective (α := ℚ) (h.symm.trans (Int.cast_natCast _).symm)
    | true =>
      rw [if_pos rfl, neg_one_mul] at h
      exact_mod_cast h.symm

/-- FEXP2 of an integer of its range is a power of two rounded. -/
theorem f32Exp2_integer {K : Nat} (hx : f32.decode x = .fin neg m e) (hm : m ≠ 0) (hwhole : 0 ≤ e → m * 2 ^ e.toNat = K)
    (hfrac : e < 0 → m = K * 2 ^ (-e).toNat) (hK : K < if neg then 150 else 128) :
    f32Exp2 x = f32.roundMag 1 (if neg then -(K : Int) else K) false := by
  have hsize : K < 150 := by split at hK <;> omega
  have hneg : (neg && decide (150 ≤ K)) = false := by cases neg <;> simp; omega
  have hnonneg : (!neg && decide (128 ≤ K)) = false := by cases neg <;> simp_all
  rcases lt_or_ge e 0 with he | he
  · have hpow := Nat.two_pow_pos (-e).toNat
    have hdiv : m / 2 ^ (-e).toNat = K := by rw [hfrac he, Nat.mul_div_cancel _ hpow]
    have hmod : m % 2 ^ (-e).toNat = 0 := by rw [hfrac he, Nat.mul_mod_left]
    have hmag : decide (2 ^ 8 ≤ K) = false := by simp; omega
    simp only [f32Exp2, hx, hm, if_false, not_le.mpr he, hdiv, hmod, hmag, Bool.and_false, hneg, hnonneg, if_true, Bool.false_eq_true]
  · have hmag : decide (2 ^ 8 ≤ m * 2 ^ (if e < 16 then e.toNat else 16)) = false := by
      have hle : m * 2 ^ (if e < 16 then e.toNat else 16) ≤ K := by
        rw [← hwhole he]
        exact Nat.mul_le_mul_left _ (Nat.pow_le_pow_right (by decide) (by split <;> omega))
      simp only [decide_eq_false_iff_not]
      omega
    simp only [f32Exp2, hx, hm, if_false, he, if_true, hwhole he, hmag, Bool.and_false, hneg, hnonneg, Bool.false_eq_true]

/-- FEXP2 from 128 on is the infinity. -/
theorem f32Exp2_large (hx : f32.decode x = .fin false m e) (h : 128 ≤ (m : ℚ) * 2 ^ e) : f32Exp2 x = f32.infBits := by
  have hm : m ≠ 0 := by rintro rfl; norm_num at h
  rcases lt_or_ge e 0 with he | he
  · have hdiv : 128 ≤ m / 2 ^ (-e).toNat := by
      rw [Nat.le_div_iff_mul_le (Nat.two_pow_pos _)]
      rw [scaled_part he, le_div_iff₀ (by positivity)] at h
      exact_mod_cast h
    simp [f32Exp2, hx, hm, not_le.mpr he, hdiv]
  · have hwhole : 128 ≤ m * 2 ^ e.toNat := by
      rw [scaled_whole he] at h
      exact_mod_cast h
    simp [f32Exp2, hx, hm, he, hwhole]

/-- R134: FEXP2 is exact at the integers of its range. -/
theorem f32Exp2_exact {k : Int} (hx : f32.decode x = .fin neg m e) (hlow : -149 ≤ k) (hhigh : k ≤ 127) (h : signed neg m e = (k : ℚ)) :
    f32Exp2 x < f32.infBits ∧ magnitude f32 (f32Exp2 x) = (2 : ℚ) ^ k := by
  have hpower := power_exact hlow hhigh
  by_cases hm : m = 0
  · obtain rfl : k = 0 := by
      rw [hm, signed_zero] at h
      exact_mod_cast h.symm
    have hone : f32Exp2 x = f32.roundMag 1 0 false := by
      simp only [f32Exp2, hx, hm, if_true]
      decide
    exact hone ▸ hpower
  · obtain ⟨hwhole, hfrac, hk⟩ := integer_magnitude h
    have hsame := f32Exp2_integer hx hm hwhole hfrac (by
      cases neg <;> simp only [Bool.false_eq_true, if_false, if_true] at hk ⊢ <;> omega)
    rw [hsame, ← hk]
    exact hpower

/-- R134: FLOG2 is exact at the powers of two. -/
theorem f32Log2_exact {k : Int} (hx : f32.decode x = .fin false m e) (h : (m : ℚ) * 2 ^ e = (2 : ℚ) ^ k) :
    f32Log2 x < 2 ^ 32 ∧ ∃ n m' e', f32.decode (f32Log2 x) = .fin n m' e' ∧ signed n m' e' = (k : ℚ) := by
  obtain ⟨helow, hehigh⟩ := f32_decode_exp hx
  have hsize := f32_decode_mant hx
  have hm : m ≠ 0 := by
    rintro rfl
    rw [Nat.cast_zero, zero_mul] at h
    exact absurd h.symm (by positivity)
  have hratio : (m : ℚ) = (2 : ℚ) ^ (k - e) := by
    rw [zpow_sub₀ (by norm_num : (2 : ℚ) ≠ 0), ← h, mul_div_cancel_right₀ _ (by positivity)]
  have hexp : 0 ≤ k - e := by
    by_contra hlt
    have hone : (1 : ℚ) ≤ m := by exact_mod_cast Nat.one_le_iff_ne_zero.mpr hm
    have hless : (2 : ℚ) ^ (k - e) < 1 := zpow_lt_one_of_neg₀ (by norm_num) (by omega)
    linarith
  obtain ⟨j, hj⟩ := Int.eq_ofNat_of_zero_le hexp
  have hpower : m = 2 ^ j := by
    rw [hj, zpow_natCast] at hratio
    exact_mod_cast hratio
  have hlog : m.log2 = j := by rw [hpower, Nat.log2_two_pow]
  have hj24 : j < 24 := (Nat.pow_lt_pow_iff_right (by decide)).mp (hpower ▸ hsize)
  have hk : e + (m.log2 : Int) = k := by omega
  have hvalue : f32Log2 x = f32.round (Num.ofInt k 0 false) := by
    have hmant : m = 2 ^ m.log2 := by rw [hlog, hpower]
    simp only [f32Log2, hx, hm, if_false, Bool.false_eq_true, ← hmant, if_true, hk]
  rw [hvalue]
  exact ⟨Fmt.round_lt (fits_of_mem (by decide)) _, integer_exact (by omega)⟩

end


/-! The instructions of group 0x2. -/

section
variable (x y : Nat)

theorem f32Div_lt : f32Div x y < 2 ^ 32 := by
  have hf : f32.Fits := fits_of_mem (by decide)
  cases hx : f32.decode x with
  | nan => exact f32Div_nan (.inl ((isNan_iff _).mpr hx)) ▸ by decide
  | inf a =>
    cases hy : f32.decode y with
    | nan => exact f32Div_nan (.inr ((isNan_iff _).mpr hy)) ▸ by decide
    | inf b => simp only [f32Div, hx, hy]; exact hf.nan
    | fin b m e => simp only [f32Div, hx, hy]; exact Fmt.round_lt hf _
  | fin a m e =>
    cases hy : f32.decode y with
    | nan => exact f32Div_nan (.inr ((isNan_iff _).mpr hy)) ▸ by decide
    | inf b => simp only [f32Div, hx, hy]; exact Fmt.round_lt hf _
    | fin b n k =>
      simp only [f32Div, hx, hy]
      split_ifs
      · exact hf.nan
      · exact Fmt.round_lt hf _
      · exact Fmt.signed_lt hf _ (roundMag_le hf.regular _)

/-- A pattern of FP32 is the number of its word. -/
theorem fw_toNat {r : Nat} (h : r < 2 ^ 32) : (fw r).toNat = r := by rw [fw, BitVec.toNat_ofNat, Nat.mod_eq_of_lt h]

theorem quotient_word (x y : Nat) : Quotient x y (fw (f32Div x y)).toNat := by
  rw [fw_toNat (f32Div_lt x y)]
  exact f32Div_quotient x y

theorem nearest_word {x : ℝ} {r : Nat} (h : Nearest f32 x r) : Nearest f32 x (fw r).toNat := by
  rw [fw_toNat (lt_of_le_of_lt h.1 (by decide))]
  exact h

end

theorem floatTable_ops : ∀ p ∈ floatTable, ∃ f, WordOp p.1 f ∧
    ∀ x y z : Word, f x y z = BitVec.ofNat 32 (f32.round (p.2 (f32.decode x.toNat) (f32.decode y.toNat) (f32.decode z.toNat))) := by
  simp only [floatTable, List.forall_mem_cons, List.not_mem_nil, false_imp_iff, implies_true, and_true]
  exact ⟨⟨_, fun _ _ _ _ _ => ⟨rfl, rfl, rfl⟩, fun _ _ _ => rfl⟩, ⟨_, fun _ _ _ _ _ => ⟨rfl, rfl, rfl⟩, fun _ _ _ => rfl⟩,
    ⟨_, fun _ _ _ _ _ => ⟨rfl, rfl, rfl⟩, fun _ _ _ => rfl⟩, ⟨_, fun _ _ _ _ _ => ⟨rfl, rfl, rfl⟩, fun _ _ _ => rfl⟩⟩

theorem floatTests_ops : ∀ p ∈ floatTests, ∃ f, WordOp p.1 f ∧
    ∀ x y z : Word, f x y z = if p.2 (f32.decode x.toNat) (f32.decode y.toNat) then 1 else 0 := by
  simp only [floatTests, List.forall_mem_cons, List.not_mem_nil, false_imp_iff, implies_true, and_true]
  exact ⟨⟨_, fun _ _ _ _ _ => ⟨rfl, rfl, rfl⟩, fun _ _ _ => rfl⟩, ⟨_, fun _ _ _ _ _ => ⟨rfl, rfl, rfl⟩, fun _ _ _ => rfl⟩,
    ⟨_, fun _ _ _ _ _ => ⟨rfl, rfl, rfl⟩, fun _ _ _ => rfl⟩, ⟨_, fun _ _ _ _ _ => ⟨rfl, rfl, rfl⟩, fun _ _ _ => rfl⟩⟩

theorem extremes_ops : ∀ p ∈ ([(.fmin, false), (.fmax, true)] : List ((Bool → Reg → Reg → Reg → Instr) × Bool)), ∃ f, WordOp p.1 f ∧
    ∀ x y z : Word, Extreme f32 p.2 x.toNat y.toNat (f x y z).toNat := by
  have hword : ∀ {max : Bool} {x y : Word} {r : Nat}, Extreme f32 max x.toNat y.toNat r → Extreme f32 max x.toNat y.toNat (fw r).toNat := by
    intro max x y r h
    have hlt : r < 2 ^ 32 := by
      rcases h.choice with rfl | rfl | rfl
      · exact x.isLt
      · exact y.isLt
      · decide
    rw [fw_toNat hlt]
    exact h
  simp only [List.forall_mem_cons, List.not_mem_nil, false_imp_iff, implies_true, and_true]
  exact ⟨⟨_, fun _ _ _ _ _ => ⟨rfl, rfl, rfl⟩, fun _ _ _ => hword (Fmt.minNum_extreme ..)⟩,
    ⟨_, fun _ _ _ _ _ => ⟨rfl, rfl, rfl⟩, fun _ _ _ => hword (Fmt.maxNum_extreme ..)⟩⟩

/-- An operation of R134 that returns later, of a function of Numeric. -/
def LongFloat (C : Bool → Reg → Reg → Instr) (f : Nat → Nat) : Prop :=
  ∀ sw d a s, exec (C sw d a) s = .next (longOp1 (C sw d a) d a (fun x => fw (f x.toNat)) s) ∧ (C sw d a).bytes = 4

theorem LongFloat.performs {C : Bool → Reg → Reg → Instr} {f : Nat → Nat} (hop : LongFloat C f) {sw : Bool} {d a : Reg} {s : State} {g : Group}
    (h : issuable (C sw d a) s g = true) :
    Performs (C sw d a) s g (fun u v => Owes (C sw d a) (g.pc + 4) d.toNat [fw (f (u.readW a.toNat).toNat)] u v) :=
  longOp1_performs (f := fun x => fw (f x.toNat)) (hop sw d a s).1 (hop sw d a s).2 h

/-- The special cases of Table 6 (R134). -/
theorem floatLong_ops : ∀ p ∈ floatLong, LongFloat p.1 p.2.1 ∧ (∀ q ∈ p.2.2, fw (p.2.1 q.1.toNat) = q.2) ∧
    ∀ x : Nat, f32.decode x = .nan → p.2.1 x = 0x7FC00000 := by
  simp only [floatLong, List.forall_mem_cons, List.not_mem_nil, false_imp_iff, implies_true, and_true]
  refine ⟨⟨fun _ _ _ _ => ⟨rfl, rfl⟩, by decide, fun x hx => ?_⟩, ⟨fun _ _ _ _ => ⟨rfl, rfl⟩, by decide, fun x hx => ?_⟩,
    ⟨fun _ _ _ _ => ⟨rfl, rfl⟩, by decide, fun x hx => ?_⟩, ⟨fun _ _ _ _ => ⟨rfl, rfl⟩, by decide, fun x hx => ?_⟩,
    ⟨fun _ _ _ _ => ⟨rfl, rfl⟩, by decide, fun x hx => ?_⟩⟩
  · rw [f32Sqrt, hx]; rfl
  · exact f32Div_nan (.inr ((isNan_iff _).mpr hx))
  · rw [f32Rsq, hx]; rfl
  · rw [f32Exp2, hx]; rfl
  · rw [f32Log2, hx]; rfl

/-- FSQRT and FRSQ (R134) by their functions. -/
theorem roots_ops : ∀ p ∈ ([(.fsqrt, fun x => Real.sqrt x), (.frsq, fun x => 1 / Real.sqrt x)] : List ((Bool → Reg → Reg → Instr) × (ℝ → ℝ))),
    ∃ f, LongFloat p.1 f ∧
      (∀ (x : Word) (m : Nat) (e : Int), f32.decode x.toNat = .fin false m e → m ≠ 0 → Nearest f32 (p.2 (m * (2 : ℝ) ^ e)) (f x.toNat)) ∧
      (∀ (x : Word) (m : Nat) (e : Int), f32.decode x.toNat = .fin true m e → m ≠ 0 → f x.toNat = 0x7FC00000) := by
  obtain ⟨-, -, hroots, hnegative⟩ := roundsToNearest
  simp only [List.forall_mem_cons, List.not_mem_nil, false_imp_iff, implies_true, and_true]
  exact ⟨⟨f32Sqrt, fun _ _ _ _ => ⟨rfl, rfl⟩, fun x m e hx hm => (hroots x m e hx hm).1, fun x m e hx hm => (hnegative x m e hx hm).1⟩,
    ⟨f32Rsq, fun _ _ _ _ => ⟨rfl, rfl⟩, fun x m e hx hm => (hroots x m e hx hm).2, fun x m e hx hm => (hnegative x m e hx hm).2⟩⟩

theorem f32Log2_negative {x m : Nat} {e : Int} (hx : f32.decode x = .fin true m e) (hm : m ≠ 0) : f32Log2 x = 0x7FC00000 := by
  simp only [f32Log2, hx, hm, if_false, if_true]
  rfl

/-- Settles O4: each row by its operation; the values by exact arithmetic, by the roundings of O3, and at the powers of two by the
numbers that FP32 holds exactly. -/
theorem floatOperations : Obligations.FloatOperations := by
  refine ⟨fun x y => ⟨add_exact x y, add_exact x y.neg, mul_exact x y, round_rounded x⟩, fun n m e => ⟨rfl, rfl, rfl⟩,
    fun p hp sw d a b s g h => ?_, fun p hp sw d a b s g h => ?_, fun p hp sw d a b s g h => ?_, fun sw d a b s g h => ?_,
    fun sw d a b s g h => ?_, fun sw d a s g h => ?_, fun sw d a s g h => ?_, fun p hp sw d a s g h => ?_, fun sw d a s g h => ?_,
    fun p hp sw d a s g h => ?_, fun sw d a s g h => ?_, fun sw d a s g h => ?_⟩
  · obtain ⟨f, hop, hvalue⟩ := floatTable_ops p hp
    exact (hop.performs h).imp (fun u v hw => hvalue _ _ _ ▸ hw)
  · obtain ⟨f, hop, hvalue⟩ := floatTests_ops p hp
    exact (hop.performs h).imp (fun u v hw => hvalue _ _ _ ▸ hw)
  · obtain ⟨f, hop, hvalue⟩ := extremes_ops p hp
    exact (hop.performs h).imp (fun u v hw => ⟨_, hvalue _ _ _, hw⟩)
  · exact (WordOp.performs (C := .fcpys) (fun _ _ _ _ _ => ⟨rfl, rfl, rfl⟩) h).imp (fun u v hw => ⟨_, copySign_value _ _, hw⟩)
  · exact (longOp_performs rfl rfl h).imp (fun u v howes => ⟨_, quotient_word _ _, howes⟩)
  · exact (UnaryOp.performs (C := .fabs) (fun _ _ _ _ => ⟨rfl, rfl, rfl⟩) h).imp (fun u v hw => ⟨_, clearSign_value _, hw⟩)
  · exact (UnaryOp.performs (C := .fneg) (fun _ _ _ _ => ⟨rfl, rfl, rfl⟩) h).imp (fun u v hw => ⟨_, flipSign_value _, hw⟩)
  · obtain ⟨hop, hspecial, hnan⟩ := floatLong_ops p hp
    exact (hop.performs h).imp (fun u v howes => ⟨_, rfl, fun q hq hx => hx ▸ hspecial q hq,
      fun hx => by rw [hnan _ ((isNan_iff _).mp hx)]; rfl, howes⟩)
  · exact (LongFloat.performs (C := .frcp) (f := f32Rcp) (fun _ _ _ _ => ⟨rfl, rfl⟩) h).imp (fun u v howes => ⟨_, quotient_word _ _, howes⟩)
  · obtain ⟨f, hop, hnearest, hnegative⟩ := roots_ops p hp
    exact (hop.performs h).imp (fun u v howes => ⟨_, fun m e hx hm => nearest_word (hnearest _ m e hx hm),
      fun m e hx hm => by rw [hnegative _ m e hx hm]; rfl, howes⟩)
  · exact (LongFloat.performs (C := .fexp2) (f := f32Exp2) (fun _ _ _ _ => ⟨rfl, rfl⟩) h).imp (fun u v howes => ⟨_,
      fun m e hx hlarge => by rw [f32Exp2_large hx hlarge]; rfl,
      fun n m e k hx hlow hhigh hk => by
        have hexact := f32Exp2_exact hx hlow hhigh hk
        rw [fw_toNat (hexact.1.trans (by decide))]
        exact hexact, howes⟩)
  · exact (LongFloat.performs (C := .flog2) (f := f32Log2) (fun _ _ _ _ => ⟨rfl, rfl⟩) h).imp (fun u v howes => ⟨_,
      fun m e hx hm => by rw [f32Log2_negative hx hm]; rfl, fun m e k hx hk => by
        obtain ⟨hlt, hexact⟩ := f32Log2_exact hx hk
        rw [fw_toNat hlt]
        exact hexact, howes⟩)

end Sys2Proof.Machine

end

section
/-! SUPPORT. Statement O11: taking a trap, to the handler (R249) or to the record and the end of the workgroup (R254, R255), and the breach
that a WIDEN is besides (R190). -/

namespace Sys2Proof.Machine

/-! The run's earlier instructions, none of them in flight (R61). -/

theorem drainBy_none {p : Access → Bool} {s : State} (h : ∀ a ∈ s.flight, p a = false) (as : List Access) : drainBy p as s = s := by
  induction as with
  | nil => rfl
  | cons a as ih =>
    have hfind : s.flight.find? (fun x => x.id == a.id && p x) = none := List.find?_eq_none.mpr (fun x hx => by simp [h x hx])
    simp only [drainBy, hfind, ih]

theorem State.drain_none {p : Access → Bool} {s : State} (h : ∀ a ∈ s.flight, p a = false) : s.drain p = s := by
  have hany : s.flight.any p = false := List.any_eq_false.mpr (fun a ha => by simp [h a ha])
  simp only [State.drain, drainRounds, drainBy_none h, hany, Bool.false_eq_true, if_false]

theorem drained_quiet {s : State} {g : Group} (h : Quiet s g) : g.tids.foldl (fun s t => s.drainRun g.ctx g.wg t) s = s := by
  have hfold : ∀ ks : List Nat, (∀ k ∈ ks, k ∈ g.tids) → ks.foldl (fun s t => s.drainRun g.ctx g.wg t) s = s := by
    intro ks
    induction ks with
    | nil => exact fun _ => rfl
    | cons k ks ih =>
      intro hks
      have hdrain : s.drainRun g.ctx g.wg k = s := State.drain_none (fun a ha => by
        have hother := h a ha
        have hk := hks k List.mem_cons_self
        by_contra hmatch
        simp only [Bool.not_eq_false, Bool.and_eq_true, beq_iff_eq] at hmatch
        obtain ⟨⟨hctx, hwg⟩, htid⟩ := hmatch
        exact hother ⟨hctx, hwg, htid ▸ hk⟩)
      rw [List.foldl_cons, hdrain, ih (fun j hj => hks j (List.mem_cons_of_mem _ hj))]
  exact hfold g.tids (fun _ hk => hk)

/-! The breach that a WIDEN is (R190). -/

section
variable {s : State} {g : Group} {x : TrapInfo}

theorem State.widenBreach_other (h : x.code ≠ .widen) : s.widenBreach g x = s := by
  unfold State.widenBreach
  split
  · rfl
  · rw [if_pos (by simpa using h)]

theorem State.widenBreach_widen {l : Launch} (hl : s.launch g.ctx = some l) (h : x.code = .widen) :
    s.widenBreach g x = if l.guaranteed ≤ (s.die (coreDie g.core)).tol.toNat then s.breach g.ctx 1 5 0xFF (coreDie g.core) false
      else s.breach g.ctx 2 18 0xFF (coreDie g.core) false := by
  simp only [State.widenBreach, hl, h, bne_self_eq_false, Bool.false_eq_true, if_false]

/-- It changes the records of the instant and the launch's count. -/
theorem State.widenBreach_eq (s : State) (g : Group) (x : TrapInfo) : s.widenBreach g x =
    { s with staged := (s.widenBreach g x).staged, launches := (s.widenBreach g x).launches } := by
  unfold State.widenBreach
  split
  · rfl
  · split_ifs
    · rfl
    · exact State.breach_eq ..
    · exact State.breach_eq ..

end

/-- A launch as its breaches leave it (R345). -/
def Launch.breached (l : Launch) (b : Bool) (n credit : Nat) : Launch := { l with breach := b, breaches := n, credit := credit }

theorem State.launch_breach_recorded {s : State} {ctx : Nat} {l : Launch} (hl : s.launch ctx = some l) (hd : l.debug = false)
    (party cause site die : Nat) (lost : Bool) :
    ∃ credit, (s.breach ctx party cause site die lost).launch ctx = some (l.breached true (l.breaches + 1) credit) := by
  rw [State.breach_some s ctx party cause site die lost l hl hd]
  exact ⟨_, State.launch_modLaunch_same (f := fun m => m.breached true (m.breaches + 1)
    (if party = 3 then m.credit else m.credit + breachCredit l (s.interval l.firstDie).2 lost)) (fun _ => ⟨rfl, rfl⟩) hl⟩

theorem State.launch_breach {s : State} {ctx : Nat} {l : Launch} (hl : s.launch ctx = some l) (party cause site die : Nat) (lost : Bool) :
    ∃ b n credit, (s.breach ctx party cause site die lost).launch ctx = some (l.breached b n credit) := by
  cases hd : l.debug with
  | true =>
    rw [State.breach_none s ctx party cause site die lost (fun m hm => by rw [hl] at hm; cases hm; exact hd)]
    exact ⟨l.breach, l.breaches, l.credit, hl⟩
  | false => exact ⟨true, _, State.launch_breach_recorded hl hd ..⟩

theorem State.launch_widenBreach {s : State} {g : Group} {l : Launch} (hl : s.launch g.ctx = some l) (x : TrapInfo) :
    ∃ b n credit, (s.widenBreach g x).launch g.ctx = some (l.breached b n credit) := by
  by_cases hcode : x.code = .widen
  · rw [State.widenBreach_widen hl hcode]
    split
    · exact State.launch_breach hl ..
    · exact State.launch_breach hl ..
  · rw [State.widenBreach_other hcode]
    exact ⟨l.breach, l.breaches, l.credit, hl⟩

/-- A breach's record, and its count. -/
theorem breach_recorded {s : State} {ctx : Nat} {l : Launch} (hl : s.launch ctx = some l) (hd : l.debug = false) {party cause : Nat}
    (hfits : cause + party * 2 ^ 8 < 2 ^ 32) (site die : Nat) (lost : Bool) :
    ∃ r, (s.breach ctx party cause site die lost).staged = stageRecord r s.staged ∧ nth 0 r 0 = BitVec.ofNat 32 l.quoteId ∧
      (nth 0 r 1).toNat = cause + party * 2 ^ 8 ∧ ((s.breach ctx party cause site die lost).launch ctx).map Launch.breaches = some (l.breaches + 1) := by
  obtain ⟨credit, hlaunch⟩ := State.launch_breach_recorded hl hd party cause site die lost
  rw [hlaunch, State.breach_some s ctx party cause site die lost l hl hd]
  exact ⟨_, rfl, rfl, (BitVec.toNat_ofNat ..).trans (Nat.mod_eq_of_lt hfits), rfl⟩

theorem widenBreach_recorded {s t : State} {g : Group} {l : Launch} {x : TrapInfo} (hl : s.launch g.ctx = some l) (hd : l.debug = false)
    (hcode : x.code = .widen) (hstaged : t.staged = (s.widenBreach g x).staged)
    (hlaunch : (t.launch g.ctx).map Launch.breaches = ((s.widenBreach g x).launch g.ctx).map Launch.breaches) : WidenBreach s t g l := by
  have hwidth : (if l.spansPod then 120 else 8) = l.guaranteed := rfl
  simp only [WidenBreach, hwidth]
  rw [hstaged, hlaunch, State.widenBreach_widen hl hcode]
  split
  · exact breach_recorded hl hd (party := 1) (cause := 5) (by decide) ..
  · exact breach_recorded hl hd (party := 2) (cause := 18) (by decide) ..

/-! Members as their handlers find them (R249). -/

/-- One member goes to its handler. -/
def toHandler (g : Group) (x : TrapInfo) (s : State) (k : Nat) : State :=
  (s.modThread g.ctx g.wg k (fun t => t.vector g.pc x)).makeReady g.ctx g.wg k

section
variable {g : Group} {x : TrapInfo}

theorem Thread.vector_tid (pc : Nat) (u : Thread) : (u.vector pc x).tid = u.tid := u.commit_tid

theorem toHandler_eq (s : State) (k : Nat) : toHandler g x s k =
    { s with wgs := (toHandler g x s k).wgs, cores := (toHandler g x s k).cores, nextId := (toHandler g x s k).nextId } := by
  unfold toHandler
  rw [State.makeReady_eq]
  rfl

theorem toHandlers_eq (ks : List Nat) (s : State) : ks.foldl (toHandler g x) s =
    { s with wgs := (ks.foldl (toHandler g x) s).wgs, cores := (ks.foldl (toHandler g x) s).cores, nextId := (ks.foldl (toHandler g x) s).nextId } := by
  induction ks generalizing s with
  | nil => rfl
  | cons k ks ih =>
    rw [List.foldl_cons, ih, toHandler_eq]

theorem toHandler_same {s : State} {k : Nat} {u : Thread} (hu : s.threadOf g.ctx g.wg k = some u) :
    (toHandler g x s k).threadOf g.ctx g.wg k = some ((u.vector g.pc x).readied s.nextId) := by
  refine State.threadOf_makeReady (s := s.modThread g.ctx g.wg k (fun t => t.vector g.pc x)) ?_
  rw [State.threadOf_modThread_same s _ _ _ (fun t => t.vector g.pc x) (Thread.vector_tid g.pc), hu]
  rfl

theorem toHandler_other {s : State} {k c w j : Nat} (h : ¬(c = g.ctx ∧ w = g.wg ∧ j = k)) :
    (toHandler g x s k).threadOf c w j = s.threadOf c w j := by
  unfold toHandler
  rw [State.threadOf_congr (State.makeReady_wgs ..), State.threadOf_modThread_other _ _ _ _ _ _ _ (Thread.readied _) (fun _ => rfl) h,
    State.threadOf_modThread_other _ _ _ _ _ _ _ (fun t => t.vector g.pc x) (Thread.vector_tid g.pc) h]

theorem toHandlers_other {c w j : Nat} (ks : List Nat) (s : State) (h : ¬(c = g.ctx ∧ w = g.wg ∧ j ∈ ks)) :
    (ks.foldl (toHandler g x) s).threadOf c w j = s.threadOf c w j := by
  induction ks generalizing s with
  | nil => rfl
  | cons k ks ih =>
    rw [List.foldl_cons, ih _ (fun hj => h ⟨hj.1, hj.2.1, List.mem_cons_of_mem _ hj.2.2⟩),
      toHandler_other (fun hj => h ⟨hj.1, hj.2.1, List.mem_cons.mpr (.inl hj.2.2)⟩)]

theorem toHandlers_member {k : Nat} {u : Thread} (ks : List Nat) (s : State) (hnodup : ks.Nodup) (hk : k ∈ ks)
    (hu : s.threadOf g.ctx g.wg k = some u) :
    ∃ n, (ks.foldl (toHandler g x) s).threadOf g.ctx g.wg k = some ((u.vector g.pc x).readied n) := by
  induction ks generalizing s with
  | nil => cases hk
  | cons j ks ih =>
    obtain ⟨hj, hnodup⟩ := List.nodup_cons.mp hnodup
    rw [List.foldl_cons]
    rcases List.mem_cons.mp hk with rfl | hin
    · exact ⟨_, (toHandlers_other ks _ (fun h => hj h.2.2)).trans (toHandler_same hu)⟩
    · have hne : k ≠ j := fun h => hj (h ▸ hin)
      exact ih _ hnodup hin ((toHandler_other (fun h => hne h.2.2)).trans hu)

end

theorem Thread.hasHandler_of {u : Thread} (hvec : u.tvec ≠ 0) (hcause : u.ecause.toNat < 2 ^ 31) : u.hasHandler = true := by
  have hbit : bitOf u.ecause.toNat 31 = false := by
    rw [bitOf, Nat.div_eq_of_lt hcause]
    rfl
  rw [Thread.hasHandler, hbit, bne_iff_ne.mpr hvec]
  rfl

/-- R249: a trap that goes to the members' handlers. -/
theorem State.trap_handled {s : State} {g : Group} {x : TrapInfo} (hpriv : s.privileged g = true) (hcode : x.code ≠ .mchk)
    (hhandler : Members s g (fun u => u.tvec ≠ 0 ∧ u.ecause.toNat < 2 ^ 31)) (hquiet : Quiet s g) (k : Nat) :
    s.trap g x k = g.tids.foldl (toHandler g x) (s.widenBreach g x) := by
  have hall : (s.members g).all Thread.hasHandler = true := List.all_eq_true.mpr (fun u hu => by
    obtain ⟨j, hj, hthread⟩ := State.members_mem hu
    obtain ⟨hvec, hcause⟩ := hhandler j hj u hthread
    exact Thread.hasHandler_of hvec hcause)
  have hmchk : (x.code != .mchk) = true := by simpa using hcode
  simp only [State.trap, drained_quiet hquiet, hpriv, hmchk, hall, Bool.and_self, if_true]
  rfl

theorem trapEntry_handled (s : State) (g : Group) (x : TrapInfo) (k : Nat) (hnodup : g.tids.Nodup) (hpriv : s.privileged g = true)
    (hcode : x.code ≠ .mchk) (hhandler : Members s g (fun u => u.tvec ≠ 0 ∧ u.ecause.toNat < 2 ^ 31))
    (hthreads : ∀ j ∈ g.tids, (s.threadOf g.ctx g.wg j).isSome) (hquiet : Quiet s g) :
    (s.trap g x k).mem = s.mem ∧ (s.trap g x k).scratch = s.scratch ∧
    (x.code ≠ .widen → (s.trap g x k).launches = s.launches ∧ (s.trap g x k).staged = s.staged) ∧
    (∀ l, x.code = .widen → s.launch g.ctx = some l → l.debug = false → WidenBreach s (s.trap g x k) g l) ∧
    (∀ c w j, ¬(c = g.ctx ∧ w = g.wg ∧ j ∈ g.tids) → (s.trap g x k).threadOf c w j = s.threadOf c w j) ∧
    EachMember s (s.trap g x k) g (fun u v => v.status = .ready ∧ v.pc = u.tvec.toNat ∧ v.epc = BitVec.ofNat 32 g.pc ∧
      v.ecause = BitVec.ofNat 32 (x.code.num + 2 ^ 31) ∧ v.eop = BitVec.ofNat 32 x.operand ∧
      v.eoph = BitVec.ofNat 32 (x.operand / 2 ^ 32) ∧ v.regs = u.commit.regs ∧ v.results = [] ∧ v.runLen = 0 ∧ v.tvec = u.tvec) := by
  have hbreach : ∀ c w j, (s.widenBreach g x).threadOf c w j = s.threadOf c w j := fun c w j => by rw [State.widenBreach_eq]; rfl
  rw [State.trap_handled hpriv hcode hhandler hquiet k, toHandlers_eq]
  refine ⟨by rw [State.widenBreach_eq], by rw [State.widenBreach_eq], fun hother => ?_, fun l hwiden hl hd => ?_, fun c w j hout => ?_, fun j hj => ?_⟩
  · rw [State.widenBreach_other hother]
    exact ⟨rfl, rfl⟩
  · exact widenBreach_recorded hl hd hwiden rfl rfl
  · exact (toHandlers_other g.tids _ hout).trans (hbreach c w j)
  · obtain ⟨u, hu⟩ := Option.isSome_iff_exists.mp (hthreads j hj)
    obtain ⟨n, hv⟩ := toHandlers_member (x := x) g.tids _ hnodup hj ((hbreach ..).trans hu)
    have htvec : u.commit.tvec = u.tvec := by rw [Thread.commit_eq]
    exact ⟨u, _, hu, hv, rfl, rfl, rfl, rfl, rfl, rfl, rfl, rfl, rfl, htvec⟩

/-! The record and the end of the workgroup (R254, R255). -/

theorem State.launch_modLaunch {s : State} {ctx : Nat} {f : Launch → Launch} (hf : ∀ l, (f l).live = l.live ∧ (f l).ctx = l.ctx) :
    (s.modLaunch ctx f).launch ctx = (s.launch ctx).map f := by
  cases hl : s.launch ctx with
  | some l => exact State.launch_modLaunch_same hf hl
  | none =>
    have hfind := find_map_if s.launches (fun l => l.live && l.ctx == ctx) (fun l => l.live && l.ctx == ctx) f (fun x => by simp [hf x])
    unfold State.launch at hl
    simp only [State.launch, State.modLaunch, hfind, hl, Option.map_none]

/-- What the end of a launch's workgroup leaves after its record: memory, the breach records, what the launch counts, and that its threads
have exited. -/
structure EndKept (s t : State) (ctx wg : Nat) : Prop where
  mem : t.mem = s.mem
  staged : t.staged = s.staged
  traps : (t.launch ctx).map Launch.traps = (s.launch ctx).map Launch.traps
  breaches : (t.launch ctx).map Launch.breaches = (s.launch ctx).map Launch.breaches
  exited : (∀ j v, s.threadOf ctx wg j = some v → v.status = .exited) → ∀ j v, t.threadOf ctx wg j = some v → v.status = .exited

namespace EndKept

variable {s t r : State} {ctx wg : Nat}

theorem refl (s : State) (ctx wg : Nat) : EndKept s s ctx wg := ⟨rfl, rfl, rfl, rfl, id⟩

theorem trans (h : EndKept s t ctx wg) (k : EndKept t r ctx wg) : EndKept s r ctx wg :=
  ⟨k.mem.trans h.mem, k.staged.trans h.staged, k.traps.trans h.traps, k.breaches.trans h.breaches, fun hs => k.exited (h.exited hs)⟩

theorem modLaunch (s : State) (ctx wg : Nat) {f : Launch → Launch}
    (hf : ∀ l, (f l).live = l.live ∧ (f l).ctx = l.ctx ∧ (f l).traps = l.traps ∧ (f l).breaches = l.breaches) : EndKept s (s.modLaunch ctx f) ctx wg := by
  have hlaunch := State.launch_modLaunch (s := s) (ctx := ctx) (f := f) (fun l => ⟨(hf l).1, (hf l).2.1⟩)
  refine ⟨rfl, rfl, ?_, ?_, id⟩
  · rw [hlaunch, Option.map_map]
    exact congrArg (fun φ => (s.launch ctx).map φ) (funext fun l => (hf l).2.2.1)
  · rw [hlaunch, Option.map_map]
    exact congrArg (fun φ => (s.launch ctx).map φ) (funext fun l => (hf l).2.2.2)

theorem stopWg (s : State) (ctx wg other : Nat) : EndKept s (s.stopWg ctx other) ctx wg := by
  refine ⟨by rw [State.stopWg_eq], by rw [State.stopWg_eq], by rw [State.stopWg_eq]; rfl, by rw [State.stopWg_eq]; rfl, fun hs j v hv => ?_⟩
  by_cases hsame : other = wg
  · subst hsame
    exact State.stopWg_exited hv
  · rw [State.threadOf_congr (State.stopWg_wgs s ctx other), State.threadOf, State.wgOf_modWg_other (f := Workgroup.stopped) (fun _ => ⟨rfl, rfl⟩)
      (fun h => hsame h.2.symm)] at hv
    exact hs j v hv

theorem stopWgs (ctx wg : Nat) (ws : List Nat) (s : State) : EndKept s (ws.foldl (fun s w => s.stopWg ctx w) s) ctx wg := by
  induction ws generalizing s with
  | nil => exact refl s ctx wg
  | cons w ws ih => exact (stopWg s ctx wg w).trans (ih _)

theorem stopLaunch (s : State) (ctx wg : Nat) : EndKept s (s.stopLaunch ctx) ctx wg := by
  obtain ⟨hmem, hstaged, htraps, hbreaches, hexited⟩ := modLaunch
    ({ s with clusters := s.clusters.map (fun (c : Cluster) => { c with bins := c.bins.filter (fun b => b.ctx != ctx) }) } : State) ctx wg
    (f := fun l => { l with stopped := true, pending := [], formed := [], kept := [] }) (fun _ => ⟨rfl, rfl, rfl, rfl⟩)
  exact ⟨hmem, hstaged, htraps, hbreaches, hexited⟩

theorem stopOthers (s : State) (ctx wg : Nat) : EndKept s (s.stopOthers ctx wg) ctx wg :=
  (stopWgs ctx wg _ s).trans (stopLaunch _ ctx wg)

theorem sparing (s old : State) (ctx wg va : Nat) : EndKept s (s.sparing old ctx va) ctx wg := by
  unfold State.sparing
  split
  · exact modLaunch s ctx wg (fun _ => ⟨rfl, rfl, rfl, rfl⟩)
  · exact refl s ctx wg

/-- The end of a workgroup after its record and the stop of its threads. -/
theorem endByRecord (s : State) (ctx wg tid code operand pc : Nat) :
    EndKept ((s.writeTrapRecord ctx wg tid code operand pc).stopWg ctx wg) (s.endByRecord ctx wg tid code operand pc) ctx wg := by
  have houtcome := modLaunch ((s.writeTrapRecord ctx wg tid code operand pc).stopWg ctx wg) ctx wg
    (f := fun l => if (code != 0 && code != 14 && code != 9) && l.outcome != 5 then { l with outcome := 4 } else l)
    (fun l => by split <;> exact ⟨rfl, rfl, rfl, rfl⟩)
  simp only [State.endByRecord]
  split
  · exact houtcome
  · split
    · exact houtcome
    · exact houtcome.trans (stopOthers _ ctx wg)

end EndKept

/-! Memory, as the record is written (R255): where its bytes lie depends on neither threads nor launches. -/

theorem writePhysCells_congr {s t : State} {die : Nat} (h : ∀ x, s.locOf die x = t.locOf die x) (pa : Nat) (bs : List Byte) (m : List Host.Cell) :
    writePhysCells s die pa bs m = writePhysCells t die pa bs m := by
  induction bs generalizing pa m with
  | nil => rfl
  | cons b bs ih => rw [writePhysCells, writePhysCells, ih, h]

theorem State.writeWords_mem (s : State) (d a : Nat) (ws : List Nat) :
    (s.writeWords d a ws).mem = writePhysCells s d a (ws.flatMap (leBytes 4)) s.mem := rfl

theorem State.writeWords_staged (s : State) (d a : Nat) (ws : List Nat) : (s.writeWords d a ws).staged = s.staged := rfl

section
variable {ctx wg : Nat}

theorem commits_eq (ks : List Nat) (s : State) : ks.foldl (fun s k => s.modThread ctx wg k Thread.commit) s =
    { s with wgs := (ks.foldl (fun s k => s.modThread ctx wg k Thread.commit) s).wgs } := by
  induction ks generalizing s with
  | nil => rfl
  | cons k ks ih =>
    rw [List.foldl_cons, ih]
    rfl

theorem commits_wgOf (ks : List Nat) {s : State} {w : Workgroup} (hw : s.wgOf ctx wg = some w) :
    ∃ w', (ks.foldl (fun s k => s.modThread ctx wg k Thread.commit) s).wgOf ctx wg = some w' ∧ w'.core = w.core := by
  induction ks generalizing s w with
  | nil => exact ⟨w, hw, rfl⟩
  | cons k ks ih =>
    obtain ⟨w', hw', hcore⟩ := ih (wgOf_modThread_of (k := k) hw Thread.commit)
    exact ⟨w', hw', hcore⟩

/-- The record where the trap area has room, and the threads' stop. -/
theorem record_stop {s : State} {k : Nat} {l : Launch} {w : Workgroup} (hl : s.launch ctx = some l) (hw : s.wgOf ctx wg = some w)
    (hroom : l.traps < l.trapCap) (code op pc : Nat) :
    ((s.writeTrapRecord ctx wg k code op pc).stopWg ctx wg).mem =
      (s.writeWords l.firstDie (l.trapArea + 32 * l.traps) (trapWords (k % 32) code pc op wg ctx k w.core)).mem ∧
    ((s.writeTrapRecord ctx wg k code op pc).stopWg ctx wg).staged = s.staged ∧
    ((s.writeTrapRecord ctx wg k code op pc).stopWg ctx wg).launch ctx = some { l with traps := l.traps + 1 } := by
  have hstaged := State.writeWords_staged s l.firstDie (l.trapArea + 32 * l.traps) (trapWords (k % 32) code pc op wg ctx k w.core)
  have hlaunch := (State.writeWords_launch s l.firstDie (l.trapArea + 32 * l.traps) ctx (trapWords (k % 32) code pc op wg ctx k w.core)).trans hl
  rw [State.writeTrapRecord_room hl hw hroom, State.stopWg_eq]
  generalize s.writeWords l.firstDie (l.trapArea + 32 * l.traps) (trapWords (k % 32) code pc op wg ctx k w.core) = s1 at hstaged hlaunch ⊢
  exact ⟨rfl, hstaged, State.launch_modLaunch_same (f := fun l => { l with traps := l.traps + 1 }) (fun _ => ⟨rfl, rfl⟩) hlaunch⟩

end

/-- R254, R255: a trap of the user view ends the workgroup. -/
theorem State.trap_user {s : State} {g : Group} {l : Launch} (hl : s.launch g.ctx = some l) (hview : l.supervisor = false) (hquiet : Quiet s g)
    (x : TrapInfo) (k : Nat) :
    EndKept ((g.tids.foldl (fun s k => s.modThread g.ctx g.wg k Thread.commit) (s.widenBreach g x)).endByRecord g.ctx g.wg k x.code.num x.operand g.pc)
      (s.trap g x k) g.ctx g.wg := by
  have hpriv : s.privileged g = false := by simp [State.privileged, hl, hview]
  simp only [State.trap, drained_quiet hquiet, hpriv, Bool.false_and, Bool.false_eq_true, if_false]
  split
  · exact EndKept.sparing ..
  · exact EndKept.refl ..

theorem trapEntry_record (s : State) (g : Group) (x : TrapInfo) (k : Nat) (l : Launch) (w : Workgroup) (hl : s.launch g.ctx = some l)
    (hview : l.supervisor = false) (hw : s.wgOf g.ctx g.wg = some w) (hroom : l.traps < l.trapCap) (hquiet : Quiet s g) :
    (s.trap g x k).mem = (s.writeWords l.firstDie (l.trapArea + 32 * l.traps) (trapWords (k % 32) x.code.num g.pc x.operand g.wg g.ctx k w.core)).mem ∧
    ((s.trap g x k).launch g.ctx).map Launch.traps = some (l.traps + 1) ∧
    (x.code ≠ .widen → (s.trap g x k).staged = s.staged) ∧ (x.code = .widen → l.debug = false → WidenBreach s (s.trap g x k) g l) ∧
    (∀ j v, (s.trap g x k).threadOf g.ctx g.wg j = some v → v.status = .exited) := by
  obtain ⟨b, n, credit, hbreach⟩ := State.launch_widenBreach hl x
  have hw1 : (s.widenBreach g x).wgOf g.ctx g.wg = some w := by rw [State.widenBreach_eq]; exact hw
  obtain ⟨w', hw', hcore⟩ := commits_wgOf g.tids hw1
  have hkept := State.trap_user hl hview hquiet x k
  have heq := commits_eq (ctx := g.ctx) (wg := g.wg) g.tids (s.widenBreach g x)
  generalize g.tids.foldl (fun s k => s.modThread g.ctx g.wg k Thread.commit) (s.widenBreach g x) = s2 at hw' hkept heq
  have hl2 : s2.launch g.ctx = some (l.breached b n credit) := by rw [heq]; exact hbreach
  obtain ⟨hmem, hstaged, hlaunch⟩ := record_stop (k := k) hl2 hw' hroom x.code.num x.operand g.pc
  obtain ⟨kmem, kstaged, ktraps, kbreaches, kexited⟩ := (EndKept.endByRecord s2 g.ctx g.wg k x.code.num x.operand g.pc).trans hkept
  have hsame : s2.staged = (s.widenBreach g x).staged := by rw [heq]
  refine ⟨?_, ?_, fun hother => ?_, fun hwiden hd => ?_, kexited (fun j v hv => State.stopWg_exited hv)⟩
  · have hcells : s2.mem = s.mem := by rw [heq, State.widenBreach_eq]
    have hplace : ∀ y, s2.locOf l.firstDie y = s.locOf l.firstDie y := fun y => by
      rw [heq, State.widenBreach_eq]
      rfl
    rw [kmem, hmem, hcore, State.writeWords_mem, State.writeWords_mem, hcells]
    exact writePhysCells_congr hplace ..
  · rw [ktraps, hlaunch]
    rfl
  · rw [kstaged, hstaged, hsame, State.widenBreach_other hother]
  · refine widenBreach_recorded hl hd hwiden (kstaged.trans (hstaged.trans hsame)) ?_
    rw [kbreaches, hlaunch, hbreach]
    rfl

/-- Settles O11: TRAP and BRK by their check; a trap by where it goes, to the handlers or to the record, after a WIDEN's breach. -/
theorem trapEntry : Obligations.TrapEntry := by
  unfold Obligations.TrapEntry
  refine ⟨fun sw m s g k ks h htids => ?_, fun sw m s g l k ks hl hd h htids => ?_,
    fun s g x k _ hnodup hpriv hcode hhandler hthreads hquiet => trapEntry_handled s g x k hnodup hpriv hcode hhandler hthreads hquiet,
    fun s g x k l w _ hl hview _ hw hroom hquiet => trapEntry_record s g x k l w hl hview hw hroom hquiet⟩
  · obtain ⟨u, hu, -⟩ := issuable_member h (htids ▸ List.mem_cons_self : k ∈ g.tids)
    exact issue_traps h rfl htids hu rfl (.inl rfl)
  · obtain ⟨u, hu, -⟩ := issuable_member h (htids ▸ List.mem_cons_self : k ∈ g.tids)
    have hlaunch : withLaunch s g.ctx false (fun l => l.debug) = false := by rw [withLaunch, hl]; exact hd
    have hexec : exec (.brk sw m) s = .next (issue (.brk sw m) (fun _ _ _ => trapOf .brk m.toNat) (fun s _ _ => s) s) := by
      change Host.Outcome.next _ = _
      simp only [issuable_group h, hlaunch, Bool.false_eq_true, if_false]
    exact issue_traps h hexec htids hu rfl (.inl rfl)

end Sys2Proof.Machine

end

section
/-! SUPPORT. Statement O20: an arrival beyond the core waits for the writes of others that its core's L1 has taken. -/

namespace Sys2Proof.Machine

/-! `arrivalReady` has an arrival at `.quad` or wider wait while a write that another thread made stands in the L1 of its core (R263, R264,
log 99). The clause on BARRIER_ARRIVAL excludes only accesses of the arriving thread itself, so that a taken store of another workgroup
holds the arrival up. -/

/-- An arrival at barrier 0 of the core's quad, the first of a phase of two, of workgroup 0 of the launch of `fencedState`. -/
def quadArrival : Access :=
  { id := 2, ctx := 1, wg := 0, tid := 0, core := 0, path := .ord, op := .arrive 1 0 0 2 0, addr := 0, size := 0, scope := 1, slot := none,
    gens := [], gid := 2, pc := 0, taken := 0, tx := none, after := [] }

/-- The machine with that arrival behind the store of workgroup 1 that the core's L1 has taken. -/
def arrivingState : State := { fencedState with flight := [takenStore, quadArrival] }

/-- Nothing holds the arrival up in the sense of `Due`. -/
theorem arrivingState_due : Due arrivingState 2 quadArrival := by
  unfold Due
  decide

/-- The arrival waits: it is still in flight after its step. -/
theorem arrivingState_waits : exec (.barrierArrival 2) arrivingState = .next arrivingState := by
  have hperform : arrivingState.perform quadArrival = .wait := by decide
  refine congrArg Host.Outcome.next ?_
  unfold State.performId
  rw [show arrivingState.flight.find? _ = some quadArrival from rfl]
  simp only [hperform]

/-- Refutes O20: its clause on BARRIER_ARRIVAL lets an arrival beyond the core count at once while a write of another thread stands in the
L1 of its core; the arrival waits for it. -/
theorem not_barriers : ¬ Obligations.Barriers := by
  unfold Obligations.Barriers
  rintro ⟨_, _, _, _, h, _⟩
  obtain ⟨t, m, hexec, hlanded, _⟩ := h arrivingState 2 quadArrival 1 0 0 2 0 _ arrivingState_due rfl (by decide) (by decide) (by decide)
    (by decide) rfl
  have ht : arrivingState = t := Host.Outcome.next.inj (arrivingState_waits.symm.trans hexec)
  subst ht
  have hlen := congrArg List.length hlanded
  exact absurd hlen (by decide)

end Sys2Proof.Machine

end

section
/-! SUPPORT. Instructions whose members each send accesses: what stays the same while they leave, and the issue that sends them. -/

namespace Sys2Proof.Machine

/-! An access hangs on the launch, the granules and the count of issues, none of which a member's accesses change as they leave. -/

/-- The issue of a group is under way: accesses have left, and besides them only threads and PC tables differ. -/
def UnderWay (s t : State) (g : Group) : Prop := ∃ tids accs, SentBy { s with group := none } t g.ctx g.wg tids accs

theorem UnderWay.of_kept {s t : State} {g : Group} {tids : List Nat} (h : Kept { s with group := none } t g.ctx g.wg tids) : UnderWay s t g :=
  ⟨tids, [], .nil_of_kept h⟩

section
variable {s t : State} {g : Group} (h : UnderWay s t g)
include h

theorem UnderWay.trans {u : State} {tids : List Nat} {accs : List Access} (hsent : SentBy t u g.ctx g.wg tids accs) : UnderWay s u g := by
  obtain ⟨tids', accs', hs⟩ := h
  exact ⟨tids' ++ tids, accs' ++ accs, (hs.mono (by simp +contextual)).trans (hsent.mono (by simp +contextual))⟩

theorem UnderWay.launch (x : Nat) : t.launch x = s.launch x := by
  obtain ⟨_, _, hs⟩ := h
  rw [hs.rest]
  rfl

theorem UnderWay.polderPages : t.polderPages = s.polderPages := by
  obtain ⟨_, _, hs⟩ := h
  rw [hs.rest]

theorem UnderWay.polderLines : t.polderLines = s.polderLines := by
  obtain ⟨_, _, hs⟩ := h
  rw [hs.rest]

theorem UnderWay.interval (x : Nat) : t.interval x = s.interval x := by
  obtain ⟨_, _, hs⟩ := h
  rw [hs.rest]
  rfl

theorem UnderWay.groupId : Machine.groupId t g = Machine.groupId s g := by
  obtain ⟨_, _, hs⟩ := h
  have hslots : (t.coreOf g.core).shell.slots = (s.coreOf g.core).shell.slots := by
    rw [hs.cores]
    rfl
  change (t.coreOf g.core).slots = (s.coreOf g.core).slots at hslots
  simp only [Machine.groupId, hslots]

theorem UnderWay.granuleGens (cluster va n : Nat) : t.granuleGens cluster va n = s.granuleGens cluster va n := by
  obtain ⟨_, _, hs⟩ := h
  have hgranules : ∀ k, (t.coreOf k).shell.granules = (s.coreOf k).shell.granules := fun k => by
    rw [hs.cores]
    rfl
  change ∀ k, (t.coreOf k).granules = (s.coreOf k).granules at hgranules
  simp only [State.granuleGens, State.granuleAt, Core.granule, hgranules]

end

/-- A fold of sending steps of a group's members, each of which has its thread still as it was when its turn comes. -/
theorem fold_sends_members {F : State → Nat → State} {φ : Thread → Thread} {mk : Nat → Thread → List Access} {s s0 : State} {g : Group} {n : Nat}
    (hlen : ∀ id u, (mk id u).length = n)
    (hF : ∀ t k u, k ∈ g.tids → UnderWay s t g → s0.threadOf g.ctx g.wg k = some u → t.threadOf g.ctx g.wg k = some u →
      SentBy t (F t k) g.ctx g.wg [k] (mk t.nextId u) ∧ (F t k).threadOf g.ctx g.wg k = some (φ u))
    (tids : List Nat) (hsub : ∀ k ∈ tids, k ∈ g.tids) (hnd : tids.Nodup) (t : State) (ht : UnderWay s t g)
    (hall : ∀ k ∈ tids, ∃ u, s0.threadOf g.ctx g.wg k = some u ∧ t.threadOf g.ctx g.wg k = some u) :
    SentBy t (tids.foldl F t) g.ctx g.wg tids (laneAccesses s0 g.ctx g.wg n mk t.nextId tids) ∧
      ∀ k ∈ tids, (tids.foldl F t).threadOf g.ctx g.wg k = (s0.threadOf g.ctx g.wg k).map φ := by
  induction tids generalizing t with
  | nil => exact ⟨.nil_of_kept (Kept.refl _ _ _ _), fun k hk => by simp at hk⟩
  | cons k ks ih =>
    obtain ⟨hk, hnd⟩ := List.nodup_cons.mp hnd
    obtain ⟨u, hu0, hu⟩ := hall k (by simp)
    obtain ⟨hsent, hthread⟩ := hF t k u (hsub k (by simp)) ht hu0 hu
    have hsame : ∀ j ∈ ks, (F t k).threadOf g.ctx g.wg j = t.threadOf g.ctx g.wg j := fun j hj =>
      hsent.others g.ctx g.wg j (fun e => hk (List.mem_singleton.mp e.2.2 ▸ hj))
    obtain ⟨hrest, hthreads⟩ := ih (fun j hj => hsub j (by simp [hj])) hnd (F t k) (ht.trans hsent) (fun j hj => by
      obtain ⟨v, hv0, hv⟩ := hall j (by simp [hj])
      exact ⟨v, hv0, (hsame j hj).trans hv⟩)
    have hnext : (F t k).nextId = t.nextId + n := by rw [hsent.rest, hlen]
    rw [List.foldl_cons]
    refine ⟨?_, fun j hj => ?_⟩
    · rw [laneAccesses_cons, hu0, Option.map_some, Option.getD_some, ← hnext]
      exact (hsent.mono (by simp)).trans (hrest.mono (by simp +contextual))
    · rcases List.mem_cons.mp hj with rfl | hj
      · rw [hrest.others g.ctx g.wg j (fun e => hk e.2.2), hthread, hu0, Option.map_some]
      · exact hthreads j hj

/-- An issue whose checks and holds find nothing, each of whose effects sends the accesses `mk` of its member: all of them leave, and each
member becomes `φ` of what it was. -/
theorem issueHeld_sends {i : Instr} {chk : State → Group → Thread → Option TrapInfo} {hold : State → Group → Thread → Option HoldKind}
    {eff : State → Group → Nat → State} {φ : Thread → Thread} {mk : Nat → Thread → List Access} {n : Nat} {s : State} {g : Group}
    (h : issuable i s g = true) (hc : Members s g (fun u => chk { s with group := none } g u = none))
    (hh : Members s g (fun u => hold { s with group := none } g u = none))
    (hlen : ∀ id u, (mk id u).length = n) (hpc : ∀ id u pc, mk id { u with pc := pc, holdPc := none } = mk id u)
    (hφ : ∀ u pc, φ { u with pc := pc, holdPc := none } = { φ u with pc := pc, holdPc := none })
    (hrun : ∀ u, (φ u).status = u.status ∧ (φ u).runLen = u.runLen)
    (heff : ∀ t k u, k ∈ g.tids → UnderWay s t g → s.threadOf g.ctx g.wg k = some u →
      t.threadOf g.ctx g.wg k = some { u with pc := g.pc + i.bytes, holdPc := none } →
      SentBy t (eff t g k) g.ctx g.wg [k] (mk t.nextId u) ∧
        (eff t g k).threadOf g.ctx g.wg k = some (φ { u with pc := g.pc + i.bytes, holdPc := none }))
    (hexec : exec i s = .next (issueHeld i chk hold eff s)) :
    Sends i s g (perMember s g n mk) (fun u v => Went i (g.pc + i.bytes) (φ u) u v) := by
  rw [issueHeld_performs h hc hh] at hexec
  obtain ⟨hsteps, hstepped⟩ := fold_members (F := stepPc i g) (φ := fun t => { t with pc := g.pc + i.bytes, holdPc := none }) (c := g.ctx)
    (w := g.wg) g.tids g.tids (fun _ hk => hk) (issuable_nodup h) { s with group := none }
    (fun s k _ => Kept.modThread s _ _ k (fun t => { t with pc := g.pc + i.bytes, holdPc := none }) (fun _ => rfl) [k] (by simp))
    (fun s k _ => State.threadOf_modThread_same s _ _ k (fun t => { t with pc := g.pc + i.bytes, holdPc := none }) (fun _ => rfl))
  generalize hp : g.tids.foldl (stepPc i g) { s with group := none } = p at hsteps hstepped
  have hstepped' : ∀ k ∈ g.tids, ∀ u, s.threadOf g.ctx g.wg k = some u →
      p.threadOf g.ctx g.wg k = some { u with pc := g.pc + i.bytes, holdPc := none } :=
    fun k hk u hu => (hstepped k hk).trans (congrArg (Option.map _) hu)
  obtain ⟨hsent, hthreads⟩ := fold_sends_members (F := fun s t => eff s g t) (φ := φ) (mk := mk) (s := s) (s0 := p) hlen
    (fun t k v hk ht hv0 hv => by
      obtain ⟨u, hu, -⟩ := issuable_member h hk
      obtain rfl : _ = v := Option.some.inj ((hstepped' k hk u hu).symm.trans hv0)
      rw [hpc]
      exact heff t k u hk ht hu hv)
    g.tids (fun _ hk => hk) (issuable_nodup h) p (.of_kept hsteps) (fun k hk => by
      obtain ⟨u, hu, -⟩ := issuable_member h hk
      exact ⟨_, hstepped' k hk u hu, hstepped' k hk u hu⟩)
  obtain ⟨hadvance, hgone⟩ := fold_members (F := State.advance i g) (φ := Thread.goOn i) (c := g.ctx) (w := g.wg) g.tids g.tids
    (fun _ hk => hk) (issuable_nodup h) (g.tids.foldl (fun s t => eff s g t) p)
    (fun s k _ => Kept.advance i g s k [k] (by simp)) (fun s k _ => State.threadOf_advance i g s k)
  have haccs : laneAccesses p g.ctx g.wg n mk p.nextId g.tids = perMember s g n mk := by
    rw [laneAccesses_congr (s := s) (mk' := mk) (fun k hk id => by
      obtain ⟨u, hu, -⟩ := issuable_member h hk
      rw [hstepped' k hk u hu, hu, Option.map_some, Option.map_some, hpc]), hsteps.rest]
    rfl
  rw [haccs] at hsent
  have hall := ((SentBy.nil_of_kept hsteps).trans hsent).trans (.nil_of_kept hadvance)
  rw [List.nil_append, List.append_nil] at hall
  have hperform : performAll i eff { s with group := none } g g.tids =
      g.tids.foldl (State.advance i g) (g.tids.foldl (fun s t => eff s g t) p) := by rw [performAll, hp]
  rw [hperform] at hexec
  refine ⟨_, hexec, ⟨by rw [hall.rest], hall.others, hall.shells, hall.cores⟩, fun k hk => ?_⟩
  obtain ⟨u, hu, hready, -⟩ := issuable_member h hk
  refine ⟨u, (φ { u with pc := g.pc + i.bytes, holdPc := none }).goOn i, hu, ?_, ?_⟩
  · rw [hgone k hk, hthreads k hk, hstepped' k hk u hu]
    rfl
  · exact went_onThread hready (hrun _).1 (hrun _).2 (hφ u _)

/-! The issue of a lone member, by the state that has moved its PC on. -/

theorem stepPc_kept (i : Instr) (g : Group) (s : State) (k : Nat) : Kept s (stepPc i g s k) g.ctx g.wg [k] :=
  Kept.modThread s g.ctx g.wg k (fun t => { t with pc := g.pc + i.bytes, holdPc := none }) (fun _ => rfl) [k] (by simp)

theorem stepPc_thread {i : Instr} {g : Group} {s : State} {k : Nat} {u : Thread} (hu : s.threadOf g.ctx g.wg k = some u) :
    (stepPc i g s k).threadOf g.ctx g.wg k = some { u with pc := g.pc + i.bytes, holdPc := none } := by
  refine (State.threadOf_modThread_same s g.ctx g.wg k (fun t => { t with pc := g.pc + i.bytes, holdPc := none }) (fun _ => rfl)).trans ?_
  rw [hu, Option.map_some]

section
variable {i : Instr} {chk : State → Group → Thread → Option TrapInfo} {hold : State → Group → Thread → Option HoldKind}
  {eff : State → Group → Nat → State} {s : State} {g : Group} {k : Nat} {u : Thread} (h : issuable i s g = true) (htids : g.tids = [k])
  (hu : s.threadOf g.ctx g.wg k = some u)
include h htids hu

theorem issueHeld_alone (hchk : chk { s with group := none } g u = none) (hhold : hold { s with group := none } g u = none) :
    issueHeld i chk hold eff s = State.advance i g (eff (stepPc i g { s with group := none } k) g k) k := by
  have hone : ∀ j ∈ g.tids, ∀ v, s.threadOf g.ctx g.wg j = some v → v = u := by
    intro j hj v hv
    rw [htids, List.mem_singleton] at hj
    exact Option.some.inj ((hj ▸ hv).symm.trans hu)
  rw [issueHeld_performs h (fun j hj v hv => hone j hj v hv ▸ hchk) (fun j hj v hv => hone j hj v hv ▸ hhold), htids]
  rfl

omit h htids hu in
/-- What a lone member's effect leaves once its run goes on: the member alone has changed further. -/
theorem advance_alone {q : State} {v : Thread} (hv : q.threadOf g.ctx g.wg k = some v) :
    Kept q (State.advance i g q k) g.ctx g.wg [k] ∧ (State.advance i g q k).threadOf g.ctx g.wg k = some (v.goOn i) :=
  ⟨Kept.advance i g q k [k] (by simp), by rw [State.threadOf_advance, hv, Option.map_some]⟩

end

/-- The issue of a lone member that no check stops, by its effect on the state that has moved its PC on. -/
theorem lone_effect {i : Instr} {chk : State → Group → Thread → Option TrapInfo} {hold : State → Group → Thread → Option HoldKind}
    {eff : State → Group → Nat → State} {s : State} {g : Group} {k : Nat} {u : Thread} (h : issuable i s g = true) (htids : g.tids = [k])
    (hu : s.threadOf g.ctx g.wg k = some u) (hchk : chk { s with group := none } g u = none) (hhold : hold { s with group := none } g u = none)
    (hexec : exec i s = .next (issueHeld i chk hold eff s)) :
    ∃ p, Stepped i s g k u p ∧ exec i s = .next (State.advance i g (eff p g k) k) := by
  obtain ⟨p, hp, hissue⟩ := issueHeld_lone (eff := eff) h htids hu hchk hhold
  exact ⟨p, hp, hexec.trans (congrArg _ hissue)⟩

/-- What the check of an instruction that no transaction allows finds is raised as its trap (R179). -/
theorem traps_untransacted {i : Instr} {chk : State → Group → Thread → Option TrapInfo} {hold : State → Group → Thread → Option HoldKind}
    {eff : State → Group → Nat → State} {s : State} {g : Group} {k operand : Nat} {ks : List Nat} {u : Thread} {code : TrapCode}
    (h : issuable i s g = true) (hallowed : txAllowed i = false) (htids : g.tids = k :: ks) (hu : s.threadOf g.ctx g.wg k = some u)
    (hexec : exec i s = .next (issueHeld i chk hold eff s)) (hchk : chk { s with group := none } g u = trapOf code operand) :
    Traps i s g code operand k :=
  hexec.trans (congrArg _ (issueHeld_traps (issuable_group h)
    (issueFault_outside h htids hu (tx_inactive_of_issuable h hallowed (by simp [htids]) hu) hchk)))

/-! One access of a member. -/

/-- A line that is no first touch stays as it was (R122). -/
theorem State.touchAtIssue_settled {s : State} {ctx : Nat} {l : Launch} {addr n a : Nat} (hl : s.launch ctx = some l)
    (hsettled : Settled s l addr n) (hlow : addr ≤ a) (hhigh : a < addr + n) : s.touchAtIssue ctx a = s := by
  simp only [State.touchAtIssue, hl, State.polderAlloc]
  cases hr : l.polderAt a with
  | none => rfl
  | some r =>
    rcases hsettled a hlow hhigh r hr with ⟨b, hb⟩ | ⟨hline, hlost⟩
    · simp only [hb]
    · have hheld : s.polderLines.contains (l.ctx, a / 128) = true := by simpa using hline
      cases hp : s.polderPage l.ctx (r.pageOf a) with
      | none => simp only [hp, hheld, if_true]
      | some x =>
        cases x with
        | lost y => exact absurd hp (hlost y)
        | backed y => simp only [hp]
        | moved y => simp only [hp, hheld, if_true]

theorem settled_congr {s t : State} {l : Launch} {addr n : Nat} (hpages : t.polderPages = s.polderPages) (hlines : t.polderLines = s.polderLines)
    (h : Settled s l addr n) : Settled t l addr n := by
  have hpage : ∀ page, t.polderPage l.ctx page = s.polderPage l.ctx page := fun page => by simp only [State.polderPage, hpages]
  intro a hlow hhigh r hr
  rw [hpage, hlines]
  exact h a hlow hhigh r hr

theorem touchAtIssue_settled {s t : State} {g : Group} {l : Launch} {addr n a : Nat} (hl : s.launch g.ctx = some l) (ht : UnderWay s t g)
    (hsettled : Settled s l addr n) (hlow : addr ≤ a) (hhigh : a < addr + n) : t.touchAtIssue g.ctx a = t :=
  State.touchAtIssue_settled ((ht.launch _).trans hl) (settled_congr ht.polderPages ht.polderLines hsettled) hlow hhigh

/-- An access that is no first touch raises no breach (R122, R123). -/
theorem breachCheck_settled {s : State} {l : Launch} {addr n : Nat} (hn : 0 < n) (hsettled : Settled s l addr n) (lower : List Nat) :
    breachCheck s l lower addr = none := by
  cases hr : l.polderAt addr with
  | none => simp only [breachCheck, hr]
  | some r =>
    rcases hsettled addr (Nat.le_refl _) (by omega) r hr with ⟨b, hb⟩ | ⟨hline, hlost⟩
    · simp only [breachCheck, hr, hb]
    · cases hp : s.polderPage l.ctx (r.pageOf addr) with
      | none => simp [breachCheck, hr, hp, hline]
      | some x =>
        cases x with
        | lost y => exact absurd hp (hlost y)
        | backed y => simp only [breachCheck, hr, hp]
        | moved y => simp [breachCheck, hr, hp, hline]

/-- A member's thread with the result of an access of `w` words, if it has one, to come. -/
def Thread.oweWords (u : Thread) (d w : Nat) : Thread := if w = 0 then u else u.addResult (u.dests d w) none

theorem Thread.oweWords_pos {w : Nat} (hw : w ≠ 0) (u : Thread) (d : Nat) : u.oweWords d w = u.addResult (u.dests d w) none := if_neg hw

/-- A member's access leaves, whose line, if it touches one, is no first touch. -/
theorem send_underWay {s t : State} {g : Group} {k : Nat} {u : Thread} {path : Path} {op : AccOp} {addr size scope d w : Nat}
    {tx : Option (List (Nat × Byte))} (ht : UnderWay s t g) (hu : t.threadOf g.ctx g.wg k = some u)
    (htouch : op.touches = true → t.touchAtIssue g.ctx addr = t) :
    SentBy t (t.send g k path op addr size scope d w tx (groupId t g)) g.ctx g.wg [k]
      [{ sentAccess s g path op addr size scope (if w = 0 then none else some u.nextSlot) t.nextId u with tx := tx }] ∧
    (t.send g k path op addr size scope d w tx (groupId t g)).threadOf g.ctx g.wg k = some (u.oweWords d w) := by
  have hacc : ({ sentAccess s g path op addr size scope (if w = 0 then none else some u.nextSlot) t.nextId u with tx := tx } : Access) =
      { id := t.nextId, ctx := g.ctx, wg := g.wg, tid := k, core := g.core, path := path, op := op, addr := addr, size := size, scope := scope,
        slot := if w = 0 then none else some u.nextSlot,
        gens := if classOf addr == .scratch then t.granuleGens (coreCluster g.core) addr size else [], gid := groupId t g, pc := g.pc, taken := 0,
        tx := tx, after := u.seen } := by
    rw [ht.groupId, ht.granuleGens]
    simp only [sentAccess, State.threadOf_tid hu, beq_iff_eq]
  have hsame : (if op.touches then t.touchAtIssue g.ctx addr else t) = t := by
    split
    · exact htouch (by assumption)
    · rfl
  simp only [hacc, State.send, hu, hsame, Thread.oweWords]
  split
  · exact ⟨⟨rfl, fun _ _ _ _ => rfl, fun _ _ => rfl, fun _ => rfl⟩, hu⟩
  · refine ⟨⟨rfl, fun c' w' j hj => ?_, fun c' w' => shells_modThread _ _ _ _ _ _ _, fun _ => rfl⟩, ?_⟩
    · exact State.threadOf_modThread_other _ _ _ _ _ _ _ (fun u => u.addResult (u.dests d w) none) (fun _ => rfl) (by simpa using hj)
    · rw [State.threadOf_modThread_same _ _ _ _ (fun u => u.addResult (u.dests d w) none) (fun _ => rfl)]
      exact congrArg (Option.map _) hu

end Sys2Proof.Machine

end

section
/-! SUPPORT. Statements O14 and O15: loads and stores of every form leave at issue (R149 to R151). -/

namespace Sys2Proof.Machine

/-! The forms of R149 by one operation each, beside the immediate ones of `exec_load` and `exec_store`. -/

theorem exec_loadIndexed : ∀ p ∈ loadTable, ∀ (sw : Bool) (d a b : Reg) (s : State), exec (p.2.1 sw d a b) s =
    .next (loadOp (p.2.1 sw d a b) d p.2.2.1 p.2.2.2.1 p.2.2.2.2.1 p.2.2.2.2.2 (fun u => addrIdx u a b) s) := by
  simp only [loadTable, List.forall_mem_cons, List.not_mem_nil, false_imp_iff, implies_true, and_true]
  refine ⟨?_, ?_, ?_, ?_, ?_, ?_, ?_, ?_⟩ <;> exact fun _ _ _ _ _ => rfl

theorem exec_storeIndexed : ∀ p ∈ storeTable, ∀ (sw : Bool) (d a b : Reg) (s : State), exec (p.2.1 sw d a b) s =
    .next (storeOp (p.2.1 sw d a b) d p.2.2 (fun u => addrIdx u a b) s) := by
  simp only [storeTable, List.forall_mem_cons, List.not_mem_nil, false_imp_iff, implies_true, and_true]
  refine ⟨?_, ?_, ?_, ?_⟩ <;> exact fun _ _ _ _ _ => rfl

theorem exec_loadQuad {i : Instr} {d : Reg} {addr : Thread → Nat} (h : QuadLoad i d addr) (s : State) :
    exec i s = .next (loadOp i d 16 4 false .ord addr s) := by
  rcases h with ⟨sw, a, m, rfl, rfl⟩ | ⟨sw, a, b, rfl, rfl⟩ <;> rfl

theorem exec_storeQuad {i : Instr} {d : Reg} {addr : Thread → Nat} (h : QuadStore i d addr) (s : State) :
    exec i s = .next (storeOp i d 16 addr s) := by
  rcases h with ⟨sw, a, m, rfl, rfl⟩ | ⟨sw, a, b, rfl, rfl⟩ <;> rfl

/-- An address does not hang on the PC. -/
def AtAnyPc (addr : Thread → Nat) : Prop := ∀ u pc, addr { u with pc := pc, holdPc := none } = addr u

theorem QuadLoad.form {i : Instr} {d : Reg} {addr : Thread → Nat} (h : QuadLoad i d addr) : AtAnyPc addr ∧ i.bytes = 4 := by
  rcases h with ⟨sw, a, m, rfl, rfl⟩ | ⟨sw, a, b, rfl, rfl⟩ <;> exact ⟨fun _ _ => rfl, rfl⟩

theorem QuadStore.form {i : Instr} {d : Reg} {addr : Thread → Nat} (h : QuadStore i d addr) : AtAnyPc addr ∧ i.bytes = 4 := by
  rcases h with ⟨sw, a, m, rfl, rfl⟩ | ⟨sw, a, b, rfl, rfl⟩ <;> exact ⟨fun _ _ => rfl, rfl⟩

theorem loadTable_bytes : ∀ p ∈ loadTable, ∀ sw d a m b, (p.1 sw d a m).bytes = 4 ∧ (p.2.1 sw d a b).bytes = 4 := by
  simp only [loadTable, List.forall_mem_cons, List.not_mem_nil, false_imp_iff, implies_true, and_true]
  exact ⟨fun _ _ _ _ _ => ⟨rfl, rfl⟩, fun _ _ _ _ _ => ⟨rfl, rfl⟩, fun _ _ _ _ _ => ⟨rfl, rfl⟩, fun _ _ _ _ _ => ⟨rfl, rfl⟩,
    fun _ _ _ _ _ => ⟨rfl, rfl⟩, fun _ _ _ _ _ => ⟨rfl, rfl⟩, fun _ _ _ _ _ => ⟨rfl, rfl⟩, fun _ _ _ _ _ => ⟨rfl, rfl⟩⟩

theorem storeTable_bytes : ∀ p ∈ storeTable, ∀ sw d a m b, (p.1 sw d a m).bytes = 4 ∧ (p.2.1 sw d a b).bytes = 4 := by
  simp only [storeTable, List.forall_mem_cons, List.not_mem_nil, false_imp_iff, implies_true, and_true]
  exact ⟨fun _ _ _ _ _ => ⟨rfl, rfl⟩, fun _ _ _ _ _ => ⟨rfl, rfl⟩, fun _ _ _ _ _ => ⟨rfl, rfl⟩, fun _ _ _ _ _ => ⟨rfl, rfl⟩⟩

/-- The sizes of the loads and stores of R149 below a quad. -/
theorem loadTable_positive : ∀ p ∈ loadTable, 0 < p.2.2.1 := by decide

theorem storeTable_positive : ∀ p ∈ storeTable, 0 < p.2.2 := by decide

/-! The checks of a group's members (R150, R175, R122). -/

/-- A load or store outside any transaction that raises nothing, and is no first touch. -/
theorem memCheck_settled {s : State} {g : Group} {l : Launch} {n : Nat} {u : Thread} {addr : Thread → Nat} {isStore constant : Bool}
    (hl : s.launch g.ctx = some l) (hout : u.tx.active = false) (hn : 0 < n) (hreach : Reachable s l g.core u.parent (addr u) n isStore constant)
    (hsettled : Settled s l (addr u) n) (htoken : isStore = true → l.gated (addr u) n = true → l.holdsToken g.wg = true) :
    memCheck addr n isStore constant s g u = none := by
  have hgate : (if isStore then gateCheck l g.wg (addr u) n else none) = none := by
    cases isStore
    · rfl
    · exact gateCheck_of_token (htoken rfl)
  have hpolder : polderCheck addr s g u = none := by simp only [polderCheck, withLaunch, hl, breachCheck_settled hn hsettled]
  simp only [memCheck, withLaunch, hl, accessCheck_reachable hreach, hout, hgate, hpolder, orTrap, Bool.false_and, Bool.false_eq_true, if_false]

/-! Loads. -/

/-- What a load's member sends (R151). -/
def loadAccesses (path : Path) (signed : Bool) (words addr n : Nat) (s : State) (g : Group) (id : Nat) (u : Thread) : List Access :=
  if n = 16 then [sentAccess s g path (.load false 2) addr 8 0 (some u.nextSlot) id u,
    sentAccess s g path (.load false 2) (addr + 8) 8 0 (some (u.nextSlot + 1)) (id + 1) u]
  else [sentAccess s g path (.load signed words) addr n 0 (some u.nextSlot) id u]

/-- What a load's member owes. -/
def loadOwed (d words n : Nat) (u : Thread) : List Result :=
  if n = 16 then [owing u 0 d 2, owing u 1 (d + 2) 2] else [owing u 0 d words]

/-- A load's accesses leave with no write set unless one is put in. -/
theorem loadAccesses_tx (path : Path) (signed : Bool) (words addr n : Nat) (s : State) (g : Group) (id : Nat) (u : Thread) :
    ∀ x ∈ loadAccesses path signed words addr n s g id u, { x with tx := none } = x := by
  unfold loadAccesses
  split
  · exact List.forall_mem_cons.mpr ⟨rfl, List.forall_mem_singleton.mpr rfl⟩
  · exact List.forall_mem_singleton.mpr rfl

/-- A member's thread once its load has left. -/
def Thread.oweLoad (u : Thread) (d words n : Nat) : Thread :=
  { u with results := u.results ++ loadOwed d words n u, nextSlot := u.nextSlot + if n = 16 then 2 else 1 }

/-- A member's load leaves with the write set it stands under, if any. -/
theorem sendLoad_leaves {s t : State} {g : Group} {l : Launch} {k addr n d words : Nat} {u : Thread} {path : Path} {signed : Bool}
    {tx : Option (List (Nat × Byte))} (hl : s.launch g.ctx = some l) (hn : 0 < n) (hwords : words ≠ 0) (hsettled : Settled s l addr n)
    (ht : UnderWay s t g) (hu : t.threadOf g.ctx g.wg k = some u) :
    SentBy t (sendLoad path signed d addr n words tx g k (groupId t g) t) g.ctx g.wg [k]
      ((loadAccesses path signed words addr n s g t.nextId u).map (fun x => { x with tx := tx })) ∧
    (sendLoad path signed d addr n words tx g k (groupId t g) t).threadOf g.ctx g.wg k = some (u.oweLoad d words n) := by
  by_cases hquad : n = 16
  · obtain ⟨hlow, hfirst⟩ := send_underWay (path := path) (op := .load false 2) (addr := addr) (size := 8) (scope := 0) (d := d) (w := 2)
      (tx := tx) ht hu (fun _ => touchAtIssue_settled hl ht hsettled (Nat.le_refl _) (by omega))
    have ht' := ht.trans hlow
    obtain ⟨hhigh, hsecond⟩ := send_underWay (path := path) (op := .load false 2) (addr := addr + 8) (size := 8) (scope := 0) (d := d + 2)
      (w := 2) (tx := tx) ht' hfirst (fun _ => touchAtIssue_settled hl ht' hsettled (by omega) (by omega))
    have hgid : groupId (t.send g k path (.load false 2) addr 8 0 d 2 tx (groupId t g)) g = groupId t g := ht'.groupId.trans ht.groupId.symm
    have hnext : (t.send g k path (.load false 2) addr 8 0 d 2 tx (groupId t g)).nextId = t.nextId + 1 := by rw [hlow.rest]; rfl
    rw [hgid] at hhigh hsecond
    rw [hnext] at hhigh
    rw [sendLoad, if_pos hquad, loadAccesses, if_pos hquad]
    refine ⟨hlow.trans hhigh, hsecond.trans (congrArg some ?_)⟩
    simp only [Thread.oweWords_pos (Nat.succ_ne_zero _), Thread.addResult, List.append_assoc, Thread.oweLoad, loadOwed, if_pos hquad]
    rfl
  · obtain ⟨hsent, hthread⟩ := send_underWay (path := path) (op := .load signed words) (addr := addr) (size := n) (scope := 0) (d := d) (w := words)
      (tx := tx) ht hu (fun _ => touchAtIssue_settled hl ht hsettled (Nat.le_refl _) (by omega))
    rw [if_neg hwords] at hsent
    rw [Thread.oweWords_pos hwords] at hthread
    rw [sendLoad, if_neg hquad, loadAccesses, if_neg hquad]
    refine ⟨hsent, hthread.trans (congrArg some ?_)⟩
    rw [Thread.oweLoad, loadOwed, if_neg hquad, if_neg hquad]
    rfl

/-- Outside any transaction the loads of a group's members leave with no write set. -/
theorem loadOp_leaves {i : Instr} {s : State} {g : Group} {l : Launch} {n words : Nat} {addr : Thread → Nat} {d : Reg} {signed : Bool} {path : Path}
    (hl : s.launch g.ctx = some l) (h : issuableOutside i s g = true) (haddr : AtAnyPc addr) (hn : 0 < n) (hwords : words ≠ 0)
    (hall : Members s g (fun u => Reachable s l g.core u.parent (addr u) n false (path == .con) ∧ Settled s l (addr u) n))
    (hexec : exec i s = .next (loadOp i d n words signed path addr s)) :
    Sends i s g (perMember s g (if n = 16 then 2 else 1) (fun id u => loadAccesses path signed words (addr u) n s g id u))
      (fun u v => Went i (g.pc + i.bytes) (u.oweLoad d.toNat words n) u v) := by
  obtain ⟨hissue, hout⟩ := issuableOutside_members h
  refine issueHeld_sends (φ := fun u => u.oweLoad d.toNat words n) hissue (fun k hk u hu => ?_) (fun _ _ _ _ => rfl) (fun id u => ?_)
    (fun id u pc => by rw [haddr]; rfl) (fun _ _ => rfl) (fun _ => ⟨rfl, rfl⟩) (fun t k u hk ht hu hthread => ?_) hexec
  · obtain ⟨hreach, hsettled⟩ := hall k hk u hu
    exact memCheck_settled (s := { s with group := none }) hl (hout k hk u hu) hn hreach hsettled (by simp)
  · rw [loadAccesses]
    split <;> rfl
  · obtain ⟨-, hsettled⟩ := hall k hk u hu
    obtain ⟨hsent, hthread'⟩ := sendLoad_leaves (path := path) (signed := signed) (d := rn d) (tx := none) hl hn hwords hsettled ht hthread
    rw [List.map_congr_left (g := id) (loadAccesses_tx _ _ _ _ _ _ _ _ _), List.map_id] at hsent
    simp only [hthread, hout k hk u hu, haddr u, Bool.false_and, Bool.false_eq_true, if_false]
    exact ⟨hsent, hthread'⟩

/-- Settles O14: the loads are one operation, which sends one access or, for 16 bytes, two. -/
theorem loads : Obligations.Loads := by
  unfold Obligations.Loads
  refine ⟨fun p hp sw d a m s g l hl h hall => ?_, fun p hp sw d a b s g l hl h hall => ?_, fun i d addr hi s g l hl h hall => ?_⟩
  · obtain ⟨hquad, hwords⟩ := loadTable_sizes p hp
    have hleaves := loadOp_leaves (addr := fun u => addrImm u a m p.2.2.1) hl h (fun _ _ => rfl) (loadTable_positive p hp) hwords hall
      (exec_load p hp sw d a m s)
    obtain ⟨hbytes, -⟩ := loadTable_bytes p hp sw d a m d
    simpa only [loadAccesses, Thread.oweLoad, loadOwed, if_neg hquad, hbytes] using hleaves
  · obtain ⟨hquad, hwords⟩ := loadTable_sizes p hp
    have hleaves := loadOp_leaves (addr := fun u => addrIdx u a b) hl h (fun _ _ => rfl) (loadTable_positive p hp) hwords hall
      (exec_loadIndexed p hp sw d a b s)
    obtain ⟨-, hbytes⟩ := loadTable_bytes p hp sw d a 0 b
    simpa only [loadAccesses, Thread.oweLoad, loadOwed, if_neg hquad, hbytes] using hleaves
  · obtain ⟨haddr, hbytes⟩ := hi.form
    rw [← hbytes]
    exact loadOp_leaves hl h haddr (by decide) (by decide) hall (exec_loadQuad hi s)

end Sys2Proof.Machine

end

section
/-! SUPPORT. Statement O15: stores of every form leave at issue with their data. -/

namespace Sys2Proof.Machine

/-- The halves of a quad are its pairs (R149). -/
theorem Thread.readQuad_halves (u : Thread) (f : Nat) : u.readQuad f % 2 ^ 64 = u.readPair f ∧ u.readQuad f / 2 ^ 64 = u.readPair (f + 2) := by
  have hlow := readPair_lt u f
  unfold Thread.readQuad
  constructor <;> omega

section
variable {i : Instr} {s : State} {g : Group} {l : Launch} {n : Nat} {d : Reg} {addr : Thread → Nat} (hl : s.launch g.ctx = some l)
  (h : issuableOutside i s g = true) (haddr : AtAnyPc addr) (hn : 0 < n)
  (hall : Members s g (fun u => Reachable s l g.core u.parent (addr u) n true false ∧ Settled s l (addr u) n ∧
    (l.gated (addr u) n = true → l.holdsToken g.wg = true)))
  (hexec : exec i s = .next (storeOp i d n addr s))
include hl h haddr hn hall hexec

/-- A store each of whose members sends what `sendStore` sends. -/
theorem storeOp_leaves {m : Nat} {mk : Nat → Thread → List Access} (hlen : ∀ id u, (mk id u).length = m)
    (hpc : ∀ id u pc, mk id { u with pc := pc, holdPc := none } = mk id u)
    (hsend : ∀ t k u, UnderWay s t g → Settled s l (addr u) n → t.threadOf g.ctx g.wg k = some u →
      SentBy t (sendStore (addr u) n (storeData u (rn d) n) g k (groupId t g) t) g.ctx g.wg [k] (mk t.nextId u) ∧
        (sendStore (addr u) n (storeData u (rn d) n) g k (groupId t g) t).threadOf g.ctx g.wg k = some u) :
    Sends i s g (perMember s g m mk) (fun u v => Went i (g.pc + i.bytes) u u v) := by
  obtain ⟨hissue, hout⟩ := issuableOutside_members h
  refine issueHeld_sends (φ := id) hissue (fun k hk u hu => ?_) (fun k hk u hu => ?_) hlen hpc (fun _ _ => rfl) (fun _ => ⟨rfl, rfl⟩)
    (fun t k u hk ht hu hthread => ?_) hexec
  · obtain ⟨hreach, hsettled, htoken⟩ := hall k hk u hu
    exact memCheck_settled (s := { s with group := none }) hl (hout k hk u hu) hn hreach hsettled (fun _ => htoken)
  · obtain ⟨-, -, htoken⟩ := hall k hk u hu
    simp only [storeHold, withLaunch, show State.launch { s with group := none } g.ctx = some l from hl, gateHold_of_token htoken]
  · obtain ⟨-, hsettled, -⟩ := hall k hk u hu
    rw [← haddr u (g.pc + i.bytes)] at hsettled
    rw [← hpc t.nextId u (g.pc + i.bytes)]
    simp only [hthread, hout k hk u hu, Bool.false_and, Bool.false_eq_true, if_false]
    exact hsend t k _ ht hsettled hthread

theorem store_leaves (hquad : n ≠ 16) :
    Sends i s g (perMember s g 1 (fun id u => [sentAccess s g .ord (.store (if n = 8 then u.readPair d.toNat else (u.readW d.toNat).toNat))
      (addr u) n 0 none id u])) (fun u v => Went i (g.pc + i.bytes) u u v) := by
  refine storeOp_leaves hl h haddr hn hall hexec (fun _ _ => rfl) (fun id u pc => by rw [haddr]; rfl) (fun t k u ht hsettled hu => ?_)
  rw [sendStore, if_neg hquad, storeData, if_neg hquad]
  exact send_underWay (op := .store (if n = 8 then u.readPair d.toNat else (u.readW d.toNat).toNat)) (size := n) (scope := 0) (d := 0) (w := 0)
    (tx := none) ht hu (fun _ => touchAtIssue_settled hl ht hsettled (Nat.le_refl _) (by omega))

/-- A store of 16 bytes leaves in two halves (R151). -/
theorem storeQuad_leaves (hquad : n = 16) :
    Sends i s g (perMember s g 2 (fun id u => [sentAccess s g .ord (.store (u.readPair d.toNat)) (addr u) 8 0 none id u,
        sentAccess s g .ord (.store (u.readPair (d.toNat + 2))) (addr u + 8) 8 0 none (id + 1) u]))
      (fun u v => Went i (g.pc + i.bytes) u u v) := by
  refine storeOp_leaves hl h haddr hn hall hexec (fun _ _ => rfl) (fun id u pc => by rw [haddr]; rfl) (fun t k u ht hsettled hu => ?_)
  obtain ⟨hlow, hfirst⟩ := send_underWay (path := .ord) (op := .store (u.readPair d.toNat)) (addr := addr u) (size := 8) (scope := 0) (d := 0)
    (w := 0) (tx := none) ht hu (fun _ => touchAtIssue_settled hl ht hsettled (Nat.le_refl _) (by omega))
  have ht' := ht.trans hlow
  obtain ⟨hhigh, hsecond⟩ := send_underWay (path := .ord) (op := .store (u.readPair (d.toNat + 2))) (addr := addr u + 8) (size := 8) (scope := 0)
    (d := 0) (w := 0) (tx := none) ht' hfirst (fun _ => touchAtIssue_settled hl ht' hsettled (by omega) (by omega))
  have hgid : groupId (t.send g k .ord (.store (u.readPair d.toNat)) (addr u) 8 0 0 0 none (groupId t g)) g = groupId t g :=
    ht'.groupId.trans ht.groupId.symm
  have hnext : (t.send g k .ord (.store (u.readPair d.toNat)) (addr u) 8 0 0 0 none (groupId t g)).nextId = t.nextId + 1 := by rw [hlow.rest]; rfl
  obtain ⟨hmod, hdiv⟩ := u.readQuad_halves d.toNat
  rw [hgid] at hhigh hsecond
  rw [hnext] at hhigh
  rw [sendStore, if_pos hquad, storeData, if_pos hquad, hmod, hdiv]
  exact ⟨hlow.trans hhigh, hsecond⟩

end

/-- Settles O15: the stores are one operation, which sends one access or, for 16 bytes, two. -/
theorem stores : Obligations.Stores := by
  unfold Obligations.Stores
  refine ⟨fun p hp sw d a m s g l hl h hall => ?_, fun p hp sw d a b s g l hl h hall => ?_, fun i d addr hi s g l hl h hall => ?_⟩
  · rw [← (storeTable_bytes p hp sw d a m d).1]
    exact store_leaves (addr := fun u => addrImm u a m p.2.2) hl h (fun _ _ => rfl) (storeTable_positive p hp) hall (exec_store p hp sw d a m s)
      (storeTable_sizes p hp)
  · rw [← (storeTable_bytes p hp sw d a 0 b).2]
    exact store_leaves (addr := fun u => addrIdx u a b) hl h (fun _ _ => rfl) (storeTable_positive p hp) hall (exec_storeIndexed p hp sw d a b s)
      (storeTable_sizes p hp)
  · obtain ⟨haddr, hbytes⟩ := hi.form
    rw [← hbytes]
    exact storeQuad_leaves hl h haddr (by decide) hall (exec_storeQuad hi s) rfl

end Sys2Proof.Machine

end

section
/-! SUPPORT. Statement O16: the checks of an address, in their order (R150). -/

namespace Sys2Proof.Machine

/-! The address check of every form. -/

/-- An instruction whose operands are checked as those of a load or store (R150). -/
def ChecksAddress (i : Instr) (addr : Thread → Nat) (n : Nat) (isStore constant : Bool) : Prop :=
  ∀ s, ∃ hold eff, exec i s = .next (issueHeld i (memCheck addr n isStore constant) hold eff s)

theorem LoadForm.checks {i : Instr} {addr : Thread → Nat} {n : Nat} {constant : Bool} (h : LoadForm i addr n constant) :
    ChecksAddress i addr n false constant := by
  intro s
  rcases h with ⟨p, hp, rfl, rfl, ⟨sw, d, a, m, rfl, rfl⟩ | ⟨sw, d, a, b, rfl, rfl⟩⟩ | ⟨rfl, rfl, d, hquad⟩
  · exact ⟨_, _, exec_load p hp sw d a m s⟩
  · exact ⟨_, _, exec_loadIndexed p hp sw d a b s⟩
  · exact ⟨_, _, exec_loadQuad hquad s⟩

theorem StoreForm.checks {i : Instr} {addr : Thread → Nat} {n : Nat} (h : StoreForm i addr n) : ChecksAddress i addr n true false := by
  intro s
  rcases h with ⟨p, hp, rfl, ⟨sw, d, a, m, rfl, rfl⟩ | ⟨sw, d, a, b, rfl, rfl⟩⟩ | ⟨rfl, d, hquad⟩
  · exact ⟨_, _, exec_store p hp sw d a m s⟩
  · exact ⟨_, _, exec_storeIndexed p hp sw d a b s⟩
  · exact ⟨_, _, exec_storeQuad hquad s⟩

/-- What the address check of the lowest member finds is raised (R57). -/
theorem ChecksAddress.traps {i : Instr} {addr : Thread → Nat} {n : Nat} {isStore constant : Bool} (hi : ChecksAddress i addr n isStore constant)
    {s : State} {g : Group} {l : Launch} {k : Nat} {ks : List Nat} {u : Thread} {code : TrapCode} (hl : s.launch g.ctx = some l)
    (h : issuableOutside i s g = true) (htids : g.tids = k :: ks) (hu : s.threadOf g.ctx g.wg k = some u)
    (hcheck : accessCheck s l g.core u.parent (addr u) n isStore constant = trapOf code (addr u)) : Traps i s g code (addr u) k := by
  obtain ⟨hissue, hout⟩ := issuableOutside_members h
  obtain ⟨hold, eff, hexec⟩ := hi s
  have hmem : memCheck addr n isStore constant { s with group := none } g u = some { code := code, operand := addr u } := by
    have hl' : State.launch { s with group := none } g.ctx = some l := hl
    have hcheck' : accessCheck { s with group := none } l g.core u.parent (addr u) n isStore constant = trapOf code (addr u) := hcheck
    simp only [memCheck, withLaunch, hl', hcheck', trapOf]
  exact hexec.trans (congrArg _ (issueHeld_traps (issuable_group hissue)
    (issueFault_outside hissue htids hu (hout k (by simp [htids]) u hu) hmem)))

/-! The checks of R150 in their order. -/

section
variable {s : State} {l : Launch} {core addr n : Nat} {parent : Option Nat} {isStore constant : Bool}

theorem accessCheck_misaligned (h : addr % n ≠ 0) : accessCheck s l core parent addr n isStore constant = trapOf .align addr := by
  simp [accessCheck, h]

variable (halign : addr % n = 0)
include halign

theorem accessCheck_bad (h : classOfRange addr n = .bad) : accessCheck s l core parent addr n isStore constant = trapOf .access addr := by
  simp [accessCheck, halign, h]

/-- A constant load outside global memory raises ACCESS, by whichever check of it comes first. -/
theorem accessCheck_constant (h : classOfRange addr n ≠ .global) : accessCheck s l core parent addr n isStore true = trapOf .access addr := by
  simp only [accessCheck, halign, bne_self_eq_false, Bool.false_eq_true, if_false]
  cases hc : classOfRange addr n with
  | bad => simp
  | global => exact absurd hc h
  | priv =>
    by_cases hsize : l.img.priv < addr - Config.privateBase + n
    · simp [hsize]
    · simp [hsize]
  | scratch =>
    by_cases howned : s.granulesOwned l.ctx parent (coreCluster core) addr n = true
    · simp [howned]
    · simp [howned]

theorem accessCheck_unstorable (hc : classOfRange addr n = .global)
    (h : l.readOnlyAt addr n = true ∨ l.stampedAt addr n = true ∨ l.sluiceAt addr n = true) :
    accessCheck s l core parent addr n true constant = trapOf .access addr := by
  have hany : (l.readOnlyAt addr n || l.stampedAt addr n || l.sluiceAt addr n) = true := by simpa [or_assoc] using h
  simp [accessCheck, halign, hc, hany]

theorem accessCheck_outside (hc : classOfRange addr n = .global)
    (hstore : (isStore && (l.readOnlyAt addr n || l.stampedAt addr n || l.sluiceAt addr n)) = false) (h : l.inLease addr n = false) :
    accessCheck s l core parent addr n isStore constant = trapOf .outsideLease addr := by
  simp [accessCheck, halign, hc, hstore, h]

end

/-- Settles O16: every form has the one address check, whose order is that of R150. -/
theorem addressChecks : Obligations.AddressChecks := by
  unfold Obligations.AddressChecks
  refine ⟨fun i addr n constant hi s g l k ks u hl h htids hu => ?_, fun i addr n hi s g l k ks u hl h htids hu => ?_⟩
  · have htraps := fun code => hi.checks.traps (code := code) hl h htids hu
    refine ⟨fun halign => htraps _ (accessCheck_misaligned halign), fun halign hc => htraps _ (accessCheck_bad halign hc), ?_,
      fun halign hc hout => htraps _ (accessCheck_outside halign hc (Bool.false_and _) hout)⟩
    rintro halign rfl hc
    exact htraps _ (accessCheck_constant halign hc)
  · have htraps := fun code => hi.checks.traps (code := code) hl h htids hu
    refine ⟨fun halign => htraps _ (accessCheck_misaligned halign), fun halign hc => htraps _ (accessCheck_bad halign hc),
      fun halign hc hnot => htraps _ (accessCheck_unstorable halign hc hnot), fun halign hc hread hstamped hsluice hout => ?_⟩
    exact htraps _ (accessCheck_outside halign hc (by simp [hread, hstamped, hsluice]) hout)

end Sys2Proof.Machine

end

section
/-! SUPPORT. Statements O22 and O23: atomics and reductions leave for their site. -/

namespace Sys2Proof.Machine

/-- R150, R167, R170, R172, R173, R176, R185: the conditions of `AtomicReachable` are those of the check. -/
theorem atomicCheck_reachable {s : State} {l : Launch} {core addr n scope : Nat} {parent : Option Nat} {pcieOp det : Bool}
    (h : AtomicReachable s l core parent addr n scope pcieOp det) : atomicCheck s l core parent addr n scope pcieOp det = none := by
  obtain ⟨halign, hclass, hscratch, hglobal⟩ := h
  rcases hclass with hc | hc
  · obtain ⟨hscope, hdet, howned⟩ := hscratch hc
    simp [atomicCheck, halign, hc, hdet, howned, Nat.not_le.mpr hscope]
  · obtain ⟨hreadOnly, hstamped, hsluice, hlease, houtside, hmodule⟩ := hglobal hc
    have hdet : (det && ((s.locate (coreDie core) l addr).bind (fun t => t.phys)).any (fun pa => isSystem pa || isPeer pa)) = false := by
      cases det
      · rfl
      · cases hpa : (s.locate (coreDie core) l addr).bind (fun t => t.phys) with
        | none => rfl
        | some pa => simpa using hmodule rfl pa hpa
    simp [atomicCheck, halign, hc, hreadOnly, hstamped, hsluice, hlease, houtside, hdet]

theorem withLaunch_some {α : Type} {s : State} {ctx : Nat} {dflt : α} {f : Launch → α} {l : Launch} (hl : s.launch ctx = some l) :
    withLaunch s ctx dflt f = f l := by
  rw [withLaunch, hl]

theorem orTrap_none {x y : Option TrapInfo} (hx : x = none) (hy : y = none) : orTrap x y = none := by
  rw [hx, hy, orTrap]

section
variable {i : Instr} {s : State} {g : Group} {l : Launch} {a : BitVec 6} {b : Reg} (hl : s.launch g.ctx = some l) (h : issuable i s g = true)
include hl h

theorem atomicOp_leaves {op : AmoOp} {n scope : Nat} {pcieOp : Bool} {d : Reg} (hn : 0 < n / 4)
    (hall : Members s g (fun u => AtomicReachable s l g.core u.parent (addrPair6 u a) n scope pcieOp false ∧ Settled s l (addrPair6 u a) n ∧
      (l.gated (addrPair6 u a) n = true → l.holdsToken g.wg = true)))
    (hexec : exec i s = .next (atomicOp i op n scope pcieOp d a b s)) :
    Sends i s g (perMember s g 1 (fun id u => [sentAccess s g .ord
        (.atomic op (if n = 8 then u.readPair b.toNat else (u.readW b.toNat).toNat) (if n = 8 then u.readPair d.toNat else (u.readW d.toNat).toNat))
        (addrPair6 u a) n scope (some u.nextSlot) id u]))
      (fun u v => Went i (g.pc + i.bytes) { u with results := u.results ++ [owing u 0 d.toNat (n / 4)], nextSlot := u.nextSlot + 1 } u v) := by
  have hl' : State.launch { s with group := none } g.ctx = some l := hl
  refine issueHeld_sends (φ := fun u => { u with results := u.results ++ [owing u 0 d.toNat (n / 4)], nextSlot := u.nextSlot + 1 }) h
    (fun k hk u hu => ?_) (fun k hk u hu => ?_) (fun _ _ => rfl) (fun _ _ _ => rfl) (fun _ _ => rfl) (fun _ => ⟨rfl, rfl⟩)
    (fun t k u hk ht hu hthread => ?_) hexec
  · obtain ⟨hreach, hsettled, htoken⟩ := hall k hk u hu
    have hpolder : polderCheck (fun t => addrPair6 t a) { s with group := none } g u = none := by
      simp only [polderCheck, withLaunch, hl', breachCheck_settled (s := { s with group := none }) (by omega) hsettled]
    have hcheck : atomicCheck { s with group := none } l g.core u.parent (addrPair6 u a) n scope pcieOp false = none := atomicCheck_reachable hreach
    rw [withLaunch_some hl', hcheck]
    exact orTrap_none (gateCheck_of_token htoken) hpolder
  · obtain ⟨-, -, htoken⟩ := hall k hk u hu
    rw [withLaunch_some hl', gateHold_of_token htoken]
  · obtain ⟨-, hsettled, -⟩ := hall k hk u hu
    have hsent := send_underWay (path := .ord) (op := .atomic op (if n = 8 then u.readPair b.toNat else (u.readW b.toNat).toNat)
        (if n = 8 then u.readPair d.toNat else (u.readW d.toNat).toNat)) (addr := addrPair6 u a) (size := n) (scope := scope) (d := rn d)
      (w := n / 4) (tx := none) ht hthread (fun _ => touchAtIssue_settled hl ht hsettled (Nat.le_refl _) (by omega))
    rw [if_neg hn.ne', Thread.oweWords_pos hn.ne'] at hsent
    simp only [hthread]
    exact hsent

theorem redOp_leaves {op : AmoOp} {scope : Nat} {det : Bool}
    (hall : Members s g (fun u => AtomicReachable s l g.core u.parent (addrPair6 u a) 4 scope false (det && l.img.det) ∧
      Settled s l (addrPair6 u a) 4))
    (hexec : exec i s = .next (redOp i op scope det a b s)) :
    Sends i s g (perMember s g 1 (fun id u => [sentAccess s g .ord
        (if (det && l.img.det) = true then .detRed op (u.readW b.toNat).toNat u.redSeq else .red op (u.readW b.toNat).toNat)
        (addrPair6 u a) 4 scope none id u]))
      (fun u v => Went i (g.pc + i.bytes) { u with redSeq := if (det && l.img.det) = true then u.redSeq + 1 else u.redSeq } u v) := by
  have hl' : State.launch { s with group := none } g.ctx = some l := hl
  refine issueHeld_sends (φ := fun u => { u with redSeq := if (det && l.img.det) = true then u.redSeq + 1 else u.redSeq }) h
    (fun k hk u hu => ?_) (fun _ _ _ _ => rfl) (fun _ _ => rfl) (fun _ _ _ => rfl) (fun _ _ => rfl) (fun _ => ⟨rfl, rfl⟩)
    (fun t k u hk ht hu hthread => ?_) hexec
  · obtain ⟨hreach, hsettled⟩ := hall k hk u hu
    have hcheck : atomicCheck { s with group := none } l g.core u.parent (addrPair6 u a) 4 scope false (det && l.img.det) = none :=
      atomicCheck_reachable hreach
    have hbreach : ∀ lower, breachCheck { s with group := none } l lower (addrPair6 u a) = none := breachCheck_settled (by decide) hsettled
    simp only [withLaunch, hl', hcheck, orTrap, polderCheck, hbreach]
  · obtain ⟨-, hsettled⟩ := hall k hk u hu
    have hleaves := fun op' => send_underWay (path := .ord) (op := op') (addr := addrPair6 u a) (size := 4) (scope := scope) (d := 0) (w := 0)
      (tx := none) ht hthread (fun _ => touchAtIssue_settled hl ht hsettled (Nat.le_refl _) (by omega))
    simp only [hthread, withLaunch, ht.launch, hl]
    cases hdet : (det && l.img.det) with
    | false =>
      simp only [Bool.false_eq_true, if_false]
      exact hleaves _
    | true =>
      simp only [if_true]
      obtain ⟨hsent, hthread'⟩ := hleaves (.detRed op (u.readW b.toNat).toNat u.redSeq)
      refine ⟨List.append_nil [_] ▸ hsent.trans (.nil_of_kept (Kept.modThread _ _ _ k (fun t => { t with redSeq := t.redSeq + 1 }) (fun _ => rfl) [k]
        (by simp))), ?_⟩
      refine (State.threadOf_modThread_same _ _ _ k (fun t => { t with redSeq := t.redSeq + 1 }) (fun _ => rfl)).trans ?_
      exact congrArg (Option.map _) hthread'

end

/-- The returning atomics by one operation (R168). -/
theorem exec_atomic : ∀ p ∈ atomicTable, (0 < p.2.2.1 / 4) ∧ ∀ (sw : Bool) (c : BitVec 3) (d : Reg) (a : BitVec 6) (f : Bool) (b : Reg),
    (p.1 sw c d a f b).bytes = 4 ∧
    ∀ s, exec (p.1 sw c d a f b) s = .next (atomicOp (p.1 sw c d a f b) p.2.1 p.2.2.1 c.toNat p.2.2.2 d a b s) := by
  simp only [atomicTable, List.forall_mem_cons, List.not_mem_nil, false_imp_iff, implies_true, and_true]
  refine ⟨?_, ?_, ?_, ?_, ?_, ?_, ?_, ?_, ?_, ?_, ?_, ?_, ?_, ?_, ?_, ?_⟩ <;> exact ⟨by decide, fun _ _ _ _ _ _ => ⟨rfl, fun _ => rfl⟩⟩

/-- The reductions by one operation (R173). -/
theorem exec_reduction : ∀ p ∈ reductionTable, ∀ (sw : Bool) (c : BitVec 3) (f : Bool) (a : BitVec 6) (b : Reg),
    (p.1 sw c f a b).bytes = 4 ∧ ∀ s, exec (p.1 sw c f a b) s = .next (redOp (p.1 sw c f a b) p.2 c.toNat f a b s) := by
  simp only [reductionTable, List.forall_mem_cons, List.not_mem_nil, false_imp_iff, implies_true, and_true]
  refine ⟨?_, ?_, ?_, ?_, ?_, ?_, ?_, ?_, ?_, ?_, ?_, ?_⟩ <;> exact fun _ _ _ _ _ => ⟨rfl, fun _ => rfl⟩

/-- Settles O22: the returning atomics are one operation. -/
theorem atomics : Obligations.Atomics := by
  unfold Obligations.Atomics
  intro p hp sw c d a f b s g l hl h hall
  obtain ⟨hn, hform⟩ := exec_atomic p hp
  obtain ⟨hbytes, hexec⟩ := hform sw c d a f b
  have hleaves := atomicOp_leaves (a := a) hl h hn hall (hexec s)
  rw [hbytes] at hleaves
  exact hleaves

/-- Settles O23: the reductions are one operation. -/
theorem reductions : Obligations.Reductions := by
  unfold Obligations.Reductions
  intro p hp sw c f a b s g l hl h hall
  obtain ⟨hbytes, hexec⟩ := exec_reduction p hp sw c f a b
  have hleaves := redOp_leaves (a := a) hl h hall (hexec s)
  rw [hbytes] at hleaves
  exact hleaves

end Sys2Proof.Machine

end

section
/-! SUPPORT. What performing an access changes: bytes at a home or a bank, threads' watches, and the lines of cores. -/

namespace Sys2Proof.Machine

/-! Bytes read and written. -/

theorem leBytes_length (n v : Nat) : (leBytes n v).length = n := by
  induction n generalizing v with
  | zero => rfl
  | succ n ih => simp [leBytes, ih]

/-- Bytes spell a number whose bytes they are. -/
theorem leBytes_leNat (bs : List Byte) : leBytes bs.length (leNat bs) = bs := by
  induction bs with
  | nil => rfl
  | cons b bs ih =>
    have hlow : BitVec.ofNat 8 (b.toNat + 256 * leNat bs) = b := BitVec.eq_of_toNat_eq (by simp; omega)
    have hrest : (b.toNat + 256 * leNat bs) / 256 = leNat bs := by have := b.isLt; omega
    simp only [List.length_cons, leBytes, leNat, hlow, hrest, ih]

theorem rangeFrom_length (a n : Nat) : (rangeFrom a n).length = n := by rw [rangeFrom_eq_range', List.length_range']

theorem Cells.getN_length (m : List Host.Cell) (a n : Nat) : (Cells.getN m a n).length = n := by rw [Cells.getN, List.length_map, rangeFrom_length]

theorem Cells.nth_getN {m : List Host.Cell} {a n i : Nat} (h : i < n) : nth 0 (Cells.getN m a n) i = Cells.get m (a + i) := by
  simp [nth, Cells.getN, rangeFrom_eq_range', h]

/-- Bytes of a line are those of the location in it. -/
theorem lineBytes_getN {m : List Host.Cell} {a off n size : Nat} (h : off + n ≤ size) :
    lineBytes (Cells.getN m a size) off n = Cells.getN m (a + off) n := by
  obtain ⟨r, rfl⟩ := Nat.exists_eq_add_of_le h
  rw [Nat.add_assoc]
  simp only [lineBytes, Cells.getN, rangeFrom_add, List.map_append]
  rw [List.drop_left' (by simp [rangeFrom_length]), List.take_left' (by simp [rangeFrom_length])]

theorem wordsOf_range (n v : Nat) : wordsOf n v = (List.range n).map (fun i => some (BitVec.ofNat 32 (v / 2 ^ (32 * i)))) := by
  rw [wordsOf, rangeFrom_eq_range', List.range_eq_range']

/-- A write of bytes. -/
theorem stored_putN {m : List Host.Cell} (hm : Memory.wf m = true) (key : Nat) (bs : List Byte) : Stored m (Cells.putN m key bs) key bs :=
  ⟨fun i hi => by rw [Cells.get_putN_same hm hi, nth, List.getD_eq_getElem _ _ hi], fun _ hx => Cells.get_putN_other hm hx⟩

/-- Bytes that are written as they stand need no write. -/
theorem stored_getN (m : List Host.Cell) (key n : Nat) : Stored m m key (Cells.getN m key n) :=
  ⟨fun _ hi => (Cells.nth_getN (by simpa [Cells.getN_length] using hi)).symm, fun _ _ => rfl⟩

/-! A write notes watches, and nothing else of a thread (R166). -/

@[simp] theorem Thread.noteWrite_results (lo hi : Nat) (t : Thread) : (t.noteWrite lo hi).results = t.results := by
  unfold Thread.noteWrite
  split <;> rfl

@[simp] theorem Thread.noteWrite_tid (lo hi : Nat) (t : Thread) : (t.noteWrite lo hi).tid = t.tid := by
  unfold Thread.noteWrite
  split <;> rfl

theorem Workgroup.noteWrite_thread (lo hi k : Nat) (w : Workgroup) : (w.noteWrite lo hi).thread k = (w.thread k).map (Thread.noteWrite lo hi) := by
  have hmap : ∀ ts : List Thread, (ts.map (Thread.noteWrite lo hi)).find? (fun t => t.tid == k) =
      (ts.find? (fun t => t.tid == k)).map (Thread.noteWrite lo hi) := fun ts => by
    rw [List.find?_map]
    simp only [Function.comp_def, Thread.noteWrite_tid]
  unfold Workgroup.noteWrite
  split
  · exact hmap w.threads
  · rename_i hnone
    have hsame : w.threads.map (Thread.noteWrite lo hi) = w.threads := by
      refine (List.map_congr_left (fun t ht => ?_)).trans w.threads.map_id
      have hempty : t.watches = [] := by
        by_contra hsome
        exact hnone (List.any_eq_true.mpr ⟨t, ht, by simpa using hsome⟩)
      simp only [Thread.noteWrite, hempty, id]
    have hthreads := hmap w.threads
    rw [hsame] at hthreads
    exact hthreads

theorem State.threadOf_noteWrite (s t : State) (lo hi : Nat) (h : t.wgs = s.wgs.map (Workgroup.noteWrite lo hi)) (c w k : Nat) :
    t.threadOf c w k = (s.threadOf c w k).map (Thread.noteWrite lo hi) := by
  have hkey : ∀ x : Workgroup, (x.noteWrite lo hi).ctx = x.ctx ∧ (x.noteWrite lo hi).wg = x.wg := fun x => by
    unfold Workgroup.noteWrite
    split <;> exact ⟨rfl, rfl⟩
  simp only [State.threadOf, State.wgOf, h, List.find?_map, Function.comp_def, hkey]
  cases s.wgs.find? (fun x => x.ctx == c && x.wg == w) with
  | none => rfl
  | some x => exact Workgroup.noteWrite_thread lo hi k x

theorem State.threadOf_writeHome (s : State) (key : Nat) (bs : List Byte) (c w k : Nat) :
    (s.writeHome key bs).threadOf c w k = (s.threadOf c w k).map (Thread.noteWrite key (key + (bs.length - 1))) :=
  State.threadOf_noteWrite s _ _ _ rfl c w k

theorem State.threadOf_writeBank (s : State) (core off : Nat) (bs : List Byte) (c w k : Nat) :
    (s.writeBank core off bs).threadOf c w k =
      (s.threadOf c w k).map (Thread.noteWrite (scratchKey core off) (scratchKey core off + (bs.length - 1))) :=
  State.threadOf_noteWrite s _ _ _ rfl c w k

/-! Lines of cores. -/

theorem State.victimHit_eq (s : State) (core ctx vline : Nat) : s.victimHit core ctx vline = { s with cores := (s.victimHit core ctx vline).cores } := by
  unfold State.victimHit
  split
  · exact State.modCore_eq _ _ _
  · rfl

theorem State.l1Put_eq (s : State) (core key : Nat) (bs : List Byte) : s.l1Put core key bs = { s with cores := (s.l1Put core key bs).cores } := by
  unfold State.l1Put
  split
  · rfl
  · exact State.modCore_eq _ _ _

theorem State.l1Follow_eq (s : State) (core key : Nat) (bs : List Byte) :
    s.l1Follow core key bs = { s with cores := (s.l1Follow core key bs).cores } := State.l1Put_eq _ _ _ _

/-- A victim tag that is hit leaves the L1 as it was. -/
theorem State.victimHit_l1 (s : State) (core ctx vline k : Nat) : ((s.victimHit core ctx vline).coreOf k).l1 = (s.coreOf k).l1 := by
  unfold State.victimHit
  split
  · rw [State.coreOf_modCore s core (fun c => { c with victimHits := c.victimHits + 1 }) (fun _ => rfl)]
    split
    · rename_i h
      rw [h]
    · rfl
  · rfl

/-! The L1 of a core that holds no line, in a cluster that is not fused. -/

section
variable {s : State} {core : Nat} (hfused : (s.coreOf core).fused = false) (hl1 : (s.coreOf core).l1 = [])
include hfused

theorem State.l1Core_unfused (va : Nat) : s.l1Core core va = core := by simp [State.l1Core, hfused]

include hl1

theorem State.l1Held_empty (key : Nat) : s.l1Held core key = none := by
  simp [State.l1Held, State.l1Group, hfused, hl1]

omit hfused in
theorem State.l1Find_empty (ctx vline : Nat) : (s.coreOf core).l1Find ctx vline = none := by simp [Core.l1Find, hl1]

/-- A miss with no write to wait for fetches the line from its home (R104, R105). -/
theorem State.l1Line_fetches {l : Launch} {va : Nat} {tgt : Target} (htgt : s.locateVia (coreCluster core) l va = some tgt)
    (htaken : ∀ b ∈ s.flight, b.taken = 0) :
    ∃ t y, s.l1Line core l va = some (t, y) ∧ y.bytes = s.readHome (tgt.key / 128 * 128) 128 ∧
      t = { s with cores := t.cores, tlb := t.tlb, free := t.free } := by
  have hfree : s.lineInFlight core (tgt.key / 128) = false := by
    rw [State.lineInFlight, List.any_eq_false]
    intro b hb
    simp [State.takenNear, htaken b hb]
  generalize hs1 : State.victimHit { s with tlb := s.tlbFill (coreCluster core) l va, free := s.free + 1 } core l.ctx (va / 128) = s1
  have hrest : s1 = { s with cores := s1.cores, tlb := s1.tlb, free := s1.free } := by rw [← hs1, State.victimHit_eq]
  have hset : (s1.coreOf core).l1 = [] := by rw [← hs1, State.victimHit_l1]; exact hl1
  simp only [State.l1Line, State.l1Core_unfused hfused, State.l1Find_empty hl1, htgt, State.l1Held_empty hfused hl1, hfree, Bool.false_eq_true,
    if_false, hs1]
  refine ⟨_, _, rfl, rfl, ?_⟩
  simp only [State.l1Insert, hset, List.filter_nil, List.length_nil, Nat.zero_lt_succ, if_true]
  rw [State.modCore_eq, hrest]

end

/-! An access that performs. -/

theorem Due.unblocked {s : State} {n : Nat} {a : Access} (h : Due s n a) : s.blocked a = false := by
  obtain ⟨_, _, _, hblocked, _⟩ := h
  exact hblocked

/-- No page is being moved, and the address lies in no polder region: nothing is touched (R122, R124). -/
theorem State.polderTouch_none {s : State} {l : Launch} {va : Nat} (h : NoMoves s) (hp : l.polderAt va = none) : s.polderTouch l va = .done s := by
  unfold State.polderTouch
  rw [if_neg]
  · simp only [State.polderAlloc, hp]
  · rw [List.any_eq_true]
    rintro ⟨b, hb, hmoving⟩
    cases hop : b.op with
    | move n d x => exact h b hb n d x hop
    | _ => simp [hop] at hmoving

/-- An access that has performed leaves with its answer in its slot. -/
theorem State.answer_drop (s : State) (a : Access) {slot : Nat} (hslot : a.slot = some slot) (ws : List (Option Word)) :
    (s.drop a).answer a ws = (s.drop a).modThread a.ctx a.wg a.tid (fun t => t.fillSlot slot ws) := by
  simp only [State.answer, hslot]

theorem State.threadOf_answer_drop {s : State} {a : Access} {slot : Nat} {u : Thread} (hslot : a.slot = some slot)
    (hu : s.threadOf a.ctx a.wg a.tid = some u) (ws : List (Option Word)) :
    ((s.drop a).answer a ws).threadOf a.ctx a.wg a.tid = some (u.fillSlot slot ws) := by
  rw [State.answer_drop s a hslot]
  refine (State.threadOf_modThread_same _ _ _ _ (fun t => t.fillSlot slot ws) (fun _ => rfl)).trans ?_
  exact congrArg (Option.map _) hu

theorem State.answer_eq (s : State) (a : Access) (ws : List (Option Word)) : s.answer a ws = { s with wgs := (s.answer a ws).wgs } := by
  unfold State.answer
  split <;> rfl

end Sys2Proof.Machine

end

section
/-! SUPPORT. Statement O43: loads and stores perform at their bank or home (R150, R152). -/

namespace Sys2Proof.Machine

/-- An access that may not pass an earlier one waits (R262). -/
theorem State.performId_waits {s : State} {n : Nat} {a : Access} {kind : AccOp → Bool} (hmem : a ∈ s.flight) (hid : a.id = n)
    (hone : ∀ b ∈ s.flight, b.id = n → b = a) (hblocked : s.blocked a = true) : s.performId n kind = s := by
  unfold State.performId
  cases hfind : s.flight.find? (fun x => x.id == n && kind x.op) with
  | none => rfl
  | some b =>
    have hb := List.find?_some hfind
    simp only [Bool.and_eq_true, beq_iff_eq] at hb
    obtain rfl : b = a := hone b (List.mem_of_find?_eq_some hfind) hb.1
    simp only [State.perform, hblocked, if_true]

/-! Loads. -/

section
variable {s : State} {a : Access} {signed : Bool} {words : Nat} {l : Launch} (hblocked : s.blocked a = false) (hop : a.op = .load signed words)
  (hl : s.launch a.ctx = some l)
include hblocked hop hl

theorem perform_load_bank (hc : classOf a.addr = .scratch) (hfresh : s.granulesFresh a.ctx (coreCluster a.core) a.addr a.size a.gens = true) :
    s.perform a = .done (s.loaded a signed words
      (s.readBank (scratchTarget (coreCluster a.core) a.addr).1 (scratchTarget (coreCluster a.core) a.addr).2 a.size)) := by
  simp only [State.perform, hblocked, hop, State.performLoad, hl, hc, hfresh, if_true, Bool.false_eq_true, if_false]

theorem perform_load_home {tgt : Target} (hc : classOf a.addr = .global) (hpath : a.path = .ord) (htx : a.tx = none) (hmoves : NoMoves s)
    (hpolder : l.polderAt a.addr = none) (htgt : s.locateVia (coreCluster a.core) l a.addr = some tgt) (hfused : (s.coreOf a.core).fused = false)
    (hl1 : (s.coreOf a.core).l1 = []) (htaken : ∀ b ∈ s.flight, b.taken = 0) (hline : tgt.key % 128 = a.addr % 128)
    (hinside : a.addr % 128 + a.size ≤ 128) :
    ∃ t : State, t = { s with cores := t.cores, tlb := t.tlb, free := t.free } ∧
      s.perform a = .done (t.loaded a signed words (s.readHome tgt.key a.size)) := by
  obtain ⟨t, y, hfetch, hbytes, ht⟩ := State.l1Line_fetches (l := l) hfused hl1 htgt htaken
  have hsaw : t.sawNear a = t := by
    have hnone : t.flight.filter (fun b => b.id != a.id && t.takenNear a.core b && t.meets a b) = [] := by
      rw [List.filter_eq_nil_iff]
      intro b hb
      rw [ht] at hb
      simp [State.takenNear, htaken b hb]
    rw [State.sawNear, hnone, State.follow_nil]
  have hkey : tgt.key / 128 * 128 + a.addr % 128 = tgt.key := by omega
  have hread : lineBytes y.bytes (a.addr % 128) a.size = s.readHome tgt.key a.size := by
    rw [hbytes, State.readHome, lineBytes_getN hinside, hkey, State.readHome]
  refine ⟨t, ht, ?_⟩
  simp only [State.perform, hblocked, hop, State.performLoad, hl, hc, State.polderTouch_none hmoves hpolder, htx, hpath, hfetch, hsaw, hread,
    Bool.false_eq_true, if_false]

end

/-- What a load that has its bytes leaves: its words in its slot, and nothing else. -/
theorem loaded_answers {s t : State} {n slot words : Nat} {a : Access} {signed : Bool} {u : Thread} {bs : List Byte} {ws : List (Option Word)}
    (hdue : Due s n a) (hop : a.op = .load signed words) (hslot : a.slot = some slot) (hu : s.threadOf a.ctx a.wg a.tid = some u)
    (hunsigned : signed = false → ws = (List.range words).map (fun i => some (BitVec.ofNat 32 (leNat bs / 2 ^ (32 * i)))))
    (hsigned : signed = true → ws = [some (BitVec.ofInt 32 (sextNat (leNat bs) (8 * a.size)))])
    (ht : t = { s with cores := t.cores, tlb := t.tlb, free := t.free }) (h : s.perform a = .done (t.loaded a signed words bs)) :
    ∃ t, exec (.loadPerform n) s = .next t ∧ Landed s t n ∧ t.mem = s.mem ∧ t.scratch = s.scratch ∧
      t.threadOf a.ctx a.wg a.tid = some (u.fillSlot slot ws) := by
  have hws : loadWords signed words a.size (leNat bs) = ws := by
    cases signed
    · rw [hunsigned rfl, ← wordsOf_range]
      rfl
    · exact (hsigned rfl).symm
  have ht' : t.threadOf a.ctx a.wg a.tid = some u := by
    rw [ht]
    exact hu
  refine ⟨_, congrArg Host.Outcome.next (State.performId_done hdue (by rw [hop]; rfl) h), hdue.landed ?_, ?_, ?_, ?_⟩
  · rw [State.loaded, State.answer_eq, ht]
    rfl
  · rw [State.loaded, State.answer_eq, ht]
    rfl
  · rw [State.loaded, State.answer_eq, ht]
    rfl
  · rw [State.loaded, hws]
    exact State.threadOf_answer_drop hslot ht' ws

/-! Stores. -/

section
variable {s : State} {a : Access} {v : Nat} {l : Launch} (hblocked : s.blocked a = false) (hop : a.op = .store v) (hl : s.launch a.ctx = some l)
include hblocked hop hl

theorem perform_store_bank (hc : classOf a.addr = .scratch) (hfresh : s.granulesFresh a.ctx (coreCluster a.core) a.addr a.size a.gens = true) :
    s.perform a = .done ((s.writeBank (scratchTarget (coreCluster a.core) a.addr).1 (scratchTarget (coreCluster a.core) a.addr).2
      (leBytes a.size v)).drop a) := by
  simp only [State.perform, hblocked, hop, State.performStore, hl, hc, hfresh, if_true, Bool.false_eq_true, if_false, Access.bytes]

theorem perform_store_home {tgt : Target} (hc : classOf a.addr = .global) (hmoves : NoMoves s) (hpolder : l.polderAt a.addr = none)
    (htgt : s.locateVia (coreCluster a.core) l a.addr = some tgt) (hfused : (s.coreOf a.core).fused = false)
    (hl1 : (s.coreOf a.core).l1 = []) (hhome : s.homeBlocked a = false) :
    ∃ t : State, t = { s with cores := t.cores, free := t.free } ∧ s.perform a = .done ((t.writeHome tgt.key (leBytes a.size v)).drop a) := by
  have hheld : (((s.coreOf a.core).l1Find a.ctx (a.addr / 128)).isSome || (s.l1Held a.core (tgt.key / 128)).isSome) = false := by
    rw [State.l1Find_empty hl1, State.l1Held_empty hfused hl1]
    rfl
  generalize hhit : (if a.taken == 0 then s.victimHit a.core a.ctx (a.addr / 128) else s) = s1
  have hs1 : s1 = { s with cores := s1.cores } := by
    rw [← hhit]
    split
    · exact State.victimHit_eq _ _ _ _
    · rfl
  refine ⟨{ s1 with free := s1.free + 1 }, by rw [hs1], ?_⟩
  simp only [State.perform, hblocked, hop, State.performStore, hl, hc, State.polderTouch_none hmoves hpolder, htgt, State.l1Core_unfused hfused,
    hheld, hhome, Bool.and_false, Bool.false_eq_true, if_false, Access.bytes, hhit]

end

/-- Settles O43: each performs as its operation says at its site. -/
theorem loadsAndStoresPerform : Obligations.LoadsAndStoresPerform := by
  unfold Obligations.LoadsAndStoresPerform
  refine ⟨fun s n slot words a signed l u hmem hid hone hop hslot hl hu => ⟨fun hblocked => ?_, fun bs ws hblocked hread hunsigned hsigned =>
    ⟨fun hc hfresh hbs => ?_, fun tgt hc hpath htx hmoves hpolder htgt hfused hl1 htaken hline hinside hbs => ?_⟩⟩,
    fun s n v a l hcanonical hdue hop hl => ⟨fun hc hfresh => ?_, fun tgt hc hmoves hpolder htgt hfused hl1 hhome => ?_⟩⟩
  · exact congrArg Host.Outcome.next (State.performId_waits hmem hid hone hblocked)
  · subst hbs
    exact loaded_answers ⟨hmem, hid, hone, hblocked, hread⟩ hop hslot hu hunsigned hsigned rfl (perform_load_bank hblocked hop hl hc hfresh)
  · subst hbs
    obtain ⟨t, ht, hperform⟩ :=
      perform_load_home hblocked hop hl hc hpath htx hmoves hpolder htgt hfused hl1 htaken hline hinside
    exact loaded_answers ⟨hmem, hid, hone, hblocked, hread⟩ hop hslot hu hunsigned hsigned ht hperform
  · refine ⟨_, congrArg Host.Outcome.next (State.performId_done hdue (by rw [hop]; rfl) (perform_store_bank hdue.unblocked hop hl hc hfresh)),
      hdue.landed rfl, rfl, stored_putN (State.canonical_iff.mp hcanonical).2 _ _⟩
  · obtain ⟨t, ht, hperform⟩ := perform_store_home hdue.unblocked hop hl hc hmoves hpolder htgt hfused hl1 hhome
    refine ⟨_, congrArg Host.Outcome.next (State.performId_done hdue (by rw [hop]; rfl) hperform), hdue.landed ?_, ?_, ?_⟩
    · rw [ht]
      rfl
    · rw [ht]
      rfl
    · rw [ht]
      exact stored_putN (State.canonical_iff.mp hcanonical).1 _ _

end Sys2Proof.Machine

end

section
/-! SUPPORT. Statement O44: atomics and reductions perform at their site, with the new values of Table 6 (R168, R169, R173). -/

namespace Sys2Proof.Machine

/-! At the site. -/

/-- A new value that is not written is the old one (R168). -/
theorem amoWrites_kept {op : AmoOp} {m n : Nat} (h : amoWrites op m n = false) : n = m := by
  simp only [amoWrites, Bool.or_eq_false_iff, bne_eq_false_iff_eq] at h
  exact h.1

/-- The cells of a site are those of the new value, written or not. -/
theorem stored_amo {m : List Host.Cell} (hm : Memory.wf m = true) (op : AmoOp) (key size v e : Nat) :
    Stored m (if amoWrites op (leNat (Cells.getN m key size)) (amoValue op (leNat (Cells.getN m key size)) v e) = true
        then Cells.putN m key (leBytes size (amoValue op (leNat (Cells.getN m key size)) v e)) else m)
      key (leBytes size (amoValue op (leNat (Cells.getN m key size)) v e)) := by
  split
  · exact stored_putN hm _ _
  · rename_i hkept
    have hbytes := leBytes_leNat (Cells.getN m key size)
    rw [Cells.getN_length] at hbytes
    rw [amoWrites_kept (Bool.eq_false_iff.mpr hkept), hbytes]
    exact stored_getN m key size

/-- The state after a site has executed: the new value written, or nothing. -/
structure Executed (s t : State) (a : Access) (u : Option Thread) : Prop where
  flight : t.flight = s.flight
  results : (t.threadOf a.ctx a.wg a.tid).map Thread.results = u.map Thread.results

/-- An access whose site has executed leaves, with its answer if it has a slot. -/
theorem atomic_leaves {s t : State} {n : Nat} {a : Access} {ws : List (Option Word)} {kind : AccOp → Bool} (hdue : Due s n a)
    (hkind : kind a.op = true) (ht : Executed s t a (s.threadOf a.ctx a.wg a.tid)) (h : s.perform a = .done ((t.drop a).answer a ws)) :
    ∃ r, s.performId n kind = r ∧ Landed s r n ∧ r.mem = t.mem ∧ r.scratch = t.scratch ∧ ∀ slot u, a.slot = some slot →
      s.threadOf a.ctx a.wg a.tid = some u →
      ∃ x, r.threadOf a.ctx a.wg a.tid = some x ∧ x.results = (u.fillSlot slot ws).results := by
  refine ⟨_, State.performId_done hdue hkind h, hdue.landed ?_, ?_, ?_, fun slot u hslot hu => ?_⟩
  · rw [State.answer_eq]
    show (t.drop a).flight = (s.drop a).flight
    rw [State.drop_flight, State.drop_flight, ht.flight]
  · rw [State.answer_eq]
    rfl
  · rw [State.answer_eq]
    rfl
  · have hresults := ht.results
    rw [hu] at hresults
    obtain ⟨v, hv, hsame⟩ := Option.map_eq_some_iff.mp hresults
    refine ⟨_, State.threadOf_answer_drop hslot hv ws, ?_⟩
    simp only [Thread.fillSlot, hsame]

section
variable {s : State} {a : Access} {op : AmoOp} {v e : Nat} {l : Launch} (hl : s.launch a.ctx = some l)
include hl

theorem performAtomic_bank (hc : classOf a.addr = .scratch) (hfresh : s.granulesFresh a.ctx (coreCluster a.core) a.addr a.size a.gens = true)
    {core off m : Nat} (hcore : (scratchTarget (coreCluster a.core) a.addr).1 = core) (hoff : (scratchTarget (coreCluster a.core) a.addr).2 = off)
    (hm : leNat (s.readBank core off a.size) = m) :
    s.performAtomic a op v e = .done (((if amoWrites op m (amoValue op m v e) then s.writeBank core off (leBytes a.size (amoValue op m v e))
      else s).drop a).answer a (wordsOf (a.size / 4) m)) := by
  subst hcore hoff hm
  simp only [State.performAtomic, hl, hc, hfresh, if_true, Access.bytes]

/-- A scope beyond the cluster has the home execute (R170). -/
theorem performAtomic_home {tgt : Target} {pa m : Nat} (hc : classOf a.addr = .global) (hmoves : NoMoves s) (hpolder : l.polderAt a.addr = none)
    (htgt : s.locateVia (coreCluster a.core) l a.addr = some tgt) (hpa : tgt.phys = some pa) (hpcie : isPcie pa = false) (hscope : 2 < a.scope)
    (hhome : s.homeBlocked a = false) (hmeets : s.takenMeets a = false) (hm : leNat (s.readHome tgt.key a.size) = m) :
    s.performAtomic a op v e = .done ((((if amoWrites op m (amoValue op m v e) then
        State.writeHome { s with free := s.free + 1 } tgt.key (leBytes a.size (amoValue op m v e)) else { s with free := s.free + 1 }).l1Follow
          a.core tgt.key (leBytes a.size (amoValue op m v e))).drop a).answer a (wordsOf (a.size / 4) m)) := by
  subst hm
  have hcore : (a.scope == 0) = false := by
    rw [beq_eq_false_iff_ne]
    omega
  have hcluster : decide (a.scope ≤ 2) = false := decide_eq_false (by omega)
  have hhome' : State.homeBlocked { s with free := s.free + 1 } a = false := hhome
  have hmeets' : State.takenMeets { s with free := s.free + 1 } a = false := hmeets
  simp only [State.performAtomic, hl, hc, State.polderTouch_none hmoves hpolder, htgt, hcore, hcluster, hhome', hmeets', hpa, Option.any_some, hpcie,
    Bool.or_self, Bool.false_and, Bool.false_eq_true, if_false, Access.bytes]
  rfl

end

theorem executed_bank (s : State) (a : Access) (core off : Nat) (bs : List Byte) (b : Bool) :
    Executed s (if b = true then s.writeBank core off bs else s) a (s.threadOf a.ctx a.wg a.tid) := by
  cases b
  · exact ⟨rfl, rfl⟩
  · refine ⟨rfl, ?_⟩
    rw [if_pos rfl, State.threadOf_writeBank, Option.map_map]
    exact congrArg (fun f => (s.threadOf a.ctx a.wg a.tid).map f) (funext (fun t => t.noteWrite_results _ _))

theorem executed_home (s : State) (a : Access) (core key : Nat) (bs : List Byte) (b : Bool) :
    Executed s ((if b = true then State.writeHome { s with free := s.free + 1 } key bs else { s with free := s.free + 1 }).l1Follow core key bs) a
      (s.threadOf a.ctx a.wg a.tid) := by
  cases b
  · rw [if_neg Bool.false_ne_true, State.l1Follow_eq]
    exact ⟨rfl, rfl⟩
  · rw [if_pos rfl, State.l1Follow_eq]
    refine ⟨rfl, ?_⟩
    refine (congrArg (Option.map Thread.results) (State.threadOf_writeHome { s with free := s.free + 1 } key bs a.ctx a.wg a.tid)).trans ?_
    rw [Option.map_map]
    exact congrArg (fun f => (s.threadOf a.ctx a.wg a.tid).map f) (funext (fun t => t.noteWrite_results _ _))

/-! One execution at either site. -/

section
variable {s : State} {n : Nat} {a : Access} {op : AmoOp} {v e m : Nat} {l : Launch} {kind : AccOp → Bool} (hcanonical : s.canonical = true)
  (hdue : Due s n a) (hkind : kind a.op = true) (hop : s.perform a = s.performAtomic a op v e) (hl : s.launch a.ctx = some l)
include hcanonical hdue hkind hop hl

theorem atomic_at_bank {core off : Nat} (hcore : (scratchTarget (coreCluster a.core) a.addr).1 = core)
    (hoff : (scratchTarget (coreCluster a.core) a.addr).2 = off) (hc : classOf a.addr = .scratch)
    (hfresh : s.granulesFresh a.ctx (coreCluster a.core) a.addr a.size a.gens = true) (hm : m = leNat (s.readBank core off a.size)) :
    ∃ t, s.performId n kind = t ∧ Landed s t n ∧ t.mem = s.mem ∧
      Stored s.scratch t.scratch (core * Config.scratchPerCore + off) (leBytes a.size (amoValue op m v e)) ∧
      ∀ slot u, a.slot = some slot → s.threadOf a.ctx a.wg a.tid = some u → ∃ x, t.threadOf a.ctx a.wg a.tid = some x ∧
        x.results = (u.fillSlot slot (wordsOf (a.size / 4) m)).results := by
  obtain ⟨t, hperform, hlanded, hmem, hscratch, hthread⟩ := atomic_leaves hdue hkind (executed_bank s a core off _ _)
    (hop.trans (performAtomic_bank hl hc hfresh hcore hoff hm.symm))
  refine ⟨t, hperform, hlanded, ?_, ?_, hthread⟩
  · rw [hmem]
    split <;> rfl
  · subst hm
    rw [hscratch, apply_ite State.scratch]
    exact stored_amo (State.canonical_iff.mp hcanonical).2 op _ _ v e

theorem atomic_at_home {tgt : Target} {pa : Nat} (hc : classOf a.addr = .global) (hmoves : NoMoves s) (hpolder : l.polderAt a.addr = none)
    (htgt : s.locateVia (coreCluster a.core) l a.addr = some tgt) (hpa : tgt.phys = some pa) (hpcie : isPcie pa = false) (hscope : 2 < a.scope)
    (hhome : s.homeBlocked a = false) (hmeets : s.takenMeets a = false) (hm : m = leNat (s.readHome tgt.key a.size)) :
    ∃ t, s.performId n kind = t ∧ Landed s t n ∧ t.scratch = s.scratch ∧ Stored s.mem t.mem tgt.key (leBytes a.size (amoValue op m v e)) ∧
      ∀ slot u, a.slot = some slot → s.threadOf a.ctx a.wg a.tid = some u → ∃ x, t.threadOf a.ctx a.wg a.tid = some x ∧
        x.results = (u.fillSlot slot (wordsOf (a.size / 4) m)).results := by
  obtain ⟨t, hperform, hlanded, hmem, hscratch, hthread⟩ := atomic_leaves hdue hkind (executed_home s a a.core tgt.key _ _)
    (hop.trans (performAtomic_home hl hc hmoves hpolder htgt hpa hpcie hscope hhome hmeets hm.symm))
  refine ⟨t, hperform, hlanded, ?_, ?_, hthread⟩
  · rw [hscratch, State.l1Follow_eq]
    split <;> rfl
  · subst hm
    have hsite : ∀ (b : Bool) (bs : List Byte), (State.l1Follow (if b = true then State.writeHome { s with free := s.free + 1 } tgt.key bs
        else { s with free := s.free + 1 }) a.core tgt.key bs).mem = if b = true then Cells.putN s.mem tgt.key bs else s.mem := by
      intro b bs
      rw [State.l1Follow_eq]
      cases b <;> rfl
    rw [hmem, hsite]
    exact stored_amo (State.canonical_iff.mp hcanonical).1 op _ _ v e

end

/-! The new values of Table 6. -/

theorem sextNat_toInt (x : Word) : sextNat x.toNat 32 = x.toInt := by
  have := x.isLt
  simp only [sextNat, BitVec.toInt]
  split <;> split <;> omega

/-- The operations on words. -/
theorem amoValue_word (m v e : Word) : ∀ p ∈ ([(.add, m + v), (.and, m &&& v), (.or, m ||| v), (.xor, m ^^^ v), (.xchg, v),
      (.min, if v.toInt < m.toInt then v else m), (.max, if m.toInt < v.toInt then v else m), (.minu, if v.toNat < m.toNat then v else m),
      (.maxu, if m.toNat < v.toNat then v else m), (.casW, if m = e then v else m)] : List (AmoOp × Word)),
    amoValue p.1 m.toNat v.toNat e.toNat = p.2.toNat := by
  simp only [List.forall_mem_cons, List.not_mem_nil, false_imp_iff, implies_true, and_true, amoValue, sextNat_toInt, apply_ite BitVec.toNat,
    BitVec.toNat_add, BitVec.toNat_and, BitVec.toNat_or, BitVec.toNat_xor, ← BitVec.toNat_inj]

/-- The operations on pairs. -/
theorem amoValue_pair (m v e : DWord) : ∀ p ∈ ([(.add64, m + v), (.gts, if m.toNat < v.toNat then v else m), (.casD, if m = e then v else m),
      (.vcas, if m.toNat / 2 ^ 48 = e.toNat / 2 ^ 48 then v else m),
      (.tcas, if m = e then BitVec.ofNat 64 (v.toNat % 2 ^ 48 + (m.toNat / 2 ^ 48 + 1) % 2 ^ 16 * 2 ^ 48) else m)] : List (AmoOp × DWord)),
    amoValue p.1 m.toNat v.toNat e.toNat = p.2.toNat := by
  have hgen : ∀ x : DWord, bits x.toNat 63 48 = x.toNat / 2 ^ 48 := fun x => by
    have := x.isLt
    simp only [bits]
    omega
  have htag : bits v.toNat 47 0 + (m.toNat / 2 ^ 48 + 1) % 2 ^ 16 * 2 ^ 48 =
      (BitVec.ofNat 64 (v.toNat % 2 ^ 48 + (m.toNat / 2 ^ 48 + 1) % 2 ^ 16 * 2 ^ 48)).toNat := by
    rw [BitVec.toNat_ofNat]
    simp only [bits]
    omega
  simp only [List.forall_mem_cons, List.not_mem_nil, false_imp_iff, implies_true, and_true, amoValue, hgen, htag, apply_ite BitVec.toNat,
    BitVec.toNat_add, ← BitVec.toNat_inj]

/-- Settles O44: an atomic and a reduction execute alike at their site; only the atomic has an answer. -/
theorem atomicsPerform : Obligations.AtomicsPerform := by
  unfold Obligations.AtomicsPerform
  refine ⟨fun s n slot a op v e m l u hcanonical hdue hop hslot hl hu => ?_, fun s n a op v m l hcanonical hdue hop hslot hl => ?_,
    amoValue_word, amoValue_pair⟩
  · have hperform : s.perform a = s.performAtomic a op v e := by
      simp only [State.perform, hdue.unblocked, hop, Bool.false_eq_true, if_false]
    refine ⟨fun hc hfresh hm => ?_, fun tgt pa hc hmoves hpolder htgt hpa hpcie hscope hhome hmeets hm => ?_⟩
    · obtain ⟨t, ht, hlanded, hmem, hstored, hthread⟩ := atomic_at_bank (kind := fun o => match o with | .atomic _ _ _ => true | _ => false)
        hcanonical hdue (by rw [hop]) hperform hl rfl rfl hc hfresh hm
      obtain ⟨x, hx, hresults⟩ := hthread slot u hslot hu
      rw [wordsOf_range] at hresults
      exact ⟨t, x, congrArg Host.Outcome.next ht, hlanded, hmem, hx, hresults, hstored⟩
    · obtain ⟨t, ht, hlanded, hscratch, hstored, hthread⟩ := atomic_at_home (kind := fun o => match o with | .atomic _ _ _ => true | _ => false)
        hcanonical hdue (by rw [hop]) hperform hl hc hmoves hpolder htgt hpa hpcie hscope hhome hmeets hm
      obtain ⟨x, hx, hresults⟩ := hthread slot u hslot hu
      rw [wordsOf_range] at hresults
      exact ⟨t, x, congrArg Host.Outcome.next ht, hlanded, hscratch, hx, hresults, hstored⟩
  · have hperform : s.perform a = s.performAtomic a op v 0 := by
      simp only [State.perform, hdue.unblocked, hop, Bool.false_eq_true, if_false]
    refine ⟨fun hc hfresh hm => ?_, fun tgt pa hc hmoves hpolder htgt hpa hpcie hscope hhome hmeets hm => ?_⟩
    · obtain ⟨t, ht, hlanded, hmem, hstored, -⟩ := atomic_at_bank (kind := fun o => match o with | .red _ _ => true | _ => false)
        hcanonical hdue (by rw [hop]) hperform hl rfl rfl hc hfresh hm
      exact ⟨t, congrArg Host.Outcome.next ht, hlanded, hmem, hstored⟩
    · obtain ⟨t, ht, hlanded, hscratch, hstored, -⟩ := atomic_at_home (kind := fun o => match o with | .red _ _ => true | _ => false)
        hcanonical hdue (by rw [hop]) hperform hl hc hmoves hpolder htgt hpa hpcie hscope hhome hmeets hm
      exact ⟨t, congrArg Host.Outcome.next ht, hlanded, hscratch, hstored⟩

end Sys2Proof.Machine

end

section
/-! SUPPORT. Statement O25: stamped accesses at issue, STAMP_ARRIVAL and the waterlines. -/

namespace Sys2Proof.Machine

/-! The checks of a stamped access, in their order (R186, R189, R190). -/

section
variable {s : State} {g : Group} {l : Launch} {addr n : Nat}

theorem widenCheck_passes {core : Nat} (h : s.intervalWidth core ≤ (s.die (coreDie core)).tol.toNat) : widenCheck s core = none :=
  if_neg (Nat.not_lt.mpr h)

theorem widenCheck_fails {core : Nat} (h : (s.die (coreDie core)).tol.toNat < s.intervalWidth core) :
    widenCheck s core = trapOf .widen (min (s.intervalWidth core) (2 ^ 32 - 1)) := by
  rw [← sat32_eq_min]
  exact if_pos h

theorem stampCheck_misaligned (h : addr % n ≠ 0) : stampCheck s g addr n = trapOf .align addr := by
  simp [stampCheck, h]

variable (hl : s.launch g.ctx = some l)
include hl

theorem stampCheck_outside (halign : addr % n = 0) (h : ∀ r, l.regionOf addr n = some r → r.kind ≠ 3) :
    stampCheck s g addr n = trapOf .access addr := by
  cases hr : l.regionOf addr n with
  | none => simp [stampCheck, halign, withLaunch, hl, hr]
  | some r => simp [stampCheck, halign, withLaunch, hl, hr, h r hr]

theorem stampCheck_stamped (h : StampedAt l addr n) : stampCheck s g addr n = widenCheck s g.core := by
  obtain ⟨halign, r, hr, hkind⟩ := h
  simp [stampCheck, halign, withLaunch, hl, hr, hkind]

end

/-! Stamped stores. -/

/-- The result of a stamped store: its stamp (R186). -/
def Thread.stampOwed (u : Thread) (d stamp : Nat) : Thread := { u with
  results := u.results ++ [.mk u.nextSlot [u.phys d, u.phys (d + 1)] (some ((pairWords stamp).map some))], nextSlot := u.nextSlot + 1 }

theorem Thread.addResult_stamp (u : Thread) (d stamp : Nat) : u.addResult (u.dests d 2) (some (wordsOf 2 stamp)) = u.stampOwed d stamp := by
  have hwords : wordsOf 2 stamp = (pairWords stamp).map some := by simp [wordsOf, rangeFrom, pairWords]
  rw [hwords]
  rfl

theorem stampOp_leaves {i : Instr} {s : State} {g : Group} {l : Launch} {a d : Reg} {n : Nat} {v : Thread → Nat} (hl : s.launch g.ctx = some l)
    (h : issuable i s g = true) (hwidth : s.intervalWidth g.core ≤ (s.die (coreDie g.core)).tol.toNat)
    (hv : ∀ u pc, v { u with pc := pc, holdPc := none } = v u)
    (hall : Members s g (fun u => StampedAt l (u.readPair a.toNat) n ∧ (l.gated (u.readPair a.toNat) n = true → l.holdsToken g.wg = true)))
    (hexec : exec i s = .next (stampOp i d a n v s)) :
    Sends i s g (perMember s g 1 (fun id u => [sentAccess s g .ord (.stamped (v u) (s.interval (coreDie g.core)).2) (u.readPair a.toNat) n 4 none id u]))
      (fun u w => Went i (g.pc + i.bytes) (u.stampOwed d.toNat (s.interval (coreDie g.core)).2) u w) := by
  have hl' : State.launch { s with group := none } g.ctx = some l := hl
  refine issueHeld_sends (φ := fun u => u.stampOwed d.toNat (s.interval (coreDie g.core)).2) h (fun k hk u hu => ?_) (fun k hk u hu => ?_)
    (fun _ _ => rfl) (fun id u pc => by rw [hv]; rfl) (fun _ _ => rfl) (fun _ => ⟨rfl, rfl⟩) (fun t k u hk ht hu hthread => ?_) hexec
  · obtain ⟨hstamped, htoken⟩ := hall k hk u hu
    have hcheck : stampCheck { s with group := none } g (u.readPair (rn a)) n = none :=
      (stampCheck_stamped hl' hstamped).trans (widenCheck_passes hwidth)
    rw [hcheck]
    exact (withLaunch_some hl').trans (gateCheck_of_token htoken)
  · obtain ⟨-, htoken⟩ := hall k hk u hu
    exact (withLaunch_some hl').trans (gateHold_of_token htoken)
  · obtain ⟨hsent, hthread'⟩ := send_underWay (path := .ord) (op := .stamped (v u) (s.interval (coreDie g.core)).2) (addr := u.readPair a.toNat)
      (size := n) (scope := 4) (d := 0) (w := 0) (tx := none) ht hthread (by simp [AccOp.touches])
    simp only [hthread, hv, ht.interval]
    refine ⟨List.append_nil [_] ▸ hsent.trans (.nil_of_kept (Kept.modThread _ _ _ k
      (fun t => t.addResult (t.dests (rn d) 2) (some (wordsOf 2 (s.interval (coreDie g.core)).2))) (fun _ => rfl) [k] (by simp))), ?_⟩
    refine (State.threadOf_modThread_same _ _ _ k (fun t => t.addResult (t.dests (rn d) 2) (some (wordsOf 2 (s.interval (coreDie g.core)).2)))
      (fun _ => rfl)).trans ?_
    refine (congrArg (Option.map _) hthread').trans ?_
    exact congrArg some (Thread.addResult_stamp _ _ _)

/-- LDAS sends its read as of the time of its pair b (R189). -/
theorem ldas_leaves {sw : Bool} {d a b : Reg} {s : State} {g : Group} {l : Launch} (hl : s.launch g.ctx = some l)
    (h : issuable (.ldas sw d a b) s g = true) (hwidth : s.intervalWidth g.core ≤ (s.die (coreDie g.core)).tol.toNat)
    (hall : Members s g (fun u => StampedAt l (u.readPair a.toNat) 4)) :
    Sends (.ldas sw d a b) s g
      (perMember s g 1 (fun id u => [sentAccess s g .ord (.asOf (u.readPair b.toNat)) (u.readPair a.toNat) 4 0 (some u.nextSlot) id u]))
      (fun u v => Went (.ldas sw d a b) (g.pc + 4) { u with results := u.results ++ [owing u 0 d.toNat 2], nextSlot := u.nextSlot + 1 } u v) := by
  refine issueHeld_sends (i := .ldas sw d a b) (chk := fun s g t => stampCheck s g (t.readPair (rn a)) 4)
    (φ := fun u => { u with results := u.results ++ [owing u 0 d.toNat 2], nextSlot := u.nextSlot + 1 }) h (fun k hk u hu => ?_)
    (fun _ _ _ _ => rfl) (fun _ _ => rfl) (fun _ _ _ => rfl) (fun _ _ => rfl) (fun _ => ⟨rfl, rfl⟩) (fun t k u hk ht hu hthread => ?_) rfl
  · exact (stampCheck_stamped (s := { s with group := none }) hl (hall k hk u hu)).trans (widenCheck_passes hwidth)
  · have hsent := send_underWay (path := .ord) (op := .asOf (u.readPair b.toNat)) (addr := u.readPair a.toNat) (size := 4) (scope := 0) (d := rn d)
      (w := 2) (tx := none) ht hthread (by simp [AccOp.touches])
    rw [if_neg (by decide), Thread.oweWords_pos (by decide)] at hsent
    simp only [hthread]
    exact hsent

/-- A wait for a time sleeps where the interval is no wider than %tol, and raises WIDEN where it is (R188, R190). -/
theorem cwait_sleeps {sw : Bool} {d a : Reg} {s : State} {g : Group} (h : issuable (.cwait sw d a) s g = true)
    (hwidth : s.intervalWidth g.core ≤ (s.die (coreDie g.core)).tol.toNat) :
    Performs (.cwait sw d a) s g (fun u v =>
      Sleeps (.cwait sw d a) (.cwait (u.readPair a.toNat)) (waitLimit s g) (s.dieTime (coreDie g.core)) (g.pc + 4) (some d.toNat) u v) :=
  issue_sleeps (chk := fun s g _ => widenCheck s g.core) (w := fun u => .cwait (u.readPair a.toNat)) h
    (fun _ _ _ _ => widenCheck_passes (s := { s with group := none }) hwidth) (fun _ _ => rfl) rfl

/-- The stamped instructions check their address alike. -/
theorem stamped_checks : ∀ p ∈ ([(.stst, 4), (.ststd, 8), (.ldas, 4)] : List ((Bool → Reg → Reg → Reg → Instr) × Nat)), ∀ (sw : Bool) (d a b : Reg),
    txAllowed (p.1 sw d a b) = false ∧ ∀ s, ∃ chk hold eff, exec (p.1 sw d a b) s = .next (issueHeld (p.1 sw d a b) chk hold eff s) ∧
      ∀ t g u x, stampCheck t g (u.readPair (rn a)) p.2 = some x → chk t g u = some x := by
  have hstore : ∀ (n : Nat) (a : Reg) (t : State) (g : Group) (u : Thread) (x : TrapInfo), stampCheck t g (u.readPair (rn a)) n = some x →
      (match stampCheck t g (u.readPair (rn a)) n with
        | some x => some x
        | none => withLaunch t g.ctx none (fun l => gateCheck l g.wg (u.readPair (rn a)) n)) = some x := by
    intro n a t g u x hx
    rw [hx]
  simp only [List.forall_mem_cons, List.not_mem_nil, false_imp_iff, implies_true, and_true]
  exact ⟨fun sw d a b => ⟨rfl, fun s => ⟨_, _, _, rfl, hstore 4 a⟩⟩, fun sw d a b => ⟨rfl, fun s => ⟨_, _, _, rfl, hstore 8 a⟩⟩,
    fun sw d a b => ⟨rfl, fun s => ⟨_, _, _, rfl, fun t g u x hx => hx⟩⟩⟩

/-! At the home (R187, R273). -/

/-- A line none of whose stores is due stays as it is. -/
theorem State.commitLine_none {s : State} {k : StampLine} (h : ∀ x ∈ k.pending ++ k.waiting, s.waterline k.die k.slice x.firstDie ≤ x.stamp) :
    s.commitLine k = s := by
  have hnone : (k.pending ++ k.waiting).filter (fun x => decide (x.stamp < s.waterline k.die k.slice x.firstDie)) = [] := by
    rw [List.filter_eq_nil_iff]
    intro x hx
    have := h x hx
    simp only [decide_eq_true_eq]
    omega
  simp only [State.commitLine, hnone, sortBy, List.foldl_nil, List.isEmpty_nil, if_true]

/-- A slice with no store due, its one line having none, stays as it is. -/
theorem State.commitSlice_none {s : State} {k : StampLine} {die slice : Nat} (hk : s.stampLines = [k])
    (h : ∀ x ∈ k.pending ++ k.waiting, s.waterline k.die k.slice x.firstDie ≤ x.stamp) : s.commitSlice die slice = s := by
  unfold State.commitSlice
  rw [hk, List.filter_singleton]
  cases k.die == die && k.slice == slice
  · rfl
  · exact State.commitLine_none h

/-- The state with a stamped store placed at its home line. -/
theorem stampArrival_first {s : State} {n v stamp : Nat} {a : Access} {l : Launch} {tgt : Target} {x : Machine.Stamped} (hdue : Due s n a)
    (hop : a.op = .stamped v stamp) (hl : s.launch a.ctx = some l) (htgt : s.locateVia (coreCluster a.core) l a.addr = some tgt)
    (hx : x = .mk tgt.key v a.size stamp (coreDie a.core) a.core (a.tid % 32) a.id l.lineId l.spansPod)
    (hlow : s.waterline (s.homeOf (coreDie a.core) l tgt).1 (s.homeOf (coreDie a.core) l tgt).2 l.lineId ≤ stamp) (hnone : s.stampLines = []) :
    ∃ t, exec (.stampArrival n) s = .next t ∧ Landed s t n ∧ t.mem = s.mem ∧
      t.stampLines = [.mk (tgt.key / 128) (s.homeOf (coreDie a.core) l tgt).1 (s.homeOf (coreDie a.core) l tgt).2 [x] []
        [(0, s.readHome (tgt.key / 128 * 128) 128)]] := by
  generalize hhome : s.homeOf (coreDie a.core) l tgt = home at hlow ⊢
  have hperform : s.perform a = .done { s.drop a with free := s.free + 1, stampLines := [.mk (tgt.key / 128) home.1 home.2 [x] []
      [(0, s.readHome (tgt.key / 128 * 128) 128)]] } := by
    simp only [State.perform, hdue.unblocked, hop, State.performStamped, hl, htgt, hhome, hnone, State.drop, ← hx, List.any_nil, List.nil_append,
      Bool.false_eq_true, if_false]
    congr 1
    refine State.commitSlice_none rfl (fun y hy => ?_)
    obtain rfl : y = x := by simpa using hy
    rw [hx]
    exact hlow
  refine ⟨_, congrArg Host.Outcome.next (State.performId_done hdue (by rw [hop]) hperform), hdue.landed rfl, rfl, rfl⟩

/-- A fifth store waits (R187). -/
theorem stampArrival_waits {s : State} {n v stamp : Nat} {a : Access} {l : Launch} {tgt : Target} {x : Machine.Stamped} {k : StampLine}
    (hdue : Due s n a) (hop : a.op = .stamped v stamp) (hl : s.launch a.ctx = some l)
    (htgt : s.locateVia (coreCluster a.core) l a.addr = some tgt)
    (hx : x = .mk tgt.key v a.size stamp (coreDie a.core) a.core (a.tid % 32) a.id l.lineId l.spansPod) (hk : s.stampLines = [k])
    (hline : k.line = tgt.key / 128) (hfull : 4 ≤ k.pending.length)
    (hlow : ∀ y ∈ k.pending ++ k.waiting, s.waterline k.die k.slice y.firstDie ≤ y.stamp) (hlow' : s.waterline k.die k.slice l.lineId ≤ stamp) :
    ∃ t, exec (.stampArrival n) s = .next t ∧ Landed s t n ∧ t.mem = s.mem ∧ t.stampLines = [{ k with waiting := k.waiting ++ [x] }] := by
  have hmine : (k.line == tgt.key / 128) = true := beq_iff_eq.mpr hline
  have hroom : (decide (k.pending.length < 4) && k.waiting.isEmpty) = false := by simp [Nat.not_lt.mpr hfull]
  have hperform : s.perform a = .done { s.drop a with free := s.free + 1, stampLines := [{ k with waiting := k.waiting ++ [x] }] } := by
    simp only [State.perform, hdue.unblocked, hop, State.performStamped, hl, htgt, hk, State.drop, ← hx, List.any_cons, List.any_nil, hmine,
      Bool.true_or, List.map_cons, List.map_nil, hroom, Bool.false_eq_true, if_false, if_true]
    congr 1
    refine State.commitSlice_none rfl (fun y hy => ?_)
    rw [← List.append_assoc, List.mem_append, List.mem_singleton] at hy
    rcases hy with hy | rfl
    · exact hlow y hy
    · rw [hx]
      exact hlow'
  exact ⟨_, congrArg Host.Outcome.next (State.performId_done hdue (by rw [hop]) hperform), hdue.landed rfl, rfl, rfl⟩

/-! Waterlines. -/

theorem minBy_le_default {α : Type} (f : α → Nat) (d : Nat) (l : List α) : minBy f d l ≤ d := by
  unfold minBy
  induction l generalizing d with
  | nil => exact Nat.le_refl d
  | cons x xs ih =>
    rw [List.foldl_cons]
    refine (ih _).trans ?_
    split <;> omega

/-- The least value is no more than any. -/
theorem minBy_le {α : Type} {f : α → Nat} {x : α} {l : List α} (hx : x ∈ l) (d : Nat) : minBy f d l ≤ f x := by
  induction l generalizing d with
  | nil => simp at hx
  | cons y ys ih =>
    have hstep : minBy f d (y :: ys) = minBy f (if f y < d then f y else d) ys := rfl
    rw [hstep]
    rcases List.mem_cons.mp hx with rfl | hx
    · refine (minBy_le_default f _ ys).trans ?_
      split <;> omega
    · exact ih hx _

theorem waterlineForm_recent {s : State} {first : Nat} (h : ∃ f ∈ s.formedLines, f.1 = first ∧ s.now < f.2.2 + 50) :
    exec (.waterlineForm first) s = .next s := by
  obtain ⟨f, hf, hfirst, hnow⟩ := h
  have hrecent : s.formedLines.any (fun f => f.1 == first && decide (s.now < f.2.2 + 50)) = true :=
    List.any_eq_true.mpr ⟨f, hf, by simp [hfirst, hnow]⟩
  refine congrArg Host.Outcome.next ?_
  simp only [State.formLine, hrecent, Bool.or_true, if_true]

theorem waterlineForm_forms {s : State} {first : Nat} (hdies : s.lineDies first ≠ []) (h : ∀ f ∈ s.formedLines, f.1 = first → f.2.2 + 50 ≤ s.now) :
    ∃ t, exec (.waterlineForm first) s = .next t ∧ t.mem = s.mem ∧ t.stampLines = s.stampLines ∧ t.waterlines = s.waterlines ∧
      s.formed first ≤ t.formed first ∧ ∀ d ∈ s.lineDies first, t.formed first ≤ max (s.formed first) (s.contribution d) := by
  have hrecent : s.formedLines.any (fun f => f.1 == first && decide (s.now < f.2.2 + 50)) = false := by
    rw [List.any_eq_false]
    intro f hf
    by_cases hfirst : f.1 = first
    · have := h f hf hfirst
      simp [this]
    · simp [hfirst]
  have hsome : (s.lineDies first).isEmpty = false := by simpa [List.isEmpty_eq_false_iff] using hdies
  have hform : ∃ t, s.formLine first = t ∧ t.mem = s.mem ∧ t.stampLines = s.stampLines ∧ t.waterlines = s.waterlines ∧
      t.formed first = max (s.formed first) (min (minBy (fun d => s.contribution d) s.now (s.lineDies first))
        (s.podOthers first (minBy (fun d => s.contribution d) s.now (s.lineDies first)))) := by
    simp only [State.formLine, hrecent, hsome, Bool.or_self, Bool.false_eq_true, if_false]
    exact ⟨_, rfl, rfl, rfl, rfl, by simp only [State.formed, List.find?_cons, beq_self_eq_true, Option.map_some, Option.getD_some]⟩
  obtain ⟨t, ht, hmem, hlines, hwaterlines, hformed⟩ := hform
  refine ⟨t, congrArg Host.Outcome.next ht, hmem, hlines, hwaterlines, ?_, fun d hd => ?_⟩
  · rw [hformed]
    exact Nat.le_max_left _ _
  · rw [hformed]
    have hleast := minBy_le (f := fun d => s.contribution d) hd s.now
    omega

/-- The held waterlines once a slice's has been raised to a value formed. -/
def State.raisedLines (s : State) (die slice : Nat) (f : Nat × Nat × Nat) : List Waterline :=
  insertBy waterlineLe { die := die, slice := slice, firstDie := f.1, value := Nat.max (s.waterline die slice f.1) f.2.1 }
    (s.waterlines.filter (fun w => !(w.die == die && w.slice == slice && w.firstDie == f.1)))

/-- A line whose one pending store has committed, with the line's bytes as its newest version. -/
def StampLine.committed (k : StampLine) (stamp : Nat) (bytes : List Byte) (older : List (Nat × List Byte)) : StampLine :=
  { k with pending := [], versions := (stamp, bytes) :: older }

section
variable {s : State} {die slice : Nat} {f : Nat × Nat × Nat} (hf : s.formedLines = [f]) (hdie : (s.partDies f.1).contains die = true)
include hf hdie

/-- A delivery sets the slice's waterline, and commits what it exceeds. -/
theorem deliverLine_sets : ∃ p : State, p = { s with waterlines := p.waterlines } ∧ s.deliverLine die slice = p.commitSlice die slice ∧
    p.waterline die slice f.1 = max (s.waterline die slice f.1) f.2.1 := by
  have hmine : s.formedLines.filter (fun f => f.1 == 99 || (s.partDies f.1).contains die) = [f] := by
    rw [hf, List.filter_singleton, hdie, Bool.or_true, cond_true]
  refine ⟨{ s with waterlines := s.raisedLines die slice f }, rfl, ?_, ?_⟩
  · simp only [State.deliverLine, hmine, List.foldl_cons, List.foldl_nil]
    rfl
  · have hfind : (s.raisedLines die slice f).find? (fun w => w.die == die && w.slice == slice && w.firstDie == f.1) =
        some { die := die, slice := slice, firstDie := f.1, value := Nat.max (s.waterline die slice f.1) f.2.1 } := by
      refine find_insertBy (by simp) (fun y hy => ?_)
      have hother := (List.mem_filter.mp hy).2
      rwa [Bool.not_eq_true'] at hother
    simp only [State.waterline, hfind, Option.map_some, Option.getD_some]

theorem waterlineDelivery_idle (hnone : ∀ k ∈ s.stampLines, ¬(k.die = die ∧ k.slice = slice)) :
    ∃ t, exec (.waterlineDelivery die slice) s = .next t ∧ t = { s with waterlines := t.waterlines } ∧
      t.waterline die slice f.1 = max (s.waterline die slice f.1) f.2.1 := by
  obtain ⟨p, hp, hdeliver, hwaterline⟩ := deliverLine_sets (slice := slice) hf hdie
  have hidle : p.commitSlice die slice = p := by
    have hlines : p.stampLines = s.stampLines := by rw [hp]
    have hfilter : p.stampLines.filter (fun k => k.die == die && k.slice == slice) = [] := by
      rw [hlines, List.filter_eq_nil_iff]
      intro k hk
      simpa using hnone k hk
    rw [State.commitSlice, hfilter, List.foldl_nil]
  exact ⟨p, congrArg Host.Outcome.next (hdeliver.trans hidle), hp, hwaterline⟩

/-- The one store pending in the slice commits where the waterline exceeds its stamp. -/
theorem waterlineDelivery_commits {k : StampLine} {x : Machine.Stamped} (hcanonical : s.canonical = true) (hk : s.stampLines = [k])
    (hkdie : k.die = die) (hkslice : k.slice = slice) (hpending : k.pending = [x]) (hwaiting : k.waiting = []) (hfirst : x.firstDie = f.1)
    (hstamp : x.stamp < f.2.1) :
    ∃ t, exec (.waterlineDelivery die slice) s = .next t ∧ t.scratch = s.scratch ∧ Stored s.mem t.mem x.key (leBytes x.size x.value) ∧
      ∃ vs, t.stampLines = [{ k with pending := [], versions := (x.stamp, t.readHome (x.key / 128 * 128) 128) :: vs }] := by
  obtain ⟨p, hp, hdeliver, hwaterline⟩ := deliverLine_sets (slice := slice) hf hdie
  have hlines : p.stampLines = [k] := by rw [hp]; exact hk
  have hmem : p.mem = s.mem := by rw [hp]
  have hscratch : p.scratch = s.scratch := by rw [hp]
  have hdue : decide (x.stamp < p.waterline k.die k.slice x.firstDie) = true := by
    rw [hkdie, hkslice, hfirst, hwaterline, decide_eq_true_eq]
    omega
  have hcommit : p.commitSlice die slice = p.commitLine k := by
    rw [State.commitSlice, hlines, List.filter_singleton, hkdie, hkslice, beq_self_eq_true, beq_self_eq_true, Bool.and_self, cond_true]
    rfl
  obtain ⟨vs, hversions⟩ : ∃ vs, commitStamps p k.versions [x] =
      (p.writeHome x.key (leBytes x.size x.value), (x.stamp, (p.writeHome x.key (leBytes x.size x.value)).readHome (x.key / 128 * 128) 128) :: vs) :=
    ⟨_, rfl⟩
  have hline : p.commitLine k = { p.writeHome x.key (leBytes x.size x.value) with
      stampLines := [k.committed x.stamp ((p.writeHome x.key (leBytes x.size x.value)).readHome (x.key / 128 * 128) 128) vs] } := by
    have hgo : (k.pending ++ k.waiting).filter (fun x => decide (x.stamp < p.waterline k.die k.slice x.firstDie)) = [x] := by
      rw [hpending, hwaiting, List.append_nil, List.filter_singleton, hdue, cond_true]
    have hstays : k.pending.filter (fun x => !decide (x.stamp < p.waterline k.die k.slice x.firstDie)) = [] := by
      rw [hpending, List.filter_singleton, hdue]
      rfl
    have hwaits : k.waiting.filter (fun x => !decide (x.stamp < p.waterline k.die k.slice x.firstDie)) = [] := by rw [hwaiting, List.filter_nil]
    have hkept : k.committed x.stamp ((p.writeHome x.key (leBytes x.size x.value)).readHome (x.key / 128 * 128) 128) vs =
        { k with
          pending := [], waiting := [],
          versions := (x.stamp, (p.writeHome x.key (leBytes x.size x.value)).readHome (x.key / 128 * 128) 128) :: vs } := by
      rw [StampLine.committed, hwaiting]
    have hsort : sortBy stampLe [x] = [x] := rfl
    have hstamps : (p.writeHome x.key (leBytes x.size x.value)).stampLines = [k] := hlines
    simp only [State.commitLine, hgo, hstays, hwaits, hsort, hversions, hstamps, hkept, List.isEmpty_cons, Bool.false_eq_true, if_false,
      List.map_cons, List.map_nil, beq_self_eq_true, if_true, List.take_nil, List.drop_nil, List.append_nil]
  refine ⟨_, congrArg Host.Outcome.next (hdeliver.trans (hcommit.trans hline)), hscratch, ?_, vs, rfl⟩
  rw [← hmem]
  exact stored_putN (by rw [hmem]; exact (State.canonical_iff.mp hcanonical).1) _ _

end

/-- Settles O25: the checks, the accesses that leave, and what arrives and commits at a home. -/
theorem stamped : Obligations.Stamped := by
  unfold Obligations.Stamped
  refine ⟨fun p hp sw d a b s g l hl h hwidth hall => ?_, fun sw d a b s g l => ldas_leaves, fun sw d a s g h => ⟨cwait_sleeps h, ?_⟩,
    fun p hp sw d a b s g l k ks u addr hl h htids hu haddr => ?_, fun s n v stamp a l tgt x hdue hop hl htgt hx hlow => ⟨?_, fun k => ?_⟩,
    fun s first => ⟨waterlineForm_recent, waterlineForm_forms⟩,
    fun s die slice f hf _ hdie => ⟨waterlineDelivery_idle hf hdie, fun k x => waterlineDelivery_commits hf hdie⟩⟩
  · rcases List.mem_pair.mp hp with rfl | rfl
    · exact stampOp_leaves (v := fun u => (u.readW b.toNat).toNat) hl h hwidth (fun _ _ => rfl) hall rfl
    · exact stampOp_leaves (v := fun u => u.readPair b.toNat) hl h hwidth (fun _ _ => rfl) hall rfl
  · intro k ks u htids hu hwide
    exact traps_untransacted (chk := fun s g _ => widenCheck s g.core) h rfl htids hu rfl (widenCheck_fails (s := { s with group := none }) hwide)
  · subst haddr
    obtain ⟨hallowed, hform⟩ := stamped_checks p hp sw d a b
    obtain ⟨chk, hold, eff, hexec, hchk⟩ := hform s
    have htraps := fun code operand hx => traps_untransacted (code := code) (operand := operand) h hallowed htids hu hexec (hchk _ _ _ _ hx)
    refine ⟨fun halign => htraps _ _ (stampCheck_misaligned halign),
      fun halign hout => htraps _ _ (stampCheck_outside (s := { s with group := none }) hl halign hout), fun hin hwide => htraps _ _ ?_⟩
    exact (stampCheck_stamped (s := { s with group := none }) hl hin).trans (widenCheck_fails (s := { s with group := none }) hwide)
  · exact stampArrival_first hdue hop hl htgt hx hlow
  · intro hk hline hfull hpend hown
    exact stampArrival_waits hdue hop hl htgt hx hk hline hfull hpend hown

end Sys2Proof.Machine

end

section
/-! SUPPORT. Statement O21: MON and MWAIT. -/

namespace Sys2Proof.Machine

/-- R165: the conditions of `Watchable` are those of the check. -/
theorem monCheck_watchable {s : State} {l : Launch} {core addr : Nat} {parent : Option Nat} (h : Watchable s l core parent addr) :
    monCheck s l core parent addr = none := by
  obtain ⟨halign, hc | hc, hscratch, hglobal⟩ := h
  · simp [monCheck, halign, hc, hscratch hc]
  · simp [monCheck, halign, hc, hglobal hc]

theorem Kept.watched {s t : State} {c w : Nat} {tids : List Nat} (h : Kept s t c w tids) (core : Nat) :
    (t.coreOf core).watched = (s.coreOf core).watched := by
  have hshell : (t.coreOf core).shell.watched = (s.coreOf core).shell.watched := by rw [h.cores]
  exact hshell

theorem Kept.watchLine {s t : State} {c w : Nat} {tids : List Nat} (h : Kept { s with group := none } t c w tids) (l : Launch) (core va : Nat) :
    Machine.watchLine t l core va = Machine.watchLine s l core va := by
  rw [h.rest]
  rfl

/-! A core's watch table hangs on its threads' watches alone. -/

theorem State.watchTable_stepPc (i : Instr) (g : Group) (s : State) (k core : Nat) : (stepPc i g s k).watchTable core = s.watchTable core := by
  have hthread : ∀ (w : Workgroup) (p : Watch → Bool),
      (w.modThread k (fun t => { t with pc := g.pc + i.bytes, holdPc := none })).threads.any (fun t => t.watches.any p) =
        w.threads.any (fun t => t.watches.any p) := by
    intro w p
    rw [Workgroup.modThread, List.any_map]
    congr 1
    funext t
    rw [Function.comp_apply]
    split <;> rfl
  have hwgs : ∀ line, (stepPc i g s k).wgs.any (fun w => w.core == core && w.saved == .running &&
      w.threads.any (fun t => t.watches.any (fun y => y.line == line && y.state != .lost))) =
        s.wgs.any (fun w => w.core == core && w.saved == .running &&
          w.threads.any (fun t => t.watches.any (fun y => y.line == line && y.state != .lost))) := by
    intro line
    rw [stepPc, State.modThread, State.modWg, List.any_map]
    congr 1
    funext w
    rw [Function.comp_apply]
    split
    · rw [hthread]
      rfl
    · rfl
  simp only [State.watchTable, hwgs]
  rfl

/-- The member's thread as MON arms its watch of a line, the latest (R165). -/
def Thread.arm (u : Thread) (line : Nat) : Thread := { u with watches := { line := line, state := .armed } :: u.watches.filter (fun x => x.line != line) }

/-- A core with a line in its table, the latest armed. -/
def Core.arm (c : Core) (table : List (Nat × Nat)) (line : Nat) : Core :=
  { c with watched := table.filter (fun x => x.1 != line) ++ [(line, c.armings)], armings := c.armings + 1 }

/-- A core that can take the line drops no other. -/
theorem armWatch_takes {s : State} {g : Group} {l : Launch} {addr line : Nat} (hl : s.launch g.ctx = some l) (hline : line = watchLine s l g.core addr)
    (hroom : (s.watchTable g.core).any (fun x => x.1 == line) = true ∨ (s.watchTable g.core).length < 32) (k : Nat) :
    armWatch s g k addr =
      (s.modCore g.core (fun c => c.arm (s.watchTable g.core) line)).modThread g.ctx g.wg k (fun t => t.arm line) := by
  have hfull : (!((s.watchTable g.core).any (fun x => x.1 == line)) && decide (32 ≤ (s.watchTable g.core).length)) = false := by
    rcases hroom with h | h
    · rw [h]
      rfl
    · rw [decide_eq_false (Nat.not_le.mpr h), Bool.and_false]
  have hline' : withLaunch s g.ctx 0 (fun l => watchLine s l g.core addr) = line := (withLaunch_some hl).trans hline.symm
  unfold armWatch
  rw [hline']
  simp only [hfull, Bool.false_eq_true, if_false]
  rfl

/-- A member whose core has armed its watch sends its load (R165). -/
theorem send_armed {s p : State} {g : Group} {k line addr d : Nat} {l : Launch} {table : List (Nat × Nat)} {v : Thread} (hl : s.launch g.ctx = some l)
    (hp : Kept { s with group := none } p g.ctx g.wg g.tids) (hv : p.threadOf g.ctx g.wg k = some v) (hsettled : Settled s l addr 4) :
    ∃ q, (((p.modCore g.core (fun c => c.arm table line)).modThread g.ctx g.wg k (fun t => t.arm line)).send g k .ord .mon addr 4 0 d 1 none
        (groupId p g)) = q ∧
      q.threadOf g.ctx g.wg k = some ((v.arm line).addResult ((v.arm line).dests d 1) none) ∧ q.mem = s.mem ∧ q.scratch = s.scratch ∧
      q.flight = s.flight ++ [sentAccess s g .ord .mon addr 4 0 (some v.nextSlot) s.nextId v] ∧
      (q.coreOf g.core).watched = ((p.coreOf g.core).arm table line).watched := by
  generalize hr : (p.modCore g.core (fun c => c.arm table line)).modThread g.ctx g.wg k (fun t => t.arm line) = r
  have hthread : r.threadOf g.ctx g.wg k = some (v.arm line) := by
    rw [← hr, State.threadOf_modThread_same _ _ _ _ (fun t => t.arm line) (fun _ => rfl), State.threadOf_congr (State.modCore_wgs p g.core (fun c => c.arm table line)),
      hv, Option.map_some]
  have hrest : r = { s with group := none, wgs := r.wgs, cores := r.cores } := by
    rw [← hr, State.modCore_eq, hp.rest]
    rfl
  have hcore : ∀ j, r.coreOf j = if j = g.core then (p.coreOf g.core).arm table line else p.coreOf j := by
    intro j
    rw [← hr]
    exact State.coreOf_modCore p g.core (fun c => c.arm table line) (fun _ => rfl) j
  have hgens : r.granuleGens (coreCluster g.core) addr 4 = s.granuleGens (coreCluster g.core) addr 4 := by
    have hgranules : ∀ j, (r.coreOf j).granules = (p.coreOf j).granules := by
      intro j
      rw [hcore]
      split
      · rename_i hj
        rw [hj]
        rfl
      · rfl
    rw [← (UnderWay.of_kept hp).granuleGens]
    simp only [State.granuleGens, State.granuleAt, Core.granule, hgranules]
  have htouch : r.touchAtIssue g.ctx addr = r := by
    refine State.touchAtIssue_settled (l := l) (addr := addr) (n := 4) ?_ (settled_congr ?_ ?_ hsettled) (Nat.le_refl _) (by omega)
    · rw [hrest]
      exact hl
    · rw [hrest]
    · rw [hrest]
  have hflight : r.flight = s.flight := by rw [hrest]
  have hnext : r.nextId = s.nextId := by rw [hrest]
  have hgid : groupId p g = groupId s g := (UnderWay.of_kept hp).groupId
  refine ⟨_, rfl, ?_, ?_, ?_, ?_, ?_⟩
  all_goals simp only [State.send, hthread, AccOp.touches, if_true, htouch, Nat.succ_ne_zero, if_false, hflight, hnext, hgens, hgid]
  · refine (State.threadOf_modThread_same _ _ _ _ (fun t => t.addResult (t.dests d 1) none) (fun _ => rfl)).trans ?_
    exact congrArg (Option.map _) hthread
  · rw [State.modThread_mem, hrest]
  · rw [State.modThread_scratch, hrest]
  · rw [State.modThread_flight]
    simp only [sentAccess, State.threadOf_tid hv, beq_iff_eq]
    rfl
  · show (r.coreOf g.core).watched = _
    rw [hcore, if_pos rfl]

/-- The operand check of MON, and its effect in a member (R165). -/
def monOperand (a : Reg) (s : State) (g : Group) (t : Thread) : Option TrapInfo :=
  orTrap (withLaunch s g.ctx none (fun l => monCheck s l g.core t.parent (t.readPair (rn a)))) (polderCheck (fun t => t.readPair (rn a)) s g t)

def monEffect (d a : Reg) (s : State) (g : Group) (tid : Nat) : State :=
  match s.threadOf g.ctx g.wg tid with
  | none => s
  | some t => (armWatch s g tid (t.readPair (rn a))).send g tid .ord .mon (t.readPair (rn a)) 4 0 (rn d) 1 none (groupId s g)

theorem mon_arms {sw : Bool} {d a : Reg} {s : State} {g : Group} {l : Launch} {k addr line : Nat} {u : Thread} (hl : s.launch g.ctx = some l)
    (h : issuable (.mon sw d a) s g = true) (htids : g.tids = [k]) (hu : s.threadOf g.ctx g.wg k = some u) (haddr : addr = u.readPair a.toNat)
    (hwatch : Watchable s l g.core u.parent addr) (hsettled : Settled s l addr 4) (hline : line = watchLine s l g.core addr)
    (hroom : (s.watchTable g.core).any (fun x => x.1 == line) = true ∨ (s.watchTable g.core).length < 32) :
    ∃ t v, exec (.mon sw d a) s = .next t ∧ t.threadOf g.ctx g.wg k = some v ∧ t.mem = s.mem ∧ t.scratch = s.scratch ∧
      t.flight = s.flight ++ [sentAccess s g .ord .mon addr 4 0 (some u.nextSlot) s.nextId u] ∧
      (t.coreOf g.core).watched = (s.watchTable g.core).filter (fun x => x.1 != line) ++ [(line, (s.coreOf g.core).armings)] ∧
      Went (.mon sw d a) (g.pc + 4) { u with
        watches := { line := line, state := .armed } :: u.watches.filter (fun x => x.line != line),
        results := u.results ++ [owing u 0 d.toNat 1], nextSlot := u.nextSlot + 1 } u v := by
  have hl' : State.launch { s with group := none } g.ctx = some l := hl
  rw [haddr] at hwatch hsettled
  have hcheck : monOperand a { s with group := none } g u = none :=
    orTrap_none ((withLaunch_some hl').trans (monCheck_watchable (s := { s with group := none }) hwatch))
      ((withLaunch_some hl').trans (breachCheck_settled (s := { s with group := none }) (by decide) hsettled _))
  rw [← haddr] at hsettled
  have hexec : exec (.mon sw d a) s = .next (issue (.mon sw d a) (monOperand a) (monEffect d a) s) := rfl
  rw [issue, issueHeld_alone h htids hu hcheck rfl] at hexec
  generalize hp : stepPc (.mon sw d a) g { s with group := none } k = p at hexec
  have hkept : Kept { s with group := none } p g.ctx g.wg g.tids := by
    rw [← hp, htids]
    exact stepPc_kept _ g _ k
  have hthread : p.threadOf g.ctx g.wg k = some { u with pc := g.pc + 4, holdPc := none } := by
    rw [← hp]
    exact stepPc_thread (i := .mon sw d a) (s := { s with group := none }) hu
  have hcores : p.coreOf g.core = s.coreOf g.core := by
    rw [← hp]
    rfl
  have htable : p.watchTable g.core = s.watchTable g.core := by
    rw [← hp]
    exact State.watchTable_stepPc _ _ _ _ _
  have hline' : line = watchLine p l g.core addr := by
    rw [hline, ← hp]
    rfl
  have harm := armWatch_takes (s := p) (addr := addr) ((hkept.launch g.ctx).trans hl) hline' (by rw [htable]; exact hroom) k
  obtain ⟨q, hq, hqthread, hqmem, hqscratch, hqflight, hqwatched⟩ := send_armed (d := rn d) (line := line) (table := s.watchTable g.core) hl hkept
    hthread hsettled
  have heffect : monEffect d a p g k = q := by
    have heach : monEffect d a p g k = (armWatch p g k (u.readPair (rn a))).send g k .ord .mon (u.readPair (rn a)) 4 0 (rn d) 1 none (groupId p g) := by
      simp only [monEffect, hthread]
      rfl
    rw [heach, ← haddr, harm, htable]
    exact hq
  rw [heffect] at hexec
  obtain ⟨hadvance, hgone⟩ := advance_alone (i := .mon sw d a) hqthread
  refine ⟨_, _, hexec, hgone, ?_, ?_, ?_, ?_, ?_⟩
  · rw [hadvance.rest, ← hqmem]
  · rw [hadvance.rest, ← hqscratch]
  · rw [hadvance.rest, hqflight]
    rfl
  · have hwatched : ((State.advance (.mon sw d a) g q k).coreOf g.core).watched = (q.coreOf g.core).watched :=
      hadvance.watched g.core
    rw [hwatched, hqwatched, hcores]
    rfl
  · exact went_onThread (f := fun u => (u.arm line).addResult ((u.arm line).dests (rn d) 1) none) (issuable_ready h htids hu) rfl rfl rfl

/-! MWAIT. -/

/-- A waiting instruction whose wait hangs on its member's thread and on what no member's own effect changes (R66). -/
theorem issue_sleeps_on {i : Instr} {chk : State → Group → Thread → Option TrapInfo} {d : Nat} {w : State → Group → Thread → WaitKind} {s : State}
    {g : Group} (h : issuable i s g = true) (hchk : Members s g (fun u => chk { s with group := none } g u = none))
    (hw : ∀ u pc, w s g { u with pc := pc, holdPc := none } = w s g u)
    (hkeep : ∀ t u, Kept { s with group := none } t g.ctx g.wg g.tids → w t g u = w s g u)
    (hexec : exec i s = .next (issue i chk (fun s g tid => match s.threadOf g.ctx g.wg tid with
      | none => s
      | some t => sleepOn (w s g t) (some d) g tid s) s)) :
    Performs i s g (fun u v => Sleeps i (w s g u) (waitLimit s g) (s.dieTime (coreDie g.core)) (g.pc + i.bytes) (some d) u v) := by
  rw [issue_passes h hchk] at hexec
  obtain ⟨honly, heach⟩ := issue_members (φ := fun _ u => u.sleep (w s g u) d (s.dieTime (coreDie g.core) + waitLimit s g))
    (eff := fun s g tid => match s.threadOf g.ctx g.wg tid with
      | none => s
      | some t => sleepOn (w s g t) (some d) g tid s) h (fun t k hk ht => by
    cases hu : t.threadOf g.ctx g.wg k with
    | none => exact ⟨Kept.refl _ _ _ _, hu⟩
    | some u =>
      obtain ⟨hkept, hthread⟩ := sleepOn_members g k d (w t g u) t
      refine ⟨hkept, ?_⟩
      rw [hthread, hu, Option.map_some, Option.map_some, ht.dieTime, ht.waitLimit, hkeep t u ht]
      rfl)
  refine ⟨_, hexec, honly, fun k hk => ?_⟩
  obtain ⟨u, hu, -, hv⟩ := heach k hk
  refine ⟨u, _, hu, hv, ?_⟩
  show Sleeps i (w s g u) _ _ _ _ u _
  rw [← hw u (g.pc + i.bytes)]
  exact sleeps_of_sleep i _ _ _ _ d u

theorem mwait_sleeps {sw : Bool} {d a : Reg} {s : State} {g : Group} {l : Launch} (hl : s.launch g.ctx = some l)
    (h : issuable (.mwait sw d a) s g = true) (hall : Members s g (fun u => Watchable s l g.core u.parent (u.readPair a.toNat))) :
    Performs (.mwait sw d a) s g (fun u v =>
      Sleeps (.mwait sw d a) (.mwait (watchLine s l g.core (u.readPair a.toNat))) (waitLimit s g) (s.dieTime (coreDie g.core)) (g.pc + 4)
        (some d.toNat) u v) := by
  have hsleeps := issue_sleeps_on (i := .mwait sw d a) (d := rn d)
    (w := fun s g t => .mwait (withLaunch s g.ctx 0 (fun l => watchLine s l g.core (t.readPair (rn a)))))
    (chk := fun s g t => withLaunch s g.ctx none (fun l => monCheck s l g.core t.parent (t.readPair (rn a)))) h (fun k hk u hu => ?_) (fun _ _ => rfl)
    (fun t u ht => ?_) rfl
  · refine hsleeps.imp (fun u v hs => ?_)
    have hline : withLaunch s g.ctx 0 (fun l => watchLine s l g.core (u.readPair (rn a))) = watchLine s l g.core (u.readPair (rn a)) :=
      withLaunch_some hl
    rw [hline] at hs
    exact hs
  · exact (withLaunch_some (s := { s with group := none }) hl).trans (monCheck_watchable (s := { s with group := none }) (hall k hk u hu))
  · have hlaunch : t.launch g.ctx = some l := (ht.launch g.ctx).trans hl
    simp only [withLaunch_some hlaunch, withLaunch_some hl, ht.watchLine]

/-- Settles O21: a lone MON arms and sends as one step; MWAIT is a wait. -/
theorem monitors : Obligations.Monitors := by
  unfold Obligations.Monitors
  exact ⟨fun sw d a s g l k u addr line hl h htids hu _ haddr => mon_arms hl h htids hu haddr, fun sw d a s g l => mwait_sleeps⟩

end Sys2Proof.Machine

end

section
/-! SUPPORT. Statement O24: transactions at issue and at their homes, and the deadlock detector. -/

namespace Sys2Proof.Machine

/-! %txs (R184). -/

theorem txs_code (x : Word) : bits x.toNat 31 18 = x.toNat / 2 ^ 18 := by
  have := x.isLt
  simp only [bits]
  omega

theorem txs_cause (x : Word) : bits x.toNat 6 4 = x.toNat / 2 ^ 4 % 2 ^ 3 := rfl

theorem txsAborts_eq (x : Word) : txsAborts x = x.toNat / 2 ^ 10 % 2 ^ 8 := rfl

theorem txsWord_toNat {code aborts cause state : Nat} (hcode : code < 2 ^ 14) (haborts : aborts < 2 ^ 8) (hcause : cause < 2 ^ 3)
    (hstate : state < 2 ^ 4) : (txsWord code aborts cause state).toNat = code * 2 ^ 18 + aborts * 2 ^ 10 + cause * 2 ^ 4 + state := by
  rw [txsWord, BitVec.toNat_ofNat]
  omega

/-- %txs after an abort: the count goes up but for PREEMPT, and saturates. -/
theorem txsAbort_toNat (x : Word) (cause : AbortCause) {code : Nat} (hcode : code < 2 ^ 14) :
    (txsAbort x cause code).toNat = code * 2 ^ 18 +
      (if cause.num = 5 then x.toNat / 2 ^ 10 % 2 ^ 8 else min 255 (x.toNat / 2 ^ 10 % 2 ^ 8 + 1)) * 2 ^ 10 + cause.num * 2 ^ 4 + 2 := by
  have hcause : cause.num < 2 ^ 3 := by cases cause <;> decide
  have hcount : (if cause = .preempt then txsAborts x else if txsAborts x < 255 then txsAborts x + 1 else 255) =
      if cause.num = 5 then x.toNat / 2 ^ 10 % 2 ^ 8 else min 255 (x.toNat / 2 ^ 10 % 2 ^ 8 + 1) := by
    have hpreempt : cause = .preempt ↔ cause.num = 5 := by cases cause <;> decide
    rw [txsAborts_eq]
    simp only [hpreempt]
    split
    · rfl
    · split <;> omega
  rw [txsAbort, hcount]
  refine txsWord_toNat hcode ?_ hcause (by decide)
  split <;> omega

/-- A thread that aborts (R180, R184). -/
theorem aborted_abortTx {u t : Thread} (cause : AbortCause) {code : Nat} (hcode : code < 2 ^ 14) (htx : t.tx = u.tx) (htxs : t.txs = u.txs)
    (hregs : t.regs = u.regs) : Aborted u (t.abortTx cause code) cause.num code := by
  have hcause : cause.num < 2 ^ 3 := by cases cause <;> decide
  have hword : (t.abortTx cause code).txs.toNat = _ := txsAbort_toNat t.txs cause hcode
  rw [htxs] at hword
  have hcount : (if cause.num = 5 then u.txs.toNat / 2 ^ 10 % 2 ^ 8 else min 255 (u.txs.toNat / 2 ^ 10 % 2 ^ 8 + 1)) < 2 ^ 8 := by
    split <;> omega
  refine ⟨rfl, congrArg Tx.abortPc htx, rfl, rfl, hregs, ?_, ?_, ?_, ?_⟩
  all_goals
    rw [hword]
    omega

theorem Thread.goOn_parked {i : Instr} {t : Thread} (h : t.status = .parked) : t.goOn i = t := by
  simp only [Thread.goOn, h]

/-! TXB, TXE and TXA at issue (R178, R181, R182). -/

/-- A thread as TXB begins its transaction. -/
def Thread.beginTx (offset : Int) (pc : Nat) (t : Thread) : Thread := { t with
  txs := txsWord (bits t.txs.toNat 31 18) (beginAborts t pc) (bits t.txs.toNat 6 4) 1,
  tx := { t.tx.idle with active := true, abortPc := (((pc : Int) + offset * 4) % (2 ^ 32 : Nat)).toNat, lastTxb := some pc } }

/-- The operand check of TXB. -/
def txbCheck (s : State) (g : Group) (t : Thread) : Option TrapInfo :=
  withLaunch s g.ctx none (fun l => if l.bound g.pc = some (beginAborts t g.pc) then trapOf .bound 0 else none)

theorem txbCheck_eq {s : State} {g : Group} {l : Launch} (hl : s.launch g.ctx = some l) (t : Thread) :
    txbCheck s g t = if l.bound g.pc = some (beginAborts t g.pc) then trapOf .bound 0 else none :=
  withLaunch_some (f := fun l => if l.bound g.pc = some (beginAborts t g.pc) then trapOf .bound 0 else none) hl

theorem beginAborts_eq (u : Thread) (pc : Nat) : beginAborts u pc = if u.tx.lastTxb = some pc then u.txs.toNat / 2 ^ 10 % 2 ^ 8 else 0 := rfl

theorem txb_begins {sw : Bool} {m : BitVec 14} {s : State} {g : Group} {l : Launch} (hl : s.launch g.ctx = some l)
    (h : issuable (.txb sw m) s g = true) (hbound : Members s g (fun u => l.bound g.pc ≠ some (beginAborts u g.pc))) :
    Performs (.txb sw m) s g (fun u v => Went (.txb sw m) (g.pc + 4) (u.beginTx m.toInt g.pc) u v) := by
  have hexec : exec (.txb sw m) s = .next (issue (.txb sw m) txbCheck (beginTx m.toInt) s) := rfl
  have hl' : State.launch { s with group := none } g.ctx = some l := hl
  rw [issue_passes h (fun k hk u hu => (txbCheck_eq hl' u).trans (if_neg (hbound k hk u hu)))] at hexec
  obtain ⟨honly, heach⟩ := issue_members (eff := beginTx m.toInt) (φ := fun _ => Thread.beginTx m.toInt g.pc) h (fun t k hk ht =>
    ⟨Kept.modThread t g.ctx g.wg k (Thread.beginTx m.toInt g.pc) (fun _ => rfl) [k] (by simp),
      State.threadOf_modThread_same t g.ctx g.wg k (Thread.beginTx m.toInt g.pc) (fun _ => rfl)⟩)
  refine ⟨_, hexec, honly, fun k hk => ?_⟩
  obtain ⟨u, hu, hready, hv⟩ := heach k hk
  exact ⟨u, _, hu, hv, went_onThread (f := Thread.beginTx m.toInt g.pc) hready rfl rfl rfl⟩

/-- The operand checks of the instructions of a transaction raise no trap that aborts one instead (R179). -/
theorem txCheck_traps {i : Instr} {chk : State → Group → Thread → Option TrapInfo} {eff : State → Group → Nat → State} {s : State} {g : Group}
    {k : Nat} {ks : List Nat} {u : Thread} {code : TrapCode} (h : issuable i s g = true) (htids : g.tids = k :: ks)
    (hu : s.threadOf g.ctx g.wg k = some u) (hexec : exec i s = .next (issue i chk eff s)) (hcode : abortsInstead code = false)
    (hchk : chk { s with group := none } g u = trapOf code 0) : Traps i s g code 0 k :=
  hexec.trans (congrArg _ (issueHeld_traps (issuable_group h) (issueFault_operand h htids hu hchk hcode)))

theorem intraAborts_alone (u : Thread) : intraAborts [u] [] = [] := by
  simp [intraAborts]

theorem capacityAborts_alone {u : Thread} (h : (dedup (u.tx.readLines ++ u.tx.writeLines)).length ≤ 64) : capacityAborts [u] [] = [] := by
  simp [capacityAborts, Nat.not_lt.mpr h]

/-- A thread whose TXE goes to validate (R181). -/
def Thread.commitTx (d gid : Nat) (t : Thread) : Thread :=
  { t.addResult (t.dests d 1) none with tx := { t.tx with committing := some (t.nextSlot, gid) } }

/-- A lone member's TXE aborts in neither of the first stages, and goes to validate. -/
theorem endTx_alone {p : State} {g : Group} {k d : Nat} {u : Thread} (htids : g.tids = [k]) (hu : p.threadOf g.ctx g.wg k = some u)
    (hlines : (dedup (u.tx.readLines ++ u.tx.writeLines)).length ≤ 64) (hpolder : ∀ l, p.launch g.ctx = some l → u.tx.polderLines l = []) :
    endTx d p g k = p.modThread g.ctx g.wg k (Thread.commitTx d (groupId p g)) := by
  have hmembers : p.members g = [u] := by
    rw [State.members_cons htids hu]
    rfl
  have htid : u.tid = k := State.threadOf_tid hu
  have htouch : withLaunch p g.ctx p (fun l => (u.tx.polderLines l).foldl (fun s a => s.touchAtIssue g.ctx a) p) = p := by
    unfold withLaunch
    split
    · rfl
    · rename_i l hl
      exact congrArg (List.foldl _ p) (hpolder l hl)
  simp only [endTx, hmembers, List.head?_cons, Option.any_some, htid, beq_self_eq_true, if_true, intraAborts_alone, List.contains_nil, Bool.not_false,
    List.filter_cons_of_pos, List.filter_nil, capacityAborts_alone hlines, List.foldl_cons, List.foldl_nil, endTxOne, Bool.false_eq_true, if_false,
    htouch]
  rfl

theorem txe_validates {d : Reg} {s : State} {g : Group} {k : Nat} {u : Thread} (h : issuable (.txe d) s g = true) (htids : g.tids = [k])
    (hu : s.threadOf g.ctx g.wg k = some u) (hactive : u.tx.active = true) (hlines : (dedup (u.tx.readLines ++ u.tx.writeLines)).length ≤ 64)
    (hpolder : ∀ l, s.launch g.ctx = some l → u.tx.polderLines l = []) :
    Performs (.txe d) s g (fun u v => Went (.txe d) (g.pc + 4) (u.commitTx d.toNat (groupId s g)) u v) := by
  have hcheck : txeCheck { s with group := none } g u = none := by
    rw [txeCheck, if_pos hactive]
    unfold withLaunch
    split
    · rfl
    · rename_i l hl
      have hnone : u.tx.polderLines l = [] := hpolder l hl
      exact (congrArg (breachChecks _ l _) hnone).trans (by rw [breachChecks])
  have hexec : exec (.txe d) s = .next (issue (.txe d) txeCheck (endTx (rn d)) s) := rfl
  have hkept := stepPc_kept (.txe d) g { s with group := none } k
  have hthread := stepPc_thread (i := .txe d) (s := { s with group := none }) hu
  rw [issue, issueHeld_alone h htids hu hcheck rfl] at hexec
  generalize stepPc (.txe d) g { s with group := none } k = p at hexec hkept hthread
  have hgid : groupId p g = groupId s g := (UnderWay.of_kept hkept).groupId
  rw [endTx_alone htids hthread hlines (fun l hl => hpolder l ((hkept.launch g.ctx).symm.trans hl)), hgid] at hexec
  have hcommit := Kept.modThread p g.ctx g.wg k (Thread.commitTx (rn d) (groupId s g)) (fun _ => rfl) [k] (by simp)
  have hcommitted := State.threadOf_modThread_same p g.ctx g.wg k (Thread.commitTx (rn d) (groupId s g)) (fun _ => rfl)
  rw [hthread, Option.map_some] at hcommitted
  obtain ⟨hadvance, hgone⟩ := advance_alone (i := .txe d) hcommitted
  have hall := (hkept.trans hcommit).trans hadvance
  rw [← htids] at hall
  refine ⟨_, hexec, ⟨by rw [hall.rest], hall.others, hall.shells, hall.cores⟩, fun j hj => ?_⟩
  rw [htids, List.mem_singleton] at hj
  subst hj
  exact ⟨u, _, hu, hgone, went_onThread (f := Thread.commitTx d.toNat (groupId s g)) (issuable_ready h htids hu) rfl rfl rfl⟩

theorem txa_aborts {m : BitVec 14} {s : State} {g : Group} (h : issuable (.txa m) s g = true) (hall : Members s g (fun u => u.tx.active = true)) :
    Performs (.txa m) s g (fun u v => Aborted u v 4 m.toNat) := by
  obtain ⟨honly, heach⟩ := onThread_only (chk := fun _ _ t => if t.tx.active then none else trapOf .illegal 0)
    (f := fun t => t.abortTx .explicit m.toNat) h (fun _ => rfl) (fun k hk u hu => if_pos (hall k hk u hu))
  refine ⟨_, rfl, honly, heach.imp ?_⟩
  rintro u v ⟨-, -, rfl⟩
  rw [Thread.goOn_parked rfl]
  exact aborted_abortTx .explicit m.isLt rfl rfl rfl

/-! TX_HOME_VALIDATION (R181). -/

/-- A thread but for its watches. -/
def SameButWatches (u v : Thread) : Prop := v = { u with watches := v.watches }

theorem SameButWatches.noteWrite (lo hi : Nat) (u : Thread) : SameButWatches u (u.noteWrite lo hi) := by
  unfold SameButWatches Thread.noteWrite
  split <;> rfl

theorem SameButWatches.trans {u v w : Thread} (h : SameButWatches u v) (k : SameButWatches v w) : SameButWatches u w := by
  unfold SameButWatches at *
  rw [k, h]

theorem applyWrites_thread {ctx wg k : Nat} (ws : List (Nat × Byte)) {s : State} {u : Thread} (hu : s.threadOf ctx wg k = some u) :
    ∃ v, (applyWrites ws s).threadOf ctx wg k = some v ∧ SameButWatches u v := by
  induction ws generalizing s u with
  | nil => exact ⟨u, hu, rfl⟩
  | cons w ws ih =>
    have hnoted := State.threadOf_writeHome s w.1 [w.2] ctx wg k
    rw [hu, Option.map_some] at hnoted
    obtain ⟨v, hv, hsame⟩ := ih hnoted
    exact ⟨v, hv, (SameButWatches.noteWrite _ _ u).trans hsame⟩

/-- Bytes outside a write set stand as they were. -/
theorem applyWrites_other {x : Nat} (ws : List (Nat × Byte)) {s : State} (hs : Memory.wf s.mem = true) (hx : ∀ p ∈ ws, p.1 ≠ x) :
    Cells.get (applyWrites ws s).mem x = Cells.get s.mem x := by
  induction ws generalizing s with
  | nil => rfl
  | cons w ws ih =>
    obtain ⟨hw, hws⟩ := List.forall_mem_cons.mp hx
    have hother : Cells.get (s.writeHome w.1 [w.2]).mem x = Cells.get s.mem x :=
      Cells.get_putN_other hs (by rw [List.length_singleton]; omega)
    exact (ih (s := s.writeHome w.1 [w.2]) (Memory.wf_putN hs) hws).trans hother

/-- The bytes of a write set, no location twice, stand at their homes. -/
theorem applyWrites_same (ws : List (Nat × Byte)) {s : State} (hs : Memory.wf s.mem = true) (hnd : (ws.map (fun p => p.1)).Nodup) :
    ∀ p ∈ ws, Cells.get (applyWrites ws s).mem p.1 = p.2 := by
  induction ws generalizing s with
  | nil => exact fun p hp => absurd hp List.not_mem_nil
  | cons w ws ih =>
    obtain ⟨hw, hnd⟩ := List.nodup_cons.mp hnd
    have hs' : Memory.wf (s.writeHome w.1 [w.2]).mem = true := Memory.wf_putN hs
    refine List.forall_mem_cons.mpr ⟨?_, ih hs' hnd⟩
    refine (applyWrites_other ws hs' (fun p hp heq => hw (List.mem_map.mpr ⟨p, hp, heq⟩))).trans ?_
    exact Cells.get_putN_same (a := w.1) (i := 0) hs (by simp)

theorem State.followWrites_eq (core : Nat) (ws : List (Nat × Byte)) (s : State) :
    State.followWrites core ws s = { s with cores := (State.followWrites core ws s).cores } := by
  induction ws generalizing s with
  | nil => rfl
  | cons w ws ih =>
    rw [State.followWrites, ih, State.l1Follow_eq]

section
variable {s : State} {ctx wg k : Nat} {w : Workgroup} {u : Thread} (hw : s.wgOf ctx wg = some w) (hu : s.threadOf ctx wg k = some u)
include hw hu

theorem txValidate_idle (h : u.tx.committing = none) : s.txValidate ctx wg k = s := by
  simp only [State.txValidate, hw, hu, h]

variable {slot gid : Nat} (hcommit : u.tx.committing = some (slot, gid))
include hcommit

theorem txValidate_waits (h : s.txBehind ctx wg u = true) : s.txValidate ctx wg k = s := by
  simp only [State.txValidate, hw, hu, hcommit, h, Bool.or_true, if_true]

variable (hturn : s.txTurn ctx wg u gid = true) (hbehind : s.txBehind ctx wg u = false)
include hturn hbehind

/-- Reads that still hold: the write set is applied, and the transaction has committed. -/
theorem txValidate_commits (hs : s.canonical = true) (hreads : ∀ r ∈ u.tx.reads, Cells.get s.mem r.1 = r.2)
    (hnd : (u.tx.writes.map (fun p => p.1)).Nodup) :
    ∃ t v, exec (.txHomeValidation ctx wg k) s = .next t ∧ t.threadOf ctx wg k = some v ∧ (∀ p ∈ u.tx.writes, Cells.get t.mem p.1 = p.2) ∧
      (∀ x, (∀ p ∈ u.tx.writes, p.1 ≠ x) → Cells.get t.mem x = Cells.get s.mem x) ∧
      v.results = (u.fillSlot slot [some 0]).results ∧ v.regs = u.regs ∧ v.tx.active = false ∧ v.tx.writes = [] ∧
      v.txs.toNat = u.txs.toNat / 2 ^ 18 * 2 ^ 18 + u.txs.toNat / 2 ^ 4 % 2 ^ 3 * 2 ^ 4 + 3 := by
  have hall : u.tx.reads.all (fun r => Cells.get s.mem r.1 == r.2) = true := List.all_eq_true.mpr (fun r hr => beq_iff_eq.mpr (hreads r hr))
  obtain ⟨v, hv, hsame⟩ := applyWrites_thread u.tx.writes hu
  generalize hq : State.followWrites w.core u.tx.writes (applyWrites u.tx.writes s) = q
  have hrest : q = { applyWrites u.tx.writes s with cores := q.cores } := by
    rw [← hq]
    exact State.followWrites_eq _ _ _
  have hmem : q.mem = (applyWrites u.tx.writes s).mem := by rw [hrest]
  have hthread : q.threadOf ctx wg k = some v := by
    rw [hrest]
    exact hv
  have hexec : s.txValidate ctx wg k = q.modThread ctx wg k (fun t =>
      { t.fillSlot slot [some 0] with txs := txsWord (bits t.txs.toNat 31 18) 0 (bits t.txs.toNat 6 4) 3, tx := t.tx.idle }) := by
    simp only [State.txValidate, hw, hu, hcommit, hturn, hbehind, hall, hq, Bool.not_true, Bool.or_self, Bool.false_eq_true, if_false, if_true]
  have hwf := (State.canonical_iff.mp hs).1
  have hwords : (txsWord (bits u.txs.toNat 31 18) 0 (bits u.txs.toNat 6 4) 3).toNat =
      u.txs.toNat / 2 ^ 18 * 2 ^ 18 + u.txs.toNat / 2 ^ 4 % 2 ^ 3 * 2 ^ 4 + 3 := by
    have := u.txs.isLt
    rw [txs_code, txs_cause, txsWord_toNat (by omega) (by decide) (by omega) (by decide)]
    omega
  have hresults : v.results = u.results := by rw [hsame]
  have hregs : v.regs = u.regs := by rw [hsame]
  have htxs : v.txs = u.txs := by rw [hsame]
  have hset := State.threadOf_modThread_same q ctx wg k (fun t =>
    { t.fillSlot slot [some 0] with txs := txsWord (bits t.txs.toNat 31 18) 0 (bits t.txs.toNat 6 4) 3, tx := t.tx.idle }) (fun _ => rfl)
  rw [hthread, Option.map_some] at hset
  refine ⟨_, _, congrArg Host.Outcome.next hexec, hset, fun p hp => ?_, fun x hx => ?_, ?_, hregs, rfl, rfl, ?_⟩
  · rw [State.modThread_mem, hmem]
    exact applyWrites_same _ hwf hnd p hp
  · rw [State.modThread_mem, hmem]
    exact applyWrites_other _ hwf hx
  · simp only [Thread.fillSlot, hresults]
  · rw [← hwords, ← htxs]

/-- A byte that differs: the transaction aborts with HOME, and nothing is written; a thread that has ended stays so (R250). -/
theorem txValidate_aborts (hdiffers : ∃ r ∈ u.tx.reads, Cells.get s.mem r.1 ≠ r.2) :
    ∃ t v, exec (.txHomeValidation ctx wg k) s = .next t ∧ OnlyThread s t ctx wg k ∧ t.threadOf ctx wg k = some v ∧
      (u.status ≠ .exited → v.results = (u.fillSlot slot [some 2]).results ∧ Aborted u v 2 0) ∧
      (u.status = .exited → v.status = .exited ∧ v.tx.committing = none) := by
  have hall : u.tx.reads.all (fun r => Cells.get s.mem r.1 == r.2) = false := by
    obtain ⟨r, hr, hne⟩ := hdiffers
    exact List.all_eq_false.mpr ⟨r, hr, by simpa using hne⟩
  have hexec : s.txValidate ctx wg k = s.modThread ctx wg k (fun t =>
      if t.live then (t.fillSlot slot [some (BitVec.ofNat 32 AbortCause.home.num)]).abortTx .home 0 else { t with tx := t.tx.idle }) := by
    simp only [State.txValidate, hw, hu, hcommit, hturn, hbehind, hall, Bool.not_true, Bool.or_self, Bool.false_eq_true, if_false]
  have htid : ∀ t : Thread, (if t.live then (t.fillSlot slot [some (BitVec.ofNat 32 AbortCause.home.num)]).abortTx .home 0
      else { t with tx := t.tx.idle }).tid = t.tid := fun t => by split <;> rfl
  have hset := State.threadOf_modThread_same s ctx wg k (fun t =>
    if t.live then (t.fillSlot slot [some (BitVec.ofNat 32 AbortCause.home.num)]).abortTx .home 0 else { t with tx := t.tx.idle }) htid
  rw [hu, Option.map_some] at hset
  refine ⟨_, _, congrArg Host.Outcome.next hexec, OnlyThread.modThread s ctx wg k htid, hset, fun hlive => ?_, fun hexited => ?_⟩
  · have hlive : u.live = true := by
      unfold Thread.live
      split
      · exact absurd (by assumption) hlive
      all_goals rfl
    rw [if_pos hlive]
    exact ⟨rfl, aborted_abortTx .home (by decide) rfl rfl rfl⟩
  · have hended : u.live = false := by simp only [Thread.live, hexited]
    rw [hended]
    exact ⟨hexited, rfl⟩

end

/-! REGDL_DETECT (R238). -/

theorem State.stopWg_flight (s : State) (ctx wg : Nat) : (s.stopWg ctx wg).flight = s.flight := by rw [State.stopWg_eq]

theorem State.modLaunch_flight (s : State) (ctx : Nat) (f : Launch → Launch) : (s.modLaunch ctx f).flight = s.flight := rfl

theorem State.stopLaunch_flight (s : State) (ctx : Nat) : (s.stopLaunch ctx).flight = s.flight := by
  rw [State.stopLaunch, State.modLaunch_flight]

theorem State.stopWgs_flight (ctx : Nat) (ws : List Nat) (s : State) : (ws.foldl (fun s w => s.stopWg ctx w) s).flight = s.flight := by
  induction ws generalizing s with
  | nil => rfl
  | cons w ws ih => rw [List.foldl_cons, ih, State.stopWg_flight]

theorem State.stopOthers_flight (s : State) (ctx wg : Nat) : (s.stopOthers ctx wg).flight = s.flight := by
  rw [State.stopOthers, State.stopLaunch_flight, State.stopWgs_flight]

theorem State.writeTrapRecord_flight (s : State) (ctx wg tid code operand pc : Nat) :
    (s.writeTrapRecord ctx wg tid code operand pc).flight = s.flight := by
  unfold State.writeTrapRecord
  split
  · split
    · rw [State.modLaunch_flight, State.writeWords_flight]
    · rw [State.modLaunch_flight]
  · rfl

theorem State.endByRecord_flight (s : State) (ctx wg tid code operand pc : Nat) : (s.endByRecord ctx wg tid code operand pc).flight = s.flight := by
  unfold State.endByRecord
  split
  · rw [State.modLaunch_flight, State.stopWg_flight, State.writeTrapRecord_flight]
  · split
    · rw [State.modLaunch_flight, State.stopWg_flight, State.writeTrapRecord_flight]
    · rw [State.stopOthers_flight, State.modLaunch_flight, State.stopWg_flight, State.writeTrapRecord_flight]

section
variable {s : State} {ctx wg : Nat} {l : Launch} {w : Workgroup} (hl : s.launch ctx = some l) (hw : s.wgOf ctx wg = some w)
include hl hw

/-- A workgroup with no claimant that lives, or with a live thread that is not stuck, goes on. -/
theorem detect_none (h : (w.threads.filter Thread.live).find? (fun t => t.claim.isSome) = none ∨ s.deadlocked l w = false) :
    s.detect ctx wg = s := by
  simp only [State.detect, hl, hw]
  rcases h with h | h
  · rw [h]
  · rw [h]
    split <;> simp

theorem detect_ends (hrunning : w.saved = .running) (hstuck : ∀ u ∈ w.threads, u.live = true → s.stuck l w u = true)
    (hclaim : ∃ u ∈ w.threads, u.live = true ∧ u.claim.isSome = true) (hquiet : ∀ a ∈ s.flight, ¬(a.ctx = ctx ∧ a.wg = wg)) :
    (∀ k v, (s.detect ctx wg).threadOf ctx wg k = some v → v.status = .exited) ∧ (s.detect ctx wg).flight = s.flight := by
  obtain ⟨u, hu, hlive, hclaims⟩ := hclaim
  have hmem : u ∈ w.threads.filter Thread.live := List.mem_filter.mpr ⟨hu, hlive⟩
  obtain ⟨t, ht⟩ := Option.isSome_iff_exists.mp ((List.find?_isSome (p := fun t => t.claim.isSome)).mpr ⟨u, hmem, hclaims⟩)
  have hdeadlocked : s.deadlocked l w = true := by
    have hresident : w.resident = true := by
      unfold Workgroup.resident
      rw [hrunning]
      rfl
    have hany : (w.threads.filter Thread.live).any (fun t => t.claim.isSome) = true := List.any_eq_true.mpr ⟨u, hmem, hclaims⟩
    have hall : (w.threads.filter Thread.live).all (s.stuck l w) = true := List.all_eq_true.mpr (fun x hx => by
      obtain ⟨hx, hlive⟩ := List.mem_filter.mp hx
      exact hstuck x hx hlive)
    simp only [State.deadlocked, hresident, hany, hall, Bool.and_self]
  have hdrain : s.drainRun ctx wg t.tid = s := State.drain_none (fun a ha => by
    have hother := hquiet a ha
    by_contra hmatch
    simp only [Bool.not_eq_false, Bool.and_eq_true, beq_iff_eq] at hmatch
    exact hother hmatch.1)
  have hdetect : s.detect ctx wg = s.endByRecord ctx wg t.tid TrapCode.regdl.num (t.claim.getD 0) (t.pc - 4) := by
    simp only [State.detect, hl, hw, ht, hdeadlocked, if_true, hdrain]
  rw [hdetect]
  exact ⟨(EndKept.endByRecord s ctx wg _ _ _ _).exited (fun j v hv => State.stopWg_exited hv), State.endByRecord_flight _ _ _ _ _ _ _⟩

end

/-- Settles O24: what each instruction does to its thread, the validation at the homes, and the detector. -/
theorem transactions : Obligations.Transactions := by
  unfold Obligations.Transactions
  refine ⟨fun sw m s g l hl h => ⟨fun hbound => ?_, fun k ks u htids hu hbound => ?_⟩,
    fun d s g k u h htids hu => ⟨fun hidle => ?_, fun hactive _ hlines hpolder => ?_⟩,
    fun m s g h => ⟨txa_aborts h, fun k ks u htids hu hidle => ?_⟩,
    fun s ctx wg k slot gid w u hw hu => ⟨fun hnone => ?_, fun hcommit hbehind => ?_, fun hcommit hturn hbehind =>
      ⟨txValidate_commits hw hu hcommit hturn hbehind, txValidate_aborts hw hu hcommit hturn hbehind⟩⟩,
    fun s ctx wg l w hl hw hrunning => ⟨fun hfree => ?_, fun hnone => ?_, fun hstuck hclaim hquiet => ?_⟩⟩
  · refine (txb_begins hl h hbound).imp (fun u v hwent => ⟨(((g.pc : Int) + m.toInt * 4) % (2 ^ 32 : Nat)).toNat, _, ?_, rfl, ?_⟩)
    · exact Int.toNat_of_nonneg (Int.emod_nonneg _ (by decide))
    · rw [← beginAborts_eq, ← txs_code, ← txs_cause]
      exact hwent
  · refine txCheck_traps (chk := txbCheck) (eff := beginTx m.toInt) h htids hu rfl rfl ?_
    have hl' : State.launch { s with group := none } g.ctx = some l := hl
    exact (txbCheck_eq hl' u).trans (if_pos hbound)
  · exact txCheck_traps (chk := txeCheck) (eff := endTx (rn d)) h htids hu rfl rfl (by rw [txeCheck, hidle]; rfl)
  · exact txe_validates h htids hu hactive hlines hpolder
  · exact txCheck_traps (chk := fun _ _ t => if t.tx.active then none else trapOf .illegal 0) h htids hu rfl rfl (by rw [hidle]; rfl)
  · exact congrArg Host.Outcome.next (txValidate_idle hw hu hnone)
  · exact congrArg Host.Outcome.next (txValidate_waits hw hu hcommit hbehind)
  · obtain ⟨u, hu, hlive, hgoes⟩ := hfree
    refine congrArg Host.Outcome.next (detect_none hl hw (.inr ?_))
    have hall : (w.threads.filter Thread.live).all (s.stuck l w) = false :=
      List.all_eq_false.mpr ⟨u, List.mem_filter.mpr ⟨hu, hlive⟩, by simp [hgoes]⟩
    simp only [State.deadlocked, hall, Bool.and_false]
  · refine congrArg Host.Outcome.next (detect_none hl hw (.inl ?_))
    rw [List.find?_eq_none]
    intro u hu
    obtain ⟨hu, hlive⟩ := List.mem_filter.mp hu
    simp [hnone u hu hlive]
  · obtain ⟨hexited, hflight⟩ := detect_ends hl hw hrunning hstuck hclaim hquiet
    exact ⟨_, rfl, hexited, hflight⟩

end Sys2Proof.Machine

end

section
/-! SUPPORT. Statement O26: PDISC and PMOVE at issue, PMOVE_COMPLETE, and the migration of polder pages. -/

namespace Sys2Proof.Machine

/-! The parts of a range (R192). -/

theorem Launch.polderAt_covers {l : Launch} {a : Nat} {r : Region} (h : l.polderAt a = some r) :
    r ∈ l.img.regions ∧ r.base ≤ a ∧ a < r.base + r.size := by
  have hmem := List.mem_of_find?_eq_some h
  have hcovers := List.find?_some h
  simp only [Region.covers, Bool.and_eq_true, decide_eq_true_eq] at hcovers
  obtain ⟨-, hlow, hhigh⟩ := hcovers
  exact ⟨hmem, hlow, hhigh⟩

theorem Launch.partsFrom_empty (l : Launch) (k a : Nat) : l.partsFrom k a 0 = [] := by
  cases k with
  | zero => rfl
  | succ k => rw [Launch.partsFrom, if_pos rfl]

theorem Launch.partsFrom_outside {l : Launch} {a : Nat} (h : l.polderAt a = none) (k n : Nat) : l.partsFrom k a n = [] := by
  cases k with
  | zero => rfl
  | succ k =>
    rw [Launch.partsFrom, h]
    split <;> rfl

/-- The first part of a range is that of the region it begins in. -/
theorem Launch.polderParts_first {l : Launch} {a n : Nat} {r : Region} (h : l.polderAt a = some r) (hn : n ≠ 0) :
    ∃ k, l.polderParts a n = (r, a, min n (r.base + r.size - a)) ::
      l.partsFrom k (a + min n (r.base + r.size - a)) (n - min n (r.base + r.size - a)) := by
  obtain ⟨hmem, -⟩ := Launch.polderAt_covers h
  obtain ⟨k, hk⟩ := Nat.exists_eq_succ_of_ne_zero (List.length_pos_of_mem hmem).ne'
  refine ⟨k, ?_⟩
  rw [Launch.polderParts, hk, Nat.succ_eq_add_one, Launch.partsFrom, if_neg hn, h]

theorem Launch.polderParts_inside {l : Launch} {a n : Nat} {r : Region} (h : l.polderAt a = some r) (hn : n ≠ 0) (hin : a + n ≤ r.base + r.size) :
    l.polderParts a n = [(r, a, n)] := by
  obtain ⟨k, hk⟩ := Launch.polderParts_first h hn
  rw [hk, Nat.min_eq_left (by omega), Nat.sub_self, Launch.partsFrom_empty]

/-- A range that leaves the polder regions at the end of its first: one part, shorter than the range. -/
theorem Launch.polderParts_cut {l : Launch} {a n : Nat} {r : Region} (h : l.polderAt a = some r) (hout : r.base + r.size < a + n)
    (hend : l.polderAt (r.base + r.size) = none) : l.polderParts a n = [(r, a, r.base + r.size - a)] := by
  obtain ⟨-, -, hhigh⟩ := Launch.polderAt_covers h
  obtain ⟨k, hk⟩ := Launch.polderParts_first h (n := n) (by omega)
  rw [hk, Nat.min_eq_right (by omega), Nat.add_sub_cancel' (by omega), Launch.partsFrom_outside hend]

/-- A range of whole pages: no share of it is misaligned, and the shares make up the whole. -/
theorem MoveRange.whole {l : Launch} {r : Region} {a n : Nat} (hr : l.polderAt a = some r) (h : MoveRange l r a n) :
    rangeMisaligned l r a n = false ∧ ((l.polderParts a n).map (fun p => p.2.2)).sum = n := by
  rcases h with ⟨hin, hpages⟩ | ⟨hmany, hsum, hpages⟩
  · by_cases hn : n = 0
    · subst hn
      simp [rangeMisaligned, Launch.polderParts, Launch.partsFrom_empty]
    · simp [rangeMisaligned, Launch.polderParts_inside hr hn hin, hpages]
  · refine ⟨?_, hsum⟩
    unfold rangeMisaligned
    split
    · simp_all
    · simp_all
    · rw [List.any_eq_false]
      intro p hp
      obtain ⟨hbase, hlength⟩ := hpages p hp
      simp [hbase, hlength]

theorem rangeMisaligned_share {l : Launch} {r : Region} {a n : Nat} (hmany : 1 < (l.polderParts a n).length)
    (h : ∃ p ∈ l.polderParts a n, p.2.1 % p.1.pageBytes ≠ 0 ∨ p.2.2 % p.1.pageBytes ≠ 0) : rangeMisaligned l r a n = true := by
  obtain ⟨p, hp, hodd⟩ := h
  unfold rangeMisaligned
  split
  · simp_all
  · simp_all
  · exact List.any_eq_true.mpr ⟨p, hp, by simpa using hodd⟩

theorem rangeMisaligned_inside {l : Launch} {r : Region} {a n : Nat} (hr : l.polderAt a = some r) (hin : a + n ≤ r.base + r.size)
    (h : n % r.pageBytes ≠ 0) : rangeMisaligned l r a n = true := by
  have hn : n ≠ 0 := fun hn => h (by rw [hn, Nat.zero_mod])
  simp [rangeMisaligned, Launch.polderParts_inside hr hn hin, h]

theorem Region.pageBytes_pos (r : Region) : 0 < r.pageBytes := by
  unfold Region.pageBytes
  split <;> decide

theorem pagesOf_ne_nil {r : Region} {base n : Nat} (hn : 0 < n) : pagesOf r base n ≠ [] := by
  have hlow := Nat.div_mul_le_self base r.pageBytes
  have hpages : 0 < cdiv (base + n - base / r.pageBytes * r.pageBytes) r.pageBytes :=
    Nat.div_pos (by have := r.pageBytes_pos; omega) r.pageBytes_pos
  intro hnil
  have hlength := congrArg List.length hnil
  rw [pagesOf, List.length_map, rangeFrom_length, List.length_nil] at hlength
  omega

/-! The answer of a lone member, and its access. -/

theorem perMember_none (s : State) (g : Group) : perMember s g 0 (fun _ _ => []) = [] := by
  refine List.flatMap_eq_nil_iff.mpr (fun p _ => ?_)
  cases s.threadOf g.ctx g.wg p.1 <;> rfl

/-- Members that send nothing change alone. -/
theorem Sends.performs {i : Instr} {s : State} {g : Group} {post : Thread → Thread → Prop} (h : Sends i s g [] post) : Performs i s g post := by
  obtain ⟨t, hexec, hsent, heach⟩ := h
  have hrest := hsent.rest
  rw [List.append_nil, List.length_nil, Nat.add_zero] at hrest
  exact ⟨t, hexec, ⟨hrest, hsent.others, hsent.shells, hsent.cores⟩, heach⟩

section
variable {i : Instr} {chk : State → Group → Thread → Option TrapInfo} {eff : State → Group → Nat → State} {s : State} {g : Group} {k : Nat}
  {u : Thread} (h : issuable i s g = true) (htids : g.tids = [k]) (hu : s.threadOf g.ctx g.wg k = some u)
  (hchk : chk { s with group := none } g u = none) (hexec : exec i s = .next (issue i chk eff s))
include h htids hu hchk hexec

/-- A lone member that is given a word at once owes it. -/
theorem lone_owes {d : Nat} {x : Word} (heff : ∀ p, Stepped i s g k u p → eff p g k = giveWord g k d x p) :
    Performs i s g (fun u v => Owes i (g.pc + i.bytes) d [x] u v) := by
  obtain ⟨p, hp, hstep⟩ := lone_effect h htids hu hchk rfl hexec
  obtain ⟨hgiven, hthread⟩ := giveWord_members g k d x p
  have hkept := (hp.kept.trans hgiven).trans (Kept.advance i g _ k [k] (by simp))
  rw [← htids] at hkept
  rw [heff p hp] at hstep
  refine ⟨_, hstep, ⟨by rw [hkept.rest], hkept.others, hkept.shells, hkept.cores⟩, fun j hj => ?_⟩
  rw [htids, List.mem_singleton] at hj
  subst hj
  refine ⟨u, _, hu, ?_, owes_word (issuable_ready h htids hu)⟩
  rw [State.threadOf_advance, hthread, hp.thread]
  rfl

/-- A lone member that sends one access, no first touch, owes its answer. -/
theorem lone_sends {op : AccOp} {addr n scope d w : Nat} (hw : w ≠ 0) (htouches : op.touches = false)
    (heff : ∀ p, Stepped i s g k u p → eff p g k = p.send g k .ord op addr n scope d w none (groupId p g)) :
    Sends i s g [sentAccess s g .ord op addr n scope (some u.nextSlot) s.nextId u]
      (fun u v => Went i (g.pc + i.bytes) (u.addResult (u.dests d w) none) u v) := by
  obtain ⟨p, hp, hstep⟩ := lone_effect h htids hu hchk rfl hexec
  obtain ⟨hsent, hthread⟩ := send_underWay (path := .ord) (op := op) (addr := addr) (size := n) (scope := scope) (d := d) (w := w) (tx := none)
    (UnderWay.of_kept hp.kept) hp.thread (by simp [htouches])
  rw [if_neg hw] at hsent
  rw [Thread.oweWords_pos hw] at hthread
  rw [heff p hp] at hstep
  have hall := ((SentBy.nil_of_kept hp.kept).trans hsent).trans (.nil_of_kept (Kept.advance i g _ k [k] (by simp)))
  have hid : p.nextId = s.nextId := by rw [hp.rest]
  rw [← htids, List.nil_append, List.append_nil, hid] at hall
  refine ⟨_, hstep, ⟨by rw [hall.rest]; rfl, hall.others, hall.shells, hall.cores⟩, fun j hj => ?_⟩
  rw [htids, List.mem_singleton] at hj
  subst hj
  refine ⟨u, _, hu, ?_, went_onThread (f := fun u => u.addResult (u.dests d w) none) (issuable_ready h htids hu) rfl rfl rfl⟩
  rw [State.threadOf_advance, hthread]
  rfl

end

/-! PDISC (R191). -/

section
variable {s : State} {g : Group} {l : Launch} {addr n : Nat}

theorem discardCheck_misaligned (h : addr % 128 ≠ 0) : discardCheck s g addr n = trapOf .align addr := by
  simp [discardCheck, h]

theorem discardCheck_empty (hl : s.launch g.ctx = some l) (h : addr % 128 = 0) : discardCheck s g addr 0 = none := by
  simp [discardCheck, h, withLaunch, hl, rangeFrom]

theorem discardCheck_lines (hl : s.launch g.ctx = some l) (h : addr % 128 = 0) (hn : n % 128 = 0)
    (hlines : ∀ j < n / 128, (l.polderAt (addr + 128 * j)).isSome = true) : discardCheck s g addr n = none := by
  have hall : (rangeFrom 0 (n / 128)).all (fun j => (l.polderAt (addr + 128 * j)).isSome) = true := by
    rw [List.all_eq_true, rangeFrom_eq_range']
    intro j hj
    exact hlines j (by simpa using hj)
  simp [discardCheck, h, hn, withLaunch, hl, hall]

end

section
variable {sw : Bool} {d a b : Reg} {s : State} {g : Group} {l : Launch} (hl : s.launch g.ctx = some l) (h : issuable (.pdisc sw d a b) s g = true)
include hl h

theorem pdisc_empty (hall : Members s g (fun u => u.readPair a.toNat % 128 = 0 ∧ u.readW b.toNat = 0)) :
    Performs (.pdisc sw d a b) s g (fun u v => Owes (.pdisc sw d a b) (g.pc + 4) d.toNat [0] u v) := by
  have hzero : ∀ k ∈ g.tids, ∀ u, s.threadOf g.ctx g.wg k = some u → (u.readW (rn b)).toNat = 0 := fun k hk u hu => by
    obtain ⟨-, hz⟩ := hall k hk u hu
    exact congrArg BitVec.toNat hz
  have hsends := issueHeld_sends (i := .pdisc sw d a b)
    (chk := fun s g t => discardCheck s g (t.readPair (rn a)) (t.readW (rn b)).toNat)
    (φ := fun u => u.addResult (u.dests (rn d) 1) (some [some 0])) (mk := fun _ _ => []) (n := 0) h
    (fun k hk u hu => by
      obtain ⟨halign, -⟩ := hall k hk u hu
      rw [hzero k hk u hu]
      exact discardCheck_empty (s := { s with group := none }) hl halign)
    (fun _ _ _ _ => rfl) (fun _ _ => rfl) (fun _ _ _ => rfl) (fun _ _ => rfl) (fun _ => ⟨rfl, rfl⟩)
    (fun t k u hk ht hu hthread => by
      have hz : (Thread.readW { u with pc := g.pc + Instr.bytes (.pdisc sw d a b), holdPc := none } (rn b)).toNat = 0 := hzero k hk u hu
      obtain ⟨hgiven, hgave⟩ := giveWord_members g k (rn d) 0 t
      simp only [hthread, hz, if_true]
      exact ⟨.nil_of_kept hgiven, hgave.trans (congrArg (Option.map _) hthread)⟩) rfl
  rw [perMember_none] at hsends
  exact hsends.performs.imp (fun u v hwent => ⟨hwent.rest, hwent.run⟩)

theorem pdisc_sends (hall : Members s g (fun u => u.readPair a.toNat % 128 = 0 ∧ (u.readW b.toNat).toNat % 128 = 0 ∧ u.readW b.toNat ≠ 0 ∧
      ∀ j < (u.readW b.toNat).toNat / 128, (l.polderAt (u.readPair a.toNat + 128 * j)).isSome = true)) :
    Sends (.pdisc sw d a b) s g
      (perMember s g 1 (fun id u => [sentAccess s g .ord (.discard (u.readW b.toNat).toNat) (u.readPair a.toNat)
        (u.readW b.toNat).toNat 0 (some u.nextSlot) id u]))
      (fun u v => Went (.pdisc sw d a b) (g.pc + 4) { u with
        results := u.results ++ [owing u 0 d.toNat 1], nextSlot := u.nextSlot + 1 } u v) := by
  refine issueHeld_sends (i := .pdisc sw d a b)
    (chk := fun s g t => discardCheck s g (t.readPair (rn a)) (t.readW (rn b)).toNat)
    (φ := fun u => { u with results := u.results ++ [owing u 0 d.toNat 1], nextSlot := u.nextSlot + 1 }) h (fun k hk u hu => ?_)
    (fun _ _ _ _ => rfl) (fun _ _ => rfl) (fun _ _ _ => rfl) (fun _ _ => rfl) (fun _ => ⟨rfl, rfl⟩) (fun t k u hk ht hu hthread => ?_) rfl
  · obtain ⟨halign, hn, -, hlines⟩ := hall k hk u hu
    exact discardCheck_lines (s := { s with group := none }) hl halign hn hlines
  · obtain ⟨-, -, hne, -⟩ := hall k hk u hu
    have hz : (Thread.readW { u with pc := g.pc + Instr.bytes (.pdisc sw d a b), holdPc := none } (rn b)).toNat ≠ 0 :=
      fun hz => hne (BitVec.eq_of_toNat_eq hz)
    have hsent := send_underWay (path := .ord) (op := .discard (u.readW b.toNat).toNat) (addr := u.readPair a.toNat)
      (size := (u.readW b.toNat).toNat) (scope := 0) (d := rn d) (w := 1) (tx := none) ht hthread (by simp [AccOp.touches])
    rw [if_neg (by decide), Thread.oweWords_pos (by decide)] at hsent
    simp only [hthread, hz, if_false]
    exact hsent

end

/-! PMOVE at issue (R192). -/

section
variable {s : State} {g : Group} {l : Launch} {r : Region} {addr n x : Nat} (hl : s.launch g.ctx = some l)
include hl

theorem moveCheck_outside (h : l.polderAt addr = none) : moveCheck s g addr n x = trapOf .access addr := by
  simp only [moveCheck, withLaunch, hl, h]

variable (hr : l.polderAt addr = some r)
include hr

theorem moveCheck_misaligned (h : addr % r.pageBytes ≠ 0 ∨ rangeMisaligned l r addr n = true) : moveCheck s g addr n x = trapOf .align addr := by
  simp only [moveCheck, withLaunch, hl, hr]
  rw [if_pos (by simpa using h)]

theorem moveCheck_cut (halign : addr % r.pageBytes = 0) (hn : n % r.pageBytes = 0) (hout : r.base + r.size < addr + n)
    (hend : l.polderAt (r.base + r.size) = none) : moveCheck s g addr n x = trapOf .access addr := by
  have hparts := Launch.polderParts_cut hr hout hend
  have hmisaligned : rangeMisaligned l r addr n = false := by simp [rangeMisaligned, hparts, hn]
  obtain ⟨-, hlow, hhigh⟩ := Launch.polderAt_covers hr
  simp only [moveCheck, withLaunch, hl, hr]
  rw [if_neg (by simp [halign, hmisaligned]), if_pos]
  have hcut : r.base + r.size - addr ≠ n := by omega
  rw [hparts, List.map_singleton, List.sum_singleton, bne_iff_ne]
  exact hcut

/-- An aligned range of whole pages and a handle of the launch's pass every check. -/
theorem moveCheck_passes (halign : addr % r.pageBytes = 0) (hrange : MoveRange l r addr n) (hbits : x / 8 % 2 ^ 13 = 0)
    (hheld : ∃ y ∈ s.leases ++ s.evicted ++ s.wgs.flatMap (fun w => w.savedLeases), y.released = false ∧ y.ctx = g.ctx ∧ y.cls = 2 ∧
      y.handle / 4 = x / 2 ^ 18 ∧ x / 2 ^ 16 % 4 < y.count) : moveCheck s g addr n x = none := by
  obtain ⟨hmisaligned, hsum⟩ := hrange.whole hr
  obtain ⟨y, hy, hreleased, hctx, hcls, hhandle, hcount⟩ := hheld
  have hany : (s.leases ++ s.evicted ++ s.wgs.flatMap (fun w => w.savedLeases)).any (fun y => !y.released && y.ctx == g.ctx && y.cls == 2 &&
      y.handle / 4 == x / 2 ^ 18 && decide (x / 2 ^ 16 % 4 < y.count)) = true :=
    List.any_eq_true.mpr ⟨y, hy, by simpa [hreleased, hctx, hcls, hhandle] using hcount⟩
  have hfield : bits x 15 3 = 0 := hbits
  simp only [moveCheck, withLaunch, hl, hr]
  rw [if_neg (by simp [halign, hmisaligned]), if_neg (by simp [hsum]), if_neg (by simp [hfield]), if_neg (by simp only [hany]; decide)]

end

/-! What a move does (R124, R192). -/

/-- A page that still stands at its region's home goes to any other die. -/
theorem State.pagesToMove_all {s : State} {ctx target : Nat} {r : Region} {pages : List Nat} (hhome : r.home ≠ target)
    (hnone : ∀ pg ∈ pages, s.polderPage ctx pg = none) : s.pagesToMove ctx r pages target = pages := by
  rw [State.pagesToMove, List.filter_eq_self]
  intro pg hpg
  simp only [hnone pg hpg]
  exact bne_iff_ne.mpr hhome

section
variable {s : State} {l : Launch} {addr n target : Nat}
  (hall : ∀ p ∈ l.polderParts addr n, p.1.home ≠ target ∧ ∀ pg ∈ pagesOf p.1 p.2.1 p.2.2, s.polderPage l.ctx pg = none)
include hall

theorem State.bytesToMove_all : s.bytesToMove l addr n target =
    ((l.polderParts addr n).map (fun p => s.pagesHeld l.ctx p.1 (pagesOf p.1 p.2.1 p.2.2))).sum := by
  refine congrArg List.sum (List.map_congr_left (fun p hp => ?_))
  obtain ⟨hhome, hnone⟩ := hall p hp
  rw [State.pagesToMove_all hhome hnone]

/-- Of a range all of whose pages are to move, and which has one, the status is that of its lease, then of the room (Table 15). -/
theorem State.moveStatus_all (hsome : ∃ p ∈ l.polderParts addr n, pagesOf p.1 p.2.1 p.2.2 ≠ []) (evicted : Bool) :
    s.moveStatus l addr n target evicted = if evicted then 2 else if s.polderRoom l target < s.bytesToMove l addr n target then 1 else 0 := by
  have hbacked : (l.polderParts addr n).any (fun p => (pagesOf p.1 p.2.1 p.2.2).any (s.pageBacked l.ctx)) = false := by
    rw [List.any_eq_false]
    intro p hp
    obtain ⟨-, hnone⟩ := hall p hp
    rw [List.any_eq_true]
    rintro ⟨pg, hpg, hbacked⟩
    simp [State.pageBacked, hnone pg hpg] at hbacked
  have hdone : (l.polderParts addr n).all (fun p => (s.pagesToMove l.ctx p.1 (pagesOf p.1 p.2.1 p.2.2) target).isEmpty) = false := by
    obtain ⟨p, hp, hpages⟩ := hsome
    obtain ⟨hhome, hnone⟩ := hall p hp
    refine List.all_eq_false.mpr ⟨p, hp, ?_⟩
    rw [State.pagesToMove_all hhome hnone]
    simpa using hpages
  simp only [State.moveStatus, hbacked, hdone, Bool.false_eq_true, if_false]

end

theorem MoveRange.pages {l : Launch} {r : Region} {a n : Nat} (hr : l.polderAt a = some r) (h : MoveRange l r a n) (hn : 0 < n) :
    ∃ p ∈ l.polderParts a n, pagesOf p.1 p.2.1 p.2.2 ≠ [] := by
  obtain ⟨-, hsum⟩ := h.whole hr
  by_contra hnone
  have hzero : ∀ x ∈ (l.polderParts a n).map (fun p => p.2.2), x = 0 := by
    intro x hx
    obtain ⟨p, hp, rfl⟩ := List.mem_map.mp hx
    by_contra hx
    exact hnone ⟨p, hp, pagesOf_ne_nil (Nat.pos_of_ne_zero hx)⟩
  rw [List.sum_eq_zero_iff.mpr hzero] at hsum
  omega

section
variable {sw : Bool} {d a b : Reg} {s : State} {g : Group} {l : Launch} {k : Nat} {u : Thread} {r : Region} (hl : s.launch g.ctx = some l)
  (h : issuable (.pmove sw d a b) s g = true) (htids : g.tids = [k]) (hu : s.threadOf g.ctx g.wg k = some u)
  (hchk : moveCheck { s with group := none } g (u.readPair (rn a)) (u.readW (rn b)).toNat (u.readW (rn b + 1)).toNat = none)
include h htids hu hchk

theorem pmove_busy (hbusy : moveBusy s g.ctx (u.readPair a.toNat) (u.readW b.toNat).toNat = true) :
    Performs (.pmove sw d a b) s g (fun u v => Owes (.pmove sw d a b) (g.pc + 4) d.toNat [3] u v) := by
  refine lone_owes (i := .pmove sw d a b)
    (chk := fun s g t => moveCheck s g (t.readPair (rn a)) (t.readW (rn b)).toNat (t.readW (rn b + 1)).toNat) h htids hu hchk rfl (fun p hp => ?_)
  have hbusy' : moveBusy p g.ctx (u.readPair (rn a)) (u.readW (rn b)).toNat = true := by
    rw [hp.rest]
    exact hbusy
  simp only [hp.thread]
  exact if_pos hbusy'

variable (hfree : moveBusy s g.ctx (u.readPair a.toNat) (u.readW b.toNat).toNat = false)
include hfree

theorem pmove_sends (hlive : ∀ y ∈ s.evicted, ¬(y.ctx = g.ctx ∧ y.handle / 4 = (u.readW (b.toNat + 1)).toNat / 2 ^ 18)) :
    Sends (.pmove sw d a b) s g
      [sentAccess s g .ord (.move (u.readW b.toNat).toNat ((u.readW (b.toNat + 1)).toNat % 8) ((u.readW (b.toNat + 1)).toNat / 2 ^ 16))
        (u.readPair a.toNat) (u.readW b.toNat).toNat 0 (some u.nextSlot) s.nextId u]
      (fun u v => Went (.pmove sw d a b) (g.pc + 4) { u with
        results := u.results ++ [owing u 0 d.toNat 1], nextSlot := u.nextSlot + 1 } u v) := by
  refine lone_sends (i := .pmove sw d a b)
    (chk := fun s g t => moveCheck s g (t.readPair (rn a)) (t.readW (rn b)).toNat (t.readW (rn b + 1)).toNat) (d := rn d) (w := 1)
    h htids hu hchk rfl (by decide) rfl (fun p hp => ?_)
  have hfree' : moveBusy p g.ctx (u.readPair (rn a)) (u.readW (rn b)).toNat = false := by
    rw [hp.rest]
    exact hfree
  have hlive' : p.evicted.any (fun y => y.ctx == g.ctx && y.handle / 4 == (u.readW (rn b + 1)).toNat / 2 ^ 18) = false := by
    rw [hp.rest, List.any_eq_false]
    intro y hy
    simpa using hlive y hy
  simp only [hp.thread]
  refine (if_neg (by rw [Bool.not_eq_true]; exact hfree')).trans (if_neg ?_)
  rw [Bool.not_eq_true]
  exact hlive'

include hl
theorem pmove_evicted (hevicted : ∃ y ∈ s.evicted, y.ctx = g.ctx ∧ y.handle / 4 = (u.readW (b.toNat + 1)).toNat / 2 ^ 18)
    (hstatus : s.moveStatus l (u.readPair a.toNat) (u.readW b.toNat).toNat ((u.readW (b.toNat + 1)).toNat % 8) true = 2) :
    Performs (.pmove sw d a b) s g (fun u v => Owes (.pmove sw d a b) (g.pc + 4) d.toNat [2] u v) := by
  refine lone_owes (i := .pmove sw d a b)
    (chk := fun s g t => moveCheck s g (t.readPair (rn a)) (t.readW (rn b)).toNat (t.readW (rn b + 1)).toNat) h htids hu hchk rfl (fun p hp => ?_)
  have hfree' : moveBusy p g.ctx (u.readPair (rn a)) (u.readW (rn b)).toNat = false := by
    rw [hp.rest]
    exact hfree
  have hevicted' : p.evicted.any (fun y => y.ctx == g.ctx && y.handle / 4 == (u.readW (rn b + 1)).toNat / 2 ^ 18) = true := by
    obtain ⟨y, hy, hctx, hhandle⟩ := hevicted
    rw [hp.rest]
    exact List.any_eq_true.mpr ⟨y, hy, by simp [hctx, hhandle]⟩
  have hanswer : moveAtOnce p g (u.readPair (rn a)) (u.readW (rn b)).toNat ((u.readW (rn b + 1)).toNat % 8) = 2 := by
    have hl' : p.launch g.ctx = some l := ((UnderWay.of_kept hp.kept).launch _).trans hl
    refine (withLaunch_some hl').trans ?_
    rw [hp.rest]
    exact congrArg (BitVec.ofNat 32) hstatus
  simp only [hp.thread]
  refine (if_neg (by rw [Bool.not_eq_true]; exact hfree')).trans ((if_pos hevicted').trans ?_)
  exact congrArg (fun x => giveWord g k (rn d) x p) hanswer

end

end Sys2Proof.Machine

end

section
/-! SUPPORT. Statement O26: what becomes of the pages that a move or a migration takes. -/

namespace Sys2Proof.Machine

/-- A fold one of whose steps attains what every later step keeps. -/
theorem foldl_attains {σ ε : Type} {F : σ → ε → σ} {inv done : σ → Prop} {es : List ε} (hinv : ∀ s, ∀ e ∈ es, inv s → inv (F s e))
    (hdone : ∀ s, ∀ e ∈ es, inv s → done s → done (F s e)) {e : ε} (he : e ∈ es) (hhit : ∀ s, inv s → done (F s e)) {s : σ} (hs : inv s) :
    done (es.foldl F s) := by
  have hkeep : ∀ xs : List ε, (∀ x ∈ xs, x ∈ es) → ∀ s, inv s → done s → done (xs.foldl F s) := by
    intro xs
    induction xs with
    | nil => exact fun _ _ _ hd => hd
    | cons x xs ih =>
      intro hsub s hs hd
      obtain ⟨hx, hsub⟩ := List.forall_mem_cons.mp hsub
      exact ih hsub _ (hinv s x hx hs) (hdone s x hx hs hd)
  have hreach : ∀ xs : List ε, (∀ x ∈ xs, x ∈ es) → e ∈ xs → ∀ s, inv s → done (xs.foldl F s) := by
    intro xs
    induction xs with
    | nil => exact fun _ he => absurd he List.not_mem_nil
    | cons x xs ih =>
      intro hsub he s hs
      obtain ⟨hx, hsub'⟩ := List.forall_mem_cons.mp hsub
      rcases List.mem_cons.mp he with rfl | he
      · exact hkeep xs hsub' _ (hinv s e hx hs) (hhit s hs)
      · exact ih hsub' he _ (hinv s x hx hs)
  exact hreach es (fun _ hx => hx) he s hs

/-- What every step of a fold keeps, the fold keeps. -/
theorem foldl_keeps {σ ε : Type} {F : σ → ε → σ} {inv : σ → Prop} (es : List ε) (hinv : ∀ s, ∀ e ∈ es, inv s → inv (F s e)) {s : σ} (hs : inv s) :
    inv (es.foldl F s) := by
  induction es generalizing s with
  | nil => exact hs
  | cons e es ih =>
    exact ih (fun s x hx => hinv s x (List.mem_cons_of_mem e hx)) (hinv s e List.mem_cons_self hs)

/-! Pages. -/

theorem State.polderPage_setPolderPage (s : State) (ctx page : Nat) (x : PolderPage) (pg : Nat) :
    (s.setPolderPage ctx page x).polderPage ctx pg = if pg = page then some x else s.polderPage ctx pg := by
  by_cases hpage : pg = page
  · subst hpage
    simp [State.polderPage, State.setPolderPage]
  · have hother : ¬page = pg := fun h => hpage h.symm
    simp only [State.polderPage, State.setPolderPage, List.find?_cons, if_neg hpage]
    rw [show (ctx == ctx && page == pg) = false by simp [hother], List.find?_filter]
    refine congrArg (Option.map _) (congrFun (congrArg List.find? (funext fun p => ?_)) _)
    by_cases hp : p.page = pg
    · simp [hp, hpage, beq_eq_decide]
    · simp [hp]

/-- Pages of a state but for the pages' own states, the fault records and the dies' error counts. -/
def SameButPages (s t : State) : Prop := t = { s with polderPages := t.polderPages, faultQueue := t.faultQueue, dies := t.dies }

theorem SameButPages.trans {s t u : State} (h : SameButPages s t) (k : SameButPages t u) : SameButPages s u := by
  unfold SameButPages at *
  rw [k, h]

theorem SameButPages.refl (s : State) : SameButPages s s := rfl

theorem SameButPages.setPolderPage (s : State) (ctx page : Nat) (x : PolderPage) : SameButPages s (s.setPolderPage ctx page x) := rfl

theorem SameButPages.setAll (ctx : Nat) (x : PolderPage) (pages : List Nat) (s : State) :
    SameButPages s (pages.foldl (fun s pg => s.setPolderPage ctx pg x) s) :=
  foldl_keeps (F := fun s pg => s.setPolderPage ctx pg x) (inv := SameButPages s) pages (fun t pg _ h => h.trans (.setPolderPage t ctx pg x)) (.refl s)

theorem State.faultQueue_setAll (ctx : Nat) (x : PolderPage) (pages : List Nat) (s : State) :
    (pages.foldl (fun s pg => s.setPolderPage ctx pg x) s).faultQueue = s.faultQueue :=
  foldl_keeps (F := fun (s : State) pg => s.setPolderPage ctx pg x) (inv := fun t => t.faultQueue = s.faultQueue) pages (fun _ _ _ h => h) rfl

theorem State.polderPage_setAll (ctx : Nat) (x : PolderPage) (pages : List Nat) (s : State) (pg : Nat) :
    (pages.foldl (fun s pg => s.setPolderPage ctx pg x) s).polderPage ctx pg = if pg ∈ pages then some x else s.polderPage ctx pg := by
  induction pages generalizing s with
  | nil => simp
  | cons page pages ih =>
    rw [List.foldl_cons, ih, State.polderPage_setPolderPage]
    by_cases hpages : pg ∈ pages
    · simp [hpages]
    · simp [hpages]

theorem State.polderPage_movePages (s : State) (ctx : Nat) (r : Region) (pages : List Nat) (target pg : Nat) :
    (s.movePages ctx r pages target).polderPage ctx pg = if pg ∈ pages then some (.moved target) else s.polderPage ctx pg :=
  (s.reportLines (s.badLines ctx r pages)).polderPage_setAll ctx (.moved target) pages pg

theorem SameButPages.movePages (s : State) (ctx : Nat) (r : Region) (pages : List Nat) (target : Nat) :
    SameButPages s (s.movePages ctx r pages target) :=
  SameButPages.trans (t := s.reportLines (s.badLines ctx r pages)) rfl (.setAll ctx (.moved target) pages _)

theorem SameButPages.moveRange (s : State) (l : Launch) (addr n target : Nat) : SameButPages s (s.moveRange l addr n target) :=
  foldl_keeps (inv := SameButPages s) (l.polderParts addr n)
    (fun t p _ h => h.trans (.movePages t l.ctx p.1 (t.pagesToMove l.ctx p.1 (pagesOf p.1 p.2.1 p.2.2) target) target)) rfl

/-- One integrity record for each line that a move finds bad (R365). -/
theorem State.faultQueue_movePages (s : State) (ctx : Nat) (r : Region) (pages : List Nat) (target : Nat) :
    (s.movePages ctx r pages target).faultQueue.length = s.faultQueue.length + (s.badLines ctx r pages).length := by
  rw [State.movePages, State.faultQueue_setAll, State.reportLines, List.length_append, List.length_map]

/-- Where no line's check value differs, a move changes the pages alone. -/
theorem State.moveRange_clean {s : State} (hclean : s.badCheck = []) (l : Launch) (addr n target : Nat) :
    s.moveRange l addr n target = { s with polderPages := (s.moveRange l addr n target).polderPages } := by
  have hstep : ∀ (t : State) (ctx : Nat) (r : Region) (pages : List Nat), t.badCheck = [] →
      t.movePages ctx r pages target = { t with polderPages := (t.movePages ctx r pages target).polderPages } := by
    intro t ctx r pages ht
    have hreport : t.reportLines (t.badLines ctx r pages) = t := by
      rw [State.badLines, ht, List.filter_nil, State.reportLines, List.map_nil, List.append_nil, List.foldl_nil]
    rw [State.movePages, hreport]
    exact foldl_keeps (inv := fun q : State => q = { t with polderPages := q.polderPages }) pages (fun q _ _ h => by rw [h]; rfl) rfl
  refine foldl_keeps (inv := fun q : State => q = { s with polderPages := q.polderPages }) (l.polderParts addr n) (fun q p _ h => ?_) rfl
  have hq : q.badCheck = [] := by
    rw [h]
    exact hclean
  rw [hstep q _ _ _ hq]
  rw [h]

/-- A page at its region's home, or gone to the target already. -/
def Movable (ctx target pg : Nat) (s : State) : Prop := s.polderPage ctx pg = none ∨ s.polderPage ctx pg = some (.moved target)

/-- Every page of a range that stood at its region's home, not the target, has the target as its home (R124). -/
theorem State.moveRange_moves {s : State} {l : Launch} {addr n target pg : Nat} {p : Region × Nat × Nat} (hp : p ∈ l.polderParts addr n)
    (hpg : pg ∈ pagesOf p.1 p.2.1 p.2.2) (hhome : p.1.home ≠ target) (hnone : s.polderPage l.ctx pg = none) :
    (s.moveRange l addr n target).polderPage l.ctx pg = some (.moved target) := by
  refine foldl_attains (inv := Movable l.ctx target pg) (done := fun t => t.polderPage l.ctx pg = some (.moved target))
    (es := l.polderParts addr n) (fun t q _ ht => ?_) (fun t q _ _ ht => ?_) hp (fun t ht => ?_) (.inl hnone)
  · rw [Movable, State.polderPage_movePages]
    split
    · exact .inr rfl
    · exact ht
  · rw [State.polderPage_movePages, ht, ite_self]
  · rw [State.polderPage_movePages]
    rcases ht with ht | ht
    · rw [if_pos]
      refine List.mem_filter.mpr ⟨hpg, ?_⟩
      simp only [ht]
      exact bne_iff_ne.mpr hhome
    · rw [ht, ite_self]

/-! PMOVE_COMPLETE (R124, R192). -/

section
variable {s : State} {m bytes target handle slot : Nat} {a : Access} {l : Launch} {u : Thread} (hdue : Due s m a) (hop : a.op = .move bytes target handle)
  (hslot : a.slot = some slot) (hl : s.launch a.ctx = some l) (hu : s.threadOf a.ctx a.wg a.tid = some u)
  (hlive : ∀ y ∈ s.evicted, ¬(y.ctx = a.ctx ∧ y.handle / 4 = handle / 4))
include hdue hop hl hlive

/-- The move performs as Table 15 says of its range. -/
theorem pmoveComplete_eq {code : Nat} {t : State} (hcode : s.moveStatus l a.addr bytes target false = code)
    (ht : t = if code = 0 then s.moveRange l a.addr bytes target else s) :
    exec (.pmoveComplete m) s = .next (({ t.drop a with free := s.free + 1 }).answer a [some (BitVec.ofNat 32 code)]) := by
  have hnone : s.evicted.any (fun y => y.ctx == a.ctx && y.handle / 4 == handle / 4) = false := by
    rw [List.any_eq_false]
    intro y hy
    simpa using hlive y hy
  refine congrArg Host.Outcome.next (State.performId_done hdue (by rw [hop]) ?_)
  simp only [State.perform, hdue.unblocked, hop, State.performMove, hl, hnone, Bool.false_and, hcode, ← ht, Bool.false_eq_true, if_false]

include hslot hu
theorem pmoveComplete_answers {code : Nat} {t : State} (hcode : s.moveStatus l a.addr bytes target false = code)
    (ht : t = if code = 0 then s.moveRange l a.addr bytes target else s) (hsame : SameButPages s t) :
    ∃ q, exec (.pmoveComplete m) s = .next q ∧ Landed s q m ∧ q.mem = s.mem ∧
      q.threadOf a.ctx a.wg a.tid = some (u.fillSlot slot [some (BitVec.ofNat 32 code)]) ∧ q.badCheck = s.badCheck ∧
      q.faultQueue = t.faultQueue ∧ q.polderPages = t.polderPages := by
  have hanswer := State.answer_eq ({ t.drop a with free := s.free + 1 }) a [some (BitVec.ofNat 32 code)]
  have hflight : t.flight = s.flight := by rw [hsame]
  have hmem : t.mem = s.mem := by rw [hsame]
  have hcheck : t.badCheck = s.badCheck := by rw [hsame]
  have hthread : t.threadOf a.ctx a.wg a.tid = some u := by
    rw [hsame]
    exact hu
  refine ⟨_, pmoveComplete_eq hdue hop hl hlive hcode ht, hdue.landed ?_, ?_, ?_, ?_, ?_, ?_⟩
  · rw [hanswer]
    show (t.drop a).flight = (s.drop a).flight
    rw [State.drop_flight, State.drop_flight, hflight]
  · rw [hanswer]
    exact hmem
  · simp only [State.answer, hslot]
    refine (State.threadOf_modThread_same _ _ _ _ (fun t => t.fillSlot slot [some (BitVec.ofNat 32 code)]) (fun _ => rfl)).trans ?_
    exact congrArg (Option.map _) hthread
  · rw [hanswer]
    exact hcheck
  · rw [hanswer]
    rfl
  · rw [hanswer]
    rfl

end

/-! POLDER_MIGRATION_ORDER (R123, R124). -/

theorem State.writeHome_polderPages (s : State) (key : Nat) (bs : List Byte) : (s.writeHome key bs).polderPages = s.polderPages := rfl

theorem State.clearLines_rest (ctx : Nat) (lines : List (Nat × Nat)) (s : State) :
    (lines.foldl (fun s p => s.writeHome (polderKey ctx (p.2 * 128)) (List.replicate 128 0)) s).polderPages = s.polderPages ∧
      (lines.foldl (fun s p => s.writeHome (polderKey ctx (p.2 * 128)) (List.replicate 128 0)) s).flight = s.flight := by
  induction lines generalizing s with
  | nil => exact ⟨rfl, rfl⟩
  | cons p lines ih =>
    rw [List.foldl_cons]
    obtain ⟨hpages, hflight⟩ := ih (s.writeHome (polderKey ctx (p.2 * 128)) (List.replicate 128 0))
    exact ⟨hpages.trans (s.writeHome_polderPages _ _), hflight.trans (s.writeHome_flight _ _)⟩

theorem State.discardLines_rest (s : State) (ctx va n : Nat) :
    (s.discardLines ctx va n).1.polderPages = s.polderPages ∧ (s.discardLines ctx va n).1.flight = s.flight := by
  simp only [State.discardLines]
  exact State.clearLines_rest ctx _ s

theorem State.breach_polderPages (s : State) (ctx party cause site die : Nat) (lost : Bool) :
    (s.breach ctx party cause site die lost).polderPages = s.polderPages := by
  unfold State.breach
  split
  · rfl
  · split <;> rfl

/-- A page that is at its region's home or lost already, in a state with no access of the launch on its way. -/
def Losable (ctx pg : Nat) (byDevice : Bool) (s : State) : Prop :=
  (∀ a ∈ s.flight, a.ctx ≠ ctx) ∧ (s.polderPage ctx pg = none ∨ s.polderPage ctx pg = some (.lost byDevice))

section
variable {ctx pg : Nat} {byDevice : Bool} {r : Region}

/-- A page that declares no late frame is lost (R123). -/
def State.losePage (s : State) (ctx : Nat) (r : Region) (byDevice : Bool) (page : Nat) : State :=
  match s.polderPage ctx page with
  | some (.backed _) => s
  | some (.moved _) | some (.lost _) | none =>
    if r.late then s.backPage ctx r page
    else (s.discardLines ctx (page * 2 ^ 16) r.pageBytes).1.setPolderPage ctx page (.lost byDevice)

theorem State.breachPages_eq {s : State} (h : ∀ a ∈ s.flight, a.ctx ≠ ctx) (pages : List Nat) :
    s.breachPages ctx r pages byDevice = pages.foldl (fun s page => s.losePage ctx r byDevice page) s := by
  have hdrain : s.drain (fun a => a.toPage ctx r pages) = s := State.drain_none (fun a ha => by simp [Access.toPage, h a ha])
  rw [State.breachPages, hdrain]
  rfl

variable (hlate : r.late = false)
include hlate

theorem State.losePage_page {s : State} (page : Nat) : (s.losePage ctx r byDevice page).flight = s.flight ∧
    (s.losePage ctx r byDevice page).polderPage ctx pg =
      if pg = page ∧ s.pageBacked ctx page = false then some (.lost byDevice) else s.polderPage ctx pg := by
  obtain ⟨hpages, hflight⟩ := s.discardLines_rest ctx (page * 2 ^ 16) r.pageBytes
  have hlost : (((s.discardLines ctx (page * 2 ^ 16) r.pageBytes).1.setPolderPage ctx page (.lost byDevice)).flight = s.flight) ∧
      ((s.discardLines ctx (page * 2 ^ 16) r.pageBytes).1.setPolderPage ctx page (.lost byDevice)).polderPage ctx pg =
        if pg = page then some (.lost byDevice) else s.polderPage ctx pg := by
    refine ⟨hflight, ?_⟩
    rw [State.polderPage_setPolderPage]
    simp only [State.polderPage, hpages]
  cases hp : s.polderPage ctx page with
  | none => simpa [State.losePage, State.pageBacked, hp, hlate] using hlost
  | some x =>
    cases x with
    | backed n => simp [State.losePage, State.pageBacked, hp]
    | moved d => simpa [State.losePage, State.pageBacked, hp, hlate] using hlost
    | lost b => simpa [State.losePage, State.pageBacked, hp, hlate] using hlost

theorem Losable.losePage {s : State} (h : Losable ctx pg byDevice s) (page : Nat) : Losable ctx pg byDevice (s.losePage ctx r byDevice page) := by
  obtain ⟨hflight, hpage⟩ := s.losePage_page (ctx := ctx) (pg := pg) (byDevice := byDevice) hlate page
  obtain ⟨hquiet, hstate⟩ := h
  refine ⟨by rw [hflight]; exact hquiet, ?_⟩
  rw [hpage]
  split
  · exact .inr rfl
  · exact hstate

theorem Losable.breachPages {s : State} (h : Losable ctx pg byDevice s) (pages : List Nat) :
    Losable ctx pg byDevice (s.breachPages ctx r pages byDevice) ∧
      (s.polderPage ctx pg = some (.lost byDevice) ∨ pg ∈ pages →
        (s.breachPages ctx r pages byDevice).polderPage ctx pg = some (.lost byDevice)) := by
  have hkeep : ∀ t page, t.polderPage ctx pg = some (.lost byDevice) →
      (State.losePage t ctx r byDevice page).polderPage ctx pg = some (.lost byDevice) := by
    intro t page ht
    obtain ⟨-, hpage⟩ := t.losePage_page (ctx := ctx) (pg := pg) (byDevice := byDevice) hlate page
    rw [hpage, ht, ite_self]
  rw [State.breachPages_eq h.1]
  refine ⟨foldl_keeps (inv := Losable ctx pg byDevice) pages (fun t page _ ht => ht.losePage hlate page) h, ?_⟩
  rintro (hlost | hmem)
  · exact foldl_keeps (inv := fun t => t.polderPage ctx pg = some (.lost byDevice)) pages (fun t page _ => hkeep t page) hlost
  · refine foldl_attains (inv := Losable ctx pg byDevice) (done := fun t => t.polderPage ctx pg = some (.lost byDevice))
      (fun t page _ ht => ht.losePage hlate page) (fun t page _ _ => hkeep t page) hmem (fun t ht => ?_) h
    obtain ⟨-, hpage⟩ := t.losePage_page (ctx := ctx) (pg := pg) (byDevice := byDevice) hlate pg
    obtain ⟨-, hstate⟩ := ht
    rw [hpage, if_pos]
    rcases hstate with hstate | hstate <;> simp [State.pageBacked, hstate]

end

section
variable {s : State} {ctx base bytes target : Nat} {byDevice : Bool} {l : Launch} {r : Region} (hl : s.launch ctx = some l)
include hl

theorem migration_outside (hbase : l.polderAt base = none) : exec (.polderMigrationOrder ctx base bytes target byDevice) s = .next s := by
  refine congrArg Host.Outcome.next ?_
  simp only [State.migrate, hl, hbase]

variable (hr : l.polderAt base = some r)
include hr

theorem migration_moves (hroom : s.bytesToMove l base bytes target ≤ s.polderRoom l target + s.polderSpare target) :
    exec (.polderMigrationOrder ctx base bytes target byDevice) s = .next (s.moveRange l base bytes target) := by
  refine congrArg Host.Outcome.next ?_
  simp only [State.migrate, hl, hr, if_pos hroom]

/-- Without room, and with no late frame declared, the pages are lost (R123). -/
theorem migration_loses (hroom : s.polderRoom l target + s.polderSpare target < s.bytesToMove l base bytes target)
    (hlate : ∀ p ∈ l.polderParts base bytes, p.1.late = false) (hquiet : ∀ a ∈ s.flight, a.ctx ≠ ctx) :
    ∃ t, exec (.polderMigrationOrder ctx base bytes target byDevice) s = .next t ∧
      ∀ p ∈ l.polderParts base bytes, ∀ pg ∈ pagesOf p.1 p.2.1 p.2.2, p.1.home ≠ target → s.polderPage ctx pg = none →
        t.polderPage ctx pg = some (.lost byDevice) := by
  have hmigrate : s.migrate ctx base bytes target byDevice = ((l.polderParts base bytes).foldl (fun s p =>
      s.breachPages ctx p.1 (s.pagesToMove ctx p.1 (pagesOf p.1 p.2.1 p.2.2) target) byDevice) s).breach ctx (if byDevice then 1 else 2)
        (if byDevice then 8 else 19) 0xFF r.home false := by
    simp only [State.migrate, hl, hr, if_neg (Nat.not_le.mpr hroom)]
  refine ⟨_, congrArg Host.Outcome.next hmigrate, fun p hp pg hpg hhome hnone => ?_⟩
  rw [State.polderPage, State.breach_polderPages, ← State.polderPage]
  refine foldl_attains (inv := Losable ctx pg byDevice) (done := fun t => t.polderPage ctx pg = some (.lost byDevice))
    (fun t q hq ht => (ht.breachPages (hlate q hq) _).1) (fun t q hq ht hlost => (ht.breachPages (hlate q hq) _).2 (.inl hlost)) hp
    (fun t ht => (ht.breachPages (hlate p hp) _).2 ?_) ⟨hquiet, .inl hnone⟩
  obtain ⟨-, hstate | hstate⟩ := ht
  · refine .inr (List.mem_filter.mpr ⟨hpg, ?_⟩)
    simp only [hstate]
    exact bne_iff_ne.mpr hhome
  · exact .inl hstate

end

/-- Settles O26: the checks, what each instruction sends or owes at issue, and what a move or a migration leaves of its pages. -/
theorem polders : Obligations.Polders := by
  unfold Obligations.Polders
  refine ⟨fun sw d a b s g l hl h => ⟨pdisc_empty hl h, pdisc_sends hl h, fun k ks u htids hu _ halign => ?_⟩,
    fun sw d a b s g l k u r hl h htids hu hr halign hrange hbits hheld => ?_,
    fun sw d a b s g l k ks u hl h htids hu => ?_, fun s n bytes target handle slot a l u ps hdue hop hslot hl hps hu hlive hall hsome => ?_,
    fun s ctx base bytes target byDevice l hl => ⟨migration_outside hl, fun r ps hr hps => ⟨fun hroom => ?_, fun hroom hlate hquiet => ?_⟩⟩⟩
  · exact traps_untransacted (chk := fun s g t => discardCheck s g (t.readPair (rn a)) (t.readW (rn b)).toNat) (hold := fun _ _ _ => none)
      h rfl htids hu rfl (discardCheck_misaligned halign)
  · have hchk := moveCheck_passes (s := { s with group := none }) (g := g) hl hr halign hrange hbits hheld
    refine ⟨pmove_busy h htids hu hchk, fun hfree hevicted hall hn => pmove_evicted hl h htids hu hchk hfree hevicted ?_,
      pmove_sends h htids hu hchk⟩
    rw [State.moveStatus_all hall (hrange.pages hr hn), if_pos rfl]
  · have htraps := fun code hx => traps_untransacted (code := code) (operand := u.readPair a.toNat)
      (chk := fun s g t => moveCheck s g (t.readPair (rn a)) (t.readW (rn b)).toNat (t.readW (rn b + 1)).toNat) (hold := fun _ _ _ => none)
      h rfl htids hu rfl hx
    have hl' : State.launch { s with group := none } g.ctx = some l := hl
    refine ⟨fun r n hr hn => ⟨fun hodd => htraps _ (moveCheck_misaligned hl' hr ?_), fun halign hpages hout hend =>
      htraps _ (moveCheck_cut hl' hr halign (hn ▸ hpages) (hn ▸ hout) hend)⟩, fun hout => htraps _ (moveCheck_outside hl' hout)⟩
    subst hn
    rcases hodd with hodd | ⟨hin, hodd⟩ | ⟨hmany, hodd⟩
    · exact .inl hodd
    · exact .inr (rangeMisaligned_inside hr hin hodd)
    · exact .inr (rangeMisaligned_share hmany hodd)
  · subst hps
    obtain ⟨-, hctx⟩ := State.launch_key hl
    rw [← hctx] at hall
    have hstatus := State.moveStatus_all hall hsome false
    rw [State.bytesToMove_all hall, hctx] at hstatus
    simp only [Bool.false_eq_true, if_false] at hstatus
    refine ⟨fun hroom => ?_, fun hroom => ?_⟩
    · rw [if_neg (Nat.not_lt.mpr hroom)] at hstatus
      obtain ⟨q, hexec, hlanded, hmem, hthread, hcheck, hqueue, hpages⟩ :=
        pmoveComplete_answers hdue hop hslot hl hu hlive hstatus rfl (.moveRange s l a.addr bytes target)
      refine ⟨q, hexec, hlanded, hmem, hthread, hcheck, fun r m hone => ?_, fun p hp pg hpg => ?_⟩
      · rw [hqueue]
        simp only [if_true, State.moveRange, hone, List.foldl_cons, List.foldl_nil]
        obtain ⟨hhome, hnone⟩ := hall (r, a.addr, m) (by simp [hone])
        rw [State.faultQueue_movePages, State.pagesToMove_all hhome hnone, hctx]
      · obtain ⟨hhome, hnone⟩ := hall p hp
        rw [State.polderPage, hpages, ← State.polderPage, ← hctx]
        exact State.moveRange_moves hp hpg hhome (hnone pg hpg)
    · rw [if_pos hroom] at hstatus
      obtain ⟨q, hexec, hlanded, hmem, hthread, -, -, hpages⟩ := pmoveComplete_answers hdue hop hslot hl hu hlive hstatus rfl rfl
      exact ⟨q, hexec, hlanded, hmem, hthread, hpages⟩
  · subst hps
    obtain ⟨-, hctx⟩ := State.launch_key hl
    have hsame := SameButPages.moveRange s l base bytes target
    refine ⟨_, migration_moves hl hr hroom, by rw [hsame], by rw [hsame], fun hclean => State.moveRange_clean hclean l base bytes target,
      fun p hp pg hpg hhome hnone => ?_⟩
    rw [← hctx] at hnone ⊢
    exact State.moveRange_moves hp hpg hhome hnone
  · subst hps
    exact migration_loses hl hr hroom hlate hquiet

end Sys2Proof.Machine

end

section
/-! SUPPORT. Statement O17: instructions and addresses that abort a transaction with FAULT (R179). -/

namespace Sys2Proof.Machine

/-- The lone member's transaction aborts with FAULT, and nothing else happens. -/
def FaultsTx (i : Instr) (s : State) (g : Group) (k : Nat) (u : Thread) : Prop :=
  ∃ t v, exec i s = .next t ∧ t.threadOf g.ctx g.wg k = some v ∧ t.mem = s.mem ∧ t.flight = s.flight ∧ Aborted u v 6 0

/-- The state whose member `k` has aborted with FAULT. -/
def State.faulted (s : State) (g : Group) (k : Nat) : State :=
  State.modThread { s with group := none } g.ctx g.wg k (fun t => t.abortTx .fault 0)

theorem FaultsTx.of_faulted {i : Instr} {s : State} {g : Group} {k : Nat} {u : Thread} (hu : s.threadOf g.ctx g.wg k = some u)
    (hexec : exec i s = .next (s.faulted g k)) : FaultsTx i s g k u := by
  refine ⟨_, u.abortTx .fault 0, hexec, ?_, rfl, rfl, aborted_abortTx .fault (by decide) rfl rfl rfl⟩
  refine (State.threadOf_modThread_same _ _ _ _ (fun t => t.abortTx .fault 0) (fun _ => rfl)).trans ?_
  exact congrArg (Option.map _) hu

section
variable {i : Instr} {s : State} {g : Group} {k : Nat} {u : Thread} (hg : s.group = some g) (htids : g.tids = [k])
  (hu : s.threadOf g.ctx g.wg k = some u)
include hg htids hu

omit hg in
theorem members_lone : State.members { s with group := none } g = [u] := by
  refine (State.members_cons htids (s := { s with group := none }) hu).trans ?_
  rfl

/-- A member whose transaction the instruction aborts has nothing else judged or done. -/
theorem issueHeld_faults {chk : State → Group → Thread → Option TrapInfo} {hold : State → Group → Thread → Option HoldKind}
    {eff : State → Group → Nat → State} (hearly : earlyChecks i { s with group := none } g = none)
    (hfaults : txFaults i chk { s with group := none } g u = true) : issueHeld i chk hold eff s = s.faulted g k := by
  have hmembers := members_lone htids hu
  have hactive : u.tx.active = true := by
    rw [txFaults, Bool.and_eq_true] at hfaults
    obtain ⟨hactive, -⟩ := hfaults
    exact hactive
  have hpass : issueFault i chk { s with group := none } g = none := by
    rw [issueFault, hearly, hmembers, orElse]
    refine firstFail_none (fun t ht => ?_)
    obtain rfl := List.mem_singleton.mp ht
    cases hallowed : txAllowed i with
    | false => simp [hactive]
    | true =>
      cases hchk : chk { s with group := none } g t with
      | none => simp
      | some x =>
        have hinstead : abortsInstead x.code = true := by simpa [txFaults, hactive, hallowed, hchk] using hfaults
        simp [hactive, hinstead]
  have htid : u.tid = k := State.threadOf_tid hu
  simp only [issueHeld, hg, hpass, hmembers, List.filter_cons, List.filter_nil, hfaults, Bool.not_true, Bool.false_eq_true, if_true, if_false,
    List.map_cons, List.map_nil, List.foldl_cons, List.foldl_nil, htid]
  rfl

omit hg in
/-- R57: the checks before the operands', for a lone member that passes each. -/
theorem earlyChecks_lone (hwf : i.wf = true) (hpriv : isPrivileged i = true → s.privileged g = true) (huser : userPrivIndex i = false)
    (hwait : isWaiting i = true → ((s.launch g.ctx).bind (fun l => l.bound g.pc)).isSome = true) (hsub : isProducer i = true → u.sub = 0)
    (hwindow : windowCheck i u = none) : earlyChecks i { s with group := none } g = none := by
  have hmembers := members_lone htids hu
  have hprivileged : (isPrivileged i && !State.privileged { s with group := none } g) = false := by
    cases hi : isPrivileged i with
    | false => rfl
    | true => exact (Bool.true_and _).trans (by rw [Bool.not_eq_false']; exact hpriv hi)
  have hbound : (isWaiting i && ((State.launch { s with group := none } g.ctx).bind (fun l => l.bound g.pc)).isNone) = false := by
    cases hi : isWaiting i with
    | false => rfl
    | true => exact (Bool.true_and _).trans (Option.isNone_eq_false_iff.mpr (hwait hi))
  have hproducer : firstFail (State.members { s with group := none } g)
      (fun t => if (isProducer i && t.sub != 0) = true then trapOf .streamer 0 else none) = none := by
    rw [hmembers]
    refine firstFail_none (fun t ht => ?_)
    obtain rfl := List.mem_singleton.mp ht
    cases hi : isProducer i with
    | false => rfl
    | true => simp [hsub hi]
  have hwindows : firstFail (State.members { s with group := none } g) (windowCheck i) = none := by
    rw [hmembers]
    refine firstFail_none (fun t ht => ?_)
    obtain rfl := List.mem_singleton.mp ht
    exact hwindow
  simp only [earlyChecks, hwf, hprivileged, huser, hbound, hproducer, hwindows, Bool.not_true, Bool.or_false, Bool.false_eq_true, if_false, orElse]

/-- An instruction that no transaction allows aborts the one it stands in: a streaming command too, which holds at nothing and keeps no
blocks. -/
theorem faultsTx_of_disallowed (hword : (encode i).isSome = true) (hbrk : isBreak i = false)
    (hearly : earlyChecks i { s with group := none } g = none) (hactive : u.tx.active = true) (hallowed : txAllowed i = false) :
    FaultsTx i s g k u := by
  have hfaults : ∀ chk, txFaults i chk { s with group := none } g u = true := fun chk => by simp [txFaults, hactive, hallowed]
  refine .of_faulted hu ?_
  rcases exec_issues s hword hbrk with ⟨chk, hold, eff, hexec⟩ | ⟨x, d, a, b, hexec⟩
  · exact hexec.trans (congrArg _ (issueHeld_faults hg htids hu hearly (hfaults chk)))
  · refine hexec.trans (congrArg _ ?_)
    simp only [streamOp, commandOp, issueHeld_faults hg htids hu hearly (hfaults _), hg]
    refine foldl_keepBlocks_of_kept x a ((HoldsKept.ofWgs (t := { s with group := none }) rfl).trans ?_)
    exact (HoldsKept.refl { s with group := none }).modThread g.ctx g.wg k (f := fun t => t.abortTx .fault 0) (fun _ => ⟨rfl, .inl rfl⟩)

end

/-! The operand checks of loads and stores in a transaction. -/

section
variable {s : State} {g : Group} {l : Launch} {u : Thread} {addr : Thread → Nat} {n : Nat} {isStore constant : Bool}
  (hl : s.launch g.ctx = some l) (hactive : u.tx.active = true) (hreach : Reachable s l g.core u.parent (addr u) n isStore constant)
include hl hactive hreach

/-- A scratchpad address, a stamped region and a sluice object are not for a transaction (R158, R179, R185). -/
theorem memCheck_forbidden (h : classOf (addr u) = .scratch ∨ l.stampedAt (addr u) n = true ∨ l.sluiceAt (addr u) n = true) :
    memCheck addr n isStore constant s g u = trapOf .access (addr u) := by
  have hforbidden : (classOf (addr u) == .scratch || l.stampedAt (addr u) n || l.sluiceAt (addr u) n) = true := by
    rcases h with h | h | h <;> simp [h]
  simp only [memCheck, withLaunch, hl, accessCheck_reachable hreach, hactive, hforbidden, Bool.and_self, if_true]

variable (hclass : classOf (addr u) = .global) (hstamped : l.stampedAt (addr u) n = false) (hsluice : l.sluiceAt (addr u) n = false)
include hclass hstamped hsluice

/-- Any other global address passes; a store of a transaction touches no line as it issues. -/
theorem memCheck_tx (htouch : isStore = false → 0 < n ∧ Settled s l (addr u) n)
    (htoken : isStore = true → l.gated (addr u) n = true → l.holdsToken g.wg = true) : memCheck addr n isStore constant s g u = none := by
  have hforbidden : (classOf (addr u) == .scratch || l.stampedAt (addr u) n || l.sluiceAt (addr u) n) = false := by
    rw [hclass, hstamped, hsluice]
    rfl
  simp only [memCheck, withLaunch, hl, accessCheck_reachable hreach, hactive, hforbidden, Bool.and_false, Bool.false_eq_true, if_false,
    Bool.true_and]
  cases isStore with
  | false =>
    obtain ⟨hn, hsettled⟩ := htouch rfl
    refine orTrap_none rfl ?_
    rw [if_neg Bool.false_ne_true]
    simp only [polderCheck, withLaunch, hl, breachCheck_settled hn hsettled]
  | true => exact orTrap_none (gateCheck_of_token (htoken rfl)) rfl

end

theorem Reachable.storable {s : State} {l : Launch} {core addr n : Nat} {parent : Option Nat} {constant : Bool}
    (h : Reachable s l core parent addr n true constant) (hclass : classOfRange addr n = .global) :
    l.readOnlyAt addr n = false ∧ l.stampedAt addr n = false ∧ l.sluiceAt addr n = false := by
  obtain ⟨-, -, -, -, hstore, -⟩ := h
  exact hstore rfl hclass

theorem classOf_of_range {a n : Nat} {c : AddrClass} (h : classOfRange a n = c) (hc : c ≠ .bad) : classOf a = c := by
  unfold classOfRange at h
  split at h
  · exact h
  · exact absurd h.symm hc

/-- A load or store of a transaction whose check forbids it. -/
theorem faultsTx_of_check {i : Instr} {chk : State → Group → Thread → Option TrapInfo} {hold : State → Group → Thread → Option HoldKind}
    {eff : State → Group → Nat → State} {s : State} {g : Group} {k operand : Nat} {u : Thread} (h : issuable i s g = true) (htids : g.tids = [k])
    (hu : s.threadOf g.ctx g.wg k = some u) (hactive : u.tx.active = true) (hchk : chk { s with group := none } g u = trapOf .access operand)
    (hexec : exec i s = .next (issueHeld i chk hold eff s)) : FaultsTx i s g k u := by
  refine .of_faulted hu (hexec.trans (congrArg _ (issueHeld_faults (issuable_group h) htids hu (earlyChecks_none h) ?_)))
  simp [txFaults, hactive, hchk, trapOf, abortsInstead]

end Sys2Proof.Machine

end

section
/-! SUPPORT. Statement O17: loads and stores in a transaction (R179), at issue and at the home. -/

namespace Sys2Proof.Machine

/-! The forms of R149, each by its operation. -/

/-- A load is one operation, whatever its form. -/
theorem LoadSends.form {i : Instr} {addr : Thread → Nat} {n : Nat} {path : Path} {accs : State → Group → Thread → List Access}
    {res : Thread → List Result} (h : LoadSends i addr n path accs res) : ∃ (d : Reg) (words : Nat) (signed : Bool), 0 < n ∧ words ≠ 0 ∧ AtAnyPc addr ∧
      (∀ s, exec i s = .next (loadOp i d n words signed path addr s)) ∧
      accs = (fun s g u => loadAccesses path signed words (addr u) n s g s.nextId u) ∧ res = loadOwed d.toNat words n := by
  rcases h with ⟨p, hp, rfl, rfl, d, hform, rfl, rfl⟩ | ⟨rfl, rfl, d, hquad, rfl, rfl⟩
  · obtain ⟨hquad, hwords⟩ := loadTable_sizes p hp
    refine ⟨d, p.2.2.2.1, p.2.2.2.2.1, loadTable_positive p hp, hwords, ?_, ?_, ?_, ?_⟩
    · rcases hform with ⟨sw, a, m, rfl, rfl⟩ | ⟨sw, a, b, rfl, rfl⟩ <;> exact fun _ _ => rfl
    · rcases hform with ⟨sw, a, m, rfl, rfl⟩ | ⟨sw, a, b, rfl, rfl⟩
      · exact exec_load p hp sw d a m
      · exact exec_loadIndexed p hp sw d a b
    · funext s g u
      rw [loadAccesses, if_neg hquad]
    · funext u
      rw [loadOwed, if_neg hquad]
  · obtain ⟨haddr, -⟩ := hquad.form
    exact ⟨d, 4, false, by decide, by decide, haddr, exec_loadQuad hquad, rfl, rfl⟩

theorem StoreSends.form {i : Instr} {addr : Thread → Nat} {n : Nat} {data : Thread → Nat} (h : StoreSends i addr n data) :
    ∃ d : Reg, AtAnyPc addr ∧ (∀ s, exec i s = .next (storeOp i d n addr s)) ∧ ∀ u, storeData u (rn d) n = data u := by
  rcases h with ⟨p, hp, rfl, d, hform, rfl⟩ | ⟨rfl, d, hquad, rfl⟩
  · refine ⟨d, ?_, ?_, fun u => if_neg (storeTable_sizes p hp)⟩
    · rcases hform with ⟨sw, a, m, rfl, rfl⟩ | ⟨sw, a, b, rfl, rfl⟩ <;> exact fun _ _ => rfl
    · rcases hform with ⟨sw, a, m, rfl, rfl⟩ | ⟨sw, a, b, rfl, rfl⟩
      · exact exec_store p hp sw d a m
      · exact exec_storeIndexed p hp sw d a b
  · obtain ⟨haddr, -⟩ := hquad.form
    exact ⟨d, haddr, exec_storeQuad hquad, fun u => (if_pos rfl).trans (by rw [Thread.readQuad])⟩

/-! What a lone member leaves. -/

section
variable {i : Instr} {s p : State} {g : Group} {k : Nat} {u : Thread} (hp : Stepped i s g k u p)
include hp

/-- An effect on the member's thread alone. -/
theorem Stepped.changes {f : Thread → Thread} (hf : ∀ t, (f t).tid = t.tid) :
    ∃ t, State.advance i g (p.modThread g.ctx g.wg k f) k = t ∧ t.threadOf g.ctx g.wg k = some ((f { u with pc := g.pc + i.bytes, holdPc := none }).goOn i) ∧
      t.mem = s.mem ∧ t.flight = s.flight := by
  have hkept := (hp.kept.trans (Kept.modThread p g.ctx g.wg k f hf [k] (by simp))).trans (Kept.advance i g _ k [k] (by simp))
  refine ⟨_, rfl, ?_, by rw [hkept.rest], by rw [hkept.rest]⟩
  rw [State.threadOf_advance, State.threadOf_modThread_same _ _ _ _ f hf, hp.thread]
  rfl

/-- The access that would need a ninth line (R179). -/
theorem Stepped.capacity : ∃ t v, State.advance i g (p.modThread g.ctx g.wg k (fun t => t.abortTx .capacity 0)) k = t ∧
    t.threadOf g.ctx g.wg k = some v ∧ t.flight = s.flight ∧ Aborted u v 3 0 := by
  obtain ⟨t, ht, hv, -, hflight⟩ := hp.changes (f := fun t => t.abortTx .capacity 0) (fun _ => rfl)
  rw [Thread.goOn_parked rfl] at hv
  exact ⟨t, _, ht, hv, hflight, aborted_abortTx .capacity (by decide) rfl rfl rfl⟩

theorem Stepped.txLine (die : Nat) (l : Launch) (va : Nat) : Machine.txLine p die l va = Machine.txLine s die l va := by
  rw [hp.rest]
  rfl

theorem Stepped.locate (die : Nat) (l : Launch) (va : Nat) : p.locate die l va = s.locate die l va := by
  rw [hp.rest]
  rfl

theorem Stepped.launch (c : Nat) : p.launch c = s.launch c := by
  rw [hp.rest]
  rfl

end

/-! Loads. -/

/-- A thread whose read set has the lines `lines`. -/
def Thread.withReadLines (u : Thread) (lines : List Nat) : Thread := { u with tx := { u.tx with readLines := lines } }

/-- A lone member's load that leaves a state in which the member has the read set `lines`. -/
theorem sendLoad_lone {i : Instr} {s q : State} {g : Group} {l : Launch} {k addr n d words : Nat} {u : Thread} {path : Path} {signed : Bool}
    {lines : List Nat} (hl : s.launch g.ctx = some l) (hn : 0 < n) (hwords : words ≠ 0) (hsettled : Settled s l addr n) (hready : u.status = .ready)
    (hq : Kept { s with group := none } q g.ctx g.wg [k])
    (hv : q.threadOf g.ctx g.wg k = some (Thread.withReadLines { u with pc := g.pc + i.bytes, holdPc := none } lines)) :
    ∃ t v, State.advance i g (sendLoad path signed d addr n words (some u.tx.writes) g k (groupId q g) q) k = t ∧
      t.threadOf g.ctx g.wg k = some v ∧ t.mem = s.mem ∧
      t.flight = s.flight ++ (loadAccesses path signed words addr n s g s.nextId u).map (fun x => { x with tx := some u.tx.writes }) ∧
      v.tx.readLines = lines ∧ v.tx.active = u.tx.active ∧ v.tx.writes = u.tx.writes ∧ v.results = u.results ++ loadOwed d words n u := by
  obtain ⟨hsent, hthread⟩ := sendLoad_leaves (path := path) (signed := signed) (d := d) (tx := some u.tx.writes) hl hn hwords hsettled
    (.of_kept hq) hv
  have hall := ((SentBy.nil_of_kept hq).trans hsent).trans (.nil_of_kept (Kept.advance i g _ k [k] (by simp)))
  have hid : q.nextId = s.nextId := by rw [hq.rest]
  rw [List.nil_append, List.append_nil, hid] at hall
  have hgo := Thread.goOn_ready (i := i)
    (t := (Thread.withReadLines { u with pc := g.pc + i.bytes, holdPc := none } lines).oweLoad d words n) hready
  refine ⟨_, _, rfl, ?_, by rw [hall.rest], by rw [hall.rest]; rfl, congrArg (fun v => v.tx.readLines) hgo, congrArg (fun v => v.tx.active) hgo,
    congrArg (fun v => v.tx.writes) hgo, congrArg Thread.results hgo⟩
  rw [State.threadOf_advance, hthread]
  rfl

section
variable {i : Instr} {s : State} {g : Group} {l : Launch} {k n words line : Nat} {u : Thread} {addr : Thread → Nat} {d : Reg} {path : Path}
  {signed : Bool} (hl : s.launch g.ctx = some l) (h : issuable i s g = true) (htids : g.tids = [k]) (hu : s.threadOf g.ctx g.wg k = some u)
  (hactive : u.tx.active = true) (haddr : AtAnyPc addr) (hclass : classOf (addr u) = .global)
  (hline : line = txLine s (coreDie g.core) l (addr u))
include hl h htids hu hactive haddr hclass hline

/-- A global load of a transaction joins the read set, or finds no room in it (R179). -/
theorem loadOp_tx (hchk : memCheck addr n false (path == .con) { s with group := none } g u = none)
    (hexec : exec i s = .next (loadOp i d n words signed path addr s)) : ∃ p, Stepped i s g k u p ∧ exec i s = .next (State.advance i g
      (if u.tx.readLines.contains line then sendLoad path signed (rn d) (addr u) n words (some u.tx.writes) g k (groupId p g) p
       else if u.tx.readLines.length < 8 then sendLoad path signed (rn d) (addr u) n words (some u.tx.writes) g k (groupId p g)
         (p.modThread g.ctx g.wg k (fun t => t.withReadLines (t.tx.readLines ++ [line])))
       else p.modThread g.ctx g.wg k (fun t => t.abortTx .capacity 0)) k) := by
  obtain ⟨p, hp, hstep⟩ := lone_effect h htids hu hchk rfl hexec
  refine ⟨p, hp, hstep.trans ?_⟩
  have hl' : p.launch g.ctx = some l := (hp.launch _).trans hl
  simp only [hp.thread, haddr u, hactive, hclass, withLaunch, hl', hp.txLine, ← hline, beq_self_eq_true, Bool.and_self, if_true]
  rfl

/-- A global store of a transaction is buffered, or finds no room in the write set (R179). -/
theorem storeOp_tx {v key : Nat} (hdata : ∀ pc, storeData { u with pc := pc, holdPc := none } (rn d) n = v)
    (hkey : key = ((s.locate (coreDie g.core) l (addr u)).map (fun t => t.key)).getD (addr u))
    (hchk : memCheck addr n true false { s with group := none } g u = none) (hhold : storeHold addr n { s with group := none } g u = none)
    (hexec : exec i s = .next (storeOp i d n addr s)) : ∃ p, Stepped i s g k u p ∧ exec i s = .next (State.advance i g
      (p.modThread g.ctx g.wg k (if u.tx.writeLines.contains line then fun t => { t with tx := t.tx.buffer key (leBytes n v) }
       else if u.tx.writeLines.length < 8 then
         fun t => { t with tx := { t.tx.buffer key (leBytes n v) with writeLines := t.tx.writeLines ++ [line] } }
       else fun t => t.abortTx .capacity 0)) k) := by
  rw [storeOp] at hexec
  obtain ⟨p, hp, hstep⟩ := lone_effect h htids hu hchk hhold hexec
  refine ⟨p, hp, hstep.trans ?_⟩
  have hl' : p.launch g.ctx = some l := (hp.launch _).trans hl
  simp only [hp.thread, haddr u, hactive, hclass, withLaunch, hl', hp.txLine, hp.locate, hdata, ← hline, ← hkey, beq_self_eq_true, Bool.and_self,
    if_true]
  split
  · rfl
  · split <;> rfl

end

/-! The write set. -/

theorem nth_leBytes {n j : Nat} (v : Nat) (h : j < n) : nth 0 (leBytes n v) j = BitVec.ofNat 8 (v / 256 ^ j) := by
  induction n generalizing v j with
  | zero => omega
  | succ n ih =>
    cases j with
    | zero => simp [nth, leBytes]
    | succ j =>
      have hrest : nth 0 (leBytes (n + 1) v) (j + 1) = nth 0 (leBytes n (v / 256)) j := by simp [nth, leBytes]
      rw [hrest, ih _ (by omega), Nat.div_div_eq_div_mul, Nat.pow_succ, Nat.mul_comm]

theorem find_zip_rangeFrom {key j : Nat} {bs : List Byte} (h : j < bs.length) :
    ((rangeFrom key bs.length).zip bs).find? (fun w => w.1 == key + j) = some (key + j, nth 0 bs j) := by
  induction bs generalizing key j with
  | nil => simp at h
  | cons b bs ih =>
    rw [List.length_cons, rangeFrom, List.zip_cons_cons, List.find?_cons]
    cases j with
    | zero => simp [nth]
    | succ j =>
      have hother : (key == key + (j + 1)) = false := by simp
      rw [hother, show key + (j + 1) = key + 1 + j by omega]
      exact ih (by simpa using h)

theorem mem_zip_rangeFrom {key : Nat} {bs : List Byte} {w : Nat × Byte} (h : w ∈ (rangeFrom key bs.length).zip bs) :
    key ≤ w.1 ∧ w.1 < key + bs.length := mem_rangeFrom.mp (List.of_mem_zip h).1

/-- The bytes last put into a write set are what it holds at their locations. -/
theorem Tx.buffer_inside (x : Tx) {key j : Nat} {bs : List Byte} (h : j < bs.length) :
    (x.buffer key bs).writes.find? (fun w => w.1 == key + j) = some (key + j, nth 0 bs j) := by
  simp only [Tx.buffer, List.find?_append, find_zip_rangeFrom h, Option.some_or]

theorem Tx.buffer_outside (x : Tx) {key y : Nat} {bs : List Byte} (h : y < key ∨ key + bs.length ≤ y) :
    (x.buffer key bs).writes.find? (fun w => w.1 == y) = x.writes.find? (fun w => w.1 == y) := by
  have hnew : ∀ w ∈ (rangeFrom key bs.length).zip bs, (w.1 == y) = false := by
    intro w hw
    have := mem_zip_rangeFrom hw
    rw [beq_eq_false_iff_ne]
    omega
  have hnone : ((rangeFrom key bs.length).zip bs).find? (fun w => w.1 == y) = none := List.find?_eq_none.mpr (fun w hw => by simp [hnew w hw])
  have hkept : ∀ w : Nat × Byte, (!((rangeFrom key bs.length).zip bs).any (fun p => p.1 == w.1) && w.1 == y) = (w.1 == y) := by
    intro w
    by_cases hy : w.1 = y
    · have hany : ((rangeFrom key bs.length).zip bs).any (fun p => p.1 == w.1) = false := by
        rw [List.any_eq_false]
        intro p hp
        rw [hy, hnew p hp]
        exact Bool.false_ne_true
      rw [hany]
      rfl
    · simp [hy]
  simp only [Tx.buffer, List.find?_append, hnone, Option.none_or, List.find?_filter]
  refine congrFun (congrArg List.find? (funext fun w => ?_)) _
  refine Eq.trans ?_ (hkept w)
  simp only [Bool.decide_and, Bool.decide_eq_true]

end Sys2Proof.Machine

end

section
/-! SUPPORT. Statement O17: a load of a transaction at its home, and the statement's parts together. -/

namespace Sys2Proof.Machine

/-! LOAD_PERFORM in a transaction (R179). -/

theorem zip_rangeFrom_eq (key : Nat) (bs : List Byte) :
    bs.zip (rangeFrom key bs.length) = (List.range bs.length).map (fun i => (nth 0 bs i, key + i)) := by
  refine List.ext_getElem (by simp [rangeFrom_length]) (fun i hi _ => ?_)
  have hi : i < bs.length := by simpa [rangeFrom_length] using hi
  simp [rangeFrom_eq_range', nth, hi]

/-- Bytes under the write set `writes` are those of the home but where it has its own. -/
theorem eq_overlay {writes : List (Nat × Byte)} {key n : Nat} {m : List Host.Cell} {bs : List Byte} (hlen : bs.length = n)
    (h : ∀ i < n, nth 0 bs i = ((writes.find? (fun w => w.1 == key + i)).map (fun w => w.2)).getD (Cells.get m (key + i))) :
    overlay writes key (Cells.getN m key n) = bs := by
  rw [overlay, zip_rangeFrom_eq, Cells.getN_length, List.map_map]
  refine List.ext_getElem (by simp [hlen]) (fun i hi hi' => ?_)
  have hin : i < n := by simpa using hi
  have hbyte : bs[i] = nth 0 bs i := by simp [nth, hi']
  rw [hbyte, h i hin, List.getElem_map, List.getElem_range, Function.comp_apply, Cells.nth_getN hin]

theorem mem_readBack {writes : List (Nat × Byte)} {key n i : Nat} {m : List Host.Cell} (hi : i < n) (h : ∀ w ∈ writes, w.1 ≠ key + i) :
    (key + i, Cells.get m (key + i)) ∈ readBack writes key (Cells.getN m key n) := by
  have hmem : (key + i, Cells.get m (key + i)) ∈ (rangeFrom key (Cells.getN m key n).length).zip (Cells.getN m key n) := by
    have hfind := find_zip_rangeFrom (key := key) (bs := Cells.getN m key n) (j := i) (by rwa [Cells.getN_length])
    rw [Cells.nth_getN hi] at hfind
    exact List.mem_of_find?_eq_some hfind
  refine List.mem_filter.mpr ⟨hmem, ?_⟩
  rw [Bool.not_eq_true', List.any_eq_false]
  exact fun w hw => by simpa using h w hw

/-- A thread that has read bytes of homes in its transaction. -/
def Thread.hasRead (u : Thread) (reads : List (Nat × Byte)) : Thread := { u with tx := { u.tx with reads := u.tx.reads ++ reads } }

section
variable {s : State} {a : Access} {words : Nat} {writes : List (Nat × Byte)} {l : Launch} {tgt : Target} (hblocked : s.blocked a = false)
  (hop : a.op = .load false words) (htx : a.tx = some writes) (hl : s.launch a.ctx = some l) (hc : classOf a.addr = .global) (hmoves : NoMoves s)
  (hpolder : l.polderAt a.addr = none) (htgt : s.locateVia (coreCluster a.core) l a.addr = some tgt) (htaken : s.takenMeets a = false)
include hblocked hop htx hl hc hmoves hpolder htgt htaken

/-- A load of a transaction samples its home, notes what it read there, and returns it under its write set. -/
theorem perform_load_tx : ∃ t : State, t = { s with wgs := t.wgs, cores := t.cores, free := t.free } ∧
    (∀ u, s.threadOf a.ctx a.wg a.tid = some u →
      t.threadOf a.ctx a.wg a.tid = some (u.hasRead (readBack writes tgt.key (s.readHome tgt.key a.size)))) ∧
    s.perform a = .done (t.loaded a false words (overlay writes tgt.key (s.readHome tgt.key a.size))) := by
  have hfollow := s.l1Follow_eq a.core tgt.key (s.readHome tgt.key a.size)
  generalize hp : s.l1Follow a.core tgt.key (s.readHome tgt.key a.size) = p at hfollow
  refine ⟨{ p.modThread a.ctx a.wg a.tid (fun t => t.hasRead (readBack writes tgt.key (s.readHome tgt.key a.size))) with free := p.free + 1 },
    ?_, fun u hu => ?_, ?_⟩
  · rw [hfollow]
    rfl
  · refine (State.threadOf_modThread_same p a.ctx a.wg a.tid (fun t => t.hasRead (readBack writes tgt.key (s.readHome tgt.key a.size)))
      (fun _ => rfl)).trans ?_
    rw [hfollow]
    exact congrArg (Option.map _) hu
  · simp only [State.perform, hblocked, hop, State.performLoad, hl, hc, State.polderTouch_none hmoves hpolder, htx, htaken, htgt, hp,
      Bool.false_eq_true, if_false]
    rfl

end

theorem loadPerform_tx {s : State} {n slot words : Nat} {a : Access} {writes : List (Nat × Byte)} {l : Launch} {u : Thread} {tgt : Target}
    {bs : List Byte} (hdue : Due s n a) (hmoves : NoMoves s) (hop : a.op = .load false words) (hslot : a.slot = some slot)
    (htx : a.tx = some writes) (hl : s.launch a.ctx = some l) (hu : s.threadOf a.ctx a.wg a.tid = some u) (hc : classOf a.addr = .global)
    (hpolder : l.polderAt a.addr = none) (htgt : s.locateVia (coreCluster a.core) l a.addr = some tgt) (htaken : s.takenMeets a = false)
    (hbs : overlay writes tgt.key (s.readHome tgt.key a.size) = bs) :
    ∃ t, exec (.loadPerform n) s = .next t ∧ Landed s t n ∧ t.mem = s.mem ∧ t.scratch = s.scratch ∧
      t.threadOf a.ctx a.wg a.tid = some ((u.hasRead (readBack writes tgt.key (s.readHome tgt.key a.size))).fillSlot slot
        ((List.range words).map (fun i => some (BitVec.ofNat 32 (leNat bs / 2 ^ (32 * i)))))) := by
  obtain ⟨t, ht, hthread, hperform⟩ := perform_load_tx hdue.unblocked hop htx hl hc hmoves hpolder htgt htaken
  rw [hbs] at hperform
  have hws : loadWords false words a.size (leNat bs) = (List.range words).map (fun i => some (BitVec.ofNat 32 (leNat bs / 2 ^ (32 * i)))) :=
    wordsOf_range words (leNat bs)
  refine ⟨_, congrArg Host.Outcome.next (State.performId_done hdue (by rw [hop]; rfl) hperform), hdue.landed ?_, ?_, ?_, ?_⟩
  · rw [State.loaded, State.answer_eq, ht]
    rfl
  · rw [State.loaded, State.answer_eq, ht]
    rfl
  · rw [State.loaded, State.answer_eq, ht]
    rfl
  · rw [State.loaded, hws]
    exact State.threadOf_answer_drop hslot (hthread u hu) _

/-! The parts of the statement. -/

section
variable {i : Instr} {s : State} {g : Group} {l : Launch} {k n line : Nat} {u : Thread} {addr : Thread → Nat} (hl : s.launch g.ctx = some l)
  (h : issuable i s g = true) (htids : g.tids = [k]) (hu : s.threadOf g.ctx g.wg k = some u) (hactive : u.tx.active = true)
include hl h htids hu hactive

/-- A load at an address that no transaction may touch. -/
theorem LoadSends.faults {path : Path} {accs : State → Group → Thread → List Access} {res : Thread → List Result}
    (hform : LoadSends i addr n path accs res) (hreach : Reachable s l g.core u.parent (addr u) n false (decide (path = .con)))
    (hforbidden : classOf (addr u) = .scratch ∨ l.stampedAt (addr u) n = true ∨ l.sluiceAt (addr u) n = true) : FaultsTx i s g k u := by
  obtain ⟨d, words, signed, -, -, -, hexec, -, -⟩ := hform.form
  exact faultsTx_of_check (chk := memCheck addr n false (path == .con)) (hold := fun _ _ _ => none) h htids hu hactive
    (memCheck_forbidden (s := { s with group := none }) hl hactive hreach hforbidden) (hexec s)

theorem StoreSends.faults {data : Thread → Nat} (hform : StoreSends i addr n data) (hreach : Reachable s l g.core u.parent (addr u) n true false)
    (hforbidden : classOf (addr u) = .scratch) : FaultsTx i s g k u := by
  obtain ⟨d, -, hexec, -⟩ := hform.form
  exact faultsTx_of_check (chk := memCheck addr n true false) (hold := storeHold addr n) h htids hu hactive
    (memCheck_forbidden (s := { s with group := none }) hl hactive hreach (.inl hforbidden)) (hexec s)

/-- A global load joins the read set. -/
theorem LoadSends.joins {path : Path} {accs : State → Group → Thread → List Access} {res : Thread → List Result}
    (hform : LoadSends i addr n path accs res) (hreach : Reachable s l g.core u.parent (addr u) n false (decide (path = .con)))
    (hline : line = txLine s (coreDie g.core) l (addr u)) (hclass : classOf (addr u) = .global) (hsettled : Settled s l (addr u) n)
    (hstamped : l.stampedAt (addr u) n = false) (hsluice : l.sluiceAt (addr u) n = false) :
    ((line ∈ u.tx.readLines ∨ u.tx.readLines.length < 8) →
      ∃ t v, exec i s = .next t ∧ t.threadOf g.ctx g.wg k = some v ∧ t.mem = s.mem ∧
        t.flight = s.flight ++ (accs s g u).map (fun x => { x with tx := some u.tx.writes }) ∧
        v.tx.readLines = (if line ∈ u.tx.readLines then u.tx.readLines else u.tx.readLines ++ [line]) ∧
        v.tx.active = true ∧ v.tx.writes = u.tx.writes ∧ v.results = u.results ++ res u) ∧
    (line ∉ u.tx.readLines → 8 ≤ u.tx.readLines.length →
      ∃ t v, exec i s = .next t ∧ t.threadOf g.ctx g.wg k = some v ∧ t.flight = s.flight ∧ Aborted u v 3 0) := by
  obtain ⟨d, words, signed, hn, hwords, haddr, hexec, rfl, rfl⟩ := hform.form
  have hready := issuable_ready h htids hu
  obtain ⟨p, hp, hstep⟩ := loadOp_tx hl h htids hu hactive haddr hclass hline
    (memCheck_tx (s := { s with group := none }) hl hactive hreach hclass hstamped hsluice (fun _ => ⟨hn, hsettled⟩) (by simp)) (hexec s)
  by_cases hmem : line ∈ u.tx.readLines
  · rw [if_pos (by simpa using hmem)] at hstep
    obtain ⟨t, v, ht, hv, hmemory, hflight, hlines, hact, hwrites, hresults⟩ :=
      sendLoad_lone (path := path) (signed := signed) (d := rn d) (lines := u.tx.readLines) hl hn hwords hsettled hready hp.kept hp.thread
    rw [ht] at hstep
    refine ⟨fun _ => ⟨t, v, hstep, hv, hmemory, hflight, ?_, hact.trans hactive, hwrites, hresults⟩, fun hnot => absurd hmem hnot⟩
    rw [if_pos hmem, hlines]
  · rw [if_neg (by simpa using hmem)] at hstep
    refine ⟨fun hroom => ?_, fun _ hfull => ?_⟩
    · rw [if_pos (hroom.resolve_left hmem)] at hstep
      have hjoined := State.threadOf_modThread_same p g.ctx g.wg k (fun t => t.withReadLines (t.tx.readLines ++ [line])) (fun _ => rfl)
      rw [hp.thread, Option.map_some] at hjoined
      have hkept := hp.kept.trans (Kept.modThread p g.ctx g.wg k (fun t => t.withReadLines (t.tx.readLines ++ [line])) (fun _ => rfl) [k] (by simp))
      have hgid : groupId (p.modThread g.ctx g.wg k (fun t => t.withReadLines (t.tx.readLines ++ [line]))) g = groupId p g := rfl
      obtain ⟨t, v, ht, hv, hmemory, hflight, hlines, hact, hwrites, hresults⟩ :=
        sendLoad_lone (path := path) (signed := signed) (d := rn d) (lines := u.tx.readLines ++ [line]) hl hn hwords hsettled hready hkept hjoined
      rw [hgid] at ht
      rw [ht] at hstep
      refine ⟨t, v, hstep, hv, hmemory, hflight, ?_, hact.trans hactive, hwrites, hresults⟩
      rw [if_neg hmem, hlines]
    · rw [if_neg (Nat.not_lt.mpr hfull)] at hstep
      obtain ⟨t, v, ht, hrest⟩ := hp.capacity
      rw [ht] at hstep
      exact ⟨t, v, hstep, hrest⟩

/-- A global store is buffered, and nothing leaves. -/
theorem StoreSends.buffers {key : Nat} {data : Thread → Nat} (hform : StoreSends i addr n data)
    (hreach : Reachable s l g.core u.parent (addr u) n true false) (htoken : l.gated (addr u) n = true → l.holdsToken g.wg = true)
    (hline : line = txLine s (coreDie g.core) l (addr u))
    (hkey : key = ((s.locate (coreDie g.core) l (addr u)).map (fun t => t.key)).getD (addr u)) (hclass : classOfRange (addr u) n = .global) :
    ((line ∈ u.tx.writeLines ∨ u.tx.writeLines.length < 8) →
      ∃ t v, exec i s = .next t ∧ t.threadOf g.ctx g.wg k = some v ∧ t.mem = s.mem ∧ t.flight = s.flight ∧
        v.tx.active = true ∧ v.tx.writeLines = (if line ∈ u.tx.writeLines then u.tx.writeLines else u.tx.writeLines ++ [line]) ∧
        (∀ j < n, v.tx.writes.find? (fun w => w.1 == key + j) = some (key + j, BitVec.ofNat 8 (data u / 256 ^ j))) ∧
        (∀ x, (x < key ∨ key + n ≤ x) → v.tx.writes.find? (fun w => w.1 == x) = u.tx.writes.find? (fun w => w.1 == x))) ∧
    (line ∉ u.tx.writeLines → 8 ≤ u.tx.writeLines.length →
      ∃ t v, exec i s = .next t ∧ t.threadOf g.ctx g.wg k = some v ∧ t.flight = s.flight ∧ Aborted u v 3 0) := by
  obtain ⟨d, haddr, hexec, hdata⟩ := hform.form
  have hready := issuable_ready h htids hu
  obtain ⟨-, hstamped, hsluice⟩ := hreach.storable hclass
  have hglobal := classOf_of_range hclass (by simp)
  have hcheck := memCheck_tx (s := { s with group := none }) hl hactive hreach hglobal hstamped hsluice (by simp) (fun _ => htoken)
  have hhold : storeHold addr n { s with group := none } g u = none := by
    simp only [storeHold, withLaunch, show State.launch { s with group := none } g.ctx = some l from hl, gateHold_of_token htoken]
  obtain ⟨p, hp, hstep⟩ := storeOp_tx hl h htids hu hactive haddr hglobal hline (fun pc => hdata u) hkey hcheck hhold (hexec s)
  have hinside : ∀ j < n, (u.tx.buffer key (leBytes n (data u))).writes.find? (fun w => w.1 == key + j) =
      some (key + j, BitVec.ofNat 8 (data u / 256 ^ j)) := by
    intro j hj
    rw [Tx.buffer_inside _ (by rwa [leBytes_length]), nth_leBytes _ hj]
  have houtside : ∀ x, (x < key ∨ key + n ≤ x) → (u.tx.buffer key (leBytes n (data u))).writes.find? (fun w => w.1 == x) =
      u.tx.writes.find? (fun w => w.1 == x) := fun x hx => Tx.buffer_outside _ (by rwa [leBytes_length])
  have hbuffered : ∀ f : Thread → Thread, (∀ t, (f t).tid = t.tid) → (∀ t, (f t).status = t.status) →
      (∀ t, (f t).tx.writes = (t.tx.buffer key (leBytes n (data u))).writes ∧ (f t).tx.active = t.tx.active) →
      ∃ t v, State.advance i g (p.modThread g.ctx g.wg k f) k = t ∧ t.threadOf g.ctx g.wg k = some v ∧ t.mem = s.mem ∧ t.flight = s.flight ∧
        v.tx.active = true ∧ v.tx.writeLines = (f { u with pc := g.pc + i.bytes, holdPc := none }).tx.writeLines ∧
        v.tx.writes = (u.tx.buffer key (leBytes n (data u))).writes := by
    intro f htid hstatus hwrites
    obtain ⟨t, ht, hv, hmemory, hflight⟩ := hp.changes htid
    have hgo := congrArg Thread.tx (Thread.goOn_ready (i := i) ((hstatus { u with pc := g.pc + i.bytes, holdPc := none }).trans hready))
    obtain ⟨hbytes, hact⟩ := hwrites { u with pc := g.pc + i.bytes, holdPc := none }
    exact ⟨t, _, ht, hv, hmemory, hflight, ((congrArg Tx.active hgo).trans hact).trans hactive, congrArg Tx.writeLines hgo,
      (congrArg Tx.writes hgo).trans hbytes⟩
  by_cases hmem : line ∈ u.tx.writeLines
  · rw [if_pos (by simpa using hmem)] at hstep
    obtain ⟨t, v, ht, hv, hmemory, hflight, hact, hlines, hwrites⟩ := hbuffered (fun t => { t with tx := t.tx.buffer key (leBytes n (data u)) })
      (fun _ => rfl) (fun _ => rfl) (fun _ => ⟨rfl, rfl⟩)
    rw [ht] at hstep
    refine ⟨fun _ => ⟨t, v, hstep, hv, hmemory, hflight, hact, ?_, hwrites ▸ hinside, hwrites ▸ houtside⟩, fun hnot => absurd hmem hnot⟩
    rw [if_pos hmem, hlines]
    rfl
  · rw [if_neg (by simpa using hmem)] at hstep
    refine ⟨fun hroom => ?_, fun _ hfull => ?_⟩
    · rw [if_pos (hroom.resolve_left hmem)] at hstep
      obtain ⟨t, v, ht, hv, hmemory, hflight, hact, hlines, hwrites⟩ := hbuffered
        (fun t => { t with tx := { t.tx.buffer key (leBytes n (data u)) with writeLines := t.tx.writeLines ++ [line] } })
        (fun _ => rfl) (fun _ => rfl) (fun _ => ⟨rfl, rfl⟩)
      rw [ht] at hstep
      refine ⟨t, v, hstep, hv, hmemory, hflight, hact, ?_, hwrites ▸ hinside, hwrites ▸ houtside⟩
      rw [if_neg hmem, hlines]
    · rw [if_neg (Nat.not_lt.mpr hfull)] at hstep
      obtain ⟨t, v, ht, hrest⟩ := hp.capacity
      rw [ht] at hstep
      exact ⟨t, v, hstep, hrest⟩

end

/-- Settles O17: loads, stores and what no transaction allows, at issue, and a load of a transaction at its home. -/
theorem transactionalAccesses : Obligations.TransactionalAccesses := by
  unfold Obligations.TransactionalAccesses
  refine ⟨fun i addr n path accs res hform s g l k u line hl h htids hu hactive hreach hline => ⟨fun hscratch => ?_, fun hglobal hsettled =>
      ⟨fun hforbidden => ?_, fun hstamped hsluice => ?_⟩⟩,
    fun i addr n data hform s g l k u line key hl h htids hu hactive hreach htoken hline hkey => ⟨fun hscratch => ?_, fun hglobal => ?_⟩,
    fun i s g l k u hword hbrk hwf hl hg htids hu hready hactive hallowed hpriv huser hwait hsub hwindow => ?_,
    fun s n slot words a writes l u tgt bs hdue hmoves hop hslot htx hl hu hc hpolder htgt htaken hlen hbytes => ?_⟩
  · exact hform.faults hl h htids hu hactive hreach (.inl (classOf_of_range hscratch (by simp)))
  · exact hform.faults hl h htids hu hactive hreach (.inr hforbidden)
  · exact hform.joins hl h htids hu hactive hreach hline (classOf_of_range hglobal (by simp)) hsettled hstamped hsluice
  · exact hform.faults hl h htids hu hactive hreach (classOf_of_range hscratch (by simp))
  · exact hform.buffers hl h htids hu hactive hreach htoken hline hkey hglobal
  · refine faultsTx_of_disallowed hg htids hu hword hbrk (earlyChecks_lone htids hu hwf hpriv huser (fun hw => ?_) hsub hwindow) hactive hallowed
    rw [hl]
    exact hwait hw
  · obtain ⟨t, hexec, hlanded, hmem, hscratch, hthread⟩ :=
      loadPerform_tx hdue hmoves hop hslot htx hl hu hc hpolder htgt htaken (eq_overlay hlen hbytes)
    exact ⟨t, _, hexec, hlanded, hmem, hscratch, hthread, rfl, fun r hr => List.mem_append_left _ hr,
      fun i hi hnone => List.mem_append_right _ (mem_readBack hi hnone)⟩

end Sys2Proof.Machine

end

section
/-! SUPPORT. Statement O28: a command that was held at issue is placed from what now stands at its block's address. -/

namespace Sys2Proof.Machine

/-! `memberBlocks` answers with the blocks that a member kept while it was held at this issue, by its `holdPc` (R204, step 1: later changes
to the block have no effect). `performAll` clears `holdPc` before the effect reads the command once more: the checks judge the kept block,
and the effect the bytes that stand in the scratchpad then. Below they have been overwritten since, and the instruction goes on with no entry
placed and no status given. -/

/-- The lone thread of the launch, about to issue GATH at offset 0. -/
def gatherGroup : Group := { core := 0, ctx := 1, wg := 0, pc := 0, tids := [0] }

/-- A gather of two rows of 64 bytes, its indices and its packed rows in granule 0 of the core's scratchpad. -/
def keptGather : GatherBlock :=
  { base := 0x40000000, pitch := 64, rowBytes := 64, count := 2, index := Config.scratchBase + 0x100, packed := Config.scratchBase + 0x200,
    bar := false, barLevel := 0, barId := 0 }

/-- Its block of 64 bytes (Table 4 of R210). -/
def keptBlock : List Byte :=
  leBytes 8 keptGather.base ++ leBytes 4 keptGather.pitch ++ leBytes 4 keptGather.rowBytes ++ leBytes 4 keptGather.count ++
    leBytes 8 keptGather.index ++ leBytes 8 keptGather.packed ++ leBytes 28 0

/-- The command that the block is. -/
def keptCommand : Command :=
  { kind := .gather keptGather, cls := 2, globalOnly := false, follow := none,
    ranges := [{ addr := keptGather.index, size := 8, isWrite := false }, { addr := keptGather.packed, size := 128, isWrite := true }] }

/-- A lease of the GX site 80 of die 0. -/
def gatherLease : Lease :=
  { handle := 4, ctx := 1, wg := 0, cls := 2, count := 1, reserved := false, kept := false, keepState := false, priority := 0, grant := 0,
    die := 0, sites := [80], ticket := none, released := false }

/-- The thread, which was held at offset 0 and has kept the block: pair 20 names the start of the scratchpad, word 22 the lease. -/
def heldOnce (u : Thread) : Thread :=
  { ((u.writeW 20 (BitVec.ofNat 32 Config.scratchBase)).writeW 21 (BitVec.ofNat 32 (Config.scratchBase / 2 ^ 32))).writeW 22 4 with
    holdPc := some 0, heldBlocks := [keptBlock] }

/-- The machine as the thread issues again; its scratchpad holds zeros by now. -/
def overwrittenState : State :=
  { State.reset.install with
    group := some gatherGroup, cores := [{ placedCore with granules := [{ index := 0, ctx := 1, wg := 0, live := true, gen := 3 }] }],
    wgs := [{ placedWg with threads := placedWg.threads.map heldOnce }], leases := [gatherLease] }

/-- The thread of that machine. -/
def heldThread : Thread := heldOnce { Thread.fresh 0 0 0 256 placedLaunch Config.scratchBase [] with status := .ready }

theorem overwrittenState_issuable : issuable (.gath false 24 20 22) overwrittenState gatherGroup = true := by decide +kernel

/-- The checks read the block that was kept (R204, steps 1 and 2). -/
theorem overwrittenState_reads :
    readCommand overwrittenState gatherGroup 0 (heldThread.readPair (20 : Reg).toNat) .gath = .ok keptCommand := by
  decide +kernel

/-- Steps 3 to 6 of R204 pass for that command. -/
theorem overwrittenState_passes :
    CommandPasses overwrittenState gatherGroup placedLaunch heldThread.parent (heldThread.readW (22 : Reg).toNat).toNat keptCommand gatherLease 0 where
  leased := by decide +kernel
  token := by decide +kernel
  handle := by decide +kernel
  allowed := by decide +kernel
  fills := by decide +kernel
  once := by decide +kernel
  reads := by decide +kernel
  types := by decide +kernel
  tag := by decide +kernel
  key := by decide +kernel

/-- The instruction leaves its thread without a result: no status, ACCEPTED or other, is owed to d. -/
theorem overwrittenState_unanswered :
    ((streamOp (.gath false 24 20 22) .gath 24 20 22 overwrittenState).threadOf 1 0 0).map Thread.results = some [] := by
  decide +kernel

/-- Refutes O28: a thread that was held at its GATH and has kept the block issues again after the block's bytes have been overwritten; the
checks pass on the kept block, and no entry is placed and no status given. -/
theorem not_commands : ¬ Obligations.Commands := by
  unfold Obligations.Commands
  rintro ⟨hstream, -⟩
  obtain ⟨hroom, -⟩ := hstream (.gath, .gath) (by simp [streamTable]) false 24 20 22 overwrittenState gatherGroup placedLaunch 0 heldThread
    keptCommand gatherLease 0 rfl overwrittenState_issuable rfl rfl (by unfold Quiet; decide) overwrittenState_reads overwrittenState_passes rfl
  obtain ⟨e, t, u, v, hexec, -, hv, hresults, -⟩ := hroom (by decide)
  have ht : streamOp (.gath false 24 20 22) .gath 24 20 22 overwrittenState = t := Host.Outcome.next.inj hexec
  have hnone := overwrittenState_unanswered
  rw [ht, show t.threadOf 1 0 0 = some v from hv, Option.map_some, Option.some.injEq, hresults] at hnone
  exact absurd hnone (by simp)

end Sys2Proof.Machine

end

section
/-! SUPPORT. Engine sites and leases: what a site holds after an update, and what a grant, an eviction of a lease without entries and a
breach leave of the rest (R193, R194, R202). -/

namespace Sys2Proof.Machine

/-! A site's record, after an update. -/

/-- The site found after one has changed. -/
theorem State.siteOf_modSite {s : State} {d i : Nat} {f : Site → Site} (hf : ∀ x, (f x).die = x.die ∧ (f x).index = x.index) (e j : Nat) :
    (s.modSite d i f).siteOf e j = if e = d ∧ j = i then f (s.siteOf d i) else s.siteOf e j := by
  have hkey : ∀ y : Site, (y.die == e && y.index == j) = true → ((y.die == d && y.index == i) = true ↔ e = d ∧ j = i) := by
    intro y hy
    simp only [Bool.and_eq_true, beq_iff_eq] at hy ⊢
    rw [hy.1, hy.2]
  unfold State.modSite
  split
  · rename_i hthere
    unfold State.siteOf
    rw [find_map_if s.sites (fun x => x.die == e && x.index == j) (fun x => x.die == d && x.index == i) f (fun x => by simp [hf x])]
    cases hfind : s.sites.find? (fun x => x.die == e && x.index == j) with
    | none =>
      rw [Option.map_none, Option.getD_none, if_neg]
      rintro ⟨rfl, rfl⟩
      rw [List.find?_eq_none] at hfind
      obtain ⟨x, hx, hxkey⟩ := List.any_eq_true.mp hthere
      exact hfind x hx hxkey
    | some y =>
      have hy := hkey y (by simpa using List.find?_some hfind)
      rw [Option.map_some, Option.getD_some, Option.getD_some]
      by_cases heq : e = d ∧ j = i
      · rw [if_pos heq, if_pos (hy.mpr heq), ← heq.1, ← heq.2, hfind, Option.getD_some]
      · rw [if_neg heq, if_neg (mt hy.mp heq)]
  · rename_i habsent
    have hnone : s.sites.find? (fun x => x.die == d && x.index == i) = none :=
      List.find?_eq_none.mpr (fun x hx hxkey => habsent (List.any_eq_true.mpr ⟨x, hx, hxkey⟩))
    obtain ⟨hdie, hindex⟩ := hf (Site.dark d i)
    unfold State.siteOf
    rw [List.find?_append, List.find?_singleton, hnone, Option.getD_none, hdie, hindex]
    by_cases heq : e = d ∧ j = i
    · rw [if_pos heq, heq.1, heq.2, hnone]
      simp [Site.dark]
    · rw [if_neg heq, if_neg]
      · rw [Option.or_none]
      · simp only [Bool.and_eq_true, beq_iff_eq, Site.dark]
        exact fun h => heq ⟨h.1.symm, h.2.symm⟩

theorem State.siteOf_congr {s t : State} (h : t.sites = s.sites) (d i : Nat) : t.siteOf d i = s.siteOf d i := by
  simp only [State.siteOf, h]

theorem State.siteOf_modSite_same {s : State} {d i : Nat} {f : Site → Site} (hf : ∀ x, (f x).die = x.die ∧ (f x).index = x.index) :
    (s.modSite d i f).siteOf d i = f (s.siteOf d i) := by
  rw [State.siteOf_modSite hf, if_pos ⟨rfl, rfl⟩]

theorem Site.wakeDone_key (now : Nat) (x : Site) : (x.wakeDone now).die = x.die ∧ (x.wakeDone now).index = x.index := by
  unfold Site.wakeDone
  split
  · split <;> exact ⟨rfl, rfl⟩
  all_goals exact ⟨rfl, rfl⟩

theorem Site.lingerDone_key (now : Nat) (x : Site) : (x.lingerDone now).die = x.die ∧ (x.lingerDone now).index = x.index := by
  unfold Site.lingerDone
  split
  · split <;> exact ⟨rfl, rfl⟩
  all_goals exact ⟨rfl, rfl⟩

/-! The internal state that a queue's head has loaded (R200). -/

theorem Site.turn_key (x : Site) : x.turn.die = x.die ∧ x.turn.index = x.index := by
  simp only [Site.turn]
  split <;> exact ⟨rfl, rfl⟩

theorem Site.turn_queue (x : Site) : x.turn.queue = x.queue := by
  simp only [Site.turn]
  split <;> rfl

/-! A grant (R194). -/

/-- The lease that a grant adds. -/
def State.leaseFor (s : State) (die cls ctx wg priority : Nat) (reserved keepState : Bool) (sites : List Nat) (ticket : Option Nat) : Lease :=
  { handle := handleOf die (minBy id (nth 0 sites 0) sites) (s.nextSerial die (minBy id (nth 0 sites 0) sites)), ctx := ctx, wg := wg, cls := cls,
    count := sites.length, reserved := reserved, kept := keepState && sites.any (fun i => (s.siteOf die i).lingersFor ctx wg),
    keepState := keepState, priority := priority, grant := s.nextId, die := die, sites := sites, ticket := ticket, released := false }

/-- A grant changes sites, serials and the next number, adds its lease, and answers with its handle. -/
theorem State.grantOn_eq (s : State) (die cls ctx wg priority : Nat) (reserved keepState : Bool) (sites : List Nat) (ticket : Option Nat) :
    ∃ x y, s.grantOn die cls ctx wg priority reserved keepState sites ticket =
      ({ s with
          sites := x, leases := s.leases ++ [s.leaseFor die cls ctx wg priority reserved keepState sites ticket], nextId := s.nextId + 1, serials := y },
        (s.leaseFor die cls ctx wg priority reserved keepState sites ticket).handle) := by
  simp only [State.grantOn]
  rw [sites_foldl _ (fun s i => State.modSite_eq s die i _) sites s]
  exact ⟨_, _, rfl⟩

/-! An eviction whose sites have no entries (R202). -/

/-- Sites have changed, and nothing else; those of a die without entries have none still. -/
def SitesChanged (s t : State) (die : Nat) : Prop :=
  t = { s with sites := t.sites } ∧ ∀ j, (s.siteOf die j).queue = [] → (t.siteOf die j).queue = []

theorem SitesChanged.trans {s t r : State} {die : Nat} (h : SitesChanged s t die) (k : SitesChanged t r die) : SitesChanged s r die :=
  ⟨by rw [k.1, h.1], fun j hj => k.2 j (h.2 j hj)⟩

/-- One site has changed. -/
theorem SitesChanged.modSite (s : State) (die i : Nat) {f : Site → Site} (hf : ∀ x, (f x).die = x.die ∧ (f x).index = x.index)
    (hqueue : ∀ x, x.queue = [] → (f x).queue = []) : SitesChanged s (s.modSite die i f) die := by
  refine ⟨State.modSite_eq s die i f, fun j hj => ?_⟩
  rw [State.siteOf_modSite hf]
  split
  · rename_i heq
    exact hqueue _ (heq.2 ▸ hj)
  · exact hj

theorem State.evictEntries_empty {s : State} {die i : Nat} (hempty : (s.siteOf die i).queue = []) (mine : Entry → Bool) :
    SitesChanged s (s.evictEntries die i mine) die := by
  have hnone : s.evictEntries die i mine = s.modSite die i (fun x => { x with queue := x.queue.filter (fun e => !mine e) }.turn) := by
    simp only [State.evictEntries, hempty, List.head?_nil, Option.any_none, Bool.false_eq_true, if_false, List.filter_nil, List.foldl_nil]
  rw [hnone]
  refine .modSite s die i (fun x => Site.turn_key _) (fun x hx => ?_)
  rw [Site.turn_queue, hx, List.filter_nil]

theorem State.evictMember_empty {s : State} {l : Lease} {i : Nat} (hempty : (s.siteOf l.die i).queue = []) :
    SitesChanged s (s.evictMember l i) l.die := by
  refine (State.evictEntries_empty hempty (fun e => e.handle == l.handle && e.ctx == l.ctx && e.wg == l.wg)).trans (.modSite _ l.die i (fun x => ?_)
    (fun x hx => ?_))
  · split <;> exact ⟨rfl, rfl⟩
  · split <;> exact hx

theorem State.evictMembers_empty {l : Lease} (is : List Nat) {s : State} (hempty : ∀ i ∈ is, (s.siteOf l.die i).queue = []) :
    SitesChanged s (is.foldl (fun s i => s.evictMember l i) s) l.die := by
  induction is generalizing s with
  | nil => exact ⟨rfl, fun _ h => h⟩
  | cons i is ih =>
    have hone := State.evictMember_empty (hempty i (by simp))
    exact hone.trans (ih (fun j hj => hone.2 j (hempty j (List.mem_cons_of_mem _ hj))))

/-- Of the evicted lease nothing is left but its report to come; dies and launches stay as they are. -/
theorem State.evict_empty {s : State} {l : Lease} (hempty : ∀ i ∈ l.sites, (s.siteOf l.die i).queue = []) :
    (s.evict l).leases = s.leases.filter (fun x => x.handle != l.handle || x.ctx != l.ctx || x.wg != l.wg) ∧ (s.evict l).evicted = s.evicted ++ [l] ∧
      (s.evict l).dies = s.dies ∧ (s.evict l).launches = s.launches := by
  obtain ⟨hsites, -⟩ := State.evictMembers_empty l.sites hempty
  simp only [State.evict]
  rw [hsites]
  split <;> exact ⟨rfl, rfl, rfl, rfl⟩

end Sys2Proof.Machine

end

section
/-! SUPPORT. Statement O46: grants from a die's queue, power of sites, failures of sites, and contributions of other ranks (R193, R197, R201, R211,
R345). -/

namespace Sys2Proof.Machine

/-! LEASE_GRANT (R197). -/

section
variable {s : State} {d : Nat} {r : Request} (hhead : (s.dieQueue d).head? = some r)
include hhead

theorem State.grantHead_waits (hfit : s.fitGrant d r.cls r.count r.ctx r.wg r.opclass r.keepState = none) : s.grantHead d = s := by
  simp only [State.grantHead, hhead, hfit]

theorem State.grantHead_grants {sites : List Nat} (hfit : s.fitGrant d r.cls r.count r.ctx r.wg r.opclass r.keepState = some (sites, [])) :
    ∃ x y, s.grantHead d =
      { s with
        sites := x, leases := s.leases ++ [s.leaseFor d r.cls r.ctx r.wg r.priority false r.keepState sites (some r.ticket)],
        nextId := s.nextId + 1, serials := y, requests := s.requests.filter (fun x => x != r) } := by
  obtain ⟨x, y, hgrant⟩ := s.grantOn_eq d r.cls r.ctx r.wg r.priority false r.keepState sites (some r.ticket)
  refine ⟨x, y, ?_⟩
  simp only [State.grantHead, hhead, hfit, List.foldl_nil, hgrant]

end

theorem leaseGrant_head (s : State) (d : Nat) (r : Request) (hhead : (s.dieQueue d).head? = some r) :
    (s.fitGrant d r.cls r.count r.ctx r.wg r.opclass r.keepState = none → exec (.leaseGrant d) s = .next s) ∧
    (∀ sites, s.fitGrant d r.cls r.count r.ctx r.wg r.opclass r.keepState = some (sites, []) →
      ∃ t le, exec (.leaseGrant d) s = .next t ∧ t.leases = s.leases ++ [le] ∧ le.sites = sites ∧ le.die = d ∧ le.cls = r.cls ∧
        le.ctx = r.ctx ∧ le.wg = r.wg ∧ le.reserved = false ∧ le.ticket = some r.ticket ∧ t.mem = s.mem ∧ t.wgs = s.wgs ∧
        t.requests = s.requests.filter (fun x => x != r)) := by
  refine ⟨fun hfit => congrArg Host.Outcome.next (State.grantHead_waits hhead hfit), fun sites hfit => ?_⟩
  obtain ⟨x, y, hgrant⟩ := State.grantHead_grants hhead hfit
  exact ⟨_, _, congrArg Host.Outcome.next hgrant, rfl, rfl, rfl, rfl, rfl, rfl, rfl, rfl, rfl, rfl, rfl⟩

/-! SITE_WAKE_COMPLETE and LINGER_EXPIRY (R193, R201). -/

section
variable {x : Site} {now due : Nat}

theorem Site.wakeDone_due (hpower : x.power = .waking due) (hdue : due ≤ now) : x.wakeDone now = { x with power := .awake } := by
  simp only [Site.wakeDone, hpower, if_pos hdue]

theorem Site.wakeDone_early (hpower : x.power = .waking due) (hearly : now < due) : x.wakeDone now = x := by
  simp only [Site.wakeDone, hpower, if_neg (Nat.not_le.mpr hearly)]

theorem Site.lingerDone_due (hpower : x.power = .lingering due) (hdue : due ≤ now) : x.lingerDone now = x.goDark := by
  simp only [Site.lingerDone, hpower, if_pos hdue]

theorem Site.lingerDone_early (hpower : x.power = .lingering due) (hearly : now < due) : x.lingerDone now = x := by
  simp only [Site.lingerDone, hpower, if_neg (Nat.not_le.mpr hearly)]

end

theorem sitePower_steps (s : State) (d i due : Nat) :
    ((s.siteOf d i).power = .waking due → due ≤ s.now → ∃ t, exec (.siteWakeComplete d i) s = .next t ∧ t = { s with sites := t.sites } ∧
      t.siteOf d i = { s.siteOf d i with power := .awake }) ∧
    ((s.siteOf d i).power = .waking due → s.now < due → ∃ t, exec (.siteWakeComplete d i) s = .next t ∧ t.siteOf d i = s.siteOf d i) ∧
    ((s.siteOf d i).power = .lingering due → due ≤ s.now → ∃ t, exec (.lingerExpiry d i) s = .next t ∧ t = { s with sites := t.sites } ∧
      (t.siteOf d i).power = .dark ∧ (t.siteOf d i).acc0 = Accumulator.fresh ∧ (t.siteOf d i).acc1 = Accumulator.fresh ∧
      (t.siteOf d i).keeper = none) ∧
    ((s.siteOf d i).power = .lingering due → s.now < due → ∃ t, exec (.lingerExpiry d i) s = .next t ∧ t.siteOf d i = s.siteOf d i) := by
  have hwoken := State.siteOf_modSite_same (s := s) (d := d) (i := i) (Site.wakeDone_key s.now)
  have hlingered := State.siteOf_modSite_same (s := s) (d := d) (i := i) (Site.lingerDone_key s.now)
  refine ⟨fun hpower hdue => ⟨_, rfl, State.modSite_eq .., ?_⟩, fun hpower hearly => ⟨_, rfl, ?_⟩,
    fun hpower hdue => ⟨_, rfl, State.modSite_eq .., ?_⟩, fun hpower hearly => ⟨_, rfl, ?_⟩⟩
  · rw [hwoken, Site.wakeDone_due hpower hdue]
  · rw [hwoken, Site.wakeDone_early hpower hearly]
  · rw [hlingered, Site.lingerDone_due hpower hdue]
    exact ⟨rfl, rfl, rfl, rfl⟩
  · rw [hlingered, Site.lingerDone_early hpower hearly]

/-! SITE_FAILURE (R345). -/

/-- A die's record with a site failed. -/
def Die.failSite (i : Nat) (x : Die) : Die := { x with failedSites := if x.failedSites.contains i then x.failedSites else x.failedSites ++ [i] }

/-- A launch without its bookings of a site. -/
def Launch.unbook (d i : Nat) (l : Launch) : Launch := { l with booked := l.booked.filter (fun b => !(b.die == d && b.sites.contains i)) }

theorem State.siteFails_eq (s : State) (d i : Nat) :
    s.siteFails d i = { s.modDie d (Die.failSite i) with launches := s.launches.map (Launch.unbook d i) } := rfl

theorem State.launch_siteFails (s : State) (d i ctx : Nat) : (s.siteFails d i).launch ctx = (s.launch ctx).map (Launch.unbook d i) := by
  rw [State.siteFails_eq]
  exact List.find?_map

theorem State.hasDie_of_any {s : State} {d : Nat} (h : s.dies.any (fun x => x.id == d) = true) : ∃ x, s.HasDie d x :=
  Option.isSome_iff_exists.mp (List.find?_isSome.mpr (List.any_eq_true.mp h))

theorem Die.failSite_contains (i r : Nat) (x : Die) : (x.failSite i).failedSites.contains r = (x.failedSites.contains r || r == i) := by
  unfold Die.failSite
  by_cases hin : x.failedSites.contains i = true
  · rw [if_pos hin]
    by_cases hr : r = i
    · rw [hr, hin, Bool.true_or]
    · rw [beq_false_of_ne hr, Bool.or_false]
  · rw [if_neg hin, List.contains_append]
    simp [beq_eq_decide]

section
variable {s : State} {d i : Nat} {x : Die} (hx : s.HasDie d x)
include hx

theorem State.die_siteFails : (s.siteFails d i).die d = x.failSite i := by
  have hdie := hx.modDie (f := Die.failSite i) (fun _ => rfl)
  rw [State.siteFails_eq]
  exact hdie.die

theorem State.sitePresent_siteFails (r : Nat) : (s.siteFails d i).sitePresent d r = (s.sitePresent d r && r != i) := by
  simp only [State.sitePresent, State.die_siteFails hx, hx.die, Die.failSite_contains, Bool.not_or, bne, Bool.and_assoc]
  rfl

/-- A site that no lease holds fails. -/
theorem siteFailure_idle (hfree : ∀ l ∈ s.leases, ¬(l.die = d ∧ i ∈ l.sites)) : ∃ t, exec (.siteFailure d i) s = .next t ∧
    t = { s with
      dies := t.dies,
      launches := s.launches.map (fun l => { l with booked := l.booked.filter (fun b => !(b.die == d && b.sites.contains i)) }) } ∧
    (t.die d).failedSites.contains i = true ∧ (∀ r, t.sitePresent d r = (s.sitePresent d r && r != i)) := by
  have hnone : s.leases.find? (fun l => l.die == d && l.sites.contains i) = none :=
    List.find?_eq_none.mpr (fun l hl hkey => hfree l hl (by simpa using hkey))
  refine ⟨s.siteFails d i, congrArg Host.Outcome.next ?_, rfl, ?_, State.sitePresent_siteFails hx⟩
  · simp only [State.failSite, hnone]
  · rw [State.die_siteFails hx, Die.failSite_contains, beq_self_eq_true, Bool.or_true]

end

/-- The breach of a reserved lease's end, where it is one (R44, R345). -/
theorem State.evictedReserved_spec {s : State} {le : Lease} {l : Launch} (hl : s.launch le.ctx = some l) (hd : l.debug = false) :
    s.evictedReserved le = { s with staged := (s.evictedReserved le).staged, launches := (s.evictedReserved le).launches } ∧
      ((s.evictedReserved le).launch le.ctx).map Launch.breaches = some (l.breaches + if le.reserved then 1 else 0) := by
  unfold State.evictedReserved
  split
  · obtain ⟨credit, hlaunch⟩ := State.launch_breach_recorded hl hd 1 7 (nth 0 le.sites 0) le.die false
    exact ⟨State.breach_eq .., by rw [hlaunch]; rfl⟩
  · exact ⟨rfl, by rw [hl]; rfl⟩

/-- A site whose lease has no entries at its sites fails: the lease ends, and each breach is counted. -/
theorem siteFailure_leased {s : State} {d i : Nat} {x : Die} (hx : s.HasDie d x) {le : Lease} {l : Launch}
    (hfind : s.leases.find? (fun l => l.die == d && l.sites.contains i) = some le) (hempty : ∀ j ∈ le.sites, (s.siteOf d j).queue = [])
    (hl : s.launch le.ctx = some l) (hd : l.debug = false) :
    ∃ t, exec (.siteFailure d i) s = .next t ∧ (t.die d).failedSites.contains i = true ∧
      (∀ x ∈ t.leases, ¬(x.handle = le.handle ∧ x.ctx = le.ctx ∧ x.wg = le.wg)) ∧ t.evicted = s.evicted ++ [le] ∧
      (t.launch le.ctx).map Launch.breaches = some (l.breaches + (if le.reserved then 2 else 1)) := by
  have hdie : le.die = d := by
    have hkey := List.find?_some hfind
    simp only [Bool.and_eq_true, beq_iff_eq] at hkey
    exact hkey.1
  obtain ⟨hleases, hevicted, hdies, hlaunches⟩ := State.evict_empty (s := s.siteFails d i) (l := le) (by rw [hdie]; exact hempty)
  have hlaunch : ((s.siteFails d i).evict le).launch le.ctx = some (l.unbook d i) := by
    rw [State.launch, hlaunches, ← State.launch, State.launch_siteFails, hl, Option.map_some]
  obtain ⟨credit, hbreached⟩ := State.launch_breach_recorded hlaunch hd 1 2 i d false
  obtain ⟨hrest, hcount⟩ := State.evictedReserved_spec (le := le) hbreached hd
  have hfail : s.failSite d i = (((s.siteFails d i).evict le).breach le.ctx 1 2 i d false).evictedReserved le := by
    simp only [State.failSite, hfind]
  refine ⟨_, congrArg Host.Outcome.next hfail, ?_, ?_, ?_, ?_⟩
  · rw [hrest, State.breach_eq]
    show (State.die ((s.siteFails d i).evict le) d).failedSites.contains i = true
    rw [State.die, hdies, ← State.die, State.die_siteFails hx, Die.failSite_contains, beq_self_eq_true, Bool.or_true]
  · rw [hrest]
    simp only [State.breach_leases, hleases]
    rintro y hy ⟨hh, hc, hw⟩
    simpa [hh, hc, hw] using (List.mem_filter.mp hy).2
  · rw [hrest, State.breach_eq]
    exact hevicted
  · rw [hcount]
    cases le.reserved <;> rfl

/-! COLL_CONTRIBUTION (R211). -/

theorem collContribution_lone (s : State) (ctx tag rank op n : Nat) (data : List Word) (l : Launch) (hl : s.launch ctx = some l) :
    (rank = l.rank ∨ (∃ m ∈ s.siblings l, m.rank = rank) ∨ l.nrank ≤ rank ∨
        n ≠ 0 ∧ (∃ c ∈ s.contributions, c.ctx = ctx ∧ c.tag = tag ∧ c.rank = rank) →
        exec (.collContribution ctx tag rank op n data) s = .next s) ∧
    (rank ≠ l.rank → (∀ m ∈ s.siblings l, m.rank ≠ rank) → rank < l.nrank →
      n = 0 ∨ (∀ c ∈ s.contributions, ¬(c.ctx = ctx ∧ c.tag = tag ∧ c.rank = rank)) →
      exec (.collContribution ctx tag rank op n data) s = .next { s with
        contributions := s.contributions.filter (fun c => !(c.ctx == ctx && c.tag == tag && c.rank == rank)) ++ [.mk ctx tag rank op n data] }) := by
  have hrefused : (rank = l.rank || (s.siblings l).any (fun m => m.rank == rank) || decide (l.nrank ≤ rank) ||
      (n != 0 && s.contributions.any (fun c => c.ctx == ctx && c.tag == tag && c.rank == rank))) = true ↔
      rank = l.rank ∨ (∃ m ∈ s.siblings l, m.rank = rank) ∨ l.nrank ≤ rank ∨
        n ≠ 0 ∧ (∃ c ∈ s.contributions, c.ctx = ctx ∧ c.tag = tag ∧ c.rank = rank) := by
    simp [or_assoc, and_assoc]
  refine ⟨fun h => congrArg Host.Outcome.next ?_, fun hown hnear hrank hfirst => congrArg Host.Outcome.next ?_⟩
  · simp only [State.contribute, hl]
    exact if_pos (hrefused.mpr h)
  · simp only [State.contribute, hl]
    refine if_neg (fun h => ?_)
    rcases hrefused.mp h with hr | ⟨m, hm, hr⟩ | hr | ⟨hn, c, hc, hkey⟩
    · exact hown hr
    · exact hnear m hm hr
    · omega
    · rcases hfirst with h0 | hnone
      · exact hn h0
      · exact hnone c hc hkey

/-- Settles O46: the head of the queue by its grant; each site by its power; a failure by the lease that holds the site; a contribution by
whether it is another module's first. -/
theorem sitesAndLeases : Obligations.SitesAndLeases := by
  unfold Obligations.SitesAndLeases
  refine ⟨leaseGrant_head, sitePower_steps, fun s d i hdie => ?_, collContribution_lone⟩
  obtain ⟨x, hx⟩ := State.hasDie_of_any hdie
  exact ⟨siteFailure_idle hx, fun le l hfind hempty hl hd => siteFailure_leased hx hfind hempty hl hd⟩

end Sys2Proof.Machine

end

section
/-! SUPPORT. A lone member's instruction that changes engines, leases or batches and answers with a word (R203, R204): the word that is given
after the effect, and what the effect leaves beside what it is for. -/

namespace Sys2Proof.Machine

/-- The member's thread as the effect of its instruction finds it. -/
def Thread.moved (u : Thread) (i : Instr) (g : Group) : Thread := { u with pc := g.pc + i.bytes, holdPc := none }

theorem Thread.moved_tid (u : Thread) (i : Instr) (g : Group) : (u.moved i g).tid = u.tid := rfl

/-- What an effect leaves beside what it is for: memory, the accesses in flight and other threads as they were, and of the member's thread `u`,
which is now `v`, all but its batches. -/
structure Aside (p q : State) (g : Group) (k : Nat) (u v : Thread) : Prop where
  mem : q.mem = p.mem
  scratch : q.scratch = p.scratch
  flight : q.flight = p.flight
  others : ∀ c w j, ¬(c = g.ctx ∧ w = g.wg ∧ j = k) → q.threadOf c w j = p.threadOf c w j
  thread : q.threadOf g.ctx g.wg k = some v
  batches : v = { u with openBatch := v.openBatch, batches := v.batches, batchNo := v.batchNo, staleNext := v.staleNext }

/-- An effect that changes no workgroup. -/
theorem Aside.of_wgs {p q : State} {g : Group} {k : Nat} {u : Thread} (hu : p.threadOf g.ctx g.wg k = some u) (hmem : q.mem = p.mem)
    (hscratch : q.scratch = p.scratch) (hflight : q.flight = p.flight) (hwgs : q.wgs = p.wgs) : Aside p q g k u u :=
  ⟨hmem, hscratch, hflight, fun c w j _ => State.threadOf_congr hwgs c w j, (State.threadOf_congr hwgs _ _ _).trans hu, rfl⟩

/-- A further change that leaves every thread as it is. -/
theorem Aside.trans_threads {p q r : State} {g : Group} {k : Nat} {u v : Thread} (h : Aside p q g k u v) (hmem : r.mem = q.mem)
    (hscratch : r.scratch = q.scratch) (hflight : r.flight = q.flight) (hthreads : ∀ c w j, r.threadOf c w j = q.threadOf c w j) :
    Aside p r g k u v :=
  ⟨hmem.trans h.mem, hscratch.trans h.scratch, hflight.trans h.flight, fun c w j hj => (hthreads c w j).trans (h.others c w j hj),
    (hthreads _ _ _).trans h.thread, h.batches⟩

section
variable {i : Instr} {s p q : State} {g : Group} {k : Nat} {u v : Thread} {d : Reg} {r : Word} (htids : g.tids = [k])
  (hu : s.threadOf g.ctx g.wg k = some u) (hready : u.status = .ready) (hp : Stepped i s g k u p)
include hu hready hp

/-- The effect's word is given and the run goes on: the instruction answers. -/
theorem Stepped.answers {post : State → Thread → Prop} (hexec : exec i s = .next (State.advance i g (giveWord g k d.toNat r q) k))
    (hq : Aside p q g k (u.moved i g) v)
    (hpost : ∀ t w, t = { q with wgs := t.wgs, cores := t.cores } → w.openBatch = v.openBatch → w.batches = v.batches → w.batchNo = v.batchNo →
      post t w) : Answers i s g k d r post := by
  obtain ⟨hgiven, hthread⟩ := giveWord_members g k d.toNat r q
  rw [hq.thread, Option.map_some] at hthread
  obtain ⟨hadvanced, hgone⟩ := advance_alone (i := i) hthread
  have hkept := hgiven.trans hadvanced
  have hstatus : (v.addResult (v.dests d.toNat 1) (some [some r])).status = .ready := by
    rw [Thread.addResult_status, hq.batches]
    exact hready
  have hrun := Thread.goOn_run (i := i) (u := u) hstatus (by rw [hq.batches]; rfl)
  rw [Thread.goOn_ready hstatus] at hgone hrun
  refine ⟨_, u, _, hexec, hu, hgone, ?_, ?_, ?_, hrun, ?_, ?_, ?_, fun c w j hj => ?_, hpost _ _ hkept.rest rfl rfl rfl⟩
  · rw [hq.batches]; rfl
  · rw [hq.batches]; rfl
  · rw [hq.batches]; rfl
  · rw [hkept.rest]; exact hq.mem.trans (by rw [hp.rest])
  · rw [hkept.rest]; exact hq.scratch.trans (by rw [hp.rest])
  · rw [hkept.rest]; exact hq.flight.trans (by rw [hp.rest])
  · exact (hkept.others c w j (by simpa using hj)).trans ((hq.others c w j hj).trans (hp.kept.others c w j (by simpa using hj)))

include htids in
/-- A word alone is given. -/
theorem Stepped.owes (hexec : exec i s = .next (State.advance i g (giveWord g k d.toNat r p) k)) :
    Performs i s g (fun u v => Owes i (g.pc + i.bytes) d.toNat [r] u v) := by
  obtain ⟨hgiven, hthread⟩ := giveWord_members g k d.toNat r p
  rw [hp.thread, Option.map_some] at hthread
  obtain ⟨hadvanced, hgone⟩ := advance_alone (i := i) hthread
  have hkept := hp.kept.trans (hgiven.trans hadvanced)
  rw [← htids] at hkept
  refine ⟨_, hexec, ⟨by rw [hkept.rest], hkept.others, hkept.shells, hkept.cores⟩, fun j hj => ?_⟩
  rw [htids, List.mem_singleton] at hj
  subst hj
  exact ⟨u, _, hu, hgone, owes_word hready⟩

end

section
variable {i : Instr} {s : State} {g : Group} {k : Nat} {u : Thread} {d : Reg} (h : issuable i s g = true) (htids : g.tids = [k])
  (hu : s.threadOf g.ctx g.wg k = some u)
include h htids hu

/-- An instruction of R203's kind: its effect on the state that has moved the PC on, and its word. -/
theorem statusOp_step {chk : State → Group → Thread → Option TrapInfo} {f : State → Group → Thread → State × Word}
    (hchk : chk { s with group := none } g u = none) (hexec : exec i s = .next (statusOp i chk d f s)) :
    ∃ p, Stepped i s g k u p ∧
      exec i s = .next (State.advance i g (giveWord g k d.toNat (f p g (u.moved i g)).2 (f p g (u.moved i g)).1) k) := by
  obtain ⟨p, hp, hstep⟩ := lone_effect (eff := fun s g tid => match s.threadOf g.ctx g.wg tid with
    | none => s
    | some t => let r := f s g t; giveWord g tid (rn d) r.2 r.1) (hold := fun _ _ _ => none) h htids hu hchk rfl hexec
  refine ⟨p, hp, hstep.trans ?_⟩
  simp only [hp.thread]
  rfl

/-- Such an instruction that changes something answers, by what its effect leaves. -/
theorem statusOp_answers_of {chk : State → Group → Thread → Option TrapInfo} {f : State → Group → Thread → State × Word} {r : Word}
    {post : State → Thread → Prop} (hchk : chk { s with group := none } g u = none) (hexec : exec i s = .next (statusOp i chk d f s))
    (heff : ∀ p, Stepped i s g k u p → ∃ q v, f p g (u.moved i g) = (q, r) ∧ Aside p q g k (u.moved i g) v ∧
      ∀ t w, t = { q with wgs := t.wgs, cores := t.cores } → w.openBatch = v.openBatch → w.batches = v.batches → w.batchNo = v.batchNo → post t w) :
    Answers i s g k d r post := by
  obtain ⟨p, hp, hstep⟩ := statusOp_step h htids hu hchk hexec
  obtain ⟨q, v, hf, hq, hpost⟩ := heff p hp
  rw [hf] at hstep
  exact hp.answers hu (issuable_ready h htids hu) hstep hq hpost

end

section
variable {i : Instr} {s p : State} {g : Group} {k : Nat} {u : Thread} (hp : Stepped i s g k u p)
include hp

/-- What has moved the PC on has left engines, leases, requests, tiles, launches and dies as they were. -/
theorem Stepped.nextId : p.nextId = s.nextId := by rw [hp.rest]
theorem Stepped.leases : p.leases = s.leases := by rw [hp.rest]
theorem Stepped.requests : p.requests = s.requests := by rw [hp.rest]
theorem Stepped.evicted : p.evicted = s.evicted := by rw [hp.rest]
theorem Stepped.siteOf (d j : Nat) : p.siteOf d j = s.siteOf d j := by rw [hp.rest]; rfl
theorem Stepped.nameHandle (c w x : Nat) : p.nameHandle c w x = s.nameHandle c w x := by rw [hp.rest]; rfl
theorem Stepped.handleStep (x cls : Nat) : Machine.handleStep p g x cls = Machine.handleStep s g x cls := by rw [hp.rest]; rfl
theorem Stepped.queueRoom (l : Lease) (m : Nat) : p.queueRoom l m = s.queueRoom l m := by rw [hp.rest]; rfl

end

end Sys2Proof.Machine

end

section
/-! SUPPORT. A queue's new entry (R205): its site, its tiles, and the batch of its thread. -/

namespace Sys2Proof.Machine

/-! The entry, and the state that it leaves. -/

/-- The entry that a command of thread `k` becomes. -/
def State.entryFor (s : State) (g : Group) (k : Nat) (l : Lease) (m : Nat) (kind : EntryKind) (after : Option Nat) (gens : List (Nat × Nat)) : Entry :=
  { id := s.nextId, ctx := g.ctx, wg := g.wg, tid := k, core := g.core,
    batch := ((s.threadOf g.ctx g.wg k).map (fun t => t.batchSerial s.nextId)).getD s.nextId, kind := kind, after := after, follow := after.isSome,
    step := 0, started := false, failed := false, stale := false, gens := gens, pc := g.pc, decoded := none, partials := [],
    handle := l.handle, lineage := (s.siteOf l.die (l.site m)).lineage }

/-- A site whose queue has one entry more. -/
def Site.push (e : Entry) (x : Site) : Site := { x with queue := x.queue ++ [e] }

/-- The tiles as an entry that is placed leaves them (R114): those that it fills, and those that it reads. -/
def State.tilesFor (s : State) (cl : Nat) (kind : EntryKind) : List Tile :=
  (kind.readers.foldl (fun s n => s.modTile cl n (fun t => t.pin 1))
    (kind.fills.foldl (fun x f => x.modTile cl f.1 (fun t => t.fill s.nextId f.2.1 f.2.2)) s)).tiles

/-- A fold of steps that change tiles alone changes tiles alone. -/
theorem tiles_foldl {α : Type} {F : State → α → State} {T : α → List Tile → List Tile} (hF : ∀ s x, F s x = { s with tiles := T x s.tiles })
    (xs : List α) (s : State) : xs.foldl F s = { s with tiles := xs.foldl (fun ts x => T x ts) s.tiles } := by
  induction xs generalizing s with
  | nil => rfl
  | cons x xs ih => rw [List.foldl_cons, ih, hF, List.foldl_cons]

theorem State.enqueue_eq (s : State) (g : Group) (k : Nat) (l : Lease) (m : Nat) (kind : EntryKind) (after : Option Nat) (gens : List (Nat × Nat)) :
    s.enqueue g k l m kind after gens =
      (({ s with nextId := s.nextId + 1, tiles := s.tilesFor (coreCluster g.core) kind } : State).modThread g.ctx g.wg k
        (fun t => t.joinBatch s.nextId 1)).modSite l.die (l.site m) (Site.push (s.entryFor g k l m kind after gens)) := by
  have hfill := fun x : State => tiles_foldl (F := fun x f => x.modTile (coreCluster g.core) f.1 (fun t => t.fill s.nextId f.2.1 f.2.2))
    (T := fun f ts => ts.map (fun t => if t.cluster == coreCluster g.core && t.number == f.1 then t.fill s.nextId f.2.1 f.2.2 else t))
    (fun _ _ => rfl) kind.fills x
  have hpin := fun x : State => tiles_foldl (F := fun x n => x.modTile (coreCluster g.core) n (fun t => t.pin 1))
    (T := fun n ts => ts.map (fun t => if t.cluster == coreCluster g.core && t.number == n then t.pin 1 else t)) (fun _ _ => rfl) kind.readers x
  simp only [State.enqueue, State.tilesFor, hfill, hpin]
  rfl

/-- The site whose queue has the entry. -/
theorem State.siteOf_enqueue (s : State) (g : Group) (k : Nat) (l : Lease) (m : Nat) (kind : EntryKind) (after : Option Nat) (gens : List (Nat × Nat)) :
    (s.enqueue g k l m kind after gens).siteOf l.die (l.site m) = (s.siteOf l.die (l.site m)).push (s.entryFor g k l m kind after gens) := by
  rw [State.enqueue_eq, State.siteOf_modSite_same (f := Site.push _) (fun _ => ⟨rfl, rfl⟩)]
  rfl

theorem State.enqueue_tiles (s : State) (g : Group) (k : Nat) (l : Lease) (m : Nat) (kind : EntryKind) (after : Option Nat) (gens : List (Nat × Nat)) :
    (s.enqueue g k l m kind after gens).tiles = s.tilesFor (coreCluster g.core) kind := by
  rw [State.enqueue_eq, State.modSite_eq]
  rfl

/-- The rest: the entry joins its thread's open batch (R216). -/
theorem State.enqueue_aside {s : State} {g : Group} {k : Nat} {u : Thread} (hu : s.threadOf g.ctx g.wg k = some u) (l : Lease) (m : Nat)
    (kind : EntryKind) (after : Option Nat) (gens : List (Nat × Nat)) :
    Aside s (s.enqueue g k l m kind after gens) g k u (u.joinBatch s.nextId 1) := by
  rw [State.enqueue_eq, State.modSite_eq]
  refine ⟨rfl, rfl, rfl, fun c w j hj => ?_, ?_, rfl⟩
  · exact State.threadOf_modThread_other s g.ctx g.wg k c w j (fun t => t.joinBatch s.nextId 1) (fun _ => rfl) hj
  · refine (State.threadOf_modThread_same s g.ctx g.wg k (fun t => t.joinBatch s.nextId 1) (fun _ => rfl)).trans ?_
    rw [hu, Option.map_some]

/-- The entry is that of the state before the PC moved on. -/
theorem Stepped.entryFor {i : Instr} {s p : State} {g : Group} {k : Nat} {u : Thread} (hp : Stepped i s g k u p)
    (hu : s.threadOf g.ctx g.wg k = some u) (l : Lease) (m : Nat) (kind : EntryKind) (after : Option Nat) (gens : List (Nat × Nat)) :
    p.entryFor g k l m kind after gens = s.entryFor g k l m kind after gens := by
  simp only [State.entryFor, hp.nextId, hp.siteOf, hp.thread, hu, Option.map_some, Option.getD_some, Thread.batchSerial]

/-- An entry that has been placed behind those that stood in its queue. -/
theorem Stepped.enqueued {i : Instr} {s p t : State} {g : Group} {k : Nat} {u : Thread} (hp : Stepped i s g k u p)
    (hu : s.threadOf g.ctx g.wg k = some u) {l : Lease} {m : Nat} {kind : EntryKind} {after : Option Nat} {gens : List (Nat × Nat)}
    (ht : (t.siteOf l.die (l.site m)).queue = ((p.enqueue g k l m kind after gens).siteOf l.die (l.site m)).queue) :
    Enqueued s t g k l m kind (s.entryFor g k l m kind after gens) := by
  rw [State.siteOf_enqueue, hp.siteOf, hp.entryFor hu] at ht
  exact ⟨ht, rfl, rfl, rfl, rfl, rfl, rfl, rfl, rfl, rfl⟩

/-! Room in a queue (R205). -/

theorem State.queueRoom_of_short {s : State} {l : Lease} {m : Nat} (h : (s.siteOf l.die (l.site m)).queue.length < 32) : s.queueRoom l m = true := by
  simp only [State.queueRoom, decide_eq_true h, Bool.true_or]

theorem State.queueRoom_full {s : State} {l : Lease} {m : Nat} (h : 32 ≤ (s.siteOf l.die (l.site m)).queue.length)
    (hdepth : s.declaredDepth l ≤ ((s.siteOf l.die (l.site m)).queue.filter (fun e => e.handle == l.handle && e.ctx == l.ctx)).length) :
    s.queueRoom l m = false := by
  simp only [State.queueRoom, decide_eq_false (Nat.not_lt.mpr h), decide_eq_false (Nat.not_lt.mpr hdepth), Bool.or_self]

end Sys2Proof.Machine

end

section
/-! SUPPORT. Statement O29: fences and batches (R206, R216 to R218). -/

namespace Sys2Proof.Machine

/-! QFENCE (R206). -/

theorem fenceHandles_one {x : Nat} (hpos : 0 < x) (hx : x < 2 ^ 16) : fenceHandles x = [x] := by
  have hlow : x % 65536 = x := Nat.mod_eq_of_lt hx
  have hsecond : x / 65536 = 0 := Nat.div_eq_of_lt hx
  have hthird : x / 4294967296 = 0 := by omega
  have hfourth : x / 281474976710656 = 0 := by omega
  simp [fenceHandles, rangeFrom, hlow, hsecond, hthird, hfourth, Nat.pos_iff_ne_zero.mp hpos]

theorem fenceQueues_one {s : State} {g : Group} {x m : Nat} {le : Lease} (hname : s.nameHandle g.ctx g.wg x = .member le m) :
    fenceQueues s g [x] = .ok [(le, m)] := by
  simp [fenceQueues, fenceHandle, hname]

section
variable {s : State} {g : Group} {x m : Nat} {le : Lease} (hpos : 0 < x) (hx : x < 2 ^ 16)
  (hname : s.nameHandle g.ctx g.wg x = .member le m)
include hpos hx hname

theorem fenceOp_accepted (k : Nat) (hroom : s.queueRoom le m = true) :
    fenceOp s g k x = (s.enqueue g k le m (.fence s.nextId) none [], stAccepted) := by
  simp [fenceOp, fenceHandles_one hpos hx, fenceQueues_one hname, hroom]

theorem fenceOp_full (k : Nat) (hfull : s.queueRoom le m = false) : fenceOp s g k x = (s, stFull) := by
  simp [fenceOp, fenceHandles_one hpos hx, fenceQueues_one hname, hfull]

end

section
variable {sw : Bool} {d a : Reg} {s : State} {g : Group} {k : Nat} {u : Thread} (h : issuable (.qfence sw d a) s g = true) (htids : g.tids = [k])
  (hu : s.threadOf g.ctx g.wg k = some u)
include h htids hu

/-- A QFENCE of no handle. -/
theorem qfence_empty (hzero : u.readPair a.toNat = 0) : Traps (.qfence sw d a) s g .illegal 0 k := by
  have hchk : illegalIf (u.readPair a.toNat == 0) = some { code := .illegal, operand := 0 } := by
    rw [hzero]
    rfl
  exact congrArg Host.Outcome.next (issueHeld_traps (issuable_group h)
    (issueFault_operand (chk := fun _ _ t => illegalIf (t.readPair (rn a) == 0)) h htids hu hchk rfl))

section
variable {le : Lease} {m : Nat} (hpos : 0 < u.readPair a.toNat) (hx : u.readPair a.toNat < 2 ^ 16)
  (hname : s.nameHandle g.ctx g.wg (u.readPair a.toNat) = .member le m)
include hpos hx hname

theorem qfence_accepted (hshort : (s.siteOf le.die (le.site m)).queue.length < 32) :
    ∃ e j, Answers (.qfence sw d a) s g k d 0 (fun t _ => Enqueued s t g k le m (.fence j) e) := by
  have hpass : illegalIf (u.readPair a.toNat == 0) = none := by simp [illegalIf, Nat.pos_iff_ne_zero.mp hpos]
  refine ⟨s.entryFor g k le m (.fence s.nextId) none [], s.nextId, ?_⟩
  refine statusOp_answers_of (f := fun s g t => fenceOp s g t.tid (t.readPair (rn a))) h htids hu hpass rfl (fun p hp =>
    ⟨p.enqueue g k le m (.fence s.nextId) none [], _, ?_, State.enqueue_aside hp.thread .., fun t w ht _ _ _ => hp.enqueued hu ?_⟩)
  · rw [← hp.nextId, ← State.threadOf_tid hu]
    exact fenceOp_accepted hpos hx ((hp.nameHandle ..).trans hname) u.tid ((hp.queueRoom ..).trans (State.queueRoom_of_short hshort))
  · rw [ht]
    rfl

theorem qfence_full (hlong : 32 ≤ (s.siteOf le.die (le.site m)).queue.length)
    (hdepth : s.declaredDepth le ≤ ((s.siteOf le.die (le.site m)).queue.filter (fun e => e.handle == le.handle && e.ctx == le.ctx)).length) :
    Performs (.qfence sw d a) s g (fun u v => Owes (.qfence sw d a) (g.pc + 4) d.toNat [0xFFFFFFF0] u v) := by
  have hpass : illegalIf (u.readPair a.toNat == 0) = none := by simp [illegalIf, Nat.pos_iff_ne_zero.mp hpos]
  refine statusOp_owes (f := fun s g t => fenceOp s g t.tid (t.readPair (rn a))) h htids hu hpass (fun p hp => ?_) rfl
  exact fenceOp_full hpos hx ((hp.nameHandle ..).trans hname) _ ((hp.queueRoom ..).trans (State.queueRoom_full hlong hdepth))

end

end

/-! BSEAL (R216). -/

theorem unfinished_eq (u : Thread) : u.unfinished = (u.batches.filter (fun b => decide (b.finished < b.entries))).length := by
  have hdone : (fun b : Batch => !b.done) = fun b => decide (b.finished < b.entries) := by
    funext b
    simp only [Batch.done, ← decide_not, Nat.not_le]
  rw [Thread.unfinished, hdone]

/-- The batch that BSEAL closes, under its number. -/
def Thread.sealed (u : Thread) (serial : Nat) : Batch :=
  { u.openBatch.getD (Batch.fresh serial) with number := nextBatchNo u.batchNo, stale := u.staleNext }

theorem seal_batches (u : Thread) (serial : Nat) :
    (u.seal serial).batches = u.sealed serial :: (u.batches.take 63 ++ (u.batches.drop 63).filter (fun b => !b.done)) := rfl

theorem seal_keeps_recent (u : Thread) (serial : Nat) : (u.seal serial).batches.tail.take 63 = u.batches.take 63 := by
  rw [seal_batches, List.tail_cons]
  by_cases hlen : 63 ≤ u.batches.length
  · rw [List.take_left' (by rw [List.length_take, Nat.min_eq_left hlen])]
  · rw [List.drop_eq_nil_of_le (by omega), List.filter_nil, List.append_nil, List.take_take, Nat.min_self]

theorem seal_keeps_unfinished (u : Thread) (serial : Nat) {b : Batch} (hb : b ∈ u.batches) (hopen : b.finished < b.entries) :
    b ∈ (u.seal serial).batches := by
  have hdone : (!b.done) = true := by simpa [Batch.done] using hopen
  rw [seal_batches, List.mem_cons, List.mem_append, List.mem_filter]
  rcases List.mem_append.mp ((List.take_append_drop 63 u.batches).symm ▸ hb) with htake | hdrop
  · exact .inr (.inl htake)
  · exact .inr (.inr ⟨hdrop, hdone⟩)

/-- What BSEAL leaves, and its word. -/
theorem sealOp_closes {s : State} {g : Group} {u : Thread} (hroom : (u.batches.filter (fun b => decide (b.finished < b.entries))).length < 16) :
    sealOp s g u = ({ s.modThread g.ctx g.wg u.tid (fun t => t.seal s.nextId) with nextId := s.nextId + 1 },
      BitVec.ofNat 32 (nextBatchNo u.batchNo)) := by
  rw [← unfinished_eq] at hroom
  exact if_neg (Nat.not_le.mpr hroom)

theorem sealOp_full {s : State} {g : Group} {u : Thread} (hfull : 16 ≤ (u.batches.filter (fun b => decide (b.finished < b.entries))).length) :
    sealOp s g u = (s, stFull) := by
  rw [← unfinished_eq] at hfull
  exact if_pos hfull

theorem seal_aside {p : State} {g : Group} {k : Nat} {u : Thread} (hu : p.threadOf g.ctx g.wg k = some u) :
    Aside p { p.modThread g.ctx g.wg k (fun t => t.seal p.nextId) with nextId := p.nextId + 1 } g k u (u.seal p.nextId) := by
  refine ⟨rfl, rfl, rfl, fun c w j hj => ?_, ?_, rfl⟩
  · exact State.threadOf_modThread_other p g.ctx g.wg k c w j (fun t => t.seal p.nextId) (fun _ => rfl) hj
  · refine (State.threadOf_modThread_same p g.ctx g.wg k (fun t => t.seal p.nextId) (fun _ => rfl)).trans ?_
    rw [hu, Option.map_some]

theorem bseal_lone (sw : Bool) (d : Reg) (s : State) (g : Group) (k : Nat) (u : Thread) (h : issuable (.bseal sw d) s g = true)
    (htids : g.tids = [k]) (hu : s.threadOf g.ctx g.wg k = some u) :
    ((u.batches.filter (fun b => decide (b.finished < b.entries))).length < 16 →
      Answers (.bseal sw d) s g k d (BitVec.ofNat 32 (if u.batchNo < 2 ^ 31 - 1 then u.batchNo + 1 else 1)) (fun _ v =>
        v.openBatch = none ∧ v.batchNo = (if u.batchNo < 2 ^ 31 - 1 then u.batchNo + 1 else 1) ∧
        v.batches.tail.take 63 = u.batches.take 63 ∧ (∀ b ∈ u.batches, b.finished < b.entries → b ∈ v.batches) ∧
        (v.batches.head?).map Batch.number = some v.batchNo ∧
        (∀ b, u.openBatch = some b → (v.batches.head?).map Batch.entries = some b.entries))) ∧
    (16 ≤ (u.batches.filter (fun b => decide (b.finished < b.entries))).length →
      Performs (.bseal sw d) s g (fun u v => Owes (.bseal sw d) (g.pc + 4) d.toNat [0xFFFFFFF0] u v)) := by
  refine ⟨fun hroom => ?_, fun hfull => ?_⟩
  · refine statusOp_answers_of (chk := noCheck) (f := fun s g t => sealOp s g t) h htids hu rfl rfl (fun p hp =>
      ⟨_, (u.moved (.bseal sw d) g).seal p.nextId, sealOp_closes (u := u.moved (.bseal sw d) g) hroom, ?_, fun t v _ hopen hbatches hno => ?_⟩)
    · rw [Thread.moved_tid, State.threadOf_tid hu]
      exact seal_aside hp.thread
    · rw [hopen, hbatches, hno]
      refine ⟨rfl, rfl, seal_keeps_recent (u.moved (.bseal sw d) g) p.nextId,
        fun b hb hfew => seal_keeps_unfinished (u.moved (.bseal sw d) g) p.nextId hb hfew, rfl, fun b hb => ?_⟩
      rw [seal_batches, List.head?_cons, Option.map_some, Thread.sealed, show (u.moved (.bseal sw d) g).openBatch = some b from hb]
      rfl
  · exact statusOp_owes (chk := noCheck) (f := fun s g t => sealOp s g t) h htids hu rfl (fun p hp => sealOp_full hfull) rfl

/-! BSTAT (R218). -/

theorem batchRecord_gone {u : Thread} {n : Nat} (h : ∀ b ∈ u.batches.take 64, b.number ≠ n) :
    batchRecord u n = [some 0xFFFFFFF9, some 0, some 0, some 0] := by
  have hnone : (u.batches.take 64).find? (fun b => b.number == n) = none := List.find?_eq_none.mpr (fun b hb => by simpa using h b hb)
  simp only [batchRecord, hnone]
  rfl

theorem batchRecord_kept {u : Thread} {n : Nat} {b : Batch} (h : (u.batches.take 64).find? (fun b => b.number == n) = some b) :
    batchRecord u n = batchWords b := by
  simp only [batchRecord, h]

theorem bstat_members (sw : Bool) (d a : Reg) (s : State) (g : Group) (h : issuable (.bstat sw d a) s g = true) :
    Performs (.bstat sw d a) s g (fun u v => ∃ r,
      ((∀ b ∈ u.batches.take 64, b.number ≠ (u.readW a.toNat).toNat) → r = [some 0xFFFFFFF9, some 0, some 0, some 0]) ∧
      (∀ b, (u.batches.take 64).find? (fun b => b.number == (u.readW a.toNat).toNat) = some b → r = batchWords b) ∧
      Went (.bstat sw d a) (g.pc + 4) { u with
        results := u.results ++ [.mk u.nextSlot ((rangeFrom d.toNat 4).map u.phys) (some r)], nextSlot := u.nextSlot + 1 } u v) := by
  obtain ⟨honly, heach⟩ := onThread_only (chk := noCheck)
    (f := fun t => t.addResult (t.dests (rn d) 4) (some (batchRecord t (t.readW (rn a)).toNat))) h (fun _ => rfl) (fun _ _ _ _ => rfl)
  refine ⟨_, rfl, honly, heach.imp ?_⟩
  rintro u v ⟨hready, -, rfl⟩
  exact ⟨_, batchRecord_gone, fun b => batchRecord_kept,
    went_onThread (f := fun t => t.addResult (t.dests (rn d) 4) (some (batchRecord t (t.readW (rn a)).toNat))) hready rfl rfl rfl⟩

/-- Settles O29: QFENCE by the one queue that its handle names; BSEAL by the list of batches that it leaves; BWAIT by the sleep of its members;
BSTAT by the record that it finds. -/
theorem fencesAndBatches : Obligations.FencesAndBatches := by
  unfold Obligations.FencesAndBatches
  refine ⟨fun sw d a s g k u h htids hu => ⟨qfence_empty h htids hu, fun le m hpos hx hname =>
    ⟨qfence_accepted h htids hu hpos hx hname, qfence_full h htids hu hpos hx hname⟩⟩, bseal_lone, fun sw d a s g h => ?_, bstat_members⟩
  exact issue_sleeps (chk := noCheck) (w := fun u => .bwait (u.readW a.toNat).toNat) h (fun _ _ _ _ => rfl) (fun _ _ => rfl) rfl

end Sys2Proof.Machine

end

section
/-! SUPPORT. Statement O30: the matrix instructions (R220 to R224). -/

namespace Sys2Proof.Machine

/-! A lone member's command (R204): the verdict at issue, and the command's placement. -/

/-- What a member does by its verdict: its part in `commandOp`. -/
def putCommand (settle : State → Group → Thread → State) (verdict : State → Group → Thread → Verdict)
    (place : State → Group → Nat → State) (d : Reg) (s : State) (g : Group) (tid : Nat) : State :=
  match s.threadOf g.ctx g.wg tid with
  | none => s
  | some t => match verdict s g t with
    | .status w report => giveWord g tid (rn d) w (match report with | none => settle s g t | some l => (settle s g t).reported l)
    | .accepted => place s g tid
    | .trap _ | .hold _ => s

/-- A member's verdict after the lower members' commands. -/
def seenVerdict (settle : State → Group → Thread → State) (verdict : State → Group → Thread → Verdict)
    (place : State → Group → Nat → State) (d : Reg) (s : State) (g : Group) (t : Thread) : Verdict :=
  verdict ((s.lowerMembers g t).foldl (fun s u => putCommand settle verdict place d s g u.tid) s) g t

theorem commandOp_eq (i : Instr) (settle : State → Group → Thread → State) (verdict : State → Group → Thread → Verdict)
    (place : State → Group → Nat → State) (d : Reg) (s : State) :
    commandOp i settle verdict place d s = issueHeld i (fun s g t => verdictTrap (seenVerdict settle verdict place d s g t))
      (fun s g t => verdictHold (seenVerdict settle verdict place d s g t)) (putCommand settle verdict place d) s := rfl

section
variable {i : Instr} {s : State} {g : Group} {k : Nat} {u : Thread} {d : Reg} {v : State → Group → Thread → Verdict}
  (h : issuable i s g = true) (htids : g.tids = [k]) (hu : s.threadOf g.ctx g.wg k = some u)

include htids hu in
/-- A lone member has no lower members. -/
theorem lowerMembers_lone : State.lowerMembers { s with group := none } g u = [] := by
  have hmembers := State.members_cons (s := { s with group := none }) htids hu
  rw [State.lowerMembers, hmembers, List.takeWhile_cons_of_neg (by simp)]

include h htids hu

/-- Where its verdict neither traps nor holds it, it does what its verdict says. -/
theorem commandOp_lone {settle : State → Group → Thread → State} {place : State → Group → Nat → State} {V : Verdict}
    (hv : v { s with group := none } g u = V) (htrap : verdictTrap V = none) (hhold : verdictHold V = none)
    (hexec : exec i s = .next (commandOp i settle v place d s)) :
    ∃ p, Stepped i s g k u p ∧ exec i s = .next (State.advance i g (putCommand settle v place d p g k) k) := by
  have hseen : seenVerdict settle v place d { s with group := none } g u = V := by
    rw [seenVerdict, lowerMembers_lone htids hu, List.foldl_nil, hv]
  exact lone_effect h htids hu ((congrArg verdictTrap hseen).trans htrap) ((congrArg verdictHold hseen).trans hhold) (hexec.trans rfl)

section
variable {place : State → Group → Thread → State × Word} (hexec : exec i s = .next (matrixOp i d v place s))
include hexec

/-- A command that is refused owes its status. -/
theorem matrixOp_refused {w : Word} (hv : v { s with group := none } g u = .status w none)
    (hsame : ∀ p, Stepped i s g k u p → v p g (u.moved i g) = .status w none) :
    Performs i s g (fun u v => Owes i (g.pc + i.bytes) d.toNat [w] u v) := by
  obtain ⟨p, hp, hstep⟩ := commandOp_lone h htids hu hv rfl rfl hexec
  refine hp.owes htids hu (issuable_ready h htids hu) (hstep.trans ?_)
  have hverdict : v p g { u with pc := g.pc + i.bytes, holdPc := none } = .status w none := hsame p hp
  simp only [putCommand, hp.thread, hverdict]

/-- A command that is accepted is placed, and answers with the word of its placement. -/
theorem matrixOp_answers {r : Word} {post : State → Thread → Prop} (hv : v { s with group := none } g u = .accepted)
    (heff : ∀ p, Stepped i s g k u p → v p g (u.moved i g) = .accepted ∧ ∃ q w, place p g (u.moved i g) = (q, r) ∧
      Aside p q g k (u.moved i g) w ∧ ∀ t x, t = { q with wgs := t.wgs, cores := t.cores } → post t x) : Answers i s g k d r post := by
  obtain ⟨p, hp, hstep⟩ := commandOp_lone h htids hu hv rfl rfl hexec
  obtain ⟨hverdict, q, w, hplace, haside, hpost⟩ := heff p hp
  have hmoved : v p g { u with pc := g.pc + i.bytes, holdPc := none } = .accepted := hverdict
  have hplaced : place p g { u with pc := g.pc + i.bytes, holdPc := none } = (q, r) := hplace
  refine hp.answers hu (issuable_ready h htids hu) (hstep.trans ?_) haside (fun t x ht _ _ _ => hpost t x ht)
  simp only [putCommand, hp.thread, hmoved, hplaced]

end

end

/-! Tiles, after an update. -/

theorem Tile.pin_keeps (n : Nat) (t : Tile) :
    (t.pin n).cluster = t.cluster ∧ (t.pin n).number = t.number ∧ ((t.pin n).state = .free ↔ t.state = .free) := ⟨rfl, rfl, Iff.rfl⟩

/-- Every other tile is as before. -/
theorem State.tileOf_modTile_other {s : State} {cl n m : Nat} {f : Tile → Tile} (hne : m ≠ n)
    (hf : ∀ t, (f t).cluster = t.cluster ∧ (f t).number = t.number ∧ ((f t).state = .free ↔ t.state = .free)) :
    (s.modTile cl n f).tileOf cl m = s.tileOf cl m := by
  refine (find_map_if s.tiles _ _ f (fun t => ?_)).trans ?_
  · obtain ⟨hc, hm, hfree⟩ := hf t
    simp only [hc, hm, bne, beq_eq_decide, hfree]
  · change (s.tileOf cl m).map _ = _
    cases hx : s.tileOf cl m with
    | none => rfl
    | some x =>
      obtain ⟨-, hnumber, -⟩ := State.tileOf_live hx
      rw [Option.map_some, if_neg (by simp [hnumber, hne])]

/-- A tile that a command fills, whichever record of the table it is, is found filling (R114). -/
theorem State.tileOf_fill {s : State} {cl n : Nat} {x : Tile} (h : s.tileOf cl n = some x) (id type rows : Nat) :
    ∃ y, (s.modTile cl n (fun t => t.fill id type rows)).tileOf cl n = some (Tile.fill y id type rows) := by
  obtain ⟨hcluster, hnumber, -⟩ := State.tileOf_live h
  have hmem : x.fill id type rows ∈ (s.modTile cl n (fun t => t.fill id type rows)).tiles :=
    List.mem_map.mpr ⟨x, List.mem_of_find?_eq_some h, by simp [hcluster, hnumber]⟩
  have hsome : ((s.modTile cl n (fun t => t.fill id type rows)).tileOf cl n).isSome = true :=
    List.find?_isSome.mpr ⟨_, hmem, by simp [Tile.fill, hcluster, hnumber]⟩
  obtain ⟨z, hz⟩ := Option.isSome_iff_exists.mp hsome
  obtain ⟨hzc, hzn, -⟩ := State.tileOf_live hz
  obtain ⟨y, -, rfl⟩ := List.mem_map.mp (List.mem_of_find?_eq_some hz)
  refine ⟨y, hz.trans (congrArg some (if_pos ?_))⟩
  by_contra hother
  rw [if_neg hother] at hzc hzn
  exact hother (by simp [hzc, hzn])

theorem State.tileOf_congr {s t : State} (h : t.tiles = s.tiles) (cl n : Nat) : t.tileOf cl n = s.tileOf cl n := by
  simp only [State.tileOf, h]

/-- A change of a workgroup apart from its threads leaves every thread. -/
theorem State.threadOf_modWg {s : State} {c w : Nat} {f : Workgroup → Workgroup} (hf : ∀ x, (f x).ctx = x.ctx ∧ (f x).wg = x.wg)
    (hthreads : ∀ x, (f x).threads = x.threads) (c' w' k : Nat) : (s.modWg c w f).threadOf c' w' k = s.threadOf c' w' k := by
  unfold State.threadOf
  rw [State.wgOf_modWg s c w c' w' f hf]
  cases s.wgOf c' w' with
  | none => rfl
  | some x =>
    rw [Option.map_some, Option.bind_some, Option.bind_some]
    split
    · simp only [Workgroup.thread, hthreads]
    · rfl

/-! MXMA (R222, R223). -/

section
variable {s : State} {g : Group} {c a b : Nat} (ha : a < 1024) (hb : b < 1024) (htype : (parseMatrix c).type < 5)
  (hgroups : (parseMatrix c).start + (parseMatrix c).groups ≤ Config.typeGroups (parseMatrix c).type)

include htype hgroups in
theorem matrixIllegal_passes : matrixIllegal (parseMatrix c) = false := by
  simp only [matrixIllegal, decide_eq_false (Nat.not_le.mpr htype), decide_eq_false (Nat.not_lt.mpr hgroups), Bool.or_self]

include ha hb htype hgroups

theorem matrixVerdict_badHandle (hname : s.nameHandle g.ctx g.wg (parseMatrix c).handle = .bad) :
    matrixVerdict s g c a b = .status stBadHandle none := by
  simp [matrixVerdict, tileFieldBad_of_lt ha, tileFieldBad_of_lt hb, matrixIllegal_passes htype hgroups, handleStep, hname]

theorem matrixVerdict_accepted {le : Lease} {m : Nat} {x y : Tile} (hstep : handleStep s g (parseMatrix c).handle 0 = .ok (le, m))
    (hrecorded : ((s.siteOf le.die (le.site m)).acc (parseMatrix c).acc).recorded = some (parseMatrix c).type)
    (hkeep : (parseMatrix c).keep = true → (s.siteOf le.die (le.site m)).lastA = some (a, (parseMatrix c).start, (parseMatrix c).groups))
    (hx : s.heldTile g.ctx (coreCluster g.core) a = some x) (hy : s.heldTile g.ctx (coreCluster g.core) b = some y) (hxready : x.state = .ready)
    (hyready : y.state = .ready) (hxtype : x.type = (parseMatrix c).type) (hytype : y.type = (parseMatrix c).type)
    (hroom : s.queueRoom le m = true) : matrixVerdict s g c a b = .accepted := by
  have hacc : accIllegal s le m (parseMatrix c) a = false := by
    simp only [accIllegal, hrecorded, bne_self_eq_false, Bool.false_or, Bool.and_eq_false_imp, bne_eq_false_iff_eq]
    exact hkeep
  simp [matrixVerdict, tileFieldBad_of_lt ha, tileFieldBad_of_lt hb, matrixIllegal_passes htype hgroups, hstep, hacc, hx, hy, State.tileWaitDone,
    State.tileOf_of_held hx, State.tileOf_of_held hy, hxready, hyready, hxtype, hytype, hroom]

end

section
variable {i : Instr} {s p : State} {g : Group} {k : Nat} {u : Thread} (hp : Stepped i s g k u p)
include hp

theorem Stepped.matrixVerdict (c a b : Nat) : Machine.matrixVerdict p g c a b = Machine.matrixVerdict s g c a b := by rw [hp.rest]; rfl
theorem Stepped.clearVerdict (c : Nat) : Machine.clearVerdict p g c = Machine.clearVerdict s g c := by rw [hp.rest]; rfl
theorem Stepped.readoutVerdict (c a : Nat) : Machine.readoutVerdict p g c a = Machine.readoutVerdict s g c a := by rw [hp.rest]; rfl

end

/-- The workgroup's %acs tells of a faulted tile (R115). -/
def Workgroup.noteFault (x : Workgroup) : Workgroup := { x with acs := x.acs ||| acsFaulted }

/-- An MXMA's entry is placed and its operand noted; where a tile has its fault flag, %acs changes besides (R115). -/
theorem placeMatrix_placed {s : State} {g : Group} {k c a b m : Nat} {le : Lease} {u : Thread} (hu : s.threadOf g.ctx g.wg k = some u)
    (hstep : handleStep s g (parseMatrix c).handle 0 = .ok (le, m)) (hroom : s.queueRoom le m = true) :
    ∃ q, placeMatrix s g k c a b = (q, stAccepted) ∧ Aside s q g k u (u.joinBatch s.nextId 1) ∧
      q.siteOf le.die (le.site m) = { (s.siteOf le.die (le.site m)).push (s.entryFor g k le m (.mxma (parseMatrix c) a b) none []) with
        lastA := some (a, (parseMatrix c).start, (parseMatrix c).groups) } ∧
      q.tiles = s.tilesFor (coreCluster g.core) (.mxma (parseMatrix c) a b) := by
  have hnoted : ∀ x : State, x.noteMatrix le m (parseMatrix c) a = { x with sites := (x.noteMatrix le m (parseMatrix c) a).sites } :=
    fun x => State.modSite_eq x _ _ _
  have hsite : ((s.enqueue g k le m (.mxma (parseMatrix c) a b) none []).noteMatrix le m (parseMatrix c) a).siteOf le.die (le.site m) = _ :=
    State.siteOf_modSite_same (f := fun x => { x with lastA := some (a, (parseMatrix c).start, (parseMatrix c).groups) }) (fun _ => ⟨rfl, rfl⟩)
  rw [State.siteOf_enqueue] at hsite
  have haside : Aside s ((s.enqueue g k le m (.mxma (parseMatrix c) a b) none []).noteMatrix le m (parseMatrix c) a) g k u (u.joinBatch s.nextId 1) := by
    rw [hnoted]
    exact (State.enqueue_aside hu le m (.mxma (parseMatrix c) a b) none []).trans_threads rfl rfl rfl (fun _ _ _ => rfl)
  have htiles : ((s.enqueue g k le m (.mxma (parseMatrix c) a b) none []).noteMatrix le m (parseMatrix c) a).tiles =
      s.tilesFor (coreCluster g.core) (.mxma (parseMatrix c) a b) := by
    rw [hnoted]
    exact State.enqueue_tiles ..
  by_cases hfault : s.tilesFaulted (coreCluster g.core) a b = true
  · refine ⟨((s.enqueue g k le m (.mxma (parseMatrix c) a b) none []).noteMatrix le m (parseMatrix c) a).modWg g.ctx g.wg Workgroup.noteFault, ?_,
      haside.trans_threads rfl rfl rfl (State.threadOf_modWg (fun _ => ⟨rfl, rfl⟩) (fun _ => rfl)), hsite, htiles⟩
    simp only [placeMatrix, hstep, hroom, hfault, Bool.not_true, Bool.false_eq_true, if_false, if_true]
    rfl
  · exact ⟨_, by simp only [placeMatrix, hstep, hroom, hfault, Bool.not_true, Bool.false_eq_true, if_false], haside, hsite, htiles⟩

/-- The two tiles that an MXMA reads have a reader more each (R114). -/
theorem tilesFor_mxma {s t : State} {cl a b : Nat} {w : MatrixWord} {x y : Tile} (ht : t.tiles = s.tilesFor cl (.mxma w a b))
    (hx : s.tileOf cl a = some x) (hy : s.tileOf cl b = some y) (hne : a ≠ b) :
    (t.tileOf cl a).map Tile.readers = some (x.readers + 1) ∧ (t.tileOf cl b).map Tile.readers = some (y.readers + 1) := by
  have htile : ∀ n, t.tileOf cl n = ((s.modTile cl a (fun t => t.pin 1)).modTile cl b (fun t => t.pin 1)).tileOf cl n :=
    fun n => State.tileOf_congr ht cl n
  have hfirst : (s.modTile cl a (fun t => t.pin 1)).tileOf cl a = some (x.pin 1) := State.tileOf_modTile hx (Tile.pin_keeps 1)
  have hother : (s.modTile cl a (fun t => t.pin 1)).tileOf cl b = some y := (State.tileOf_modTile_other hne.symm (Tile.pin_keeps 1)).trans hy
  rw [htile, htile, State.tileOf_modTile_other hne (Tile.pin_keeps 1), hfirst, State.tileOf_modTile hother (Tile.pin_keeps 1)]
  exact ⟨rfl, rfl⟩

section
variable {sw : Bool} {d a b : Reg} {s : State} {g : Group} {k : Nat} {u : Thread} {w : MatrixWord} {ta tb : Nat}
  (h : issuable (.mxma sw d a b) s g = true) (htids : g.tids = [k]) (hu : s.threadOf g.ctx g.wg k = some u)
  (hw : w = parseMatrix (u.readW d.toNat).toNat) (hta : ta = (u.readW a.toNat).toNat) (htb : tb = (u.readW b.toNat).toNat)
  (ha : ta < 1024) (hb : tb < 1024) (htype : w.type < 5) (hgroups : w.start + w.groups ≤ Config.typeGroups w.type)
include h htids hu hw hta htb ha hb htype hgroups

theorem mxma_badHandle (hname : s.nameHandle g.ctx g.wg w.handle = .bad) :
    Performs (.mxma sw d a b) s g (fun u v => Owes (.mxma sw d a b) (g.pc + 4) d.toNat [0xFFFFFFF3] u v) := by
  subst hw hta htb
  have hverdict := matrixVerdict_badHandle (s := s) (g := g) ha hb htype hgroups hname
  exact matrixOp_refused (v := fun s g t => matrixVerdict s g (t.readW (rn d)).toNat (t.readW (rn a)).toNat (t.readW (rn b)).toNat) h htids hu rfl
    hverdict (fun p hp => (hp.matrixVerdict ..).trans hverdict)

theorem mxma_accepted (le : Lease) (m : Nat) (x y : Tile) (hstep : handleStep s g w.handle 0 = .ok (le, m))
    (hrecorded : ((s.siteOf le.die (le.site m)).acc w.acc).recorded = some w.type)
    (hkeep : w.keep = true → (s.siteOf le.die (le.site m)).lastA = some (ta, w.start, w.groups))
    (hx : s.heldTile g.ctx (coreCluster g.core) ta = some x) (hy : s.heldTile g.ctx (coreCluster g.core) tb = some y) (hxready : x.state = .ready)
    (hyready : y.state = .ready) (hxtype : x.type = w.type) (hytype : y.type = w.type)
    (hshort : (s.siteOf le.die (le.site m)).queue.length < 32) :
    ∃ e, Answers (.mxma sw d a b) s g k d 0 (fun t _ => Enqueued s t g k le m (.mxma w ta tb) e ∧
      (t.siteOf le.die (le.site m)).lastA = some (ta, w.start, w.groups) ∧
      (ta ≠ tb → (t.tileOf (coreCluster g.core) ta).map Tile.readers = some (x.readers + 1) ∧
        (t.tileOf (coreCluster g.core) tb).map Tile.readers = some (y.readers + 1))) := by
  subst hw hta htb
  have hroom := State.queueRoom_of_short hshort
  have hverdict := matrixVerdict_accepted ha hb htype hgroups hstep hrecorded hkeep hx hy hxready hyready hxtype hytype hroom
  refine ⟨s.entryFor g k le m (.mxma (parseMatrix (u.readW d.toNat).toNat) (u.readW a.toNat).toNat (u.readW b.toNat).toNat) none [],
    matrixOp_answers (v := fun s g t => matrixVerdict s g (t.readW (rn d)).toNat (t.readW (rn a)).toNat (t.readW (rn b)).toNat)
      (place := fun s g t => placeMatrix s g t.tid (t.readW (rn d)).toNat (t.readW (rn a)).toNat (t.readW (rn b)).toNat) h htids hu rfl
      hverdict (fun p hp => ⟨(hp.matrixVerdict ..).trans hverdict, ?_⟩)⟩
  obtain ⟨q, hplace, haside, hsite, htiles⟩ := placeMatrix_placed (a := (u.readW a.toNat).toNat) (b := (u.readW b.toNat).toNat) hp.thread
    ((hp.handleStep ..).trans hstep) ((hp.queueRoom ..).trans hroom)
  rw [← State.threadOf_tid hu] at hplace
  refine ⟨q, _, hplace, haside, fun t _ ht => ⟨hp.enqueued hu ?_, ?_, fun hne => ?_⟩⟩
  · rw [State.siteOf_enqueue, State.siteOf_congr (s := q) (by rw [ht]), hsite]
  · rw [State.siteOf_congr (s := q) (by rw [ht]), hsite]
  · exact tilesFor_mxma (by rw [ht]; exact htiles) ((hp.tileOf _ _).trans (State.tileOf_of_held hx)) ((hp.tileOf _ _).trans (State.tileOf_of_held hy)) hne

end

/-! ACCZ (R221). -/

theorem Site.setAcc_acc (x : Site) (k : Nat) (a : Accumulator) : (x.setAcc k a).acc k = a := by
  unfold Site.setAcc Site.acc
  split <;> rfl

theorem Site.setAcc_queue (x : Site) (k : Nat) (a : Accumulator) : (x.setAcc k a).queue = x.queue := by
  unfold Site.setAcc
  split <;> rfl

theorem Site.setAcc_key (x : Site) (k : Nat) (a : Accumulator) : (x.setAcc k a).die = x.die ∧ (x.setAcc k a).index = x.index := by
  unfold Site.setAcc
  split <;> exact ⟨rfl, rfl⟩

/-- A site with a type recorded for an accumulator. -/
def Site.record (k type : Nat) (x : Site) : Site := x.setAcc k { x.acc k with recorded := some type }

section
variable {s : State} {g : Group} {c m : Nat} {le : Lease} (hlow : c % 2 ^ 12 = 0) (hroom : s.queueRoom le m = true)
  (hstep : handleStep s g (parseMatrix c).handle 0 = .ok (le, m))
include hlow hroom hstep

theorem clearVerdict_accepted (htype : (parseMatrix c).type < 5) : clearVerdict s g c = .accepted := by
  have hbits : bits c 11 0 = 0 := by simpa [bits] using hlow
  simp [clearVerdict, Nat.not_le.mpr htype, hbits, hstep, hroom]

theorem readoutVerdict_accepted {a : Nat} {x : Tile} (htype : (parseMatrix c).type = 0 ∨ (parseMatrix c).type = 2 ∨ (parseMatrix c).type = 4)
    (hrecorded : ((s.siteOf le.die (le.site m)).acc (parseMatrix c).acc).recorded.isSome = true)
    (hx : s.heldTile g.ctx (coreCluster g.core) (bits a 9 0) = some x) (hempty : x.state = .empty) : readoutVerdict s g c a = .accepted := by
  have hbits : bits c 11 0 = 0 := by simpa [bits] using hlow
  have hsome : ((s.siteOf le.die (le.site m)).acc (parseMatrix c).acc).recorded ≠ none := Option.isSome_iff_ne_none.mp hrecorded
  have hout : ¬(parseMatrix c).type = 0 → ¬(parseMatrix c).type = 2 → (parseMatrix c).type = 4 := by omega
  simpa [readoutVerdict, hbits, hstep, hsome, hx, State.tileOf_of_held hx, hempty, hroom] using hout

end

/-- An ACCZ's entry is placed and its type recorded. -/
theorem placeClear_placed {s : State} {g : Group} {k c m : Nat} {le : Lease} {u : Thread} (hu : s.threadOf g.ctx g.wg k = some u)
    (hstep : handleStep s g (parseMatrix c).handle 0 = .ok (le, m)) :
    ∃ q, placeClear s g k c = (q, stAccepted) ∧ Aside s q g k u (u.joinBatch s.nextId 1) ∧
      q.siteOf le.die (le.site m) = Site.record (parseMatrix c).acc (parseMatrix c).type
        ((s.siteOf le.die (le.site m)).push (s.entryFor g k le m (.accz (parseMatrix c).acc (parseMatrix c).type) none [])) := by
  refine ⟨(s.enqueue g k le m (.accz (parseMatrix c).acc (parseMatrix c).type) none []).modSite le.die (le.site m)
    (Site.record (parseMatrix c).acc (parseMatrix c).type), ?_, ?_, ?_⟩
  · simp only [placeClear, hstep]
    rfl
  · rw [State.modSite_eq]
    exact (State.enqueue_aside hu ..).trans_threads rfl rfl rfl (fun _ _ _ => rfl)
  · rw [State.siteOf_modSite_same (f := Site.record _ _) (fun x => x.setAcc_key ..), State.siteOf_enqueue]

/-- An ACCOUT's entry is placed, its tile filling (R114). -/
theorem placeReadout_placed {s : State} {g : Group} {k c a m : Nat} {le : Lease} {u : Thread} {x : Tile} (hu : s.threadOf g.ctx g.wg k = some u)
    (hstep : handleStep s g (parseMatrix c).handle 0 = .ok (le, m)) (hx : s.tileOf (coreCluster g.core) (bits a 9 0) = some x) :
    ∃ q, placeReadout s g k c a = (q, stAccepted) ∧ Aside s q g k u (u.joinBatch s.nextId 1) ∧
      q.siteOf le.die (le.site m) =
        (s.siteOf le.die (le.site m)).push (s.entryFor g k le m (.accout (parseMatrix c).acc (parseMatrix c).type (bits a 9 0)) none []) ∧
      ∃ y, q.tileOf (coreCluster g.core) (bits a 9 0) = some (Tile.fill y s.nextId (parseMatrix c).type 64) := by
  refine ⟨s.enqueue g k le m (.accout (parseMatrix c).acc (parseMatrix c).type (bits a 9 0)) none [], ?_, State.enqueue_aside hu ..,
    State.siteOf_enqueue .., ?_⟩
  · simp only [placeReadout, hstep]
  · obtain ⟨y, hy⟩ := State.tileOf_fill hx s.nextId (parseMatrix c).type 64
    exact ⟨y, (State.tileOf_congr (State.enqueue_tiles ..) _ _).trans hy⟩

section
variable {sw : Bool} {d a : Reg} {s : State} {g : Group} {k : Nat} {u : Thread} {w : MatrixWord} {le : Lease} {m : Nat}
  (htids : g.tids = [k]) (hu : s.threadOf g.ctx g.wg k = some u) (hw : w = parseMatrix (u.readW d.toNat).toNat)
  (hlow : (u.readW d.toNat).toNat % 2 ^ 12 = 0) (hstep : handleStep s g w.handle 0 = .ok (le, m))
  (hshort : (s.siteOf le.die (le.site m)).queue.length < 32)
include htids hu hw hlow hstep hshort

theorem accz_accepted (h : issuable (.accz sw d) s g = true) (htype : w.type < 5) :
    ∃ e, Answers (.accz sw d) s g k d 0 (fun t _ => Enqueued s t g k le m (.accz w.acc w.type) e ∧
      ((t.siteOf le.die (le.site m)).acc w.acc).recorded = some w.type) := by
  subst hw
  have hroom := State.queueRoom_of_short hshort
  have hverdict := clearVerdict_accepted hlow hroom hstep htype
  refine ⟨s.entryFor g k le m (.accz (parseMatrix (u.readW d.toNat).toNat).acc (parseMatrix (u.readW d.toNat).toNat).type) none [],
    matrixOp_answers (v := fun s g t => clearVerdict s g (t.readW (rn d)).toNat) (place := fun s g t => placeClear s g t.tid (t.readW (rn d)).toNat)
      h htids hu rfl hverdict (fun p hp => ⟨(hp.clearVerdict _).trans hverdict, ?_⟩)⟩
  obtain ⟨q, hplace, haside, hsite⟩ := placeClear_placed hp.thread ((hp.handleStep ..).trans hstep)
  rw [← State.threadOf_tid hu] at hplace
  refine ⟨q, _, hplace, haside, fun t _ ht => ⟨hp.enqueued hu ?_, ?_⟩⟩
  · rw [State.siteOf_enqueue, State.siteOf_congr (s := q) (by rw [ht]), hsite]
    exact Site.setAcc_queue ..
  · rw [State.siteOf_congr (s := q) (by rw [ht]), hsite, Site.record, Site.setAcc_acc]

theorem accout_accepted {n : Nat} {x : Tile} (h : issuable (.accout sw d a) s g = true) (htype : w.type = 0 ∨ w.type = 2 ∨ w.type = 4)
    (hrecorded : ((s.siteOf le.die (le.site m)).acc w.acc).recorded.isSome = true) (hn : n = (u.readW a.toNat).toNat % 2 ^ 10)
    (hx : s.heldTile g.ctx (coreCluster g.core) n = some x) (hempty : x.state = .empty) :
    ∃ e, Answers (.accout sw d a) s g k d 0 (fun t _ => Enqueued s t g k le m (.accout w.acc w.type n) e ∧
      (t.tileOf (coreCluster g.core) n).any (fun y => y.state == .filling && y.type == w.type && y.rows == 64) = true) := by
  have hbits : bits (u.readW a.toNat).toNat 9 0 = n := by rw [hn]; simp [bits]
  subst hw
  rw [← hbits] at hx ⊢
  have hroom := State.queueRoom_of_short hshort
  have hverdict := readoutVerdict_accepted hlow hroom hstep htype hrecorded hx hempty
  refine ⟨s.entryFor g k le m (.accout (parseMatrix (u.readW d.toNat).toNat).acc (parseMatrix (u.readW d.toNat).toNat).type
      (bits (u.readW a.toNat).toNat 9 0)) none [],
    matrixOp_answers (v := fun s g t => readoutVerdict s g (t.readW (rn d)).toNat (t.readW (rn a)).toNat)
      (place := fun s g t => placeReadout s g t.tid (t.readW (rn d)).toNat (t.readW (rn a)).toNat) h htids hu rfl hverdict
      (fun p hp => ⟨(hp.readoutVerdict ..).trans hverdict, ?_⟩)⟩
  obtain ⟨q, hplace, haside, hsite, y, hy⟩ := placeReadout_placed (a := (u.readW a.toNat).toNat) hp.thread ((hp.handleStep ..).trans hstep)
    ((hp.tileOf _ _).trans (State.tileOf_of_held hx))
  rw [← State.threadOf_tid hu] at hplace
  refine ⟨q, _, hplace, haside, fun t _ ht => ⟨hp.enqueued hu ?_, ?_⟩⟩
  · rw [State.siteOf_enqueue, State.siteOf_congr (s := q) (by rw [ht]), hsite]
  · rw [State.tileOf_congr (s := q) (by rw [ht]), hy]
    simp [Tile.fill]

end

/-- Settles O30: an accepted matrix command's effect is the new entry in its queue and, by instruction, its operand tiles, the site's noted operand
or its accumulator's type; a refused one owes a word alone. -/
theorem matrix : Obligations.Matrix := by
  unfold Obligations.Matrix
  refine ⟨fun sw d a b s g k u w ta tb h htids hu hw hta htb ha hb htype hgroups => ⟨mxma_badHandle h htids hu hw hta htb ha hb htype hgroups,
    mxma_accepted h htids hu hw hta htb ha hb htype hgroups⟩, ?_, ?_⟩
  · exact fun sw d s g k u w le m h htids hu hw htype hlow hstep hshort => accz_accepted htids hu hw hlow hstep hshort h htype
  · exact fun sw d a s g k u w le m n x h htids hu hw htype hlow hstep hrecorded hn hx hempty hshort =>
      accout_accepted htids hu hw hlow hstep hshort h htype hrecorded hn hx hempty

end Sys2Proof.Machine

end

section
/-! SUPPORT. Statement O32: the tile accesses (R230, R115, R228). -/

namespace Sys2Proof.Machine

/-! The issue of a lone member that a hold stops (R115): it is held, or without a limit the instruction times out (R228). -/

section
variable {i : Instr} {chk : State → Group → Thread → Option TrapInfo} {hold : State → Group → Thread → Option HoldKind}
  {eff : State → Group → Nat → State} {s : State} {g : Group} {k : Nat} {u : Thread} {x : HoldKind} (h : issuable i s g = true) (htids : g.tids = [k])
  (hu : s.threadOf g.ctx g.wg k = some u) (hchk : chk { s with group := none } g u = none) (hhold : hold { s with group := none } g u = some x)
include h htids hu hchk

theorem issueFault_passes : issueFault i chk { s with group := none } g = none := by
  rw [issueFault, earlyChecks_none h, members_lone htids hu, orElse]
  refine firstFail_none (fun v hv => ?_)
  obtain rfl := List.mem_singleton.mp hv
  simp [hchk]

theorem txFaults_passes : txFaults i chk { s with group := none } g u = false := by
  obtain ⟨v, hv, -, htx, -, -⟩ := issuable_member h (k := k) (by simp [htids])
  obtain rfl : u = v := Option.some.inj (hu.symm.trans hv)
  cases hactive : u.tx.active with
  | false => simp [txFaults, hactive]
  | true => simp [txFaults, hchk, htx hactive]

include hhold

theorem issueHeld_held (hlimit : timesOut hold { s with group := none } g u = false) :
    issueHeld i chk hold eff s = holdMember x (waitLimit s g) g { s with group := none } k := by
  simp only [issueHeld, issuable_group h, issueFault_passes h htids hu hchk, members_lone htids hu, txFaults_passes h htids hu hchk, hlimit,
    hhold, holdOne, List.filter_cons, List.filter_nil, List.map_nil, List.foldl_cons, List.foldl_nil, Bool.not_false, if_true, Bool.false_eq_true,
    if_false, performAll, Option.isNone_some, Bool.or_self, State.threadOf_tid hu]
  rfl

theorem issueHeld_expired (hlimit : timesOut hold { s with group := none } g u = true) :
    issueHeld i chk hold eff s = State.advance i g ((stepPc i g { s with group := none } k).modThread g.ctx g.wg k (Thread.timeoutAt i)) k := by
  simp only [issueHeld, issuable_group h, issueFault_passes h htids hu hchk, members_lone htids hu, txFaults_passes h htids hu hchk, hlimit,
    hhold, holdOne, List.filter_cons, List.filter_nil, List.map_nil, List.map_cons, List.foldl_cons, List.foldl_nil, Bool.not_false, if_true,
    Bool.false_eq_true, if_false, performAll, Bool.or_true, State.threadOf_tid hu, heldEffect, List.contains_cons, beq_self_eq_true, Bool.true_or]

end

/-- Whether a hold for a tile times out at once (R228). -/
theorem timesOut_tile {hold : State → Group → Thread → Option HoldKind} {s : State} {g : Group} {u : Thread} {ws : List (Nat × Bool)}
    (h : hold s g u = some (.tile ws)) : timesOut hold s g u = (waitLimit s g == 0) := by
  simp only [timesOut, h]
  rfl

theorem Thread.timeoutAt_tid (i : Instr) (u : Thread) : (u.timeoutAt i).tid = u.tid := by
  unfold Thread.timeoutAt
  split <;> rfl

/-- A member's thread as a hold at issue leaves it. -/
def Thread.hold (x : HoldKind) (pc limit : Nat) (u : Thread) : Thread :=
  { u with status := .held x, pc := pc, holdPc := some pc, deadline := if u.holdPc == some pc then u.deadline else limit }

/-! The operands (R230). -/

theorem rowOperand_row {w : Nat} (hw : w < 2 ^ 22) : bits w 21 16 = w / 2 ^ 16 := by
  simp only [bits]
  omega

section
variable {s : State} {g : Group} {w off n : Nat} {x : Tile} (hn : bits w 9 0 = n) (hx : s.heldTile g.ctx (coreCluster g.core) n = some x)
include hn hx

theorem rowCheck_passes (hw : w < 2 ^ 22) (hmid : w / 2 ^ 10 % 2 ^ 6 = 0) (hoff : off ≤ 575) (halign : off % 16 = 0) : rowCheck s g w off = none := by
  have hhigh : bits w 31 22 = 0 := by simp only [bits]; omega
  have hzero : bits w 15 10 = 0 := by simp only [bits]; omega
  simp [rowCheck, hhigh, hzero, halign, Nat.not_lt.mpr hoff, hn, hx]

theorem rowHold_ready (hready : x.state = .ready) : rowHold s g w = none := by
  simp [rowHold, State.tileWaitDone, hn, State.tileOf_of_held hx, hready]

theorem rowHold_waits (hready : x.state ≠ .ready) : rowHold s g w = some (.tile [(n, false)]) := by
  simp [rowHold, State.tileWaitDone, hn, State.tileOf_of_held hx, hready]

end

/-! LDT and STT of a lone member. -/

/-- What LDT and STT do, by the access that leaves. -/
def tileEffect (a : Reg) (f : State → Group → Thread → State) (s : State) (g : Group) (k : Nat) : State :=
  match s.threadOf g.ctx g.wg k with
  | none => s
  | some t => f (s.modTile (coreCluster g.core) (bits (t.readW (rn a)).toNat 9 0) (fun x => x.pin 1)) g t

section
variable {i : Instr} {a b : Reg} {f : State → Group → Thread → State} {s : State} {g : Group} {k n : Nat} {u : Thread} {x : Tile}
  (h : issuable i s g = true) (htids : g.tids = [k]) (hu : s.threadOf g.ctx g.wg k = some u) (hexec : exec i s = .next (tileAccess i a b f s))
  (hchk : rowCheck { s with group := none } g (u.readW a.toNat).toNat (u.readW b.toNat).toNat = none)
include h htids hu hexec hchk

/-- On a ready tile the access of 16 bytes leaves on the tile path, with a reader more on the tile. -/
theorem tileAccess_ready {op : AccOp} {d r : Nat} (hn : bits (u.readW a.toNat).toNat 9 0 = n)
    (hx : s.heldTile g.ctx (coreCluster g.core) n = some x) (hready : x.state = .ready) (htouch : op.touches = false)
    (hf : ∀ p, f p g (u.moved i g) = p.send g u.tid .tile op 0 16 0 d r none (groupId p g)) :
    ∃ t v, exec i s = .next t ∧ t.threadOf g.ctx g.wg k = some v ∧ t.mem = s.mem ∧ t.scratch = s.scratch ∧
      (t.tileOf (coreCluster g.core) n).map Tile.readers = some (x.readers + 1) ∧
      t.flight = s.flight ++ [sentAccess s g .tile op 0 16 0 (if r = 0 then none else some u.nextSlot) s.nextId u] ∧
      Went i (g.pc + i.bytes) (u.oweWords d r) u v := by
  have hstatus := issuable_ready h htids hu
  obtain ⟨p, hp, hstep⟩ := lone_effect h htids hu hchk (rowHold_ready (s := { s with group := none }) hn hx hready) hexec
  have heff : tileEffect a f p g k =
      (p.modTile (coreCluster g.core) n (fun x => x.pin 1)).send g k .tile op 0 16 0 d r none
        (groupId (p.modTile (coreCluster g.core) n (fun x => x.pin 1)) g) := by
    simp only [tileEffect, hp.thread]
    rw [← hn, ← State.threadOf_tid hu]
    exact hf _
  have hkept : Kept { s with group := none, tiles := (s.modTile (coreCluster g.core) n (fun x => x.pin 1)).tiles }
      (p.modTile (coreCluster g.core) n (fun x => x.pin 1)) g.ctx g.wg [k] := by
    rw [hp.modTile]
    exact hp.kept.withTiles _
  have hthread : (p.modTile (coreCluster g.core) n (fun x => x.pin 1)).threadOf g.ctx g.wg k = some (u.moved i g) := hp.thread
  obtain ⟨hsent, hgiven⟩ := send_underWay (op := op) (path := .tile) (addr := 0) (size := 16) (scope := 0) (d := d) (w := r) (tx := none)
    (UnderWay.of_kept (s := { s with tiles := (s.modTile (coreCluster g.core) n (fun x => x.pin 1)).tiles }) hkept) hthread (by simp [htouch])
  obtain ⟨hadvanced, hgone⟩ := advance_alone (i := i) hgiven
  refine ⟨_, _, hstep.trans (congrArg (fun q => Host.Outcome.next (State.advance i g q k)) heff), hgone, ?_, ?_, ?_, ?_, ?_⟩
  · rw [hadvanced.rest, hsent.rest, hkept.rest]
  · rw [hadvanced.rest, hsent.rest, hkept.rest]
  · rw [State.tileOf_congr (s := s.modTile (coreCluster g.core) n (fun x => x.pin 1)) (by rw [hadvanced.rest, hsent.rest, hkept.rest]),
      State.tileOf_modTile (State.tileOf_of_held hx) (Tile.pin_keeps 1)]
    rfl
  · rw [hadvanced.rest, hsent.rest, hkept.rest]
    rfl
  · exact went_onThread (f := fun u => u.oweWords d r) hstatus (by unfold Thread.oweWords; split <;> rfl)
      (by unfold Thread.oweWords; split <;> rfl) (by unfold Thread.oweWords; split <;> rfl)

/-- While its tile is not ready, the thread is held, to issue again (R115). -/
theorem tileAccess_held (hn : bits (u.readW a.toNat).toNat 9 0 = n)
    (hx : s.heldTile g.ctx (coreCluster g.core) n = some x) (hready : x.state ≠ .ready) (hlimit : 0 < waitLimit s g) :
    ∃ t v, exec i s = .next t ∧ t.threadOf g.ctx g.wg k = some v ∧ t.flight = s.flight ∧ t.tiles = s.tiles ∧ t.mem = s.mem ∧
      v.status = .held (.tile [(n, false)]) ∧ v.pc = g.pc ∧ v.regs = u.regs ∧ v.results = u.results := by
  have hhold := rowHold_waits (s := { s with group := none }) hn hx hready
  have hissue := issueHeld_held (chk := fun s g t => rowCheck s g (t.readW (rn a)).toNat (t.readW (rn b)).toNat)
    (hold := fun s g t => rowHold s g (t.readW (rn a)).toNat) (eff := tileEffect a f) h htids hu hchk hhold
    ((timesOut_tile hhold).trans (beq_eq_false_iff_ne.mpr hlimit.ne'))
  have hthread := State.threadOf_modThread_same { s with group := none } g.ctx g.wg k
    (Thread.hold (.tile [(n, false)]) g.pc (s.dieTime (coreDie g.core) + waitLimit s g)) (fun _ => rfl)
  rw [show State.threadOf { s with group := none } g.ctx g.wg k = some u from hu, Option.map_some] at hthread
  exact ⟨_, _, hexec.trans (congrArg _ hissue), hthread, rfl, rfl, rfl, rfl, rfl, rfl, rfl⟩

/-- Without a limit the tile is tested once (R228). -/
theorem tileAccess_expired {post : Thread → Thread → Prop} (hn : bits (u.readW a.toNat).toNat 9 0 = n)
    (hx : s.heldTile g.ctx (coreCluster g.core) n = some x) (hready : x.state ≠ .ready) (hlimit : waitLimit s g = 0)
    (hpost : u.status = .ready → post u ((Thread.timeoutAt i (u.moved i g)).goOn i)) : Performs i s g post := by
  have hhold := rowHold_waits (s := { s with group := none }) hn hx hready
  have hissue := issueHeld_expired (chk := fun s g t => rowCheck s g (t.readW (rn a)).toNat (t.readW (rn b)).toNat)
    (hold := fun s g t => rowHold s g (t.readW (rn a)).toNat) (eff := tileEffect a f) h htids hu hchk hhold
    ((timesOut_tile hhold).trans (beq_iff_eq.mpr hlimit))
  have hstepped := stepPc_thread (i := i) (s := { s with group := none }) hu
  have hthread := State.threadOf_modThread_same (stepPc i g { s with group := none } k) g.ctx g.wg k (Thread.timeoutAt i) (Thread.timeoutAt_tid i)
  rw [hstepped, Option.map_some] at hthread
  obtain ⟨hadvanced, hgone⟩ := advance_alone (i := i) hthread
  have hkept := ((stepPc_kept i g { s with group := none } k).trans (Kept.modThread _ g.ctx g.wg k (Thread.timeoutAt i) (Thread.timeoutAt_tid i) [k]
    (by simp))).trans hadvanced
  rw [← htids] at hkept
  refine ⟨_, hexec.trans (congrArg _ hissue), ⟨by rw [hkept.rest], hkept.others, hkept.shells, hkept.cores⟩, fun j hj => ?_⟩
  rw [htids, List.mem_singleton] at hj
  subst hj
  exact ⟨u, _, hu, hgone, hpost (issuable_ready h htids hu)⟩

end

/-- Settles O32: the tile's state decides between the access that leaves, the hold at issue, and the timeout of a hold without a limit. -/
theorem tileAccesses : Obligations.TileAccesses := by
  unfold Obligations.TileAccesses
  intro i sw d a b s g k u w n row off x hi h htids hu hw hlow hmid hn hrow hoff hmax halign hx
  subst hw hoff
  have htile : bits (u.readW a.toNat).toNat 9 0 = n := by rw [hn]; simp [bits]
  have hbits : bits (u.readW a.toNat).toNat 21 16 = row := (rowOperand_row hlow).trans hrow.symm
  have hchk := rowCheck_passes (s := { s with group := none }) htile hx hlow hmid hmax halign
  rcases hi with rfl | rfl
  · refine ⟨fun hready => ?_, fun hready hlimit => tileAccess_held h htids hu rfl hchk htile hx hready hlimit, fun hready hlimit =>
      ⟨fun _ => tileAccess_expired h htids hu rfl hchk htile hx hready hlimit (fun hstatus => owes_word hstatus), nofun⟩⟩
    obtain ⟨t, v, hexec, hv, hmem, hscratch, hreaders, hflight, hwent⟩ := tileAccess_ready
      (op := .tileLoad n row (u.readW b.toNat).toNat) (d := d.toNat) (r := 4) h htids hu rfl hchk htile hx hready rfl
      (fun p => by rw [← htile, ← hbits]; rfl)
    exact ⟨t, v, hexec, hv, hmem, hscratch, hreaders, fun _ => ⟨hflight, hwent⟩, nofun⟩
  · refine ⟨fun hready => ?_, fun hready hlimit => tileAccess_held h htids hu rfl hchk htile hx hready hlimit, fun hready hlimit =>
      ⟨nofun, fun _ => tileAccess_expired h htids hu rfl hchk htile hx hready hlimit
        (fun hstatus => went_onThread (f := Thread.timeoutAt (.stt sw d a b)) hstatus rfl rfl rfl)⟩⟩
    obtain ⟨t, v, hexec, hv, hmem, hscratch, hreaders, hflight, hwent⟩ := tileAccess_ready
      (op := .tileStore n row (u.readW b.toNat).toNat (u.readPair d.toNat + u.readPair (d.toNat + 2) * 2 ^ 64)) (d := 0) (r := 0)
      h htids hu rfl hchk htile hx hready rfl (fun p => by rw [← htile, ← hbits]; rfl)
    exact ⟨t, v, hexec, hv, hmem, hscratch, hreaders, nofun, fun _ => ⟨hflight, hwent⟩⟩

end Sys2Proof.Machine

end

section
/-! SUPPORT. Statement O27: leases (R194 to R200). -/

namespace Sys2Proof.Machine

/-! A booking that is taken where nothing has to be evicted or shed for it (R196, R202). -/

/-- A fold none of whose steps changes anything. -/
theorem foldl_unchanged {α β : Type} {F : α → β → α} {x : α} (is : List β) (h : ∀ i ∈ is, F x i = x) : is.foldl F x = x := by
  induction is with
  | nil => rfl
  | cons i is ih => rw [List.foldl_cons, h i (by simp), ih (fun j hj => h j (List.mem_cons_of_mem _ hj))]

theorem State.clearBooked_free {s : State} {b : Booking} (h : ∀ i ∈ b.sites, ∀ le ∈ s.leases, le.die = b.die → i ∉ le.sites) :
    s.clearBooked b = s := by
  refine foldl_unchanged b.sites (fun i hi => ?_)
  have hnone : s.leases.find? (fun l => l.die == b.die && l.sites.contains i) = none := List.find?_eq_none.mpr (fun le hle => by
    simpa using h i hi le hle)
  rw [hnone]

theorem State.shedUntil_holds {s : State} {ok : State → Bool} (h : ok s = true) (die : Nat) (keep : List Nat) (ls : List Lease) :
    s.shedUntil die keep ok ls = s := by
  have hsites : (rangeFrom 0 100).foldl (fun s i => if ok s || !(s.siteOf die i).lingers || keep.contains i then s else s.modSite die i Site.goDark) s = s :=
    foldl_unchanged _ (fun i _ => by simp [h])
  rw [State.shedUntil, hsites]
  exact foldl_unchanged ls (fun l _ => if_pos h)

/-- Leases, requests, and what goes with them have changed. -/
def LeasesOnly (p q : State) : Prop :=
  q = { p with
    sites := q.sites, leases := q.leases, requests := q.requests, evicted := q.evicted, serials := q.serials, launches := q.launches, nextId := q.nextId }

section
variable {i : Instr} {s : State} {g : Group} {k : Nat} {u : Thread} {d : Reg} (h : issuable i s g = true) (htids : g.tids = [k])
  (hu : s.threadOf g.ctx g.wg k = some u)
include h htids hu

/-- An instruction of R203's kind whose effect is on leases and requests answers by what it leaves of these. -/
theorem statusOp_leases {chk : State → Group → Thread → Option TrapInfo} {f : State → Group → Thread → State × Word} {r : Word}
    {post : State → Prop} (hchk : chk { s with group := none } g u = none) (hexec : exec i s = .next (statusOp i chk d f s))
    (heff : ∀ p, Stepped i s g k u p → ∃ q, f p g (u.moved i g) = (q, r) ∧ LeasesOnly p q ∧
      ∀ t : State, t.leases = q.leases → t.requests = q.requests → t.evicted = q.evicted → post t) :
    Answers i s g k d r (fun t _ => post t) := by
  refine statusOp_answers_of h htids hu hchk hexec (fun p hp => ?_)
  obtain ⟨q, hf, hq, hpost⟩ := heff p hp
  refine ⟨q, _, hf, .of_wgs hp.thread (by rw [hq]) (by rw [hq]) (by rw [hq]) (by rw [hq]), fun t _ ht _ _ _ => hpost t ?_ ?_ ?_⟩
  all_goals rw [ht]

end

theorem State.takeBooking_free {s : State} {ctx wg priority : Nat} {keepState : Bool} {b : Booking}
    (hfree : ∀ i ∈ b.sites, ∀ le ∈ s.leases, le.die = b.die → i ∉ le.sites)
    (hfits : State.fitsAwake b.die (withLaunch s ctx 0 (fun l => l.img.opclass)) b.sites s = true) :
    ∃ q, s.takeBooking ctx wg priority keepState b = (q, (s.leaseFor b.die b.cls ctx wg priority true keepState b.sites none).handle) ∧
      LeasesOnly s q ∧ q.leases = s.leases ++ [s.leaseFor b.die b.cls ctx wg priority true keepState b.sites none] := by
  obtain ⟨x, y, hgrant⟩ := s.grantOn_eq b.die b.cls ctx wg priority true keepState b.sites none
  simp only [State.takeBooking, State.clearBooked_free hfree, State.shedUntil_holds hfits, hgrant]
  exact ⟨_, rfl, rfl, rfl⟩

/-! An unreserved request (R195, R197). -/

section
variable {s : State} {die cls count ctx wg priority : Nat} {keepState supervisor : Bool}

theorem State.requestLease_quiescing (h : s.takesWork die supervisor = false) :
    s.requestLease die cls count ctx wg priority keepState supervisor = (s, stDenied) := by
  simp only [State.requestLease, h]
  split <;> rfl

theorem State.dieQueue_empty (h : s.dieQueue die = []) : s.requests.filter (fun r => r.die == die) = [] :=
  List.nil_perm.mp (h ▸ sortBy_perm _ _)

/-- A request that joins an empty queue heads it. -/
theorem State.dieQueue_joined {t : State} {r : Request} (h : s.dieQueue die = []) (ht : t.requests = s.requests ++ [r]) (hr : r.die = die) :
    t.dieQueue die = [r] := by
  simp only [State.dieQueue, ht, List.filter_append, State.dieQueue_empty h, hr, List.filter_cons, beq_self_eq_true]
  rfl

theorem State.requestLease_granted {sites : List Nat} (hmany : count ≤ (s.classSites die cls).length) (htakes : s.takesWork die supervisor = true)
    (hqueue : s.dieQueue die = [])
    (hfit : s.fitGrant die cls count ctx wg (withLaunch s ctx 0 (fun l => l.img.opclass)) keepState = some (sites, [])) :
    ∃ q, s.requestLease die cls count ctx wg priority keepState supervisor =
        (q, BitVec.ofNat 32 (s.leaseFor die cls ctx wg priority false keepState sites none).handle) ∧
      LeasesOnly s q ∧ q.leases = s.leases ++ [s.leaseFor die cls ctx wg priority false keepState sites none] := by
  obtain ⟨x, y, hgrant⟩ := s.grantOn_eq die cls ctx wg priority false keepState sites none
  simp only [State.requestLease, Nat.not_lt.mpr hmany, htakes, hfit, if_false, Bool.not_true, Bool.false_eq_true, Option.isSome_some, and_true,
    List.foldl_nil, hgrant]
  rw [if_pos ?_]
  · exact ⟨_, rfl, rfl, rfl⟩
  · rw [State.dieQueue_joined hqueue rfl rfl]
    rfl

end

/-! LEASE (R195, R196). -/

/-- The booking that a LEASE takes. -/
def State.bookingFor (s : State) (g : Group) (x y : Nat) : Option Booking :=
  withLaunch s g.ctx none (fun l => l.matchBooking (((s.wgOf g.ctx g.wg).map (fun w => w.slot)).getD 0) (bits x 2 0) (bits x 4 3 + 1)
    (fun b => bitOf y 2 && s.bookingLingers g.ctx g.wg b))

section
variable {s : State} {g : Group} {x y : Nat}

theorem leaseOp_booked {b : Booking} (h : s.bookingFor g x y = some b) : leaseOp s g x y =
    ((s.takeBooking g.ctx g.wg (bits y 1 0) (bitOf y 2) b).1, BitVec.ofNat 32 (s.takeBooking g.ctx g.wg (bits y 1 0) (bitOf y 2) b).2) := by
  simp only [State.bookingFor] at h
  simp only [leaseOp, h]

theorem leaseOp_eight (h : s.bookingFor g x y = none) (hmany : 8 ≤ (s.leases.filter (fun l => l.ctx == g.ctx && l.wg == g.wg)).length) :
    leaseOp s g x y = (s, stDenied) := by
  simp only [State.bookingFor] at h
  simp only [leaseOp, h, hmany, if_true]

theorem leaseOp_requests (h : s.bookingFor g x y = none) (hfew : (s.leases.filter (fun l => l.ctx == g.ctx && l.wg == g.wg)).length < 8)
    (hown : bits y 5 4 = 0) : leaseOp s g x y =
      s.requestLease (coreDie g.core) (bits x 2 0) (bits x 4 3 + 1) g.ctx g.wg (bits y 1 0) (bitOf y 2) (s.privileged g) := by
  simp only [State.bookingFor] at h
  simp [leaseOp, h, Nat.not_le.mpr hfew, leaseDie, hown]

theorem leaseCheck_passes (hx : x < 32) (hcls : x % 8 < 5) (hy : y < 8) : leaseCheck x y = none := by
  have hhigh : bits x 31 5 = 0 ∧ bits x 2 0 = x % 8 := by simp only [bits]; omega
  have hlow : bits y 31 11 = 0 ∧ bits y 7 6 = 0 ∧ bits y 3 3 = 0 ∧ bits y 5 4 = 0 := by simp only [bits]; omega
  simp [leaseCheck, illegalIf, hhigh, hlow, Nat.not_le.mpr hcls]

end

section
variable {i : Instr} {s p : State} {g : Group} {k : Nat} {u : Thread} (hp : Stepped i s g k u p)
include hp

theorem Stepped.bookingFor (x y : Nat) : p.bookingFor g x y = s.bookingFor g x y := by
  have hslot : (p.wgOf g.ctx g.wg).map (fun w => w.slot) = (s.wgOf g.ctx g.wg).map (fun w => w.slot) := by
    have hshell := congrArg (Option.map (fun w : Workgroup => w.slot)) (hp.kept.shells g.ctx g.wg)
    rw [Option.map_map, Option.map_map] at hshell
    exact hshell
  simp only [State.bookingFor, hslot]
  rw [hp.rest]
  rfl

theorem Stepped.leaseFor (die cls priority : Nat) (reserved keepState : Bool) (sites : List Nat) :
    p.leaseFor die cls g.ctx g.wg priority reserved keepState sites none = s.leaseFor die cls g.ctx g.wg priority reserved keepState sites none := by
  rw [hp.rest]; rfl

theorem Stepped.nameTicket (x : Nat) : p.nameTicket g.ctx g.wg x = s.nameTicket g.ctx g.wg x := by rw [hp.rest]; rfl
theorem Stepped.nameWord (x : Nat) : p.nameWord g.ctx g.wg x = s.nameWord g.ctx g.wg x := by rw [hp.rest]; rfl

end

/-- What LEASE's operand words ask for, and what stands at issue. -/
theorem bookingFor_eq {s : State} {g : Group} {l : Launch} {w : Workgroup} {x y : Nat} (hl : s.launch g.ctx = some l)
    (hw : s.wgOf g.ctx g.wg = some w) (hx : x < 32) : s.bookingFor g x y =
      l.matchBooking w.slot (x % 8) (x / 8 + 1) (fun b => bitOf y 2 && s.bookingLingers g.ctx g.wg b) := by
  have hcls : bits x 2 0 = x % 8 := by simp only [bits]; omega
  have hcount : bits x 4 3 = x / 8 := by simp only [bits]; omega
  simp only [State.bookingFor, withLaunch_some hl, hw, Option.map_some, Option.getD_some, hcls, hcount]

section
variable {sw : Bool} {d a b : Reg} {s : State} {g : Group} {l : Launch} {w : Workgroup} {k : Nat} {u : Thread} {x y : Nat}
  (hl : s.launch g.ctx = some l) (h : issuable (.lease sw d a b) s g = true) (htids : g.tids = [k])
  (hu : s.threadOf g.ctx g.wg k = some u) (ha : x = (u.readW a.toNat).toNat) (hb : y = (u.readW b.toNat).toNat) (hx : x < 32) (hcls : x % 8 < 5)
  (hy : y < 8)
include h htids hu ha hb hx hcls hy

/-- A LEASE that is DENIED. -/
theorem lease_denied (hdenied : ∀ p, Stepped (.lease sw d a b) s g k u p → leaseOp p g x y = (p, stDenied)) :
    Performs (.lease sw d a b) s g (fun u v => Owes (.lease sw d a b) (g.pc + 4) d.toNat [0xFFFFFFF6] u v) := by
  have hchk := leaseCheck_passes hx hcls hy
  subst ha hb
  exact statusOp_owes (f := fun s g t => leaseOp s g (t.readW (rn a)).toNat (t.readW (rn b)).toNat) h htids hu
    (chk := fun _ _ t => leaseCheck (t.readW (rn a)).toNat (t.readW (rn b)).toNat) hchk hdenied rfl

/-- A LEASE that is granted. -/
theorem lease_granted {le : Lease} (hgranted : ∀ p, Stepped (.lease sw d a b) s g k u p →
      ∃ q, leaseOp p g x y = (q, BitVec.ofNat 32 le.handle) ∧ LeasesOnly p q ∧ q.leases = p.leases ++ [le]) :
    Answers (.lease sw d a b) s g k d (BitVec.ofNat 32 le.handle) (fun t _ => t.leases = s.leases ++ [le]) := by
  have hchk := leaseCheck_passes hx hcls hy
  subst ha hb
  refine statusOp_leases (f := fun s g t => leaseOp s g (t.readW (rn a)).toNat (t.readW (rn b)).toNat)
    (chk := fun _ _ t => leaseCheck (t.readW (rn a)).toNat (t.readW (rn b)).toNat) h htids hu hchk rfl (fun p hp => ?_)
  obtain ⟨q, hop, honly, hleases⟩ := hgranted p hp
  exact ⟨q, hop, honly, fun t ht _ _ => by rw [ht, hleases, hp.leases]⟩

include hl

/-- A booking is taken (R196). -/
theorem lease_booked {bk : Booking} (hbooking : s.bookingFor g x y = some bk) (hfits : State.fitsAwake bk.die l.img.opclass bk.sites s = true)
    (hfree : ∀ i ∈ bk.sites, ∀ le ∈ s.leases, le.die = bk.die → i ∉ le.sites) :
    ∃ le : Lease, le.sites = bk.sites ∧ le.die = bk.die ∧ le.cls = bk.cls ∧ le.reserved = true ∧ le.ctx = g.ctx ∧ le.wg = g.wg ∧
      Answers (.lease sw d a b) s g k d (BitVec.ofNat 32 le.handle) (fun t _ => t.leases = s.leases ++ [le]) := by
  refine ⟨s.leaseFor bk.die bk.cls g.ctx g.wg (bits y 1 0) true (bitOf y 2) bk.sites none, rfl, rfl, rfl, rfl, rfl, rfl,
    lease_granted h htids hu ha hb hx hcls hy (fun p hp => ?_)⟩
  have hfits' : State.fitsAwake bk.die (withLaunch p g.ctx 0 (fun l => l.img.opclass)) bk.sites p = true := by
    rw [withLaunch_some ((hp.launch _).trans hl), ← hfits, hp.rest]
    rfl
  obtain ⟨q, htake, honly, hleases⟩ := State.takeBooking_free (s := p) (ctx := g.ctx) (wg := g.wg) (priority := bits y 1 0) (keepState := bitOf y 2)
    (b := bk) (by rw [hp.leases]; exact hfree) hfits'
  rw [hp.leaseFor] at htake hleases
  exact ⟨q, by rw [leaseOp_booked ((hp.bookingFor x y).trans hbooking), htake], honly, hleases⟩

section
variable (hbooking : s.bookingFor g x y = none)
include hbooking

omit hl in
/-- The workgroup has eight leases (R195). -/
theorem lease_eighth (hmany : 8 ≤ (s.leases.filter (fun le => le.ctx == g.ctx && le.wg == g.wg)).length) :
    Performs (.lease sw d a b) s g (fun u v => Owes (.lease sw d a b) (g.pc + 4) d.toNat [0xFFFFFFF6] u v) :=
  lease_denied h htids hu ha hb hx hcls hy (fun p hp => leaseOp_eight ((hp.bookingFor x y).trans hbooking) (by rw [hp.leases]; exact hmany))

variable (hfew : (s.leases.filter (fun le => le.ctx == g.ctx && le.wg == g.wg)).length < 8)
include hfew

/-- The die is quiescing (R351). -/
theorem lease_quiescing (huser : l.supervisor = false) (hquiet : (s.die (coreDie g.core)).pqc.toNat % 2 = 1) :
    Performs (.lease sw d a b) s g (fun u v => Owes (.lease sw d a b) (g.pc + 4) d.toNat [0xFFFFFFF6] u v) := by
  refine lease_denied h htids hu ha hb hx hcls hy (fun p hp => ?_)
  have hown : bits y 5 4 = 0 := by simp only [bits]; omega
  have hprivileged : p.privileged g = false := by rw [State.privileged, hp.launch, hl]; exact huser
  have hdie : p.die (coreDie g.core) = s.die (coreDie g.core) := by rw [hp.rest]; rfl
  rw [leaseOp_requests ((hp.bookingFor x y).trans hbooking) (by rw [hp.leases]; exact hfew) hown,
    State.requestLease_quiescing (by simp [State.takesWork, hprivileged, hdie, hquiet])]

/-- The own die grants at once (R195, R197). -/
theorem lease_at_once {sites : List Nat} (hopen : (s.die (coreDie g.core)).pqc.toNat % 2 = 0) (hqueue : s.dieQueue (coreDie g.core) = [])
    (hmany : x / 8 + 1 ≤ (s.classSites (coreDie g.core) (x % 8)).length)
    (hfit : s.fitGrant (coreDie g.core) (x % 8) (x / 8 + 1) g.ctx g.wg l.img.opclass (bitOf y 2) = some (sites, [])) :
    ∃ le : Lease, le.sites = sites ∧ le.die = coreDie g.core ∧ le.cls = x % 8 ∧ le.reserved = false ∧ le.ctx = g.ctx ∧ le.wg = g.wg ∧
      Answers (.lease sw d a b) s g k d (BitVec.ofNat 32 le.handle) (fun t _ => t.leases = s.leases ++ [le]) := by
  refine ⟨s.leaseFor (coreDie g.core) (x % 8) g.ctx g.wg (bits y 1 0) false (bitOf y 2) sites none, rfl, rfl, rfl, rfl, rfl, rfl,
    lease_granted h htids hu ha hb hx hcls hy (fun p hp => ?_)⟩
  have hclass : bits x 2 0 = x % 8 := by simp only [bits]; omega
  have hcount : bits x 4 3 = x / 8 := by simp only [bits]; omega
  have hown : bits y 5 4 = 0 := by simp only [bits]; omega
  have hdie : p.die (coreDie g.core) = s.die (coreDie g.core) := by rw [hp.rest]; rfl
  have hsites : p.classSites (coreDie g.core) (x % 8) = s.classSites (coreDie g.core) (x % 8) := by rw [hp.rest]; rfl
  have hgrants : p.fitGrant (coreDie g.core) (x % 8) (x / 8 + 1) g.ctx g.wg (withLaunch p g.ctx 0 (fun l => l.img.opclass)) (bitOf y 2) =
      some (sites, []) := by
    rw [withLaunch_some ((hp.launch _).trans hl), ← hfit, hp.rest]
    rfl
  obtain ⟨q, hrequest, honly, hleases⟩ := State.requestLease_granted (s := p) (priority := bits y 1 0) (supervisor := p.privileged g)
    (hsites ▸ hmany) (by simp [State.takesWork, hdie, hopen]) ((by rw [hp.rest]; rfl : p.dieQueue _ = _).trans hqueue) hgrants
  rw [hp.leaseFor] at hrequest hleases
  exact ⟨q, by rw [leaseOp_requests ((hp.bookingFor x y).trans hbooking) (by rw [hp.leases]; exact hfew) hown, hclass, hcount, hrequest], honly, hleases⟩

end

end

/-! LREL (R200). -/

/-- A released lease is gone; its sites settle, and its booking returns. -/
theorem State.releaseLease_eq (s : State) (l : Lease) : LeasesOnly s (s.releaseLease l) ∧
    (s.releaseLease l).leases = s.leases.filter (fun x => x.handle != l.handle || x.ctx != l.ctx || x.wg != l.wg) := by
  simp only [State.releaseLease]
  rw [sites_foldl _ (fun s i => by rw [State.settleSite, State.modSite_eq, State.modSite_eq])]
  exact ⟨rfl, rfl⟩

section
variable {s : State} {g : Group} {x : Nat}

theorem releaseOp_ticket {r : Request} (h : s.nameTicket g.ctx g.wg x = some r) :
    releaseOp s g x = ({ s with requests := s.requests.filter (fun y => y != r) }, 0) := by
  simp only [releaseOp, h]

variable (h : s.nameTicket g.ctx g.wg x = none)
include h

theorem releaseOp_member {le : Lease} {m : Nat} (hname : s.nameWord g.ctx g.wg x = .member le m) : releaseOp s g x = (s.releaseLease le, 0) := by
  simp only [releaseOp, h, hname]

theorem releaseOp_evicted {le : Lease} (hname : s.nameWord g.ctx g.wg x = .evicted le) : releaseOp s g x = (s.reported le, 0) := by
  simp only [releaseOp, h, hname]

theorem releaseOp_bad (hname : s.nameWord g.ctx g.wg x = .bad) : releaseOp s g x = (s, stBadHandle) := by
  simp only [releaseOp, h, hname]

end

section
variable {sw : Bool} {d a : Reg} {s : State} {g : Group} {k : Nat} {u : Thread} {x : Nat} (h : issuable (.lrel sw d a) s g = true)
  (htids : g.tids = [k]) (hu : s.threadOf g.ctx g.wg k = some u) (ha : x = (u.readW a.toNat).toNat)
include h htids hu ha

/-- LREL of what it names. -/
theorem lrel_releases {post : State → Prop} (heff : ∀ p, Stepped (.lrel sw d a) s g k u p → ∃ q, releaseOp p g x = (q, 0) ∧ LeasesOnly p q ∧
      ∀ t : State, t.leases = q.leases → t.requests = q.requests → t.evicted = q.evicted → post t) :
    Answers (.lrel sw d a) s g k d 0 (fun t _ => post t) := by
  subst ha
  exact statusOp_leases (f := fun s g t => releaseOp s g (t.readW (rn a)).toNat) h htids hu (chk := noCheck) rfl rfl heff

theorem lrel_ticket {r : Request} (hticket : s.nameTicket g.ctx g.wg x = some r) :
    Answers (.lrel sw d a) s g k d 0 (fun t _ => t.requests = s.requests.filter (fun y => y != r) ∧ t.leases = s.leases) :=
  lrel_releases (post := fun t => t.requests = s.requests.filter (fun y => y != r) ∧ t.leases = s.leases) h htids hu ha (fun p hp =>
    ⟨_, releaseOp_ticket ((hp.nameTicket x).trans hticket), rfl, fun t hleases hrequests _ => by
      rw [hleases, hrequests, hp.leases, hp.requests]; exact ⟨rfl, rfl⟩⟩)

variable (hticket : s.nameTicket g.ctx g.wg x = none)
include hticket

theorem lrel_member {le : Lease} {m : Nat} (hname : s.nameWord g.ctx g.wg x = .member le m) : Answers (.lrel sw d a) s g k d 0 (fun t _ =>
    t.leases = s.leases.filter (fun y => y.handle != le.handle || y.ctx != le.ctx || y.wg != le.wg)) :=
  lrel_releases (post := fun t => t.leases = s.leases.filter (fun y => y.handle != le.handle || y.ctx != le.ctx || y.wg != le.wg)) h htids hu ha
    (fun p hp => ⟨_, releaseOp_member ((hp.nameTicket x).trans hticket) ((hp.nameWord x).trans hname), (p.releaseLease_eq le).1,
      fun t hleases _ _ => by rw [hleases, (p.releaseLease_eq le).2, hp.leases]⟩)

theorem lrel_evicted {le : Lease} (hname : s.nameWord g.ctx g.wg x = .evicted le) :
    Answers (.lrel sw d a) s g k d 0 (fun t _ => t.evicted = s.evicted.filter (fun y => y != le)) :=
  lrel_releases (post := fun t => t.evicted = s.evicted.filter (fun y => y != le)) h htids hu ha
    (fun p hp => ⟨_, releaseOp_evicted ((hp.nameTicket x).trans hticket) ((hp.nameWord x).trans hname), rfl,
      fun t _ _ hevicted => by rw [hevicted, State.reported, hp.evicted]⟩)

theorem lrel_bad (hname : s.nameWord g.ctx g.wg x = .bad) :
    Performs (.lrel sw d a) s g (fun u v => Owes (.lrel sw d a) (g.pc + 4) d.toNat [0xFFFFFFF3] u v) := by
  subst ha
  exact statusOp_owes (f := fun s g t => releaseOp s g (t.readW (rn a)).toNat) h htids hu (chk := noCheck) rfl
    (fun p hp => releaseOp_bad ((hp.nameTicket _).trans hticket) ((hp.nameWord _).trans hname)) rfl

end

/-! LSTAT (R199). -/

/-- The word of a lease's member (R199). -/
def leaseMemberWord (site die : Nat) (reserved kept awake : Bool) : Word :=
  BitVec.ofNat 32 (site * 2 ^ 25 + die * 2 ^ 22 + (if kept then 2 ^ 17 else 0) + (if reserved then 2 ^ 16 else 0) + (if awake then 3 else 2))

/-- Its fields do not overlap. -/
theorem leaseMemberWord_fields {site die : Nat} (hdie : die < 8) (hsite : site < 100) (reserved kept awake : Bool) :
    (leaseMemberWord site die reserved kept awake).toNat / 2 ^ 25 = site ∧ (leaseMemberWord site die reserved kept awake).toNat / 2 ^ 22 % 8 = die ∧
      (leaseMemberWord site die reserved kept awake).getLsbD 16 = reserved ∧ (leaseMemberWord site die reserved kept awake).getLsbD 17 = kept ∧
      (leaseMemberWord site die reserved kept awake).toNat % 8 = if awake then 3 else 2 := by
  have hnat : (leaseMemberWord site die reserved kept awake).toNat =
      site * 2 ^ 25 + die * 2 ^ 22 + (if kept then 2 ^ 17 else 0) + (if reserved then 2 ^ 16 else 0) + (if awake then 3 else 2) := by
    rw [leaseMemberWord, BitVec.toNat_ofNat]
    exact Nat.mod_eq_of_lt (by split <;> split <;> split <;> omega)
  simp only [BitVec.getLsbD, Nat.testBit_eq_decide_div_mod_eq, hnat]
  cases reserved <;> cases kept <;> cases awake <;> simp <;> omega

theorem leaseWord_of_member {s : State} {g : Group} {x m : Nat} {le : Lease} (hticket : s.nameTicket g.ctx g.wg x = none)
    (hname : s.nameWord g.ctx g.wg x = .member le m) :
    leaseWord s g x = leaseMemberWord (le.site m) le.die le.reserved le.kept ((s.siteOf le.die (le.site m)).power == .awake) := by
  simp only [leaseWord, hticket, hname]
  rfl

/-- The word of a lease's member, taken apart. -/
theorem leaseWord_member {s : State} {g : Group} {x m : Nat} {le : Lease} (hticket : s.nameTicket g.ctx g.wg x = none)
    (hname : s.nameWord g.ctx g.wg x = .member le m) (hdie : le.die < 8) (hsite : le.site m < 100) :
    (leaseWord s g x).toNat / 2 ^ 25 = le.site m ∧ (leaseWord s g x).toNat / 2 ^ 22 % 8 = le.die ∧
      (leaseWord s g x).getLsbD 16 = le.reserved ∧ (leaseWord s g x).getLsbD 17 = le.kept ∧
      ((leaseWord s g x).toNat % 8 = 3 ↔ (s.siteOf le.die (le.site m)).power = .awake) ∧
      ((leaseWord s g x).toNat % 8 = 2 ↔ (s.siteOf le.die (le.site m)).power ≠ .awake) := by
  rw [leaseWord_of_member hticket hname]
  obtain ⟨hhigh, hnext, hreserved, hkept, hlow⟩ :=
    leaseMemberWord_fields hdie hsite le.reserved le.kept ((s.siteOf le.die (le.site m)).power == .awake)
  refine ⟨hhigh, hnext, hreserved, hkept, ?_⟩
  rw [hlow]
  by_cases hawake : (s.siteOf le.die (le.site m)).power = .awake
  · simp [hawake]
  · simp [hawake]

theorem leaseWord_ticket {s : State} {g : Group} {x : Nat} {r : Request} (h : s.nameTicket g.ctx g.wg x = some r) :
    (leaseWord s g x).toNat = min (s.ahead r) 0x1FFF * 2 ^ 3 + 1 := by
  simp only [leaseWord, h, BitVec.toNat_ofNat]
  have hmin : Nat.min (s.ahead r) 0x1FFF ≤ 0x1FFF := Nat.min_le_right ..
  exact Nat.mod_eq_of_lt (by omega)

theorem lstat_owes {sw : Bool} {d a : Reg} {s : State} {g : Group} (h : issuable (.lstat sw d a) s g = true) :
    Performs (.lstat sw d a) s g (fun u v => Owes (.lstat sw d a) (g.pc + 4) d.toNat [leaseWord s g (u.readW a.toNat).toNat] u v) := by
  have hissue := issue_owes (i := .lstat sw d a) (d := d.toNat) (eff := fun s g tid => match s.threadOf g.ctx g.wg tid with
      | none => s
      | some t => giveWord g tid (rn d) (leaseWord s g (t.readW (rn a)).toNat) s)
    (val := fun s u => leaseWord s g (u.readW a.toNat).toNat) h (fun t k => by cases t.threadOf g.ctx g.wg k <;> rfl)
    (fun t k u _ ht _ => by rw [ht.rest]; rfl) (fun _ _ => rfl)
  exact ⟨_, rfl, hissue⟩

theorem lwait_sleeps {sw : Bool} {d a : Reg} {s : State} {g : Group} (h : issuable (.lwait sw d a) s g = true) :
    Performs (.lwait sw d a) s g (fun u v =>
      Sleeps (.lwait sw d a) (.lwait (u.readW a.toNat).toNat) (waitLimit s g) (s.dieTime (coreDie g.core)) (g.pc + 4) (some d.toNat) u v) :=
  issue_sleeps (chk := noCheck) (w := fun u => .lwait (u.readW a.toNat).toNat) h (fun _ _ _ _ => rfl) (fun _ _ => rfl) rfl

/-- Settles O27: each instruction by the effect that its word and its names give it. -/
theorem leases : Obligations.Leases := by
  unfold Obligations.Leases
  refine ⟨fun sw d a b s g l w k u x y hl hw h htids hu ha hb hx hcls hy => ?_, fun sw d a s g k u x h htids hu ha => ?_, fun sw d a s g h => ?_,
    fun sw d a s g h => lwait_sleeps h⟩
  · rw [← bookingFor_eq hl hw hx]
    exact ⟨fun bk hbooking hfits hfree => lease_booked hl h htids hu ha hb hx hcls hy hbooking hfits hfree,
      fun hbooking => ⟨lease_eighth h htids hu ha hb hx hcls hy hbooking, fun hfew => ⟨lease_quiescing hl h htids hu ha hb hx hcls hy hbooking hfew,
        fun sites hopen hqueue hmany hfit => lease_at_once hl h htids hu ha hb hx hcls hy hbooking hfew hopen hqueue hmany hfit⟩⟩⟩
  · exact ⟨fun r hticket => lrel_ticket h htids hu ha hticket, fun hticket => ⟨fun le m hname => lrel_member h htids hu ha hticket hname,
      fun le hname => lrel_evicted h htids hu ha hticket hname, fun hname => lrel_bad h htids hu ha hticket hname⟩⟩
  · obtain ⟨t, hexec, honly, heach⟩ := lstat_owes h
    refine ⟨t, hexec, honly, heach.imp (fun u v howes => ⟨_, fun q hticket => leaseWord_ticket hticket, fun hticket =>
      ⟨fun hname => ?_, fun le hname => ?_, fun le m hname hdie hsite => leaseWord_member hticket hname hdie hsite⟩, howes⟩)⟩
    · simp only [leaseWord, hticket, hname]
    · simp only [leaseWord, hticket, hname]

end Sys2Proof.Machine

end
